-- ==== Sys2Proof/Word.lean ====
section
/-! DEFINITION. The word types of the block and their plainest arithmetic (R7, R8). -/

namespace Sys2Proof

/-- A byte of a packet, a reply, a cairn or a segment (R7). -/
abbrev Byte := BitVec 8

/-- A word of the Knaha data memories, and the usual register width (R8). -/
abbrev Word := BitVec 16

/-- A word of the Knaha program memories and of OTP (R8). -/
abbrev Word32 := BitVec 32

/-- An integer clamped to the range of a signed 16-bit word ("sat" of R365). -/
def sat16 (x : Int) : Int := max (-32768) (min 32767 x)

/-- A natural number clamped at the top of an unsigned 16-bit counter (R337). -/
def satU16 (n : Nat) : Nat := min n 65535

/-- The low 16 bits of an integer in two's complement. -/
def wordOfInt (x : Int) : Word := BitVec.ofInt 16 x

end Sys2Proof
end

