-- ==== Sys2Proof/Syntax.lean ====
section
/-! DEFINITION. The commands and events of the block: one constructor per row of spec/opcode_table.json, with the operands the spec's rules give each. -/

namespace Sys2Proof

/-- A termination class of one CC line (R53). -/
inductive CcClass where
  | opn | ra | rd | rp
deriving DecidableEq, Repr, Inhabited

/-- A place for a command in flight (R288, R298): the host's class 0 and class 1 or 2 places, and the tunnel's. -/
inductive Place where
  | host0 | host12 | tun0 | tun12
deriving DecidableEq, Repr, Inhabited

/-- The two command channels (R287, R298). -/
inductive Chan where
  | host | tunnel
deriving DecidableEq, Repr, Inhabited

/-- What meets an attention attempt on the wire (R280, R281): whether every byte is acknowledged, and the bytes, its address byte first, of
another controller that starts in the same bit. -/
structure AttnTry where
  acked : Bool := true
  rival : Option (List Byte) := none
deriving DecidableEq, Repr, Inhabited

/-- A transaction that is none of the four codes' own (R269, R270, R277): the address and the command code as far as they were sent, and whether
its STOP has been seen; with no address the STOP alone. -/
structure AddrSeen where
  addr : Option Nat := none
  code : Option Nat := none
  stop : Bool := true
deriving DecidableEq, Repr, Inhabited

/-- A supervisor task of R48. -/
inductive Task where
  | interpreter | policy | innkeeper
deriving DecidableEq, Repr, Inhabited

/-- One phase-current channel over one pace: its raw codes (R36: 25 samples; fewer are missing samples). -/
structure PhaseSense where
  codes : List Nat := []
  /-- The highest and the lowest inductor current that the comparators of R157 saw in the pace, in mA. -/
  hi : Int := 0
  lo : Int := 0
deriving DecidableEq, Repr, Inhabited

/-- One port over one pace: 10 voltage and 10 current codes (R36), and what its comparators saw (R54, R149, R175, R176). -/
structure PortSense where
  vCodes : List Nat := []
  iCodes : List Nat := []
  /-- Connector-side level on VBUS_xx in mV, as its comparators resolve it (R149). -/
  vbusMv : Nat := 0
  /-- The comparator samples of each CC line in the pace, in mV (R53, R54). -/
  cc1 : List Nat := []
  cc2 : List Nat := []
  /-- The part transmitted BMC on the attached line in the pace (R55, R71). -/
  bmcTx : Bool := false
  /-- `GATE_xx` over `SRC_xx`, and the drop from `ISN_xx` to `VBUS_xx`, in mV (R175). -/
  gate : Int := 0
  drop : Int := 0
  /-- The current that the switch's regulation met in the pace, in mA, positive out of the port node (R176). -/
  swMa : Int := 0
  /-- The VCONN line's level in mV (R68, R70), and whether the VCONN limit acted throughout the pace. -/
  vconnMv : Nat := 0
  vconnLimit : Bool := false
deriving DecidableEq, Repr, Inhabited

/-- One feed over one pace (R212, R213, R219). -/
structure FeedSense where
  /-- Fx_SNS in 10 mV. -/
  sns : Nat := 0
  /-- Shunt voltage in nV, positive toward the ORed node. -/
  shunt : Int := 0
  /-- The active limit acted in the pace (R221). -/
  limAct : Bool := false
  /-- `Fx_HSG` over `FOUT_SNS`, and the path drop `Fx_ISN` − `FOUT_SNS`, in mV. -/
  hsg : Int := 0
  drop : Int := 0
deriving DecidableEq, Repr, Inhabited

/-- What the converters and comparators deliver for one pace (R36, R146, R212). -/
structure PaceSense where
  phases : List PhaseSense := []
  ports : List PortSense := []
  feeds : List FeedSense := []
  /-- FOUT_SNS in 2 mV. -/
  vOred : Nat := 0
  /-- The thermistor at NTC_r in ohm, per ridge (R18, R337). -/
  ntc : List Nat := []
  /-- Die temperature in 1/16 degree. -/
  dieTemp : Int := 0
  /-- VCONN_IN_r in mV, per ridge (R67). -/
  vconnIn : List Nat := []
  /-- Ridges whose STGFLT_N_r is low (R157). -/
  stgflt : List Nat := []
  /-- Ridges whose pace DMA is incomplete at cycle 64 (R264 DMA_LATE). -/
  dmaLate : List Nat := []
deriving DecidableEq, Repr, Inhabited

/-- A source operand of a Knaha move: a source socket or a 16-bit immediate (R359). -/
inductive KSrc where
  | sock (n : Nat)
  | imm (v : Word)
deriving DecidableEq, Repr, Inhabited

/-- The guard and source of a move whose destination the row names (R356, R361). -/
structure KOp where
  guard : Nat := 0
  src : KSrc := .sock 0
deriving DecidableEq, Repr, Inhabited

/-- A whole move: guard, source, destination socket. -/
structure KMove where
  guard : Nat := 0
  src : KSrc := .sock 0
  dst : Nat := 0
deriving DecidableEq, Repr, Inhabited

/-- One instruction word seen from its row: the engine (0 to 5 the ridges, 6 the supervisor), the row's own move, the
other move of the word where the word is paired (R360), which is move A when `selfIsB`, and the word's reserved bits, which no engine
reads (R359, R360). -/
structure KArg where
  eng : Nat := 0
  op : KOp := {}
  other : Option KMove := none
  selfIsB : Bool := false
  reserved : Nat := 0
deriving DecidableEq, Repr, Inhabited

/-- A Request or EPR_Request of the sink (R92, R93, R103). -/
structure PdRequest where
  epr : Bool := false
  pos : Nat := 1
  /-- Operating and maximum operating current in 10 mA; for PPS the operating current in 50 mA units is ×5. -/
  opCur : Nat := 0
  maxCur : Nat := 0
  /-- Requested voltage in mV (PPS and AVS). -/
  mv : Nat := 0
  mismatch : Bool := false
  eprCapable : Bool := false
  /-- The copy of the object in an EPR_Request matches the one sent. -/
  copyOk : Bool := true
  /-- Revision 2.0 header (R81). -/
  rev20 : Bool := false
deriving DecidableEq, Repr, Inhabited

/-- An e-marker's Discover Identity answer (R84, R86). -/
structure CableId where
  fiveA : Bool := false
  vMax : Nat := 0
  epr : Bool := false
  active : Bool := false
deriving DecidableEq, Repr, Inhabited

/-- A fixed object of a source's capabilities as the sink role reads it (R114): position, mV, 10 mA. -/
structure FixedPdo where
  pos : Nat := 1
  mv : Nat := 5000
  cur : Nat := 0
deriving DecidableEq, Repr, Inhabited

/-- The kind of a VDM answer (R130). -/
inductive VdmAck where
  | ack | nak | busy
deriving DecidableEq, Repr, Inhabited

/-- A partner's answer to a swap (R121). -/
inductive SwapReply where
  | accept | reject | wait | notSupported
deriving DecidableEq, Repr, Inhabited

/-- The three swaps (R117). -/
inductive SwapKind where
  | pr | dr | vconn
deriving DecidableEq, Repr, Inhabited

/-- A structured VDM request received on SOP (R136, R476). -/
structure VdmReq where
  svid : Nat := 0xFF00
  /-- 1 Discover Identity, 2 Discover SVIDs, 3 Discover Modes, 4 Enter Mode, 5 Exit Mode, 16 to 31 SVID specific. -/
  cmd : Nat := 1
  pos : Nat := 0
deriving DecidableEq, Repr, Inhabited

/-- A segment header VDO of R140 with its data VDOs. -/
structure Segment where
  msgType : Nat := 0
  seq : Nat := 0
  index : Nat := 0
  last : Nat := 0
  len : Nat := 0
  data : List Word32 := []
deriving DecidableEq, Repr, Inhabited

/-- A Security_Request of R144. -/
inductive SecReq where
  | getDigests
  | getCertificate (slot offset length : Nat)
  | challenge (slot : Nat) (nonce : List Byte)
deriving DecidableEq, Repr, Inhabited

/-- A Security_Response of R144 as initiator. -/
inductive SecResp where
  | digests (d : List Byte)
  | certificate (chain : List Byte)
  | challengeAuth (sig : List Byte)
  | error
  | none
deriving DecidableEq, Repr, Inhabited

/-- What the host's fixture or the array does to a burn, as the verify at both margins finds it (R320, R413, R420): the words that
read weak after the burn, and after how many words it was cut short by the loss of supply, a shut-off or a reset (R414, R415). -/
structure BurnResult where
  weak : List Nat := []
  cut : Option Nat := none
deriving DecidableEq, Repr, Inhabited

/-- A wake qualification with what the always-on domain saw in that tick (R236). -/
structure RailSample where
  good : Bool := false
deriving DecidableEq, Repr, Inhabited

/-- What the part sees as a step of the sequence qualifies: the `IMON_xx` levels in mV of the fitting read (R23), and the ports on one CC line
of which Rp stands as `VIO` comes up (R75, R77). -/
structure StepSense where
  imonMv : List Nat := []
  rp : List Nat := []
deriving DecidableEq, Repr, Inhabited

/-- A port's event that the part answers with a message, and whether the sink's GoodCRC came for it (R55; log 19). -/
structure PortAck where
  port : Nat
  goodCrc : Bool
  deriving DecidableEq, Repr

/-- A command whose execution sends a message, and whether the partner's GoodCRC came for it (R55, R309). -/
structure SentAck where
  place : Place
  goodCrc : Bool
  deriving DecidableEq, Repr

/-- A current seen at a port's path, in mA. -/
structure PortCurrent where
  port : Nat
  ma : Nat
  deriving DecidableEq, Repr

/-- A phase's inductor current, in mA (outward positive), and the engine cycle of its carrier period at which it is seen. -/
structure PhaseCurrent where
  phase : Nat
  ma : Int
  cyc : Nat
  deriving DecidableEq, Repr

/-- A feed whose path is fully on (R219), with what its comparators saw in the pace, for the fault logic that comes before power-good (R224):
the highest FA_SNS in 10 mV and the highest shunt voltage in nV. -/
structure FeedOn where
  feed : Nat
  sns : Nat := 0
  nv : Nat := 0
  deriving DecidableEq, Repr

/-- A level seen at a feed: the shunt voltage in nV for the fast trip, FA_SNS in 10 mV for the overvoltage turn-off. -/
structure FeedLevel where
  feed : Nat
  level : Nat
  deriving DecidableEq, Repr

/-- The drop across a feed's ideal-diode gate, in mV (from the feed to the node positive). -/
structure FeedDrop where
  feed : Nat
  drop : Int
  deriving DecidableEq, Repr

/-- The VDOs of a SEG_PUT: the segment's header VDO and its data VDOs (R139, R140). -/
structure SegVdos where
  hdr : Word32
  data : List Word32
  deriving DecidableEq, Repr

/-- The commands and events of the block (spec/opcode_table.json), in the table's order. -/
inductive Instr where
  -- host bus
  | cmdPut (count : Nat) (data : List Byte) (pec : Option Byte)
  | commandAccept (ch : Chan)
  | resGet (clocked : Nat) (withPec : Bool)
  | busStatus
  | attnAck (data : List Byte) (pec : Option Byte)
  | addressMatchWake (a : AddrSeen)
  | busSclTimeout
  | busEdgeTimeout
  | stuckRelease
  | busIdleDetect
  | attentionWrite (o : AttnTry)
  | attentionBackoffExpiry (o : AttnTry)
  -- opcodes, executed from the place that holds the accepted packet
  | identify (pl : Place)
  | echo (pl : Place)
  | getParam (pl : Place)
  | setParam (pl : Place)
  | paramTakeEffect
  | attachModeChange (p : Nat)
  | testerPolicyZero
  | eprEnClear (p : Nat)
  | portErrorRecovery (pl : Place)
  | portCableDiscover (pl : Place)
  | portRediscover (pl : Place)
  | portDrSwap (pl : Place)
  | modeEnter (pl : Place)
  | modeExit (pl : Place)
  | vdmSend (x : SentAck)
  | discRead (pl : Place)
  | modeTableRead (pl : Place)
  | modeTableWrite (pl : Place)
  | eventRead (pl : Place)
  | ledgerRead (pl : Place)
  | sleep (pl : Place)
  | sleepDelayExpiry
  | faultClear (pl : Place)
  | faultPinRelease (pl : Place)
  | faultPinHold (pl : Place)
  | faultRead (pl : Place)
  | otpRead (pl : Place)
  | otpBurn (pl : Place) (r : BurnResult)
  | finalise (pl : Place) (r : BurnResult)
  | calCapture (pl : Place) (load : Bool)
  | calBurn (pl : Place) (r : BurnResult)
  | calRead (pl : Place)
  | cairnSync (pl : Place)
  | cairnDrop (pl : Place)
  | progLoad (pl : Place)
  | progRead (pl : Place)
  | ucodeLoad (pl : Place)
  | progSwitchStaging (pl : Place)
  | progSwitchRomLaw (pl : Place)
  | bankSwitch (r : Nat)
  | patchLoad (pl : Place)
  | patchVerify (pl : Place)
  | patchDrop (pl : Place)
  | phaseRetire (pl : Place)
  | phaseReadmit (pl : Place) (imonMv : Nat)
  | portRecal (pl : Place) (v i : List Nat)
  | supRestartPatch (pl : Place)
  | supRestartRom (pl : Place)
  | ageingMeasure (pl : Place)
  | authKeygen (pl : Place) (r : BurnResult)
  | authPubkey (pl : Place)
  | authChainLoad (pl : Place)
  | authInitiate (pl : Place)
  | authPeerRead (pl : Place)
  | diagCapture (pl : Place)
  | diagCaptureTrigger
  | diagCaptureTimeout
  | diagDump (pl : Place)
  -- pace and frame
  | paceBoundary (sense : PaceSense)
  | carrierStart (k : Nat)
  | ridgeProgramStart (r : Nat)
  | pwmPub (a : KArg)
  | paceOverrun (r : Nat)
  | frameBoundary
  | taskCapReached (t : Task)
  | innkeeperSolveComplete
  | degradedEnd
  | dipHoldEnd
  | dipExit
  | feedlessExpiry
  | shedBackstop (p : Nat)
  | overdrawTypecEnd (p : Nat)
  | clockFault
  | pllLock
  | pllLockTimeout
  -- Type-C
  | ccSniff (p : Nat) (seen : List (List Nat × List Nat))
  | toggleSourceEnd (p : Nat)
  | toggleSinkEnd (p : Nat)
  | attachDebounceSrc (p : Nat)
  | attachDebounceSnk (p : Nat)
  | attachwaitTimeout (p : Nat)
  | unexpectedVbus (p : Nat)
  | portSwitchClose (p : Nat)
  | vbusStartCheck (p : Nat)
  | errorRecoveryEnd (p : Nat)
  | sinkVbusLoss (p : Nat)
  | detachByDebounce (p : Nat)
  | detachByCurrent (p : Nat)
  | detachSwitchOpen (p : Nat)
  | vbusDischargeComplete (p : Nat)
  | vbusDischargeTimeout (p : Nat)
  | vconnGood (x : PortAck)
  | vconnFaultTimerTrip (p : Nat)
  | vconnHardTrip (p : Nat)
  | vconnReverseBlock (p : Nat)
  | vconnSupplyLoss (p : Nat)
  | vconnDischargeEnd (p : Nat)
  /-- `ticks`: for how long `VBOOT` has stayed at or above 4.30 V. -/
  | vbootQualify
  | vbootDisqualify
  | bootPortSelect
  | passiveRdTakeover (p : Nat)
  -- contracts
  | sourceCapSend (p : Nat) (goodCrc : Bool)
  | collisionWaitExpiry (p : Nat)
  | cableDiscoverAttempt (p : Nat)
  | cableIdentityResponse (p : Nat) (c : CableId)
  | goodcrcRetryFail (p : Nat) (sopPrime : Bool)
  | senderResponseTimeout (p : Nat) (sopPrime : Bool)
  | requestReceived (p : Nat) (q : PdRequest)
  | transitionStart (p : Nat)
  | transitionSettled (p : Nat)
  | phasesNotPlacedTimeout (p : Nat)
  | ppsTimeout (p : Nat)
  | eprModeEnter (p : Nat)
  | eprKeepalive (p : Nat)
  | eprKeepaliveTimeout (p : Nat)
  | eprModeExit (p : Nat)
  | eprPartExit (p : Nat)
  | loweredCapsTimeout (p : Nat)
  | getSourceCap (p : Nat)
  | getSinkCap (p : Nat)
  | getSourceCapExtended (p : Nat)
  | getStatus (p : Nat)
  | getPpsStatus (p : Nat)
  | getSourceInfo (p : Nat)
  | getRevision (p : Nat)
  | alertReceived (p : Nat) (ado : Word32)
  | unsupportedRequest (p : Nat)
  | protocolError (p : Nat)
  | softResetTimeout (p : Nat)
  | sourceCapRepeat (p : Nat) (goodCrc : Bool)
  | hardResetReceived (p : Nat)
  | hardResetTakedown (p : Nat)
  | hardResetRecover (p : Nat)
  | lossOfConversion (p : Nat)
  | outOfServiceReturn (p : Nat)
  | holdMessageAnswer (p : Nat) (keepAlive : Bool)
  | holdHardReset (p : Nat)
  | sinkSourceCapReceived (p : Nat) (objs : List FixedPdo)
  | sinkVbusCheckTimeout (p : Nat)
  -- swaps
  | prSwapSend (p : Nat)
  | prSwapAccept (p : Nat)
  | prSwapPsRdy (p : Nat)
  | prSwapSourceOffTimeout (p : Nat)
  | swapResponseTimeout (p : Nat)
  | prSwapReceived (p : Nat)
  | drSwapReceived (x : PortAck)
  | vconnSwapSend (p : Nat)
  | vconnSwapReceived (p : Nat)
  | vconnSwapPartnerPsRdy (p : Nat)
  | vconnSourceTimeout (p : Nat)
  | swapSuppressionEnd (p : Nat) (kd : SwapKind)
  | sinkVbusRestoreTimeout (p : Nat)
  -- discovery and modes
  | discoveryStart (p : Nat)
  | vdmResponse (p : Nat) (k : VdmAck) (v10 : Bool) (vdos : List Word32)
  | vdmBusyRetry (p : Nat)
  | vdmResponseTimeout (p : Nat)
  | modeEntryTimeout (p : Nat)
  | attentionVdmReceived (p : Nat) (hdr : Word32) (vdo : Option Word32)
  | unstructuredVdm (p : Nat)
  | vdmRequestAsUfp (p : Nat) (v : VdmReq)
  | vdmRequestAsDfp (p : Nat) (v : VdmReq)
  -- service tester
  | serviceEnterMode (p : Nat) (pos : Nat)
  | segPut (p : Nat) (g : SegVdos)
  | segGet (p : Nat) (seq : BitVec 8) (index : BitVec 4)
  | hello (p : Nat)
  | tAuth (p : Nat)
  | pAuthReady
  | tunnelCmd (p : Nat)
  | sessionIdleTimeout
  | serviceExitMode (p : Nat)
  | authFailureDelayEnd
  | securityRequest (p : Nat) (q : SecReq)
  -- the table's last rows, among the ports' rows: the compiled form of an inductive numbers few constructors that carry fields
  | swapReplyReceived (p : Nat) (r : SwapReply)
  | softResetReceived (p : Nat)
  | sinkAcceptReceived (p : Nat) (psRdy : Bool)
  | securityResponse (p : Nat) (r : SecResp)
  | prSwapVbusConfirmTimeout (p : Nat)
  | ntcOutOfRange (r : Nat)
  | aonDischargeTimeout (p : Nat)
  | commandInterpreterStart
  -- guard and phases
  | guardDrainZero (k : Nat)
  | guardDrainTimeout (k : Nat)
  | guardZeroCountDone (k : Nat)
  | guardCountTimeout (k : Nat)
  | guardBreakDone (k : Nat)
  | guardPrebiasTimeout (k : Nat)
  | peakValleyLimit (x : PhaseCurrent)
  | pklimStop (k : Nat)
  | phaseAbsentRun (k : Nat)
  | stageFault (r : Nat)
  | phaseInvStop (k : Nat)
  | ridgeHot (r : Nat)
  -- port path
  | portCloseComplete (x : PortAck)
  | portCloseTimeout (p : Nat)
  | portFaultTimerTrip (p : Nat)
  | portFaultTimerReset (p : Nat)
  | portFastTrip (x : PortCurrent)
  | portReverseBlock (x : PortCurrent)
  | portOvervoltage (p : Nat)
  | portTripCountClear (p : Nat)
  -- feeds
  | feedQualifyComplete (x : Nat)
  | feedWindowLoss (x : Nat)
  | feedRampTurnTake (x : Nat)
  | feedFullyOn (m : FeedOn)
  | feedRampTimeout (x : Nat)
  /-- `nv`: the shunt voltage at the comparator, in nV. -/
  | feedFastTrip (l : FeedLevel)
  | feedFaultTimerTrip (x : Nat)
  | feedFaultTimerReset (x : Nat)
  /-- `sns`: `Fx_SNS` at the comparator, in 10 mV. -/
  | feedOvTurnoff (l : FeedLevel)
  | feedUvRun (x : Nat)
  | feedHoldoffReturn (x : Nat)
  | feedRetryDelayEnd (x : Nat)
  /-- `drop`: `Fx_ISN` − `FOUT_SNS` at the comparator, in mV. -/
  | feedReverseTurnoff (d : FeedDrop)
  | feedOdgTurnOn (x : Nat)
  | feedIdealDiodeFault (x : Nat)
  | feedTripCountClear (x : Nat)
  -- wake, sequence, shutdown
  | ignWake
  | resetNRelease (addrPins : Nat)
  | resetNAssert
  | vbatAonPowerOn (ignHigh : Bool) (addrPins : Nat)
  | vbatAonDrop
  | seqStepQualify (m : StepSense) (r : Nat)
  | seqStepTimeout
  | otpReadComplete
  | step6FeedlessTimeout
  | stgenRidgeTimeout (r : Nat)
  | runningRailFault
  | dieHot
  | dieWarn
  | shutoffRailWaitEnd (railsOff : Bool)
  | shutdownStepOff
  | shutdownNofallTimeout
  | holdoffEnd
  | ignChange (high : Bool)
  | ignOffDelayExpiry
  -- bring-up
  | calibrationTakeup
  | reducedServiceStart
  | cairnRestore
  | patchVerification
  | ridgeBankLoad
  | endOfBringup
  | faultNPulseEnd
  -- cairns, ageing, supervisor
  | cairnWriteBegin
  | cairnWriteComplete
  | bankCopyComplete (r : Nat)
  | probeRecordComplete (r : Nat)
  | measurementComplete (r : Nat)
  | replanApply (r : Nat)
  | lossFit
  | ageingMeasureTimeout (r : Nat)
  | readmitTimeout (r : Nat)
  | supRestartHoldBegin
  | supervisorReturn
  | holdExpiry
  | interruptTaken (vector : Word)
  | irqRet (a : KArg)
  -- Knaha words, by the socket their move writes
  | move (a : KArg) (dst : Nat)
  | memRead (a : KArg) (u : Nat) (dst : Nat)
  | memWrite (a : KArg) (u : Nat)
  | aluPass (a : KArg)
  | aluAdd (a : KArg)
  | aluSub (a : KArg)
  | aluAdds (a : KArg)
  | aluSubs (a : KArg)
  | aluAnd (a : KArg)
  | aluOr (a : KArg)
  | aluXor (a : KArg)
  | aluShl (a : KArg)
  | aluSar (a : KArg)
  | aluShr (a : KArg)
  | aluMin (a : KArg)
  | aluMax (a : KArg)
  | aluAbs (a : KArg)
  | aluNeg (a : KArg)
  | cmpLt (a : KArg)
  | cmpLe (a : KArg)
  | cmpEq (a : KArg)
  | cmpNe (a : KArg)
  | cmpGe (a : KArg)
  | cmpGt (a : KArg)
  | cmpLtu (a : KArg)
  | cmpGeu (a : KArg)
  | cmpTst (a : KArg)
  | cmpPset (a : KArg)
  | macMul (a : KArg)
  | macMac (a : KArg)
  | macMsu (a : KArg)
  | macDmac (a : KArg)
  | macLd (a : KArg)
  | macClr (a : KArg)
  | macMode (a : KArg)
  | macTriggerComplete (e : Nat)
  | lpRep (a : KArg)
  | lpRepH (a : KArg)
  | repeatEnd (e : Nat)
  | pcJmp (a : KArg)
  | pcCall (a : KArg)
  | pcRet (a : KArg)
  | pwmDutyWrite (a : KArg) (k : Nat)
  | steerReq (a : KArg)
  | cstTrigger (a : KArg) (n : Nat)
deriving DecidableEq, Repr, Inhabited

end Sys2Proof
end

