-- ==== Sys2Proof/Decode.lean ====
section
/-! DEFINITION. The command a word of the table's bits spells: no row of the table gives bits, so no word spells a command. -/

namespace Sys2Proof

/-- The rows of spec/opcode_table.json have no bit pattern, so every word spells no command (log 2). -/
def decodeTableWord (_nbits _w : Nat) : Option Instr := none

end Sys2Proof
end

