-- ==== Sys2Proof/Config.lean ====
section
/-! DEFINITION. What the spec leaves open: opaque constants with no body. Each is named in the assumption log; no statement can rest on a value of one. -/

namespace Sys2Proof.Config

/-- Free value: whether a quotient that is not whole is taken upward where the spec states no rounding (log 3). -/
opaque roundUp : Int → Int → Bool

/-- Free value number n of the step: a duty, a current reference, an estimate the spec gives no figure for (log 4). -/
opaque freeInt : Nat → Int

/-- Free octets from the part's random generator (R408, R138): nonces and drawn secrets (log 5). -/
opaque freeBytes : Nat → Nat → List Byte

/-- What the outer loop's controller adds, in mA: coefficient set, the model's counter (the controller's history), voltage error in
2 mV (R158, R159: the spec gives crossovers and margins, no coefficients; log 4). -/
opaque piOuter : Nat → Nat → Int → Int

/-- What an inner loop's controller adds to the duty: coefficient set, the model's counter, current error in mA (log 4). -/
opaque piInner : Nat → Nat → Int → Int

/-- Whether an on-time of fewer than 8 engine cycles is stretched to 8 or left out (R154; log 73). -/
opaque stretches : Nat → Bool

/-- ECDSA over P-256 (R141, R144, R328): verification of a signature by a public key over a message, uninterpreted (log 6). -/
opaque ecdsaVerify : List Byte → List Byte → List Byte → Bool

/-- ECDSA over P-256 signing with a private key and a free nonce, uninterpreted (log 6). -/
opaque ecdsaSign : List Byte → List Byte → Nat → List Byte

/-- The public key that belongs to a private key, uninterpreted (log 6). -/
opaque publicKey : List Byte → List Byte

/-- The scrambling transform of R408, which is not published (log 7). -/
opaque scramble : List Byte → List Byte

/-- The inverse of the scrambling transform, used inside the key store (R408; log 7). -/
opaque unscramble : List Byte → List Byte

/-- The verdict of the chain checks of USB Type-C Authentication (R144, R331), which the spec does not restate (log 8). -/
opaque chainWellFormed : List Byte → Bool

/-- The leaf key that a certificate chain carries (R144, R331; log 8). -/
opaque chainLeafKey : List Byte → List Byte

/-- The number, mod 16, of the bit of `irq.src` and `irq.en` that belongs to an interrupt source: the layout is not in the spec (R354, R379;
log 76). -/
opaque irqIndex : Nat → Nat

/-- A word of patch RAM beyond the words of the image that runs (R352, R354; log 9). -/
opaque patchTail : Nat → Word32

/-- The word of the supervisor's ROM at an address: the ROM's contents are not in the spec (R352, R354; log 9). -/
opaque supervisorRom : Nat → Word32

/-- A word of the coefficient tables that law 1 writes to Y 0x0100 to 0x02FF: their values are not in the spec (R392; log 77). -/
opaque lawCoefficient : Nat → Word

/-- A word of X 0x0520 to 0x053F: an index into those tables, by position and the sets in use; its form is not in the spec (R392; log 77). -/
opaque lawIndex : Nat → List Nat → Word

/-- The word of a ROM law's image (law number, address): the images are not in the spec (R391; log 9). -/
opaque lawImage : Nat → Nat → Word32

/-- The decode-table entry of a ROM law or of the supervisor's ROM (law number, entry; 0 the supervisor; log 9). -/
opaque lawTable : Nat → Nat → Word32

/-- What a supervisor peripheral reads (R354: the manual does not describe them; log 10): address, then the free counter. -/
opaque peripheral : Nat → Nat → Word

/-- The temperature in 1/16 °C of a thermistor from NTC_R25 in 10 Ω, NTC_BETA in K and its resistance in ohm (R264, R337: the spec gives
no formula; log 83). -/
opaque ntcTemp : Nat → Nat → Nat → Int

/-- Estimates of margin mode from the eight records of a measurement (R434), by item number of scope 6 (log 11). -/
opaque estimate : Nat → List Int → Nat

/-- The least-squares fit of R436 from its inputs: 0 for LOSS_A, 1 for LOSS_B (log 11). -/
opaque lossFit : Nat → List Int → Nat

end Sys2Proof.Config
end

