-- ==== Sys2Proof/Machine/Bits.lean ====
section
/-! DEFINITION. Bit fields, byte orders, the checksums of R273, R328, R416 and R425, rounding, and sparse memories. -/

namespace Sys2Proof.Machine

/-- The field of `w` bits of `n` from bit `lo` up. -/
def fld (n lo w : Nat) : Nat := n / 2 ^ lo % 2 ^ w

/-- A switch as a number: 1 means on (R336). -/
def b1 (b : Bool) : Nat := b.toNat

/-- A bit of a bit field at its place. -/
def bitAt (i : Nat) (b : Bool) : Nat := b.toNat * 2 ^ i

/-- A byte of a number. -/
def byteOf (n : Nat) : Byte := BitVec.ofNat 8 n

/-- `k` bytes of `n`, least significant first (R7). -/
def leBytes : Nat → Nat → List Byte
  | 0, _ => []
  | k + 1, n => byteOf n :: leBytes k (n / 256)

/-- The number that bytes spell, least significant first (R7). -/
def leNat : List Byte → Nat
  | [] => 0
  | b :: bs => b.toNat + 256 * leNat bs

/-- `k` bytes of a packet from `off` as a number; bytes that are not there count as zero. -/
def rdLe (bs : List Byte) (off k : Nat) : Nat := leNat ((bs.drop off).take k)

/-- A byte of a packet as a number. -/
def rdB (bs : List Byte) (i : Nat) : Nat := (bs.getD i 0).toNat

/-- Two bytes of a packet as a signed number. -/
def rdS16 (bs : List Byte) (off : Nat) : Int :=
  let n := rdLe bs off 2
  if n < 32768 then (n : Int) else (n : Int) - 65536

/-- A signed number in `w` bits of two's complement. -/
def twos (w : Nat) (x : Int) : Nat := (x % (2 ^ w : Int)).toNat

/-- A quotient: exact where it is whole, else one of its two neighbours (log 3). -/
def roundDiv (n : Int) (d : Nat) : Int :=
  if n % (d : Int) = 0 then n / d else n / d + (if Config.roundUp n d then 1 else 0)

/-- A rounded quotient of naturals. -/
def roundDivNat (n d : Nat) : Nat := (roundDiv n d).toNat

/-- One bit of the CRC-8 of SMBus, polynomial x^8 + x^2 + x + 1 (R273). -/
def crc8Bit (c : Nat) : Nat :=
  if c < 128 then c * 2 else (c * 2 % 256) ^^^ 7

def crc8Byte (c : Nat) (b : Byte) : Nat :=
  crc8Bit (crc8Bit (crc8Bit (crc8Bit (crc8Bit (crc8Bit (crc8Bit (crc8Bit (c ^^^ b.toNat))))))))

/-- The PEC of a transaction's bytes (R273). -/
def crc8 (bs : List Byte) : Byte := byteOf (bs.foldl crc8Byte 0)

def crc32Bit (c : Nat) : Nat :=
  if c % 2 = 0 then c / 2 else (c / 2) ^^^ 0xEDB88320

def crc32Byte (c : Nat) (b : Byte) : Nat :=
  crc32Bit (crc32Bit (crc32Bit (crc32Bit (crc32Bit (crc32Bit (crc32Bit (crc32Bit (c ^^^ b.toNat))))))))

/-- CRC-32 with reflected polynomial 0xEDB88320, initial value and final exclusive-or 0xFFFFFFFF. -/
def crc32 (bs : List Byte) : Nat := (bs.foldl crc32Byte 0xFFFFFFFF) ^^^ 0xFFFFFFFF

/-! ### SHA-256, as R141, R328 and R411 name it

FIPS 180-4 takes its constants from the fractional parts of roots of the first primes; they are computed here from
that definition, over naturals. -/

/-- The largest number below `2 ^ k + x` that `ok` admits, found bit by bit from `x`, for an `ok` that is downward closed. -/
def greatest (ok : Nat → Bool) : Nat → Nat → Nat
  | 0, x => x
  | k + 1, x => greatest ok k (if ok (x + 2 ^ k) then x + 2 ^ k else x)

/-- The first `n` primes after those in `ps`, from `c` on, with `fuel` candidates. -/
def primesFrom : Nat → Nat → List Nat → List Nat
  | 0, _, ps => ps
  | fuel + 1, c, ps => primesFrom fuel (c + 1) (if ps.all fun p => c % p != 0 then ps ++ [c] else ps)

/-- The 64 primes up to 311. -/
def shaPrimes : List Nat := primesFrom 310 2 []

/-- 32 fractional bits of the `e`-th root of each prime. -/
def rootBits (e : Nat) (ps : List Nat) : List Nat :=
  ps.map fun p => greatest (fun r => decide (r ^ e ≤ p * 2 ^ (32 * e))) 37 0 % 2 ^ 32

/-- A 32-bit word turned right by `r`. -/
def spin (x r : Nat) : Nat := x * (2 ^ 32 + 1) / 2 ^ r % 2 ^ 32

/-- The word that enters the schedule's window of sixteen after the words in it. -/
def windowNext (w : List Nat) : Nat :=
  let early := w.getD 1 0
  let late := w.getD 14 0
  (w.getD 0 0 + w.getD 9 0 + (spin early 7 ^^^ spin early 18 ^^^ early / 8)
    + (spin late 17 ^^^ spin late 19 ^^^ late / 1024)) % 2 ^ 32

/-- One round: the eight words of the chain, given the round's constant plus its schedule word. -/
def chainTurn (v : List Nat) (kw : Nat) : List Nat :=
  match v with
  | [a, b, c, d, e, f, g, h] =>
    let pick := (e &&& f) ||| ((2 ^ 32 - 1 - e) &&& g)
    let most := (a &&& (b ||| c)) ||| (b &&& c)
    let x := h + kw + pick + (spin e 6 ^^^ spin e 11 ^^^ spin e 25)
    [(x + most + (spin a 2 ^^^ spin a 13 ^^^ spin a 22)) % 2 ^ 32, a, b, c, (d + x) % 2 ^ 32, e, f, g]
  | _ => v

/-- The rounds of one block: a constant each, the window of schedule words, the chain. -/
def chainRun : List Nat → List Nat → List Nat → List Nat
  | [], _, v => v
  | k :: ks, w, v => chainRun ks (w.drop 1 ++ [windowNext w]) (chainTurn v (k + w.getD 0 0))

/-- `k` bytes of `n`, most significant first. -/
def beBytes (k : Nat) (n : Nat) : List Byte := (leBytes k n).reverse

/-- `n` words of four bytes each, most significant byte first. -/
def beWords : Nat → List Byte → List Nat
  | 0, _ => []
  | n + 1, bs => leNat (bs.take 4).reverse :: beWords n (bs.drop 4)

/-- The chain after `n` blocks of 64 bytes. -/
def chainBlocks (ks : List Nat) : Nat → List Nat → List Byte → List Nat
  | 0, v, _ => v
  | n + 1, v, bs =>
    chainBlocks ks n (List.zipWith (fun x y => (x + y) % 2 ^ 32) v (chainRun ks (beWords 16 bs) v)) (bs.drop 64)

/-- SHA-256 of a string of bytes: a one bit, zeros to eight bytes short of a block, the length in bits. -/
def sha256 (bs : List Byte) : List Byte :=
  let m := bs ++ 0x80 :: (List.replicate ((119 - bs.length % 64) % 64) 0 ++ beBytes 8 (8 * bs.length))
  (chainBlocks (rootBits 3 shaPrimes) (m.length / 64) (rootBits 2 (shaPrimes.take 8)) m).flatMap (beBytes 4)

/-! ### Sparse memories in canonical form -/

/-- What a sparse memory holds at an address: an unlisted address reads zero. -/
def cellsRead {w : Nat} (c : List (Nat × BitVec w)) (a : Nat) : BitVec w :=
  match c with
  | [] => 0
  | (b, v) :: rest => if a = b then v else if a < b then 0 else cellsRead rest a

/-- A write that keeps addresses rising and lists no zero. -/
def cellsWrite {w : Nat} (c : List (Nat × BitVec w)) (a : Nat) (v : BitVec w) : List (Nat × BitVec w) :=
  match c with
  | [] => if v = 0 then [] else [(a, v)]
  | (b, u) :: rest =>
    if a < b then (if v = 0 then (b, u) :: rest else (a, v) :: (b, u) :: rest)
    else if a = b then (if v = 0 then rest else (a, v) :: rest)
    else (b, u) :: cellsWrite rest a v

/-- Addresses from `lo` on, strictly rising, no zero listed. -/
def cellsWf {w : Nat} : Nat → List (Nat × BitVec w) → Bool
  | _, [] => true
  | lo, (b, v) :: rest => decide (lo ≤ b) && (v != 0) && cellsWf (b + 1) rest

/-- Words written from an address up. -/
def cellsStore {w : Nat} (c : List (Nat × BitVec w)) (a : Nat) : List (BitVec w) → List (Nat × BitVec w)
  | [] => c
  | v :: vs => cellsStore (cellsWrite c a v) (a + 1) vs

/-- `n` words read from an address up. -/
def cellsLoad {w : Nat} (c : List (Nat × BitVec w)) (a : Nat) : Nat → List (BitVec w)
  | 0 => []
  | n + 1 => cellsRead c a :: cellsLoad c (a + 1) n

/-! ### Sorted maps from numbers to values of their own kind -/

/-- The value listed for a key. -/
def mapGet {α : Type} (m : List (Nat × α)) (k : Nat) : Option α :=
  match m with
  | [] => none
  | (j, v) :: rest => if k = j then some v else mapGet rest k

/-- The map with a key's value set; keys stay rising. -/
def mapSet {α : Type} (m : List (Nat × α)) (k : Nat) (v : α) : List (Nat × α) :=
  match m with
  | [] => [(k, v)]
  | (j, u) :: rest =>
    if k < j then (k, v) :: (j, u) :: rest else if k = j then (k, v) :: rest else (j, u) :: mapSet rest k v

/-- The map without a key. -/
def mapErase {α : Type} (m : List (Nat × α)) (k : Nat) : List (Nat × α) := m.filter fun p => p.1 != k

end Sys2Proof.Machine
end

