-- ==== Sys2Proof/Machine/State.lean ====
section
/-! DEFINITION. The state of the block as plain data: everything the spec gives the part, by block, and its reset. -/

namespace Sys2Proof.Machine

/-- Why a step stops with a fault: the spec gives every command an effect, so there is no such reason. -/
inductive Fault where
deriving DecidableEq, Repr

/-- Why a step has no meaning. -/
inductive Refusal where
  /-- An arm of exec without a meaning. Safe. -/
  | notModelled (mnemonic : String)
deriving DecidableEq, Repr, Inhabited

/-- A sparse memory: addresses strictly rising, no entry equal to zero, an unlisted address reads zero. -/
abbrev Cells (w : Nat) := List (Nat × BitVec w)

/-! ### Fault records (R254, R255) -/

/-- One block record: the four items of R255. -/
structure Flt where
  sticky : Word := 0
  first : Word32 := 0
  pin : Word := 0
  attn : Word := 0xFFFF
  /-- The interrupt enables into the supervisor, which the ROM firmware keeps set (R256). -/
  irq : Word := 0xFFFF
  /-- The model's stamp of the pace (or tick) in which `first` was written, for the rule of several sources in one pace. -/
  stamp : Nat := 0
  /-- The stamp of the last change of a bit of `sticky` from 0 to 1 (R332). -/
  last : Nat := 0
deriving DecidableEq, Repr, Inhabited

/-- The kinds of blocks of R254. -/
inductive Blk where
  | seq | aon | supv | sense | bus | otp | therm
  | feed (x : Nat) | portCc (p : Nat) | portPath (p : Nat) | phase (k : Nat) | ridge (r : Nat)
deriving DecidableEq, Repr, Inhabited

/-- An interrupt source of the supervisor (R47, R256, R379). -/
inductive IrqSource where
  | tick | fault (b : Blk) (i : Nat)
deriving DecidableEq, Repr, Inhabited

/-- A number for a block, in the order of the constructors. -/
def Blk.code : Blk → Nat
  | .seq => 0
  | .aon => 1
  | .supv => 2
  | .sense => 3
  | .bus => 4
  | .otp => 5
  | .therm => 6
  | .feed x => 7 + x
  | .portCc p => 9 + p
  | .portPath p => 33 + p
  | .phase k => 57 + k
  | .ridge r => 105 + r

/-- A number for each source. -/
def IrqSource.code : IrqSource → Nat
  | .tick => 0
  | .fault b i => 1 + 16 * b.code + i

/-- The bit of a source in `irq.src` and `irq.en`. -/
def IrqSource.bit (x : IrqSource) : Word := BitVec.ofNat 16 (2 ^ (Config.irqIndex x.code % 16))

/-! ### Knaha engines (R352 to R379) -/

/-- An address unit (R370). -/
structure AddrUnit where
  ptr : Word := 0
  step : Word := 0
  base : Word := 0
  len : Word := 0
  mode : Word := 0
deriving DecidableEq, Repr, Inhabited

/-- What a multiplier trigger in flight will do to the accumulator (R367). -/
inductive MacDo where
  | set (x : Int) | add (x : Int)
deriving DecidableEq, Repr, Inhabited

/-- A multiplier trigger in flight and the engine cycle at whose start it lands (R367). -/
structure MacOp where
  due : Nat := 0
  what : MacDo := .set 0
deriving DecidableEq, Repr, Inhabited

/-- The one-deep interrupt shadow of the supervisor (R379). -/
structure Shadow where
  pc : Word := 0
  jump : Option Word := none
  rep : Option Nat := none
  repHold : Bool := false
  pred : BitVec 4 := 0
  irqEn : Word := 0
  /-- The sources that were pending when the interrupt was taken. -/
  srcs : List IrqSource := []
deriving DecidableEq, Repr, Inhabited

/-- One Knaha engine: its sockets' state, sequencing state and data memories. -/
structure Engine where
  gp : List Word := List.replicate 16 0
  aluA : Word := 0
  aluRes : Word := 0
  cmpA : Word := 0
  cmpP : Word := 0
  macA : Word := 0
  cstB : Word := 0
  /-- g0 to g3 in bits 0 to 3 (R362). -/
  pred : BitVec 4 := 0
  /-- The 40-bit accumulator, signed (R367). -/
  acc : Int := 0
  /-- Triggers in flight, oldest first. -/
  macPipe : List MacOp := []
  macLatched : Bool := false
  /-- The last completed result, which latched mode shows (R368). -/
  macOut : Int := 0
  macDrop : Bool := false
  macOvf : Bool := false
  /-- px0 to px3, then py0 to py3. -/
  units : List AddrUnit := List.replicate 8 {}
  /-- A repeat in force on the word at pc: iterations still to run; `some 0` has run out (R371). -/
  rep : Option Nat := none
  repHold : Bool := false
  calls : List Word := []
  pc : Word := 0
  /-- A jump taken whose delay slot is the word at pc (R372). -/
  jump : Option Word := none
  /-- Engine cycle within the pace (ctl.cyc); a running count on the supervisor. -/
  cyc : Nat := 0
  running : Bool := false
  /-- Custom registers u0 to u7 and flag (R374). -/
  u : List Word32 := List.replicate 8 0
  cstF : Bool := false
  /-- The next decode-table entry of a custom instruction still running. -/
  cstAt : Option Nat := none
  x : Cells 16 := []
  y : Cells 16 := []
  irqEn : Word := 0
  svPa : Word := 0
  shadow : Option Shadow := none
  /-- What `irq.ret` resumes once its delay slot has executed (R379). -/
  resume : Option Shadow := none
deriving DecidableEq, Repr, Inhabited

/-- A program bank with its decode table (R325, R352): words over a base of zeros (base 0) or over ROM law `base`. -/
structure Bank where
  base : Nat := 0
  words : List (Nat × Word32) := []
  tblBase : Nat := 0
  tbl : List (Nat × Word32) := []
deriving DecidableEq, Repr, Inhabited

/-! ### Phases, ridges -/

/-- The guard's state for one phase (R164, R165). -/
inductive Guard where
  | free | drain | count | brk | refused
deriving DecidableEq, Repr, Inhabited

/-- One phase (R154 to R168) with its measurements. -/
structure Phase where
  fitted : Bool := false
  /-- Fitting as the running part reads it (R24). -/
  readsAbsent : Bool := false
  stopped : Bool := false
  retired : Bool := false
  /-- Refused by the guard in the present frame (R165, R187), and shown as GUARD 3. -/
  refused : Bool := false
  shadow : Nat := 0
  checked : Nat := 0
  active : Nat := 0
  loaded : Nat := 0
  slot : Nat := 0
  slotTo : Nat := 0
  /-- STEER: 0 open, 1 home, 2 neighbour (R147). -/
  steer : Nat := 0
  /-- A steering request waiting for the next cycle 0 (R161). -/
  req : Nat := 0
  guard : Guard := .free
  gTarget : Nat := 0
  gAge : Nat := 0
  gZc : Nat := 0
  gBt : Nat := 0
  gIzero : Nat := 0
  gSettled : Nat := 0
  zeroLoaded : Bool := false
  /-- A zero duty loaded at the carrier start of the previous pace (R164). -/
  zeroPrev : Bool := false
  /-- A comparator of R157 acted in the present pace; and the engine cycle at which it ended the on-times of the present carrier
  period. -/
  pkNow : Bool := false
  cut : Option Nat := none
  pwmOff : Bool := false
  missed : Bool := false
  /-- The codes of the last pace stand below the zero-current window of R23. -/
  readsLow : Bool := false
  pklim : Bool := false
  pklimRun : Nat := 0
  invRun : Nat := 0
  inv : Bool := false
  invOut : Bool := false
  calx : Bool := false
  /-- Largest magnitude seen since CAL_EXTRAPOLATED set, in the channel's LSB (R152). -/
  calxMax : Nat := 0
  avg : Int := 0
  peak : Int := 0
  valley : Int := 0
  mode : Nat := 0
  stat : Word := 0
  iSum : Int := 0
  iAvg : Int := 0
  /-- Frame of the last steering change (R197: 50 frames). -/
  steerFrame : Option Nat := none
  lastDuty : Nat := 0
  /-- The ROM law's ramps (R168): steps taken down before a steering request, eighths of the share after the guard frees the
  phase, and both as they stood before the running pace, which an overrun restores (R46). -/
  ramp : Nat := 0
  up : Nat := 8
  rampPrev : Nat := 0
  upPrev : Nat := 8
  /-- The share of the port that the phase leaves, and the inductor current reference of the last pace in mA (R158). -/
  share : Nat := 0
  part : Int := 0
  flt : Flt := {}
  /-- Margin mode (R350, R435, R436). -/
  est : List Nat := [0, 0, 0, 0]
  measFrame : Nat := 0
  nMeas : Nat := 0
  measured : Bool := false
  /-- The running offset above Z_nom in 1/64 codes; none where it has never been measured (R350, R435). -/
  runOfs : Option Int := none
  ofsSum : Int := 0
  ofsN : Nat := 0
  lBase : Nat := 0
  rEff : Nat := 0
  goodMeas : Nat := 0
deriving DecidableEq, Repr, Inhabited

/-- A ridge's run state (R44, R26). -/
inductive RidgeRun where
  | running | held | stopped | depopulated
deriving DecidableEq, Repr, Inhabited

/-- A margin-mode probe of one ridge (R432 to R434). -/
structure Probe where
  phase : Nat := 0
  readmit : Bool := false
  command : Bool := false
  startFrame : Nat := 0
  paces : Nat := 0
  vStart : Nat := 0
  prbs : BitVec 15 := 1
  dither : Int := 0
  /-- Per pace: dither, published duty, AVG, V_AVG. -/
  data : List Int := []
  records : Nat := 0
deriving DecidableEq, Repr, Inhabited

/-- One ridge (R34 to R46, R325, R383 to R388). -/
structure Ridge where
  run : RidgeRun := .depopulated
  /-- A program has been started in this sequence (R250). -/
  started : Bool := false
  stgen : Bool := false
  stgenTick : Nat := 0
  stgenQual : Bool := false
  eng : Engine := {}
  bank : Bank := {}
  staging : Bank := {}
  activeSrc : Nat := 1
  activeId : Nat := 0xFFFF0001
  decodeId : Nat := 0
  stagingState : Nat := 0
  switchPending : Bool := false
  switchSrc : Nat := 0
  switchId : Nat := 0
  switchFrame : Nat := 0
  published : Bool := false
  /-- Published duties that the publish window has not yet checked (R35, R43). -/
  checkDue : Bool := false
  overrun : Bool := false
  pubCyc : Nat := 0
  /-- The published steering word of the pace (R161). -/
  steerWord : Word := 0
  held : Bool := false
  dmaLate : Bool := false
  /-- Consecutive paces with STGFLT_N_r low (R157). -/
  stgfltRun : Nat := 0
  shedRun : List Nat := [0, 0, 0, 0]
  out : List Word := List.replicate 24 0
  pubMiss : Word := 0
  guardReason : Word := 0
  tRidge : Int := 0
  tSum : Int := 0
  tAvg : Int := 0
  pLoss : Nat := 0
  eLoss8 : Nat := 0
  paceMargin : Nat := 704
  paceMarginNow : Nat := 704
  paceMarginMin : Nat := 704
  nOverrun : Nat := 0
  nPubmiss : Nat := 0
  nRefuse : Nat := 0
  nMigrate : Nat := 0
  probe : Option Probe := none
  replanDue : Option Nat := none
  est : List Nat := [0, 0, 0]
  vconnIn : Nat := 0
  vconnInGood : Bool := false
  flt : Flt := {}
  /-- A copy of the active bank into retention still running (R430). -/
  copying : Bool := false
deriving DecidableEq, Repr, Inhabited

/-! ### Ports -/

/-- Type-C states (R56), in code order. -/
inductive CcSt where
  | disabled | errorRecovery | unattachedSrc | attachWaitSrc | attachedSrc
  | unattachedSnk | attachWaitSnk | attachedSnk | outOfService
deriving DecidableEq, Repr, Inhabited

/-- Why a port is in Disabled. -/
inductive DisabledBy where
  | host | discharge | latched | bringup
deriving DecidableEq, Repr, Inhabited

/-- The Type-C layer of a port (R52 to R73). -/
structure CcLayer where
  st : CcSt := .disabled
  disabledBy : DisabledBy := .bringup
  cc1 : CcClass := .opn
  cc2 : CcClass := .opn
  /-- Advertised or seen level: 0 Default USB, 1 1.5 A, 2 3.0 A, 3 none (R66). -/
  rp : Nat := 3
  /-- The level asked for in this pace, which takes effect in the next (R55). -/
  rpNext : Option Nat := none
  onCc2 : Bool := false
  raLatched : Bool := false
  accessory : Bool := false
  passiveRd : Bool := false
  activeRd : Bool := false
  takeoverFrame : Option Nat := none
  mode : Nat := 0
  /-- Pace time since which one line has held its termination, and which (0 none, 1 CC1, 2 CC2). -/
  debLine : Nat := 0
  debFrom : Nat := 0
  /-- Pace time since which neither line has held Rd or Rp. -/
  goneFrom : Nat := 0
  /-- Pace time at which the debounce completed with VBUS high throughout since (R59). -/
  vbusHighFrom : Option Nat := none
  unexpSet : Bool := false
  since : Nat := 0
  toOutOfService : Bool := false
  openFrom : Option Nat := none
  openLowRun : Nat := 0
  /-- A qualified detach: 0 none, 1 by debounce, 2 by current. -/
  detach : Nat := 0
  detachFrame : Nat := 0
  disch : Bool := false
  dischFrame : Nat := 0
  dischDetach : Bool := false
  dischTick : Nat := 0
  lfsr : BitVec 15 := 0
  togglePeriod : Nat := 80
  toggleFrame : Nat := 0
  alloc : Bool := false
  vbusMv : Nat := 0
  lowRun : Nat := 0
  /-- The 20-frame VBUS check of this entry to Attached.SRC has been made (R59). -/
  vbusChecked : Bool := false
  flt : Flt := {}
deriving DecidableEq, Repr, Inhabited

/-- VCONN of a port (R67 to R70) and its cable (R83 to R86). -/
structure Vconn where
  on : Bool := false
  good : Bool := false
  goodFrom : Option Nat := none
  limitFrom : Option Nat := none
  /-- Opened for the rest of the attach (R69). -/
  blocked : Bool := false
  pulldown : Option Nat := none
  mv : Nat := 0
  attemptsDue : Option Nat := none
  disc : Nat := 0
  lost : Bool := false
  iMax : Nat := 0
  vMax : Nat := 0
  epr : Bool := false
  active : Bool := false
  attempts : Nat := 0
  /-- The attempt running: the frame of its GoodCRC; and the further attempts made. -/
  attempt : Option Nat := none
  further : Nat := 0
  firstEnded : Bool := false
  forEpr : Bool := false
  /-- The attempt running is the host's (R306), which R83's limit does not count. -/
  hostTry : Bool := false
deriving DecidableEq, Repr, Inhabited

/-- A power data object of a set sent (R87). -/
inductive PdoKind where
  | fixed | pps | eprFixed | avs | empty
deriving DecidableEq, Repr, Inhabited

structure Pdo where
  pos : Nat := 1
  kind : PdoKind := .fixed
  /-- Voltage, or lowest and highest voltage, in mV. -/
  mv : Nat := 5000
  mvMin : Nat := 5000
  /-- Current in 10 mA, or the PDP in W for AVS. -/
  cur : Nat := 0
  powerLimited : Bool := false
deriving DecidableEq, Repr, Inhabited

/-- The flags of the 5 V fixed object (R88); USB Suspend Supported and Unchunked Extended Messages Supported are 0 and
Unconstrained Power is 1 in every set. -/
structure CapFlags where
  dualRole : Bool := false
  suspend : Bool := false
  unconstrained : Bool := true
  usbComm : Bool := false
  dualData : Bool := false
  unchunked : Bool := false
  eprCapable : Bool := false
deriving DecidableEq, Repr, Inhabited

/-- A contract (R115): KIND of R115, position, mV, operating and maximum current in 10 mA, PDP in W. -/
structure Contract where
  kind : Nat := 0
  pos : Nat := 0
  mv : Nat := 0
  cur : Nat := 0
  maxCur : Nat := 0
  pdp : Nat := 0
deriving DecidableEq, Repr, Inhabited

/-- A message of the part on a CC line, as its policy engine hands it over. -/
inductive PdTx where
  | sourceCaps (f : CapFlags) (s : List Pdo) | eprSourceCaps (f : CapFlags) (s : List Pdo)
  | accept | reject | wait | notSupported | psRdy | softReset | hardReset
  | sinkCaps (objs : List FixedPdo) | capsExtended (vid pid xid fw hw holdup inputs spr epr : Nat) | status (temp : Int) (external : Bool) | ppsStatus (v : Nat) (i : Int) (lim : Bool)
  | sourceInfo (managed : Bool) (maxPdp present8 reported : Nat) | revision (major minor verMajor verMinor : Nat)
  | request (pos cur : Nat) | eprMode (action reason : Nat) | keepAliveAck
  | prSwap | drSwap | vconnSwap
  | discoverIdentityPrime
  /-- A VDM with its header VDO (R130, R142) and the VDOs that follow it. -/
  | vdm (hdr : Word32) (vdos : List Word32)
  | secDigests (d : List Byte) | secCert (c : List Byte) | secAuth (c : List Byte) | secError | secRequest (n : Nat)
deriving DecidableEq, Repr, Inhabited

/-- The policy engine of a port (R80 to R115). -/
structure Pd where
  started : Bool := false
  startDue : Option Nat := none
  rev20 : Bool := false
  revKnown : Bool := false
  contract : Contract := {}
  /-- The accepted contract not yet at PS_RDY, with the Accept's frame (R94). -/
  next : Option Contract := none
  acceptFrame : Nat := 0
  slewing : Bool := false
  settled : Nat := 0
  nextEprCap : Bool := false
  /-- Whether a ledger has been solved for `next` (R94): 0 not yet, 1 the one that takes force next, 2 the one in force. -/
  nextIn : Nat := 0
  epr : Bool := false
  eprCap : Bool := false
  mismatch : Bool := false
  lastEnd : Nat := 0
  hardResets : Nat := 0
  /-- Hard Resets since the last explicit contract (R110). -/
  hrRun : Nat := 0
  firstContract : Option Nat := none
  sent : List Pdo := []
  sentP : Nat := 0
  sentFrame : Option Nat := none
  /-- The flags of the 5 V object of the set last sent and of the set derived (R88, R103). -/
  sentFlags : CapFlags := {}
  derivedFlags : CapFlags := {}
  derived : List Pdo := []
  derivedP : Nat := 0
  /-- A send that is due (R90), and whether it may not be put off by the 200-frame spacing. -/
  capsDue : Bool := false
  cableChanged : Bool := false
  everSent : Bool := false
  capsCount : Nat := 0
  repeatFrame : Option Nat := none
  noPd : Bool := false
  /-- SinkTxNG was set in this frame (R91); `clear` once the 18 frames have passed. -/
  collision : Option Nat := none
  clear : Bool := false
  /-- A sequence of the sink has broken the wait, which starts again when that sequence ends (R91). -/
  redo : Bool := false
  /-- A message of the part that waits for a response, with the frame of its GoodCRC (R107). -/
  awaiting : Option Nat := none
  softReset : Option Nat := none
  lastReq : Nat := 0
  lastMsg : Nat := 0
  rejects : Nat := 0
  /-- Lowered capabilities have been sent and no request since has been accepted (R111); the frame since which no request has come. -/
  low : Bool := false
  lowered : Option Nat := none
  hrFrame : Option Nat := none
  takedown : Bool := false
  takenDown : Option Nat := none
  /-- Power that a request with Capability Mismatch asks for, in 10 µW (R93). -/
  unmet : Nat := 0
  ppsLimit : Bool := false
  ppsLimitPrev : Bool := false
  eprEnter : Option Nat := none
  eprExit : Nat := 0
  tx : List PdTx := []
  /-- The header of the last message sent gives Revision 2.0 (R81). -/
  txRev20 : Bool := false
  hrInHold : Bool := false
  /-- Overdraw of a port under Type-C current: the frame from which its P_c lies within its ceiling (R203). -/
  typecFrom : Option Nat := none
  typecP8 : Nat := 0
  typecOver : Bool := false
  /-- Sink role (R114): the contract requested, the frame of its Accept. -/
  want : Option Contract := none
  snkAccept : Option Nat := none
  snkRestore : Option Nat := none
  /-- VBUS has been below 4.0 V since that Hard Reset (R127). -/
  snkLow : Bool := false
  /-- What came to the engine while its task was suspended or not yet started, oldest first: it goes on there (R50). -/
  inbox : List Instr := []
deriving DecidableEq, Repr, Inhabited

/-- Swaps of a port (R116 to R128). -/
structure Swap where
  /-- The swap in progress: kind, whether the part sent it, the frame of its start, and its step. -/
  kind : Option SwapKind := none
  mine : Bool := false
  frame : Nat := 0
  step : Nat := 0
  lastKind : Nat := 0
  lastResult : Nat := 0
  prSupp : Option Nat := none
  drSupp : Option Nat := none
  vcSupp : Option Nat := none
  failed : Nat := 0
  source : Bool := false
  dfp : Bool := false
  vconnSrc : Bool := false
  attSource : Bool := false
  attDfp : Bool := false
  attVconn : Bool := false
  prFails : Nat := 0
  vcSent : Bool := false
  drExit : Bool := false
  /-- A commanded DR_Swap waits for the line after the Exit Mode (R118, R122). -/
  drDue : Bool := false
  /-- The part applies VCONN again at the end of the Hard Reset (R110, R127). -/
  vconnBack : Bool := false
deriving DecidableEq, Repr, Inhabited

/-- The step of a discovery (R130). -/
inductive DiscStep where
  | identity | svids | modes (i : Nat)
deriving DecidableEq, Repr, Inhabited

/-- An SVID of the record with its mode VDOs (R131). -/
structure SvidRec where
  svid : Nat := 0
  modes : List Word32 := []
deriving DecidableEq, Repr, Inhabited

/-- A mode entry attempt (R132, R134). -/
structure ModeTry where
  svid : Nat := 0
  pos : Nat := 0
  byTable : Bool := false
  entry : Nat := 0
  frame : Nat := 0
  /-- Enter Mode has been sent. -/
  sent : Bool := false
deriving DecidableEq, Repr, Inhabited

/-- Discovery and alternate modes of a port (R130 to R135). -/
structure Disc where
  status : Nat := 0
  trunc : Bool := false
  idVdos : List Word32 := []
  svids : List SvidRec := []
  v10 : Bool := false
  startDue : Option Nat := none
  step : Option DiscStep := none
  sentFrame : Nat := 0
  waiting : Bool := false
  busyCount : Nat := 0
  busyFrame : Option Nat := none
  naked : Bool := false
  modeSvid : Nat := 0
  modePos : Nat := 0
  entered : Bool := false
  failed : Bool := false
  byTable : Bool := false
  attempt : Option ModeTry := none
  tried : List (Nat × Nat) := []
  /-- The mode table as it stood when the discovery completed (R311). -/
  table : List Byte := []
  exitFrame : Option Nat := none
  vdmFrame : Option Nat := none
  /-- CMD of the VDM_SEND in flight. -/
  vdmCmd : Nat := 0
  /-- Authentication failures of the tester in this attach (R138, R142). -/
  authFails : Nat := 0
deriving DecidableEq, Repr, Inhabited

/-- The port path (R148, R149, R175 to R182) and the port's measurements. -/
structure Path where
  swOn : Bool := false
  closing : Bool := false
  closePaces : Nat := 0
  fullyOn : Nat := 0
  ppg : Bool := false
  ppgFrom : Option Nat := none
  ilimAct : Bool := false
  timer : Nat := 0
  timerOff : Nat := 0
  ovRun : Nat := 0
  trips : Nat := 0
  lastTrip : Nat := 0
  latched : Bool := false
  calx : Bool := false
  /-- Largest current and voltage seen since CAL_EXTRAPOLATED set (R152). -/
  calxI : Nat := 0
  calxV : Nat := 0
  /-- PMODE: 0 no phase placed, 1 forward, 2 return, 3 sink-reverse (R148). -/
  pmode : Nat := 0
  /-- Why the port is in return mode (R170): 0 not, 1 step-down, 2 detach, ErrorRecovery or Disabled, 3 Hard Reset. -/
  retKind : Nat := 0
  vsrc : Bool := true
  /-- The switch has been commanded closed at some time of the running pace (R149). -/
  swThis : Bool := false
  detach : Bool := false
  vtgt : Nat := 0
  itgt : Nat := 0x7FFF
  ref : Nat := 0
  /-- The port current reference of the ROM law after its clamp, in mA (R158). -/
  iref : Int := 0
  shed : Bool := false
  backstop : Nat := 0
  flt : Flt := {}
  vAvg : Nat := 0
  vMin : Nat := 0
  vMax : Nat := 0
  iAvg : Int := 0
  iPeak : Int := 0
  /-- Sums and extrema of the running frame, then the values of the last complete frame (R337). -/
  n : Nat := 0
  vSum : Nat := 0
  vLo : Nat := 0
  vHi : Nat := 0
  iSum : Int := 0
  iExt : Int := 0
  pSum : Int := 0
  fvAvg : Nat := 0
  fvMin : Nat := 0
  fvMax : Nat := 0
  fiAvg : Int := 0
  fiPeak : Int := 0
  fpAvg : Int := 0
  eOut8 : Nat := 0
  /-- Node energy that the phases return (R170): the running frame's sum in 8 pJ, and the total. -/
  retSum : Int := 0
  eRet : Nat := 0
  vRunOfs : Option Int := none
  iRunOfs : Option Int := none
  vOfsSum : Int := 0
  iOfsSum : Int := 0
  ofsN : Nat := 0
  est : List Nat := [0, 0, 0]
  recalPaces : Nat := 0
  /-- Sums and counts of the codes of `PORT_RECAL` (R442). -/
  recalV : Nat := 0
  recalVn : Nat := 0
  recalI : Nat := 0
  recalIn : Nat := 0
deriving DecidableEq, Repr, Inhabited

/-- One port. -/
structure Port where
  cc : CcLayer := {}
  vc : Vconn := {}
  pd : Pd := {}
  sw : Swap := {}
  dc : Disc := {}
  path : Path := {}
  inService : Bool := false
  attachFrame : Option Nat := none
  /-- The counters 0x40 to 0x4D of R346. -/
  counters : List Nat := List.replicate 14 0
  peerChain : List Byte := []
  peerDigest : List Byte := []
deriving DecidableEq, Repr, Inhabited

/-! ### Feeds (R212 to R232, R474) -/

inductive FeedSt where
  | off | qualify | ramp | on | retryWait | latched | holdOff
deriving DecidableEq, Repr, Inhabited

structure Feed where
  st : FeedSt := .off
  lastTrip : Nat := 0
  trips : Nat := 0
  pg : Bool := false
  window : Bool := false
  odg : Bool := false
  rev : Bool := false
  revPrev : Bool := false
  revNow : Bool := false
  ilimAct : Bool := false
  holdOv : Bool := false
  enable : Bool := true
  /-- The logic was enabled by step 6 (R241). -/
  armed : Bool := false
  /-- Whole frames counted (R474), and whether the running frame still counts; none before the first boundary. -/
  count : Nat := 0
  frameOk : Option Bool := none
  ovSeen : Bool := false
  rampFrame : Nat := 0
  onRun : Nat := 0
  timer : Nat := 0
  timerOff : Nat := 0
  tripFrame : Nat := 0
  uvRun : Nat := 0
  /-- Power-good withheld until the fault timer has reset (R224). -/
  withheld : Bool := false
  revRun : Nat := 0
  /-- Consecutive paces with a path drop above 30 mV (R226). -/
  dropRun : Nat := 0
  /-- The pace of the last trip, the count before it, and whether it set its sticky bit (R222, R229). -/
  tripAt : Option Nat := none
  tripWas : Nat := 0
  tripNew : Bool := false
  /-- The pace of the last overvoltage turn-off, whether the feed held the ramp turn then, and its fault timer (R229). -/
  offAt : Option Nat := none
  offTurn : Bool := false
  offTimer : Nat := 0
  pgFrame : Option Nat := none
  sns : Nat := 0
  cur : Int := 0
  n : Nat := 0
  vSum : Nat := 0
  vLo : Nat := 0
  iSum : Int := 0
  iExt : Int := 0
  pgAll : Bool := false
  vAvg : Nat := 0
  vMin : Nat := 0
  iAvg : Int := 0
  iPeak : Int := 0
  /-- Energy drawn, in 0.2 nJ. -/
  eIn : Nat := 0
  pSum : Int := 0
  flt : Flt := {}
  /-- UV, OV (10 mV), INS_DLY (frames), RETRIES as OTP gives them (R404, R405). -/
  uv : Nat := 800
  ov : Nat := 6000
  insDly : Nat := 200
  retries : Nat := 3
deriving DecidableEq, Repr, Inhabited

/-! ### The ledger (R201, R202) -/

structure PhaseRec where
  pair : Nat := 0
  st : Nat := 3
  slot : Nat := 0
  excl : Nat := 1
  pinned : Bool := false
  paired : Bool := false
  lawSet : Nat := 1
  share : Nat := 0
  imax : Nat := 0
  derate : Nat := 0
deriving DecidableEq, Repr, Inhabited

structure PortRec where
  nph : Nat := 0
  tier : Nat := 2
  alloc : Bool := false
  inplace : Bool := false
  overdraw : Bool := false
  shed : Bool := false
  capped : Bool := false
  level : Nat := 0
  ceil : Nat := 0
  floor : Nat := 0
  pCover : Nat := 0
  vCover : Nat := 0
  /-- The ledger covers the source port no longer (R197, R205): no part of the layout of R202. -/
  dropped : Bool := false
deriving DecidableEq, Repr, Inhabited

structure SliceHdr where
  seq : Nat := 0
  feedless : Bool := false
  held : Bool := false
  out : Bool := false
  shedV1 : Nat := 0
  shedV2 : Nat := 0
  shedV3 : Nat := 0
  room : Nat := 0
deriving DecidableEq, Repr, Inhabited

structure LedgerHdr where
  frame : Nat := 0
  bHost : Nat := 0
  bUse : Nat := 0
  reserve : Nat := 0
  vEval : Nat := 0
  lossK : Nat := 0
  held : Bool := false
  reduced : Bool := false
  dip : Bool := false
  dipHold : Bool := false
  feedless : Bool := false
  ovrConflict : Bool := false
  degraded : Bool := false
  commitOver : Bool := false
  ridgeOut : Nat := 0
  dipFrames : Nat := 0
  running : Nat := 0
  shed : Nat := 0
  steerChg : Nat := 0
  overdraw : Nat := 0
deriving DecidableEq, Repr, Inhabited

structure Ledger where
  hdr : LedgerHdr := {}
  phases : List PhaseRec := List.replicate 48 {}
  ports : List PortRec := List.replicate 24 {}
  slices : List SliceHdr := List.replicate 6 {}
deriving DecidableEq, Repr, Inhabited

/-- The Innkeeper's own state (R185, R207 to R210). -/
structure Innkeeper where
  started : Bool := false
  /-- The ledger solved in this frame, to take force at the next boundary. -/
  next : Option Ledger := none
  capped : Bool := false
  reducedNext : Bool := false
  heldFrames : List Nat := []
  degradedFrom : Option Nat := none
  dip : Bool := false
  dipFrom : Nat := 0
  dipHoldOver : Bool := false
  dipLow : List Nat := [0, 0]
  dipClear : Nat := 0
  feedless : Nat := 0
  feedlessOut : Bool := false
  /-- Feed and delivered energy of the last 100 frames, in 1/8 mJ, newest first (R185). -/
  feedHist : List Int := []
  outHist : List Int := []
  /-- Ports that lost cover in the last solve (R205, R197). -/
  lost : List Nat := []
  bPhys : Nat := 0
deriving DecidableEq, Repr, Inhabited

/-! ### Host bus and commands (R266 to R298) -/

/-- What an accepted command waits for after it has begun to execute. -/
inductive WaitFor where
  | errorRecovery (p : Nat) | cable (p : Nat) | discovery (p : Nat) | drSwap (p : Nat) | modeEnter (p : Nat) | modeExit (p : Nat)
  | vdm (p : Nat) | faultClear | cairnSync | bankSwitch (r : Nat) | retire (k : Nat) | readmit (k : Nat) | recal (p : Nat)
  | ageing (k : Nat) | authInit (p : Nat) | capture | chain | burn | calCapture (ch : Nat) (gain : Bool)
deriving DecidableEq, Repr, Inhabited

structure Cmd where
  bytes : List Byte := []
  accepted : Bool := false
  orphan : Bool := false
  discarded : Bool := false
  seqNo : Nat := 0
  frame : Nat := 0
  wait : Option WaitFor := none
  /-- A tunnel command's SEQ, and whether its session had the workshop privilege (R143). -/
  tag : Nat := 0
  workshop : Bool := false
deriving DecidableEq, Repr, Inhabited

/-- The reply slot (R295). -/
inductive Slot where
  | empty
  | pending (tag op : Byte)
  | ready (read : Bool) (bytes : List Byte)
deriving DecidableEq, Repr, Inhabited

structure ChanState where
  slot : Slot := .empty
  place0 : Option Cmd := none
  place12 : Option Cmd := none
  /-- A packet of CLASS 3, which names no place, until its refusal (R288). -/
  place3 : Option Cmd := none
  /-- DISCARDED is due in the next reply although nothing is in the slot (R297). -/
  lostReply : Bool := false
  /-- The reply in the slot carries a sample of `ATTN_PENDING` (R263). -/
  sampled : Bool := false
deriving DecidableEq, Repr, Inhabited

structure Bus where
  addrPins : Nat := 0
  /-- The bus is idle (R277). -/
  idle : Bool := true
  /-- What the last read returned, and whether some byte of the last transaction was not acknowledged. -/
  out : List Byte := []
  nacked : Bool := false
  /-- The attention series (R280): an attempt due, failed attempts, waiting for the back-off. -/
  attnDue : Bool := false
  attnFails : Nat := 0
  attnWait : Bool := false
  /-- The pace of the last STOP since the failed attempt: the back-off counts from it. -/
  stopAt : Option Nat := none
  attnHeld : Bool := false
  /-- The `VCORE` front end serves the bus, not the always-on one (R274). -/
  vcoreFe : Bool := false
  /-- The bytes of the last attention attempt (R279). -/
  attnTx : List Byte := []
deriving DecidableEq, Repr, Inhabited

/-- Attention (R262, R263). -/
structure Attn where
  pending : Word := 0
  /-- Bits set again since they were last reported. -/
  fresh : Word := 0
  writeDue : Bool := false
  note : Bool := false
  /-- Sampled by a GET_PARAM whose reply has not been read completely. -/
  sampled : Word := 0
  /-- Bits set since that sample. -/
  sinceSample : Word := 0
deriving DecidableEq, Repr, Inhabited

/-- An event record (R312). -/
structure EventRec where
  kind : Nat := 0
  inst : Nat := 0
  seq : Nat := 0
  frame : Nat := 0
  data : List Byte := []
deriving DecidableEq, Repr, Inhabited

structure EventQ where
  recs : List EventRec := []
  lost : Bool := false
  seq : Nat := 0
deriving DecidableEq, Repr, Inhabited

/-- The FAULT_N pin (R259 to R261). -/
structure FaultN where
  /-- Paces or ticks left of a pulse request, and whether the always-on clock times it. -/
  pulse : Bool := false
  pulseAt : Nat := 0
  byTicks : Bool := false
  hold : Bool := false
  /-- Pace time before which no new pulse starts (mode 0, R260). -/
  quietUntil : Nat := 0
  /-- An action of the fault pin command that takes effect in the next pace. -/
  action : Option Bool := none
deriving DecidableEq, Repr, Inhabited

/-! ### Sequencer and always-on domain (R233 to R253) -/

inductive SeqMode where
  | unpowered | retention | sequencing | running | shutdown | shutoff | holdoff
  | seqFailure | integrityHold | serviceBoot
deriving DecidableEq, Repr, Inhabited

/-- What follows the hold-off (R246). -/
inductive After where
  | rest | retry | restart | failure | integrity
deriving DecidableEq, Repr, Inhabited

structure Seq where
  mode : SeqMode := .unpowered
  step : Nat := 0
  stepTick : Nat := 0
  /-- Sub-step of step 3 (0 VCORE, 1 PLL, 2 OTP read) and of step 5 (0 PG2, 1 PG3). -/
  sub : Nat := 0
  subTick : Nat := 0
  stepFrame : Nat := 0
  retries : Nat := 0
  failStep : Nat := 0
  lastTso : Bool := false
  noFall : Bool := false
  feedless : Bool := false
  wakeCause : Word := 0
  /-- Wake conditions that qualified since a shutdown began (R246). -/
  wakeNoted : Word := 0
  after : After := .rest
  /-- The step the ordered shutdown is undoing, and whether it shuts down for the present attempt. -/
  downStep : Nat := 0
  downTick : Nat := 0
  holdEnd : Nat := 0
  /-- Ticks of the hold-off that follows the present shut-off (R246). -/
  holdLen : Nat := 640
  /-- A feed gained power-good: step 6 is qualified (R241). -/
  step6Good : Bool := false
  step7 : Bool := false
  complete : Bool := false
  sFrame : Nat := 0
  /-- The frame in which bring-up ended, and whether the ports have gone to full service (R250, R253). -/
  endFrame : Nat := 0
  full : Bool := false
  step7Frame : Option Nat := none
  ign : Bool := false
  ignLowFrom : Option Nat := none
  resetLow : Bool := false
  vbatOk : Bool := false
  /-- `VBOOT` stands qualified (R77), and the present sequence or failure state is that of service boot. -/
  vboot : Bool := false
  boot : Bool := false
  bootPort : Option Nat := none
  /-- Bring-up milestones reached (R250): 0 none, 1 calibration, 2 reduced-service law, 3 cairn restore, 4 patch, 5 bank load, 6 end. -/
  milestone : Nat := 0
  interpreter : Bool := false
  reduced : Bool := false
  sleepAt : Option Nat := none
  tsoTick : Nat := 0
deriving DecidableEq, Repr, Inhabited

/-! ### OTP, retention, margin mode, tester, diagnostics -/

structure Otp where
  /-- The array as the low and the high reference read it (R397). -/
  low : Cells 32 := []
  high : Cells 32 := []
  /-- The latched critical bits (R401), and the values of restore O taken at the last step 3 read (R400). -/
  sbMask : Nat := 0
  dualRole : Nat := 0
  svid : Nat := 0
  seqRetries : Nat := 3
  seqTmo : Nat := 320
  rsRp : Nat := 1
  modes : Nat := 0
  locks : Nat := 0
  /-- The latched trims and test access bits: F3, F4 and F5 (R401, R403). -/
  trims : List Word32 := []
  fill : List Nat := [0, 0, 0, 0, 0]
  weakCount : Nat := 0
  keyState : Nat := 0
  slotState : Nat := 0
  calGen : Nat := 0
  /-- The generation the sense fabric uses (R151), and the one it uses from the next frame boundary (R323). -/
  calUse : Option Nat := none
  calNext : Option Nat := none
  /-- Channels that run on nominal values (R419, R421) by channel number. -/
  calBad : List Nat := []
  /-- Staged points of CAL_CAPTURE (R322): channel, is gain, OFS or TRIM, LCODE. -/
  staged : List (Nat × Bool × Int × Nat) := []
deriving DecidableEq, Repr, Inhabited

/-- A `CAL_CAPTURE` under way (R322): its channel and point, the true value, paces counted, and the codes' sum and number. -/
structure CalCapture where
  chan : Nat := 0
  gain : Bool := false
  truth : Int := 0
  paces : Nat := 0
  sum : Nat := 0
  codes : Nat := 0
deriving DecidableEq, Repr, Inhabited

/-- One cairn with its directory entry (R349, R425). -/
structure Cairn where
  state : Nat := 0
  bytes : Nat := 0
  written : Nat := 0
  writes : Nat := 0
  crc : Nat := 0
  record : List Byte := []
  dirty : Bool := false
  /-- The record being written, and STATE before the write opened (R349: a read during a write). -/
  buf : List Byte := []
  before : Nat := 0
deriving DecidableEq, Repr, Inhabited

structure Retained where
  cairns : List Cairn := List.replicate 25 {}
  banks : List (List (Nat × Word32)) := List.replicate 6 []
  /-- The cairn write in progress. -/
  writing : Option Nat := none
deriving DecidableEq, Repr, Inhabited

inductive TunSt where
  | closed | entered | authenticating | opened | lockedOut
deriving DecidableEq, Repr, Inhabited

/-- The one tunnel session (R138 to R143). -/
structure Tester where
  st : TunSt := .closed
  port : Nat := 0
  slot : Nat := 0
  nt : List Byte := []
  np : List Byte := []
  delayUntil : Option Nat := none
  lastVdm : Nat := 0
  workshop : Bool := false
  /-- The message being assembled: type, SEQ, SEG_LAST, MSG_LEN, next segment, bytes. -/
  inType : Nat := 0
  inSeq : Nat := 0
  inLast : Nat := 0
  inLen : Nat := 0
  inNext : Nat := 0
  inBytes : List Byte := []
  inWhole : Bool := false
  /-- The answer: type, SEQ, bytes, ready, the frame by which it is ready, segments read. -/
  outType : Nat := 0
  outSeq : Nat := 0
  outBytes : List Byte := []
  outReady : Bool := false
  outExists : Bool := false
  outFrame : Nat := 0
  outRead : List Nat := []
  /-- The SEQ of the last CMD message, whose answer is the tunnel's slot (R143, R298), and the segments of it that were read. -/
  cmdSeq : Option Nat := none
  cmdRead : List Nat := []
deriving DecidableEq, Repr, Inhabited

/-- Authentication (R144, R331), patches (R327), diagnostics (R332), mode table (R133). -/
structure Service where
  chain : List Byte := []
  chainNew : List Byte := []
  chainTotal : Nat := 0
  chainHave : List Nat := []
  initPort : Option Nat := none
  initStep : Nat := 0
  initNonce : List Byte := []
  patchBuf : Cells 8 := []
  patchHigh : Nat := 0
  /-- The retained patch image, the one running (its level), and whether the retained one is verified. -/
  patch : List Byte := []
  patchLevel : Nat := 0
  /-- The retained image is the one that runs. -/
  patchRunning : Bool := false
  /-- The words of the patch that runs, as patch RAM holds them from word 0xF000 (R352, R354). -/
  patchRam : List Word32 := []
  modeTable : List Byte := List.replicate 128 0
  capArmed : Option (Nat × Nat × Nat × Nat) := none
  capFrame : Nat := 0
  capBuf : List Byte := []
  capDone : Bool := false
deriving DecidableEq, Repr, Inhabited

/-- The supervisor restart (R443 to R446). -/
inductive SupSt where
  | up | readied | hold
deriving DecidableEq, Repr, Inhabited

structure Sup where
  st : SupSt := .up
  romOnly : Bool := false
  readyFrame : Nat := 0
  replyRead : Bool := false
  hFrame : Nat := 0
  restored : Bool := false
  expired : Bool := false
  eng : Engine := {}
  /-- The command interpreter, and the policy engines, are suspended at their caps until the next frame (R50). -/
  cmdCapped : Bool := false
  pdCapped : Bool := false
  /-- The frame's schedule has not started: class 0 effects of its boundary are still to come (R47 steps 5 and 6). -/
  schedDue : Bool := false
deriving DecidableEq, Repr, Inhabited

/-- Device-wide measurements (R343). -/
structure Dev where
  vOred : Nat := 0
  vOredN : Nat := 0
  vOredSum : Nat := 0
  vOredLo : Nat := 0
  vOredAvg : Nat := 0
  vOredMin : Nat := 0
  /-- Some feed had power-good in every pace of the last frame (R207). -/
  feedGoodAll : Bool := false
  dieTemp : Int := 0
  dieSum : Int := 0
  dieAvg : Int := 0
  dieWarn : Bool := false
  pFeed : Int := 0
  uptime : Nat := 0
  lossFitFrame : Nat := 0
deriving DecidableEq, Repr, Inhabited

/-- The whole block. -/
structure State where
  /-- Commands waiting, first in, first out. -/
  pending : List Instr := []
  /-- 32 kHz ticks since the always-on domain last left its reset (R10). -/
  tick : Nat := 0
  locked : Bool := false
  /-- Frames since PLL lock (R33), the pace within the frame, and whether the next pace boundary is that of pace 0. -/
  frame : Nat := 0
  pace : Nat := 0
  paceZero : Bool := true
  /-- Paces since the pace counter started, for the ring (R150). -/
  paceCount : Nat := 0
  /-- The model's own counter of free values (not the spec's). -/
  freeN : Nat := 0
  seq : Seq := {}
  fltSeq : Flt := {}
  fltAon : Flt := {}
  fltSupv : Flt := {}
  fltSense : Flt := {}
  fltBus : Flt := {}
  fltOtp : Flt := {}
  fltTherm : Flt := {}
  faultN : FaultN := {}
  attn : Attn := {}
  events : EventQ := {}
  /-- Interrupt sources pending at the supervisor, oldest first (R379). -/
  irq : List IrqSource := []
  bus : Bus := {}
  host : ChanState := {}
  tun : ChanState := {}
  acceptSeq : Nat := 0
  /-- R293: the sequence value of the last write of each settable item. -/
  itemSeq : List (Nat × Nat) := []
  /-- Written values of settable items that are not at their default, by parameter ID, rising; and the values taken up (R340). -/
  params : List (Nat × Nat) := []
  inForce : List (Nat × Nat) := []
  takeUp : Bool := false
  /-- Written `_PIN` and `_ATTN` items that act from the next pace (R340), by parameter ID. -/
  fltWrites : List (Nat × Nat) := []
  /-- Items written before the cairn restore (R252). -/
  early : List (Nat × Nat) := []
  dev : Dev := {}
  feeds : List Feed := List.replicate 2 {}
  rampTurn : Option Nat := none
  /-- The first frame whose boundary may start a ramp after the turn was given up (R218). -/
  turnFrom : Nat := 0
  ridges : List Ridge := List.replicate 6 {}
  phases : List Phase := List.replicate 48 {}
  ports : List Port := List.replicate 24 {}
  ledger : Ledger := {}
  inn : Innkeeper := {}
  otp : Otp := {}
  ret : Retained := {}
  tester : Tester := {}
  svc : Service := {}
  sup : Sup := {}
  /-- Phases named by AGEING_MEASURE, first in line (R432). -/
  ageQueue : List Nat := []
  /-- Phases being retired, with the frame of the command (R439). -/
  retiring : List (Nat × Nat) := []
  readmitting : List Nat := []
  /-- Calibration captures under way (R322). -/
  captures : List CalCapture := []
deriving DecidableEq, Repr, Inhabited

/-- The OTP array of a shipped part: FACTORY word F0 in its three copies, FACTORY locked with digest slot 0 spent, and
calibration generation 0 committed with zero records (R402, R403, R411, R412, R416, R417). The trims are zero (log 12). -/
def shippedOtp : Cells 32 :=
  [(0, 0x2448B101), (21, 0x2448B101), (42, 0x2448B101), (256, 0xCA100000), (367, 0xEDF6C804),
   (1008, 0x747DB02E), (1009, 0x0000452E), (1023, 0x00008421)]

/-- The part before any supply: the always-on domain in its power-on reset (R456 Unpowered), with the array as shipped and
every `_PIN` item at the default of R264. -/
def State.reset : State :=
  { otp := { low := shippedOtp, high := shippedOtp, locks := 1, slotState := 1 }
    fltSeq := { pin := 0x004E }
    fltOtp := { pin := 0x0008 }
    feeds := List.replicate 2 { flt := { pin := 0x0048 } }
    ridges := List.replicate 6 { flt := { pin := 0x0074 } }
    ports := List.replicate 24 { cc := { flt := { pin := 0x0020 } }, path := { flt := { pin := 0x0020 } } } }

end Sys2Proof.Machine
end

