-- ==== Sys2Proof/Machine/Items.lean ====
section
/-! DEFINITION. The parameter tables of R343 to R347: which items there are, their width, access, range and default, and the
value of a settable item as written and as taken up (R340). -/

namespace Sys2Proof.Machine

/-- The access column (R339); `fltGroup` items follow R255. -/
inductive Access where
  | ro | rw | rz | rm
deriving DecidableEq, Repr, Inhabited

/-- A row of an item table: `wide` for 32-bit items, the range of a settable item, its default where one number serves. -/
structure ItemRow where
  item : Nat
  acc : Access := .ro
  wide : Bool := false
  lo : Nat := 0
  hi : Nat := 0xFFFF
  dflt : Nat := 0
deriving DecidableEq, Repr, Inhabited

/-- Read-only items `a` to `b`. -/
def roRows (wide : Bool) : Nat → Nat → List ItemRow
  | _, 0 => []
  | a, n + 1 => { item := a, wide := wide, hi := if wide then 0xFFFFFFFF else 0xFFFF } :: roRows wide (a + 1) n

def rwRow (item lo hi dflt : Nat) : ItemRow := { item, acc := .rw, lo, hi, dflt }
def rmRow (item lo hi dflt : Nat) : ItemRow := { item, acc := .rm, lo, hi, dflt }
def rw32 (item lo hi dflt : Nat) : ItemRow := { item, acc := .rw, wide := true, lo, hi, dflt }

/-- The four items of a fault record (R342). -/
def fltRows (a : Nat) : List ItemRow :=
  [{ item := a }, { item := a + 1, wide := true, hi := 0xFFFFFFFF }, { item := a + 2, acc := .rw }, { item := a + 3, acc := .rw, dflt := 0xFFFF }]

/-- Scope 0 (R343). -/
def deviceRows : List ItemRow :=
  roRows false 0x00 3 ++ roRows true 0x03 1 ++ roRows false 0x04 22 ++ roRows true 0x1A 1 ++ roRows false 0x1B 1 ++
  roRows true 0x1C 6 ++ roRows false 0x22 14 ++
  [rwRow 0x30 0 5760 360, rwRow 0x31 0 500 40, rwRow 0x32 10 200 50, rwRow 0x33 3000 30000 4000, rwRow 0x34 0 80 4,
   rwRow 0x35 0 1000 50, rwRow 0x36 0 50 10, rwRow 0x37 50 1000 200, rwRow 0x38 0 1 0, rw32 0x39 1000 3600000 60000] ++
  [rwRow 0x3A 0 1 1, rwRow 0x3B 0 2 1, rwRow 0x3C 0 1 0, rwRow 0x3D 0 1 0, rwRow 0x3E 0 1 1, rwRow 0x3F 0 1 1,
   rwRow 0x40 0 1 1, rw32 0x41 10000 3600000 600000, rwRow 0x42 0 480 80, rwRow 0x43 8 410 82] ++
  fltRows 0x44 ++ fltRows 0x48 ++ fltRows 0x4C ++ fltRows 0x50 ++ fltRows 0x54 ++ fltRows 0x58 ++ fltRows 0x5C

/-- Scope 1 (R344). -/
def feedRows : List ItemRow :=
  roRows false 0x00 9 ++ roRows true 0x09 1 ++
  [rwRow 0x10 0 1 1, rwRow 0x11 100 5000 500, rwRow 0x12 400 6000 600, rwRow 0x13 5 200 20, rwRow 0x14 10 1000 100,
   rwRow 0x15 500 25000 6000, rwRow 0x16 25 5000 250, rwRow 0x17 10 1000 100, rwRow 0x18 0 1000 20, rwRow 0x19 100 20000 5000] ++
  fltRows 0x20

/-- Scope 2 (R345). -/
def ridgeRows : List ItemRow :=
  fltRows 0x00 ++ roRows false 0x04 13 ++ roRows true 0x11 1 ++ roRows false 0x12 1 ++ roRows true 0x13 1 ++
  roRows false 0x14 1 ++ roRows true 0x15 1 ++ roRows false 0x16 1 ++
  [{ item := 0x17, acc := .rz }, { item := 0x18, acc := .rz }, { item := 0x19, acc := .rz }, { item := 0x1A, acc := .rz },
   { item := 0x1B, acc := .rz }, rwRow 0x1C 60 130 100, rwRow 0x1D 1000 10000 1000, rwRow 0x1E 2500 5000 3435] ++
  roRows true 0x1F 1

/-- The port counters (R346). -/
def counterRows : Nat → Nat → List ItemRow
  | _, 0 => []
  | a, n + 1 => { item := a, acc := .rz } :: counterRows (a + 1) n

/-- Scope 3 (R346). -/
def portRows : List ItemRow :=
  roRows false 0x00 3 ++ roRows true 0x03 1 ++ roRows false 0x04 1 ++ roRows true 0x05 1 ++ roRows false 0x06 15 ++
  roRows true 0x15 3 ++
  [rwRow 0x20 0 2 0, rwRow 0x21 0 3 2, rwRow 0x22 20 1920 120, rwRow 0x23 20 1920 1920, rwRow 0x24 0 1920 0,
   rwRow 0x25 0 0xFFFF 0x1FF, rwRow 0x26 0 1 1, rwRow 0x27 0 1 0, rwRow 0x28 2 30 20, rwRow 0x29 20 200 50] ++
  [rwRow 0x2A 0 1 1, rwRow 0x2B 0 2 2, rwRow 0x2C 0 2 1, rwRow 0x2D 10 50 25, rwRow 0x2E 25 5000 500, rwRow 0x2F 50 1000 150,
   rwRow 0x30 20 300 100, rwRow 0x31 0 7 3] ++
  fltRows 0x38 ++ fltRows 0x3C ++ counterRows 0x40 14

/-- Scope 4 (R347). -/
def phaseRows : List ItemRow :=
  roRows false 0x00 2 ++
  [rwRow 0x02 0 3 0, rwRow 0x03 8192 40960 40960, rmRow 0x04 400 3000 2000, rwRow 0x05 50 1000 200, rwRow 0x06 100 1200 600,
   rmRow 0x07 0 7 1, rmRow 0x08 0 10000 500, rmRow 0x09 0 10000 100, rmRow 0x0A 0 65535 20000, rmRow 0x0B 25 100 100] ++
  fltRows 0x0C

/-- Scope 5 (R349). -/
def cairnRows : List ItemRow :=
  roRows false 0 2 ++ roRows true 2 3

/-- Scope 6 (R350). -/
def diagRows : List ItemRow :=
  roRows false 0 5 ++ roRows true 5 1 ++ roRows false 6 1 ++ roRows false 0x20 5 ++ roRows false 0x40 3

/-- A parameter ID (R333). -/
def pid (scope inst item : Nat) : Nat := scope * 0x2000 + inst * 0x80 + item

def pidScope (id : Nat) : Nat := id / 0x2000
def pidInst (id : Nat) : Nat := id / 0x80 % 64
def pidItem (id : Nat) : Nat := id % 0x80

def scopeRows : Nat → List ItemRow
  | 0 => deviceRows
  | 1 => feedRows
  | 2 => ridgeRows
  | 3 => portRows
  | 4 => phaseRows
  | 5 => cairnRows
  | 6 => diagRows
  | _ => []

/-- The row of an item (R334). -/
def itemRow (scope item : Nat) : Option ItemRow := (scopeRows scope).find? fun r => r.item == item

/-- How many instances a scope has (R334, R424, R350: the diagnostic view's range goes by item). -/
def scopeInst (scope item : Nat) : Nat :=
  match scope with
  | 0 => 1
  | 1 => 2
  | 2 => 6
  | 3 => 24
  | 4 => 48
  | 5 => 25
  | 6 => if item < 0x20 then 48 else if item < 0x40 then 24 else 6
  | _ => 0

/-- The default of RT_V: feed A's UV in 2 mV, clamped (R343). -/
def rtvDefault (s : State) : Nat := max 3000 (min 30000 ((s.feeds.getD 0 {}).uv * 5))

/-- The default of a settable item (R343 to R347). -/
def itemDefault (s : State) (id : Nat) : Nat :=
  if id = 0x33 then rtvDefault s
  else if pidScope id = 3 && pidItem id == 0x20 then b1 (s.otp.dualRole.testBit (pidInst id))
  else match itemRow (pidScope id) (pidItem id) with
    | some r => r.dflt
    | none => 0

/-- A settable item as written (R340: what it reads back). -/
def State.written (s : State) (id : Nat) : Nat := (mapGet s.params id).getD (itemDefault s id)

/-- A settable item as its block uses it: taken up at the frame boundary (R340). -/
def State.inf (s : State) (scope inst item : Nat) : Nat := (mapGet s.inForce (pid scope inst item)).getD (itemDefault s (pid scope inst item))

end Sys2Proof.Machine
end

