-- ==== Sys2Proof/Machine/Ops.lean ====
section
/-! DEFINITION. The named operations that every family shares: instances, time, faults (R254 to R264), attention and events
(R262, R263, R312), command places and reply slots (R287 to R297). -/

namespace Sys2Proof.Machine

/-- What a meaning answers. -/
abbrev Out := Host.Outcome State Fault Refusal

/-! ### Instances -/

def State.port (s : State) (p : Nat) : Port := s.ports.getD p {}
def State.phase (s : State) (k : Nat) : Phase := s.phases.getD k {}
def State.ridge (s : State) (r : Nat) : Ridge := s.ridges.getD r {}
def State.feed (s : State) (x : Nat) : Feed := s.feeds.getD x {}

def State.updPort (s : State) (p : Nat) (f : Port → Port) : State := { s with ports := s.ports.modify p f }
def State.updPhase (s : State) (k : Nat) (f : Phase → Phase) : State := { s with phases := s.phases.modify k f }
def State.updRidge (s : State) (r : Nat) (f : Ridge → Ridge) : State := { s with ridges := s.ridges.modify r f }
def State.updFeed (s : State) (x : Nat) (f : Feed → Feed) : State := { s with feeds := s.feeds.modify x f }

def State.updCc (s : State) (p : Nat) (f : CcLayer → CcLayer) : State := s.updPort p fun q => { q with cc := f q.cc }
def State.updVc (s : State) (p : Nat) (f : Vconn → Vconn) : State := s.updPort p fun q => { q with vc := f q.vc }
def State.updPd (s : State) (p : Nat) (f : Pd → Pd) : State := s.updPort p fun q => { q with pd := f q.pd }
def State.updSw (s : State) (p : Nat) (f : Swap → Swap) : State := s.updPort p fun q => { q with sw := f q.sw }
def State.updDc (s : State) (p : Nat) (f : Disc → Disc) : State := s.updPort p fun q => { q with dc := f q.dc }
def State.updPath (s : State) (p : Nat) (f : Path → Path) : State := s.updPort p fun q => { q with path := f q.path }

def State.cc (s : State) (p : Nat) : CcLayer := (s.port p).cc
def State.vc (s : State) (p : Nat) : Vconn := (s.port p).vc
def State.pd (s : State) (p : Nat) : Pd := (s.port p).pd
def State.sw (s : State) (p : Nat) : Swap := (s.port p).sw
def State.dc (s : State) (p : Nat) : Disc := (s.port p).dc
def State.path (s : State) (p : Nat) : Path := (s.port p).path

/-- The ridge, local number and home or neighbour ports are arithmetic on the numbers (R12, R13, R20). -/
def ridgeOfPhase (k : Nat) : Nat := k / 8
def ridgeOfPort (p : Nat) : Nat := p / 4
def localOfPhase (k : Nat) : Nat := k % 8
def localOfPort (p : Nat) : Nat := p % 4

/-- A fold over instance numbers 0 to n − 1, in rising order. -/
def overN (n : Nat) (f : Nat → State → State) (s : State) : State := (List.range n).foldl (fun t i => f i t) s

def overList (l : List Nat) (f : Nat → State → State) (s : State) : State := l.foldl (fun t i => f i t) s

/-! ### Time -/

/-- Pace time since PLL lock: 500 paces a frame (R33). -/
def State.now (s : State) : Nat := s.frame * 500 + s.pace

/-- FRAME_COUNT (R33). -/
def State.frameCount (s : State) : Nat := s.frame % 2 ^ 32

/-- A stamp that tells one pace (or one tick, before PLL lock) from another; 0 is none. -/
def State.stampNow (s : State) : Nat := if s.locked then 2 * s.now + 1 else 2 * s.tick + 2

/-- The present pace is the first of its frame. -/
def State.atBoundary (s : State) : Bool := s.pace == 0

/-- `n` frames have passed since frame `f`. -/
def State.framesSince (s : State) (f n : Nat) : Bool := decide (f + n ≤ s.frame)

/-- A timer that runs from a noted frame has run `n` frames. -/
def State.ran (s : State) (t : Option Nat) (n : Nat) : Bool :=
  match t with
  | some f => s.framesSince f n
  | none => false

/-- The next value of the model's free counter (log 4), and the counter moved on. -/
def State.free (s : State) : Int := Config.freeInt s.freeN
def State.freeNext (s : State) : State := { s with freeN := s.freeN + 1 }

/-- The block runs its VCORE domain: the engine clock is locked. -/
def State.running (s : State) : Bool := s.locked && s.seq.mode == .running

/-! ### Attention and events -/

/-- An event sets an attention bit (R262, R263). -/
def State.setAttn (s : State) (b : Nat) : State :=
  let m : Word := BitVec.ofNat 16 (2 ^ b)
  { s with attn := { s.attn with
      pending := s.attn.pending ||| m
      fresh := s.attn.fresh ||| m
      sinceSample := s.attn.sinceSample ||| m
      writeDue := s.attn.writeDue || !(s.attn.pending.getLsbD b) } }

/-- The attention bit of an event kind (R313). -/
def eventAttn (kind : Nat) : Nat :=
  if kind < 0x10 then 14 else if kind < 0x18 then 13 else if kind < 0x20 then 12 else if kind < 0x28 then 11
  else if kind < 0x30 then 10 else if kind < 0x38 then 9 else 8

/-- Octets a record takes in the queue (R312). -/
def EventRec.size (e : EventRec) : Nat := 8 + e.data.length

def EventQ.size (q : EventQ) : Nat := (q.recs.map EventRec.size).sum

/-- R312: an event appends a record, or drops it with LOST when the queue of 1,024 bytes is full; R262: its bit sets. -/
def State.pushEvent (s : State) (kind inst : Nat) (data : List Byte) : State :=
  let r : EventRec := { kind, inst, seq := s.events.seq, frame := s.frameCount, data }
  let q := s.events
  let q' : EventQ :=
    if q.size + r.size ≤ 1024 then { q with recs := q.recs ++ [r], seq := (q.seq + 1) % 256 }
    else { q with lost := true, seq := (q.seq + 1) % 256 }
  { s with events := q' }.setAttn (eventAttn kind)

/-! ### FAULT_N (R259, R260) -/

/-- A pin-visible sticky bit changes from 0 to 1; no pulse where the pin is held low already (R260, R261). -/
def State.pinOccur (s : State) : State :=
  if s.faultN.pulse || s.faultN.hold || s.seq.mode == .seqFailure then s
  else if s.locked then
    { s with faultN := { s.faultN with pulse := true, byTicks := false, pulseAt := max (s.now + 1) s.faultN.quietUntil } }
  else { s with faultN := { s.faultN with pulse := true, byTicks := true, pulseAt := s.tick } }

/-! ### Fault records (R254, R255) -/

def State.flt (s : State) : Blk → Flt
  | .seq => s.fltSeq
  | .aon => s.fltAon
  | .supv => s.fltSupv
  | .sense => s.fltSense
  | .bus => s.fltBus
  | .otp => s.fltOtp
  | .therm => s.fltTherm
  | .feed x => (s.feed x).flt
  | .portCc p => (s.cc p).flt
  | .portPath p => (s.path p).flt
  | .phase k => (s.phase k).flt
  | .ridge r => (s.ridge r).flt

def State.setFlt (s : State) (b : Blk) (f : Flt) : State :=
  match b with
  | .seq => { s with fltSeq := f }
  | .aon => { s with fltAon := f }
  | .supv => { s with fltSupv := f }
  | .sense => { s with fltSense := f }
  | .bus => { s with fltBus := f }
  | .otp => { s with fltOtp := f }
  | .therm => { s with fltTherm := f }
  | .feed x => s.updFeed x fun q => { q with flt := f }
  | .portCc p => s.updCc p fun q => { q with flt := f }
  | .portPath p => s.updPath p fun q => { q with flt := f }
  | .phase k => s.updPhase k fun q => { q with flt := f }
  | .ridge r => s.updRidge r fun q => { q with flt := f }

/-- The `_FIRST` word of R255. -/
def firstWord (src frame : Nat) : Word32 := BitVec.ofNat 32 (src * 2 ^ 28 + 2 ^ 27 + frame % 2 ^ 24)

def firstSrc (w : Word32) : Nat := w.toNat / 2 ^ 28

/-- The FRAME field of `_FIRST`: all ones while the engine clock does not run. -/
def State.firstFrame (s : State) : Nat := if s.locked then s.frameCount % 2 ^ 24 else 0xFFFFFF

/-- The record after an occurrence of source `b`: `_FIRST` is written when the item leaves zero; among several sources of
one pace the lowest position is named (R255). -/
def Flt.occur (f : Flt) (b frame stamp : Nat) : Flt :=
  let m : Word := BitVec.ofNat 16 (2 ^ b)
  if f.sticky = 0 then { f with sticky := m, first := firstWord b frame, stamp, last := stamp }
  else
    { f with
      sticky := f.sticky ||| m
      last := stamp
      first := if f.stamp == stamp && !f.sticky.getLsbD b && decide (b < firstSrc f.first) then firstWord b frame else f.first }

/-- The records whose changes the always-on domain notes until the next S + 60, those made while the part runs included (R263). -/
def Blk.alwaysOn : Blk → Bool
  | .seq => true
  | .aon => true
  | _ => false

/-- R47, R379: a source interrupts the supervisor; it stays pending until its interrupt is taken. -/
def State.interrupt (s : State) (x : IrqSource) : State :=
  if s.locked && s.sup.st != .hold && !s.irq.contains x then { s with irq := s.irq ++ [x] } else s

/-- R255, R256: a source's sticky bit sets; the change from 0 to 1 acts on the pin and on attention, and interrupts the supervisor. -/
def State.raise (s : State) (b : Blk) (i : Nat) : State :=
  let f := s.flt b
  if f.sticky.getLsbD i then s
  else
    let s1 := s.setFlt b (f.occur i s.firstFrame s.stampNow)
    let s1 := if f.irq.getLsbD i then s1.interrupt (.fault b i) else s1
    let s2 := if f.pin.getLsbD i then s1.pinOccur else s1
    if f.attn.getLsbD i then { s2 with attn := { s2.attn with note := s2.attn.note || b.alwaysOn } }.setAttn 15 else s2

/-- The default of `_PIN`: the bits marked Yes in R264. -/
def pinDefault : Blk → Word
  | .seq => 0x004E
  | .aon => 0
  | .supv => 0
  | .sense => 0
  | .bus => 0
  | .otp => 0x0008
  | .therm => 0
  | .feed _ => 0x0048
  | .portCc _ => 0x0020
  | .portPath _ => 0x0020
  | .phase _ => 0
  | .ridge _ => 0x0074

/-- An empty record with its defaults (R342). -/
def fltFresh (b : Blk) : Flt := { pin := pinDefault b }

/-- A record cleared, with its `_PIN` and `_ATTN` kept. -/
def Flt.cleared (f : Flt) : Flt := { pin := f.pin, attn := f.attn }

/-! ### Port counters (R346) -/

/-- Items 0x40 to 0x4D in order. -/
inductive PCount where
  | attach | detachI | hrSent | hrRcvd | softReset | reject | caps | trip | vconnTrip | swapFail | overdraw | ppsLimit
  | eprEntry | calx
deriving DecidableEq, Repr

def PCount.idx : PCount → Nat
  | .attach => 0
  | .detachI => 1
  | .hrSent => 2
  | .hrRcvd => 3
  | .softReset => 4
  | .reject => 5
  | .caps => 6
  | .trip => 7
  | .vconnTrip => 8
  | .swapFail => 9
  | .overdraw => 10
  | .ppsLimit => 11
  | .eprEntry => 12
  | .calx => 13

/-- A counter of type u16 saturates (R337). -/
def sat1 (n : Nat) : Nat := satU16 (n + 1)

def State.countUp (s : State) (p : Nat) (c : PCount) : State :=
  s.updPort p fun q => { q with counters := q.counters.modify c.idx sat1 }

/-! ### Command places and reply slots (R287 to R297) -/

def State.chan (s : State) : Chan → ChanState
  | .host => s.host
  | .tunnel => s.tun

def State.setChan (s : State) (c : Chan) (x : ChanState) : State :=
  match c with
  | .host => { s with host := x }
  | .tunnel => { s with tun := x }

def placeChan : Place → Chan
  | .host0 => .host
  | .host12 => .host
  | .tun0 => .tunnel
  | .tun12 => .tunnel

/-- Whether a place serves class 0. -/
def placeZero : Place → Bool
  | .host0 => true
  | .host12 => false
  | .tun0 => true
  | .tun12 => false

def ChanState.cmd (x : ChanState) (zero : Bool) : Option Cmd := if zero then x.place0 else x.place12

def ChanState.setCmd (x : ChanState) (zero : Bool) (c : Option Cmd) : ChanState :=
  if zero then { x with place0 := c } else { x with place12 := c }

def State.cmdAt (s : State) (pl : Place) : Option Cmd := (s.chan (placeChan pl)).cmd (placeZero pl)

def State.setCmdAt (s : State) (pl : Place) (c : Option Cmd) : State := s.setChan (placeChan pl) ((s.chan (placeChan pl)).setCmd (placeZero pl) c)

def Cmd.op (c : Cmd) : Nat := rdB c.bytes 0
def Cmd.tagB (c : Cmd) : Byte := c.bytes.getD 1 0
def Cmd.cls (c : Cmd) : Nat := rdB c.bytes 2 % 4
def Cmd.plen (c : Cmd) : Nat := rdB c.bytes 3
def Cmd.par (c : Cmd) : List Byte := c.bytes.drop 4

/-- Status codes (R285). -/
def stOk : Nat := 0x00
def stBadOpcode : Nat := 0x03
def stBadLength : Nat := 0x04
def stBadClass : Nat := 0x05
def stBadParam : Nat := 0x06
def stAccess : Nat := 0x07
def stNotYet : Nat := 0x08
def stState : Nat := 0x09
def stPrivilege : Nat := 0x0A
def stLocked : Nat := 0x0B
def stBusy : Nat := 0x0C
def stAuth : Nat := 0x0D
def stSuperseded : Nat := 0x0E
def stFailed : Nat := 0x0F

/-- The bytes of a reply (R283, R284); the REPEAT bit is set when they are read again. -/
def replyBytes (c : Cmd) (code : Nat) (data : List Byte) : List Byte :=
  byteOf (code + bitAt 6 c.discarded) :: c.tagB :: c.bytes.getD 0 0 :: byteOf data.length :: data

/-- A reply is ready: it fills the slot unless its command has been orphaned (R292, R295). -/
def ChanState.answer (x : ChanState) (c : Cmd) (code : Nat) (data : List Byte) : ChanState :=
  if c.orphan then x else { x with slot := .ready false (replyBytes c code data), sampled := false }

/-- A command ends: its place is free and its reply ready (R288, R295). -/
def State.finish (s : State) (pl : Place) (code : Nat) (data : List Byte) : State :=
  match s.cmdAt pl with
  | none => s
  | some c => s.setChan (placeChan pl) (((s.chan (placeChan pl)).setCmd (placeZero pl) none).answer c code data)

def State.ok (s : State) (pl : Place) : State := s.finish pl stOk []

/-- A command that goes on after it has begun to execute keeps its place (R288). -/
def State.hold (s : State) (pl : Place) (w : WaitFor) : State :=
  match s.cmdAt pl with
  | none => s
  | some c => s.setCmdAt pl (some { c with wait := some w })

/-- Whether a place holds a command that waits for `w`. -/
def State.waits (s : State) (pl : Place) (w : WaitFor) : Bool :=
  match s.cmdAt pl with
  | some c => c.wait == some w
  | none => false

/-- Every command that waits for `w` ends with a reply. -/
def State.finishWait (s : State) (w : WaitFor) (code : Nat) (data : List Byte) : State :=
  [Place.host0, .host12, .tun0, .tun12].foldl (fun t pl => if t.waits pl w then t.finish pl code data else t) s

/-- Whether some place waits for `w`. -/
def State.anyWait (s : State) (w : WaitFor) : Bool :=
  [Place.host0, .host12, .tun0, .tun12].any fun pl => s.waits pl w

/-- A command holds a place and its reply is still its own. -/
def live (c : Option Cmd) : Bool :=
  match c with
  | some c => !c.orphan
  | none => false

def orphaned (c : Option Cmd) : Option Cmd := c.map fun c => { c with orphan := true }

/-- What claiming the slot does to what stands there: the reply is discarded, commands in flight are orphaned, and whether
DISCARDED is due in the new reply (R292). -/
def ChanState.claim (x : ChanState) (c : Cmd) : ChanState :=
  let unread := match x.slot with
    | .ready false _ => true
    | _ => false
  let disc := unread || live x.place0 || live x.place12 || live x.place3 || x.lostReply
  let c' := { c with discarded := disc }
  let y : ChanState :=
    { slot := .pending c.tagB (c.bytes.getD 0 0), place0 := orphaned x.place0, place12 := orphaned x.place12 }
  if c.cls = 0 then { y with place0 := some c' } else if c.cls = 3 then { y with place3 := some c' }
  else { y with place12 := some c' }

/-- The place for a packet's class is held; class 3 names none (R288, R298). -/
def ChanState.classHeld (x : ChanState) (cls : Nat) : Bool := if cls = 0 then x.place0.isSome else cls != 3 && x.place12.isSome

/-- Commands in flight lose their replies and both slots empty (R295, R298). -/
def ChanState.dropReplies (x : ChanState) : ChanState :=
  { x with slot := .empty, sampled := false, place0 := orphaned x.place0, place12 := orphaned x.place12, place3 := none }

/-- BUS_STATUS MODE (R272). -/
def State.busMode (s : State) : Nat :=
  match s.seq.mode with
  | .unpowered => 0
  | .retention => 0
  | .sequencing => 0
  | .running => if s.seq.interpreter && s.sup.st != .hold then 1 else 0
  | .shutdown => 2
  | .shutoff => 2
  | .holdoff => 2
  | .seqFailure => 3
  | .integrityHold => 4
  | .serviceBoot => 5

/-- CMD_PENDING (R288, R295). -/
def ChanState.pendingNow (x : ChanState) : Bool :=
  x.place0.isSome || x.place12.isSome || x.place3.isSome

def ChanState.ready (x : ChanState) : Bool :=
  match x.slot with
  | .ready _ _ => true
  | _ => false

/-- The status byte of R272. -/
def State.busStatus (s : State) : Nat :=
  s.busMode * 32 +
  (if s.busMode = 1 then
    bitAt 4 s.host.ready + bitAt 3 s.host.pendingNow + bitAt 2 (s.attn.pending != 0) + bitAt 1 s.bus.attnHeld +
      bitAt 0 (s.fltBus.sticky.getLsbD 0)
  else 0)

/-- The part's address (R266). -/
def State.busAddr (s : State) : Nat := 0x60 + s.bus.addrPins

end Sys2Proof.Machine
end

