-- ==== Sys2Proof/Machine/Otp.lean ====
section
/-! DEFINITION. The one-time-programmable array (R395 to R421): regions, the two-margin read, the vote, digests, locks,
configuration fields, burns, and calibration records. -/

namespace Sys2Proof.Machine

/-- A word at the low and at the high reference (R397). -/
def Otp.lo (o : Otp) (a : Nat) : Word32 := cellsRead o.low a
def Otp.hi (o : Otp) (a : Nat) : Word32 := cellsRead o.high a

/-- A word is weak when its two reads differ (R397). -/
def Otp.weak (o : Otp) (a : Nat) : Bool := o.lo a != o.hi a

/-! ### The FACTORY vote (R402) -/

def two3 (a b c : Word32) : Word32 := (a &&& b) ||| (a &&& c) ||| (b &&& c)

/-- Bits with two firm copies that read 1, and bits with two firm copies that read 0. -/
def Otp.firm1 (o : Otp) (i : Nat) : Word32 := two3 (o.hi i) (o.hi (i + 21)) (o.hi (i + 42))
def Otp.firm0 (o : Otp) (i : Nat) : Word32 := two3 (~~~ o.lo i) (~~~ o.lo (i + 21)) (~~~ o.lo (i + 42))

/-- The vote fails on a bit with no two firm copies that agree. -/
def Otp.voteOk (o : Otp) (i : Nat) : Bool := (o.firm1 i ||| o.firm0 i) == BitVec.allOnes 32

/-- A copy bit is weak or disagrees (R398 VOTE_REPAIR). -/
def Otp.voteRepair (o : Otp) (i : Nat) : Bool :=
  [i, i + 21, i + 42].any fun a => o.weak a || o.lo a != o.firm1 i

/-! ### Regions (R395, R398, R410 to R412) -/

/-- First word and length in words; FACTORY in logical words. -/
def regionBase : Nat → Nat
  | 1 => 64
  | 2 => 128
  | 3 => 256
  | 4 => 768
  | 5 => 1008
  | _ => 0

def regionLen : Nat → Nat
  | 0 => 21
  | 1 => 64
  | 2 => 128
  | 3 => 512
  | 4 => 240
  | 5 => 16
  | _ => 0

/-- The region a word lies in. -/
def regionOf (a : Nat) : Nat :=
  if a < 64 then 0 else if a < 128 then 1 else if a < 256 then 2 else if a < 768 then 3 else if a < 1008 then 4 else 5

/-- A word of a region as resolved by R398. -/
def Otp.word (o : Otp) (r j : Nat) : Word32 := if r = 0 then o.firm1 j else o.lo (regionBase r + j)

/-- The offset of the highest burned word plus one, scanning down from `n` (R410). -/
def Otp.fillFrom (o : Otp) (r : Nat) : Nat → Nat
  | 0 => 0
  | n + 1 => if o.word r n != 0 then n + 1 else o.fillFrom r n

def Otp.fillOf (o : Otp) (r : Nat) : Nat := o.fillFrom r (regionLen r)

/-- At least two of the three lock copies read 1 (R411). -/
def Otp.locked (o : Otp) (r : Nat) : Bool :=
  let c := o.lo 1023
  decide (2 ≤ b1 (c.getLsbD r) + b1 (c.getLsbD (5 + r)) + b1 (c.getLsbD (10 + r)))

def Otp.spent (o : Otp) (i : Nat) : Bool := (o.lo 1023).getLsbD (15 + i)

/-- The bytes of the digest string (R411). -/
def Otp.digestBytes (o : Otp) : List Byte := (List.range 15).flatMap fun j => leBytes 4 (o.lo (1008 + j)).toNat

def Otp.slot (o : Otp) (i : Nat) : List Byte := (o.digestBytes.drop (6 * i)).take 6

/-- The digest of a region over its first `len` words (R412). -/
def Otp.digest (o : Otp) (r len : Nat) : List Byte :=
  (sha256 (byteOf r :: leBytes 2 len ++ (List.range len).flatMap fun j => leBytes 4 (o.word r j).toNat)).take 6

/-- The highest-numbered spent slot of a region. -/
def Otp.lastSlot (o : Otp) (r : Nat) : Option Nat :=
  if o.spent (2 * r + 1) then some (2 * r + 1) else if o.spent (2 * r) then some (2 * r) else none

/-- A locked region's digest matches (R411, R412). -/
def Otp.digestOk (o : Otp) (r : Nat) : Bool :=
  match o.lastSlot r with
  | some i => o.slot i == o.digest r (o.fillOf r)
  | none => false

/-- An integrity failure (R399). -/
def Otp.integrityFails (o : Otp) : Bool :=
  (List.range 21).any (fun i => !o.voteOk i) || (List.range 5).any (fun r => o.locked r && !o.digestOk r)

/-- Weak words of the whole array (WEAK_COUNT): a word whose reads differ is listed in one of the two memories. -/
def Otp.weakList (o : Otp) : List Nat := (o.low.filter fun p => o.weak p.1).map (·.1)

def Otp.regionWeak (o : Otp) (r : Nat) : Bool := o.weakList.any fun a => regionOf a == r

/-! ### Key state (R343, R407, R409) -/

def Otp.anyBit (o : Otp) (a n : Nat) : Bool := (List.range n).any fun j => o.lo (a + j) != 0

def Otp.keyStateNow (o : Otp) : Nat :=
  bitAt 0 (o.anyBit 192 8) + bitAt 1 (o.anyBit 200 8) +
  bitAt 2 (o.anyBit 128 8) + bitAt 3 (o.anyBit 136 8) + bitAt 4 (o.anyBit 144 8) + bitAt 5 (o.anyBit 152 8) +
  bitAt 6 (o.anyBit 160 8) + bitAt 7 (o.anyBit 168 8)

def Otp.slotStateNow (o : Otp) : Nat := ((List.range 10).map fun i => bitAt i (o.spent i)).sum
def Otp.locksNow (o : Otp) : Nat := ((List.range 5).map fun r => bitAt r (o.locked r)).sum

/-- What burns and FINALISE update at once (R400). -/
def Otp.recount (o : Otp) : Otp :=
  { o with
    fill := (List.range 5).map o.fillOf
    weakCount := o.weakList.length
    keyState := o.keyStateNow
    slotState := o.slotStateNow
    locks := o.locksNow }

/-- An octet string that starts at a word (R406). -/
def Otp.octets (o : Otp) (a n : Nat) : List Byte := (List.range n).flatMap fun j => leBytes 4 (o.lo (a + j)).toNat

/-- Words of an octet string (R406). -/
def wordsOf : Nat → List Byte → List Word32
  | 0, _ => []
  | n + 1, bs => BitVec.ofNat 32 (rdLe bs 0 4) :: wordsOf n (bs.drop 4)

/-- A digest slot is filled, and names the key (R407). -/
def Otp.keyMatches (o : Otp) (a : Nat) (key : List Byte) : Bool := o.anyBit a 8 && o.octets a 8 == sha256 key

/-- The identity key is usable only if word 208 matches (R409). -/
def Otp.idUsable (o : Otp) : Bool :=
  o.anyBit 200 8 && (o.lo 208).toNat == crc32 (o.octets 192 16)

/-- The unit identity private key in the key store (R408). -/
def Otp.idKey (o : Otp) : List Byte := Config.unscramble (o.octets 200 8)
def Otp.secret (o : Otp) : List Byte := Config.unscramble (o.octets 192 8)

/-! ### CONFIG (R404, R405) -/

def tmoOf (code : Nat) : Nat := if code = 0 then 320 else 32 * min code 100
def retriesOf (code : Nat) : Nat := if code = 0 then 3 else code
def feedRetriesOf (code : Nat) : Nat := if code < 8 then 3 else code - 8
def insDlyOf (code : Nat) : Nat := if code = 0 then 200 else 10 * code

/-- The bits of F3, F4 and F5 that the dedicated wires carry (R401, R403). -/
def trimMask : Nat → Word32
  | 3 => 0x00FFFFFF
  | 4 => 0x00003FFF
  | _ => 0x00007FFF

/-- The critical bits that the dedicated wires carry, from a reading of the array's words and of FACTORY's logical words (R401). -/
def Otp.latch (o : Otp) (w64 w66 w1023 : Nat) (factory : Nat → Word32) : Otp :=
  { o with
    trims := [3, 4, 5].map fun i => factory i &&& trimMask i
    sbMask := fld w64 0 24
    seqRetries := retriesOf (fld w66 0 3)
    seqTmo := tmoOf (fld w66 3 7)
    rsRp := if w66.testBit 11 then 0 else 1
    modes := bitAt 0 (w66.testBit 12) + bitAt 1 (w66.testBit 13) + bitAt 2 (w66.testBit 10)
    locks := ((List.range 5).map fun r =>
      bitAt r (decide (2 ≤ b1 (w1023.testBit r) + b1 (w1023.testBit (5 + r)) + b1 (w1023.testBit (10 + r))))).sum }

/-- A word at the middle reference: a weak bit reads either way (log 13). -/
def Otp.mid (o : Otp) (n a : Nat) : Nat :=
  (o.hi a ||| (o.lo a &&& BitVec.ofInt 32 (Config.freeInt (n + a)))).toNat

/-- The simple majority of a FACTORY word's three copies at the middle reference (R401). -/
def Otp.majority (o : Otp) (n i : Nat) : Word32 :=
  let c := fun (a : Nat) => BitVec.ofNat 32 (o.mid n a)
  two3 (c i) (c (i + 21)) (c (i + 42))

/-- R401: the sensing at a `VBAT_AON` power-on. -/
def Otp.sense (o : Otp) (n : Nat) : Otp := o.latch (o.mid n 64) (o.mid n 66) (o.mid n 1023) (o.majority n)

/-- R240, R398, R400, R401, R404: what a sound read at step 3 takes up. -/
def Otp.takeUp (o : Otp) : Otp :=
  let a := (o.latch (o.lo 64).toNat (o.lo 66).toNat (o.lo 1023).toNat o.firm1).recount
  { a with dualRole := fld (o.lo 65).toNat 0 24, svid := fld (o.lo 67).toNat 0 16 }

/-- The feed items with restore O (R404). -/
def Otp.feedItems (o : Otp) (x : Nat) (f : Feed) : Feed :=
  let w := (o.lo (68 + x)).toNat
  let d := (o.lo 70).toNat
  let uv := fld w 0 13
  let ov := fld w 16 13
  { f with
    uv := if uv = 0 then 800 else uv
    ov := if ov = 0 then 6000 else ov
    retries := feedRetriesOf (fld d (8 + 16 * x) 4)
    insDly := insDlyOf (fld d (16 * x) 8) }

/-- The sticky bits of a read (R398, R411, R264). -/
def otpStickies (s : State) : State :=
  let o := s.otp
  let s := if (List.range 21).any o.voteRepair then s.raise .otp 2 else s
  let s := if [1, 2, 3, 4].any (fun r => !o.locked r && o.regionWeak r) then s.raise .otp 0 else s
  let s := if [1, 2, 3, 4].any (fun r => o.locked r && o.regionWeak r) then s.raise .otp 1 else s
  let s := if fld (o.lo 64).toNat 0 24 != fld (o.hi 64).toNat 0 24 then s.raise .otp 3 else s
  let s := if (List.range 5).any (fun r => !o.locked r && (o.lastSlot r).isSome) then s.raise .otp 4 else s
  if (List.range 5).any (fun r => !o.locked r && o.spent (2 * r) && o.spent (2 * r + 1)) then s.raise .otp 5 else s

/-! ### Burning (R396, R320, R400) -/

/-- A burn of one word: bits set; a word that reads weak afterwards keeps its high-margin read. -/
def Otp.burn1 (o : Otp) (weak : List Nat) (a : Nat) (w : Word32) : Otp :=
  { o with
    low := cellsWrite o.low a (o.lo a ||| w)
    high := if weak.contains a then o.high else cellsWrite o.high a (o.hi a ||| w) }

def Otp.burnFrom (o : Otp) (weak : List Nat) (a : Nat) : List Word32 → Otp
  | [] => o
  | w :: ws => (o.burn1 weak a w).burnFrom weak (a + 1) ws

/-- Words burned one after another. -/
def Otp.burnList (o : Otp) (weak : List Nat) (l : List (Nat × Word32)) : Otp := l.foldl (fun o x => o.burn1 weak x.1 x.2) o

/-- A run of words from an address. -/
def runOf (a : Nat) (ws : List Word32) : List (Nat × Word32) := (List.range ws.length).map fun i => (a + i, ws.getD i 0)

/-- A word verifies when both margins read every given 1 bit. -/
def Otp.verify1 (o : Otp) (a : Nat) (w : Word32) : Bool := (o.lo a &&& o.hi a &&& w) == w

/-- Offsets of the words that fail their verify. -/
def Otp.failing (o : Otp) (a : Nat) (ws : List Word32) : List Nat :=
  (List.range ws.length).filter fun i => !o.verify1 (a + i) (ws.getD i 0)

/-- A bitmap of 8 bytes (R319). -/
def bitmap8 (l : List Nat) : List Byte := leBytes 8 ((l.map fun i => 2 ^ i).sum)

/-! ### Calibration (R416 to R421, R467) -/

structure CalRec where
  trim : Int := 0
  ofs : Int := 0
  lcode : Nat := 0
deriving DecidableEq, Repr, Inhabited

def genBase (g : Nat) : Nat := 288 + 80 * g

/-- The highest committed generation (R416). -/
def Otp.currentGen (o : Otp) : Option Nat := ([5, 4, 3, 2, 1, 0] : List Nat).find? fun g => o.lo (256 + g) != 0

/-- A signed field. -/
def sext (w n : Nat) : Int := if n < 2 ^ (w - 1) then (n : Int) else (n : Int) - (2 ^ w : Nat)

def recOf (n : Nat) : CalRec := { trim := sext 11 (fld n 13 11), ofs := sext 8 (fld n 5 8), lcode := fld n 0 5 }
def recNat (r : CalRec) : Nat := twos 11 r.trim * 2 ^ 13 + twos 8 r.ofs * 2 ^ 5 + r.lcode % 32

/-- The 24 bits of record c of a generation (R417). -/
def Otp.recBits (o : Otp) (g c : Nat) : Nat :=
  let b := 24 * c
  let k := genBase g + b / 32
  ((o.lo k).toNat + (o.lo (k + 1)).toNat * 2 ^ 32) / 2 ^ (b % 32) % 2 ^ 24

def Otp.genWords (o : Otp) (g n : Nat) : List Word32 := (List.range n).map fun j => o.lo (genBase g + j)

/-- The check word matches words 0 to 78 (R417, R421). -/
def Otp.genCrcOk (o : Otp) (g : Nat) : Bool :=
  (o.lo (genBase g + 79)).toNat == crc32 ((o.genWords g 79).flatMap fun w => leBytes 4 w.toNat)

/-- R419: the plausibility bounds. -/
def CalRec.plausible (r : CalRec) : Bool :=
  decide (-100 ≤ r.ofs) && decide (r.ofs ≤ 100) && decide (-1000 ≤ r.trim) && decide (r.trim ≤ 1000)

/-- The record of a channel in the highest committed generation: nominal with LCODE 0 where its CRC fails or there is none (R416, R421). -/
def Otp.currentRec (o : Otp) (c : Nat) : CalRec :=
  match o.currentGen with
  | some g => if o.genCrcOk g then recOf (o.recBits g c) else {}
  | none => {}

/-- The channels that run on nominal values when a generation is taken up (R419, R421). -/
def Otp.badChannels (o : Otp) : Option Nat → List Nat
  | none => []
  | some g =>
    if o.genCrcOk g then (List.range 96).filter fun c => !(recOf (o.recBits g c)).plausible
    else List.range 96

/-- The record a channel runs on: nominal with L = 0 where none is usable (R416, R419, R421). -/
def Otp.chanRec (o : Otp) (c : Nat) : CalRec :=
  match o.calUse with
  | none => {}
  | some g => if o.calBad.contains c then {} else recOf (o.recBits g c)

/-- Nominal zero code of a channel (R467): 0 to 47 phase currents, 48 to 71 port currents, 72 to 95 port voltages. -/
def zNom (c : Nat) : Int := if c < 72 then 2048 else 64

/-- The load-point step in the LSB of R145: 1 A of 2 mA, 0.25 A of 1 mA, 2 V of 2 mV (R417). -/
def lStep (c : Nat) : Nat := if c < 48 then 500 else if c < 72 then 250 else 1000

/-- A summed value of `n` codes in the channel's LSB: every nominal gain is 8 LSB a code (R467, R417). -/
def calScale (r : CalRec) (sumAboveZero : Int) (n : Nat) : Int := roundDiv (sumAboveZero * (8192 + r.trim)) (1024 * n)

/-- A channel's load point covers a magnitude (R152). -/
def CalRec.covers (r : CalRec) (c m : Nat) : Bool := decide (m ≤ 2 * (r.lcode * lStep c))

/-- R152: a new generation clears CAL_EXTRAPOLATED where its load points cover what was seen; a channel on nominal values
sets it (R264, R421). -/
def Otp.rangeFlags (o : Otp) (s : State) : State :=
  let s := overN 48 (fun k t => t.updPhase k fun f =>
    { f with calx := o.calBad.contains k || (f.calx && !(o.chanRec k).covers k f.calxMax) }) s
  overN 24 (fun p t => t.updPath p fun h =>
    { h with calx := o.calBad.contains (48 + p) || o.calBad.contains (72 + p) ||
        (h.calx && !((o.chanRec (48 + p)).covers (48 + p) h.calxI && (o.chanRec (72 + p)).covers (72 + p) h.calxV)) }) s

/-- R323, R419, R421: a generation is taken up; CAL_RANGE sets where a channel runs on nominal values. -/
def State.takeCal (s : State) (g : Option Nat) : State :=
  let bad := s.otp.badChannels g
  let s1 := { s with otp := { s.otp with calUse := g, calGen := g.getD 0, calBad := bad, calNext := none } }
  let s2 := s1.otp.rangeFlags s1
  if bad.isEmpty then s2 else s2.raise .sense 3

end Sys2Proof.Machine
end

