-- ==== Sys2Proof/Machine/Cairns.lean ====
section
/-! DEFINITION. Fault-record items by parameter ID (R342) and the cairns (R422 to R430): what each carries, its record, its
restore, and writing it. -/

namespace Sys2Proof.Machine

/-- The block whose record an ID belongs to, and which of its four items (R342). -/
def pidFlt (id : Nat) : Option (Blk × Nat) :=
  let i := pidInst id
  let m := pidItem id
  match pidScope id with
  | 0 =>
    if m < 0x44 || 0x60 ≤ m then none
    else if m < 0x48 then some (.seq, m - 0x44) else if m < 0x4C then some (.aon, m - 0x48)
    else if m < 0x50 then some (.supv, m - 0x4C) else if m < 0x54 then some (.sense, m - 0x50)
    else if m < 0x58 then some (.bus, m - 0x54) else if m < 0x5C then some (.otp, m - 0x58) else some (.therm, m - 0x5C)
  | 1 => if 0x20 ≤ m && m < 0x24 then some (.feed i, m - 0x20) else none
  | 2 => if m < 4 then some (.ridge i, m) else none
  | 3 => if 0x38 ≤ m && m < 0x3C then some (.portCc i, m - 0x38) else if 0x3C ≤ m && m < 0x40 then some (.portPath i, m - 0x3C) else none
  | 4 => if 0x0C ≤ m && m < 0x10 then some (.phase i, m - 0x0C) else none
  | _ => none

/-- An item of a fault record as a number. -/
def Flt.item (f : Flt) : Nat → Nat
  | 0 => f.sticky.toNat
  | 1 => f.first.toNat
  | 2 => f.pin.toNat
  | _ => f.attn.toNat

def Flt.setMask (f : Flt) (which v : Nat) : Flt :=
  if which = 2 then { f with pin := BitVec.ofNat 16 v } else { f with attn := BitVec.ofNat 16 v }

/-! ### Banks (R325, R352) -/

/-- A word of a program bank: over zeros, or over a ROM law whose words the spec does not give. -/
def Bank.word (b : Bank) (a : Nat) : Word32 :=
  match mapGet b.words a with
  | some w => w
  | none => if b.base = 0 then 0 else Config.lawImage b.base a

/-- An entry of a decode table. -/
def Bank.entry (b : Bank) (i : Nat) : Word32 :=
  match mapGet b.tbl i with
  | some w => w
  | none => if b.tblBase = 0 then 0 else Config.lawTable b.tblBase i

def Bank.tblBytes (b : Bank) : List Byte := (List.range 256).flatMap fun i => leBytes 4 (b.entry i).toNat

/-- Words listed over a base of zeros, zeros left out. -/
def listWords (ws : List Word32) : List (Nat × Word32) :=
  ((List.range ws.length).zip ws).filter fun p => p.2 != 0

def wordsFrom : Nat → List Byte → List Word32
  | 0, _ => []
  | n + 1, bs => BitVec.ofNat 32 (rdLe bs 0 4) :: wordsFrom n (bs.drop 4)

/-! ### What a cairn carries (R424) -/

/-- A field of a record. -/
inductive CField where
  /-- A settable item, by ID. -/
  | item (id : Nat)
  | pin (b : Blk)
  | attn (b : Blk)
  | activeSrc (r : Nat)
  | activeId (r : Nat)
  | decodeId (r : Nat)
  | retired (r : Nat)
  /-- A diagnostic item of phase k (R350): 0 to 3, 5, 6. -/
  | est (k item : Nat)
  | runOfs (k : Nat)
  | lBase (k : Nat)
  | portEst (p item : Nat)
  | vOfs (p : Nat)
  | iOfs (p : Nat)
  | ridgeEst (r item : Nat)
deriving DecidableEq, Repr

def masks (b : Blk) : List CField := [.pin b, .attn b]

def itemsFrom (scope inst a n : Nat) : List CField := (List.range n).map fun i => .item (pid scope inst (a + i))

def ridgeFields (r : Nat) : List CField :=
  itemsFrom 2 r 0x1C 3 ++ [.activeSrc r, .activeId r, .decodeId r] ++ masks (.ridge r) ++ [.retired r] ++
  ((List.range 4).flatMap fun q => itemsFrom 3 (4 * r + q) 0x20 18 ++ masks (.portCc (4 * r + q)) ++ masks (.portPath (4 * r + q))) ++
  ((List.range 8).flatMap fun k =>
    [.item (pid 4 (8 * r + k) 0x02), .item (pid 4 (8 * r + k) 0x03), .item (pid 4 (8 * r + k) 0x05), .item (pid 4 (8 * r + k) 0x06)] ++
      masks (.phase (8 * r + k)))

def rmItems : List Nat := [0x04, 0x07, 0x08, 0x09, 0x0A, 0x0B]

def marginFields (r : Nat) : List CField :=
  ((List.range 8).flatMap fun k =>
    rmItems.map (fun m => .item (pid 4 (8 * r + k) m)) ++ [0, 1, 2, 3, 5, 6].map (fun m => .est (8 * r + k) m) ++
      [.runOfs (8 * r + k), .lBase (8 * r + k)]) ++
  ((List.range 4).flatMap fun q =>
    [0, 1, 2].map (fun m => .portEst (4 * r + q) m) ++ [.vOfs (4 * r + q), .iOfs (4 * r + q)]) ++
  [.ridgeEst r 0, .ridgeEst r 1, .ridgeEst r 2]

/-- The fields of cairns 0 to 15, in order (R424, R425). -/
def cairnFields (n : Nat) : List CField :=
  if n = 0 then itemsFrom 0 0 0x30 12 ++ itemsFrom 0 0 0x3F 5 ++ masks .supv ++ masks .sense ++ masks .otp ++ masks .therm
  else if n = 1 then itemsFrom 0 0 0x3C 3 ++ masks .bus
  else if n < 4 then itemsFrom 1 (n - 2) 0x10 10 ++ masks (.feed (n - 2))
  else if n < 10 then ridgeFields (n - 4)
  else if n < 16 then marginFields (n - 10)
  else []

/-- Bytes of a field. -/
def CField.width : CField → Nat
  | .item id => match itemRow (pidScope id) (pidItem id) with
    | some r => if r.wide then 4 else 2
    | none => 2
  | .activeId _ => 4
  | .decodeId _ => 4
  | .est _ 5 => 4
  | _ => 2

/-- A phase's diagnostic item (R350): items 0 to 3, 5 and 6. -/
def phaseEst (f : Phase) (m : Nat) : Nat := if m < 4 then f.est.getD m 0 else if m = 5 then f.measFrame else f.nMeas

def setPhaseEst (f : Phase) (m v : Nat) : Phase :=
  if m < 4 then { f with est := f.est.set m v } else if m = 5 then { f with measFrame := v, measured := f.measured } else { f with nMeas := v }

/-- A mask of a record as written, which acts from the next pace on (R340). -/
def State.maskOf (s : State) (b : Blk) (which : Nat) : Nat :=
  ((s.fltWrites.reverse.find? fun w => pidFlt w.1 == some (b, which)).map (·.2)).getD ((s.flt b).item which)

/-- A running offset as a cairn keeps it, and as it restores one: an offset equal to the calibration offset stands for none measured. -/
def ofsField (s : State) (c : Nat) (run : Option Int) : Nat := twos 16 (run.getD (64 * (s.otp.chanRec c).ofs))
def ofsTaken (s : State) (c v : Nat) : Option Int := if sext 16 v = 64 * (s.otp.chanRec c).ofs then none else some (sext 16 v)

/-- A field's present value. -/
def CField.read (s : State) : CField → Nat
  | .item id => s.written id
  | .pin b => s.maskOf b 2
  | .attn b => s.maskOf b 3
  | .activeSrc r => (s.ridge r).activeSrc
  | .activeId r => (s.ridge r).activeId
  | .decodeId r => (s.ridge r).decodeId
  | .retired r => ((List.range 8).map fun k => bitAt k (s.phase (8 * r + k)).retired).sum
  | .est k m => phaseEst (s.phase k) m
  | .runOfs k => ofsField s k (s.phase k).runOfs
  | .lBase k => (s.phase k).lBase
  | .portEst p m => (s.path p).est.getD m 0
  | .vOfs p => ofsField s (72 + p) (s.path p).vRunOfs
  | .iOfs p => ofsField s (48 + p) (s.path p).iRunOfs
  | .ridgeEst r m => (s.ridge r).est.getD m 0

/-- A settable item set and taken up. -/
def State.setItem (s : State) (id v : Nat) : State := { s with params := mapSet s.params id v, inForce := mapSet s.inForce id v }

/-- A field restored. -/
def CField.write (v : Nat) (s : State) : CField → State
  | .item id => s.setItem id v
  | .pin b => s.setFlt b { s.flt b with pin := BitVec.ofNat 16 v }
  | .attn b => s.setFlt b { s.flt b with attn := BitVec.ofNat 16 v }
  | .activeSrc r => s.updRidge r fun q => { q with activeSrc := v }
  | .activeId r => s.updRidge r fun q => { q with activeId := v }
  | .decodeId r => s.updRidge r fun q => { q with decodeId := v }
  | .retired r => overN 8 (fun k t => t.updPhase (8 * r + k) fun f => { f with retired := v.testBit k }) s
  | .est k m => s.updPhase k fun f => setPhaseEst f m v
  | .runOfs k => s.updPhase k fun f => { f with runOfs := ofsTaken s k v }
  | .lBase k => s.updPhase k fun f => { f with lBase := v }
  | .portEst p m => s.updPath p fun f => { f with est := f.est.set m v }
  | .vOfs p => s.updPath p fun f => { f with vRunOfs := ofsTaken s (72 + p) v }
  | .iOfs p => s.updPath p fun f => { f with iRunOfs := ofsTaken s (48 + p) v }
  | .ridgeEst r m => s.updRidge r fun f => { f with est := f.est.set m v }

/-- The default a field takes where its cairn gives no value (R338, R424). -/
def CField.default (s : State) : CField → Nat
  | .item id => itemDefault s id
  | .pin b => (pinDefault b).toNat
  | .attn _ => 0xFFFF
  | .activeSrc _ => 1
  | .activeId _ => 0xFFFF0001
  | .runOfs k => twos 16 (64 * (s.otp.chanRec k).ofs)
  | .iOfs p => twos 16 (64 * (s.otp.chanRec (48 + p)).ofs)
  | .vOfs p => twos 16 (64 * (s.otp.chanRec (72 + p)).ofs)
  | _ => 0

def fieldsBytes (s : State) (l : List CField) : List Byte := l.flatMap fun f => leBytes f.width (f.read s)

/-- The fields of a record taken up in order. -/
def fieldsTake (l : List CField) (bs : List Byte) (s : State) : State :=
  match l with
  | [] => s
  | f :: fs => fieldsTake fs (bs.drop f.width) (f.write (rdLe bs 0 f.width) s)

/-- Every field at its default. -/
def fieldsDefault (l : List CField) (s : State) : State :=
  match l with
  | [] => s
  | f :: fs => fieldsDefault fs (f.write (f.default s) s)

def State.cairn (s : State) (n : Nat) : Cairn := s.ret.cairns.getD n {}

def State.updCairn (s : State) (n : Nat) (f : Cairn → Cairn) : State :=
  { s with ret := { s.ret with cairns := s.ret.cairns.modify n f } }

/-- The record a cairn is written with (R424, R425). -/
def cairnRecord (s : State) (n : Nat) : List Byte :=
  if n < 16 then fieldsBytes s (cairnFields n)
  else if n = 16 then s.svc.modeTable
  else if n = 17 then leBytes 2 s.svc.chain.length ++ [0, 0] ++ s.svc.chain
  else if n = 18 then s.svc.patch
  else
    let q := s.ridge (n - 19)
    if q.activeSrc = 0 && q.started && q.bank.base = 0 then q.bank.tblBytes else (s.cairn n).record

/-- R426: a carried item changes. -/
def State.markDirty (s : State) (n : Nat) : State := s.updCairn n fun c => { c with dirty := true }

/-- The cairn that carries a settable item (R424). -/
def cairnOf (id : Nat) : Option Nat :=
  let m := pidItem id
  match pidScope id with
  | 0 =>
    if 0x44 ≤ m && m < 0x4C then none
    else if (0x3C ≤ m && m < 0x3F) || (0x54 ≤ m && m < 0x58) then some 1 else some 0
  | 1 => some (2 + pidInst id)
  | 2 => some (4 + pidInst id)
  | 3 => some (4 + pidInst id / 4)
  | 4 => if rmItems.contains m then some (10 + pidInst id / 8) else some (4 + pidInst id / 8)
  | _ => none

def State.markItem (s : State) (id : Nat) : State :=
  match cairnOf id with
  | some n => s.markDirty n
  | none => s

/-- A cairn is used only if its STATE is 1 and its CRC matches (R429). -/
def Cairn.valid (c : Cairn) : Bool := c.state == 1 && crc32 c.record == c.crc

/-- R429: a cairn that fails its CRC gets STATE 2 and sets CAIRN_BAD. -/
def State.checkCairn (s : State) (n : Nat) : State :=
  let c := s.cairn n
  if c.state = 1 && crc32 c.record != c.crc then (s.updCairn n fun c => { c with state := 2 }).raise .aon 1 else s

/-- R429, R338: some fields of a cairn are taken up: from a valid record, else their defaults. -/
def State.takeFields (s : State) (n : Nat) (l : List CField) (off : Nat) : State :=
  let s := s.checkCairn n
  let c := s.cairn n
  if c.valid then fieldsTake l (c.record.drop off) s else fieldsDefault l s

/-- A whole cairn of fields. -/
def State.takeCairn (s : State) (n : Nat) : State := s.takeFields n (cairnFields n) 0

/-- R427: the write opens: STATE 3, the record taken. -/
def State.cairnBegin (s : State) (n : Nat) : State :=
  { s with ret := { s.ret with writing := some n } }.updCairn n fun c =>
    { c with before := c.state, state := 3, dirty := false, buf := cairnRecord s n }

/-- R427: the write closes. -/
def State.cairnClose (s : State) (n : Nat) : State :=
  { s with ret := { s.ret with writing := none } }.updCairn n fun c =>
    { c with state := 1, record := c.buf, bytes := c.buf.length, crc := crc32 c.buf, written := s.frameCount, writes := c.writes + 1, buf := [] }

/-- The lowest dirty cairn (R426). -/
def State.firstDirty (s : State) : Option Nat := (List.range 25).find? fun n => (s.cairn n).dirty

/-- No cairn is dirty or being written, and no bank copy runs (R428, R430). -/
def State.retClean (s : State) : Bool :=
  s.ret.writing == none && s.firstDirty == none && !(s.ridges.any fun q => q.copying)

/-- R427: a write open when VCORE falls is abandoned. -/
def State.cairnAbandon (s : State) : State :=
  match s.ret.writing with
  | none => s
  | some n =>
    ({ s with ret := { s.ret with writing := none } }.updCairn n fun c => { c with buf := [] }).raise .aon 2

end Sys2Proof.Machine
end

