-- ==== Sys2Proof/Machine/Flags.lean ====
section
/-! DEFINITION. The status words the spec lays out bit by bit, computed from the state: feeds (R232), the
sequencer (R249), ports (R66, R86, R115, R128, R131, R134, R182), phases (R147) and the port block (R148). -/

namespace Sys2Proof.Machine

/-! ### Feeds (R232) -/

def FeedSt.code : FeedSt → Nat
  | .off => 0
  | .qualify => 1
  | .ramp => 2
  | .on => 3
  | .retryWait => 4
  | .latched => 5
  | .holdOff => 6

/-- `FEED[x].STATUS` (R232). -/
def feedStatus (s : State) (x : Nat) : Nat :=
  let f := s.feed x
  f.st.code * 2 ^ 13 + f.lastTrip * 2 ^ 10 + f.trips % 8 * 2 ^ 7 + bitAt 6 f.pg + bitAt 5 f.window + bitAt 4 f.odg +
    bitAt 3 f.revPrev + bitAt 2 f.ilimAct + bitAt 1 (f.holdOv && f.st == .holdOff) + s.written (pid 1 x 0x10) % 2

/-! ### The sequencer (R249) -/

/-- RUN of `SEQ_STATUS`. -/
def State.runCode (s : State) : Nat :=
  match s.seq.mode with
  | .unpowered => 0
  | .retention => 0
  | .seqFailure => 0
  | .integrityHold => 0
  | .sequencing => if s.seq.step = 6 then 2 else 1
  | .running => if 6 ≤ s.seq.milestone then 5 else if s.seq.reduced then 4 else 3
  | .shutdown => 6
  | .shutoff => 6
  | .holdoff => 7
  | .serviceBoot => 8

/-- `DEVICE.SEQ_STATUS` (R249). -/
def seqStatus (s : State) : Nat :=
  s.runCode * 2 ^ 12 + s.seq.step % 8 * 2 ^ 9 + s.seq.retries % 8 * 2 ^ 6 + s.seq.failStep % 8 * 2 ^ 3 +
    bitAt 2 s.seq.lastTso + bitAt 1 s.seq.noFall + bitAt 0 s.seq.feedless

/-- The level of `SEQn` (R238): high from its step on while the sequence stands. -/
def seqPin (s : State) (n : Nat) : Bool :=
  let first := [0, 4, 5, 5].getD n 8
  match s.seq.mode with
  | .sequencing =>
    (n != 3 || s.otp.modes.testBit 2) && (decide (first < s.seq.step) || (s.seq.step == first && (n != 3 || decide (s.seq.sub = 1))))
  | .running => n != 3 || s.otp.modes.testBit 2
  | .shutdown =>
    !s.seq.boot && (n != 3 || s.otp.modes.testBit 2) &&
      (decide (first < s.seq.downStep) || (s.seq.downStep == 5 && n == 2 && decide (s.seq.sub = 1)))
  | _ => false

/-- `FAULT_N` is driven low (R259 to R261). -/
def faultPinLow (s : State) : Bool :=
  s.faultN.hold || s.seq.mode == .seqFailure ||
    (s.faultN.pulse && (if s.faultN.byTicks then decide (s.faultN.pulseAt ≤ s.tick) else decide (s.faultN.pulseAt ≤ s.now)))

/-! ### Ports -/

def CcSt.code : CcSt → Nat
  | .disabled => 0
  | .errorRecovery => 1
  | .unattachedSrc => 2
  | .attachWaitSrc => 3
  | .attachedSrc => 4
  | .unattachedSnk => 5
  | .attachWaitSnk => 6
  | .attachedSnk => 7
  | .outOfService => 8

def CcSt.attached : CcSt → Bool
  | .attachedSrc => true
  | .attachedSnk => true
  | _ => false

def classCode : CcClass → Nat
  | .opn => 0
  | .ra => 1
  | .rd => 2
  | .rp => 3

/-- RP_LEVEL of R66: Default USB in the unattached source states (R56), else the level advertised or seen. -/
def CcLayer.rpLevel (c : CcLayer) : Nat :=
  match c.st with
  | .unattachedSrc => 0
  | .attachWaitSrc => 0
  | .attachedSrc => c.rp
  | .attachWaitSnk => c.rp
  | .attachedSnk => c.rp
  | _ => 3

/-- `PORT[xx].CC_STATUS` (R66). -/
def ccStatus (s : State) (p : Nat) : Nat :=
  let c := s.cc p
  c.st.code * 2 ^ 12 + bitAt 11 (s.vc p).on + bitAt 10 (s.vc p).good + bitAt 9 c.st.attached +
    bitAt 8 (c.st.attached && c.onCc2) + c.rpLevel % 4 * 2 ^ 6 + classCode c.cc2 * 2 ^ 4 + classCode c.cc1 * 2 ^ 2 +
    bitAt 1 c.accessory + bitAt 0 c.passiveRd

/-- The cable is EPR-capable (R84). -/
def Vconn.eprOk (v : Vconn) : Bool := v.disc == 3 && v.iMax == 2 && v.vMax == 3 && v.epr && !v.lost

/-- I_cab in 10 mA (R84). -/
def Vconn.iCab (v : Vconn) : Nat := if v.disc == 3 && v.iMax == 2 && !v.lost then 500 else 300

/-- `PORT[xx].CABLE` (R86). -/
def cableStatus (s : State) (p : Nat) : Nat :=
  let v := s.vc p
  (if v.attempt.isSome then 1 else v.disc) * 2 ^ 14 + bitAt 13 v.lost + bitAt 12 v.eprOk + v.iMax * 2 ^ 10 +
    (if v.disc = 3 then v.vMax % 4 else 0) * 2 ^ 8 + bitAt 7 v.active + min v.attempts 15

/-- `PORT[xx].CONTRACT` (R115). -/
def contractWord (s : State) (p : Nat) : Nat :=
  let c := (s.pd p).contract
  c.kind * 2 ^ 28 + c.pos % 16 * 2 ^ 24 + c.mv / 20 % 4096 * 2 ^ 12 + c.cur % 4096

/-- `PORT[xx].PD_STATUS` (R115). -/
def pdStatus (s : State) (p : Nat) : Nat :=
  let d := s.pd p
  bitAt 15 d.next.isSome + bitAt 14 d.epr + bitAt 13 d.rev20 + bitAt 12 d.mismatch + d.lastEnd % 16 * 2 ^ 8 + min d.hardResets 255

/-- `PORT[xx].SWAP_STATUS` (R128). -/
def swapStatus (s : State) (p : Nat) : Nat :=
  let w := s.sw p
  w.lastKind * 2 ^ 14 + w.lastResult * 2 ^ 12 + bitAt 11 w.prSupp.isSome + bitAt 10 w.drSupp.isSome + bitAt 9 w.vcSupp.isSome +
    bitAt 8 w.source + bitAt 7 w.dfp + bitAt 6 w.vconnSrc + min w.failed 63

/-- `PORT[xx].MODE_STATUS` (R134). -/
def modeStatus (s : State) (p : Nat) : Nat :=
  let d := s.dc p
  (if d.entered then d.modeSvid * 2 ^ 16 + d.modePos % 8 * 2 ^ 13 else 0) + bitAt 12 d.entered + bitAt 11 d.failed +
    bitAt 10 (d.entered && d.byTable)

/-- ROLE of R182. -/
def roleCode (s : State) (p : Nat) : Nat :=
  match (s.cc p).st with
  | .attachedSrc => 0
  | .attachedSnk => 1
  | _ => 2

/-- `PORT[xx].PATH_STATUS` (R182). -/
def pathStatus (s : State) (p : Nat) : Nat :=
  let h := s.path p
  h.lastTrip % 8 * 2 ^ 13 + h.trips % 8 * 2 ^ 10 + bitAt 9 h.latched + bitAt 8 h.ppg + bitAt 7 h.swOn + bitAt 6 h.ilimAct +
    bitAt 5 (h.pmode == 2) + bitAt 4 h.calx + bitAt 3 (s.cc p).disch + bitAt 2 h.vsrc + roleCode s p

/-- The STAT word of a port block (R148). -/
def portStat (h : Path) : Nat :=
  bitAt 15 h.vsrc + bitAt 14 h.swOn + bitAt 13 h.ppg + bitAt 12 h.ilimAct + bitAt 11 h.detach + h.pmode % 4 * 2 ^ 9 + bitAt 8 h.calx

/-- GUARD of R147. -/
def guardCode (f : Phase) : Nat :=
  match f.guard with
  | .free => if f.refused then 3 else 0
  | .drain => 1
  | .count => 1
  | .brk => 2
  | .refused => 3

/-- The STAT word of a phase summary (R147). -/
def phaseStat (f : Phase) : Nat :=
  f.steer % 4 * 2 ^ 14 + guardCode f * 2 ^ 12 + bitAt 11 f.inv + f.gZc % 8 * 2 ^ 8 + f.slot % 16 * 2 ^ 4 + bitAt 3 f.pklim +
    bitAt 2 f.calx + f.mode % 4

/-- A word of the discovery record's SVID groups (R131). -/
def svidBytes (r : SvidRec) : List Byte :=
  leBytes 2 r.svid ++ [byteOf (min r.modes.length 5), 0] ++
    (List.range 5).flatMap fun i => leBytes 4 ((r.modes.getD i 0).toNat)

/-- The discovery record (R131). -/
def discRecord (s : State) (p : Nat) : List Byte :=
  let d := s.dc p
  [byteOf d.status, byteOf (bitAt 7 d.trunc + d.svids.length % 16), byteOf (min d.idVdos.length 6),
    byteOf (bitAt 1 d.v10 + bitAt 0 (d.svids.any fun r => r.svid == s.otp.svid && s.otp.svid != 0))] ++
  ((List.range 6).flatMap fun i => leBytes 4 ((d.idVdos.getD i 0).toNat)) ++ d.svids.flatMap svidBytes

/-! ### Ledger placement (R20, R201, R202) -/

/-- The port a pair leads to (R20): 1 home, 2 neighbour. -/
def pairPort (k pair : Nat) : Option Nat :=
  if pair = 1 then some (4 * (k / 8) + k % 8 / 2)
  else if pair = 2 then some (4 * (k / 8) + (k % 8 / 2 + 1) % 4)
  else none

/-- The port a record places its phase on: STATE 1 or 2. -/
def recPort (k : Nat) (r : PhaseRec) : Option Nat := if r.st = 1 || r.st = 2 then pairPort k r.pair else none

def Ledger.phase (l : Ledger) (k : Nat) : PhaseRec := l.phases.getD k {}
def Ledger.port (l : Ledger) (p : Nat) : PortRec := l.ports.getD p {}

/-- The phases that can reach a port (R20), ascending. -/
def reachable (p : Nat) : List Nat :=
  let r := p / 4
  let q := p % 4
  let b := (q + 3) % 4
  if q = 0 then [8 * r, 8 * r + 1, 8 * r + 6, 8 * r + 7] else [8 * r + 2 * b, 8 * r + 2 * b + 1, 8 * r + 2 * q, 8 * r + 2 * q + 1]

/-- The phases a ledger places on a port. -/
def Ledger.on (l : Ledger) (p : Nat) : List Nat := (reachable p).filter fun k => recPort k (l.phase k) == some p

/-- A phase is placed on the port in the ledger in force. -/
def State.placed (s : State) (p : Nat) : Bool := !(s.ledger.on p).isEmpty

/-- The power a port delivers, in 1/8 W averaged over the last frame, as the Innkeeper counts it: with port power-good (R181). -/
def State.delivered (s : State) (p : Nat) : Int := if (s.path p).ppg then (s.path p).fpAvg else 0

end Sys2Proof.Machine
end

