-- ==== Sys2Proof/Machine/PortOps.lean ====
section
/-! DEFINITION. What the families of a port share: its path, VCONN, Type-C states, contract ends, swaps that fail, modes that end,
Hard Reset, and collision avoidance. -/

namespace Sys2Proof.Machine

def portParam (s : State) (p item : Nat) : Nat := s.inf 3 p item

/-- The part serves the port: it exists, it is in service and the engine clock runs. -/
def State.serves (s : State) (p : Nat) : Bool := decide (p < 24) && (s.port p).inService && s.locked

/-- The policy engines have started and are not held (R82, R113). -/
def State.policyUp (s : State) : Bool := (decide (6 ≤ s.seq.milestone) || s.seq.mode == .serviceBoot) && s.sup.st != .hold

/-- The policy engines' task is suspended at its cap (R50), or has not started in this frame: class 0 effects come first (R47, R49). -/
def State.policyHeld (s : State) : Bool := s.sup.pdCapped || s.sup.schedDue

/-- The policy engines act. -/
def State.policyRuns (s : State) : Bool := s.policyUp && !s.policyHeld

/-- R48, R49, R50: a row of a policy engine. While the task is held the engine of the port keeps what has come to it and goes on there
when the task runs again. -/
def State.policyRow (s : State) (p : Nat) (i : Instr) (go : State → State) : State :=
  if s.serves p && s.policyUp && s.policyHeld then s.updPd p fun d => { d with inbox := d.inbox ++ [i] } else go s

/-- R48, R49: a row of the VDM handling, which belongs to the rest of the schedule and has no cap: it waits only for the schedule. -/
def State.restRow (s : State) (p : Nat) (i : Instr) (go : State → State) : State :=
  if s.serves p && s.policyUp && s.sup.schedDue then s.updPd p fun d => { d with inbox := d.inbox ++ [i] } else go s

def ticksOfFrames (n : Nat) : Nat := n * 500

/-! ### Timing of the port -/

/-- `n` frames of paces have passed since a pace time. -/
def State.pacesSince (s : State) (t n : Nat) : Bool := decide (t + n * 500 ≤ s.now)

/-! ### VCONN (R67 to R70) -/

/-- R70, R128: VCONN is removed: the switch opens, the line is pulled down and the part is VCONN source no longer. -/
def State.vconnOff (s : State) (p : Nat) : State :=
  let s := s.updSw p fun w => { w with vconnSrc := false }
  if (s.vc p).on then
    s.updVc p fun v => { v with on := false, good := false, goodFrom := none, limitFrom := none, pulldown := some s.frame }
  else s

/-- R67, R69: VCONN is applied where the supply is good and no trip has opened it for the attach; which attaches apply it is the
caller's rule (the latch of Ra at an attach and after a Hard Reset, the hand-over of R125). -/
def State.vconnOn (s : State) (p : Nat) : State :=
  if (s.ridge (ridgeOfPort p)).vconnInGood && !(s.vc p).blocked then
    s.updVc p fun v => { v with on := true, good := false, goodFrom := none, limitFrom := none, pulldown := none }
  else s

/-! ### The port path (R175 to R181) -/

/-- The switch opens: power-good drops, the voltage channel goes back to the node (R149, R181). -/
def Path.opened (h : Path) : Path :=
  { h with swOn := false, closing := false, closePaces := 0, fullyOn := 0, ppg := false, ppgFrom := none, timer := 0, timerOff := 0
           ovRun := 0, ilimAct := false }

/-- The switch is commanded closed under the gate regulation (R61, R174, R176). -/
def Path.closed (h : Path) : Path :=
  { h with swOn := true, closing := true, closePaces := 0, fullyOn := 0, ppg := false, timer := 0, timerOff := 0, swThis := true }

/-- The detach discharge is connected (R59, R72); it stays that of a detach until VBUS has fallen (R73). -/
def State.discharge (s : State) (p : Nat) (detach : Bool) : State :=
  s.updCc p fun c => { c with disch := true, dischFrame := s.frame, dischDetach := detach || (c.disch && c.dischDetach), dischTick := s.tick }

/-- Return mode toward 5.0 V while phases are placed (R170). -/
def State.returnNode (s : State) (p kind vtgt : Nat) : State :=
  if s.placed p && (s.path p).pmode != 0 then
    s.updPath p fun h => { h with pmode := 2, retKind := kind, vtgt := vtgt }
  else s

/-! ### Type-C states (R59, R64) -/

/-- The step of R64. -/
def lfsrStep (x : BitVec 15) : BitVec 15 :=
  (x <<< 1) ||| (if x.getLsbD 14 != x.getLsbD 13 then 1 else 0)

/-- A fresh toggle period, which begins at the boundary of `frame`: three steps, then j = s[2:0] (R64). -/
def CcLayer.toggleFresh (c : CcLayer) (frame : Nat) : CcLayer :=
  let x := lfsrStep (lfsrStep (lfsrStep c.lfsr))
  { c with lfsr := x, togglePeriod := 80 + x.toNat % 8, toggleFrame := frame, st := .unattachedSrc }

/-- The debounce and run counters of a state just entered. -/
def CcLayer.entered (c : CcLayer) (st : CcSt) (now : Nat) : CcLayer :=
  { c with
    st := st
    since := now
    debLine := 0
    debFrom := now
    goneFrom := now
    vbusHighFrom := none
    openFrom := none
    openLowRun := 0
    lowRun := 0
    detach := 0
    rpNext := none
    vbusChecked := false }

/-- The frame whose boundary is the next at which a toggle period can begin (R64): this one's at pace 0. -/
def State.periodFrame (s : State) : Nat := if s.atBoundary then s.frame else s.frame + 1

/-- R251, R253: the ports are not served yet: the reduced-service law has not started, and full service has not begun. -/
def State.preService (s : State) : Bool := s.seq.mode != .serviceBoot && !s.seq.reduced && !s.seq.full

/-- R59: the home unattached state; R112: Out of service where conversion was lost; Disabled before service begins (R251) and with
`ATTACH_MODE` 2, which reduced service does not follow. -/
def State.home (s : State) (p : Nat) : State :=
  s.updCc p fun c =>
    let c := { c.entered .unattachedSrc s.now with alloc := false, rp := 3 }
    if c.toOutOfService then { c with st := .outOfService }
    else if s.seq.mode == .serviceBoot && s.seq.bootPort == some p then { c with st := .unattachedSnk }
    else if s.preService then { c with st := .disabled, disabledBy := .bringup }
    else if c.mode = 2 && !s.seq.reduced then { c with st := .disabled, disabledBy := .host }
    else if c.mode = 1 && !s.seq.reduced then c.toggleFresh s.periodFrame
    else c

/-! ### Modes, discovery, tester sessions that end -/

/-- A mode ends (R132, R313): CAUSE 0 MODE_EXIT, 1 detach, 2 Hard Reset, 3 DR_Swap. -/
def State.modeEnd (s : State) (p cause : Nat) : State :=
  if (s.dc p).entered then
    let before := modeStatus s p
    (s.updDc p fun d => { d with entered := false, modeSvid := 0, modePos := 0, exitFrame := none, vdmFrame := none }).pushEvent
      0x12 p (leBytes 4 before ++ [byteOf cause])
  else s

/-- A discovery ends with a status (R130): the attention event and the waiting command. -/
def State.discEnd (s : State) (p status : Nat) : State :=
  if (s.dc p).step.isSome then
    let s := s.updDc p fun d => { d with status := status, step := none, waiting := false, busyFrame := none, startDue := none }
    (s.pushEvent 0x10 p [byteOf status]).finishWait (.discovery p) stOk [byteOf status]
  else s.updDc p fun d => { d with startDue := none }

/-- R138: the tunnel closes; commands in flight lose their replies (R298). CAUSE as R313 gives. -/
def State.sessionEnd (s : State) (cause : Nat) : State :=
  if s.tester.st == .closed then s
  else
    let quiet := s.tester.st == .lockedOut && cause == 1
    let p := s.tester.port
    let s := { s with tester := { delayUntil := s.tester.delayUntil }, tun := s.tun.dropReplies }
    if quiet then s else s.pushEvent 0x21 p [byteOf cause]

def State.sessionEndOn (s : State) (p cause : Nat) : State :=
  if s.tester.st != .closed && s.tester.port == p then s.sessionEnd cause else s

/-- Commands that wait on a port whose attach or contract ends. -/
def State.failWaits (s : State) (p : Nat) : State :=
  let s := s.finishWait (.cable p) stOk (leBytes 2 (cableStatus s p))
  let s := s.finishWait (.drSwap p) stFailed (leBytes 2 (swapStatus s p))
  let s := s.finishWait (.modeEnter p) stFailed [2]
  let s := s.finishWait (.modeExit p) stOk []
  let s := s.finishWait (.authInit p) stOk (byteOf 3 :: List.replicate 35 0)
  if s.svc.initPort == some p then { s with svc := { s.svc with initPort := none } } else s

/-! ### Swaps that end (R121, R128) -/

def swapCode : SwapKind → Nat
  | .pr => 1
  | .dr => 2
  | .vconn => 3

def Swap.suppress (w : Swap) (kd : SwapKind) (frame : Nat) : Swap :=
  match kd with
  | .pr => { w with prSupp := some frame }
  | .dr => { w with drSupp := some frame }
  | .vconn => { w with vcSupp := some frame }

/-- What an ended swap leaves (R128): its kind and result, and the event; `counted` where it failed (R121). -/
def State.swapEnds (s : State) (p result : Nat) (counted : Bool) : State :=
  match (s.sw p).kind with
  | none => s.updSw p fun w => { w with drDue := false }
  | some kd =>
    let s := s.updSw p fun w =>
      let w := if counted then { w.suppress kd s.frame with failed := min 63 (w.failed + 1), prFails := if kd == .pr then w.prFails + 1 else w.prFails } else w
      { w with kind := none, step := 0, drDue := false, lastKind := swapCode kd, lastResult := result }
    let s := s.updCc p fun c => { c with alloc := if kd == .pr then false else c.alloc }
    let s := (if counted then s.countUp p .swapFail else s).pushEvent 0x19 p (leBytes 2 (swapStatus s p))
    s.finishWait (.drSwap p) stFailed (leBytes 2 (swapStatus s p))

/-- R121: the swap in progress fails; RESULT 1 refused, 2 timed out or ErrorRecovery, 3 Hard Reset. -/
def State.swapFail (s : State) (p result : Nat) : State := s.swapEnds p result true

/-- A swap completes (R128). -/
def State.swapDone (s : State) (p : Nat) : State :=
  match (s.sw p).kind with
  | none => s
  | some kd =>
    let s := s.updSw p fun w => { w with kind := none, step := 0, lastKind := swapCode kd, lastResult := 0 }
    let s := s.pushEvent 0x19 p (leBytes 2 (swapStatus s p))
    s.finishWait (.drSwap p) stOk (leBytes 2 (swapStatus s p))

/-- The data role changes (R122). -/
def State.setDfp (s : State) (p : Nat) (b : Bool) : State :=
  if (s.sw p).dfp == b then s
  else
    let s := s.updSw p fun w => { w with dfp := b }
    s.pushEvent 0x18 p (leBytes 2 (swapStatus s p))

/-! ### Contract ends (R108) -/

/-- The return period of a declared step down is over: settled or abandoned (R170). -/
def Path.stepOver (h : Path) : Path :=
  if h.retKind = 1 then { h with pmode := if h.pmode = 2 then 1 else h.pmode, retKind := 0 } else h

/-- The contract is void: EPR mode ends, a transition is abandoned, its code is recorded; event 0x02 where a contract stood or was under
way, or the end is a detach (R313). -/
def State.voidContract (s : State) (p code : Nat) : State :=
  let ends := (s.pd p).contract.kind != 0 || (s.pd p).next.isSome || code == 1 || code == 2
  let s := s.updPd p fun d =>
    { d with
      contract := {}, next := none, nextIn := 0, slewing := false, epr := false, eprCap := false, nextEprCap := false
      lastEnd := code, awaiting := none, softReset := none, low := false, lowered := none, collision := none, clear := false, redo := false, capsDue := false
      firstContract := none, eprExit := 0, eprEnter := none, unmet := 0, rejects := 0, ppsLimit := false, ppsLimitPrev := false
      repeatFrame := none, snkAccept := none, want := none }
  let s := s.updPath p fun h => { h.stepOver with itgt := 0x7FFF }
  if ends then s.pushEvent 0x02 p (leBytes 2 (pdStatus s p)) else s

/-- The partner's certificate chain is held for the attach (R331). -/
def State.forgetPeer (s : State) (p : Nat) : State := s.updPort p fun q => { q with peerChain := [], peerDigest := [] }

/-- The attach is over for the PD layer: discovery, modes, swap, tester and waiting commands. A swap that ends in ErrorRecovery
has failed; one that ends with a detach or in Disabled has not (R119, R121), and reads RESULT 3 (log 65). -/
def State.attachOver (s : State) (p code : Nat) (recovery : Bool) : State :=
  let s := if recovery then s.swapFail p 2 else s.swapEnds p 3 false
  let s := s.modeEnd p 1
  let s := s.discEnd p 5
  let s := s.sessionEndOn p 1
  let s := s.voidContract p code
  let s := s.updPd p fun d => { d with started := false, startDue := none, hrFrame := none, takedown := false, takenDown := none, inbox := [] }
  let s := s.updVc p fun v => { v with attemptsDue := none, attempt := none, forEpr := false, hostTry := false }
  let s := s.updDc p fun d => { d with attempt := none }
  (s.forgetPeer p).failWaits p

/-- The switches open and the discharge is applied (R59). -/
def State.openPort (s : State) (p : Nat) (detach : Bool) : State :=
  (((s.updPath p Path.opened).vconnOff p).discharge p detach)

/-- R59, R108: ErrorRecovery, from any state. -/
def State.errorRecovery (s : State) (p code : Nat) : State :=
  let s := s.attachOver p code true
  let s := s.openPort p false
  let s := s.updCc p fun c => { c.entered .errorRecovery s.now with alloc := false, rp := 3 }
  let s := s.updPort p fun q => { q with attachFrame := none }
  let s := s.returnNode p 2 2500
  s.finishWait (.errorRecovery p) stOk []

/-- R59, R73, R180: Disabled. -/
def State.disablePort (s : State) (p code : Nat) (why : DisabledBy) : State :=
  let s := s.attachOver p code false
  let s := s.openPort p false
  let s := s.updCc p fun c => { c.entered .disabled s.now with alloc := false, rp := 3, disabledBy := why }
  let s := s.updPort p fun q => { q with attachFrame := none }
  s.returnNode p 2 2500

/-- Disabled is left for the home unattached state (R264). -/
def State.enablePort (s : State) (p : Nat) : State :=
  if (s.cc p).st == .disabled then s.home p else s

/-- R112: loss of conversion. -/
def State.loseConversion (s : State) (p : Nat) : State :=
  (s.errorRecovery p 0xA).updCc p fun c => { c with toOutOfService := true }

/-! ### Port path trips (R180) -/

/-- R180: a trip opens the switch, counts, records its source, and sends the port to ErrorRecovery or latches it. -/
def State.portTrip (s : State) (p cause : Nat) : State :=
  let h := s.path p
  let s := (s.raise (.portPath p) (cause - 1)).countUp p .trip
  if h.trips < portParam s p 0x31 then
    let s := s.updPath p fun h => { h with trips := h.trips + 1, lastTrip := cause }
    s.errorRecovery p 9
  else
    let s := s.updPath p fun h => { h with latched := true, lastTrip := cause }
    (s.disablePort p 9 .latched).raise (.portPath p) 5

/-! ### The Rp level before a contract (R62) -/

/-- R62: the level an attached source advertises before a contract exists. -/
def rpOf (s : State) (p : Nat) : Nat :=
  if s.seq.reduced then (if s.otp.rsRp = 0 then 0 else 1)
  else
    let f := (s.ledger.port p).floor
    if 120 ≤ f then 2 else if 60 ≤ f then 1 else 0

/-- The current of an Rp level in 10 mA (R177). -/
def rpCur (l : Nat) : Nat := if l = 0 then 90 else if l = 1 then 150 else if l = 2 then 300 else 0

/-- The Type-C current contract (R115 KIND 1). -/
def typecContract (rp : Nat) : Contract := { kind := 1, pos := 0, mv := 5000, cur := rpCur rp, maxCur := rpCur rp }

def Contract.explicit (c : Contract) : Bool := decide (2 ≤ c.kind)

/-! ### Collision avoidance (R91) -/

/-- Whether a source-started SOP sequence needs the SinkTxNG wait. -/
def Pd.avoids (d : Pd) : Bool := d.contract.explicit && d.contract.kind != 6 && !d.rev20

/-- R91: the wait begins: Rp to SinkTxNG, 1.5 A, from the next pace (R55). -/
def State.waitTx (s : State) (p : Nat) : State :=
  if (s.pd p).avoids && (s.pd p).collision.isNone && !(s.pd p).clear then
    (s.updPd p fun d => { d with collision := some s.frame, redo := false }).updCc p fun c => { c with rpNext := some 1 }
  else s

/-- R91: a sequence of the sink that goes on breaks the wait. -/
def Pd.broken (d : Pd) : Pd := if d.collision.isSome || d.clear then { d with collision := none, clear := false, redo := true } else d

/-- A VDM or a security request of the part awaits its answer (R130, R132, R144, R309). -/
def State.asks (s : State) (p : Nat) : Bool :=
  let d := s.dc p
  d.waiting || d.exitFrame.isSome || d.vdmFrame.isSome || s.svc.initPort == some p ||
    match d.attempt with
    | some t => t.sent
    | none => false

/-- No atomic sequence runs on the port (R90): no transition, no swap, no answer awaited, no EPR entry. -/
def State.quiet (s : State) (p : Nat) : Bool :=
  let d := s.pd p
  d.next.isNone && (s.sw p).kind.isNone && d.awaiting.isNone && d.softReset.isNone && d.hrFrame.isNone && d.eprEnter.isNone && !s.asks p

/-- R91: the wait that a sequence of the sink broke starts again once that sequence is over. -/
def State.rewait (s : State) (p : Nat) : State := if (s.pd p).redo && s.quiet p then s.waitTx p else s

/-- A source-started SOP sequence may start now. -/
def State.mayStart (s : State) (p : Nat) : Bool := s.quiet p && (!(s.pd p).avoids || (s.pd p).clear)

/-- A source-started sequence starts where it may, else its wait begins (R91). -/
def State.startSeq (s : State) (p : Nat) (go : State → State) : State :=
  if s.mayStart p then (go s).updPd p fun d => { d with clear := false, collision := none }
  else if s.quiet p then s.waitTx p else s

/-- The source's sequence ends: Rp returns to SinkTxOK, 3.0 A (R55, R91), but not while the wait before another runs. -/
def State.seqOver (s : State) (p : Nat) : State :=
  if (s.pd p).avoids && (s.cc p).st == .attachedSrc && (s.pd p).collision.isNone then s.updCc p fun c => { c with rpNext := some 2 } else s

/-- A message of the partner has arrived (R104). -/
def State.heard (s : State) (p : Nat) : State := s.updPd p fun d => { d with lastMsg := s.frame }

/-- A message from the sink during the wait restarts it (R91). -/
def State.sinkSpoke (s : State) (p : Nat) : State :=
  s.updPd p fun d =>
    if d.collision.isSome || d.clear then { d with collision := some s.frame, clear := false, lastMsg := s.frame }
    else { d with lastMsg := s.frame }

/-- Messages go out, with the revision of the attach in their headers (R81). -/
def State.send (s : State) (p : Nat) (m : List PdTx) : State := s.updPd p fun d => { d with tx := m, txRev20 := d.rev20 }

/-- A VDM header VDO (R142): [31:16] SVID, [15] structured, [14:11] version 2.1 or 1.0, [10:8] object position, [7:6] command
type (0 request, 1 ACK, 2 NAK, 3 BUSY), [4:0] command. -/
def vdmHeader (v10 : Bool) (svid pos ct cmd : Nat) : Word32 :=
  BitVec.ofNat 32 (svid % 2 ^ 16 * 2 ^ 16 + 2 ^ 15 + (if v10 then 0 else 5 * 2 ^ 11) + pos % 8 * 2 ^ 8 + ct % 4 * 2 ^ 6 + cmd % 32)

def vdmType : VdmAck → Nat
  | .ack => 1
  | .nak => 2
  | .busy => 3

/-- A structured VDM request of the part, and an answer: version 2.1 with partners at Revision 3.x, 1.0 at 2.0 (R130). -/
def vdmAsk (d : Pd) (svid cmd pos : Nat) (vdos : List Word32) : PdTx := .vdm (vdmHeader d.rev20 svid pos 0 cmd) vdos
def vdmReply (d : Pd) (k : VdmAck) (svid cmd pos : Nat) (vdos : List Word32) : PdTx := .vdm (vdmHeader d.rev20 svid pos (vdmType k) cmd) vdos

/-- R69, R85: a trip, a block or a supply loss: off for the rest of the attach, the cable lost for the offer; an
attempt on the cable and an EPR entry that rests on one end without a response (R83, R103). -/
def State.vconnLose (s : State) (p bit : Nat) : State :=
  let s := (s.vconnOff p).raise (.portCc p) bit
  let entering := (s.pd p).eprEnter.isSome
  let s := s.updVc p fun v =>
    { v with blocked := true, lost := true, attempt := none, attemptsDue := none, forEpr := false, hostTry := false, firstEnded := true }
  let s := s.updPd p fun d => { d with cableChanged := true, eprEnter := none }
  let s := if entering then s.send p [.eprMode 4 1] else s
  s.finishWait (.cable p) stOk (leBytes 2 (cableStatus s p))



/-! ### Hard Reset (R110, R127) -/

/-- R127: a swap in progress ends and the port returns to its attach roles; outside a swap the power role stands. The port switch that a
sink opens here stays open for the rest of the attach: R174 closes it at an entry to Attached.SNK from AttachWait, and no rule at the
return of VBUS (DESIGN CHOICE, log 84). -/
def State.resetRoles (s : State) (p : Nat) : State :=
  let w := s.sw p
  if w.kind.isSome then
    let s := s.swapFail p 3
    if w.attSource then
      let s := s.updSw p fun w => { w with source := true }
      let s := s.updCc p fun c => { c with st := .attachedSrc }
      s.setDfp p w.attDfp
    else
      let s := (s.updPath p Path.opened).discharge p false
      let s := s.updSw p fun w => { w with source := false }
      let s := s.updCc p fun c => { c with st := .attachedSnk, rp := 3, lowRun := 0, alloc := false }
      let s := s.updPd p fun d => { d with snkRestore := some s.frame, snkLow := false }
      s.setDfp p w.attDfp
  else
    let src := (s.cc p).st == .attachedSrc
    let s := if src then s else s.updPd p fun d => { d with snkRestore := some s.frame, snkLow := false }
    s.setDfp p src

/-- R108, R110, R127: a Hard Reset sent or received. As source the port waits for its take-down; as sink its policy runs on and
answers the capabilities that follow the partner's return of VBUS. PD starts again by R110 step 5 also where the port had given it up
after nCapsCount (R107 keeps such a port under Type-C current for the rest of the attach; DESIGN CHOICE, log 84). -/
def State.hardReset (s : State) (p code : Nat) (sent : Bool) : State :=
  let s := s.countUp p (if sent then .hrSent else .hrRcvd)
  let run := (s.pd p).hrRun + 1
  let inSwap := (s.sw p).kind.isSome
  let back := if inSwap then (s.sw p).attVconn else (s.cc p).raLatched
  let s := s.modeEnd p 2
  let s := s.discEnd p 5
  let s := s.sessionEndOn p 2
  let s := s.resetRoles p
  let s := s.voidContract p code
  let s := s.failWaits p
  let src := (s.cc p).st == .attachedSrc
  let s := s.updPd p fun d =>
    { d with
      hardResets := min 255 (d.hardResets + 1), hrRun := run, hrFrame := if src then some s.frame else none, takedown := false
      takenDown := none, started := !src && s.policyUp, everSent := false, capsCount := 0, noPd := false, inbox := [] }
  let s := s.send p (if sent then [.hardReset] else [])
  let s := s.updVc p fun v => { v with attemptsDue := none, attempt := none, further := 0, forEpr := false, hostTry := false }
  let s := s.updDc p fun d => { d with attempt := none, exitFrame := none, vdmFrame := none }
  let s := s.vconnOff p
  let s := s.updSw p fun w => { w with vconnBack := back, drExit := false, drDue := false }
  let s := if src then (s.updPath p fun h => { h with vtgt := h.ref }).updCc p fun c => { c with rp := rpOf s p, rpNext := none } else s
  if !inSwap && decide (3 ≤ run) && src then
    ((s.raise (.portCc p) 6).errorRecovery p code)
  else s

end Sys2Proof.Machine
end

