-- ==== Sys2Proof/Machine/Sense.lean ====
section
/-! DEFINITION. The sense fabric (R36, R145 to R153, R435, R467): what one pace of raw codes becomes. -/

namespace Sys2Proof.Machine

/-- Margin mode runs (R343). -/
def State.marginOn (s : State) : Bool := s.otp.modes.testBit 0 && decide (s.inf 0 0 0x3F = 1)

/-- Live-service mode runs (R343). -/
def State.liveOn (s : State) : Bool := s.otp.modes.testBit 1 && decide (s.inf 0 0 0x40 = 1)

/-- The channel's offset in 1/64 codes above Z_nom (R151): the running offset in margin mode, clamped to ±64 codes of the
calibration offset (R435). -/
def offset64 (s : State) (c : Nat) (run : Option Int) : Int :=
  let ofs := 64 * (s.otp.chanRec c).ofs
  if s.marginOn && decide (3 ≤ s.seq.milestone) then max (ofs - 4096) (min (ofs + 4096) (run.getD ofs)) else ofs

/-- The value of `n` codes that sum to `sum` on channel `c` (R151). -/
def chanValue (s : State) (c : Nat) (run : Option Int) (sum n : Nat) : Int :=
  calScale (s.otp.chanRec c) (64 * (sum : Int) - n * (64 * zNom c + offset64 s c run)) (64 * n)

/-- A code at either end of the 12-bit converter (R467, R264 SAT). -/
def saturated (code : Nat) : Bool := code == 0 || decide (4095 ≤ code)

def listMax (l : List Nat) : Nat := l.foldl max 0
def listMin : List Nat → Nat
  | [] => 0
  | a :: l => l.foldl min a

/-- The value of largest magnitude. -/
def largest (a b : Int) : Int := if a.natAbs < b.natAbs then b else a

/-- R153: a current limit in 10 mA, widened while CAL_EXTRAPOLATED is set. -/
def widened (s : State) (calx : Bool) (base : Nat) : Nat := if calx then roundDivNat (base * (100 + s.inf 0 0 0x36)) 100 else base

/-- R153, R157, R164, R251: the level of a phase's comparators in mA: 2 A in pre-bias, else IPK (10 A in reduced service), widened,
within 30 A. -/
def ipk (s : State) (k : Nat) : Nat :=
  let f := s.phase k
  if f.guard == .brk then 2000
  else 10 * min 3000 (widened s f.calx (if s.seq.reduced then 1000 else s.inf 4 k 0x04))

/-- R157: a comparator of the phase acts at a current in mA. -/
def overPeak (s : State) (k : Nat) (ma : Int) : Bool := decide ((ipk s k : Int) ≤ ma.natAbs)

/-- The raw code of 0.70 V on `IMON_xx` (R23): the zero code stands for 0.90 V, and a code is 16 mA of 22.89 mV/A (R467). -/
def absentCode : Nat := 1502

/-- R147, R152: a phase's summary of one pace. -/
def phasePace (s : State) (k : Nat) (m : PhaseSense) (f : Phase) : Phase :=
  let n := m.codes.length
  let bad := n != 25 || m.codes.any saturated
  let sum := m.codes.sum
  let avg := if n = 0 then f.avg else chanValue s k f.runOfs sum n
  let peak := if n = 0 then f.peak else chanValue s k f.runOfs (listMax m.codes) 1
  let valley := if n = 0 then f.valley else chanValue s k f.runOfs (listMin m.codes) 1
  let mag := max avg.natAbs (max peak.natAbs valley.natAbs)
  let cx := f.calx || !(s.otp.chanRec k).covers k mag
  let idle := (f.pwmOff || decide (f.loaded < 82)) && f.steer == 0
  let pk := f.pkNow || overPeak s k m.hi || overPeak s k m.lo
  { f with
    avg := avg
    peak := peak
    valley := valley
    inv := bad
    invRun := if bad then f.invRun + 1 else 0
    pklim := pk
    pkNow := false
    rampPrev := f.ramp
    upPrev := f.up
    pklimRun := if pk then f.pklimRun + 1 else 0
    readsLow := if n = 0 then f.readsLow else decide (sum < absentCode * n)
    calx := cx
    calxMax := if cx then max f.calxMax mag else 0
    iSum := f.iSum + avg
    ofsSum := if idle then f.ofsSum + ((sum : Int) - n * zNom k) else f.ofsSum
    ofsN := if idle then f.ofsN + n else f.ofsN }

/-! ### I_LIM (R177, R153) -/

/-- The base current of a contract in 10 mA: the request's maximum for fixed contracts, the operating current for PPS and sink
contracts, PDP over the voltage for AVS. -/
def contractBase (c : Contract) : Nat :=
  if c.kind = 5 then roundDivNat (c.pdp * 100000) (max 1 c.mv) else if c.kind = 2 || c.kind = 4 then c.maxCur else c.cur

/-- I_base of the port's present state in 10 mA; no state of R177 gives 0. -/
def iBase (s : State) (p : Nat) : Nat :=
  let d := s.pd p
  let now := contractBase d.contract
  match d.next with
  | some c => max now (contractBase c)
  | none => now

/-- `PORT[xx].I_LIM` in 10 mA. -/
def iLim (s : State) (p : Nat) : Nat :=
  let margin := if s.seq.reduced then 50 else portParam s p 0x2D
  let base := roundDivNat (iBase s p * (100 + margin)) 100 + 25
  min 750 (widened s (s.path p).calx base)

/-- The fast-trip level in 10 mA (R178). -/
def fastTrip (s : State) (p : Nat) : Nat := min (2 * iLim s p) 1500

/-- R176: the regulation acts at a switch current in mA: at I_LIM or above, out of the port node as source and into it as sink. -/
def limitActs (s : State) (p : Nat) (ma : Int) : Bool :=
  (s.path p).swOn && decide ((10 * iLim s p : Nat) ≤ if (s.cc p).st == .attachedSnk then -ma else ma)

/-- R175: the switch is fully on: gate-source at least 7.5 V and a drop below 100 mV. -/
def switchFullyOn (m : PortSense) : Bool := decide (7500 ≤ m.gate) && decide (m.drop < 100)

/-- 11 V_CEIL / 10 of R156 as ten times the ceiling in 2 mV: 1.10 × max(VTGT, contract) + 0.5 V. -/
def vCeil10 (s : State) (p : Nat) : Nat := 11 * max (s.path p).vtgt ((s.pd p).contract.mv / 2) + 2500

/-- R178: the overvoltage test applies in forward mode and under Type-C current, and not in the sink role. -/
def ovTested (s : State) (p : Nat) : Bool :=
  (s.cc p).st != .attachedSnk && ((s.path p).pmode == 1 || (s.pd p).contract.kind == 1 && (s.path p).pmode == 0)

/-- R148, R152, R175, R178: a port's summary of one pace and the timers of its path. -/
def pathPace (s : State) (p : Nat) (m : PortSense) (h : Path) : Path :=
  let nv := m.vCodes.length
  let ni := m.iCodes.length
  let vAvg := if nv = 0 then h.vAvg else (chanValue s (72 + p) h.vRunOfs m.vCodes.sum nv).toNat
  let vMin := if nv = 0 then h.vMin else (chanValue s (72 + p) h.vRunOfs (listMin m.vCodes) 1).toNat
  let vMax := if nv = 0 then h.vMax else (chanValue s (72 + p) h.vRunOfs (listMax m.vCodes) 1).toNat
  let iAvg := if ni = 0 then h.iAvg else chanValue s (48 + p) h.iRunOfs m.iCodes.sum ni
  let iHi := if ni = 0 then h.iPeak else chanValue s (48 + p) h.iRunOfs (listMax m.iCodes) 1
  let iLo := if ni = 0 then h.iPeak else chanValue s (48 + p) h.iRunOfs (listMin m.iCodes) 1
  let iPeak := largest iHi iLo
  let magI := max iAvg.natAbs iPeak.natAbs
  let cx := h.calx || !(s.otp.chanRec (48 + p)).covers (48 + p) magI || !(s.otp.chanRec (72 + p)).covers (72 + p) vMax
  let quiet := !h.swOn && !s.placed p
  let lim := limitActs s p m.swMa
  { h with
    vsrc := !h.swThis
    swThis := h.swOn
    vAvg := vAvg
    vMin := vMin
    vMax := vMax
    iAvg := iAvg
    iPeak := iPeak
    calx := cx
    calxI := if cx then max h.calxI magI else 0
    calxV := if cx then max h.calxV vMax else 0
    ilimAct := lim
    timer := if lim then h.timer + 1 else h.timer
    timerOff := if lim then 0 else h.timerOff + 1
    closePaces := if h.closing then h.closePaces + 1 else 0
    fullyOn := if h.closing && switchFullyOn m then h.fullyOn + 1 else 0
    ovRun := if ovTested s p && decide (vCeil10 s p < 10 * vMax) then h.ovRun + 1 else 0
    n := h.n + 1
    vSum := h.vSum + vAvg
    vLo := if h.n = 0 then vMin else min h.vLo vMin
    vHi := max h.vHi vMax
    iSum := h.iSum + iAvg
    iExt := if h.n = 0 then iPeak else largest h.iExt iPeak
    pSum := h.pSum + vAvg * iAvg
    vOfsSum := if quiet then h.vOfsSum + ((m.vCodes.sum : Int) - nv * zNom (72 + p)) else h.vOfsSum
    iOfsSum := if quiet then h.iOfsSum + ((m.iCodes.sum : Int) - ni * zNom (48 + p)) else h.iOfsSum
    ofsN := if quiet then h.ofsN + ni else h.ofsN }

/-- R435: a measured frame moves a running offset 1/64 of the way toward the mean zero code; one never measured starts from the calibration
offset `ofs` in 1/64 codes. -/
def runStep (run : Option Int) (ofs sum : Int) (n : Nat) : Option Int :=
  let x := run.getD ofs
  some (sat16 (x + roundDiv (roundDiv (64 * sum) n - x) 64))

/-- Frame values of a phase (R337, R435). -/
def phaseFrame (margin : Bool) (ofs : Int) (n : Nat) (f : Phase) : Phase :=
  { f with
    iAvg := if n = 0 then f.iAvg else roundDiv f.iSum n
    iSum := 0
    runOfs := if margin && f.ofsN != 0 then runStep f.runOfs ofs f.ofsSum f.ofsN else f.runOfs
    ofsSum := 0
    ofsN := 0 }

/-- Frame values of a port (R337, R435): power in 1/8 W from 2 mV × 1 mA sums. -/
def pathFrame (margin : Bool) (vOfs iOfs : Int) (h : Path) : Path :=
  let p8 := if h.n = 0 then h.fpAvg else roundDiv (h.pSum * 8) (500000 * h.n)
  { h with
    fvAvg := if h.n = 0 then h.fvAvg else roundDivNat h.vSum h.n
    fvMin := if h.n = 0 then h.fvMin else h.vLo
    fvMax := if h.n = 0 then h.fvMax else h.vHi
    fiAvg := if h.n = 0 then h.fiAvg else roundDiv h.iSum h.n
    fiPeak := if h.n = 0 then h.fiPeak else h.iExt
    fpAvg := p8
    eOut8 := h.eOut8 + p8.toNat
    n := 0
    vSum := 0
    vLo := 0
    vHi := 0
    iSum := 0
    iExt := 0
    pSum := 0
    vRunOfs := if margin && h.ofsN != 0 then runStep h.vRunOfs vOfs h.vOfsSum h.ofsN else h.vRunOfs
    iRunOfs := if margin && h.ofsN != 0 then runStep h.iRunOfs iOfs h.iOfsSum h.ofsN else h.iRunOfs
    vOfsSum := 0
    iOfsSum := 0
    ofsN := 0 }

/-! ### The reverse limit (R171, R178) -/

/-- The reverse limit of the port switch in mA (R171, R178): REV_I_STEP in return mode as source, else REV_I. -/
def revLimit (s : State) (p : Nat) : Nat :=
  if (s.path p).pmode = 2 && (s.cc p).st != .attachedSnk then 10 * portParam s p 0x30 else portParam s p 0x2F

end Sys2Proof.Machine
end

