-- ==== Sys2Proof/Machine/Calibrate.lean ====
section
/-! DEFINITION. Calibration while the part runs (R322, R418, R442): points staged, the paces that a capture and a `PORT_RECAL` average. -/

namespace Sys2Proof.Machine

/-- The nearest whole number to a quotient; a tie goes either way (log 3). -/
def nearest (n : Int) (d : Nat) : Int :=
  let q := n / (d : Int)
  let r := n % (d : Int)
  if 2 * r < d then q else if 2 * r = d then roundDiv n d else q + 1

/-- A staged field of a channel. -/
def stagedOf (o : Otp) (ch : Nat) (gain : Bool) : Option (Int × Nat) := (o.staged.find? fun x => x.1 == ch && x.2.1 == gain).map fun x => x.2.2

/-- OFS of the channel: staged, or of its current record. -/
def offsetNow (o : Otp) (ch : Nat) : Int :=
  match stagedOf o ch false with
  | some (v, _) => v
  | none => (o.currentRec ch).ofs

/-- A counted pace of PORT_RECAL (R442): the port meets the offset condition of R322. -/
def offsetOk (s : State) (p : Nat) : Bool := !(s.path p).swOn && !s.placed p && !(s.cc p).st.attached

/-- A calibration point staged, within the range of its field (R322, R418). -/
def stagePoint (s : State) (c : Nat) (gain : Bool) (v : Int) (l : Nat) : State :=
  let w : Int := if gain then max (-1024) (min 1023 v) else max (-128) (min 127 v)
  { s with otp := { s.otp with staged := (s.otp.staged.filter fun x => !(x.1 == c && x.2.1 == gain)) ++ [(c, gain, w, l)] } }

/-- The codes of a channel in a pace. -/
def chanCodes (m : PaceSense) (ch : Nat) : List Nat :=
  if ch < 48 then (m.phases.getD ch {}).codes else if ch < 72 then (m.ports.getD (ch - 48) {}).iCodes else (m.ports.getD (ch - 72) {}).vCodes

/-- A capture after a pace that delivered codes of its channel. -/
def CalCapture.take (x : CalCapture) (codes : List Nat) : CalCapture :=
  if codes.isEmpty then x else { x with paces := x.paces + 1, sum := x.sum + codes.sum, codes := x.codes + codes.length }

/-- R322, R418: 500 paces have been averaged: the point is staged and the mean code returned, or the gain point lies too near the offset. -/
def captureDone (s : State) (x : CalCapture) : State :=
  let mean := roundDivNat x.sum (max 1 x.codes)
  let w : WaitFor := .calCapture x.chan x.gain
  let d : Int := (mean : Int) - zNom x.chan - offsetNow s.otp x.chan
  if !x.gain then (stagePoint s x.chan false ((mean : Int) - zNom x.chan) 0).finishWait w stOk (leBytes 2 mean ++ [0])
  else if d.natAbs ≤ 256 then s.finishWait w stFailed [1]
  else
    let num : Int := if d < 0 then -(8192 * x.truth - 65536 * d) else 8192 * x.truth - 65536 * d
    (stagePoint s x.chan true (nearest num (8 * d.natAbs)) (min 31 (x.truth.natAbs / lStep x.chan))).finishWait w stOk (leBytes 2 mean ++ [1])

/-- The captures under way in a pace. -/
def capturePaces (m : PaceSense) (s : State) : State :=
  let l := s.captures.map fun x => x.take (chanCodes m x.chan)
  (l.filter fun x => decide (500 ≤ x.paces)).foldl captureDone { s with captures := l.filter fun x => decide (x.paces < 500) }

/-- R442: 10 frames of paces have been counted; the offsets are their mean codes. -/
def recalDone (s : State) (p : Nat) : State :=
  let h := s.path p
  let v := roundDivNat h.recalV (max 1 h.recalVn)
  let i := roundDivNat h.recalI (max 1 h.recalIn)
  let s := stagePoint (stagePoint s (72 + p) false ((v : Int) - 64) 0) (48 + p) false ((i : Int) - 2048) 0
  let s := if s.marginOn then
    (s.updPath p fun h => { h with vRunOfs := some (64 * ((v : Int) - 64)), iRunOfs := some (64 * ((i : Int) - 2048)) }).markDirty (10 + ridgeOfPort p)
    else s
  s.finishWait (.recal p) stOk (leBytes 2 v ++ leBytes 2 i)

/-- R442: the count of a `PORT_RECAL` begins. `v` and `i` are the codes that the two channels have given in the pace of its execution,
which is then the first that counts; with none it begins with the next pace (DESIGN CHOICE, log 41). -/
def recalBegun (v i : List Nat) (h : Path) : Path :=
  { h with
    recalPaces := if v.isEmpty && i.isEmpty then 5000 else 4999
    recalV := v.sum, recalVn := v.length, recalI := i.sum, recalIn := i.length }

/-- R442: a pace counts while the port meets the offset condition of R322. -/
def recalPace (m : PaceSense) (p : Nat) (s : State) : State :=
  let h := s.path p
  if h.recalPaces != 0 && offsetOk s p then
    let v := chanCodes m (72 + p)
    let i := chanCodes m (48 + p)
    let s := s.updPath p fun h =>
      { h with
        recalPaces := h.recalPaces - 1, recalV := h.recalV + v.sum, recalVn := h.recalVn + v.length
        recalI := h.recalI + i.sum, recalIn := h.recalIn + i.length }
    if h.recalPaces = 1 then recalDone s p else s
  else s

end Sys2Proof.Machine
end

