-- ==== Sys2Proof/Machine/TypeC.lean ====
section
/-! DEFINITION. Type-C attach, orientation, VCONN and detach (R52 to R79): what a pace shows a port, and the events of its CC layer. -/

namespace Sys2Proof.Machine

/-! ### One pace of the CC layer -/

/-- The line that holds its termination, and since when, after a pace (R59: the same line in every pace). -/
def debounceStep (want : CcClass) (a b : Option CcClass) (now : Nat) (c : CcLayer) : CcLayer :=
  let h1 := a == some want
  let h2 := b == some want
  if (c.debLine == 1 && h1) || (c.debLine == 2 && h2) then { c with goneFrom := now }
  else if h1 then { c with debLine := 1, debFrom := now - 1, goneFrom := now, vbusHighFrom := none }
  else if h2 then { c with debLine := 2, debFrom := now - 1, goneFrom := now, vbusHighFrom := none }
  else { c with debLine := 0, vbusHighFrom := none }

/-- The debounce of `n` frames is complete. -/
def CcLayer.debounced (c : CcLayer) (now n : Nat) : Bool := c.debLine != 0 && decide (c.debFrom + n * 500 ≤ now)

/-! ### What a line presents, and what its comparators make of it (R52 to R54, R56) -/

/-- A termination that a line presents (R52); the 2 kΩ pull-down is that of R70. -/
inductive LineTerm where
  | rp (level : Nat) | rdActive | rdPassive | rdBoth | vconn | pulldown | opn
deriving DecidableEq, Repr, Inhabited

/-- R52, R56, R67, R70, R74, R75, R79: what CC1 (or CC2, `two`) of a port presents. -/
def State.line (s : State) (p : Nat) (two : Bool) : LineTerm :=
  let c := s.cc p
  let passive : LineTerm := if c.passiveRd then (if c.activeRd then .rdBoth else .rdPassive) else .opn
  let other := two != c.onCc2
  if !s.locked then passive
  else if other && c.st.attached && (s.vc p).on then .vconn
  else if other && (s.vc p).pulldown.isSome then .pulldown
  else match c.st with
    | .disabled => passive
    | .errorRecovery => .opn
    | .outOfService => passive
    | .unattachedSrc => .rp 0
    | .attachWaitSrc => .rp 0
    | .attachedSrc => .rp c.rp
    | .unattachedSnk => .rdActive
    | .attachWaitSnk => .rdActive
    | .attachedSnk => .rdActive

/-- R53: the lowest and the highest level in mV of the Rd band at an Rp level: Ra below it, open above it. -/
def rdBand (rp : Nat) : Nat × Nat := if rp = 2 then (800, 2600) else if rp = 1 then (400, 1600) else (200, 1600)

/-- R53: the class of a level in a source role. -/
def sourceClass (rp mv : Nat) : CcClass := if mv < (rdBand rp).1 then .ra else if mv ≤ (rdBand rp).2 then .rd else .opn

/-- R53: the class of a level in a sink role. -/
def sinkClass (mv : Nat) : CcClass := if 200 < mv then .rp else .opn

/-- R53: the level of a source's Rp: 0 Default USB, 1 1.5 A, 2 3.0 A, 3 none. -/
def sinkLevel (mv : Nat) : Nat := if mv ≤ 200 then 3 else if mv ≤ 660 then 0 else if mv ≤ 1230 then 1 else 2

/-- R53: the thresholds follow the Rp level that the port presents; a port that presents no Rp reads as in a sink role (log 66). -/
def CcLayer.classOf (c : CcLayer) (mv : Nat) : CcClass :=
  match c.st with
  | .unattachedSrc => sourceClass 0 mv
  | .attachWaitSrc => sourceClass 0 mv
  | .attachedSrc => sourceClass c.rp mv
  | _ => sinkClass mv

/-- R54: what every comparator sample of a pace shows, where they agree. -/
def heldBy {α : Type} [DecidableEq α] (read : Nat → α) (samples : List Nat) : Option α :=
  match samples.map read with
  | [] => none
  | k :: ks => if ks.all (· == k) then some k else none

/-- R54: the class that a line holds in a pace. -/
def CcLayer.held (c : CcLayer) (samples : List Nat) : Option CcClass := heldBy c.classOf samples

/-- The samples of the attached line in the pace. -/
def attachedSeen (c : CcLayer) (m : PortSense) : List Nat := if c.onCc2 then m.cc2 else m.cc1

/-- R54, R55, R59, R71, R73: what a pace with line levels `m` and VBUS at `vbus` mV, delivered at `now`, does to the CC layer; the
level asked for in the pace before takes effect after it. A PD-owned transition (`owned`) is no pace of the VBUS rule of R59. -/
def ccPace (now detachI vbus : Nat) (owned : Bool) (m : PortSense) (iAvg : Int) (c : CcLayer) : CcLayer :=
  let k1 := c.held m.cc1
  let k2 := c.held m.cc2
  let k := c.held (attachedSeen c m)
  let c := { c with vbusMv := m.vbusMv, dischDetach := c.dischDetach && decide (800 ≤ m.vbusMv) }
  let c := match c.st with
    | .unattachedSrc => c
    | .unattachedSnk => c
    | _ => { c with cc1 := k1.getD c.cc1, cc2 := k2.getD c.cc2 }
  let isOpen := k == some .opn && !m.bmcTx
  let c := match c.st with
    | .attachWaitSrc =>
      let c := debounceStep .rd k1 k2 now c
      if c.debounced now 150 && decide (800 ≤ vbus) then { c with vbusHighFrom := some (c.vbusHighFrom.getD now) }
      else { c with vbusHighFrom := none }
    | .attachWaitSnk =>
      let c := debounceStep .rp k1 k2 now c
      { c with rp := (heldBy sinkLevel (if c.debLine = 2 then m.cc2 else m.cc1)).getD c.rp }
    | .attachedSrc =>
      { c with
        openFrom := if isOpen then some (c.openFrom.getD (now - 1)) else none
        openLowRun := if isOpen && decide (iAvg < (detachI : Int)) then c.openLowRun + 1 else 0 }
    | .attachedSnk =>
      { c with
        rp := (heldBy sinkLevel (attachedSeen c m)).getD c.rp
        openFrom := if isOpen then some (c.openFrom.getD (now - 1)) else none
        lowRun := if owned then 0 else if vbus < 3670 then c.lowRun + 1 else 0 }
    | _ => c
  { c with rp := c.rpNext.getD c.rp, rpNext := none }

/-- R75, R77: with the CC layer powered a port keeps its passive Rd only for a takeover: in service boot, or where exactly one line
shows the Rp of the source that the attach sniff found. -/
def CcLayer.passivePace (boot : Bool) (c : CcLayer) : CcLayer :=
  if c.passiveRd && !c.activeRd && !boot && (c.cc1 == .rp) == (c.cc2 == .rp) then { c with passiveRd := false } else c

/-- R68, R70: what a pace does to the VCONN switch's timers. -/
def vconnPace (now : Nat) (m : PortSense) (v : Vconn) : Vconn :=
  { v with
    mv := m.vconnMv
    goodFrom := if v.on && decide (4500 ≤ m.vconnMv) then some (v.goodFrom.getD (now - 1)) else none
    limitFrom := if v.on && m.vconnLimit then some (v.limitFrom.getD (now - 1)) else none }

/-- R149: VBUS of a port in mV: from the converter where the last pace converted it, else from the comparators. -/
def State.vbus (s : State) (p : Nat) : Nat := if (s.path p).vsrc then (s.cc p).vbusMv else 2 * (s.path p).vAvg

/-! ### Sniffs and the toggle (R63, R64) -/

def countSeen (l : List (Option CcClass)) (k : CcClass) : Nat := (l.filter fun x => x == some k).length

/-- R63: the class a sniff of 8 paces sees on a line. -/
def sniffClass (l : List (Option CcClass)) (before : CcClass) : CcClass :=
  match [CcClass.opn, .ra, .rd, .rp].filter (fun k => decide (4 ≤ countSeen l k)) with
  | [] => before
  | [k] => k
  | k :: _ => match l.getLast? with
    | some (some j) => if 4 ≤ countSeen l j then j else k
    | _ => k

/-- AttachWait is entered from a sniff. -/
def CcLayer.toWait (c : CcLayer) (st : CcSt) (line now : Nat) : CcLayer :=
  { c.entered st now with debLine := line, debFrom := now + 1, goneFrom := now + 1, unexpSet := false, alloc := st == .attachWaitSrc }

/-- R59, R63: a sniff, at its last pace 107 of a frame whose count is a multiple of 4. For the first sniff after a port has come back to an
unattached state, the rule names no previous sniff: the class of the state's last pace stands as such (DESIGN CHOICE, log 84). -/
def ccSniff (p : Nat) (seen : List (List Nat × List Nat)) (s : State) : State :=
  let c := s.cc p
  if s.serves p && (c.st == .unattachedSrc || c.st == .unattachedSnk) && decide (s.frameCount % 4 = 0) && s.pace == 107 && seen.length == 8 then
    let a := sniffClass (seen.map fun x => c.held x.1) c.cc1
    let b := sniffClass (seen.map fun x => c.held x.2) c.cc2
    let c := { c with cc1 := a, cc2 := b }
    let c :=
      if c.st == .unattachedSrc then
        if a == .rd && (b == .opn || b == .ra) then c.toWait .attachWaitSrc 1 s.now
        else if b == .rd && (a == .opn || a == .ra) then c.toWait .attachWaitSrc 2 s.now
        else if (a == .rd && b == .rd) || (a == .ra && b == .ra) then { c with accessory := true } else c
      else if a == .rp && b != .rp then c.toWait .attachWaitSnk 1 s.now
      else if b == .rp && a != .rp then c.toWait .attachWaitSnk 2 s.now
      else c
    s.updCc p fun _ => c
  else s

/-- The port toggles (R57, R64). -/
def toggles (s : State) (p : Nat) : Bool := s.serves p && (s.cc p).mode == 1 && !s.seq.reduced && s.atBoundary && s.seq.mode != .serviceBoot

/-- R64: the source part of the period ends after 28 frames. -/
def toggleSourceEnd (p : Nat) (s : State) : State :=
  let c := s.cc p
  if toggles s p && c.st == .unattachedSrc && s.framesSince c.toggleFrame 28 then
    s.updCc p fun c => c.entered .unattachedSnk s.now
  else s

/-- R64: the period ends; a new one is drawn. -/
def toggleSinkEnd (p : Nat) (s : State) : State :=
  let c := s.cc p
  if toggles s p && c.st == .unattachedSnk && s.framesSince c.toggleFrame c.togglePeriod then
    s.updCc p fun c => (c.entered .unattachedSrc s.now).toggleFresh s.frame
  else s

/-! ### Attach (R59, R61, R65, R116) -/

/-- Everything that clears at a new attach (R66, R86, R115, R128, R131). -/
def freshAttach (s : State) (p : Nat) : State :=
  (s.updPort p fun q =>
    { q with
      vc := { mv := q.vc.mv, pulldown := q.vc.pulldown }
      pd := { derived := q.pd.derived, derivedP := q.pd.derivedP }
      sw := {}
      dc := {}
      attachFrame := some s.frame
      peerChain := []
      peerDigest := [] }).updPath p fun h => { h with vtgt := 2500, itgt := 0x7FFF, detach := false }

/-- PD starts on a port that entered Attached.SRC in this frame (R82, R83). -/
def startPd (s : State) (p : Nat) : State :=
  let s := s.updPd p fun d => { d with started := true, startDue := some s.frame }
  s.updVc p fun v => { v with attemptsDue := if v.on && v.good then some (s.frame + 1) else none, attempts := 0, firstEnded := false, further := 0 }

/-- Entry to Attached.SRC with orientation latched (R65) and VCONN applied by R67. An allocation that still waits for a steering change
stands until a ledger places the port (R112, R196). -/
def attachSource (s : State) (p : Nat) : State :=
  let c := s.cc p
  let waits := c.alloc && !s.placed p
  let ra := if c.debLine = 2 then c.cc1 == .ra else c.cc2 == .ra
  let s := freshAttach s p
  let level := rpOf s p
  let s := s.updCc p fun c =>
    { c.entered .attachedSrc s.now with onCc2 := c.debLine == 2, raLatched := ra, rp := level, alloc := waits }
  let s := if ra then s.vconnOn p else s
  let von := (s.vc p).on
  let s := s.updSw p fun w =>
    { w with source := true, dfp := true, vconnSrc := von, attSource := true, attDfp := true, attVconn := von }
  let s := s.updPd p fun d => { d with contract := typecContract level }
  let s := if s.policyUp then startPd s p else s
  (s.countUp p .attach).pushEvent 0x01 p (leBytes 2 (ccStatus s p))

/-- R59, R65: the debounce to Attached.SRC. -/
def attachDebounceSrc (p : Nat) (s : State) : State :=
  let c := s.cc p
  if s.serves p && c.st == .attachWaitSrc && c.debounced s.now 150 && decide (c.vbusMv < 800) then
    if c.cc1 == .rd && c.cc2 == .rd then s.updCc p fun c => { c with accessory := true }
    else attachSource s p
  else s

/-- The debounce of the sink role: 15 frames for the booting port of service boot (R79). -/
def snkDebounce (s : State) (p : Nat) : Nat := if s.seq.mode == .serviceBoot && s.seq.bootPort == some p then 15 else 150

/-- R59, R174: the debounce to Attached.SNK. -/
def attachDebounceSnk (p : Nat) (s : State) : State :=
  let c := s.cc p
  if s.serves p && c.st == .attachWaitSnk && c.debounced s.now (snkDebounce s p) && decide (4000 ≤ c.vbusMv) then
    let s := freshAttach s p
    let s := s.updCc p fun c => { c.entered .attachedSnk s.now with onCc2 := c.debLine == 2, raLatched := false, rp := c.rp }
    let s := s.updPd p fun d => { d with started := s.policyUp }
    let s := if s.seq.mode == .serviceBoot then s else s.updPath p Path.closed
    (s.countUp p .attach).pushEvent 0x01 p (leBytes 2 (ccStatus s p))
  else s

/-- R59: 15 frames with no Rd or Rp on either line. -/
def attachwaitTimeout (p : Nat) (s : State) : State :=
  let c := s.cc p
  if s.serves p && (c.st == .attachWaitSrc || c.st == .attachWaitSnk) && c.debLine == 0 && s.pacesSince c.goneFrom 15 then s.home p else s

/-- R59: VBUS has stood high for 650 frames since the debounce completed. -/
def unexpectedVbus (p : Nat) (s : State) : State :=
  let c := s.cc p
  match c.vbusHighFrom with
  | some t =>
    if s.serves p && c.st == .attachWaitSrc && !c.unexpSet && s.pacesSince t 650 then
      (s.updCc p fun c => { c with unexpSet := true }).raise (.portCc p) 0
    else s
  | none => s

/-- Within 4.75 V to 5.50 V, in 2 mV. -/
def vsafe5 (v : Nat) : Bool := decide (2375 ≤ v) && decide (v ≤ 2750)

/-- R61: the port switch begins to close. -/
def portSwitchClose (p : Nat) (s : State) : State :=
  let h := s.path p
  let v := s.vc p
  if s.serves p && (s.cc p).st == .attachedSrc && (s.cc p).detach == 0 && !h.swOn && (s.pd p).hrFrame.isNone && vsafe5 h.vAvg && (!v.on || v.good) then
    s.updPath p Path.closed
  else s

/-- R59: VBUS 20 frames after the entry to Attached.SRC. -/
def vbusStartCheck (p : Nat) (s : State) : State :=
  let c := s.cc p
  let v := s.vbus p
  if s.serves p && c.st == .attachedSrc && !c.vbusChecked && c.detach == 0 && (s.pd p).hrFrame.isNone && s.pacesSince c.since 20 then
    if decide (4750 ≤ v) && decide (v ≤ 5500) then s.updCc p fun c => { c with vbusChecked := true }
    else (s.raise (.portCc p) 1).errorRecovery p 0xE
  else s

/-- R59, R112: ErrorRecovery ends. -/
def errorRecoveryEnd (p : Nat) (s : State) : State :=
  let c := s.cc p
  if s.serves p && c.st == .errorRecovery && s.pacesSince c.since 30 && decide (c.vbusMv < 800) then s.home p else s

/-- The port goes to its home unattached state. -/
def goHome (s : State) (p : Nat) : State :=
  ((s.updPort p fun q => { q with attachFrame := none }).returnNode p 2 2500).home p

/-- R72: a detached port opens its switches, connects the discharge and goes to its home unattached state. -/
def leaveAttached (s : State) (p : Nat) : State := goHome (s.openPort p true) p

/-- R59, R127: a sink whose VBUS is gone opens its switch, without a discharge, and goes to its home unattached state; its node comes down in
return mode as for a detach, which R170's table does not list (DESIGN CHOICE, log 84). -/
def leaveSink (s : State) (p : Nat) : State :=
  let s := (s.attachOver p 1 false).updPd p fun d => { d with snkRestore := none }
  goHome ((s.updPath p Path.opened).vconnOff p) p

/-- A PD-owned transition of a sink (R59, R119, R127): of its contract, a swap, or a Hard Reset until VBUS is back. -/
def sinkOwned (s : State) (p : Nat) : Bool :=
  (s.pd p).next.isSome || (s.sw p).kind.isSome || (s.pd p).snkRestore.isSome

/-- R59: VBUS lost in Attached.SNK, outside a PD-owned transition. -/
def sinkVbusLoss (p : Nat) (s : State) : State :=
  let c := s.cc p
  if s.serves p && c.st == .attachedSnk && decide (4 ≤ c.lowRun) && !sinkOwned s p then leaveSink s p else s

/-! ### Detach (R71 to R73, R109, R119) -/

/-- A detach is qualified: the contract is void, the transition abandoned, the swap ended. -/
def detachQualified (s : State) (p route : Nat) : State :=
  let code := if (s.pd p).next.isSome then 2 else 1
  let s := s.attachOver p code false
  let s := s.updCc p fun c => { c with detach := route, detachFrame := s.frame }
  s.updPath p fun h => { h with detach := true }

/-- R71: by debounce; the only route during a swap (R119). -/
def detachByDebounce (p : Nat) (s : State) : State :=
  let c := s.cc p
  match c.openFrom with
  | some t =>
    if s.serves p && c.detach == 0 && s.pacesSince t 15 && (c.st == .attachedSrc || (c.st == .attachedSnk && (s.sw p).kind.isSome)) then
      detachQualified s p 1
    else s
  | none => s

/-- R71: by current. -/
def detachByCurrent (p : Nat) (s : State) : State :=
  let c := s.cc p
  if s.serves p && c.st == .attachedSrc && c.detach == 0 && (s.sw p).kind.isNone && decide (4 ≤ c.openLowRun) then
    (detachQualified s p 2).countUp p .detachI
  else s

/-- R72: at the boundary after the qualification the switches open. -/
def detachSwitchOpen (p : Nat) (s : State) : State :=
  let c := s.cc p
  if s.serves p && c.detach != 0 && s.atBoundary && decide (c.detachFrame < s.frame) then leaveAttached s p else s

/-- R72: VBUS below 0.8 V releases the discharge. -/
def vbusDischargeComplete (p : Nat) (s : State) : State :=
  if (s.cc p).disch && (!s.locked || decide ((s.cc p).vbusMv < 800)) then
    s.updCc p fun c => { c with disch := false, dischDetach := false }
  else s

/-- R73: VBUS has not fallen below 0.8 V within 650 frames of the qualification, whatever state the port has entered since. -/
def vbusDischargeTimeout (p : Nat) (s : State) : State :=
  let c := s.cc p
  if s.serves p && c.disch && c.dischDetach && decide (800 ≤ s.vbus p) && s.framesSince c.detachFrame 650 then
    let s := if c.st.attached then s.disablePort p (s.pd p).lastEnd .discharge else s
    (s.updCc p fun c =>
      { c.entered .disabled s.now with dischDetach := false, disabledBy := .discharge, alloc := false }).raise (.portCc p) 5
  else s

/-! ### VCONN (R67 to R70, R125) -/

/-- The swap in which the part becomes VCONN source ends at VCONN_GOOD (R125); a suspended engine ends it when it goes on (R50), and none
ends it while the supervisor is absent (R113). -/
def vconnSwapGood (s : State) (p : Nat) (goodCrc : Bool) : State :=
  let w := s.sw p
  if w.kind != some .vconn || w.step != 1 then s
  else if s.policyUp && s.policyHeld then s.updPd p fun d => { d with inbox := d.inbox ++ [.vconnGood ⟨p, goodCrc⟩] }
  else if s.policyRuns then
    let s := (s.updSw p fun w => { w with vconnSrc := true }).send p [.psRdy]
    if goodCrc then ((s.swapDone p).seqOver p).rewait p else s.hardReset p 4 true
  else s

/-- R68, R83: the line has stood at 4.50 V for a frame; a PS_RDY of R125 that the engine's task held back goes out when the good line is
reported again. VCONN_GOOD then stands until the switch opens: R68 gives its setting and
does not say that it clears when the line falls below 4.50 V with the switch closed (DESIGN CHOICE, log 67). -/
def vconnGood (p : Nat) (goodCrc : Bool) (s : State) : State :=
  let v := s.vc p
  match v.goodFrom with
  | some t =>
    if s.serves p && v.on && s.pacesSince t 1 then
      let s := if v.good then s
        else s.updVc p fun v => { v with good := true, attemptsDue := if (s.pd p).started then some (s.frame + 1) else none }
      vconnSwapGood s p goodCrc
    else s
  | none => s

/-- A trip or block, counted (R69, R85). -/
def vconnTrip (s : State) (p bit : Nat) : State :=
  (s.vconnLose p bit).countUp p .vconnTrip

/-- R68: two frames continuously in the limit. -/
def vconnFaultTimerTrip (p : Nat) (s : State) : State :=
  match (s.vc p).limitFrom with
  | some t => if s.serves p && (s.vc p).on && s.pacesSince t 2 then vconnTrip s p 2 else s
  | none => s

/-- R68: the hard trip. -/
def vconnHardTrip (p : Nat) (s : State) : State := if s.serves p && (s.vc p).on then vconnTrip s p 3 else s

/-- R68: the reverse block. -/
def vconnReverseBlock (p : Nat) (s : State) : State := if s.serves p && (s.vc p).on then vconnTrip s p 4 else s

/-- R67: the supply has ceased to be good. -/
def vconnSupplyLoss (p : Nat) (s : State) : State :=
  if s.serves p && (s.vc p).on && !(s.ridge (ridgeOfPort p)).vconnInGood then
    s.vconnLose p 7
  else s

/-- R70: the pull-down ends below 0.30 V or after 10 frames. -/
def vconnDischargeEnd (p : Nat) (s : State) : State :=
  let v := s.vc p
  if s.serves p && v.pulldown.isSome && (decide (v.mv < 300) || s.ran v.pulldown 10) then s.updVc p fun v => { v with pulldown := none } else s

/-! ### Passive Rd (R75, R79) -/

/-- R79: active Rd connects beside the passive Rd; one frame later the passive Rd is out and the port is in AttachWait.SNK with
the Rp line as its candidate, served from then on. A port out of service is taken over only as the booting port (R25, R26). -/
def passiveRdTakeover (p : Nat) (s : State) : State :=
  let c := s.cc p
  let mine := if s.seq.mode == .serviceBoot then s.seq.bootPort == some p else c.st != .outOfService && (c.cc1 == .rp) != (c.cc2 == .rp)
  if decide (p < 24) && s.locked && c.passiveRd && mine then
    if !c.activeRd then s.updCc p fun c => { c with activeRd := true, takeoverFrame := some s.frame }
    else if s.ran c.takeoverFrame 1 then
      (s.updPort p fun q => { q with inService := true }).updCc p fun c =>
        { c.entered .attachWaitSnk s.now with
          debLine := if c.cc2 == .rp then 2 else 1, activeRd := false, passiveRd := false, takeoverFrame := none, unexpSet := false }
    else s
  else s

/-! ### ATTACH_MODE (R57, R58) -/

/-- R57, R58, R59: a changed mode acts at the boundary that takes it up, in full service (R251); the booting port ignores it. -/
def attachModeChange (p : Nat) (s : State) : State :=
  let c := s.cc p
  let m := portParam s p 0x20
  if s.serves p && s.atBoundary && c.mode != m && s.seq.full && s.seq.mode != .serviceBoot then
    let s := s.updCc p fun c => { c with mode := m }
    if m = 2 then
      if c.st == .disabled then s else (s.disablePort p 0xC .host)
    else match c.st with
      | .disabled => if c.disabledBy == .host then s.home p else s
      | .unattachedSrc => s.home p
      | .unattachedSnk => s.home p
      | .attachWaitSrc => s.home p
      | .attachWaitSnk => s.home p
      | _ => s
  else s

def execCcSniff (p : Nat) (seen : List (List Nat × List Nat)) (s : State) : Out := .next (ccSniff p seen s)
def execToggleSourceEnd (p : Nat) (s : State) : Out := .next (toggleSourceEnd p s)
def execToggleSinkEnd (p : Nat) (s : State) : Out := .next (toggleSinkEnd p s)
def execAttachDebounceSrc (p : Nat) (s : State) : Out := .next (attachDebounceSrc p s)
def execAttachDebounceSnk (p : Nat) (s : State) : Out := .next (attachDebounceSnk p s)
def execAttachwaitTimeout (p : Nat) (s : State) : Out := .next (attachwaitTimeout p s)
def execUnexpectedVbus (p : Nat) (s : State) : Out := .next (unexpectedVbus p s)
def execPortSwitchClose (p : Nat) (s : State) : Out := .next (portSwitchClose p s)
def execVbusStartCheck (p : Nat) (s : State) : Out := .next (vbusStartCheck p s)
def execErrorRecoveryEnd (p : Nat) (s : State) : Out := .next (errorRecoveryEnd p s)
def execSinkVbusLoss (p : Nat) (s : State) : Out := .next (sinkVbusLoss p s)
def execDetachByDebounce (p : Nat) (s : State) : Out := .next (detachByDebounce p s)
def execDetachByCurrent (p : Nat) (s : State) : Out := .next (detachByCurrent p s)
def execDetachSwitchOpen (p : Nat) (s : State) : Out := .next (detachSwitchOpen p s)
def execVbusDischargeComplete (p : Nat) (s : State) : Out := .next (vbusDischargeComplete p s)
def execVbusDischargeTimeout (p : Nat) (s : State) : Out := .next (vbusDischargeTimeout p s)
def execVconnGood (x : PortAck) (s : State) : Out := .next (vconnGood x.port x.goodCrc s)
def execVconnFaultTimerTrip (p : Nat) (s : State) : Out := .next (vconnFaultTimerTrip p s)
def execVconnHardTrip (p : Nat) (s : State) : Out := .next (vconnHardTrip p s)
def execVconnReverseBlock (p : Nat) (s : State) : Out := .next (vconnReverseBlock p s)
def execVconnSupplyLoss (p : Nat) (s : State) : Out := .next (vconnSupplyLoss p s)
def execVconnDischargeEnd (p : Nat) (s : State) : Out := .next (vconnDischargeEnd p s)
def execPassiveRdTakeover (p : Nat) (s : State) : Out := .next (passiveRdTakeover p s)
def execAttachModeChange (p : Nat) (s : State) : Out := .next (attachModeChange p s)

end Sys2Proof.Machine
end

