-- ==== Sys2Proof/Machine/PortPath.lean ====
section
/-! DEFINITION. Port path protection (R175 to R182): closing, the fault timer, trips and their count. -/

namespace Sys2Proof.Machine

/-- R118, R120: the swap to source ends with the GoodCRC of the part's own PS_RDY, sent once its switch has closed and VBUS stands within
4.75 V to 5.50 V; a suspended engine sends it when it goes on (R50). -/
def prSwapDone (s : State) (p : Nat) (goodCrc : Bool) : State :=
  let w := s.sw p
  if w.kind != some .pr || w.step != 3 then s
  else if s.policyUp && s.policyHeld then s.updPd p fun d => { d with inbox := d.inbox ++ [.portCloseComplete ⟨p, goodCrc⟩] }
  else if s.policyRuns && decide (4750 ≤ s.vbus p) && decide (s.vbus p ≤ 5500) then
    let s := s.updSw p fun w => { w with source := true }
    let s := s.send p [.psRdy]
    if !goodCrc then s.hardReset p 4 true
    else
    let s := s.swapDone p
    s.updPd p fun d => { d with started := s.policyUp, startDue := some (s.frame + 24), contract := typecContract (s.cc p).rp }
  else s

/-- R175, R181: the close is complete; PPG asserts unless the fault timer runs. A PS_RDY of R120 that its VBUS or the engine's task held back
then goes out when the closed switch is reported again. -/
def portCloseComplete (p : Nat) (goodCrc : Bool) (s : State) : State :=
  let h := s.path p
  if s.serves p && h.closing && decide (4 ≤ h.fullyOn) then
    let ppg := h.timer == 0 && !h.ilimAct
    let s := s.updPath p fun h =>
      { h with closing := false, closePaces := 0, ppg := ppg, ppgFrom := if ppg then some s.frame else none }
    prSwapDone s p goodCrc
  else if s.serves p && h.swOn && !h.closing then prSwapDone s p goodCrc
  else s

/-- R175: the close has not completed within 2,500 paces. -/
def portCloseTimeout (p : Nat) (s : State) : State :=
  let h := s.path p
  if s.serves p && h.closing && decide (2500 ≤ h.closePaces) then s.portTrip p 3 else s

/-- R178: the counted pace in which the fault timer reaches `ILIM_TIME`. -/
def portFaultTimerTrip (p : Nat) (s : State) : State :=
  let h := s.path p
  if s.serves p && h.swOn && decide (portParam s p 0x2E ≤ h.timer) then s.portTrip p 2 else s

/-- R178, R181: 50 consecutive paces without the limit; PPG withheld asserts then. -/
def portFaultTimerReset (p : Nat) (s : State) : State :=
  let h := s.path p
  if s.serves p && h.timer != 0 && decide (50 ≤ h.timerOff) then
    s.updPath p fun h =>
      { h with
        timer := 0
        ppg := h.ppg || (h.swOn && !h.closing)
        ppgFrom := if h.swOn && !h.closing && !h.ppg then some s.frame else h.ppgFrom }
  else s

/-- R178: a current in mA above the fast-trip level. -/
def portFastTrip (p ma : Nat) (s : State) : State :=
  if s.serves p && (s.path p).swOn && decide (10 * fastTrip s p < ma) then s.portTrip p 1 else s

/-- R178: a current in mA in the blocked direction (toward the node as source, out of it as sink) above its limit. -/
def portReverseBlock (p ma : Nat) (s : State) : State :=
  if s.serves p && (s.path p).swOn && decide (revLimit s p < ma) then s.portTrip p 4 else s

/-- R178: V_MAX above V_CEIL in 2 consecutive paces. -/
def portOvervoltage (p : Nat) (s : State) : State :=
  if s.serves p && decide (2 ≤ (s.path p).ovRun) then s.portTrip p 5 else s

/-- R180: PPG held for 1,000 consecutive frames. -/
def portTripCountClear (p : Nat) (s : State) : State :=
  let h := s.path p
  if s.serves p && h.ppg && s.ran h.ppgFrom 1000 then s.updPath p fun h => { h with trips := 0 } else s

def execPortCloseComplete (x : PortAck) (s : State) : Out := .next (portCloseComplete x.port x.goodCrc s)
def execPortCloseTimeout (p : Nat) (s : State) : Out := .next (portCloseTimeout p s)
def execPortFaultTimerTrip (p : Nat) (s : State) : Out := .next (portFaultTimerTrip p s)
def execPortFaultTimerReset (p : Nat) (s : State) : Out := .next (portFaultTimerReset p s)
def execPortFastTrip (x : PortCurrent) (s : State) : Out := .next (portFastTrip x.port x.ma s)
def execPortReverseBlock (x : PortCurrent) (s : State) : Out := .next (portReverseBlock x.port x.ma s)
def execPortOvervoltage (p : Nat) (s : State) : Out := .next (portOvervoltage p s)
def execPortTripCountClear (p : Nat) (s : State) : Out := .next (portTripCountClear p s)

end Sys2Proof.Machine
end

