-- ==== Sys2Proof/Machine/Contracts.lean ====
section
/-! DEFINITION. The policy engines (R80 to R115, R470): the offer, requests, transitions, EPR, answers, ends, and the sink role. -/

namespace Sys2Proof.Machine

/-! ### The offer (R87 to R89) -/

/-- P: the ledger ceiling rounded down to a whole watt (R87). -/
def offerP (s : State) (p : Nat) : Nat := (s.ledger.port p).ceil / 8

/-- Whether a kind of `OFFER_EN` is on. -/
def kindOn (s : State) (p b : Nat) : Bool := (portParam s p 0x25).testBit b

/-- Objects numbered from `n` without gaps. -/
def numbered (n : Nat) : List Pdo → List Pdo
  | [] => []
  | o :: os => { o with pos := n } :: numbered (n + 1) os

def fixedPdo (kind : PdoKind) (mv cur : Nat) : Pdo := { kind, mv, mvMin := mv, cur }

/-- A PPS object of R87 with its Power Limited bit. -/
def ppsPdo (P hi cur : Nat) : Pdo := { kind := .pps, mv := hi * 1000, mvMin := 3300, cur, powerLimited := decide (P * 100 < hi * cur) }

/-- floor50 of P over a voltage, in 10 mA. -/
def floor50 (P v : Nat) : Nat := P * 1000 / v / 50 * 5

/-- The SPR positions of R87. -/
def sprSet (s : State) (p P : Nat) : List Pdo :=
  let cab := (s.vc p).iCab
  let rev3 := !(s.pd p).rev20
  numbered 1 <|
    [fixedPdo .fixed 5000 (max 50 (min 300 (P * 100 / 5)))] ++
    (if 15 < P && kindOn s p 0 then [fixedPdo .fixed 9000 (min 300 (P * 100 / 9))] else []) ++
    (if 27 < P && kindOn s p 1 then [fixedPdo .fixed 15000 (min 300 (P * 100 / 15))] else []) ++
    (if 45 < P && kindOn s p 2 then [fixedPdo .fixed 20000 (min cab (P * 100 / 20))] else []) ++
    (if 15 < P && rev3 && kindOn s p 3 then [ppsPdo P 11 (min 300 (floor50 P 11))] else []) ++
    (if 45 < P && rev3 && kindOn s p 4 then [ppsPdo P 21 (min cab (floor50 P 20))] else [])

/-- The EPR positions of R87. -/
def eprObjs (s : State) (p P : Nat) : List Pdo :=
  numbered 8 <|
    (if 100 < P && kindOn s p 5 then [fixedPdo .eprFixed 28000 (min 500 (P * 100 / 28))] else []) ++
    (if 140 < P && kindOn s p 6 then [fixedPdo .eprFixed 36000 (min 500 (P * 100 / 36))] else []) ++
    (if 180 < P && kindOn s p 7 then [fixedPdo .eprFixed 48000 (min 500 (P * 100 / 48))] else []) ++
    (if 100 < P && kindOn s p 8 then
      [({ kind := .avs, mvMin := 15000, mv := if P ≤ 140 then 28000 else if P ≤ 180 then 36000 else 48000, cur := min 240 P } : Pdo)]
     else [])

/-- EPR is no longer allowed (R105). -/
def eprDisallowed (s : State) (p : Nat) : Bool :=
  decide (offerP s p ≤ 100) || !(s.vc p).eprOk || !(s.vc p).on || portParam s p 0x26 != 1

/-- The capability set derived for a frame (R87); positions 8 to 11 are empty once EPR is no longer allowed (R105). -/
def deriveSet (s : State) (p : Nat) : List Pdo :=
  let P := offerP s p
  sprSet s p P ++ (if (s.pd p).epr && !(s.pd p).rev20 && !eprDisallowed s p then eprObjs s p P else [])

/-- The EPR Mode Capable flag of the 5 V object (R88); a Revision 2.0 partner is offered no EPR (R81). -/
def eprFlag (s : State) (p : Nat) : Bool :=
  decide (portParam s p 0x26 = 1) && (s.vc p).eprOk && decide (100 < offerP s p) && !(s.pd p).rev20

/-- The flags of the 5 V object (R88, R117). -/
def capFlags (s : State) (p : Nat) : CapFlags :=
  { dualRole := s.otp.dualRole.testBit p && decide (portParam s p 0x20 = 1)
    usbComm := decide (portParam s p 0x27 = 1)
    dualData := decide (portParam s p 0x2B ≠ 0)
    eprCapable := eprFlag s p }

/-- The set and the flags of the present ledger and cable are derived (R87, R88). -/
def State.derive (s : State) (p : Nat) : State :=
  let set := deriveSet s p
  let P := offerP s p
  let f := capFlags s p
  s.updPd p fun d => { d with derived := set, derivedP := P, derivedFlags := f }

/-- P lies below the power of the contract in force (R90): 10 µW units. -/
def belowContract (P : Nat) (c : Contract) : Bool := c.explicit && c.kind != 6 && decide (P * 100000 < c.mv * c.cur)

/-- The set derived no longer backs the contract in force: in power (R90), or in the current of the cable or EPR (R85, R105). -/
def unbacked (s : State) (p : Nat) : Bool :=
  let d := s.pd p
  belowContract d.derivedP d.contract ||
    (d.contract.explicit && d.contract.kind != 6 && (decide ((s.vc p).iCab < d.contract.cur) || (d.epr && eprDisallowed s p)))

/-- The first set of an attach may go out: the first cable attempt has ended where VCONN is on (R83). -/
def firstDue (s : State) (p : Nat) : Bool :=
  let v := s.vc p
  s.ran (s.pd p).startDue 1 && (!v.on || v.firstEnded)

/-- Whether a send is due by the cases of R90. -/
def capsCase (s : State) (p : Nat) : Bool :=
  let d := s.pd p
  if !d.everSent then firstDue s p && d.repeatFrame.isNone
  else
    let spaced := s.ran d.sentFrame 200
    d.cableChanged ||
    ((d.derived != d.sent || d.derivedFlags != d.sentFlags) &&
      (belowContract d.derivedP d.contract ||
       (decide (d.derivedP < d.sentP) && spaced) ||
       (decide (d.sentP + 5 ≤ d.derivedP) && decide (d.sentP * 11 ≤ d.derivedP * 10) && spaced)))

/-- A port in the source role whose policy engine runs PD. -/
def sourcing (s : State) (p : Nat) : Bool :=
  s.serves p && s.policyRuns && (s.cc p).st == .attachedSrc && (s.pd p).started && (s.cc p).detach == 0 && (s.pd p).hrFrame.isNone

/-- A port in the sink role whose policy engine runs PD. -/
def sinking (s : State) (p : Nat) : Bool :=
  s.serves p && s.policyRuns && (s.cc p).st == .attachedSnk && (s.pd p).started

def attachedPd (s : State) (p : Nat) : Bool := sourcing s p || sinking s p

/-- A readied supervisor restart starts no sequences (R443). -/
def State.mayBegin (s : State) : Bool := s.sup.st == .up

/-- What a frame boundary does to the policy engine of a port: the offer is derived (R87), a send falls due (R90), the wait of
R91 starts, and before a contract the Rp level follows R62. -/
def offerDerive (s : State) (p : Nat) : State :=
  if (s.cc p).st == .attachedSrc && s.serves p && s.sup.st != .hold then
    let s :=
      if (s.pd p).contract.explicit then s
      else
        let l := rpOf s p
        (s.updCc p fun c => { c with rp := l, rpNext := none }).updPd p fun d => { d with contract := if d.contract.kind = 1 then typecContract l else d.contract }
    let s := s.derive p
    if sourcing s p then
      let s := s.rewait p
      if (s.pd p).noPd then s
      else
        let due := capsCase s p
        let s := s.updPd p fun d => { d with capsDue := due }
        if due && s.mayBegin && s.quiet p then s.waitTx p else s
    else s
  else s

/-- R100, R346: whether the PPS limit acted in the frame, and its count. -/
def ppsFrame (s : State) (p : Nat) : State :=
  let s := s.updPd p fun d => { d with ppsLimitPrev := d.ppsLimit, ppsLimit := false }
  if (s.pd p).ppsLimitPrev then s.countUp p .ppsLimit else s

/-! ### Sending capabilities (R83, R90, R107) -/

/-- The set as sent: an EPR set in EPR mode. -/
def capsMsg (s : State) (p : Nat) : PdTx :=
  let d := s.pd p
  if d.epr then .eprSourceCaps d.derivedFlags d.derived else .sourceCaps d.derivedFlags d.derived

/-- The set was derived before the cable or EPR last changed: the one that follows the change comes at the next boundary (R85, R90). -/
def staleSet (s : State) (p : Nat) : Bool := (s.pd p).derived != deriveSet s p

/-- The set is the one last sent, with its timers: lowered capabilities have their own of 30 frames (R85, R111), and in EPR mode
no longer allowed they are the first step of the exit (R105); others wait for a response (R107). The rejections in a row that
R111 counts run on over further lowered sets. A change of the cable that the set does not show yet stays due. -/
def capsSent (s : State) (p : Nat) : State :=
  let stale := staleSet s p
  let low := if stale then belowContract (s.pd p).derivedP (s.pd p).contract else unbacked s p
  let leave := (s.pd p).epr && eprDisallowed s p && !stale
  s.updPd p fun d =>
    { d with
      sent := d.derived, sentP := d.derivedP, sentFrame := some s.frame, sentFlags := d.derivedFlags, everSent := true
      capsDue := false, cableChanged := d.cableChanged && stale, repeatFrame := none
      low := d.low || low || leave
      lowered := if low || leave then some s.frame else d.lowered
      awaiting := if low || leave then none else some s.frame
      eprExit := if leave then 1 else d.eprExit
      rejects := if (low || leave) && !d.low then 0 else d.rejects }

/-- One send of the set, with or without GoodCRC (R107); its sequence ends with the PS_RDY or the refusal that it leads to (R91). -/
def capsSend (s : State) (p : Nat) (goodCrc : Bool) : State :=
  let s := (s.send p [capsMsg s p]).countUp p .caps
  if goodCrc then capsSent s p
  else if (s.pd p).contract.explicit then s.hardReset p 4 true
  else
    let n := (s.pd p).capsCount + 1
    if 50 ≤ n then
      s.updPd p fun d => { d with capsCount := n, repeatFrame := none, noPd := true, capsDue := false, lastEnd := 0xD }
    else s.updPd p fun d => { d with capsCount := n, repeatFrame := some s.frame, capsDue := false }

/-- R90, R83: a changed set is sent when the sending rules allow. -/
def sourceCapSend (p : Nat) (goodCrc : Bool) (s : State) : State :=
  if sourcing s p && (s.pd p).capsDue && !(s.pd p).noPd && s.mayBegin then s.startSeq p fun s => capsSend s p goodCrc else s

/-- R107: an unanswered Source_Capabilities is repeated every 150 frames, 50 times in all. -/
def sourceCapRepeat (p : Nat) (goodCrc : Bool) (s : State) : State :=
  if sourcing s p && s.ran (s.pd p).repeatFrame 150 && !(s.pd p).noPd && s.mayBegin then capsSend s p goodCrc else s

/-- R91: 18 frames after SinkTxNG the sequence may start. -/
def collisionWaitExpiry (p : Nat) (s : State) : State :=
  if sourcing s p && s.ran (s.pd p).collision 18 then s.updPd p fun d => { d with collision := none, clear := true } else s

/-! ### The cable (R83 to R86, R103) -/

/-- R83: an SOP′ Discover Identity is sent. -/
def cableDiscoverAttempt (p : Nat) (s : State) : State :=
  let v := s.vc p
  if sourcing s p && v.on && v.good && v.attempt.isNone && s.ran v.attemptsDue 0 then
    (s.updVc p fun v => { v with attempt := some s.frame, attempts := min 15 (v.attempts + 1), attemptsDue := none }).send p [.discoverIdentityPrime]
  else s

/-- R103: the fresh check of the cable decides EPR entry. -/
def eprDecide (s : State) (p : Nat) : State :=
  if (s.vc p).forEpr then
    let s := s.updVc p fun v => { v with forEpr := false }
    if (s.vc p).eprOk then
      let s := s.updPd p fun d => { d with epr := true, eprEnter := none, cableChanged := true, capsDue := true, clear := true, collision := none }
      ((s.derive p).send p [.eprMode 3 0]).countUp p .eprEntry
    else (s.updPd p fun d => { d with eprEnter := none }).send p [.eprMode 4 1]
  else s

/-- The cable record changes by `g`: where that moves I_cab or EPR after the first set, the set changes with it (R83, R90). -/
def cableRecord (s : State) (p : Nat) (g : Vconn → Vconn) : State :=
  let v := s.vc p
  let w := g v
  let moved := v.iCab != w.iCab || v.eprOk != w.eprOk
  (s.updVc p fun _ => w).updPd p fun d => { d with cableChanged := d.cableChanged || (d.everSent && moved) }

/-- R84, R86: the e-marker's answer, after which no further attempt is due (R83); SOP′ is received only while the port sources VCONN (R55). -/
def cableIdentityResponse (p : Nat) (c : CableId) (s : State) : State :=
  if sourcing s p && (s.vc p).on && (s.vc p).attempt.isSome then
    let s := cableRecord s p fun v =>
      { v with disc := 3, iMax := if c.fiveA then 2 else 1, vMax := c.vMax % 4, epr := c.epr, active := c.active, attempt := none, attemptsDue := none, hostTry := false, firstEnded := true }
    let s := eprDecide s p
    s.finishWait (.cable p) stOk (leBytes 2 (cableStatus s p))
  else s

/-- R83: an attempt ends without a response; further attempts follow, 4 at most. The host's own leaves that series as it is (R306). -/
def attemptFailed (s : State) (p : Nat) : State :=
  let v := s.vc p
  let more := (s.pd p).firstContract.isSome && v.further != 0 && decide (v.further < 4) && !v.forEpr && !v.hostTry
  let s := cableRecord s p fun v =>
    { v with
      disc := 2, iMax := 0, vMax := 0, epr := false, active := false, attempt := none, firstEnded := true
      attemptsDue := if more then v.attempt.map (· + 45) else if v.hostTry then v.attemptsDue else none
      hostTry := false
      further := if more then v.further + 1 else v.further }
  let s := eprDecide s p
  s.finishWait (.cable p) stOk (leBytes 2 (cableStatus s p))

/-- R118: a swap message of the part that got no GoodCRC has begun no swap. -/
def swapUnsent (s : State) (p : Nat) : State :=
  let w := s.sw p
  if w.mine && w.step == 0 && ((s.pd p).tx == [.prSwap] || (s.pd p).tx == [.drSwap] || (s.pd p).tx == [.vconnSwap]) then
    let s := (s.updSw p fun w => { w with kind := none }).updCc p fun c => { c with alloc := if w.kind == some .pr then false else c.alloc }
    s.finishWait (.drSwap p) stFailed (leBytes 2 (swapStatus s p))
  else s

/-- R55, R83, R108: a message of the part got no GoodCRC after its retries. -/
def goodcrcRetryFail (p : Nat) (sopPrime : Bool) (s : State) : State :=
  if sopPrime then (if sourcing s p && (s.vc p).attempt.isSome then attemptFailed s p else s)
  else if attachedPd s p && (s.pd p).tx != [] then (swapUnsent s p).hardReset p 4 true
  else s

/-- R107, R108, R83: no response within 27 frames. -/
def senderResponseTimeout (p : Nat) (sopPrime : Bool) (s : State) : State :=
  if sopPrime then (if sourcing s p && s.ran (s.vc p).attempt 27 then attemptFailed s p else s)
  else if attachedPd s p && s.ran (s.pd p).awaiting 27 then s.hardReset p 4 true
  else s

/-! ### Protocol errors (R107) -/

/-- R107, R118: Soft_Reset is sent; a swap in progress fails (R121). While one waits for its Accept no other is sent, and its
27 frames run on. -/
def protoError (s : State) (p : Nat) : State :=
  if (s.pd p).softReset.isSome then s
  else
    let s := (s.swapFail p 2).countUp p .softReset
    let s := s.updVc p fun v => { v with forEpr := false }
    (s.updPd p fun d => { d with softReset := some s.frame, awaiting := none, eprEnter := none }).send p [.softReset]

/-- R107: a message that is malformed or unexpected has arrived (R104). -/
def protocolError (p : Nat) (s : State) : State := if attachedPd s p then protoError (s.heard p) p else s

/-- R107: Soft_Reset got no Accept within 27 frames. -/
def softResetTimeout (p : Nat) (s : State) : State :=
  if attachedPd s p && s.ran (s.pd p).softReset 27 then s.hardReset p 4 true else s

/-- R121: a Soft_Reset is received: it is accepted, the protocol layer starts afresh, and a source sends its capabilities. -/
def softResetReceived (p : Nat) (s : State) : State :=
  if attachedPd s p then
    let s := (s.swapFail p 2).countUp p .softReset
    let src := (s.cc p).st == .attachedSrc
    (s.updPd p fun d => { d with softReset := none, awaiting := none, eprEnter := none, collision := none, redo := false, clear := src, cableChanged := d.cableChanged || src, lastMsg := s.frame }).send p [.accept]
  else s

/-! ### Requests (R92, R93, R99, R101, R111) -/

/-- Checks 1 to 4 of R92 on the object named. -/
def checkObj (d : Pd) (q : PdRequest) (o : Pdo) : Bool :=
  (decide (q.pos < 8) || q.epr) && (!q.epr || q.copyOk) &&
  match o.kind with
  | .fixed => decide (q.opCur ≤ o.cur) && (decide (q.maxCur ≤ o.cur) || q.mismatch)
  | .eprFixed => decide (q.opCur ≤ o.cur) && (decide (q.maxCur ≤ o.cur) || q.mismatch)
  | .pps => decide (o.mvMin ≤ q.mv) && decide (q.mv ≤ o.mv) && decide (q.mv % 20 = 0) && decide (q.opCur ≤ o.cur) &&
      (!o.powerLimited || decide (q.mv * q.opCur ≤ d.sentP * 100000))
  | .avs => decide (o.mvMin ≤ q.mv) && decide (q.mv ≤ o.mv) && decide (q.mv % 100 = 0) && decide (q.mv * q.opCur ≤ o.cur * 100000)
  | .empty => false

/-- The contract a request asks for. -/
def reqContract (q : PdRequest) (o : Pdo) : Contract :=
  match o.kind with
  | .pps => { kind := 3, pos := q.pos, mv := q.mv, cur := q.opCur, maxCur := q.opCur }
  | .eprFixed => { kind := 4, pos := q.pos, mv := o.mv, cur := q.opCur, maxCur := q.maxCur }
  | .avs => { kind := 5, pos := q.pos, mv := q.mv, cur := q.opCur, maxCur := q.opCur, pdp := o.cur }
  | _ => { kind := 2, pos := q.pos, mv := o.mv, cur := q.opCur, maxCur := q.maxCur }

/-- What R92 finds: the contract to accept, or the number of the failed check (1 to 4 as one, or 5). -/
def judge (s : State) (p : Nat) (q : PdRequest) : Sum Contract Nat :=
  let d := s.pd p
  match d.sent.find? (fun o => o.pos == q.pos) with
  | none => .inr 1
  | some o =>
    if checkObj d q o then
      let c := reqContract q o
      if c.mv * c.cur ≤ offerP s p * 100000 then .inl c else .inr 5
    else .inr 1

/-- R92 row 6, R94, R170: Accept; a step down puts the port in return mode until it settles. -/
def acceptRequest (s : State) (p : Nat) (q : PdRequest) (c : Contract) : State :=
  let before := (s.pd p).contract.mv
  let s := s.updPd p fun d =>
    { d with
      next := some c, nextIn := 0, acceptFrame := s.frame, slewing := false, settled := 0, nextEprCap := q.eprCapable && !d.rev20, mismatch := q.mismatch
      unmet := if q.mismatch then c.mv * q.maxCur else 0
      rejects := 0, low := false, lowered := none }.broken
  let s := if c.mv < before then s.updPath p fun h => { h with pmode := if h.pmode = 0 then 0 else 2, retKind := 1 } else s
  s.send p [.accept]

/-- R92, R111: Reject, which ends the sequence (R91); check 5 is followed by a new set; three in a row after lowered capabilities end in
Hard Reset. -/
def rejectRequest (s : State) (p check : Nat) : State :=
  let s := ((s.countUp p .reject).send p [.reject]).seqOver p
  let s := s.updPd p fun d => { d with rejects := d.rejects + 1, cableChanged := d.cableChanged || check == 5, capsDue := d.capsDue || check == 5 }
  let d := s.pd p
  if d.low && decide (3 ≤ d.rejects) then s.hardReset p 7 true
  else if check = 5 then s.waitTx p else s

/-- A request has arrived: the PPS count starts again (R101), and a request has followed lowered capabilities (R111); those that leave EPR
mode wait for an SPR request (R105). -/
def Pd.asked (d : Pd) (q : PdRequest) (frame : Nat) : Pd :=
  { d with lastReq := frame, lowered := if d.eprExit = 1 && q.epr then d.lowered else none }

/-- A request is unexpected (R99, R107): in a transition, a swap or an EPR entry, before any set, or as an EPR_Request outside EPR mode. -/
def requestClash (s : State) (p : Nat) (q : PdRequest) : Bool :=
  (s.pd p).next.isSome || (s.sw p).kind.isSome || (s.pd p).eprEnter.isSome || !(s.pd p).everSent || (q.epr && !(s.pd p).epr)

/-- R92, R93, R99, R101: a Request or EPR_Request. While a Soft_Reset waits for its Accept it is not judged (R107). -/
def requestReceived (p : Nat) (q : PdRequest) (s : State) : State :=
  if sourcing s p then
    let s := s.sinkSpoke p
    let s := s.updPd p fun d =>
      { d.asked q s.frame with awaiting := none, rev20 := if d.revKnown then d.rev20 else q.rev20, revKnown := true }
    if (s.pd p).softReset.isSome then s
    else if s.sup.st == .readied then s.send p [.wait]
    else if requestClash s p q then protoError s p
    else match judge s p q with
      | .inl c => acceptRequest s p q c
      | .inr n => rejectRequest s p n
  else s

/-! ### Transitions (R94 to R98) -/

/-- PPS and AVS do not wait tSrcTransition (R94). -/
def Contract.programmable (c : Contract) : Bool := c.kind == 3 || c.kind == 5

/-- R94: the ledger in force was solved with the accepted contract, and gives the port the phases that it needs (R202). -/
def placedFor (s : State) (p : Nat) : Bool := (s.pd p).nextIn == 2 && (s.ledger.port p).inplace

def transitionStart (p : Nat) (s : State) : State :=
  let d := s.pd p
  match d.next with
  | some c =>
    if s.serves p && s.policyRuns && (s.cc p).st == .attachedSrc && (s.cc p).detach == 0 && s.atBoundary && !d.slewing &&
        s.framesSince d.acceptFrame (if c.programmable then 1 else 25) && placedFor s p then
      (s.updPd p fun d => { d with slewing := true, settled := 0 }).updPath p fun h =>
        { h with vtgt := c.mv / 2, itgt := if c.kind = 3 then c.cur * 10 + 50 else 0x7FFF }
    else s
  | none => s

/-- The settled window of R95, on a port voltage in 2 mV. -/
def inSettled (c : Contract) (v : Nat) : Bool :=
  let diff := ((2 * v : Nat) : Int) - c.mv
  if c.programmable then decide (diff.natAbs * 100 ≤ c.mv + 4000) else decide (diff.natAbs * 100 ≤ 3 * c.mv)

/-- What a pace does to the count of settled paces. -/
def pdPace (vAvg : Nat) (d : Pd) : Pd :=
  match d.next with
  | some c => if d.slewing then { d with settled := if inSettled c vAvg then d.settled + 1 else 0 } else d
  | none => d

/-- What the first explicit contract of an attach starts: discovery (R130) and further cable attempts (R83). -/
def firstContractDone (s : State) (p : Nat) : State :=
  if (s.pd p).firstContract.isSome then s
  else
    let s := s.updPd p fun d => { d with firstContract := some s.frame }
    let s := if (s.sw p).dfp && (s.dc p).status = 0 then s.updDc p fun d => { d with startDue := some (s.frame + 5) } else s
    s.updVc p fun v =>
      if v.on && v.disc == 2 && v.further == 0 then { v with attemptsDue := some (s.frame + 1), further := 1 } else v

/-- R95: settled for 4 paces: the contract is in force and PS_RDY is sent. -/
def transitionSettled (p : Nat) (s : State) : State :=
  let d := s.pd p
  match d.next with
  | some c =>
    if s.serves p && s.policyRuns && (s.cc p).st == .attachedSrc && d.slewing && decide (4 ≤ d.settled) then
      let s := s.updPd p fun d =>
        { d with
          contract := c, next := none, nextIn := 0, slewing := false, settled := 0, eprCap := d.nextEprCap
          typecOver := false, typecFrom := none, typecP8 := 0
          hrRun := 0, lastEnd := 0, eprExit := if d.eprExit = 1 && c.kind ≤ 3 then 2 else d.eprExit }
      let s := s.updPath p Path.stepOver
      let s := ((s.send p [.psRdy]).seqOver p).rewait p
      let s := firstContractDone s p
      s.pushEvent 0x03 p (leBytes 4 (contractWord s p) ++ leBytes 2 (pdStatus s p))
    else s
  | none => s

/-- R97: 200 frames for an SPR contract, 400 for an EPR contract. -/
def phasesNotPlacedTimeout (p : Nat) (s : State) : State :=
  let d := s.pd p
  match d.next with
  | some c =>
    if sourcing s p && !d.slewing && !placedFor s p && s.framesSince d.acceptFrame (if 4 ≤ c.kind then 400 else 200) then
      s.hardReset p 8 true
    else s
  | none => s

/-- R101. -/
def ppsTimeout (p : Nat) (s : State) : State :=
  let d := s.pd p
  if sourcing s p && d.contract.kind == 3 && s.framesSince d.lastReq 14000 then s.hardReset p 5 true else s

/-! ### EPR (R103 to R105) -/

/-- R103: the first condition that fails, as the reason of Enter Failed; none when all pass. -/
def eprRefusal (s : State) (p : Nat) : Option Nat :=
  let d := s.pd p
  let v := s.vc p
  if !d.eprCap then some 3 else if !d.sentFlags.eprCapable || d.rev20 then some 5
  else if !v.eprOk then some 1
  else if !(v.on && v.good) then some 2
  else if portParam s p 0x26 = 1 && 100 < offerP s p then none else some 4

/-- R103: EPR_Mode (Enter) is acknowledged and the cable checked afresh (an attempt that runs is dropped for the fresh one), or refused with a reason; in EPR mode, within another
sequence or without an SPR contract it is unexpected (R107). -/
def eprModeEnter (p : Nat) (s : State) : State :=
  if sourcing s p then
    let s := s.sinkSpoke p
    let d := s.pd p
    if d.epr || d.next.isSome || (s.sw p).kind.isSome || d.eprEnter.isSome || (d.contract.kind != 2 && d.contract.kind != 3) then protoError s p
    else match eprRefusal s p with
      | some r => s.send p [.eprMode 4 r]
      | none =>
        ((s.updPd p fun d => { d.broken with eprEnter := some s.frame }).updVc p fun v =>
          { v with attempt := none, hostTry := false, attemptsDue := some s.frame, forEpr := true }).send p [.eprMode 2 0]
  else s

/-- R104; outside EPR mode the message is unexpected (R107). -/
def eprKeepalive (p : Nat) (s : State) : State :=
  if sourcing s p then
    let s := s.sinkSpoke p
    if (s.pd p).epr then s.send p [.keepAliveAck] else protoError s p
  else s

/-- R104: no message from the sink for 875 frames. -/
def eprKeepaliveTimeout (p : Nat) (s : State) : State :=
  let d := s.pd p
  if sourcing s p && d.epr && s.framesSince d.lastMsg 875 then s.hardReset p 6 true else s

/-- R105: EPR mode is left and an SPR set falls due within 10 frames. -/
def leaveEpr (s : State) (p : Nat) : State :=
  let s := s.updPd p fun d => { d with epr := false, eprExit := 0, eprEnter := none, cableChanged := true, capsDue := true, clear := true, collision := none }
  s.derive p

/-- R105: EPR_Mode (Exit) of the sink; outside EPR mode or within another sequence it is unexpected (R107). -/
def eprModeExit (p : Nat) (s : State) : State :=
  if sourcing s p then
    let s := s.sinkSpoke p
    if (s.pd p).epr && (s.pd p).next.isNone && (s.sw p).kind.isNone then leaveEpr s p else protoError s p
  else s

/-- R105: the exit's first step: EPR capabilities with positions 8 to 11 empty. -/
def eprExitCaps (s : State) (p : Nat) : State :=
  let s := s.derive p
  capsSent ((s.send p [capsMsg s p]).countUp p .caps) p

/-- R105: the part-started exit: the empty positions, then, after the SPR contract's PS_RDY, EPR_Mode (Exit). -/
def eprPartExit (p : Nat) (s : State) : State :=
  let d := s.pd p
  if sourcing s p && d.epr && s.mayBegin then
    if d.eprExit = 2 then s.startSeq p fun s => (((s.updPd p fun d => { d with epr := false, eprExit := 0 }).send p [.eprMode 5 0]).seqOver p)
    else if d.eprExit = 0 && eprDisallowed s p then s.startSeq p fun s => eprExitCaps s p
    else s
  else s

/-- R105: `EPR_EN` cleared in EPR mode starts the same exit. -/
def eprEnClear (p : Nat) (s : State) : State :=
  let d := s.pd p
  if sourcing s p && d.epr && s.mayBegin && d.eprExit == 0 && portParam s p 0x26 == 0 then s.startSeq p fun s => eprExitCaps s p else s

/-- R105, R111. -/
def loweredCapsTimeout (p : Nat) (s : State) : State :=
  if sourcing s p && s.ran (s.pd p).lowered 30 then s.hardReset p 7 true else s

/-! ### Messages answered (R106) -/

/-- No transition, swap, EPR entry or Soft_Reset is under way that makes a request of the partner unexpected. -/
def answered (s : State) (p : Nat) : Bool :=
  (s.pd p).next.isNone && (s.sw p).kind.isNone && (s.pd p).softReset.isNone && (s.pd p).eprEnter.isNone

/-- A request of the partner outside a transition or swap is answered; within one it is a protocol error (R107). -/
def answer (s : State) (p : Nat) (m : List PdTx) : State :=
  let s := s.sinkSpoke p
  if answered s p then s.send p m else protoError s p

/-- R106: Get_Source_Cap: the set derived for the frame. A sink's answer offers nothing that a request could name. -/
def getSourceCap (p : Nat) (s : State) : State :=
  if sourcing s p then
    if answered s p then (capsSent (answer s p [capsMsg s p]) p).countUp p .caps else answer s p []
  else if sinking s p then answer s p [.sourceCaps (capFlags s p) (deriveSet s p)]
  else s

/-- R106: the part's Sink_Capabilities: 5 V and 9 V at 3.00 A. -/
def sinkObjs : List FixedPdo := [{ pos := 1, mv := 5000, cur := 300 }, { pos := 2, mv := 9000, cur := 300 }]

def getSinkCap (p : Nat) (s : State) : State :=
  if attachedPd s p then answer s p [if s.otp.dualRole.testBit p then .sinkCaps sinkObjs else .notSupported] else s

def getSourceCapExtended (p : Nat) (s : State) : State :=
  let d := s.pd p
  if attachedPd s p then
    answer s p
      [if d.rev20 then .notSupported
       else .capsExtended s.otp.svid 0x2448 0 0x04 0xB1 3 0x03 (min d.sentP 100) (if d.epr then d.sentP else 0)]
  else s

def getStatus (p : Nat) (s : State) : State :=
  if attachedPd s p then
    answer s p [if (s.pd p).rev20 then .notSupported else .status (s.ridge (ridgeOfPort p)).tRidge true]
  else s

def getPpsStatus (p : Nat) (s : State) : State :=
  let h := s.path p
  if attachedPd s p then
    answer s p [if (s.pd p).rev20 then .notSupported else .ppsStatus h.fvAvg h.fiAvg (s.pd p).ppsLimitPrev]
  else s

/-- Port Maximum PDP of Source_Info (R106). -/
def maxPdp (s : State) (p : Nat) : Nat :=
  if (s.vc p).eprOk && portParam s p 0x26 == 1 then 240 else if (s.vc p).iCab = 500 then 100 else 60

def getSourceInfo (p : Nat) (s : State) : State :=
  if attachedPd s p then answer s p [.sourceInfo true (maxPdp s p) (s.ledger.port p).ceil (s.pd p).sentP] else s

def getRevision (p : Nat) (s : State) : State := if attachedPd s p then answer s p [.revision 3 2 1 0] else s

def alertReceived (p : Nat) (ado : Word32) (s : State) : State :=
  if attachedPd s p then (s.sinkSpoke p).pushEvent 0x04 p (leBytes 4 ado.toNat) else s

def unsupportedRequest (p : Nat) (s : State) : State := if attachedPd s p then answer s p [.notSupported] else s

/-! ### Hard Reset (R110, R127) and loss of conversion (R112) -/

def hardResetReceived (p : Nat) (s : State) : State :=
  if s.serves p && s.policyRuns && (s.cc p).st.attached && (s.cc p).detach == 0 then s.hardReset p 3 false else s

/-- R110 step 2: VBUS is taken down by energy return with the switch closed, toward 0.5 V (R170). -/
def hardResetTakedown (p : Nat) (s : State) : State :=
  let d := s.pd p
  if s.serves p && s.policyRuns && (s.cc p).st == .attachedSrc && s.ran d.hrFrame 30 && !d.takedown then
    (s.updPd p fun d => { d with takedown := true }).updPath p fun h => { h with pmode := if h.pmode = 0 then 0 else 2, retKind := 3, vtgt := 250 }
  else s

/-- R110 steps 3 to 5, 800 frames after take-down: 5 V, VCONN by R67, PD from cable discovery. -/
def hardResetRecover (p : Nat) (s : State) : State :=
  let d := s.pd p
  if s.serves p && s.policyRuns && (s.cc p).st == .attachedSrc && d.takedown && s.ran d.takenDown 800 then
    let s := s.updPath p fun h => { h with vtgt := 2500, retKind := 0, pmode := if h.pmode = 2 then 1 else h.pmode }
    let s := s.updPd p fun d => { d with hrFrame := none, takedown := false, takenDown := none, contract := typecContract (rpOf s p) }
    let s := s.updCc p fun c => { c with rp := rpOf s p, rpNext := none }
    let s := if (s.sw p).vconnBack then s.vconnOn p else s
    let s := s.updSw p fun w => { w with vconnSrc := (s.vc p).on, vconnBack := false }
    startPd s p
  else s

/-- R112, R196: no phase that can reach the port is free of exclusion. -/
def noneUsable (s : State) (p : Nat) : Bool := (reachable p).all fun k => (s.ledger.phase k).excl != 0

/-- R197: a port has lost its cover while in force; one in a transition waits (R97). -/
def coverLost (s : State) (p : Nat) : Bool := (s.ledger.port p).dropped && (s.pd p).next.isNone && s.inn.started

/-- R112, R208: the three cases; a port shed by voltage loses conversion at the next boundary; an allocation that waits for its steering change is no loss. -/
def conversionLost (s : State) (p : Nat) : Bool :=
  let c := s.cc p
  (s.ridge (ridgeOfPort p)).run == .stopped || (c.st == .attachedSrc && (!s.placed p && !c.alloc || coverLost s p || ((s.path p).shed && s.atBoundary)) && !s.seq.reduced) || (c.alloc && noneUsable s p && s.inn.started) ||
    (s.seq.reduced && (s.phase (8 * ridgeOfPort p + 2 * localOfPort p)).stopped)

def lossOfConversion (p : Nat) (s : State) : State :=
  if s.serves p && conversionLost s p then
    match (s.cc p).st with
    | .disabled => s
    | .outOfService => s
    | .errorRecovery => s.updCc p fun c => { c with toOutOfService := true }
    | _ => s.loseConversion p
  else s

/-- R112: Out of service is left at a boundary with FEEDLESS clear and a reachable phase that is not excluded. -/
def outOfServiceReturn (p : Nat) (s : State) : State :=
  let c := s.cc p
  if s.serves p && c.st == .outOfService && c.toOutOfService && s.atBoundary && !s.ledger.hdr.feedless && !noneUsable s p then
    (s.updCc p fun c => { c with toOutOfService := false }).home p
  else s

/-! ### Supervisor-absent hold (R113) -/

/-- R113: the CC hardware answers a request with Wait and a keep-alive with its acknowledge; either is a message that arrived (R101, R104). -/
def holdMessageAnswer (p : Nat) (keepAlive : Bool) (s : State) : State :=
  if s.serves p && s.sup.st == .hold && (s.cc p).st == .attachedSrc then
    if keepAlive then (if (s.pd p).epr then (s.updPd p fun d => { d with lastMsg := s.frame }).send p [.keepAliveAck] else s)
    else (s.updPd p fun d => { d.asked {} s.frame with lastMsg := s.frame }).send p [.wait]
  else s

/-- R113, R115: a Hard Reset in the hold opens the switch, applies the discharge and counts. -/
def holdHardReset (p : Nat) (s : State) : State :=
  if s.serves p && s.sup.st == .hold && (s.cc p).st.attached then
    (((s.updPath p Path.opened).discharge p false).countUp p .hrRcvd).updPd p fun d =>
      { d with hrInHold := true, hardResets := min 255 (d.hardResets + 1) }
  else s

/-! ### The sink role (R114) -/

/-- min(V × I, 27 W) in 10 µW. -/
def sinkPower (o : FixedPdo) : Nat := min (o.mv * o.cur) 2700000

/-- The object of the highest min(V × I, 27 W) at 20 V or below, the lowest voltage on a tie. -/
def bestObj : List FixedPdo → Option FixedPdo
  | [] => none
  | o :: os =>
    match bestObj os with
    | none => if o.mv ≤ 20000 && o.mv != 0 then some o else none
    | some b =>
      if o.mv ≤ 20000 && o.mv != 0 && (decide (sinkPower b < sinkPower o) || (sinkPower b == sinkPower o && decide (o.mv ≤ b.mv))) then some o else some b

def sinkSourceCapReceived (p : Nat) (objs : List FixedPdo) (s : State) : State :=
  if sinking s p && (s.sw p).kind.isNone then
    let go (o : FixedPdo) (cur : Nat) (s : State) : State :=
      (s.updPd p fun d =>
        { d with want := some { kind := 6, pos := o.pos, mv := o.mv, cur := cur, maxCur := cur }, awaiting := some s.frame, lastMsg := s.frame }).send p [.request o.pos cur]
    if s.seq.mode == .serviceBoot then go { pos := 1, mv := 5000, cur := 10 } 10 s
    else match bestObj objs with
      | some o => go o (min o.cur (2700000 / o.mv)) s
      | none => s
  else s

/-- R114: the source's Accept starts the 500-frame check; its PS_RDY establishes the contract. -/
def sinkAcceptReceived (p : Nat) (psRdy : Bool) (s : State) : State :=
  let d := s.pd p
  if sinking s p && (s.sw p).kind.isNone then
    if d.softReset.isSome then (if psRdy then s.heard p else s.updPd p fun d => { d with softReset := none, lastMsg := s.frame })
    else if psRdy then
      match d.next with
      | some c =>
        let s := s.updPd p fun d => { d with contract := c, next := none, hrRun := 0, lastEnd := 0, lastMsg := s.frame }
        let s := firstContractDone s p
        s.pushEvent 0x03 p (leBytes 4 (contractWord s p) ++ leBytes 2 (pdStatus s p))
      | none => s
    else match d.want with
      | some c =>
        s.updPd p fun d =>
          { d with next := some c, want := none, acceptFrame := s.frame, snkAccept := some s.frame, awaiting := none, lastMsg := s.frame }
      | none => s
  else s

/-- R114: VBUS not within ±5 % of the accepted voltage 500 frames after the Accept. -/
def sinkVbusCheckTimeout (p : Nat) (s : State) : State :=
  let d := s.pd p
  if sinking s p && s.ran d.snkAccept 500 then
    let mv := (d.next.getD d.contract).mv
    if ((s.vbus p : Int) - mv).natAbs * 20 ≤ mv then s.updPd p fun d => { d with snkAccept := none }
    else s.hardReset p 4 true
  else s

def execSourceCapSend (p : Nat) (goodCrc : Bool) (s : State) : Out := .next (s.policyRow p (.sourceCapSend p goodCrc) (sourceCapSend p goodCrc))
def execCollisionWaitExpiry (p : Nat) (s : State) : Out := .next (s.policyRow p (.collisionWaitExpiry p) (collisionWaitExpiry p))
def execCableDiscoverAttempt (p : Nat) (s : State) : Out := .next (s.policyRow p (.cableDiscoverAttempt p) (cableDiscoverAttempt p))
def execCableIdentityResponse (p : Nat) (c : CableId) (s : State) : Out := .next (s.policyRow p (.cableIdentityResponse p c) (cableIdentityResponse p c))
def execGoodcrcRetryFail (p : Nat) (sopPrime : Bool) (s : State) : Out := .next (s.policyRow p (.goodcrcRetryFail p sopPrime) (goodcrcRetryFail p sopPrime))
def execSenderResponseTimeout (p : Nat) (sopPrime : Bool) (s : State) : Out := .next (s.policyRow p (.senderResponseTimeout p sopPrime) (senderResponseTimeout p sopPrime))
def execRequestReceived (p : Nat) (q : PdRequest) (s : State) : Out := .next (s.policyRow p (.requestReceived p q) (requestReceived p q))
def execTransitionStart (p : Nat) (s : State) : Out := .next (s.policyRow p (.transitionStart p) (transitionStart p))
def execTransitionSettled (p : Nat) (s : State) : Out := .next (s.policyRow p (.transitionSettled p) (transitionSettled p))
def execPhasesNotPlacedTimeout (p : Nat) (s : State) : Out := .next (s.policyRow p (.phasesNotPlacedTimeout p) (phasesNotPlacedTimeout p))
def execPpsTimeout (p : Nat) (s : State) : Out := .next (s.policyRow p (.ppsTimeout p) (ppsTimeout p))
def execEprModeEnter (p : Nat) (s : State) : Out := .next (s.policyRow p (.eprModeEnter p) (eprModeEnter p))
def execEprKeepalive (p : Nat) (s : State) : Out := .next (s.policyRow p (.eprKeepalive p) (eprKeepalive p))
def execEprKeepaliveTimeout (p : Nat) (s : State) : Out := .next (s.policyRow p (.eprKeepaliveTimeout p) (eprKeepaliveTimeout p))
def execEprModeExit (p : Nat) (s : State) : Out := .next (s.policyRow p (.eprModeExit p) (eprModeExit p))
def execEprPartExit (p : Nat) (s : State) : Out := .next (s.policyRow p (.eprPartExit p) (eprPartExit p))
def execEprEnClear (p : Nat) (s : State) : Out := .next (s.policyRow p (.eprEnClear p) (eprEnClear p))
def execLoweredCapsTimeout (p : Nat) (s : State) : Out := .next (s.policyRow p (.loweredCapsTimeout p) (loweredCapsTimeout p))
def execGetSourceCap (p : Nat) (s : State) : Out := .next (s.policyRow p (.getSourceCap p) (getSourceCap p))
def execGetSinkCap (p : Nat) (s : State) : Out := .next (s.policyRow p (.getSinkCap p) (getSinkCap p))
def execGetSourceCapExtended (p : Nat) (s : State) : Out := .next (s.policyRow p (.getSourceCapExtended p) (getSourceCapExtended p))
def execGetStatus (p : Nat) (s : State) : Out := .next (s.policyRow p (.getStatus p) (getStatus p))
def execGetPpsStatus (p : Nat) (s : State) : Out := .next (s.policyRow p (.getPpsStatus p) (getPpsStatus p))
def execGetSourceInfo (p : Nat) (s : State) : Out := .next (s.policyRow p (.getSourceInfo p) (getSourceInfo p))
def execGetRevision (p : Nat) (s : State) : Out := .next (s.policyRow p (.getRevision p) (getRevision p))
def execAlertReceived (p : Nat) (ado : Word32) (s : State) : Out := .next (s.policyRow p (.alertReceived p ado) (alertReceived p ado))
def execUnsupportedRequest (p : Nat) (s : State) : Out := .next (s.policyRow p (.unsupportedRequest p) (unsupportedRequest p))
def execProtocolError (p : Nat) (s : State) : Out := .next (s.policyRow p (.protocolError p) (protocolError p))
def execSoftResetTimeout (p : Nat) (s : State) : Out := .next (s.policyRow p (.softResetTimeout p) (softResetTimeout p))
def execSoftResetReceived (p : Nat) (s : State) : Out := .next (s.policyRow p (.softResetReceived p) (softResetReceived p))
def execSourceCapRepeat (p : Nat) (goodCrc : Bool) (s : State) : Out := .next (s.policyRow p (.sourceCapRepeat p goodCrc) (sourceCapRepeat p goodCrc))
def execHardResetReceived (p : Nat) (s : State) : Out := .next (s.policyRow p (.hardResetReceived p) (hardResetReceived p))
def execHardResetTakedown (p : Nat) (s : State) : Out := .next (s.policyRow p (.hardResetTakedown p) (hardResetTakedown p))
def execHardResetRecover (p : Nat) (s : State) : Out := .next (s.policyRow p (.hardResetRecover p) (hardResetRecover p))
def execLossOfConversion (p : Nat) (s : State) : Out := .next (lossOfConversion p s)
def execOutOfServiceReturn (p : Nat) (s : State) : Out := .next (outOfServiceReturn p s)
def execHoldMessageAnswer (p : Nat) (keepAlive : Bool) (s : State) : Out := .next (holdMessageAnswer p keepAlive s)
def execHoldHardReset (p : Nat) (s : State) : Out := .next (holdHardReset p s)
def execSinkSourceCapReceived (p : Nat) (objs : List FixedPdo) (s : State) : Out := .next (s.policyRow p (.sinkSourceCapReceived p objs) (sinkSourceCapReceived p objs))
def execSinkAcceptReceived (p : Nat) (psRdy : Bool) (s : State) : Out := .next (s.policyRow p (.sinkAcceptReceived p psRdy) (sinkAcceptReceived p psRdy))
def execSinkVbusCheckTimeout (p : Nat) (s : State) : Out := .next (s.policyRow p (.sinkVbusCheckTimeout p) (sinkVbusCheckTimeout p))

end Sys2Proof.Machine
end

