-- ==== Sys2Proof/Machine/Feeds.lean ====
section
/-! DEFINITION. The feeds (R212 to R232, R474): the state machine of one feed, its protections, and its events. -/

namespace Sys2Proof.Machine

def feedParam (s : State) (x item : Nat) : Nat := s.inf 1 x item

/-- Whether the feed's window of OTP CONFIG is one (R405: otherwise it is empty). -/
def Feed.windowValid (f : Feed) : Bool :=
  decide (800 ≤ f.uv) && decide (f.uv ≤ 6000) && decide (800 ≤ f.ov) && decide (f.ov ≤ 6000) && decide (f.uv < f.ov)

/-- Within the window in a pace with `FA_SNS` at `v` (R213); after an overvoltage turn-off only once below 0.98 × OV. -/
def Feed.inWindow (f : Feed) (v : Nat) : Bool :=
  f.windowValid && decide (f.uv ≤ v) && decide (v ≤ f.ov) && (!f.ovSeen || decide (v * 100 < 98 * f.ov))

def Feed.conducting (f : Feed) : Bool := f.st == .ramp || f.st == .on

/-- The magnitude-largest of two signed samples. -/
def extreme (a b : Int) : Int := if a.natAbs < b.natAbs then b else a

/-- R212: the feed current in 10 mA: the shunt voltage in nV over `R_SENSE` in µΩ. -/
def shuntCur (rSense : Nat) (nv : Int) : Int := roundDiv nv (10 * rSense)

/-- R221: the fast-trip threshold as a shunt voltage in nV: twice `ILIM`, and at most 100 mV. -/
def fastTripNv (s : State) (x : Nat) : Nat := min 100000000 (20 * feedParam s x 0x15 * feedParam s x 0x11)

/-- R219: the path is fully on in a pace. -/
def pathFullyOn (m : FeedSense) : Bool := decide (8000 ≤ m.hsg) && decide (m.drop < 150)

/-- One pace of a feed's measurements (R212, R213, R219, R221, R226, R228, R474). -/
def feedPace (s : State) (x : Nat) (m : FeedSense) (f : Feed) : Feed :=
  let ov' := f.ovSeen && !decide (m.sns * 100 < 98 * f.ov)
  let w := ({ f with ovSeen := ov' } : Feed).inWindow m.sns
  let cond := f.conducting
  let cur := shuntCur (feedParam s x 0x11) m.shunt
  let startsTimer := cond && m.limAct && f.timer == 0
  let withheld := f.withheld || (startsTimer && f.st == .ramp && decide (3 ≤ f.onRun) && pathFullyOn m)
  { f with
    ovSeen := ov'
    sns := m.sns
    cur := cur
    window := w
    frameOk := f.frameOk.map (· && w)
    ilimAct := m.limAct
    timer := if cond && m.limAct then f.timer + 1 else f.timer
    timerOff := if m.limAct then 0 else f.timerOff + 1
    withheld := withheld
    onRun := if f.st == .ramp && pathFullyOn m && !m.limAct && !withheld then f.onRun + 1 else 0
    uvRun := if decide (m.sns < feedParam s x 0x12) then f.uvRun + 1 else 0
    revRun := if !f.odg && decide (cur * 50 < -(feedParam s x 0x15 : Int)) then f.revRun + 1 else 0
    n := f.n + 1
    vSum := f.vSum + m.sns
    vLo := if f.n = 0 then m.sns else min f.vLo m.sns
    dropRun := if 30 < m.drop then f.dropRun + 1 else 0
    iSum := f.iSum + cur
    iExt := if f.n = 0 then cur else extreme f.iExt cur
    pSum := f.pSum + m.sns * cur
    pgAll := f.pgAll && f.pg }

/-- The frame values of a feed and its insertion or return count, at a frame boundary (R337, R474). -/
def feedFrame (f : Feed) : Feed :=
  let counting := f.st == .qualify || f.st == .holdOff
  { f with
    vAvg := if f.n = 0 then f.vAvg else (roundDiv f.vSum f.n).toNat
    vMin := if f.n = 0 then f.vMin else f.vLo
    iAvg := if f.n = 0 then f.iAvg else roundDiv f.iSum f.n
    iPeak := if f.n = 0 then f.iPeak else f.iExt
    n := 0
    vSum := 0
    iSum := 0
    revPrev := f.rev
    rev := f.revNow
    count := if !counting then 0 else match f.frameOk with
      | some true => f.count + 1
      | some false => 0
      | none => f.count
    frameOk := if counting then some true else none }

/-- R209: a feed has power-good again: the next solve starts fresh at RT_V, outside dip state. -/
def Innkeeper.fresh (i : Innkeeper) : Innkeeper := { i with dip := false, dipHoldOver := false, dipClear := 0, feedless := 0, feedlessOut := false }

/-- Power-good changes: the event of R223. -/
def State.setPg (s : State) (x : Nat) (b : Bool) : State :=
  if (s.feed x).pg == b then s
  else
    let t := s.updFeed x fun f => { f with pg := b, pgFrame := if b then some s.frame else none }
    let t := if b && !(s.feed 0).pg && !(s.feed 1).pg then { t with inn := t.inn.fresh } else t
    t.pushEvent 0x28 x (leBytes 2 (feedStatus t x))

/-- A feed gives the ramp turn up; the next ramp starts at the first boundary after that (R218). -/
def State.giveTurn (s : State) (x : Nat) : State :=
  if s.rampTurn = some x then { s with rampTurn := none, turnFrom := s.frame + 1 } else s

/-- Whether a feed may take the turn (R218). -/
def State.turnFree (s : State) (x : Nat) : Bool := (s.rampTurn == none && decide (s.turnFrom ≤ s.frame)) || s.rampTurn == some x

/-- The ramp starts (R217): the turn is taken and the ideal-diode gate driven on. -/
def State.startRamp (s : State) (x : Nat) : State :=
  { s with rampTurn := some x }.updFeed x fun f =>
    { f with st := .ramp, rampFrame := s.frame, odg := !f.revNow, onRun := 0, timer := 0, timerOff := 0, withheld := false
             holdOv := false, count := 0, frameOk := none }

/-- Both gates off, power-good dropped (R222, R224). -/
def State.gatesOff (s : State) (x : Nat) (st : FeedSt) : State :=
  (s.updFeed x fun f =>
    { f with st := st, odg := false, onRun := 0, timer := 0, timerOff := 0, withheld := false, revNow := false
             count := 0, frameOk := none }).setPg x false

/-- R222: a trip discharges both gates, drops power-good, records its cause and consumes one retry. A feed that an overvoltage
turn-off of the same pace has put in Hold-off trips as from the state before it (R229). -/
def State.feedTrip (s : State) (x cause : Nat) : State :=
  let f := s.feed x
  let s1 := (s.raise (.feed x) (cause - 1)).updFeed x fun g =>
    { g with tripAt := some s.now, tripWas := f.trips, tripNew := !f.flt.sticky.getLsbD (cause - 1) }
  let s1 := if f.st == .holdOff && f.offTurn then { s1 with rampTurn := some x } else s1
  if f.trips < f.retries then
    (s1.gatesOff x .retryWait).updFeed x fun f => { f with lastTrip := cause, trips := f.trips + 1, tripFrame := s.frame }
  else
    (((s1.gatesOff x .latched).updFeed x fun f => { f with lastTrip := cause }).giveTurn x).raise (.feed x) 3

/-- R222, R229: a fast trip in the pace of a fault-timer trip: the one trip is recorded as a fast trip. -/
def State.timerToFast (s : State) (x : Nat) : State :=
  let f := s.feed x
  let st := if f.tripNew then f.flt.sticky &&& ~~~(0x0002 : Word) else f.flt.sticky
  (s.updFeed x fun f => { f with lastTrip := 1, flt := { f.flt with sticky := st } }).raise (.feed x) 0

/-- A voltage hold-off: no trip, no retry consumed (R215). -/
def State.feedHoldOff (s : State) (x : Nat) (ov : Bool) : State :=
  let turn := s.rampTurn == some x
  let timer := (s.feed x).timer
  (((s.gatesOff x .holdOff).updFeed x fun f =>
    { f with holdOv := ov, ovSeen := f.ovSeen || ov, offAt := if ov then some s.now else none, offTurn := turn, offTimer := timer }).giveTurn x).raise (.feed x)
    (if ov then 4 else 5)

/-- To Off, the trip count kept (R215, R229). -/
def State.feedOff (s : State) (x : Nat) : State := (s.gatesOff x .off).giveTurn x

/-- The logic is enabled: Qualify with the insertion count at 0 (R215). -/
def State.feedQualify (s : State) (x : Nat) : State :=
  s.updFeed x fun f => { f with st := .qualify, count := 0, frameOk := none, onRun := 0, holdOv := false }

/-- `ENABLE` as taken up (R215): 0 turns any state but Off to Off, 1 starts Qualify once step 6 has been reached. -/
def State.feedEnable (s : State) (x : Nat) : State :=
  let e := decide (feedParam s x 0x10 = 1)
  let f := s.feed x
  let t := s.updFeed x fun f => { f with enable := e }
  if !e then (if f.st == .off then t else t.feedOff x)
  else if f.armed && f.st == .off then t.feedQualify x else t

/-- A feed whose count or delay is complete and which stands within its window (R218); a Hold-off has met a boundary first (R474). -/
def State.feedReady (s : State) (x : Nat) : Bool :=
  let f := s.feed x
  f.window &&
    match f.st with
    | .qualify => decide (f.insDly ≤ f.count)
    | .holdOff => f.frameOk.isSome && decide (feedParam s x 0x18 ≤ f.count)
    | .retryWait => decide (f.tripFrame + feedParam s x 0x17 ≤ s.frame)
    | _ => false

/-- Feed A takes the turn first when both are ready (R218). -/
def State.mayRamp (s : State) (x : Nat) : Bool :=
  decide (x < 2) && s.atBoundary && s.feedReady x && s.turnFree x &&
    (decide (x = 0) || s.rampTurn == some x || !(s.feedReady 0))

/-- R215, R216, R474: the insertion delay is served; R218: the ramp starts when the turn is free. -/
def feedQualifyComplete (x : Nat) (s : State) : State :=
  if (s.feed x).st == .qualify && s.mayRamp x then s.startRamp x else s

/-- R215, R474: a pace not within the window sets the count back. -/
def feedWindowLoss (x : Nat) (s : State) : State :=
  let f := s.feed x
  if decide (x < 2) && (f.st == .qualify || f.st == .holdOff) && !f.window then
    s.updFeed x fun f => { f with count := 0, frameOk := none }
  else s

/-- R218: a feed that waited for the turn starts its ramp after the other feed gave it up. -/
def feedRampTurnTake (x : Nat) (s : State) : State := if s.mayRamp x then s.startRamp x else s

/-- R229: a trip can act: the path conducts, or an overvoltage turned it off in this very pace. -/
def Feed.mayTrip (f : Feed) (now : Nat) : Bool := f.conducting || (f.st == .holdOff && f.offAt == some now)

/-- R219, R229: the ramp has not ended within RAMP_TIME; with an overvoltage turn-off of this pace it is still the trip. -/
def feedRampTimeout (x : Nat) (s : State) : State :=
  let f := s.feed x
  let ramp := f.st == .ramp || (f.st == .holdOff && f.offAt == some s.now && f.offTurn)
  if decide (x < 2) && ramp && decide (f.rampFrame + feedParam s x 0x14 ≤ s.frame) then s.feedTrip x 3 else s

/-- R221: the fast trip; R229: with the fault timer in one pace it is one trip. -/
def feedFastTrip (x nv : Nat) (s : State) : State :=
  let f := s.feed x
  if decide (x < 2) && decide (fastTripNv s x ≤ nv) then
    if f.mayTrip s.now then s.feedTrip x 1
    else if f.tripAt == some s.now && f.lastTrip == 2 && (f.st == .retryWait || f.st == .latched) then s.timerToFast x
    else s
  else s

/-- R221, R229: the fault timer's FLT_TIME-th counted pace. -/
def feedFaultTimerTrip (x : Nat) (s : State) : State :=
  let f := s.feed x
  if decide (x < 2) && f.mayTrip s.now && decide (feedParam s x 0x16 ≤ if f.conducting then f.timer else f.offTimer) then s.feedTrip x 2 else s

/-- R221: 50 consecutive paces without the limit reset the timer. -/
def feedFaultTimerReset (x : Nat) (s : State) : State :=
  if decide (x < 2) && decide (50 ≤ (s.feed x).timerOff) then
    s.updFeed x fun f => { f with timer := 0, withheld := false }
  else s

/-- R213, R221: `FA_SNS` above OV. -/
def feedOvTurnoff (x sns : Nat) (s : State) : State :=
  if decide (x < 2) && (s.feed x).conducting && decide ((s.feed x).ov < sns) then s.feedHoldOff x true else s

/-- R214, R221: `FA_SNS` below UV_RUN in 4 consecutive paces. -/
def feedUvRun (x : Nat) (s : State) : State :=
  let f := s.feed x
  if decide (x < 2) && f.conducting && decide (4 ≤ f.uvRun) then s.feedHoldOff x false else s

/-- Power-good asserts as the ramp ends (R224); R241: step 6 qualifies. -/
def State.feedGood (s : State) (x : Nat) : State :=
  let t := ((s.updFeed x fun f => { f with st := .on }).giveTurn x).setPg x true
  if (t.seq.mode == .sequencing && t.seq.step == 6) || (t.seq.feedless && !t.seq.step7) then
    { t with seq := { t.seq with step6Good := true, step7Frame := some (t.seq.step7Frame.getD (s.frame + 1)) } }
  else t

/-- R219, R224, R229: the path was fully on in 4 consecutive paces. The fault logic of the pace comes first: a trip, then an overvoltage
turn-off, then a fall below UV_RUN; else power-good asserts, unless the fault timer withholds it. -/
def feedFullyOn (m : FeedOn) (s : State) : State :=
  let x := m.feed
  let f := s.feed x
  if decide (x < 2) && f.st == .ramp && decide (4 ≤ f.onRun) && !f.withheld then
    let t := feedUvRun x (feedOvTurnoff x (max m.sns f.sns) (feedFaultTimerTrip x (feedFastTrip x m.nv s)))
    if (t.feed x).st == .ramp then t.feedGood x else t
  else s

/-- R215, R474: the return delay is served; with RETURN_DLY 0 the first boundary within the window serves it. -/
def feedHoldoffReturn (x : Nat) (s : State) : State :=
  if (s.feed x).st == .holdOff && s.mayRamp x then s.startRamp x else s

/-- R215: the retry delay is over: the ramp, or Hold-off outside the window. -/
def feedRetryDelayEnd (x : Nat) (s : State) : State :=
  let f := s.feed x
  if decide (x < 2) && s.atBoundary && f.st == .retryWait && decide (f.tripFrame + feedParam s x 0x17 ≤ s.frame) then
    if f.window then (if s.mayRamp x then s.startRamp x else s)
    else (s.updFeed x fun f => { f with st := .holdOff, holdOv := decide (f.ov < f.sns), count := 0, frameOk := none }).giveTurn x
  else s

/-- R226: the node stands more than 10 mV above the feed; only the ideal-diode gate turns off. -/
def feedReverseTurnoff (x : Nat) (drop : Int) (s : State) : State :=
  if decide (x < 2) && (s.feed x).conducting && decide (drop < -10) then
    s.updFeed x fun f => { f with odg := false, rev := true, revNow := true, dropRun := 0 }
  else s

/-- R226: the drop has exceeded 30 mV in 2 consecutive paces: the gate turns on again. -/
def feedOdgTurnOn (x : Nat) (s : State) : State :=
  let f := s.feed x
  if decide (x < 2) && f.conducting && f.revNow && decide (2 ≤ f.dropRun) then s.updFeed x fun f => { f with odg := true, revNow := false } else s

/-- R228: reverse current through a gate that is held off, in 2 consecutive paces. -/
def feedIdealDiodeFault (x : Nat) (s : State) : State :=
  if decide (x < 2) && decide (2 ≤ (s.feed x).revRun) then s.raise (.feed x) 6 else s

/-- R222: power-good held for 1,000 consecutive frames clears the trip count. -/
def feedTripCountClear (x : Nat) (s : State) : State :=
  let f := s.feed x
  if decide (x < 2) && f.pg && s.ran f.pgFrame 1000 then s.updFeed x fun f => { f with trips := 0 } else s

def execFeedQualifyComplete (x : Nat) (s : State) : Out := .next (feedQualifyComplete x s)
def execFeedWindowLoss (x : Nat) (s : State) : Out := .next (feedWindowLoss x s)
def execFeedRampTurnTake (x : Nat) (s : State) : Out := .next (feedRampTurnTake x s)
def execFeedFullyOn (m : FeedOn) (s : State) : Out := .next (feedFullyOn m s)
def execFeedRampTimeout (x : Nat) (s : State) : Out := .next (feedRampTimeout x s)
def execFeedFastTrip (l : FeedLevel) (s : State) : Out := .next (feedFastTrip l.feed l.level s)
def execFeedFaultTimerTrip (x : Nat) (s : State) : Out := .next (feedFaultTimerTrip x s)
def execFeedFaultTimerReset (x : Nat) (s : State) : Out := .next (feedFaultTimerReset x s)
def execFeedOvTurnoff (l : FeedLevel) (s : State) : Out := .next (feedOvTurnoff l.feed l.level s)
def execFeedUvRun (x : Nat) (s : State) : Out := .next (feedUvRun x s)
def execFeedHoldoffReturn (x : Nat) (s : State) : Out := .next (feedHoldoffReturn x s)
def execFeedRetryDelayEnd (x : Nat) (s : State) : Out := .next (feedRetryDelayEnd x s)
def execFeedReverseTurnoff (d : FeedDrop) (s : State) : Out := .next (feedReverseTurnoff d.feed d.drop s)
def execFeedOdgTurnOn (x : Nat) (s : State) : Out := .next (feedOdgTurnOn x s)
def execFeedIdealDiodeFault (x : Nat) (s : State) : Out := .next (feedIdealDiodeFault x s)
def execFeedTripCountClear (x : Nat) (s : State) : Out := .next (feedTripCountClear x s)

end Sys2Proof.Machine
end

