-- ==== Sys2Proof/Machine/CmdOps.lean ====
section
/-! DEFINITION. Executing an accepted command packet (R287 to R293, R300): when its turn has come, and its refusal in service boot. -/

namespace Sys2Proof.Machine

/-- An accepted class 0 command that a boundary has made due is still waiting (R49, R291). -/
def zeroDue (s : State) (c : Option Cmd) : Bool :=
  match c with
  | some c => c.accepted && c.wait.isNone && decide (c.frame < s.frame)
  | none => false

/-- Class 0 work that has fallen due is still waiting. -/
def State.zeroWaits (s : State) : Bool := zeroDue s s.host.place0 || zeroDue s s.tun.place0

/-- The Innkeeper has made its solve of the frame, or has reached its cap (R49). -/
def State.solved (s : State) : Bool := !s.inn.started || s.inn.next.isSome || s.inn.capped

/-- A command of the same class group that is due and was accepted before `c` (R143). -/
def olderDue (s : State) (c : Cmd) (d : Option Cmd) : Bool :=
  match d with
  | some d => d.accepted && d.wait.isNone && decide (d.frame < s.frame) && (d.cls == 0) == (c.cls == 0) && decide (d.seqNo < c.seqNo)
  | none => false

def State.inTurn (s : State) (c : Cmd) : Bool :=
  !(olderDue s c s.host.place0 || olderDue s c s.host.place12 || olderDue s c s.tun.place0 || olderDue s c s.tun.place12)

/-- R47, R49, R51, R289, R291: an accepted command acts from the first boundary after its acceptance: class 0 at the boundary itself,
class 1 and 2 after the class 0 work and the Innkeeper's solve; R143: in the order of acceptance; R50: not while the interpreter is
suspended; R295: not once `VCORE` is gone. -/
def State.cmdDue (s : State) (c : Cmd) : Bool :=
  c.accepted && c.wait.isNone && s.locked && decide (c.frame < s.frame) && s.sup.st != .hold && !s.sup.cmdCapped && s.inTurn c &&
    (if c.cls == 0 then s.atBoundary else s.solved && !s.zeroWaits)

/-- The opcodes marked No under Boot (R299); the refusal of `PORT_DR_SWAP` there has DATA (R307) and is its own. -/
def bootNo (op : Nat) : Bool :=
  (decide (0x30 ≤ op) && decide (op ≤ 0x36) && op != 0x31) || op == 0x40 || op == 0x50 || op == 0x74 || (decide (0x80 ≤ op) && decide (op ≤ 0xA4)) ||
    op == 0xB3 || op == 0xB4 || op == 0xC0 || op == 0xC1

/-- The accepted packet at a place executes as opcode `op` where `act` holds of it (R300). -/
def State.runOp (s : State) (pl : Place) (op : Nat) (act : Cmd → Bool) (go : Cmd → State) : State :=
  match s.cmdAt pl with
  | some c =>
    if c.op == op && act c && s.cmdDue c then
      if s.seq.mode == .serviceBoot && bootNo op then s.finish pl stState [] else go c
    else s
  | none => s

def anyCmd (_ : Cmd) : Bool := true

/-- A byte and a 16-bit value of the parameters. -/
def Cmd.p8 (c : Cmd) (i : Nat) : Nat := rdB c.par i
def Cmd.p16 (c : Cmd) (i : Nat) : Nat := rdLe c.par i 2

/-- R293: whether a write of `c` to the named item is older than the item's last write. -/
def State.older (s : State) (c : Cmd) (name : Nat) : Bool :=
  match mapGet s.itemSeq name with
  | some n => decide (c.seqNo < n)
  | none => false

end Sys2Proof.Machine
end

