-- ==== Sys2Proof/Machine/Guard.lean ====
section
/-! DEFINITION. Phases, their stops (R44, R157), and the steering guard (R161 to R166). -/

namespace Sys2Proof.Machine

/-- The guard holds the phase (R162). -/
def Phase.held (f : Phase) : Bool := f.guard == .drain || f.guard == .count || f.guard == .brk

/-- The guard alone drives the phase's PWM, from the carrier start that loads the zero duty of the drain step (R43, R162, R164). -/
def Phase.guardDrives (f : Phase) : Bool := f.guard == .count || f.guard == .brk || (f.guard == .drain && f.zeroLoaded)

/-- The block serves a phase: it exists and the engine clock runs. -/
def State.hasPhase (s : State) (k : Nat) : Bool := decide (k < 48) && s.locked

/-- The port a phase is steered to (R20, R147). -/
def steeredPort (s : State) (k : Nat) : Option Nat := pairPort k (s.phase k).steer

/-- A phase with both legs off and its pairs open, the guard's sequence abandoned (R44, R166). -/
def Phase.off (f : Phase) : Phase := { f with active := 0, loaded := 0, pwmOff := true, steer := 0, guard := .free, req := 0, ramp := 0, up := 8 }

/-- A phase of a ridge that stops: a saddle phase and one in a guard sequence release `STEER_xx`; another keeps its home pair (R44,
R166). -/
def Phase.offWithRidge (f : Phase) : Phase := { f.off with steer := if f.steer = 2 || f.held then 0 else f.steer }

/-- A phase stops (R44, R157): PWM low, `STEER_xx` released, reported. -/
def State.stopPhase (s : State) (k bit : Nat) : State :=
  (s.updPhase k fun f => { f.off with stopped := true }).raise (.phase k) bit

/-- A ridge stops (R44): its phases off, its port switches open. -/
def State.stopRidge (s : State) (r bit : Nat) : State :=
  let s := overN 8 (fun k t => t.updPhase (8 * r + k) Phase.offWithRidge) s
  let s := overN 4 (fun q t => t.updPath (4 * r + q) Path.opened) s
  let s := s.updRidge r fun q => { q with run := .stopped, overrun := false, eng := { q.eng with running := false } }
  s.raise (.ridge r) bit

/-- GUARD_REASON (R264): local phase and reason of the first refusal since the last clear. -/
def reasonWord (k reason : Nat) : Word := BitVec.ofNat 16 (localOfPhase k * 256 + reason)

/-- R155: MODE of a phase. -/
def phaseMode (s : State) (k : Nat) : Nat :=
  let f := s.phase k
  if (recPort k (s.ledger.phase k)).isNone || !f.fitted || f.held then 0
  else match steeredPort s k with
    | some p => (s.path p).pmode
    | none => 0

/-- MODE and STAT of a phase's block (R147, R155). -/
def statPace (k : Nat) (s : State) : State :=
  let m := phaseMode s k
  s.updPhase k fun f => let f := { f with mode := m }; { f with stat := BitVec.ofNat 16 (phaseStat f) }

/-- R35, R147: what the guard does at cycle 0 of a pace stands in the STAT that the DMA of that pace writes. -/
def restat (k : Nat) (s : State) : State :=
  let r := ridgeOfPhase k
  let q := s.ridge r
  if q.run == .depopulated || q.eng.running || q.published then s
  else
    let s := statPace k s
    s.updRidge r fun q => { q with eng := { q.eng with x := cellsWrite q.eng.x (4 * localOfPhase k + 3) (s.phase k).stat } }

/-- R165: a refusal leaves the phase idle: on its old pair with PWM disabled, or with both pairs open. -/
def State.refuse (s : State) (k reason : Nat) : State :=
  let l := s.ledger.phase k
  let s := s.updPhase k fun f => { f with guard := .free, refused := true, active := 0, loaded := 0, pwmOff := true, slot := l.slot, slotTo := l.slot }
  let s := s.updRidge (ridgeOfPhase k) fun q =>
    { q with guardReason := if q.guardReason = 0 then reasonWord k reason else q.guardReason, nRefuse := sat1 q.nRefuse }
  s.raise (.ridge (ridgeOfPhase k)) 3

/-- The ledger in force places the phase as a request asks (R162). -/
def requestPlaced (s : State) (k r : Nat) : Bool :=
  let l := s.ledger.phase k
  if r = 3 then l.pair == 0 else l.pair == r && (l.st == 1 || l.st == 2)

/-- The STEER a request asks for. -/
def reqSteer (r : Nat) : Nat := if r = 3 then 0 else r

/-- R161, R162: a request received at cycle 0 of a pace. -/
def guardRequest (s : State) (k r : Nat) : State :=
  let f := s.phase k
  if r = 0 || reqSteer r = f.steer || f.held then s
  else if !f.fitted || f.stopped then s.refuse k 5
  else if !requestPlaced s k r then s.refuse k 4
  else
    s.updPhase k fun f =>
      { f with guard := .drain, gTarget := r, gAge := 0, gZc := 0, gBt := 0, gSettled := 0, zeroLoaded := false, zeroPrev := false
               gIzero := s.inf 4 k 0x05 }

/-- The pre-bias duty toward the target's node (R164). -/
def prebias (s : State) (k : Nat) (f : Phase) : Nat :=
  match pairPort k f.gTarget with
  | some p => roundDivNat (8192 * (s.path p).vAvg) (max 1 s.dev.vOred)
  | none => 0

/-- AVG of the previous pace lies below IZERO: 2 mA against 1 mA. -/
def zeroCurrent (f : Phase) : Bool := decide (2 * f.avg.natAbs < f.gIzero)

/-- R164: the guard's counts at cycle 0 of a pace that is not overrun-held. -/
def guardPace (s : State) (k : Nat) (f : Phase) : Phase :=
  match f.guard with
  | .drain => { f with gAge := f.gAge + 1, zeroPrev := f.zeroLoaded }
  | .count => { f with gAge := f.gAge + 1, gZc := if zeroCurrent f then f.gZc + 1 else 0 }
  | .brk => { f with gBt := f.gBt + 1, gSettled := if zeroCurrent f then f.gSettled + 1 else 0, active := prebias s k f }
  | _ => f

/-- R164: the zero duty loaded; PWM is disabled and counting begins. -/
def guardDrainZero (k : Nat) (s : State) : State :=
  let f := s.phase k
  if s.hasPhase k && f.guard == .drain && decide (1 ≤ f.gAge) && f.zeroPrev then
    restat k (s.updPhase k fun f => { f with guard := .count, gZc := 0, gAge := 0, pwmOff := true, active := 0, loaded := 0 })
  else s

/-- R164: no zero duty after 16 paces. -/
def guardDrainTimeout (k : Nat) (s : State) : State :=
  let f := s.phase k
  if s.hasPhase k && f.guard == .drain && decide (16 < f.gAge) && !f.zeroPrev then restat k (s.refuse k 1) else s

/-- R164: four zero-current paces: both pairs open, the break starts. -/
def guardZeroCountDone (k : Nat) (s : State) : State :=
  let f := s.phase k
  if s.hasPhase k && f.guard == .count && decide (4 ≤ f.gZc) then
    restat k (s.updPhase k fun f => { f with guard := .brk, steer := 0, gBt := 0, gSettled := 0, steerFrame := some s.frame, pwmOff := false })
  else s

/-- R164: 40 paces without four at zero current. -/
def guardCountTimeout (k : Nat) (s : State) : State :=
  let f := s.phase k
  if s.hasPhase k && f.guard == .count && decide (40 ≤ f.gAge) && decide (f.gZc < 4) then restat k (s.refuse k 2) else s

/-- The break and pre-bias are complete (R164). -/
def breakDone (f : Phase) : Bool := decide (10 ≤ f.gBt) && (f.gTarget == 3 || decide (2 ≤ f.gSettled))

/-- R164, R166, R167, R169: the pair closes if the ledger still places the phase there, the slot of its record is taken, and the phase
is freed at D = 0. -/
def guardBreakDone (k : Nat) (s : State) : State :=
  let f := s.phase k
  if s.hasPhase k && f.guard == .brk && breakDone f then
    let l := s.ledger.phase k
    let go := f.gTarget != 3 && requestPlaced s k f.gTarget
    let s := s.updPhase k fun f =>
      { f with
        slot := l.slot, slotTo := l.slot
        guard := .free, active := 0, loaded := 0, pwmOff := false, ramp := 0, up := if go then 0 else 8, rampPrev := 0, upPrev := if go then 0 else 8
        steer := if go then f.gTarget else 0 }
    restat k (if go && l.st = 2 then s.updRidge (ridgeOfPhase k) fun q => { q with nMigrate := sat1 q.nMigrate } else s)
  else s

/-- R164: pre-bias has not settled at 40 paces. -/
def guardPrebiasTimeout (k : Nat) (s : State) : State :=
  let f := s.phase k
  if s.hasPhase k && f.guard == .brk && decide (40 ≤ f.gBt) && !breakDone f then restat k (s.refuse k 3) else s

/-- R39, R40: a phase loads its active duty at its own carrier start; in the guard's drain step a zero duty disables its PWM there
and then (R43, R164). -/
def carrierStart (k : Nat) (s : State) : State :=
  if s.hasPhase k then
    s.updPhase k fun f =>
      let d := if f.pwmOff then 0 else f.active
      { f with loaded := d, cut := none, zeroLoaded := d == 0, pwmOff := f.pwmOff || (f.guard == .drain && d == 0) }
  else s

/-! ### The legs (R154) -/

/-- R154: an on-time in engine cycles; the shortest is 8 (log 73). -/
def onTime (x : Nat) : Nat := if x = 0 || 8 ≤ x then x else if Config.stretches x then 8 else 0

/-- R154: the engine cycles of the 800 of a carrier period in which the high side of `PWMA_xx` and the low side of `PWMB_xx` are on at
a duty; none where both legs are off. -/
def legDrive (d : Nat) : Option (Nat × Nat) :=
  if d < 82 then none
  else if 100 * d ≤ 90 * 8192 then some (onTime (roundDivNat (800 * d) 8192), 0)
  else if 100 * d < 110 * 8192 then some (720, onTime (roundDivNat (800 * d - 720 * 8192) d))
  else some (800, onTime (roundDivNat (800 * d - 800 * 8192) d))

/-- R157: an on-time that begins with the carrier period and that a comparator has ended. -/
def Phase.ended (f : Phase) (on : Nat) : Nat :=
  match f.cut with
  | some c => min c on
  | none => on

/-- What the legs of a phase do in its carrier period: off where its PWM is disabled or stopped; no longer on than a comparator lets. -/
def Phase.legs (f : Phase) : Option (Nat × Nat) :=
  if f.pwmOff || f.stopped then none else (legDrive f.loaded).map fun x => (f.ended x.1, f.ended x.2)

/-- R157, R171: a phase comparator sees a current in mA at or beyond its level: it ends the on-time for the rest of the carrier period and
sets PKLIM of the pace. -/
def peakValleyLimit (k : Nat) (ma : Int) (cyc : Nat) (s : State) : State :=
  if s.hasPhase k && (s.phase k).fitted && overPeak s k ma then
    s.updPhase k fun f => { f with pkNow := true, cut := some (f.ended cyc) }
  else s

/-- A fitted phase of a ridge that has not stopped. -/
def State.phaseLive (s : State) (k : Nat) : Bool :=
  s.hasPhase k && (s.phase k).fitted && !(s.phase k).stopped && (s.ridge (ridgeOfPhase k)).run != .stopped

/-- R157: PKLIM in 50 consecutive paces. -/
def pklimStop (k : Nat) (s : State) : State := if s.phaseLive k && decide (50 ≤ (s.phase k).pklimRun) then s.stopPhase k 1 else s

/-- R24, R157: a fitted phase reads absent while running. -/
def phaseAbsentRun (k : Nat) (s : State) : State :=
  if s.phaseLive k then (s.updPhase k fun f => { f with readsAbsent := true }).stopPhase k 2 else s

/-- R158, R264: four consecutive INV paces. A ROM law publishes 0 from here and flags the phase, which the Innkeeper excludes; what a loaded
program does with it is left to the program (R389). -/
def phaseInvStop (k : Nat) (s : State) : State :=
  if s.phaseLive k && decide (4 ≤ (s.phase k).invRun) then
    let s := if (s.ridge (ridgeOfPhase k)).bank.base = 0 then s else s.updPhase k fun f => { f with invOut := true, shadow := 0 }
    s.raise (.phase k) 3
  else s

/-- A ridge that has not stopped. -/
def State.ridgeLive (s : State) (r : Nat) : Bool :=
  decide (r < 6) && s.locked && ((s.ridge r).run == .running || (s.ridge r).run == .held)

/-- R264, R265: a stop cause of a ridge: it stops the ridge, and is recorded on one that has stopped already. -/
def State.stopBy (s : State) (r bit : Nat) : State :=
  if s.ridgeLive r then s.stopRidge r bit else if decide (r < 6) && s.locked && (s.ridge r).run == .stopped then s.raise (.ridge r) bit else s

/-- R157: `STGFLT_N_r` low in 2 consecutive paces. -/
def stageFault (r : Nat) (s : State) : State := if decide (2 ≤ (s.ridge r).stgfltRun) then s.stopBy r 4 else s

/-- `NTC_r` above T_DERATE + 30 °C, in 1/16 °C (R264 HOT). -/
def ridgeIsHot (s : State) (r : Nat) : Bool := decide ((16 * (s.inf 2 r 0x1C + 30) : Int) < (s.ridge r).tRidge)

/-- R264: a hot ridge stops. -/
def ridgeHot (r : Nat) (s : State) : State := if ridgeIsHot s r then s.stopBy r 6 else s

/-- `NTC_r` outside −50 °C to 175 °C (R264), in a ridge that is not depopulated (R455). -/
def ntcBad (q : Ridge) : Bool := q.run != .depopulated && (decide (q.tRidge < -800) || decide (2800 < q.tRidge))

/-- R264: `NTC_r` out of range. -/
def ntcOutOfRange (r : Nat) (s : State) : State :=
  if decide (r < 6) && s.locked && ntcBad (s.ridge r) then s.raise .therm r else s

def execGuardDrainZero (k : Nat) (s : State) : Out := .next (guardDrainZero k s)
def execGuardDrainTimeout (k : Nat) (s : State) : Out := .next (guardDrainTimeout k s)
def execGuardZeroCountDone (k : Nat) (s : State) : Out := .next (guardZeroCountDone k s)
def execGuardCountTimeout (k : Nat) (s : State) : Out := .next (guardCountTimeout k s)
def execGuardBreakDone (k : Nat) (s : State) : Out := .next (guardBreakDone k s)
def execGuardPrebiasTimeout (k : Nat) (s : State) : Out := .next (guardPrebiasTimeout k s)
def execCarrierStart (k : Nat) (s : State) : Out := .next (carrierStart k s)
def execPeakValleyLimit (x : PhaseCurrent) (s : State) : Out := .next (peakValleyLimit x.phase x.ma x.cyc s)
def execPklimStop (k : Nat) (s : State) : Out := .next (pklimStop k s)
def execPhaseAbsentRun (k : Nat) (s : State) : Out := .next (phaseAbsentRun k s)
def execPhaseInvStop (k : Nat) (s : State) : Out := .next (phaseInvStop k s)
def execStageFault (r : Nat) (s : State) : Out := .next (stageFault r s)
def execRidgeHot (r : Nat) (s : State) : Out := .next (ridgeHot r s)
def execNtcOutOfRange (r : Nat) (s : State) : Out := .next (ntcOutOfRange r s)

end Sys2Proof.Machine
end

