-- ==== Sys2Proof/Machine/Budget.lean ====
section
/-! DEFINITION. The first half of a solve (R183 to R195, R203, R205, R208): feed capacity, phase capacity, levels, ceilings and
floors. Powers of ports are in 1/8 W, voltages in 2 mV. -/

namespace Sys2Proof.Machine

/-! ### How much power there is (R184 to R186) -/

/-- F in units of 2 mV × 10 mA = 1/50,000 W, with an evaluation voltage for each feed. -/
def feedCap (s : State) (e : Nat → Nat) : Nat :=
  ((List.range 2).map fun x => if (s.feed x).pg then min (e x) (5 * (s.feed x).vAvg) * s.inf 1 x 0x19 else 0).sum

/-- The measured loss of up to 100 frames over the delivered energy, both in 1/8 mJ (R185). -/
def lossMeasured (s : State) : Nat × Nat :=
  let n := s.inn.feedHist.length
  let out := s.inn.outHist.sum.toNat
  ((s.inn.feedHist.sum - 8 * (s.inf 0 0 0x31 * n : Nat) - out).toNat, out)

/-- k of R185 as a fraction: the larger of LOSS_BOUND and the measured fraction plus 1 %. -/
def lossK (s : State) : Nat × Nat :=
  let (l, out) := lossMeasured s
  let bound := s.inf 0 0 0x32
  let (mn, md) := if out = 0 then (1, 100) else (100 * l + out, 100 * out)
  if bound * md < mn * 1000 then (mn, md) else (bound, 1000)

/-- B_phys as a fraction of eighths of a watt. -/
def bPhysFrac (s : State) (e : Nat → Nat) : Nat × Nat :=
  let (kn, kd) := lossK s
  (8 * (feedCap s e - s.inf 0 0 0x31 * 50000) * kd, 50000 * (kd + kn))

/-- B_phys at each feed's present voltage, in 1/8 W. -/
def bPhysNow (s : State) : Nat :=
  let (n, d) := bPhysFrac s fun x => 5 * (s.feed x).vAvg
  roundDivNat n d

/-- The evaluation voltage of a feed in 2 mV: RT_V, or its lowest frame average once a dip has passed its hold (R207). -/
def evalV (s : State) (x : Nat) : Nat := if s.inn.dip && s.inn.dipHoldOver then 5 * s.inn.dipLow.getD x 0 else s.inf 0 0 0x33

/-- B_use in 1/8 W, rounded down (R185). -/
def bUse (s : State) : Nat :=
  let (n, d) := bPhysFrac s (evalV s)
  min (8 * s.inf 0 0 0x30) (n / d)

/-- V_EVAL of the header: the lower of the good feeds' values. -/
def vEval (s : State) : Nat :=
  match (List.range 2).filter fun x => (s.feed x).pg with
  | [] => s.inf 0 0 0x33
  | x :: xs => xs.foldl (fun v y => min v (evalV s y)) (evalV s x)

/-- No feed has power-good. -/
def noFeed (s : State) : Bool := !(s.feed 0).pg && !(s.feed 1).pg

/-! ### Phases (R187) -/

/-- A phase being retired has been freed open (R439). -/
def retireDone (s : State) (k : Nat) : Bool :=
  (s.retiring.any fun r => r.1 == k) && (s.phase k).steer == 0 && !(s.phase k).held

/-- Pin 3 excludes a phase, but not phase 2q while its port needs an allocation (R211). -/
def pinIdle (s : State) (k : Nat) : Bool :=
  let home := k / 2
  s.inf 4 k 0x02 == 3 && !(k % 2 == 0 && (s.cc home).alloc && (s.port home).inService)

/-- EXCL of R202: the first ground of R187 that holds; 0 none. The pin of a phase excluded for another reason is set aside (R211). -/
def exclCode (s : State) (k : Nat) : Nat :=
  let f := s.phase k
  if !f.fitted then 1
  else if f.stopped || (s.ridge (ridgeOfPhase k)).run == .stopped then 2
  else if f.refused then 3
  else if f.retired || retireDone s k then 4
  else if f.invOut then 6
  else if pinIdle s k then 5 else 0

/-- d_T of R187 in 1/640, with the two rows of R264 that price a ridge at 0.5. -/
def thermal (s : State) (r : Nat) : Nat :=
  let t := (s.ridge r).tRidge
  let td : Int := 16 * s.inf 2 r 0x1C
  if s.dev.dieWarn || decide (t < -800) || decide (2800 < t) then 320
  else if t ≤ td then 640 else if t ≤ td + 320 then (640 - (t - td)).toNat else 320

/-- The units of C_ph: 1/32,000,000 W. -/
def capUnit : Nat := 32000000

/-- C_ph of a phase at a voltage, whatever excludes it (R187). -/
def capRaw (s : State) (k v : Nat) : Nat :=
  thermal s (ridgeOfPhase k) * s.inf 4 k 0x0B * min 60000 (12 * min v s.dev.vOredMin)

/-- C_ph in 1/32,000,000 W: zero for an excluded phase. -/
def capOf (s : State) (k v : Nat) : Nat := if exclCode s k = 0 then capRaw s k v else 0

/-! ### What a port must carry (R188) -/

/-- An attached source port whose attach stands. -/
def isSource (s : State) (p : Nat) : Bool := (s.port p).inService && (s.cc p).st == .attachedSrc && (s.cc p).detach == 0

def isWaitSrc (s : State) (p : Nat) : Bool := (s.port p).inService && (s.cc p).st == .attachWaitSrc

/-- A contract's power in 10 µW. -/
def Contract.p5 (c : Contract) : Nat := c.mv * c.cur

/-- The contract a source port carries now; an attached port without one offers its Type-C current. -/
def carried (s : State) (p : Nat) : Contract :=
  let c := (s.pd p).contract
  if c.kind = 0 then typecContract (s.cc p).rp else c

/-- The contract that decides P_c and V_c: during a transition the larger of the old and the new. -/
def coverContract (s : State) (p : Nat) : Contract :=
  match (s.pd p).next with
  | some n => if (carried s p).p5 < n.p5 then n else carried s p
  | none => carried s p

/-- P_c in eighths, rounded up to a whole watt (R190 level 3). -/
def pcLevel (s : State) (p : Nat) : Nat := ((coverContract s p).p5 + 99999) / 100000 * 8

/-- The contract in force against a ceiling, in 1/800,000 W: how far it exceeds it. -/
def excess (s : State) (p ceil : Nat) : Nat :=
  let c := carried s p
  let p8 := if (s.pd p).typecOver then max (c.p5 * 8) ((s.pd p).typecP8 * 100000) else c.p5 * 8
  p8 - ceil * 100000

/-! ### Levels (R190 to R194) -/

/-- A target capped at P_MAX and at a nonzero CEIL_MAX. -/
def capTarget (s : State) (p t : Nat) : Nat :=
  let m := portParam s p 0x24
  let t := min t (portParam s p 0x23)
  if m = 0 then t else min t m

/-- The target of a port at a level before its caps. -/
def rawTarget (s : State) (p level : Nat) : Nat :=
  if isSource s p then
    match level with
    | 1 => 20
    | 2 => portParam s p 0x22
    | 3 => pcLevel s p
    | 4 => ((s.pd p).unmet + 99999) / 100000 * 8
    | _ => portParam s p 0x23
  else if isWaitSrc s p then (match level with
    | 1 => 20
    | 2 => portParam s p 0x22
    | _ => 0)
  else 0

def target (s : State) (p level : Nat) : Nat := capTarget s p (rawTarget s p level)

/-- CEIL_MAX lowered a target. -/
def isCapped (s : State) (p : Nat) : Bool :=
  (List.range 5).any fun l => decide (target s p (l + 1) < min (rawTarget s p (l + 1)) (portParam s p 0x23))

/-- V_hi of R193. -/
def vHi (s : State) (p : Nat) : Nat := if (s.vc p).eprOk then 24000 else 10000

/-- The pair of local phase j in the assignment numbered a: bit j clear is home. -/
def bitPair (a j : Nat) : Nat := if a.testBit j then 2 else 1

/-- The capacity an assignment of all phases gives a port at a voltage. -/
def assignCap (s : State) (r a p v : Nat) : Nat :=
  ((List.range 8).map fun j => if pairPort (8 * r + j) (bitPair a j) = some p then capOf s (8 * r + j) v else 0).sum

/-- R193: some assignment gives every port of the ridge what it needs. -/
def roomFor (s : State) (need : Nat → Nat) (r : Nat) : Bool :=
  (List.range 256).any fun a => (List.range 4).all fun q =>
    decide (need (4 * r + q) * (capUnit / 8) ≤ assignCap s r a (4 * r + q) (vHi s (4 * r + q)))

/-- R203: the contract that the room of a source port has to hold besides its grant, in eighths: the one in force, or the one
accepted. Where a ridge no longer has room for its contracts, cover is dropped (R197) and its room is that of the grants alone. -/
def contractRoom (s : State) (p : Nat) : Nat := if isSource s p then ((coverContract s p).p5 * 8 + 99999) / 100000 else 0

def contractRooms (s : State) : List Nat :=
  (List.range 24).map fun p => if roomFor s (contractRoom s) (p / 4) then contractRoom s p else 0

/-- A water-fill in progress: grants, budget left, ports stopped by room, and the contracts that the room holds. -/
structure Fill where
  g : List Nat := List.replicate 24 0
  left : Nat := 0
  stop : List Nat := []
  keep : List Nat := []
deriving DecidableEq, Repr, Inhabited

/-- R193, R203: the room of a ridge holds every port's grant, and every contract above it. -/
def roomOk (s : State) (keep g : List Nat) (r : Nat) : Bool := roomFor s (fun p => max (g.getD p 0) (keep.getD p 0)) r

/-- One eighth more for a port, if its room allows; the budget is counted by the caller. -/
def raiseBy1 (s : State) (f : Fill) (p : Nat) : Fill :=
  let g := f.g.set p (f.g.getD p 0 + 1)
  if roomOk s f.keep g (p / 4) then { f with g } else { f with stop := p :: f.stop }

/-- The round that brings the ports of a group below a common grant x up to it. -/
def fillRound (s : State) (group : List Nat) (level x : Nat) (f : Fill) : Fill :=
  group.foldl (fun f p => if f.g.getD p 0 < min x (target s p level) && !f.stop.contains p then raiseBy1 s f p else f) f

/-- The eighths left over go one each, in ascending port number, to the ports that stand at the common grant below x (R191, Frame B). -/
def fillRest (s : State) (group : List Nat) (level x : Nat) (f : Fill) : Fill :=
  group.foldl (fun f p =>
    if 0 < f.left && f.g.getD p 0 < min x (target s p level) && !f.stop.contains p then
      let f' := raiseBy1 s f p
      if f'.g == f.g then f' else { f' with left := f'.left - 1 }
    else f) f

/-- R191: rounds at rising common grants while the budget carries them whole. -/
def fillRounds (s : State) (group : List Nat) (level : Nat) : Nat → Nat → Fill → Fill
  | 0, _, f => f
  | n + 1, x, f =>
    let f' := fillRound s group level x f
    let cost := f'.g.sum - f.g.sum
    if cost ≤ f.left then fillRounds s group level n (x + 1) { f' with left := f.left - cost }
    else fillRest s group level x f

def fillGroup (s : State) (level : Nat) (group : List Nat) (f : Fill) : Fill := fillRounds s group level 1920 1 { f with stop := [] }

def allPorts : List Nat := List.range 24

def tierPorts (s : State) (t : Nat) : List Nat := allPorts.filter fun p => portParam s p 0x21 == t

def fillTiers (s : State) (level : Nat) (f : Fill) : Fill := (List.range 4).foldl (fun f t => fillGroup s level (tierPorts s t) f) f

/-- The grants after each level 1 to 5 (R190, R192). -/
def grants (s : State) : List (List Nat) :=
  let g1 := allPorts.map fun p => target s p 1
  let b := bUse s
  if b < g1.sum then [g1, g1, g1, g1, g1]
  else
    let f1 : Fill := { g := g1, left := b - g1.sum, keep := contractRooms s }
    let f2 := fillTiers s 2 f1
    let f3 := fillTiers s 3 f2
    let f4 := fillTiers s 4 f3
    let f5 := fillGroup s 5 allPorts f4
    [g1, f2.g, f3.g, f4.g, f5.g]

/-- LEVEL of R202: the highest level at which the grant grew. -/
def grantLevel (gs : List (List Nat)) (p : Nat) : Nat :=
  (List.range 5).foldl (fun l i =>
    let before := if i = 0 then 0 else (gs.getD (i - 1) []).getD p 0
    if before < (gs.getD i []).getD p 0 then i + 1 else l) 0

/-! ### Overdraw (R203, R205) -/

/-- The order in which ports lose cover: tier 3 first, the largest overdraw, then the highest port number (R205). -/
def losesBefore (s : State) (ex : Nat → Nat) (a b : Nat) : Bool :=
  let ta := portParam s a 0x21
  let tb := portParam s b 0x21
  decide (tb < ta) || (ta == tb && (decide (ex b < ex a) || (ex a == ex b && decide (b < a))))

/-- Insertion into a list ordered by `losesBefore`. -/
def insertPort (before : Nat → Nat → Bool) (p : Nat) : List Nat → List Nat
  | [] => [p]
  | q :: qs => if before p q then p :: q :: qs else q :: insertPort before p qs

def sortPorts (before : Nat → Nat → Bool) (l : List Nat) : List Nat := l.foldr (insertPort before) []

/-- Ports that lose cover, in order, until ceilings and overdraw fit the budget (1/800,000 W). -/
def loseUntil (cost : Nat → Nat) (limit : Nat) : List Nat → Nat → List Nat
  | [], _ => []
  | p :: ps, total => if total ≤ limit then [] else p :: loseUntil cost limit ps (total - cost p)

/-- R205: the ports in overdraw that lose their cover, and then R192: where the level-1 grants that are left do not fit the feeds, further
ports, in the same order. While no feed is good the level-1 grants stay (R209: ceilings and placement are frozen). -/
def lostPorts (s : State) (ceil : Nat → Nat) : List Nat :=
  let ex := fun p => if isSource s p then excess s p (ceil p) else 0
  let first := sortPorts (losesBefore s ex) (allPorts.filter fun p => decide (0 < ex p))
  let cost := fun p => ceil p * 100000 + ex p
  let (n, d) := bPhysFrac s fun x => 5 * (s.feed x).vAvg
  let limit := 100000 * n / d
  let out := loseUntil cost limit first ((allPorts.map cost).sum)
  let commit := fun p => target s p 1 * 100000
  let left := allPorts.filter fun p => !out.contains p
  let next := sortPorts (losesBefore s ex) (left.filter fun p => isSource s p || isWaitSrc s p)
  if !noFeed s && decide (bUse s < (allPorts.map fun p => target s p 1).sum) then out ++ loseUntil commit limit next ((left.map commit).sum)
  else out

/-! ### Shed thresholds (R208) -/

/-- The delivered power of the ports of tiers 0 to t in the previous frame, 1/8 W. -/
def tierPower (s : State) (t : Nat) : Int :=
  ((allPorts.filter fun p => decide (portParam s p 0x21 ≤ t)).map s.delivered).sum

/-- SHED_Vt in 2 mV. -/
def shedThreshold (s : State) (t : Nat) : Nat :=
  let rt := s.inf 0 0 0x33
  if noFeed s then roundDivNat ((5 + t) * rt) 10
  else
    let (kn, kd) := lossK s
    let imax := ((List.range 2).map fun x => if (s.feed x).pg then s.inf 1 x 0x19 else 0).sum
    let dt := (tierPower s t).toNat
    roundDivNat (11 * (dt * (kd + kn) + 8 * s.inf 0 0 0x31 * kd) * 50000) (80 * kd * imax)

end Sys2Proof.Machine
end

