-- ==== Sys2Proof/Machine/Placement.lean ====
section
/-! DEFINITION. The second half of a solve (R189, R196 to R200): which phases serve which ports, at what cost, and their slots. -/

namespace Sys2Proof.Machine

/-! ### Steering as a solve sees it (R169, R199) -/

/-- A steering change of the phase is in progress: the guard holds it, or a migration of the ledger in force is not yet done. -/
def changing (s : State) (k : Nat) : Bool :=
  let l := s.ledger.phase k
  (s.phase k).held || (l.st == 2 && (s.phase k).steer != l.pair && !(s.phase k).refused)

/-- The pair a phase stands on, or is changing to. -/
def effSteer (s : State) (k : Nat) : Nat :=
  let f := s.phase k
  if f.held then reqSteer f.gTarget else if changing s k then (s.ledger.phase k).pair else f.steer

/-- Steering changes a solve may begin in a ridge: two less those in progress; none while a bank switch is pending (R383). -/
def changeLimit (s : State) (r : Nat) : Nat :=
  if (s.ridge r).switchPending then 0 else 2 - ((List.range 8).filter fun j => changing s (8 * r + j)).length

/-! ### Allocations (R196) -/

/-- The ports of a ridge with an allocation request, but for those that have lost their cover (R192). -/
def allocPorts (s : State) (r : Nat) (lost : List Nat) : List Nat :=
  ((List.range 4).map (4 * r + ·)).filter fun p => (s.cc p).alloc && (s.port p).inService && !lost.contains p

/-- The phase can be placed at all: not excluded, not being retired or readmitted. -/
def usable (s : State) (k : Nat) : Bool :=
  exclCode s k == 0 && !(s.retiring.any fun r => r.1 == k) && !s.readmitting.contains k

/-- The pair by which a phase reaches a port. -/
def pairTo (k p : Nat) : Nat := if pairPort k 1 = some p then 1 else 2

/-- A phase pinned to the pair that leads away from a port. -/
def pinnedAway (s : State) (k p : Nat) : Bool :=
  let pin := s.inf 4 k 0x02
  pin != 0 && pin != pairTo k p

/-- The phase that serves an allocation, if any; and whether a pin is set aside for it. -/
def allocPhase (s : State) (p : Nat) : Option (Nat × Bool) :=
  let home := 2 * p
  if usable s home then some (home, pinnedAway s home p)
  else
    let others := (reachable p).filter fun k => k != home && usable s k
    match others.find? fun k => !pinnedAway s k p with
    | some k => some (k, false)
    | none => others.head?.map fun k => (k, true)

/-- The phase a request of the ridge forces onto a port. -/
def forcedPair (s : State) (allocs : List Nat) (k : Nat) : Option Nat :=
  (allocs.find? fun p => (allocPhase s p).map (·.1) == some k).map (pairTo k)

/-! ### Options of a phase (R197, R211) -/

/-- A port in the sink role that its first home phase serves (R174, R195). -/
def isSink (s : State) (p : Nat) : Bool := (s.port p).inService && (s.cc p).st == .attachedSnk && (s.cc p).detach == 0

/-- A port whose running phases stay on their pairs (R197). -/
def inReturn (s : State) (p : Nat) : Bool := (s.path p).pmode == 2 && s.placed p

/-- A port that has to be covered in this solve. -/
def wants (s : State) (dropped : List Nat) (p : Nat) : Bool := isSource s p && !(s.path p).shed && !dropped.contains p

/-- The sinks of a ridge whose phase 2q runs in sink-reverse mode on its home pair (R174, R195), where its pin allows (R211). -/
def sinkPorts (s : State) (r : Nat) : List Nat :=
  ((List.range 4).map (4 * r + ·)).filter fun p => isSink s p && usable s (2 * p) && s.inf 4 (2 * p) 0x02 != 2

/-- What a solve fixes before it searches: the allocations it makes, the sinks it serves, and the ports that have lost their cover. -/
structure Fixed where
  allocs : List Nat := []
  sinks : List Nat := []
  lost : List Nat := []
deriving DecidableEq, Repr, Inhabited

/-- The pairs a phase may be placed on: 0 none, 1 home, 2 neighbour. A port in return mode keeps its phases though its cover is dropped; pin 3
of a phase 2q whose allocation waits is still its pin. -/
def options (s : State) (x : Fixed) (dropped : List Nat) (k : Nat) : List Nat :=
  let pin := s.inf 4 k 0x02
  let home := 4 * (k / 8) + k % 8 / 2
  let neigh := 4 * (k / 8) + (k % 8 / 2 + 1) % 4
  let kept := match recPort k (s.ledger.phase k) with
    | some p => inReturn s p && !x.lost.contains p
    | none => false
  if !usable s k then [0]
  else match forcedPair s x.allocs k with
    | some pr => [pr]
    | none =>
      if kept then [(s.ledger.phase k).pair]
      else if pin = 3 then [0]
      else if k % 2 = 0 && x.sinks.contains home then [1]
      else 0 :: ((if wants s dropped home && pin != 2 then [1] else []) ++ (if wants s dropped neigh && pin != 1 then [2] else []))

/-- Every way of taking one element of each list. -/
def products : List (List Nat) → List (List Nat)
  | [] => [[]]
  | o :: os => let rest := products os; o.flatMap fun x => rest.map (x :: ·)

/-- The phases an assignment places on a port. -/
def assigned (r : Nat) (a : List Nat) (p : Nat) : List Nat :=
  ((List.range 8).filter fun j => pairPort (8 * r + j) (a.getD j 0) == some p).map (8 * r + ·)

/-- Σ C_ph over phases at a voltage. -/
def capSum (s : State) (ks : List Nat) (v : Nat) : Nat := (ks.map fun k => capOf s k v).sum

/-- The port has its phases in place (R188): P_c in 10 µW against 1/32,000,000 W. -/
def covers (s : State) (p : Nat) (ks : List Nat) : Bool :=
  let c := coverContract s p
  !ks.isEmpty && decide (c.p5 * 320 ≤ capSum s ks (c.mv / 2))

/-! ### Changes (R198, R199) -/

def moves (s : State) (r : Nat) (a : List Nat) : List Nat :=
  ((List.range 8).filter fun j => a.getD j 0 != 0 && a.getD j 0 != effSteer s (8 * r + j)).map (8 * r + ·)

/-- R198: a shed phase may keep the pair that leads to a port. -/
def mayStay (s : State) (p : Nat) : Bool :=
  let v := s.dev.vOredMin
  let d := s.pd p
  let below (x : Nat) : Bool := decide (11 * x < 10 * v)
  below (d.contract.mv / 2) && below ((d.next.getD {}).mv / 2) && below (s.path p).fvMax

/-- A phase placed on no port has to be steered open: its port stands too high, it is excluded or being retired. An absent or a stopped phase
has no change to make (R165). -/
def mustOpen (s : State) (k : Nat) : Bool :=
  let st := effSteer s k
  st != 0 && exclCode s k != 1 && exclCode s k != 2 && (!usable s k || match pairPort k st with
    | some p => !mayStay s p
    | none => false)

/-- R165: the next ledger records a phase refused or excluded by INV with PAIR open while it still shows a closed pair: this opening does not
wait. -/
def forcedOpen (s : State) (k : Nat) : Bool := (exclCode s k == 3 || exclCode s k == 6) && effSteer s k != 0 && !changing s k

def forcedOpens (s : State) (r : Nat) : List Nat := ((List.range 8).map (8 * r + ·)).filter (forcedOpen s)

/-- The steering changes to a pair that a solve may begin in a ridge, beside the openings that do not wait. -/
def moveLimit (s : State) (r : Nat) : Nat := changeLimit s r - (forcedOpens s r).length

/-- The moves that begin a steering change of their own: a phase that an allocation calls home from a change still under way goes on
within that change (R169, R196). -/
def limitMoves (s : State) (r : Nat) (allocs a : List Nat) : List Nat :=
  (moves s r a).filter fun k => !(changing s k && (forcedPair s allocs k).isSome)

def openings (s : State) (r : Nat) (a : List Nat) : List Nat :=
  ((List.range 8).filter fun j => a.getD j 0 == 0 && mustOpen s (8 * r + j) && !changing s (8 * r + j) && !s.readmitting.contains (8 * r + j)).map (8 * r + ·)

/-- The openings that begin: those that do not wait, and as many more as the limit lets begin; the others wait (R198, R199). -/
def begun (s : State) (r : Nat) (allocs a : List Nat) : List Nat :=
  forcedOpens s r ++ ((openings s r a).filter fun k => !forcedOpen s k).take (moveLimit s r - (limitMoves s r allocs a).length)

def changeCount (s : State) (r : Nat) (allocs a : List Nat) : Nat := (moves s r a).length + (begun s r allocs a).length

/-! ### Shares (R197) -/

/-- c_T in units that cancel in a share (R189). -/
def cT (s : State) (k : Nat) : Nat := s.inf 4 k 0x0A * (14400 + 4 * (s.ridge (ridgeOfPhase k)).tRidge).toNat

/-- The weight of a phase: the reciprocal of c_T; where c_T is 0 the spec gives no share, and such phases share alike. -/
def weight (s : State) (ks : List Nat) (k : Nat) : Rat :=
  if ks.any fun j => cT s j == 0 then (if cT s k = 0 then 1 else 0) else 1 / (cT s k : Rat)

/-- The largest share of a port's P_c that C_ph lets a phase take. -/
def shareCap (s : State) (p k : Nat) : Rat :=
  let c := coverContract s p
  if c.p5 = 0 then 1 else (capOf s k (c.mv / 2) : Rat) / (c.p5 * 320 : Nat)

def ratSum (l : List Rat) : Rat := l.foldl (· + ·) 0

/-- Shares after `n` rounds of capping: the capped phases, and the others in proportion. -/
def capShares (s : State) (p : Nat) (ks : List Nat) : Nat → List Nat → Nat → Rat
  | 0, capped, k => if capped.contains k then shareCap s p k else 0
  | n + 1, capped, k =>
    let free := ks.filter fun j => !capped.contains j
    let room := 1 - ratSum (capped.map (shareCap s p))
    let total := ratSum (free.map (weight s ks))
    let part := fun j => if total = 0 then 0 else room * weight s ks j / total
    let more := free.filter fun j => decide (shareCap s p j < part j)
    if free.isEmpty then
      let caps := ratSum (ks.map (shareCap s p))
      if caps = 0 then 0 else shareCap s p k / caps
    else if more.isEmpty then (if capped.contains k then shareCap s p k else part k)
    else capShares s p ks n (capped ++ more) k

/-- SHARE of each phase of a port, in 1/0x8000, the remainder to the largest (R197). -/
def shares (s : State) (p : Nat) (ks : List Nat) : List (Nat × Nat) :=
  let raw := ks.map fun k => (k, ((capShares s p ks 5 [] k) * 32768).floor.toNat)
  let rem := 32768 - (raw.map (·.2)).sum
  let top := (raw.map (·.2)).foldl max 0
  match raw.find? fun x => x.2 == top with
  | some (k, _) => raw.map fun x => if x.1 = k then (k, x.2 + rem) else x
  | none => []

def shareOf (l : List (Nat × Nat)) (k : Nat) : Nat := (mapGet l k).getD 0

/-! ### Cost (R189, R197) -/

/-- Inductor current in A of a share of a port's delivered power. -/
def phaseCurrent (s : State) (p share : Nat) : Rat :=
  let v := min (s.path p).fvAvg s.dev.vOredAvg
  if v = 0 then 0 else (share * (s.delivered p).natAbs * 125 : Nat) / (65536 * v : Nat)

/-- L(I) in µW. -/
def phaseLoss (s : State) (k : Nat) (i : Rat) : Rat :=
  (s.inf 4 k 0x08 * 1000 : Nat) + (s.inf 4 k 0x09 * 1000 : Nat) * i + (cT s k : Rat) / 16000 * i * i

def portLoss (s : State) (p : Nat) (ks : List Nat) : Rat :=
  ratSum ((shares s p ks).map fun x => phaseLoss s x.1 (phaseCurrent s p x.2))

def ridgePorts (r : Nat) : List Nat := (List.range 4).map (4 * r + ·)

/-- An assignment with the figures that order it. -/
structure Scored where
  a : List Nat := []
  loss : Rat := 0
  changes : Nat := 0
  running : Nat := 0
  homes : Nat := 0
deriving DecidableEq, Repr, Inhabited

def score (s : State) (r : Nat) (allocs a : List Nat) : Scored :=
  { a
    loss := ratSum ((ridgePorts r).map fun p => portLoss s p (assigned r a p))
    changes := changeCount s r allocs a
    running := (a.filter (· != 0)).length
    homes := (a.filter (· == 1)).length }

/-- The numbers of the running phases, for the last tie. -/
def runNumbers (a : List Nat) : List Nat := (List.range 8).filter fun j => a.getD j 0 != 0

def lexLt : List Nat → List Nat → Bool
  | x :: xs, y :: ys => decide (x < y) || (x == y && lexLt xs ys)
  | [], _ :: _ => true
  | _, [] => false

/-- The order of R197: cost, fewest changes, fewest running, home pairs, lowest numbers. -/
def better (mig nmin : Nat) (x y : Scored) : Bool :=
  let cx := x.loss + (mig * 125000 * (x.changes - nmin) : Nat)
  let cy := y.loss + (mig * 125000 * (y.changes - nmin) : Nat)
  decide (cx < cy) || (decide (cx = cy) &&
    (decide (x.changes < y.changes) || (x.changes == y.changes &&
      (decide (x.running < y.running) || (x.running == y.running &&
        (decide (y.homes < x.homes) || (x.homes == y.homes && lexLt (runNumbers x.a) (runNumbers y.a))))))))

def bestOf (mig nmin : Nat) : List Scored → Option Scored
  | [] => none
  | x :: xs => some (xs.foldl (fun b y => if better mig nmin y b then y else b) x)

/-! ### The placement of a ridge (R197) -/

/-- How many phases that changed their steering in the previous 50 frames are changed again, opened ones too: only as many as cover needs. -/
def recentMoves (s : State) (r : Nat) (a : List Nat) : Nat :=
  ((moves s r a ++ openings s r a).filter fun k => match (s.phase k).steerFrame with
    | some f => decide (s.frame < f + 50)
    | none => false).length

def candidates (s : State) (r : Nat) (x : Fixed) (dropped : List Nat) : List (List Nat) :=
  (products ((List.range 8).map fun j => options s x dropped (8 * r + j))).filter fun a =>
    decide ((limitMoves s r x.allocs a).length ≤ moveLimit s r) &&
      (ridgePorts r).all fun p => !wants s dropped p || covers s p (assigned r a p)

/-- The order in which ports of a ridge lose cover for want of an assignment, as R197 gives it; R199 begins cover for accepted contracts before
cover in force, and the model takes that for the order of beginning alone (DESIGN CHOICE, log 84). -/
def dropsBefore (s : State) (a b : Nat) : Bool :=
  let ta := portParam s a 0x21
  let tb := portParam s b 0x21
  let na := (s.pd a).next.isSome
  let nb := (s.pd b).next.isSome
  decide (tb < ta) || (ta == tb && ((na && !nb) || (na == nb && decide (b < a))))

/-- Cover dropped from ports one at a time until candidates are left. -/
def dropUntil (s : State) (r : Nat) (x : Fixed) : List Nat → List Nat → Option (List (List Nat) × List Nat)
  | [], dropped =>
    let c := candidates s r x dropped
    if c.isEmpty then none else some (c, dropped)
  | p :: ps, dropped =>
    let c := candidates s r x dropped
    if c.isEmpty then dropUntil s r x ps (p :: dropped) else some (c, dropped)

/-- What a placement answers: the assignment, the ports dropped, the allocations made. -/
structure Placement where
  a : List Nat := List.replicate 8 0
  dropped : List Nat := []
  allocs : List Nat := []
deriving DecidableEq, Repr, Inhabited

/-- R198, R199: a change that cover does not need takes no opening's place: the assignments of the fewest changes, and those of more that
leave room for every opening. -/
def leaveOpenings (s : State) (r : Nat) (allocs : List Nat) (cands : List (List Nat)) : List (List Nat) :=
  let need := (cands.map fun a => (limitMoves s r allocs a).length).foldl min 8
  cands.filter fun a =>
    let n := (limitMoves s r allocs a).length
    n == need || decide (n + (openings s r a).length ≤ changeLimit s r)

/-- A dropped port keeps the phases of the ledger in force that still fit. -/
def keepFitting (s : State) (dropped : List Nat) (r : Nat) (a : List Nat) : List Nat :=
  (List.range 8).map fun j =>
    let k := 8 * r + j
    let x := a.getD j 0
    if x != 0 then x
    else match recPort k (s.ledger.phase k) with
      | some p =>
        let pair := (s.ledger.phase k).pair
        let pin := s.inf 4 k 0x02
        if dropped.contains p && isSource s p && !(s.path p).shed && usable s k && pair == effSteer s k && (pin == 0 || pin == pair) then pair
        else 0
      | none => 0

/-- The placement of ridge r with some ports already without cover. Where no assignment is left, what needs a steering change that the
limit refuses (an allocation, or the phase of a sink) is deferred, and the search starts again from the ports without cover
(log 38). -/
def placeRidge (s : State) (r : Nat) (lost : List Nat) : Placement :=
  let order := sortPorts (dropsBefore s) ((ridgePorts r).filter fun p => isSource s p && !lost.contains p)
  let all : Fixed := { allocs := (allocPorts s r lost).filter fun p => (allocPhase s p).isSome, sinks := sinkPorts s r, lost }
  let still : Fixed :=
    { allocs := all.allocs.filter fun p => match allocPhase s p with
        | some (k, _) => effSteer s k == pairTo k p || changing s k
        | none => false
      sinks := all.sinks.filter fun p => effSteer s (2 * p) == 1
      lost }
  let found := match dropUntil s r all order lost with
    | some c => some (c, all.allocs)
    | none => (dropUntil s r still order lost).map fun c => (c, still.allocs)
  match found with
  | none => { dropped := ridgePorts r }
  | some ((cands, dropped), al) =>
    let cands := leaveOpenings s r al cands
    let least := (cands.map (recentMoves s r)).foldl min 8
    let scored := (cands.filter fun a => recentMoves s r a == least).map (score s r al)
    let nmin := (scored.map (·.changes)).foldl min 16
    match bestOf (s.inf 0 0 0x34) nmin scored with
    | some b => { a := keepFitting s (dropped.filter fun p => !lost.contains p) r b.a, dropped, allocs := al }
    | none => { dropped := ridgePorts r }

/-! ### Slots (R200) -/

/-- The offsets of n running phases. -/
def offset (n i : Nat) : Nat :=
  match n with
  | 2 => [0, 8].getD i 0
  | 3 => [0, 5, 11].getD i 0
  | 4 => [0, 4, 8, 12].getD i 0
  | _ => 0

/-- A port's slots where some phase stays: by phase. -/
def staySlots (prev : Nat → Nat) (old new stays : List Nat) : List (Nat × Nat) :=
  let arrivals := new.filter fun k => !stays.contains k
  if old.length = new.length then
    let freed := (List.range 16).filter fun x => (old.filter fun k => !stays.contains k).any fun k => prev k == x
    stays.map (fun k => (k, prev k)) ++ arrivals.zip freed
  else
    let order := stays ++ arrivals
    let base := prev (order.headD 0)
    (List.range order.length).map fun i => (order.getD i 0, (base + offset order.length i) % 16)

/-- The base that leaves the fewest running phases on the slots a port takes; the lowest on a tie. -/
def freshBase (taken : List Nat) (n : Nat) : Nat :=
  let clash := fun b => (taken.filter fun x => (List.range n).any fun i => (b + offset n i) % 16 == x).length
  (List.range 16).foldl (fun b c => if clash c < clash b then c else b) 0

/-- The slots of the device's running phases in a new placement: `run` gives a port's phases and `was` those it ran before. -/
def assignSlots (l : Ledger) (run : Nat → List Nat) (stays : Nat → List Nat) : List (Nat × Nat) :=
  let prev := fun k => (l.phase k).slot
  let first := (allPorts.filter fun p => !(stays p).isEmpty).flatMap fun p => staySlots prev (l.on p) (run p) (stays p)
  let fresh := allPorts.filter fun p => (stays p).isEmpty && !(run p).isEmpty
  (fresh.foldl (fun (acc : List (Nat × Nat) × List Nat) p =>
    let waiting := (acc.2.filter (· != p)).flatMap fun p' => ((run p').filter fun k => (recPort k (l.phase k)).isSome).map prev
    let b := freshBase (acc.1.map (·.2) ++ waiting) (run p).length
    (acc.1 ++ (List.range (run p).length).map (fun i => ((run p).getD i 0, (b + offset (run p).length i) % 16)), acc.2.filter (· != p)))
    (first, fresh)).1

end Sys2Proof.Machine
end

