-- ==== Sys2Proof/Machine/Innkeeper.lean ====
section
/-! DEFINITION. The Innkeeper's solve as one ledger (R183 to R211), and its own events (R207 to R210). -/

namespace Sys2Proof.Machine

/-- The kinds of solve: full, reduced (R210), and the frozen solve of a dip hold or of no good feed (R207, R209). -/
inductive SolveKind where
  | full | reduced | frozen
deriving DecidableEq, Repr

def solveKind (s : State) : SolveKind :=
  if noFeed s || (s.inn.dip && !s.inn.dipHoldOver) then .frozen
  else if s.inn.reducedNext || s.inn.degradedFrom.isSome || s.sup.st == .readied then .reduced
  else .full

/-! ### Ceilings and floors -/

/-- The level-1 commitment of an attach or swap allocation while the division is frozen (R192, R207). -/
def allocCommit (s : State) (p : Nat) : Nat := if (s.cc p).alloc then capTarget s p 20 else 0

/-- Ceiling and floor of each port: of a fresh division, or those in force with the level-1 commitment of a new allocation. -/
def ceilings (s : State) (kind : SolveKind) (gs : List (List Nat)) (p : Nat) : Nat :=
  match kind with
  | .frozen => max (s.ledger.port p).ceil (allocCommit s p)
  | _ => (gs.getD 4 []).getD p 0

def floors (s : State) (kind : SolveKind) (gs : List (List Nat)) (p : Nat) : Nat :=
  match kind with
  | .frozen => max (s.ledger.port p).floor (allocCommit s p)
  | _ => (gs.getD 1 []).getD p 0

/-! ### The placement that is kept (R207, R209, R210) -/

/-- A port that has lost conversion keeps no phase. -/
def convLost (s : State) (p : Nat) : Bool := (s.cc p).toOutOfService || (s.cc p).st == .outOfService || (s.path p).shed

/-- The record of a phase is that of a probe alone, which runs no port: STATE 1 with no share (R433, R441). -/
def probeOnly (s : State) (k : Nat) : Bool := (s.ledger.phase k).st == 1 && (s.ledger.phase k).share == 0

/-- The pair a phase keeps from the ledger in force. -/
def keptPair (s : State) (kind : SolveKind) (lost : List Nat) (k : Nat) : Nat :=
  match recPort k (s.ledger.phase k) with
  | some p =>
    let needed := match kind with
      | .frozen => true
      | _ => isSource s p || isSink s p || inReturn s p || (s.cc p).alloc
    if usable s k && !probeOnly s k && !lost.contains p && !convLost s p && needed then (s.ledger.phase k).pair else 0
  | none => 0

/-- An allocation laid over a kept placement, where the change limit lets it begin. -/
def layAlloc (s : State) (r : Nat) (x : Placement) (p : Nat) : Placement :=
  match allocPhase s p with
  | none => x
  | some (k, _) =>
    let a := x.a.set (k % 8) (pairTo k p)
    if (limitMoves s r (x.allocs ++ [p]) a).length ≤ moveLimit s r then { x with a, allocs := x.allocs ++ [p] } else x

def keepRidge (s : State) (r : Nat) (kind : SolveKind) (lost : List Nat) : Placement :=
  (allocPorts s r lost).foldl (layAlloc s r) { a := (List.range 8).map fun j => keptPair s kind lost (8 * r + j), dropped := lost }

/-- The placement of a ridge in a solve; none at all once no feed has been good for 500 frames (R209). -/
def ridgePlan (s : State) (kind : SolveKind) (lost : List Nat) (r : Nat) : Placement :=
  if s.inn.feedlessOut then {}
  else match kind with
    | .full => placeRidge s r lost
    | k => keepRidge s r k lost

/-! ### Probes (R432, R441) -/

/-- A phase is due for measurement (R432). -/
def probeDue (s : State) (k : Nat) : Bool :=
  let f := s.phase k
  s.ageQueue.contains k || !f.measured || decide (f.measFrame + s.inf 0 0 0x41 ≤ s.frame)

/-- A phase is shed on its pair, or runs with a share below AGE_QUIET_W. -/
def probeQuiet (s : State) (k : Nat) : Bool :=
  let l := s.ledger.phase k
  (l.st == 0 && l.paired) ||
    (l.st == 1 && match recPort k l with
      | some p => decide (l.share * (s.delivered p).natAbs < s.inf 0 0 0x42 * 32768)
      | none => false)

/-- The probe a ridge takes: named phases first, then the oldest MEAS_FRAME. -/
def chooseProbe (s : State) (r : Nat) : Option Nat :=
  let ok := ((List.range 8).map (8 * r + ·)).filter fun k => usable s k && probeDue s k && probeQuiet s k
  let named := s.ageQueue.filter ok.contains
  match named with
  | k :: _ => some k
  | [] => match ok with
    | [] => none
    | k :: ks => some (ks.foldl (fun b k => if (s.phase k).measFrame < (s.phase b).measFrame then k else b) k)

/-- The probe of a ridge in a solve: the one running, or a new one. A frozen solve begins none (R207, R209), and none stands once no phase is
placed for want of a feed. -/
def solveProbe (s : State) (r : Nat) : Option Probe :=
  if s.inn.feedlessOut then none
  else if solveKind s == .frozen then (s.ridge r).probe.filter fun b => usable s b.phase || s.readmitting.contains b.phase
  else match s.readmitting.find? fun k => ridgeOfPhase k == r with
  | some k =>
    match (s.ridge r).probe with
    | some b => if b.phase = k then some b else some { phase := k, readmit := true, command := true, startFrame := s.frame }
    | none => some { phase := k, readmit := true, command := true, startFrame := s.frame }
  | none =>
    if !s.marginOn then none
    else match (s.ridge r).probe with
      | some b => if usable s b.phase && !b.readmit then some b else
          (chooseProbe s r).map fun k => { phase := k, command := s.ageQueue.contains k, startFrame := s.frame }
      | none => (chooseProbe s r).map fun k => { phase := k, command := s.ageQueue.contains k, startFrame := s.frame }

/-! ### Records (R202) -/

/-- A value of capacity units divided by a port's voltage, as an inductor current in 2 mA (R202 IMAX). The port's voltage is taken as that of the
contract it covers and V_ORED as the frame minimum of R187 (DESIGN CHOICE, log 84). -/
def imaxOf (s : State) (k v : Nat) : Nat :=
  let w := min v s.dev.vOredMin
  if w = 0 then 0 else satU16 (roundDivNat (capOf s k v * 250000) (capUnit * w))

/-- Law set in force: set 5 in reduced service (R251). -/
def lawSet (s : State) (k : Nat) : Nat := if s.seq.reduced then 5 else s.inf 4 k 0x07

/-- A pin is honoured unless an allocation or another exclusion sets it aside (R211). -/
def pinHonoured (s : State) (allocs : List Nat) (k : Nat) : Bool :=
  let pin := s.inf 4 k 0x02
  pin != 0 && (exclCode s k == 0 || exclCode s k == 5) &&
    !(allocs.any fun p => match allocPhase s p with
      | some (j, aside) => j == k && aside
      | none => false)

/-- OVR_CONFLICT: a pin was set aside. -/
def pinConflict (s : State) (allocs : List Nat) (k : Nat) : Bool := s.inf 4 k 0x02 != 0 && !pinHonoured s allocs k

/-- A re-admission's steering change may begin after all the others (R441). -/
def readmitMoves (s : State) (r : Nat) (x : Placement) (k : Nat) : Bool :=
  (s.phase k).steer == 1 || changing s k || (solveKind s != .frozen && decide (changeCount s r x.allocs x.a < changeLimit s r))

/-- A phase placed on no port stays on its pair, shed. -/
def shedStays (s : State) (r : Nat) (x : Placement) (k : Nat) : Bool := effSteer s k != 0 && !(begun s r x.allocs x.a).contains k

/-- The pair of a phase whose record STATE is 1 or 2: placed on a port, a probe on its own pair, or a readmission on its home pair. -/
def runPair (s : State) (x : Placement) (probe : Option Probe) (k : Nat) : Option Nat :=
  let r := ridgeOfPhase k
  let pair := x.a.getD (k % 8) 0
  if s.readmitting.contains k then (if (probe.map (·.phase)) == some k && readmitMoves s r x k then some 1 else none)
  else if pair ≠ 0 then some pair
  else if exclCode s k = 0 ∧ (probe.map (·.phase)) = some k ∧ shedStays s r x k then some (effSteer s k)
  else none

/-- The running phases of a port in the sense of R200: those of STATE 1 or 2. -/
def runningOn (s : State) (x : Placement) (probe : Option Probe) (p : Nat) : List Nat :=
  (reachable p).filter fun k => ((runPair s x probe k).bind (pairPort k)) == some p

/-- Steering changes that a ledger begins (R201): those of the placement, and a readmission's. -/
def begunCount (s : State) (r : Nat) (x : Placement) : Nat :=
  changeCount s r x.allocs x.a + (s.readmitting.filter fun k =>
    ridgeOfPhase k == r && (s.phase k).steer != 1 && !changing s k && readmitMoves s r x k).length

/-- R198, R211: a phase to be pinned idle that still stands on a pair waits for its opening within the limit of R199: shed on its pair, and
not excluded yet. -/
def waitsToOpen (s : State) (r : Nat) (x : Placement) (k : Nat) : Bool := exclCode s k == 5 && shedStays s r x k && !changing s k

/-- The record of a phase. -/
def phaseRecOf (s : State) (x : Placement) (probe : Option Probe) (slots shr : List (Nat × Nat)) (k : Nat) : PhaseRec :=
  let r := ridgeOfPhase k
  let f := s.phase k
  let ex := exclCode s k
  let old := s.ledger.phase k
  let pair := x.a.getD (k % 8) 0
  let run := runPair s x probe k
  let base : PhaseRec :=
    { slot := (mapGet slots k).getD old.slot, lawSet := lawSet s k, derate := roundDivNat (thermal s r * s.inf 4 k 0x0B) 640 }
  let l : PhaseRec :=
    if s.readmitting.contains k then
      match run with
      | some h => { base with pair := h, st := if f.steer = h then 1 else 2, share := 0, excl := 4 }
      | none => { base with pair := 0, st := 3, excl := 4 }
    else if ex ≠ 0 then
      if waitsToOpen s r x k then { base with pair := effSteer s k, st := 0, excl := 0, paired := true }
      else { base with pair := 0, st := 3, excl := ex }
    else if pair ≠ 0 then
      let v := match pairPort k pair with
        | some p => (coverContract s p).mv / 2
        | none => 0
      { base with pair := pair, st := if f.steer = pair ∧ effSteer s k = pair then 1 else 2, excl := 0, share := shareOf shr k, imax := imaxOf s k v }
    else match run with
      | some h =>
        let v := match pairPort k h with
          | some p => (coverContract s p).mv / 2
          | none => 0
        { base with pair := h, st := 1, excl := 0, share := 0, imax := imaxOf s k v }
      | none =>
        let stays := shedStays s r x k
        { base with pair := if stays then effSteer s k else 0, st := 0, excl := 0, paired := stays }
  { l with pinned := pinHonoured s x.allocs k && (l.pair == 0 || l.pair == s.inf 4 k 0x02) }

/-- What the placement covers of a port (R197, R202): the contract of a source that keeps its cover, or of an allocation the Type-C
current that the port will advertise first. -/
def coverOf (s : State) (lost : List Nat) (x : Placement) (p : Nat) : Option Contract :=
  if isSource s p then (if x.dropped.contains p || lost.contains p then none else some (coverContract s p))
  else if x.allocs.contains p then some (typecContract 0) else none

/-- The record of a port. -/
def portRecOf (s : State) (kind : SolveKind) (gs : List (List Nat)) (lost : List Nat) (plans : List Placement) (p : Nat) : PortRec :=
  let x := plans.getD (p / 4) {}
  let ceil := ceilings s kind gs p
  let runs := (assigned (p / 4) x.a p).filter fun k => (s.phase k).steer == x.a.getD (k % 8) 0 && effSteer s k == x.a.getD (k % 8) 0
  let c := coverOf s lost x p
  { nph := (runningOn s x (solveProbe s (p / 4)) p).length, tier := portParam s p 0x21, alloc := x.allocs.contains p
    inplace := !runs.isEmpty && (!isSource s p || covers s p runs)
    overdraw := isSource s p && decide (0 < excess s p ceil)
    shed := (s.path p).shed, capped := isCapped s p
    level := match kind with
      | .frozen => (s.ledger.port p).level
      | _ => grantLevel gs p
    ceil := ceil, floor := floors s kind gs p
    pCover := (c.map fun c => satU16 (roundDivNat (c.p5 * 8) 100000)).getD 0
    vCover := (c.map fun c => c.mv / 2).getD 0
    dropped := isSource s p && c.isNone }

/-- The shares of a port's phases: repeated while the placement is frozen and stands unchanged (R207), else computed. -/
def sharesOf (s : State) (kind : SolveKind) (p : Nat) (ks : List Nat) : List (Nat × Nat) :=
  match kind with
  | .frozen =>
    if ks = (s.ledger.on p).filter (fun k => !probeOnly s k) then ks.map fun k => (k, (s.ledger.phase k).share) else shares s p ks
  | _ => shares s p ks

/-- The header of a slice. -/
def sliceHdrOf (s : State) (r : Nat) : SliceHdr :=
  { seq := (s.frame + 1) % 65536, feedless := noFeed s
    out := (s.ridge r).run == .depopulated || (s.ridge r).run == .stopped
    shedV1 := satU16 (shedThreshold s 1), shedV2 := satU16 (shedThreshold s 2), shedV3 := satU16 (shedThreshold s 3)
    room := satU16 (roundDivNat (((List.range 8).map fun j => capOf s (8 * r + j) 10000).sum * 8) capUnit) }

/-- The whole ledger of a solve. DIP_FRAMES reads 0 in the first frame of a dip state (log 39). -/
def solveLedger (s : State) : Ledger :=
  let kind := solveKind s
  let gs := match kind with
    | .frozen => []
    | _ => grants s
  let lost := (lostPorts s (ceilings s kind gs)) ++ allPorts.filter (convLost s)
  let plans := (List.range 6).map (ridgePlan s kind lost)
  let plan := fun p => plans.getD (p / 4) {}
  let probe := fun (r : Nat) => solveProbe s r
  let run := fun p => runningOn s (plan p) (probe (p / 4)) p
  let stays := fun p => (run p).filter fun k =>
    recPort k (s.ledger.phase k) == some p && some (s.ledger.phase k).pair == runPair s (plan p) (probe (p / 4)) k
  let fresh := assignSlots s.ledger run stays
  let slots := match kind with
    | .full => fresh
    | _ => fresh.filter fun x => !(allPorts.any fun p => (stays p).contains x.1)
  let shr := allPorts.flatMap fun p => sharesOf s kind p (assigned (p / 4) (plan p).a p)
  let phases := (List.range 48).map fun k => phaseRecOf s (plans.getD (k / 8) {}) (probe (k / 8)) slots shr k
  let ports := allPorts.map (portRecOf s kind gs lost plans)
  let over8 := fun p => if isSource s p then excess s p (ceilings s kind gs p) else 0
  { phases, ports, slices := (List.range 6).map (sliceHdrOf s)
    hdr :=
      { frame := (s.frame + 1) % 2 ^ 32, bHost := s.inf 0 0 0x30, bUse := satU16 (bUse s)
        reserve := satU16 (min (8 * s.inf 0 0 0x30) (bPhysNow s) - bUse s), vEval := vEval s
        lossK := satU16 (roundDivNat ((lossK s).1 * 1000) (lossK s).2)
        reduced := kind == .reduced, dip := s.inn.dip, dipHold := s.inn.dip && !s.inn.dipHoldOver, feedless := noFeed s
        ovrConflict := (List.range 48).any fun k => pinConflict s (plans.getD (k / 8) {}).allocs k
        degraded := s.inn.degradedFrom.isSome
        commitOver := decide (bUse s < (allPorts.map fun p => target s p 1).sum)
        ridgeOut := ((List.range 6).map fun r => bitAt r ((s.ridge r).run == .depopulated || (s.ridge r).run == .stopped)).sum
        dipFrames := if s.inn.dip then satU16 (s.frame - s.inn.dipFrom) else 0
        running := (phases.filter fun r => r.st == 1 || r.st == 2).length
        shed := (phases.filter fun r => r.st == 0).length
        steerChg := ((List.range 6).map fun r => begunCount s r (plans.getD r {})).sum
        overdraw := satU16 (roundDivNat ((allPorts.map over8).sum) 100000) } }

/-- The trial placement of R329 for a phase to be retired: some contract in force is left without cover. -/
def trialLoses (s : State) (k : Nat) : Bool :=
  let t := { s with retiring := s.retiring ++ [(k, s.frame)] }
  let x := placeRidge t (ridgeOfPhase k) []
  x.dropped.any fun p => isSource s p && (s.pd p).contract.kind != 0

/-! ### The solve as a step -/

/-- The probes that a ledger places. -/
def takeProbes (s : State) : State := overN 6 (fun r t => t.updRidge r fun q => { q with probe := solveProbe s r }) s

/-- R94: the solve has met an accepted contract. -/
def Pd.solvedFor (d : Pd) : Pd := { d with nextIn := if d.next.isSome && d.nextIn = 0 then 1 else d.nextIn }

/-- R183 to R211: the solve completes; its ledger takes force at the next boundary. -/
def solveNow (s : State) : State :=
  let l := solveLedger s
  let t := takeProbes s
  overN 24 (fun p u => u.updPd p Pd.solvedFor) { t with inn := { t.inn with next := some l, reducedNext := false, bPhys := satU16 (bPhysNow s) } }

/-- R48, R49, R50: the Innkeeper finishes within its cap, once in a frame, after the class 0 work. -/
def innkeeperSolveComplete (s : State) : State :=
  if s.inn.started && s.locked && s.sup.st != .hold && s.inn.next.isNone && !s.inn.capped && !s.sup.schedDue && (!s.zeroWaits || s.sup.cmdCapped) then solveNow s
  else s

/-- R50: a task reaches its cap and is suspended until the next frame. -/
def taskCapReached (t : Task) (s : State) : State :=
  if s.locked && s.sup.st != .hold then
    match t with
    | .innkeeper => if s.inn.started && s.inn.next.isNone then { s with inn := { s.inn with capped := true } } else s
    | .interpreter => { s with sup := { s.sup with cmdCapped := true } }.raise .supv 2
    | .policy => { s with sup := { s.sup with pdCapped := true } }.raise .supv 2
  else s

/-- R210: reduced solves end after 1,000 frames. -/
def degradedEnd (s : State) : State :=
  if s.ran s.inn.degradedFrom 1000 then { s with inn := { s.inn with degradedFrom := none, heldFrames := [] } } else s

/-- A feed's frame-average current lies above 95 % of its I_MAX (R207). -/
def feedStrained (s : State) (x : Nat) : Bool := decide ((95 * s.inf 1 x 0x19 : Int) < 100 * (s.feed x).iAvg)

/-- R207: the hold ends after DIP_HOLD frames, or early. -/
def dipHoldEnd (s : State) : State :=
  if s.inn.dip && !s.inn.dipHoldOver && (s.framesSince s.inn.dipFrom (s.inf 0 0 0x35) || feedStrained s 0 || feedStrained s 1) then
    { s with inn := { s.inn with dipHoldOver := true } }
  else s

/-- R207: 100 consecutive frames at or above RT_V + 1.0 V. -/
def dipExit (s : State) : State :=
  if s.inn.dip && decide (100 ≤ s.inn.dipClear) then { s with inn := { s.inn with dip := false, dipHoldOver := false, dipClear := 0 } } else s

/-- R209: no feed good for 500 consecutive frames. -/
def feedlessExpiry (s : State) : State :=
  if s.inn.started && noFeed s && decide (500 ≤ s.inn.feedless) then { s with inn := { s.inn with feedlessOut := true } } else s

/-- R203: 60 frames since the advertised level first lay within the ceiling. -/
def overdrawTypecEnd (p : Nat) (s : State) : State :=
  if decide (p < 24) && (s.pd p).typecOver && s.ran (s.pd p).typecFrom 60 then
    s.updPd p fun d => { d with typecOver := false, typecFrom := none, typecP8 := 0 }
  else s

/-- The shed threshold of a port's tier in the ledger in force; tier 0 has none (R208). -/
def shedV (s : State) (p : Nat) : Nat :=
  let h := s.ledger.slices.getD (ridgeOfPort p) {}
  match (s.ledger.port p).tier with
  | 1 => h.shedV1
  | 2 => h.shedV2
  | 3 => h.shedV3
  | _ => 0

/-- R208: a port is shed: the publishes of its phases are zero from here (`shedPhase`). -/
def State.shedPort (s : State) (p : Nat) : State := s.updPath p fun h => { h with shed := true }

/-- R390: the third successive conversion below the threshold with the program's flag still clear: the publish check of this pace
transfers zero too, and the bit is set in the copied block. -/
def shedBackstop (p : Nat) (s : State) : State :=
  let t := (s.ledger.port p).tier
  if decide (p < 24) && s.locked && t != 0 && !(s.path p).shed && s.placed p && decide (3 ≤ (s.ridge (ridgeOfPort p)).shedRun.getD t 0) then
    let s := overList (s.ledger.on p) (fun k t => t.updPhase k fun f => { f with checked := 0 }) s
    (s.shedPort p).updRidge (ridgeOfPort p) fun q =>
      { q with out := q.out.modify 0 fun w => w ||| BitVec.ofNat 16 (2 ^ (8 + localOfPort p)) }
  else s

def execInnkeeperSolveComplete (s : State) : Out := .next (innkeeperSolveComplete s)
def execTaskCapReached (t : Task) (s : State) : Out := .next (taskCapReached t s)
def execDegradedEnd (s : State) : Out := .next (degradedEnd s)
def execDipHoldEnd (s : State) : Out := .next (dipHoldEnd s)
def execDipExit (s : State) : Out := .next (dipExit s)
def execFeedlessExpiry (s : State) : Out := .next (feedlessExpiry s)
def execOverdrawTypecEnd (p : Nat) (s : State) : Out := .next (overdrawTypecEnd p s)
def execShedBackstop (p : Nat) (s : State) : Out := .next (shedBackstop p s)

end Sys2Proof.Machine
end

