-- ==== Sys2Proof/Machine/Pace.lean ====
section
/-! DEFINITION. The pace (R33 to R46, R146 to R150, R154 to R158, R387 to R390): the boundary, the publish check, overruns, and
the ROM law. -/

namespace Sys2Proof.Machine

/-! ### Duties (R39, R43, R156) -/

/-- The port a phase drives when its duty is checked: a phase that drains is checked like any other (R43). -/
def checkMode (s : State) (k : Nat) : Nat :=
  let f := s.phase k
  if (recPort k (s.ledger.phase k)).isNone || !f.fitted || f.guardDrives then 0
  else match steeredPort s k with
    | some p => (s.path p).pmode
    | none => 0

/-- R156: the duty ceiling. -/
def dutyCeil (s : State) (k : Nat) : Nat :=
  let g := s.inf 4 k 0x03
  let v := s.dev.vOred
  match steeredPort s k with
  | none => 0
  | some p =>
    match checkMode s k with
    | 0 => 0
    | 1 => if v = 0 then g else min g (8192 * vCeil10 s p / (10 * v))
    | _ => if v = 0 then g else min g (8192 * 102 * (s.path p).vAvg / (100 * v))

/-- The ledger holds the phase idle or it is absent (R43). -/
def idlePhase (s : State) (k : Nat) : Bool := (recPort k (s.ledger.phase k)).isNone || !(s.phase k).fitted

/-- A phase whose duty is neither checked nor transferred: the guard drives it, or it has stopped. -/
def unchecked (f : Phase) : Bool := f.guardDrives || f.stopped

/-- The port of a phase is shed (R208, R390). -/
def shedPhase (s : State) (k : Nat) : Bool :=
  match recPort k (s.ledger.phase k) with
  | some p => (s.path p).shed
  | none => false

/-- A published duty fails the check of R43. -/
def dutyFails (s : State) (k : Nat) : Bool :=
  let d := (s.phase k).shadow
  if idlePhase s k then d != 0 else decide (dutyCeil s k < d) && !shedPhase s k

/-- R43, R44: the check of one phase's published duty. -/
def checkPhase (s : State) (k : Nat) : State :=
  let f := s.phase k
  if unchecked f then s
  else if dutyFails s k then
    if f.missed then (s.updPhase k fun f => { f with checked := 0 }).stopPhase k 0
    else s.updPhase k fun f => { f with missed := true, checked := if idlePhase s k then 0 else f.active }
  else s.updPhase k fun f => { f with missed := false, checked := if shedPhase s k then 0 else f.shadow }

/-- The local phases of a ridge that miss in this publish. -/
def missMask (s : State) (r : Nat) : Nat :=
  ((List.range 8).map fun j => bitAt j (!unchecked (s.phase (8 * r + j)) && dutyFails s (8 * r + j))).sum

/-- The publish deadline: engine cycle 768, or 192 at the 100 MHz of service boot (R34, R35). -/
def State.deadline (s : State) : Nat := if s.seq.mode == .serviceBoot then 192 else 768

/-- The first cycle of the program (R34, R35). -/
def State.firstCycle (s : State) : Nat := if s.seq.mode == .serviceBoot then 16 else 64

/-- R38, R44: the publish of a ridge at an engine cycle; the publish window of the pace has still to check its duties (R35). -/
def State.publish (s : State) (r cyc : Nat) : State :=
  let spare := s.deadline - 1 - cyc
  s.updRidge r fun q =>
    { q with
      published := true, checkDue := true, pubCyc := cyc, run := if q.run == .held then .running else q.run
      paceMarginNow := min q.paceMarginNow spare, paceMarginMin := min q.paceMarginMin spare }

/-- R35, R43, R44: the publish window of a ridge: the published duties are checked. -/
def publishWindow (r : Nat) (s : State) : State :=
  if (s.ridge r).checkDue && s.ridgeLive r then
    let miss := missMask s r
    let s := overN 8 (fun j t => checkPhase t (8 * r + j)) s
    let s := s.updRidge r fun q =>
      { q with
        checkDue := false, pubMiss := q.pubMiss ||| BitVec.ofNat 16 miss, nPubmiss := if miss = 0 then q.nPubmiss else sat1 q.nPubmiss }
    if miss = 0 then s else s.raise (.ridge r) 1
  else s

/-- The publish windows at the end of a pace, in every ridge that has published. -/
def publishWindows (s : State) : State := overN 6 publishWindow s

/-- R42, R44, R46: the pace ends without a publish: its requests are discarded and its ramp steps are not taken. -/
def paceOverrun (r : Nat) (s : State) : State :=
  let q := s.ridge r
  if s.ridgeLive r && q.started && !q.published && !q.overrun then
    let s := (s.raise (.ridge r) 0).updRidge r fun q =>
      { q with nOverrun := sat1 q.nOverrun, steerWord := 0, overrun := true, eng := { q.eng with running := false } }
    let s := overN 8 (fun j t => t.updPhase (8 * r + j) fun f => { f with ramp := f.rampPrev, up := f.upPrev }) s
    if q.run == .held then s.stopRidge r 2 else s.updRidge r fun q => { q with run := .held }
  else s

/-! ### What the boundary of a pace does -/

/-- The dither of a probe under a record (R433). -/
def probeDither (s : State) (r k : Nat) : Int :=
  match (s.ridge r).probe with
  | some b => if b.phase = k then (if b.prbs.getLsbD 0 then (s.inf 0 0 0x43 : Int) else -(s.inf 0 0 0x43 : Int)) else 0
  | none => 0

/-- R39, R42, R43: the checked duty transfers unless the pace was an overrun; a probe's carries its dither. -/
def transfer (s : State) (k : Nat) (f : Phase) : Phase :=
  let q := s.ridge (ridgeOfPhase k)
  if q.published && !q.overrun && !unchecked f && !f.pwmOff then
    let d := probeDither s (ridgeOfPhase k) k
    let a := if d = 0 then f.checked else min (dutyCeil s k) ((f.checked + d).toNat)
    { f with active := a, lastDuty := f.checked }
  else f

/-- R41: one slot per pace toward the new slot by the shorter way, upward on a tie. -/
def slotStep (f : Phase) : Phase :=
  if f.slot = f.slotTo then f
  else if (f.slotTo + 16 - f.slot) % 16 ≤ 8 then { f with slot := (f.slot + 1) % 16 } else { f with slot := (f.slot + 15) % 16 }

/-- R38, R161: the requests of a pace that was not an overrun reach the guard. -/
def passRequests (r : Nat) (s : State) : State :=
  let w := (s.ridge r).steerWord
  overN 8 (fun j t => guardRequest t (8 * r + j) (fld w.toNat (2 * j) 2)) (s.updRidge r fun q => { q with steerWord := 0 })

/-- The guard and the requests of a ridge at cycle 0 of a pace (R46, R161, R164). -/
def guardRidge (r : Nat) (s : State) : State :=
  if (s.ridge r).overrun then s
  else passRequests r (overN 8 (fun j t => t.updPhase (8 * r + j) (guardPace t (8 * r + j))) s)

/-- A guard sequence runs in the ridge. -/
def guardBusy (s : State) (r : Nat) : Bool := (List.range 8).any fun j => (s.phase (8 * r + j)).held

/-- The conditions of R433 on a pace of a record. -/
def recordHolds (s : State) (r : Nat) (b : Probe) : Bool :=
  let q := s.ridge r
  let f := s.phase b.phase
  let v := s.dev.vOred
  !q.overrun && !f.missed && !f.pklim && !guardBusy s r && decide (v * 100 ≤ b.vStart * 102) && decide (b.vStart * 98 ≤ v * 100) &&
    match steeredPort s b.phase with
    | some p => (s.path p).pmode == 1 && (s.pd p).next.isNone
    | none => false

/-- R433: a pace of the record of a ridge's probe, or its discard. -/
def probePace (r : Nat) (s : State) : State :=
  match (s.ridge r).probe with
  | none => s
  | some b =>
    let f := s.phase b.phase
    let v := match steeredPort s b.phase with
      | some p => (s.path p).vAvg
      | none => 0
    let iref : Int := match steeredPort s b.phase with
      | some p => ((s.ridge r).out.getD (5 + localOfPort p) 0).toInt
      | none => 0
    let b' :=
      if b.paces < 1024 then
        if recordHolds s r (if b.paces = 0 then { b with vStart := s.dev.vOred } else b) then
          { b with
            paces := b.paces + 1, vStart := if b.paces = 0 then s.dev.vOred else b.vStart, prbs := lfsrStep b.prbs
            data := b.data ++ [probeDither s r b.phase, (f.lastDuty : Int), f.avg, (v : Int), iref] }
        else { b with paces := 0, data := b.data.take (5120 * b.records) }
      else b
    s.updRidge r fun q => { q with probe := some b' }

/-- A phase's word of the summary block. -/
def phaseBlock (s : State) (k : Nat) : List Word :=
  let f := s.phase k
  [wordOfInt f.avg, wordOfInt f.peak, wordOfInt f.valley, f.stat]

/-- A port's words of the port block (R148). -/
def portBlock (s : State) (p : Nat) : List Word :=
  let h := s.path p
  [BitVec.ofNat 16 h.vAvg, BitVec.ofNat 16 h.vMin, BitVec.ofNat 16 h.vMax, wordOfInt h.iAvg, wordOfInt h.iPeak,
    BitVec.ofNat 16 (portStat h), BitVec.ofNat 16 h.vtgt, BitVec.ofNat 16 h.itgt]

/-- A phase record's words (R202). -/
def phaseRecWords (x : PhaseRec) : List Word :=
  [BitVec.ofNat 16 (x.pair * 2 ^ 14 + x.st * 2 ^ 12 + x.slot % 16 * 2 ^ 8 + x.excl * 2 ^ 5 + bitAt 4 x.pinned + bitAt 3 x.paired + x.lawSet % 8),
    BitVec.ofNat 16 x.share, BitVec.ofNat 16 x.imax, BitVec.ofNat 16 (x.derate * 256)]

def portRecWords (x : PortRec) : List Word :=
  [BitVec.ofNat 16 (x.nph * 2 ^ 13 + x.tier * 2 ^ 11 + bitAt 10 x.alloc + bitAt 9 x.inplace + bitAt 8 x.overdraw + bitAt 7 x.shed +
      bitAt 6 x.capped + x.level * 2 ^ 3),
    BitVec.ofNat 16 x.ceil, BitVec.ofNat 16 x.floor, BitVec.ofNat 16 x.pCover, BitVec.ofNat 16 x.vCover, 0]

def sliceHdrWords (x : SliceHdr) : List Word :=
  [BitVec.ofNat 16 x.seq, BitVec.ofNat 16 (bitAt 15 x.feedless + bitAt 14 x.held + bitAt 13 x.out), BitVec.ofNat 16 x.shedV1,
    BitVec.ofNat 16 x.shedV2, BitVec.ofNat 16 x.shedV3, BitVec.ofNat 16 x.room, 0, 0]

/-- The 64 words of a ridge's slice, from X 0x0080 (R201, R202). -/
def sliceWords (l : Ledger) (r : Nat) : List Word :=
  ((List.range 8).flatMap fun j => phaseRecWords (l.phase (8 * r + j))) ++
    ((List.range 4).flatMap fun q => portRecWords (l.port (4 * r + q))) ++ sliceHdrWords (l.slices.getD r {})

/-- LEDGER_FLAGS: word 7 of the device header (R201). -/
def ledgerFlags (h : LedgerHdr) : Nat :=
  bitAt 15 h.held + bitAt 14 h.reduced + bitAt 13 h.dip + bitAt 12 h.dipHold + bitAt 11 h.feedless + bitAt 10 h.ovrConflict +
    bitAt 9 h.degraded + bitAt 8 h.commitOver + h.ridgeOut % 64

/-- The device header's 16 words. -/
def headerWords (h : LedgerHdr) : List Word :=
  [BitVec.ofNat 16 h.frame, BitVec.ofNat 16 (h.frame / 65536), BitVec.ofNat 16 h.bHost, BitVec.ofNat 16 h.bUse, BitVec.ofNat 16 h.reserve,
    BitVec.ofNat 16 h.vEval, BitVec.ofNat 16 h.lossK, BitVec.ofNat 16 (ledgerFlags h), BitVec.ofNat 16 h.dipFrames,
    BitVec.ofNat 16 h.running, BitVec.ofNat 16 h.shed, BitVec.ofNat 16 h.steerChg, BitVec.ofNat 16 h.overdraw, 0, 0, 0]

/-- The 800 bytes of a ledger (R201). -/
def ledgerBytes (l : Ledger) : List Byte :=
  (headerWords l.hdr ++ (List.range 6).flatMap (sliceWords l)).flatMap fun w => leBytes 2 w.toNat

/-- The ring page that the summarised pace's samples filled: its count since the pace counter started, mod 4 (R150). The boundary
that begins pace n has made `paceCount` n + 1, and summarises pace n − 1. -/
def ringPage (s : State) : Nat := (s.paceCount + 2) % 4

/-- The calibrated samples of a pace on their ring page (R145, R150). -/
def ringWrite (s : State) (k : Nat) (codes : List Nat) (x : Cells 16) : Cells 16 :=
  cellsStore x (0x0100 + 100 * localOfPhase k + 25 * ringPage s) ((codes.take 25).map fun c => wordOfInt (chanValue s k (s.phase k).runOfs c 1))

/-- R146: what the pace DMA and the sense fabric leave in a ridge engine's X memory. -/
def dmaIn (s : State) (r : Nat) (codes : Nat → List Nat) (x : Cells 16) : Cells 16 :=
  let q := s.ridge r
  let x := cellsStore x 0x0000 ((List.range 8).flatMap fun j => phaseBlock s (8 * r + j))
  let x := cellsStore x 0x0020 ((List.range 4).flatMap fun j => portBlock s (4 * r + j))
  let x := cellsStore x 0x0040
    [BitVec.ofNat 16 s.pace, BitVec.ofNat 16 s.frame, BitVec.ofNat 16 s.dev.vOred, wordOfInt q.tRidge, BitVec.ofNat 16 (b1 q.held),
      BitVec.ofNat 16 (ringPage s)]
  let x := cellsStore x 0x0048 ((List.range 4).map fun j => BitVec.ofNat 16 (portParam s (4 * r + j) 0x28))
  let x := if s.pace = 0 then cellsStore x 0x0080 (sliceWords s.ledger r) else x
  (List.range 8).foldl (fun x j => ringWrite s (8 * r + j) (codes (8 * r + j)) x) x

/-- VCONN_IN good: rises at 4.60 V, falls at 4.40 V (R67). -/
def vconnInStep (mv : Nat) (good : Bool) : Bool := if good then decide (4400 ≤ mv) else decide (4600 ≤ mv)

/-- Conversions of V_ORED below a tier's threshold in succession (R208). -/
def shedStep (s : State) (r v : Nat) (runs : List Nat) : List Nat :=
  let h := s.ledger.slices.getD r {}
  let one := fun (t th : Nat) => if v < th then runs.getD t 0 + 1 else 0
  [0, one 1 h.shedV1, one 2 h.shedV2, one 3 h.shedV3]

/-- The ridge's own part of a pace boundary (R35, R146, R388). -/
def ridgePace (s : State) (m : PaceSense) (r : Nat) (q : Ridge) : Ridge :=
  let t := match m.ntc[r]? with
    | some x => Config.ntcTemp (s.inf 2 r 0x1D) (s.inf 2 r 0x1E) x
    | none => q.tRidge
  let v := m.vconnIn.getD r q.vconnIn
  { q with
    held := q.overrun
    overrun := false
    published := false
    checkDue := false
    dmaLate := m.dmaLate.contains r
    stgfltRun := if m.stgflt.contains r then q.stgfltRun + 1 else 0
    tRidge := t
    tSum := q.tSum + t
    vconnIn := v
    vconnInGood := vconnInStep v q.vconnInGood
    shedRun := shedStep s r m.vOred q.shedRun
    out := cellsLoad q.eng.y 0 24 }

/-- R388: what the supervisor takes from the copied block of ridge r: an INVOUT bit removes its phase from the next ledger and reports it
(R264 INV), a SHED bit ends its port's conversion, and VREF is the reference from which a take-down starts. -/
def takeOutput (r : Nat) (s : State) : State :=
  let out := (s.ridge r).out
  let set := fun (i : Nat) => s.ridgeLive r && (out.getD 0 0).getLsbD i
  let s := overN 8 (fun j t => if set j then (t.updPhase (8 * r + j) fun f => { f with invOut := true }).raise (.phase (8 * r + j)) 3 else t) s
  overN 4 (fun j t =>
    let t := t.updPath (4 * r + j) fun h => { h with ref := (out.getD (1 + j) 0).toNat }
    if set (8 + j) && t.placed (4 * r + j) then t.shedPort (4 * r + j) else t) s

/-- R388: the backstop's bits in the copied block. -/
def outShed (s : State) (r : Nat) : State :=
  overN 4 (fun j t =>
    if (t.path (4 * r + j)).shed then
      t.updRidge r fun q => { q with out := q.out.modify 0 fun w => w ||| BitVec.ofNat 16 (2 ^ (8 + j)) }
    else t) s

/-- R170: return mode ends where its node has come down. -/
def returnEnds (s : State) (p : Nat) : State :=
  let h := s.path p
  if h.pmode = 2 && h.retKind = 2 && h.vsrc && decide (h.vAvg ≤ 2500) then
    s.updPath p fun h => { h with pmode := 1, retKind := 0 }
  else if h.pmode = 2 && h.retKind = 3 && decide (s.vbus p < 800) then
    (s.updPath p fun h => { h with pmode := 1, retKind := 0 }).updPd p fun d => { d with takenDown := some s.frame }
  else s

/-- The inductor current of a port's phases in a returning pace, 2 mA. -/
def returned (s : State) (p : Nat) : Int :=
  let ks := (reachable p).filter fun k => steeredPort s k == some p
  let i : Int := (ks.map fun k => (s.phase k).avg).sum
  (0 - i) * Int.ofNat (min (s.path p).vAvg s.dev.vOred)

/-- R127: after a Hard Reset as sink VBUS falls and is restored: the wait ends when it reaches 4.0 V again. -/
def restorePace (vbus : Nat) (d : Pd) : Pd :=
  if d.snkRestore.isNone then d
  else if vbus < 4000 then { d with snkLow := true }
  else if d.snkLow then { d with snkRestore := none, snkLow := false } else d

/-- A port's part of a pace boundary. -/
def portPace (m : PaceSense) (p : Nat) (s : State) : State :=
  let b := m.ports.getD p {}
  let s := s.updPath p (pathPace s p b)
  let h := s.path p
  let s := if h.calx then s.countUp p .calx else s
  let s := if h.pmode = 2 then s.updPath p fun h => { h with retSum := h.retSum + returned s p } else s
  let v := if h.vsrc then b.vbusMv else 2 * h.vAvg
  let s := s.updCc p (CcLayer.passivePace (s.seq.mode == .serviceBoot) ∘ ccPace s.now (portParam s p 0x29) v (sinkOwned s p) b h.iAvg)
  let s := s.updVc p (vconnPace s.now b)
  let s := s.updPd p fun d => restorePace v (pdPace h.vAvg d)
  returnEnds s p

/-- SAT and MISS (R264, R147). -/
def senseFaults (m : PaceSense) (s : State) : State :=
  let codes := m.phases.flatMap (·.codes)
  let pcodes := m.ports.flatMap fun q => q.vCodes ++ q.iCodes
  let s := if codes.any saturated || pcodes.any saturated then s.raise .sense 0 else s
  let miss := (m.phases.any fun f => f.codes.length != 25) || (m.ports.any fun q => q.vCodes.length != 10 || q.iCodes.length != 10)
  let s := if miss then s.raise .sense 1 else s
  if m.dmaLate.isEmpty then s else s.raise .sense 2

/-- R340: written `_PIN` and `_ATTN` items act from the next pace. -/
def takeMasks (s : State) : State :=
  s.fltWrites.foldl (fun t w => match pidFlt w.1 with
    | some (b, i) => t.setFlt b ((t.flt b).setMask i w.2)
    | none => t) { s with fltWrites := [] }

/-- R260: the fault pin command acts in the pace after its execution. -/
def takePin (s : State) : State :=
  match s.faultN.action with
  | none => s
  | some h => { s with faultN := { s.faultN with hold := h, action := none, pulse := s.faultN.pulse && h } }

/-- R260, R340: what a write or a fault pin command asked for acts from the start of the next pace, before anything else occurs in it. -/
def State.newPace (s : State) : State := takePin (takeMasks s)

/-- Device-wide conversions (R212, R343). -/
def devPace (m : PaceSense) (d : Dev) : Dev :=
  { d with
    vOred := m.vOred, vOredSum := d.vOredSum + m.vOred, vOredN := d.vOredN + 1
    vOredLo := if d.vOredN = 0 then m.vOred else min d.vOredLo m.vOred
    dieTemp := m.dieTemp, dieSum := d.dieSum + m.dieTemp }

/-- R363, R369: the supervisor's cycle count starts again with a pace, and DROP and OVF are a pace's. -/
def Engine.newPace (e : Engine) : Engine :=
  { e with cyc := 0, macDrop := false, macOvf := false, macPipe := e.macPipe.map fun o => { o with due := o.due - e.cyc } }

/-- Time moves on by one pace; none after pace 499 before its frame boundary. -/
def nextPace (s : State) : Option State :=
  if s.paceZero then some { s with pace := 0, paceZero := false, paceCount := s.paceCount + 1 }
  else if s.pace < 499 then some { s with pace := s.pace + 1, paceCount := s.paceCount + 1 }
  else none

/-- R33 to R41, R146, R161: cycle 0 of a pace with what the pace before it delivered. -/
def paceBoundary (m : PaceSense) (s : State) : State :=
  if s.locked then
    match nextPace (publishWindows s) with
    | none => s
    | some s =>
      let s := { s with sup := { s.sup with eng := s.sup.eng.newPace } }
      let s := senseFaults m (if s.pace = 0 then s else s.newPace)
      let s := overN 48 (fun k t => t.updPhase k (transfer t k)) s
      let s := overN 48 (fun k t => if (t.phase k).fitted then t.updPhase k (phasePace t k (m.phases.getD k {})) else t) s
      let s := { s with dev := devPace m s.dev }
      let s := overN 6 (fun r t => probePace r t) s
      let s := overN 24 (portPace m) s
      let s := overN 6 guardRidge s
      let s := overN 48 (fun k t => t.updPhase k slotStep) s
      let s := overN 24 (recalPace m) s
      let s := capturePaces m s
      let s := overN 2 (fun x t => t.updFeed x (feedPace t x (m.feeds.getD x {}))) s
      let s := overN 6 (fun r t => outShed (takeOutput r (t.updRidge r (ridgePace t m r))) r) s
      let s := overN 48 statPace s
      overN 6 (fun r t => if (t.ridge r).run == .depopulated then t else
        t.updRidge r fun q => { q with eng := { q.eng with x := dmaIn t r (fun k => (m.phases.getD k {}).codes) q.eng.x } }) s
  else s

/-! ### The program's start and the ROM laws (R35, R158, R355) -/

/-- R355: the engine's state at cycle 64; the address units and memories stay. -/
def Engine.atStart (e : Engine) (entry cyc : Nat) (latched : Bool) : Engine :=
  { units := e.units, x := e.x, y := e.y, pc := BitVec.ofNat 16 entry, macLatched := latched, running := true, cyc := cyc
    pred := if latched then 8 else 0, irqEn := e.irqEn, svPa := e.svPa }

/-- ENTRY and MAC_MODE of the active image's header (R380). -/
def Bank.entryAddr (b : Bank) : Nat := (b.word 3).toNat % 8192
def Bank.latched (b : Bank) : Bool := (b.word 4).getLsbD 0

/-- R172: the scale of a returning port in 1/500, from V_RCEIL and V_ORED in 2 mV. -/
def returnScale (s : State) : Nat :=
  let rceil : Int := 5 * (min (s.feed 0).ov (s.feed 1).ov : Nat) - 5 * (s.inf 0 0 0x37 : Nat)
  (max 0 (min 500 (rceil + 500 - s.dev.vOred))).toNat

/-- R392: the reference of a port as the law keeps it, where a program before it may have left it. -/
def lawRef (s : State) (p : Nat) : Nat := (cellsRead (s.ridge (ridgeOfPort p)).eng.x (0x0500 + 4 * localOfPort p)).toNat

/-- R158 step 1: the reference moves toward VTGT by at most SLEW; DETACH in forward mode freezes it. -/
def refStep (s : State) (p : Nat) : Nat :=
  let h := { s.path p with ref := lawRef s p }
  let slew := portParam s p 0x28
  let step := if h.pmode = 2 then slew * returnScale s / 500 else slew
  if h.detach && h.pmode = 1 then h.ref
  else if h.ref < h.vtgt then min h.vtgt (h.ref + step) else max h.vtgt (h.ref - step)

/-- R158 step 3, R100, R171, R172, R174: the clamp of the port current reference, in mA. In forward mode ITGT bounds it from
above, not where VBUS has come down to 3.0 V; a sink draws at most its contract's current; and a returned current is scaled. -/
def irefClamp (s : State) (p : Nat) (x : Int) : Int :=
  let n := (s.ledger.on p).length
  let rev : Int := (((s.ledger.on p).map fun k => 10 * s.inf 4 k 0x06).sum : Nat)
  let h := s.path p
  if h.pmode = 1 then
    let y : Int := max (-(1000 * n : Nat)) x
    if 1500 < h.vAvg then min h.itgt y else y
  else
    let lo : Int := if h.pmode = 3 then max (-rev) (-(10 * (s.pd p).contract.cur : Nat)) else -rev
    let y := max lo x
    if y < 0 then roundDiv (y * returnScale s) 500 else y

/-! #### The ROM law's coefficient sets (R159) -/

/-- Inner and outer crossover in Hz and phase margins in degrees of a coefficient set (R159). -/
structure LoopSet where
  inner : Nat := 0
  innerMargin : Nat := 0
  outer : Nat := 0
  outerMargin : Nat := 0
deriving DecidableEq, Repr, Inhabited

/-- Sets 0 to 3, by band of inductance. -/
def baseSet (n : Nat) : LoopSet :=
  if n = 0 then ⟨25000, 55, 2500, 60⟩ else if n = 1 then ⟨22000, 55, 2500, 60⟩ else if n = 2 then ⟨20000, 55, 2000, 60⟩ else ⟨18000, 55, 2000, 60⟩

/-- R159: sets 4 to 7 are sets 0 to 3 at 0.75 of the inner and 0.6 of the outer crossover. -/
def loopSet (n : Nat) : LoopSet :=
  if n < 4 then baseSet n
  else { inner := (baseSet (n - 4)).inner * 3 / 4, innerMargin := 65, outer := (baseSet (n - 4)).outer * 3 / 5, outerMargin := 70 }

/-- R159: the set whose outer coefficients a port uses: of the lowest outer crossover among its placed phases, the lowest phase on a
tie (log 74). -/
def outerSet (s : State) (p : Nat) : Nat :=
  ((s.ledger.on p).map fun k => (s.ledger.phase k).lawSet).foldr
    (fun n best => if (loopSet n).outer ≤ (loopSet best).outer then n else best) 0

/-- R161, R165, R202: the steering the law still has to request for a phase, by its record. -/
def wantedReq (s : State) (k : Nat) : Nat :=
  let l := s.ledger.phase k
  let f := s.phase k
  if f.held || f.stopped || !f.fitted || f.refused || l.pair = f.steer then 0 else if l.pair = 0 then 3 else l.pair

/-- The phase's duty is zero: it needs no ramp before its request (R168). -/
def atZero (f : Phase) : Bool := f.shadow == 0 && f.active == 0

/-- R158 step 4, R168: the eighths of its share that a phase is published at in this pace. -/
def lawEighths (s : State) (k : Nat) : Nat :=
  let f := s.phase k
  if wantedReq s k = 0 then min 8 (f.up + 1) else if atZero f then 0 else 7 - f.ramp

/-- The share of a phase in its port's current, in eighths of the ledger's unit: that of the port it leaves until it has left. -/
def lawShare (s : State) (k : Nat) : Nat :=
  (if wantedReq s k = 0 then (s.ledger.phase k).share else (s.phase k).share) * lawEighths s k

/-- The phases that carry a port's current in a pace. -/
def carriers (s : State) (p : Nat) : List Nat :=
  (reachable p).filter fun k =>
    let f := s.phase k
    steeredPort s k == some p && f.fitted && !f.stopped && !f.held && (wantedReq s k != 0 || recPort k (s.ledger.phase k) == some p)

/-- R158 step 4: a node current as the inductor current of a phase at its present gain: the output leg passes it for the part of the
period that R154 leaves its high side on (log 75). -/
def toInductor (d : Nat) (node : Int) : Int :=
  if 100 * d ≤ 90 * 8192 then node
  else if 100 * d < 110 * 8192 then roundDiv (node * (10 * d : Nat)) (9 * 8192) else roundDiv (node * d) 8192

/-- R158 step 4, R171: a phase's part of its port's reference as inductor current in mA; a returning phase is clamped to IREV_MAX. -/
def lawPart (s : State) (k : Nat) : Int :=
  match steeredPort s k with
  | none => 0
  | some p =>
    let h := s.path p
    let sum := ((carriers s p).map (lawShare s)).sum
    let x := if sum = 0 then 0 else toInductor (s.phase k).active (roundDiv (h.iref * lawShare s k) sum)
    if h.pmode = 1 then x else max (-(10 * s.inf 4 k 0x06 : Nat)) x

/-- R158 step 5: the duty of the inner loop before its clamp. -/
def lawDuty (s : State) (k : Nat) (part : Int) : Int :=
  let f := s.phase k
  let ref := match steeredPort s k with
    | some p => (s.path p).ref
    | none => 0
  (roundDivNat (8192 * ref) (max 1 s.dev.vOred) : Nat) + Config.piInner (s.ledger.phase k).lawSet s.freeN (part - 2 * f.avg)

/-- R158 steps 5 and 6, R168: a phase's duty and request in a pace of the ROM law, given its part of the current. A phase published 0 for
its INV paces is controlled again once a pace is not INV (DESIGN CHOICE, log 84: the rule does not say); its exclusion stands until the
fault is cleared. -/
def lawPhase (r : Nat) (parts : List Int) (j : Nat) (s : State) : State :=
  let k := 8 * r + j
  let f := s.phase k
  let w := wantedReq s k
  let part := parts.getD j 0
  let ask := w != 0 && (atZero f || 7 ≤ f.ramp)
  let idle := f.held || f.stopped || shedPhase s k || (w == 0 && idlePhase s k)
  let d0 := (max 0 (min (dutyCeil s k : Int) (lawDuty s k part))).toNat
  let d := if idle || ask || idlePhase s k || 4 ≤ f.invRun then 0 else if f.inv then f.shadow else d0
  let s := s.freeNext.updPhase k fun f =>
    { f with
      shadow := d, part := part
      ramp := if w != 0 && !ask then f.ramp + 1 else if w == 0 then 0 else f.ramp
      up := if w == 0 && !idle then min 8 (f.up + 1) else f.up
      share := if w == 0 then (s.ledger.phase k).share else f.share }
  if ask then s.updRidge r fun q => { q with steerWord := q.steerWord ||| BitVec.ofNat 16 (w * 4 ^ j) } else s

/-- R158 steps 1 to 3 for a port; PPS: the limit acts where the reference stands at it (R100). -/
def lawPort (r j : Nat) (s : State) : State :=
  let p := 4 * r + j
  if (s.path p).pmode = 0 then s
  else
    let ref := refStep s p
    let h := s.path p
    let i := irefClamp s p (Config.piOuter (outerSet s p) s.freeN ((ref : Int) - h.vAvg) + h.iAvg)
    let s := s.freeNext.updPath p fun h => { h with ref := ref, iref := i }
    let s := s.updPd p fun d => { d with ppsLimit := d.ppsLimit || (d.contract.kind == 3 && h.pmode == 1 && decide (1500 < h.vAvg) && i == (h.itgt : Int)) }
    s.updRidge r fun q =>
      { q with eng := { q.eng with
          y := cellsWrite (cellsWrite q.eng.y (1 + j) (BitVec.ofNat 16 ref)) (5 + j) (wordOfInt i)
          x := cellsStore q.eng.x (0x0500 + 4 * j) [BitVec.ofNat 16 ref, wordOfInt (Config.freeInt s.freeN), wordOfInt i] } }

/-- R208: the law sheds a port after two conversions below the threshold of its tier; never in reduced service (R251). -/
def lawShed (r j : Nat) (s : State) : State :=
  let p := 4 * r + j
  let t := (s.ledger.port p).tier
  if t != 0 && !s.seq.reduced && s.placed p && !(s.path p).shed && decide (2 ≤ (s.ridge r).shedRun.getD t 0) then s.shedPort p else s

/-- Word 0 of the output block (R388). -/
def outWord0 (s : State) (r : Nat) : Word :=
  BitVec.ofNat 16 (((List.range 4).map fun j => bitAt (8 + j) (s.path (4 * r + j)).shed).sum +
    ((List.range 8).map fun j => bitAt j (decide (4 ≤ (s.phase (8 * r + j)).invRun))).sum)

/-- The ramp counts of a port's phases, 4 bits each, the lowest phase in the lowest bits (R392; log 77). -/
def rampWord (s : State) (p : Nat) : Word :=
  BitVec.ofNat 16 ((((reachable p).zip (List.range 4)).map fun x => if recPort x.1 (s.ledger.phase x.1) == some p then (s.phase x.1).ramp * 16 ^ x.2 else 0).sum)

/-- R392: law 1's own words of X in this pace: ramp counts, each phase's integrator and published duty, the coefficients in use. The
integrators and the form of the indices are free (log 77). -/
def lawWords (r : Nat) (s : State) : State :=
  let sets := (List.range 8).map fun j => (s.ledger.phase (8 * r + j)).lawSet
  let x := (s.ridge r).eng.x
  let x := ((List.range 4).map fun j => (j, rampWord s (4 * r + j))).foldl (fun x w => cellsWrite x (0x0503 + 4 * w.1) w.2) x
  let x := cellsStore x 0x0510
    ((List.range 8).flatMap fun j => [wordOfInt (Config.freeInt (s.freeN + j)), BitVec.ofNat 16 (s.phase (8 * r + j)).shadow])
  let x := cellsStore x 0x0520 ((List.range 32).map fun i => Config.lawIndex i sets)
  { s with freeN := s.freeN + 8 }.updRidge r fun q => { q with eng := { q.eng with x } }

/-- A ROM law's work of a pace, up to its publish (R158). Law 1's coefficient tables stand in Y from its first pace on; nothing else
writes there while it runs (R392). -/
def lawPace (r : Nat) (s : State) : State :=
  let s := overN 4 (lawPort r) s
  let s := overN 4 (lawShed r) s
  let s := overN 8 (lawPhase r ((List.range 8).map fun j => lawPart s (8 * r + j))) s
  let s := lawWords r s
  s.updRidge r fun q =>
    let y := cellsStore q.eng.y 0x0100 ((List.range 512).map Config.lawCoefficient)
    { q with eng := { q.eng with y := cellsWrite y 0 (outWord0 s r) } }

/-- R35, R37, R264: the program starts at cycle 64; a ROM law has then written its shadows, requests and output block. -/
def ridgeProgramStart (r : Nat) (s : State) : State :=
  let q := s.ridge r
  if s.ridgeLive r && q.started && !q.dmaLate && !q.published && !q.overrun then
    let s := s.updRidge r fun q => { q with eng := q.eng.atStart q.bank.entryAddr s.firstCycle q.bank.latched }
    if q.bank.base = 0 then s else lawPace r s
  else s

def execPaceOverrun (r : Nat) (s : State) : Out := .next (paceOverrun r s)
def execRidgeProgramStart (r : Nat) (s : State) : Out := .next (ridgeProgramStart r s)

end Sys2Proof.Machine
end

