-- ==== Sys2Proof/Machine/Params.lean ====
section
/-! DEFINITION. Parameters (R333 to R351): which are readable, what each reads, validation of a write, and applying one. -/

namespace Sys2Proof.Machine

/-! ### Instances (R300, R335) -/

def feedHere (x : Nat) : Bool := decide (x < 2)

/-- A ridge that is not depopulated (R26). -/
def ridgeHere (s : State) (r : Nat) : Bool := decide (r < 6) && (s.ridge r).run != .depopulated

/-- A port in service as fixed at bring-up (R25). -/
def portHere (s : State) (p : Nat) : Bool := decide (p < 24) && (s.port p).inService

/-- A fitted phase (R24). -/
def phaseHere (s : State) (k : Nat) : Bool := decide (k < 48) && (s.phase k).fitted

/-- An instance of a scope that may be named. -/
def instHere (s : State) (scope inst item : Nat) : Bool :=
  match scope with
  | 0 => inst == 0
  | 1 => feedHere inst
  | 2 => ridgeHere s inst
  | 3 => portHere s inst
  | 4 => phaseHere s inst
  | 5 => decide (inst < 25)
  | 6 => if item < 0x20 then phaseHere s inst else if item < 0x40 then portHere s inst else ridgeHere s inst
  | _ => false

/-- R335: an ID that names an item. -/
def idOk (s : State) (id : Nat) : Bool := (itemRow (pidScope id) (pidItem id)).isSome && instHere s (pidScope id) (pidInst id) (pidItem id)

/-! ### Reading -/

/-- A signed value in 16 bits; an average beyond the range saturates (R343: representable to ±16,383.5 W). -/
def s16 (x : Int) : Nat := twos 16 (sat16 x)

/-- A non-negative value in 16 bits. -/
def u16 (x : Int) : Nat := satU16 x.toNat

/-- Joules from a count of units of 1/`d` J, wrapping at 32 bits (R337). -/
def joules (n d : Nat) : Nat := roundDivNat n d % 2 ^ 32

def bit32 (f : Nat → Bool) (lo n : Nat) : Nat := ((List.range n).map fun i => bitAt i (f (lo + i))).sum

/-- Delivered power of some ports in half watts (R343). -/
def power2 (s : State) (ps : List Nat) : Int := roundDiv ((ps.map fun p => (s.path p).fpAvg).sum) 4

/-- An item of a fault record; a mask reads back as written (R340). -/
def fltItem (s : State) (b : Blk) (i : Nat) : Nat :=
  if i < 2 then (s.flt b).item i else s.maskOf b i

def deviceItem (s : State) (m : Nat) : Nat :=
  let h := s.ledger.hdr
  let o := s.otp
  match m with
  | 0x00 => 0xB1
  | 0x01 => 0x0304
  | 0x02 => s.svc.patchLevel
  | 0x03 => s.frameCount
  | 0x04 => s.seq.wakeCause.toNat
  | 0x05 => seqStatus s
  | 0x06 => s.attn.pending.toNat
  | 0x07 => s.busAddr
  | 0x08 => s16 s.dev.dieAvg
  | 0x09 => satU16 s.dev.vOredAvg
  | 0x0A => u16 s.dev.pFeed
  | 0x0B => s16 (power2 s allPorts)
  | 0x0C => h.lossK
  | 0x0D => h.bUse
  | 0x0E => h.reserve
  | 0x0F => satU16 (bPhysNow s)
  | 0x10 => h.vEval
  | 0x11 => h.overdraw
  | 0x12 => ledgerFlags h
  | 0x13 => h.dipFrames
  | 0x14 => h.running
  | 0x15 => h.shed
  | 0x16 => s16 (power2 s (tierPorts s 0))
  | 0x17 => s16 (power2 s (tierPorts s 1))
  | 0x18 => s16 (power2 s (tierPorts s 2))
  | 0x19 => s16 (power2 s (tierPorts s 3))
  | 0x1A => bit32 (fun k => (s.phase k).fitted) 0 32
  | 0x1B => bit32 (fun k => (s.phase k).fitted) 32 16
  | 0x1C => joules ((s.feed 0).eIn + (s.feed 1).eIn) 5000000000
  | 0x1D => joules ((allPorts.map fun p => (s.path p).eOut8).sum) 8000
  | 0x1E => joules ((allPorts.map fun p => (s.path p).eRet).sum) 125000000000
  | 0x1F => s.dev.uptime
  | 0x20 => o.dualRole
  | 0x21 => o.sbMask
  | 0x22 => o.svid
  | 0x23 => o.seqRetries
  | 0x24 => o.seqTmo
  | 0x25 => o.rsRp
  | 0x26 => o.modes
  | 0x27 => o.calGen
  | 0x28 => o.locks
  | 0x29 => o.fill.getD 1 0
  | 0x2A => o.fill.getD 2 0
  | 0x2B => o.fill.getD 3 0
  | 0x2C => o.fill.getD 4 0
  | 0x2D => o.weakCount
  | 0x2E => o.keyState
  | 0x2F => o.slotState
  | _ => s.written m

def feedItem (s : State) (x m : Nat) : Nat :=
  let f := s.feed x
  match m with
  | 0x00 => feedStatus s x
  | 0x01 => f.uv
  | 0x02 => f.ov
  | 0x03 => f.insDly
  | 0x04 => f.retries
  | 0x05 => satU16 f.vAvg
  | 0x06 => satU16 f.vMin
  | 0x07 => s16 f.iAvg
  | 0x08 => s16 f.iPeak
  | 0x09 => joules f.eIn 5000000000
  | _ => s.written (pid 1 x m)

def RidgeRun.code : RidgeRun → Nat
  | .running => 0
  | .held => 1
  | .stopped => 2
  | .depopulated => 3

/-- Bits of the local phases of a ridge whose record satisfies `f`. -/
def recMask (s : State) (r : Nat) (f : Nat → PhaseRec → Bool) : Nat := bit32 (fun k => f k (s.ledger.phase k)) (8 * r) 8

def ridgeItem (s : State) (r m : Nat) : Nat :=
  let q := s.ridge r
  let h := s.ledger.slices.getD r {}
  match m with
  | 0x04 => q.pubMiss.toNat
  | 0x05 => q.guardReason.toNat
  | 0x06 => q.run.code * 2 ^ 14 + bitAt 13 q.switchPending
  | 0x07 => s16 q.tAvg
  | 0x08 => h.room
  | 0x09 => h.shedV1
  | 0x0A => h.shedV2
  | 0x0B => h.shedV3
  | 0x0C => recMask s r (fun _ x => x.st == 1) + 2 ^ 8 * recMask s r (fun _ x => x.st == 2)
  | 0x0D => recMask s r (fun _ x => x.st == 0) + 2 ^ 8 * recMask s r (fun _ x => x.st == 0 && x.paired)
  | 0x0E => ((List.range 8).map fun j => (s.phase (8 * r + j)).steer % 4 * 4 ^ j).sum
  | 0x0F => s16 (((ridgePorts r).map fun p => (s.path p).fpAvg).sum)
  | 0x10 => q.pLoss
  | 0x11 => joules q.eLoss8 8000
  | 0x12 => q.activeSrc
  | 0x13 => q.activeId
  | 0x14 => q.stagingState
  | 0x15 => q.switchFrame
  | 0x16 => q.paceMargin
  | 0x17 => q.paceMarginMin
  | 0x18 => q.nOverrun
  | 0x19 => q.nPubmiss
  | 0x1A => q.nRefuse
  | 0x1B => q.nMigrate
  | 0x1F => q.decodeId
  | _ => s.written (pid 2 r m)

/-- Local phases of the port's ridge that a ledger places on it in a state. -/
def portMask (s : State) (p st : Nat) : Nat := recMask s (ridgeOfPort p) fun k x => x.st == st && recPort k x == some p

def portItem (s : State) (p m : Nat) : Nat :=
  let q := s.port p
  let h := q.path
  match m with
  | 0x00 => ccStatus s p
  | 0x01 => cableStatus s p
  | 0x02 => pdStatus s p
  | 0x03 => contractWord s p
  | 0x04 => swapStatus s p
  | 0x05 => modeStatus s p
  | 0x06 => pathStatus s p
  | 0x07 => if h.pmode = 0 then 0 else satU16 h.vtgt
  | 0x08 => satU16 h.itgt
  | 0x09 => iLim s p
  | 0x0A => satU16 h.fvAvg
  | 0x0B => satU16 h.fvMin
  | 0x0C => satU16 h.fvMax
  | 0x0D => s16 h.fiAvg
  | 0x0E => s16 h.fiPeak
  | 0x0F => s16 h.fpAvg
  | 0x10 => (s.ledger.port p).ceil
  | 0x11 => (s.ledger.port p).floor
  | 0x12 => satU16 (roundDivNat (q.pd.unmet * 8) 100000)
  | 0x13 => q.pd.sentP
  | 0x14 => portMask s p 1 + 2 ^ 8 * portMask s p 2
  | 0x15 => joules h.eOut8 8000
  | 0x16 => joules h.eRet 125000000000
  | 0x17 => match q.attachFrame with
    | some f => (s.frame - f) % 2 ^ 32
    | none => 0
  | _ => if 0x40 ≤ m then q.counters.getD (m - 0x40) 0 else s.written (pid 3 p m)

def phaseItem (s : State) (k m : Nat) : Nat :=
  match m with
  | 0x00 => (s.phase k).stat.toNat
  | 0x01 => s16 (s.phase k).iAvg
  | _ => s.written (pid 4 k m)

/-- Scope 5 (R349): during a write, the values of the last completed one. -/
def cairnItem (s : State) (n m : Nat) : Nat :=
  let c := s.cairn n
  match m with
  | 0 => if s.ret.writing = some n then c.before else c.state
  | 1 => c.bytes
  | 2 => c.written
  | 3 => c.writes % 2 ^ 32
  | _ => c.crc

/-- Running offset minus calibration offset, in codes; 0 where it has never been measured (R350, R435). -/
def drift (s : State) (c : Nat) (run : Option Int) : Nat :=
  match run with
  | some x => s16 (roundDiv (x - 64 * (s.otp.chanRec c).ofs) 64)
  | none => 0

def diagItem (s : State) (i m : Nat) : Nat :=
  if m < 0x20 then (if m = 4 then drift s i (s.phase i).runOfs else phaseEst (s.phase i) m)
  else if m < 0x40 then
    (if m = 0x23 then drift s (72 + i) (s.path i).vRunOfs else if m = 0x24 then drift s (48 + i) (s.path i).iRunOfs
     else (s.path i).est.getD (m - 0x20) 0)
  else (s.ridge i).est.getD (m - 0x40) 0

/-- DATA of R351. -/
def measureData (s : State) (k : Nat) : List Byte := (List.range 5).flatMap fun m => leBytes 2 (diagItem s k m)

/-- The value a parameter reads (R303). -/
def readParam (s : State) (id : Nat) : Nat :=
  let i := pidInst id
  let m := pidItem id
  match pidFlt id with
  | some (b, j) => fltItem s b j
  | none => match pidScope id with
    | 0 => deviceItem s m
    | 1 => feedItem s i m
    | 2 => ridgeItem s i m
    | 3 => portItem s i m
    | 4 => phaseItem s i m
    | 5 => cairnItem s i m
    | _ => diagItem s i m

/-- `GET_PARAM` DATA (R303). -/
def paramData (s : State) (ids : List Nat) : List Byte := ids.flatMap fun id => leBytes 4 (readParam s id)

def getIds (c : Cmd) : List Nat := (List.range (c.par.length / 2)).map fun i => c.p16 (2 * i)

/-! ### Writing (R304, R336, R348) -/

/-- Entries of a `SET_PARAM`: ID and value. -/
def setEntries (c : Cmd) : List (Nat × Nat) := (List.range (c.par.length / 6)).map fun i => (c.p16 (6 * i), rdLe c.par (6 * i + 2) 4)

/-- The ranges that the tables give read-only items (R304). -/
def roRange (scope item : Nat) : Option (Nat × Nat) :=
  match scope, item with
  | 0, 0x00 => some (0xB1, 0xB1)
  | 0, 0x01 => some (0x0304, 0x0304)
  | 0, 0x07 => some (0x60, 0x67)
  | 0, 0x14 => some (0, 48)
  | 0, 0x15 => some (0, 48)
  | 0, 0x23 => some (1, 7)
  | 0, 0x24 => some (32, 3200)
  | 0, 0x25 => some (0, 1)
  | 0, 0x27 => some (0, 5)
  | 0, 0x2D => some (0, 1024)
  | 1, 0x01 => some (800, 6000)
  | 1, 0x02 => some (800, 6000)
  | 1, 0x03 => some (10, 2550)
  | 1, 0x04 => some (0, 7)
  | 2, 0x12 => some (0, 15)
  | 2, 0x14 => some (0, 3)
  | 2, 0x16 => some (0, 704)
  | 3, 0x09 => some (0, 750)
  | 3, 0x13 => some (0, 240)
  | 5, 0x00 => some (0, 4)
  | 6, 0x01 => some (0, 900)
  | 6, 0x20 => some (0, 900)
  | _, _ => none

/-- A value lies in its item's range (R304, R336, R342, R346). -/
def valueOk (s : State) (id v : Nat) : Bool :=
  let scope := pidScope id
  let m := pidItem id
  match itemRow scope m with
  | none => false
  | some r =>
    (r.wide || decide (v < 65536)) &&
      match r.acc with
      | .ro => match roRange scope m with
        | some (a, b) => decide (a ≤ v) && decide (v ≤ b)
        | none => true
      | .rz => v == 0
      | _ =>
        decide (r.lo ≤ v) && decide (v ≤ r.hi) && (id != 0x46 || v.testBit 1) && (scope != 3 || m != 0x24 || v == 0 || decide (20 ≤ v)) &&
          (scope != 3 || m != 0x20 || v != 1 || s.otp.dualRole.testBit (pidInst id))

/-- No ID twice. -/
def distinct : List Nat → Bool
  | [] => true
  | x :: xs => !xs.contains x && distinct xs

/-- Check 6 of R287 for `SET_PARAM` (R304). -/
def setParamOk (s : State) (c : Cmd) : Bool :=
  let es := setEntries c
  distinct (es.map (·.1)) && es.all fun e => idOk s e.1 && valueOk s e.1 e.2

/-- R304, R348: an item that may not be written. -/
def noAccess (s : State) (id : Nat) : Bool :=
  match itemRow (pidScope id) (pidItem id) with
  | none => true
  | some r => match r.acc with
    | .ro => true
    | .rm => s.marginOn
    | _ => decide (5 ≤ pidScope id)

/-- R338, R346: clearing an item that a write of 0 clears. -/
def clearItem (s : State) (id : Nat) : State :=
  let i := pidInst id
  let m := pidItem id
  if pidScope id = 3 then s.updPort i fun q => { q with counters := q.counters.set (m - 0x40) 0 }
  else s.updRidge i fun q => match m with
    | 0x17 => { q with paceMarginMin := 704 }
    | 0x18 => { q with nOverrun := 0 }
    | 0x19 => { q with nPubmiss := 0 }
    | 0x1A => { q with nRefuse := 0 }
    | 0x1B => { q with nMigrate := 0 }
    | _ => q

/-- The value kept: reserved bits of `OFFER_EN` read back as zero (R336). -/
def keptValue (id v : Nat) : Nat := if pidScope id = 3 && pidItem id == 0x25 then v % 512 else v

/-- R252: a write of a carried item before the cairn restore is kept for it. -/
def noteEarly (s : State) (id v : Nat) : State :=
  if decide (s.seq.milestone < 3) && (cairnOf id).isSome then { s with early := mapSet s.early id v } else s

/-- One entry applied (R340). -/
def applyItem (s : State) (id v : Nat) : State :=
  match itemRow (pidScope id) (pidItem id) with
  | none => s
  | some r =>
    if r.acc == .rz then clearItem s id
    else
      let v := keptValue id v
      let s := match pidFlt id with
        | some _ => { s with fltWrites := s.fltWrites ++ [(id, v)] }
        | none => { s with params := mapSet s.params id v }
      (noteEarly s id v).markItem id

/-- R293: entries applied in order; the names of those whose item a later command had written. -/
def applyEntries (c : Cmd) : List (Nat × Nat) → State → State × List Nat
  | [], s => (s, [])
  | e :: es, s =>
    if s.older c e.1 then
      let (t, l) := applyEntries c es s
      (t, e.1 :: l)
    else applyEntries c es (applyItem { s with itemSeq := mapSet s.itemSeq e.1 c.seqNo } e.1 e.2)

/-- R263: `ATTN_PENDING` is in the reply that is now in the slot, still to be read. -/
def sampleAttn (s : State) (pl : Place) (c : Cmd) : State :=
  if (getIds c).contains 0x0006 && placeChan pl == .host && !c.orphan then
    { s with attn := { s.attn with sampled := s.attn.pending, sinceSample := 0 }, host := { s.host with sampled := true } }
  else s

/-- R66: ACCESSORY_SEEN of a port whose `CC_STATUS` is read clears. -/
def readAccessory (s : State) (ids : List Nat) : State :=
  overN 24 (fun p t => if ids.contains (pid 3 p 0) then t.updCc p fun c => { c with accessory := false } else t) s

/-- R303: `GET_PARAM`. -/
def getParam (pl : Place) (s : State) : State :=
  s.runOp pl 0x20 anyCmd fun c =>
    let ids := getIds c
    sampleAttn ((readAccessory s ids).finish pl stOk (paramData s ids)) pl c

/-- R304, R301: `SET_PARAM`. -/
def setParam (pl : Place) (s : State) : State :=
  s.runOp pl 0x21 anyCmd fun c =>
    let es := setEntries c
    if es.any fun e => noAccess s e.1 then s.finish pl stAccess []
    else
      let (t, skipped) := applyEntries c es s
      if skipped.isEmpty then t.ok pl else t.finish pl stSuperseded (skipped.flatMap (leBytes 2))

def execGetParam (pl : Place) (s : State) : Out := .next (getParam pl s)
def execSetParam (pl : Place) (s : State) : Out := .next (setParam pl s)

end Sys2Proof.Machine
end

