-- ==== Sys2Proof/Machine/Swaps.lean ====
section
/-! DEFINITION. Role swaps (R116 to R129, R475). -/

namespace Sys2Proof.Machine

/-- A swap is in progress from the GoodCRC of its message (R118), which a retry failure takes back (`swapUnsent`); a wait of the
part for the line is broken by it (R91). -/
def beginSwap (s : State) (p : Nat) (kd : SwapKind) (mine : Bool) (step : Nat) : State :=
  (s.updSw p fun w => { w with kind := some kd, mine := mine, frame := s.frame, step := step }).updPd p fun d => if mine then d else d.broken

/-- The swap is suppressed (R121). -/
def suppressed (w : Swap) : SwapKind → Bool
  | .pr => w.prSupp.isSome
  | .dr => w.drSupp.isSome
  | .vconn => w.vcSupp.isSome

/-- A swap message during a contract transition or another swap is a protocol error (R118). -/
def swapClash (s : State) (p : Nat) : Bool := (s.pd p).next.isSome || (s.sw p).kind.isSome

/-! ### PR_Swap (R120) -/

/-- R120: the part, as sink, seeks the source role. R118 lets it start no swap while the ledger does not place the port's first
home phase (or its substitute), which R120's row s would only request then: the model follows R118 (DEDUCED, log 68). -/
def prSwapSend (p : Nat) (s : State) : State :=
  let w := s.sw p
  if sinking s p && s.otp.dualRole.testBit p && s.seq.mode != .serviceBoot && decide (portParam s p 0x2A = 1) && s.mayBegin &&
      s.ran (s.pd p).firstContract 50 && (s.cc p).rp == 2 && !suppressed w .pr && s.quiet p && decide (w.prFails < 3) && s.placed p then
    ((beginSwap s p .pr true 0).updCc p fun c => { c with alloc := true }).send p [.prSwap]
  else s

/-- The part stops drawing and opens its switch; the home phase holds the node at 5.0 V, in forward mode (R120, R170). -/
def prSwapOff (s : State) (p : Nat) : State :=
  let s := s.updSw p fun w => { w with step := 1, frame := s.frame }
  let s := s.updPd p fun d => { d with contract := {}, next := none, want := none, snkAccept := none, firstContract := none, awaiting := none }
  s.updPath p fun h => { h.opened with vtgt := 2500, itgt := 0x7FFF, retKind := 0, pmode := if h.pmode = 0 then 0 else 1 }

def prSwapAccept (p : Nat) (s : State) : State :=
  let w := s.sw p
  if sinking s p && w.kind == some .pr && w.mine && w.step == 0 then prSwapOff (s.heard p) p else s

/-- The partner's PS_RDY: VBUS is confirmed from the next frame on. -/
def prSwapPsRdy (p : Nat) (s : State) : State :=
  let w := s.sw p
  if sinking s p && w.kind == some .pr && w.step == 1 then (s.heard p).updSw p fun w => { w with step := 2, frame := s.frame } else s

/-- R120, at a boundary after the PS_RDY: with VBUS below 0.8 V, Rp at the level of R62 and Attached.SRC. -/
def prSwapConfirm (s : State) (p : Nat) : State :=
  let w := s.sw p
  if w.kind == some .pr && w.step == 2 && decide (w.frame < s.frame) && decide ((s.cc p).vbusMv < 800) then
    let l := rpOf s p
    let s := s.updSw p fun w => { w with step := 3, frame := s.frame }
    let s := s.updCc p fun c => { c.entered .attachedSrc s.now with rp := l, raLatched := false, alloc := false }
    s.updPd p fun d => { d with started := false, everSent := false, capsCount := 0, noPd := false, contract := typecContract l }
  else s

/-- R120: the swap fails into ErrorRecovery; LAST_END keeps its code, since R108 gives swaps none. -/
def swapToRecovery (s : State) (p : Nat) : State := (s.swapFail p 2).errorRecovery p (s.pd p).lastEnd

def prSwapSourceOffTimeout (p : Nat) (s : State) : State :=
  let w := s.sw p
  if s.serves p && s.policyRuns && w.kind == some .pr && w.step == 1 && s.framesSince w.frame 835 then swapToRecovery s p else s

/-- R120: VBUS is not below 0.8 V 5 frames after the PS_RDY. The row of the check stands at PS_RDY + 1 and the rule does not say from which
of the two the 5 frames run; the model counts them from the PS_RDY (DESIGN CHOICE, log 84). -/
def prSwapVbusConfirmTimeout (p : Nat) (s : State) : State :=
  let w := s.sw p
  if s.serves p && s.policyRuns && w.kind == some .pr && w.step == 2 && s.framesSince w.frame 5 && decide (800 ≤ (s.cc p).vbusMv) then
    swapToRecovery s p
  else s

/-- R117, R118: a received PR_Swap. -/
def prSwapReceived (p : Nat) (s : State) : State :=
  if attachedPd s p then
    let s := s.sinkSpoke p
    if swapClash s p then protoError s p
    else if (s.cc p).st == .attachedSrc then
      s.send p [if !s.otp.dualRole.testBit p then .notSupported else if suppressed (s.sw p) .pr then .wait else .reject]
    else if suppressed (s.sw p) .pr then s.send p [.wait]
    else if s.seq.mode == .serviceBoot || portParam s p 0x2A != 1 then s.send p [.reject]
    else if !s.placed p then (s.updCc p fun c => { c with alloc := true }).send p [.wait]
    else (prSwapOff (beginSwap s p .pr false 1) p).send p [.accept]
  else s

/-! ### DR_Swap (R122) -/

/-- The data role changes and the swap completes; a mode entry attempt of the old role ends (R132); a new DFP begins discovery in the next frame, a new UFP stops its own. -/
def drComplete (s : State) (p : Nat) : State :=
  let dfp := !(s.sw p).dfp
  let s := s.setDfp p dfp
  let s := s.swapDone p
  let s := (s.updDc p fun d => { d with attempt := none }).finishWait (.modeEnter p) stFailed [2]
  if dfp then (if (s.pd p).contract.explicit then s.updDc p fun d => { d with startDue := some (s.frame + 1) } else s)
  else s.discEnd p 5

/-- R117: `DR_POLICY` accepts. -/
def drAccepts (s : State) (p : Nat) : Bool :=
  let d := s.dc p
  portParam s p 0x2B == 1 || (portParam s p 0x2B == 2 && s.otp.svid != 0 && d.svids.any fun r => r.svid == s.otp.svid)

/-- A mode is entered on the port: one of the part's as DFP, or the service mode by a tester (R122, R138). -/
def modeOn (s : State) (p : Nat) : Bool := (s.dc p).entered || (s.tester.st != .closed && s.tester.port == p)

/-- R122, R117, R118: a received DR_Swap; the role changes at the GoodCRC of the Accept. Two points are the model's (log 30, log 69):
R108 gives the Hard Reset of an entered mode no LAST_END code, and the model records 4; and no rule orders R118's Wait of a
suppressed swap against R122's Hard Reset, and the model answers Wait. -/
def drSwapReceived (p : Nat) (goodCrc : Bool) (s : State) : State :=
  if attachedPd s p then
    let s := s.sinkSpoke p
    if swapClash s p then protoError s p
    else if suppressed (s.sw p) .dr then s.send p [.wait]
    else if modeOn s p then (beginSwap s p .dr false 0).hardReset p 4 true
    else if s.seq.mode == .serviceBoot || !drAccepts s p then s.send p [.reject]
    else
      let s := (beginSwap s p .dr false 0).send p [.accept]
      if goodCrc then (drComplete s p).rewait p else s.hardReset p 4 true
  else s

/-- DR_Swap is sent (R122, R307). -/
def drSwapStart (s : State) (p : Nat) : State :=
  ((beginSwap s p .dr true 0).updSw p fun w => { w with drExit := false, drDue := false }).send p [.drSwap]

/-- R91, R118, R122: a commanded DR_Swap whose Exit Mode is over goes out once no other sequence runs and the line is the part's. -/
def drSwapFrame (s : State) (p : Nat) : State :=
  if (s.sw p).drDue && attachedPd s p && s.mayBegin then s.startSeq p fun s => drSwapStart s p else s

/-- R307: `PORT_DR_SWAP`. -/
def portDrSwap (pl : Place) (s : State) : State :=
  s.runOp pl 0x31 anyCmd fun c =>
    let p := c.p8 0
    if s.seq.mode == .serviceBoot || !(s.pd p).contract.explicit || swapClash s p || suppressed (s.sw p) .dr || !attachedPd s p then
      s.finish pl stState (leBytes 2 (swapStatus s p))
    else if (s.dc p).entered then
      s.startSeq p fun s =>
        ((((s.updDc p fun d => { d with exitFrame := some s.frame }).updSw p fun w => { w with drExit := true }).send p
          [vdmAsk (s.pd p) (s.dc p).modeSvid 5 (s.dc p).modePos []]).hold pl (.drSwap p))
    else s.startSeq p fun s => (drSwapStart s p).hold pl (.drSwap p)

/-! ### VCONN_Swap (R123 to R126) -/

/-- R123: as source without VCONN. After a trip the swap goes out as the rule says, and R69 keeps the switch open (log 31). -/
def vconnSwapSend (p : Nat) (s : State) : State :=
  let w := s.sw p
  if sourcing s p && !w.vconnSrc && portParam s p 0x2C != 0 && (s.ridge (ridgeOfPort p)).vconnInGood && !w.vcSent &&
      s.ran (s.pd p).firstContract 10 && !suppressed w .vconn && s.mayBegin then
    s.startSeq p fun s => ((beginSwap s p .vconn true 0).updSw p fun w => { w with vcSent := true }).send p [.vconnSwap]
  else s

/-- The switch closes on the non-attached line with soft start (R125, frame v). R67's latch of Ra is the rule of an attach: a port
that swapped to source has latched no Ra, and R120 and R125 give it VCONN by this swap (DEDUCED, log 31). -/
def vconnSwapTake (s : State) (p : Nat) : State :=
  (s.vconnOn p).updSw p fun w => { w with step := 1, frame := s.frame }

/-- R124: the contract is in EPR mode or uses more than 3 A. -/
def vconnNeeded (d : Pd) : Bool := d.epr || decide (300 < d.contract.cur)

/-- R124, R125: a received VCONN_Swap. After a VCONN trip it is accepted like any other, and since R69 keeps the switch open it
ends in the Hard Reset of v + 150 (log 31). -/
def vconnSwapReceived (p : Nat) (s : State) : State :=
  if attachedPd s p then
    let s := s.sinkSpoke p
    let w := s.sw p
    let policy := portParam s p 0x2C
    if swapClash s p then protoError s p
    else if suppressed w .vconn then s.send p [.wait]
    else if (s.cc p).st != .attachedSrc || policy == 0 then s.send p [.reject]
    else if w.vconnSrc then
      if policy != 2 || vconnNeeded (s.pd p) then s.send p [.reject] else (beginSwap s p .vconn false 2).send p [.accept]
    else if !(s.ridge (ridgeOfPort p)).vconnInGood then s.send p [.wait]
    else (vconnSwapTake (beginSwap s p .vconn false 1) p).send p [.accept]
  else s

/-- R125: the partner's PS_RDY ends the hand-over. -/
def vconnSwapPartnerPsRdy (p : Nat) (s : State) : State :=
  let w := s.sw p
  if sourcing s p && w.kind == some .vconn && w.step == 2 then (((s.heard p).vconnOff p).swapDone p).rewait p else s

/-- R125: tVCONNSourceTimeout. R108 gives this Hard Reset no LAST_END code; the model records 4 (DESIGN CHOICE, log 30). -/
def vconnSourceTimeout (p : Nat) (s : State) : State :=
  let w := s.sw p
  if sourcing s p && w.kind == some .vconn && (w.step == 1 || w.step == 2) && s.framesSince w.frame 150 then
    (if w.step = 1 then s.vconnOff p else s).hardReset p 4 true
  else s

/-! ### Answers, suppression, restoration -/

/-- R120, R107: no answer within 27 frames. -/
def swapResponseTimeout (p : Nat) (s : State) : State :=
  let w := s.sw p
  if attachedPd s p && w.kind.isSome && w.mine && w.step == 0 && s.framesSince w.frame 27 then (s.swapFail p 2).seqOver p else s

/-- R121: the partner's answer to a swap of the part; an Accept also answers a Soft_Reset (R107). -/
def swapReplyReceived (p : Nat) (r : SwapReply) (s : State) : State :=
  if attachedPd s p then
    let s := s.heard p
    let w := s.sw p
    if (s.pd p).softReset.isSome && r == .accept then
      (s.updPd p fun d => { d with softReset := none, cableChanged := d.cableChanged || (s.cc p).st == .attachedSrc }).seqOver p
    else if w.kind.isSome && w.mine && w.step == 0 then
      match r with
      | .accept => match w.kind with
        | some .dr => (drComplete s p).seqOver p
        | some .vconn => vconnSwapTake s p
        | _ => s
      | _ => (s.swapFail p 1).seqOver p
    else s
  else s

/-- R121: suppression ends after 1,000 frames. -/
def swapSuppressionEnd (p : Nat) (kd : SwapKind) (s : State) : State :=
  let w := s.sw p
  match kd with
  | .pr => if s.ran w.prSupp 1000 then s.updSw p fun w => { w with prSupp := none } else s
  | .dr => if s.ran w.drSupp 1000 then s.updSw p fun w => { w with drSupp := none } else s
  | .vconn => if s.ran w.vcSupp 1000 then s.updSw p fun w => { w with vcSupp := none } else s

/-- R127: the partner has not restored VBUS within 1,100 frames. -/
def sinkVbusRestoreTimeout (p : Nat) (s : State) : State :=
  if s.serves p && (s.cc p).st == .attachedSnk && s.ran (s.pd p).snkRestore 1100 then
    if s.vbus p < 4000 then leaveSink s p else s.updPd p fun d => { d with snkRestore := none }
  else s

def execPrSwapSend (p : Nat) (s : State) : Out := .next (s.policyRow p (.prSwapSend p) (prSwapSend p))
def execPrSwapAccept (p : Nat) (s : State) : Out := .next (s.policyRow p (.prSwapAccept p) (prSwapAccept p))
def execPrSwapPsRdy (p : Nat) (s : State) : Out := .next (s.policyRow p (.prSwapPsRdy p) (prSwapPsRdy p))
def execPrSwapSourceOffTimeout (p : Nat) (s : State) : Out := .next (s.policyRow p (.prSwapSourceOffTimeout p) (prSwapSourceOffTimeout p))
def execPrSwapVbusConfirmTimeout (p : Nat) (s : State) : Out := .next (s.policyRow p (.prSwapVbusConfirmTimeout p) (prSwapVbusConfirmTimeout p))
def execPrSwapReceived (p : Nat) (s : State) : Out := .next (s.policyRow p (.prSwapReceived p) (prSwapReceived p))
def execDrSwapReceived (x : PortAck) (s : State) : Out := .next (s.policyRow x.port (.drSwapReceived x) (drSwapReceived x.port x.goodCrc))
def execPortDrSwap (pl : Place) (s : State) : Out := .next (portDrSwap pl s)
def execVconnSwapSend (p : Nat) (s : State) : Out := .next (s.policyRow p (.vconnSwapSend p) (vconnSwapSend p))
def execVconnSwapReceived (p : Nat) (s : State) : Out := .next (s.policyRow p (.vconnSwapReceived p) (vconnSwapReceived p))
def execVconnSwapPartnerPsRdy (p : Nat) (s : State) : Out := .next (s.policyRow p (.vconnSwapPartnerPsRdy p) (vconnSwapPartnerPsRdy p))
def execVconnSourceTimeout (p : Nat) (s : State) : Out := .next (s.policyRow p (.vconnSourceTimeout p) (vconnSourceTimeout p))
def execSwapResponseTimeout (p : Nat) (s : State) : Out := .next (s.policyRow p (.swapResponseTimeout p) (swapResponseTimeout p))
def execSwapReplyReceived (p : Nat) (r : SwapReply) (s : State) : Out := .next (s.policyRow p (.swapReplyReceived p r) (swapReplyReceived p r))
def execSwapSuppressionEnd (p : Nat) (kd : SwapKind) (s : State) : Out := .next (swapSuppressionEnd p kd s)
def execSinkVbusRestoreTimeout (p : Nat) (s : State) : Out := .next (sinkVbusRestoreTimeout p s)

end Sys2Proof.Machine
end

