-- ==== Sys2Proof/Machine/Frame.lean ====
section
/-! DEFINITION. The frame boundary (R47, R49, R257, R337, R340, R383 to R386): fault clears, bank switches, the ledger taking force,
the frame's measurements, and settings taken up. -/

namespace Sys2Proof.Machine

/-! ### Block codes (R317) -/

def blkOf (code inst : Nat) : Option Blk :=
  match code with
  | 0x00 => if inst = 0 then some .seq else none
  | 0x01 => if inst = 0 then some .aon else none
  | 0x02 => if inst = 0 then some .supv else none
  | 0x03 => if inst = 0 then some .sense else none
  | 0x04 => if inst = 0 then some .bus else none
  | 0x05 => if inst = 0 then some .otp else none
  | 0x06 => if inst = 0 then some .therm else none
  | 0x10 => if inst < 2 then some (.feed inst) else none
  | 0x11 => if inst < 24 then some (.portCc inst) else none
  | 0x12 => if inst < 24 then some (.portPath inst) else none
  | 0x13 => if inst < 48 then some (.phase inst) else none
  | 0x14 => if inst < 6 then some (.ridge inst) else none
  | _ => none

/-! ### Bank switches (R326, R383, R384, R430) -/

/-- The CRC-32 of a decode table (R377). -/
def Bank.tableId (b : Bank) : Nat := crc32 b.tblBytes

/-- R384, R430: the banks exchange; the copy of a loaded image into retention begins. -/
def State.switchBank (s : State) (r : Nat) : State :=
  let s := s.updRidge r fun q =>
    { q with
      bank := q.staging, staging := q.bank, activeSrc := q.switchSrc, activeId := q.switchId, decodeId := q.staging.tableId
      stagingState := 3, switchPending := false, switchFrame := s.frameCount, steerWord := 0, copying := q.switchSrc == 0
      eng := { q.eng with units := List.replicate 8 {} } }
  let s := if (s.ridge r).activeSrc = 0 then { s with ret := { s.ret with banks := s.ret.banks.set r [] } } else s.markDirty (4 + r)
  s.finishWait (.bankSwitch r) stOk (leBytes 4 s.frameCount)

/-- R383, R385: the switch may take place at this boundary. -/
def State.mayBankSwitch (s : State) (r : Nat) : Bool :=
  (s.ridge r).switchPending &&
    ((s.ridge r).run == .stopped ||
      (List.range 8).all fun j => (s.ledger.phase (8 * r + j)).st != 2 && !(s.phase (8 * r + j)).held)

/-- R383, R384: a pending switch takes place at a frame boundary. -/
def bankSwitch (r : Nat) (s : State) : State :=
  if decide (r < 6) && s.locked && s.atBoundary && s.sup.st != .hold && s.mayBankSwitch r then s.switchBank r else s

/-! ### Fault clears (R257, R264, R265) -/

/-- The stop causes of a ridge (R265). -/
def ridgeStops : Word := 0x0074

/-- R44, R385: a ridge restarts with all phases idle and their PWM enabled again, from the bank that a pending switch makes active first. -/
def State.restartRidge (s : State) (r : Nat) : State :=
  let s := if (s.ridge r).switchPending then s.switchBank r else s
  let s := overN 8 (fun j t => t.updPhase (8 * r + j) fun f =>
    { f with shadow := 0, checked := 0, active := 0, loaded := 0, missed := false, ramp := 0, pwmOff := f.stopped || f.retired }) s
  s.updRidge r fun q =>
    { q with run := .running, overrun := false, held := false, published := false, steerWord := 0
             eng := { q.eng with running := false, units := List.replicate 8 {} } }

/-- The sources of a block whose condition still holds (R257), as bits of its item. -/
def stillHolds (s : State) : Blk → Word
  | .sense => if s.otp.calBad.isEmpty then 0 else 0x0008
  | .therm =>
    BitVec.ofNat 16 (((List.range 6).map fun r => bitAt r (ntcBad (s.ridge r))).sum +
      bitAt 8 (decide (2240 ≤ s.dev.dieTemp)))
  | .otp => (otpStickies { s with fltOtp := {} }).fltOtp.sticky
  | .supv => if s.inn.degradedFrom.isSome then 0x0002 else 0
  | .feed x =>
    let f := s.feed x
    BitVec.ofNat 16 (bitAt 4 (f.st == .holdOff && f.holdOv) + bitAt 5 (f.st == .holdOff && !f.holdOv) + bitAt 6 (decide (2 ≤ f.revRun)))
  | .portCc p =>
    let c := s.cc p
    BitVec.ofNat 16 (bitAt 0 (c.st == .attachWaitSrc && c.unexpSet && c.vbusHighFrom.isSome) +
      bitAt 5 (c.st == .disabled && c.disabledBy == .discharge && decide (800 ≤ c.vbusMv)))
  | .phase k =>
    let f := s.phase k
    BitVec.ofNat 16 (bitAt 2 (f.fitted && f.readsAbsent && f.readsLow) + bitAt 3 (f.fitted && decide (4 ≤ f.invRun)))
  | .ridge r =>
    let q := s.ridge r
    BitVec.ofNat 16 (if q.run == .stopped then bitAt 4 (decide (2 ≤ q.stgfltRun)) + bitAt 6 (ridgeIsHot s r) else 0)
  | _ => 0

/-- A record with the named bits cleared; VALID clears with the last (R257). -/
def Flt.clear (f : Flt) (mask : Word) : Flt :=
  let st := f.sticky &&& ~~~mask
  { f with sticky := st, first := if st = 0 then f.first &&& ~~~(0x08000000 : Word32) else f.first }

/-- The bits of a mask that stood set and now stand clear. -/
def released (before after : Word) : Word := before &&& ~~~after

/-- The latches that cleared bits release (R264). -/
def State.release (s : State) (b : Blk) (w : Word) : State :=
  match b with
  | .feed x =>
    if w.getLsbD 3 then
      let s := s.updFeed x fun f => { f with trips := 0 }
      if (s.feed x).st == .latched then s.feedQualify x else s
    else s
  | .portCc p => if w.getLsbD 5 && (s.cc p).disabledBy == .discharge && decide ((s.cc p).vbusMv < 800) then s.enablePort p else s
  | .portPath p =>
    if w.getLsbD 5 && (s.path p).latched then
      let s := s.updPath p fun h => { h with latched := false, trips := 0 }
      if (s.cc p).disabledBy == .latched then s.enablePort p else s
    else s
  | .phase k =>
    let left := (s.phase k).flt.sticky
    s.updPhase k fun f =>
      { f with
        stopped := f.stopped && (left &&& 0x0007 != 0)
        readsAbsent := f.readsAbsent && left.getLsbD 2
        missed := f.missed && !w.getLsbD 0
        invOut := f.invOut && !w.getLsbD 3 }
  | .ridge r =>
    let s := s.updRidge r fun q =>
      { q with pubMiss := if w.getLsbD 1 then 0 else q.pubMiss, guardReason := if w.getLsbD 3 then 0 else q.guardReason
               stgen := q.stgen || w.getLsbD 5, stgenTick := if w.getLsbD 5 then s.tick else q.stgenTick
               stgenQual := q.stgenQual && !w.getLsbD 5 }
    if (s.ridge r).run == .stopped && (w &&& ridgeStops != 0) && ((s.ridge r).flt.sticky &&& ridgeStops = 0) then s.restartRidge r else s
  | _ => s

/-- R257, R265: a clear acts: the bits clear, every source whose condition still holds sets its own again, and what stays clear is released. -/
def State.clearFault (s : State) (b : Blk) (mask : Word) : State :=
  let before := (s.flt b).sticky &&& mask
  let again := stillHolds s b
  let s := s.setFlt b ((s.flt b).clear mask)
  let s := overN 16 (fun i t => if again.getLsbD i then t.raise b i else t) s
  s.release b (released before (s.flt b).sticky)

/-- The block and mask of a FAULT_CLEAR (R318). -/
def Cmd.clearOf (c : Cmd) : Option (Blk × Word) := (blkOf (c.p8 0) (c.p8 1)).map fun b => (b, BitVec.ofNat 16 (c.p16 2))

/-- R257: a clear accepted before this boundary falls due at it, whatever its class. -/
def State.clearDue (s : State) (c : Cmd) : Bool := c.op == 0x60 && c.accepted && c.wait.isNone && decide (c.frame < s.frame) && s.sup.st != .hold

/-- R47 step 1: the clear at a place acts; its reply follows. -/
def clearAt (pl : Place) (s : State) : State :=
  match s.cmdAt pl with
  | some c =>
    if s.clearDue c then
      match c.clearOf with
      | some (b, m) => (s.clearFault b m).hold pl .faultClear
      | none => s
    else s
  | none => s

def dueClears (s : State) : State := clearAt .tun12 (clearAt .tun0 (clearAt .host12 (clearAt .host0 s)))

/-! ### The ledger takes force (R41, R47, R50, R208, R210) -/

/-- A ledger repeated (R50): HELD set, nothing else changed. -/
def Ledger.again (l : Ledger) : Ledger := { l with hdr := { l.hdr with held := true }, slices := l.slices.map fun h => { h with held := true } }

/-- R50, R210: the solve was not complete: a held ledger. -/
def heldLedger (s : State) : State :=
  let s := { s with ledger := s.ledger.again }
  let full := solveKind s == .full
  let frames := (if full then [s.frame] else []) ++ s.inn.heldFrames.filter fun f => decide (s.frame < f + 100)
  let s := { s.raise .supv 0 with inn := { s.inn with heldFrames := frames, reducedNext := true, capped := false } }
  if decide (3 ≤ frames.length) && s.inn.degradedFrom.isNone then
    { s.raise .supv 1 with inn := { s.inn with degradedFrom := some s.frame, heldFrames := [] } }
  else s

/-- R41: a running phase begins to move to its new slot; one that does not switch takes it at once; for one that the guard holds the
new record takes effect when the guard frees it (R169). The PWM of a phase refused in drain or count is enabled again here, at the next frame
boundary, with its duty at zero (DESIGN CHOICE, log 84: R165 gives no time). -/
def takeSlot (s : State) (k : Nat) (f : Phase) : Phase :=
  let l := s.ledger.phase k
  let n := if l.st = 2 || f.held then f.slotTo else l.slot
  { f with
    slotTo := n
    slot := if f.active = 0 && f.loaded = 0 then n else f.slot
    pwmOff := f.pwmOff && !(f.refused && f.guard == .free || f.guard == .refused)
    refused := false
    guard := if f.guard == .refused then .free else f.guard }

/-- PMODE of a port in the frame (R148, R170, R174; forward from the part's switch-off in a PR_Swap on, R120), and the shed that ends with the placement (R208). -/
def pmodeFrame (s : State) (p : Nat) (h : Path) : Path :=
  let m :=
    if !s.placed p then 0
    else if h.pmode = 2 && h.retKind != 0 then 2
    else if (s.cc p).st == .attachedSnk && !((s.sw p).kind == some .pr && decide (1 ≤ (s.sw p).step)) then 3 else 1
  { h with
    pmode := m
    vtgt := if h.pmode = 0 && m != 0 then 2500 else h.vtgt
    retKind := if m = 2 then h.retKind else 0
    detach := h.detach && m != 0
    shed := h.shed && s.placed p }

/-- R203: overdraw under Type-C current: the level that stood advertised against the new ceiling. -/
def typecFrame (s : State) (p : Nat) (rp : Nat) (d : Pd) : Pd :=
  let c := s.ledger.port p
  let p8 := rpCur rp * 8 / 20
  if d.contract.kind = 1 then
    let od := d.typecOver || decide (c.ceil < p8)
    { d with typecOver := od, typecP8 := if od then max d.typecP8 p8 else 0 }
  else { d with typecOver := false, typecFrom := none, typecP8 := 0 }

/-- R203: whether the advertised level lies within the ceiling, and since when. -/
def typecWithin (s : State) (p : Nat) (d : Pd) : Pd :=
  if d.typecOver && decide (rpCur (s.cc p).rp * 8 / 20 ≤ (s.ledger.port p).ceil) then
    { d with typecFrom := some (d.typecFrom.getD s.frame) }
  else { d with typecFrom := none }

/-- R439: a phase that has been freed open is retired once its ledger carries EXCL 4. -/
def retireFrame (s : State) : State :=
  s.retiring.foldl (fun t x =>
    let k := x.1
    if (t.ledger.phase k).excl = 4 then
      let t := t.updPhase k fun f => { f with retired := true, pwmOff := true, active := 0, loaded := 0 }
      let t := { t with retiring := t.retiring.filter fun y => y.1 != k }
      (t.markDirty (4 + ridgeOfPhase k)).finishWait (.retire k) stOk (leBytes 4 t.frameCount)
    else t) s

/-- R329, R441: a phase that has been measured is placed again once a ledger carries it without EXCL 4, and its command replies. -/
def readmitFrame (s : State) : State :=
  overN 48 (fun k t =>
    if t.anyWait (.readmit k) && !t.readmitting.contains k && (t.ledger.phase k).excl != 4 then
      t.finishWait (.readmit k) stOk (measureData t k)
    else t) s

/-- R94: a ledger solved for an accepted contract takes force. -/
def Pd.ledgerTakes (d : Pd) : Pd := { d with nextIn := if d.nextIn = 1 then 2 else d.nextIn }

/-- R47 steps 2 to 4. -/
def ledgerFrame (s : State) : State :=
  if s.sup.st == .hold then { s with ledger := s.ledger.again }
  else if !s.inn.started then s
  else match s.inn.next with
    | none => heldLedger s
    | some l => overN 24 (fun p t => t.updPd p Pd.ledgerTakes) { s with ledger := l, inn := { s.inn with next := none, capped := false } }

def placeFrame (s : State) : State :=
  let s := overN 48 (fun k t => t.updPhase k (takeSlot t k)) s
  let s := overN 24 (fun p t => t.updPath p (pmodeFrame t p)) s
  let s := overN 24 (fun p t => t.updCc p fun c => { c with alloc := c.alloc && !(c.st == .attachedSrc && t.placed p) }) s
  overN 24 (fun p t => if (t.ledger.port p).overdraw && t.inn.started then t.countUp p .overdraw else t) s

/-! ### The frame's measurements (R185, R337, R435) -/

/-- L(I) of R189 over the running phases of a ridge, in 1/8 W. -/
def ridgeLoss (s : State) (r : Nat) : Nat :=
  let one := fun k =>
    let l := s.ledger.phase k
    match recPort k l with
    | some p => if l.st = 1 then phaseLoss s k (phaseCurrent s p l.share) else 0
    | none => 0
  let x := ratSum ((List.range 8).map fun j => one (8 * r + j))
  roundDivNat x.num.toNat (x.den * 125000)

def ridgeFrame (s : State) (r n : Nat) (q : Ridge) : Ridge :=
  let w := satU16 (ridgeLoss s r)
  { q with
    tAvg := if n = 0 then q.tAvg else roundDiv q.tSum n
    tSum := 0
    pLoss := w
    eLoss8 := q.eLoss8 + w
    paceMargin := q.paceMarginNow
    paceMarginNow := 704 }

/-- Power drawn from both feeds in the frame, in 1/8 W. -/
def feedPower8 (s : State) (n : Nat) : Int :=
  if n = 0 then s.dev.pFeed else roundDiv (((s.feed 0).pSum + (s.feed 1).pSum) * 8) (10000 * n)

/-- Device-wide values of a frame; "at least one feed had power-good in every pace" is taken of one and the same feed (R207;
log 39). -/
def devFrame (s : State) (n : Nat) (d : Dev) : Dev :=
  { d with
    vOredAvg := if n = 0 then d.vOredAvg else roundDivNat d.vOredSum n
    vOredMin := if n = 0 then d.vOredMin else d.vOredLo
    vOredSum := 0, vOredN := 0, vOredLo := 0
    dieAvg := if n = 0 then d.dieAvg else roundDiv d.dieSum n
    dieSum := 0
    dieWarn := d.dieWarn && decide (2080 ≤ d.dieTemp)
    pFeed := feedPower8 s n
    feedGoodAll := (s.feed 0).pgAll || (s.feed 1).pgAll
    uptime := if s.seq.complete then (d.uptime + 1) % 2 ^ 32 else 0 }

def measureFrame (s : State) : State :=
  let n := s.dev.vOredN
  let m := s.marginOn
  let ofs := fun (c : Nat) => 64 * (s.otp.chanRec c).ofs
  let readmit := s.readmitting
  let s := { s with dev := devFrame s n s.dev }
  let s := overN 2 (fun x t => t.updFeed x fun f =>
    let f := feedFrame f
    { f with eIn := f.eIn + f.pSum.toNat, pSum := 0, pgAll := f.pg }) s
  let s := overN 48 (fun k t => t.updPhase k (phaseFrame (m || readmit.contains k) (ofs k) n)) s
  let s := overN 24 (fun p t => t.updPath p fun h =>
    let h := pathFrame m (ofs (72 + p)) (ofs (48 + p)) h
    { h with eRet := h.eRet + h.retSum.toNat, retSum := 0 }) s
  overN 6 (fun r t => t.updRidge r (ridgeFrame t r n)) s

/-- Power delivered at the ports in the source role, in 1/8 W (R185). -/
def sourceOut8 (s : State) : Int :=
  ((allPorts.filter fun p => (s.cc p).st == .attachedSrc).map s.delivered).sum

/-- R207, R209: dip state at a boundary, from the frame before it. -/
def dipFrame (s : State) (i : Innkeeper) : Innkeeper :=
  let good := !noFeed s
  let rt := s.inf 0 0 0x33
  let vs := [(s.feed 0).vAvg, (s.feed 1).vAvg]
  let i := { i with
    feedHist := (s.dev.pFeed :: i.feedHist).take 100
    outHist := (sourceOut8 s :: i.outHist).take 100
    feedless := if good then 0 else i.feedless + 1
    feedlessOut := i.feedlessOut && !good }
  let i := if good && decide (0 < s.inn.feedless) then { i with dip := false, dipHoldOver := false, dipClear := 0 } else i
  if i.dip then
    { i with
      dipLow := (List.range 2).map fun x => min (i.dipLow.getD x 0) (vs.getD x 0)
      dipClear := if rt + 500 ≤ s.dev.vOredAvg then i.dipClear + 1 else 0 }
  else if i.started && good && s.dev.feedGoodAll && decide (s.dev.vOredAvg < rt) then
    { i with dip := true, dipFrom := s.frame, dipHoldOver := false, dipLow := vs, dipClear := 0 }
  else i

/-! ### Settings (R340) -/

/-- R340: written items are taken up by their blocks; `ENABLE` acts (R215), and margin mode disabled ends its measurements (R343). -/
def State.takeParams (s : State) : State :=
  let s := overN 2 (fun x t => t.feedEnable x) { s with inForce := s.params }
  if s.marginOn then s else overN 6 (fun r t => t.updRidge r fun q => { q with probe := q.probe.filter (·.readmit) }) s

/-- R474: a feed that class 0 work of this boundary has put into Qualify counts the frame that begins here. -/
def Feed.countHere (s : State) (f : Feed) : Feed :=
  if f.st == .qualify && f.frameOk.isNone then { f with frameOk := some (s.paceZero || f.window) } else f

/-- What class 0 work of a boundary has written is taken up. -/
def State.takeNow (s : State) : State :=
  overN 2 (fun x t => t.updFeed x (Feed.countHere s)) { s.takeParams with takeUp := false }

/-- R340, R343 to R347: at a frame boundary, what class 0 work has just written is taken up too, before the schedule starts (R47). -/
def paramTakeEffect (s : State) : State :=
  if s.locked && s.takeUp && s.atBoundary then s.takeNow else s

/-! ### The boundary -/

/-- R263, R280: a series of attention attempts starts. -/
def attnFrame (s : State) : State :=
  if s.busMode = 1 && s.attn.writeDue && decide (s.inf 0 0 0x3E = 1) && !s.bus.attnDue && !s.bus.attnWait then
    { s with attn := { s.attn with writeDue := false }, bus := { s.bus with attnDue := true, attnFails := 0 } }
  else s

/-- R47: cycle 0 of pace 0 of a frame: what the pace before it published is checked (R35), then the steps 1 to 4. The class 0 commands of
step 5 act in this pace (`State.cmdDue`), for which suspended tasks resume (R50), and the schedule of step 6 is due. -/
def frameBoundary (s : State) : State :=
  if s.locked && s.pace == 499 && !s.paceZero then
    let s := publishWindows s
    let s := { s with frame := s.frame + 1, pace := 0, paceZero := true, takeUp := true }
    let s := ({ s with sup := { s.sup with cmdCapped := false, pdCapped := false, schedDue := true } }.newPace).interrupt .tick
    let s := dueClears s
    let s := s.takeParams
    let s := measureFrame s
    let s := { s with inn := dipFrame s s.inn }
    let s := match s.otp.calNext with
      | some g => s.takeCal (some g)
      | none => s
    let s := ledgerFrame s
    let rps := allPorts.map fun p => (s.cc p).rp
    let s := readmitFrame (retireFrame (placeFrame s))
    let s := overN 24 (fun p t => t.updPd p (typecFrame t p (rps.getD p 3))) s
    let s := overN 24 (fun p t => if (t.cc p).st == .attachedSrc then ppsFrame t p else t) s
    let s := overN 24 (fun p t => t.updPd p (typecWithin t p)) s
    attnFrame s
  else s

/-! ### The engine clock (R32, R33, R240) -/

def execParamTakeEffect (s : State) : Out := .next (paramTakeEffect s)
def execBankSwitch (r : Nat) (s : State) : Out := .next (bankSwitch r s)

end Sys2Proof.Machine
end

