-- ==== Sys2Proof/Machine/Modes.lean ====
section
/-! DEFINITION. Discovery, alternate modes and VDMs (R130 to R136, R476), with the port opcodes of R306 and R308 to R311. -/

namespace Sys2Proof.Machine

/-! ### Sending a VDM -/

/-- The VDM a step of discovery sends (R130). -/
def stepVdm (e : Pd) (d : Disc) : DiscStep → PdTx
  | .identity => vdmAsk e 0xFF00 1 0 []
  | .svids => vdmAsk e 0xFF00 2 0 []
  | .modes i => vdmAsk e ((d.svids.getD i {}).svid) 3 0 []

def sendStep (s : State) (p : Nat) (st : DiscStep) : State :=
  (s.updDc p fun d => { d with step := some st, status := 1, sentFrame := s.frame, waiting := true, busyFrame := none, startDue := none }).send p
    [stepVdm (s.pd p) (s.dc p) st]

/-- An Enter Mode that has not been sent goes out (R132, R134). -/
def sendEnter (s : State) (p : Nat) (t : ModeTry) : State :=
  (s.updDc p fun d => { d with attempt := some { t with sent := true, frame := s.frame } }).send p [vdmAsk (s.pd p) t.svid 4 t.pos []]

/-- A record cleared for a new discovery (R130, R306). -/
def Disc.cleared (d : Disc) : Disc :=
  { d with status := 1, trunc := false, idVdos := [], svids := [], v10 := false, busyCount := 0, naked := false, step := none, waiting := false }

/-! ### The table (R133, R134) -/

/-- Entry i of a mode policy table: SVID, PORTS, EN, MASK, VALUE. -/
def tableEntry (t : List Byte) (i : Nat) : Nat × Nat × Bool × Nat × Nat :=
  let b := t.drop (16 * i)
  (rdLe b 0 2, rdLe b 2 3, (rdB b 5) % 2 == 1, rdLe b 8 4, rdLe b 12 4)

/-- The positions an entry tries on a port, in rising order, those tried in this attach left out. The table is the one that stood when
the discovery completed (R311). -/
def entryTries (s : State) (p i : Nat) : List ModeTry :=
  let d := s.dc p
  let (svid, ports, en, mask, value) := tableEntry d.table i
  if en && ports.testBit p then
    match d.svids.find? (fun r => r.svid == svid) with
    | some r =>
      ((List.range r.modes.length).filter fun j =>
        (r.modes.getD j 0).toNat &&& mask == value && !d.tried.contains (svid, j + 1)).map fun j =>
          { svid, pos := j + 1, byTable := true, entry := i }
    | none => []
  else []

/-- The next entry attempt of the table, if any. -/
def nextTry (s : State) (p : Nat) : Option ModeTry := ((List.range 8).flatMap fun i => entryTries s p i).head?

/-- R134: the table is walked; the attempt found is sent when a sequence may start. -/
def tableWalk (s : State) (p : Nat) : State :=
  if (s.dc p).entered || !(s.sw p).dfp then s
  else match nextTry s p with
    | some t =>
      let s := s.updDc p fun d => { d with attempt := some t, tried := (t.svid, t.pos) :: d.tried }
      if s.mayStart p then sendEnter s p t else s.waitTx p
    | none => s.updDc p fun d => { d with attempt := none }

/-- Discovery ends complete (STATUS 0x2 or 0x6), and the table of that moment is walked (R132, R311). -/
def discComplete (s : State) (p : Nat) : State :=
  let s := s.discEnd p (if (s.dc p).naked then 6 else 2)
  tableWalk (s.updDc p fun d => { d with table := s.svc.modeTable }) p

/-- The step after one that has been answered: sent at once where a sequence may start, else by the next DISCOVERY_START. -/
def nextStep (s : State) (p : Nat) (st : DiscStep) : State :=
  let s := s.updDc p fun d => { d with step := some st, waiting := false, busyCount := 0, startDue := some s.frame }
  if s.mayStart p then sendStep s p st else s.waitTx p

def modesOrEnd (s : State) (p i : Nat) : State :=
  if i < (s.dc p).svids.length then nextStep s p (.modes i) else discComplete s p

/-! ### Answers to discovery (R130, R131) -/

/-- The SVIDs of a response, up to the first zero. -/
def svidsOf (vdos : List Word32) : List Nat :=
  (vdos.flatMap fun v => [v.toNat / 2 ^ 16, v.toNat % 2 ^ 16]).takeWhile (· != 0)

def addSvids (d : Disc) (l : List Nat) : Disc :=
  let all := d.svids ++ l.map fun v => ({ svid := v } : SvidRec)
  { d with svids := all.take 8, trunc := d.trunc || decide (8 < all.length) }

def discAck (s : State) (p : Nat) (st : DiscStep) (vdos : List Word32) : State :=
  match st with
  | .identity => nextStep (s.updDc p fun d => { d with idVdos := vdos.take 6 }) p .svids
  | .svids =>
    let l := svidsOf vdos
    let s := s.updDc p fun d => addSvids d l
    if l.length = 12 then nextStep s p .svids else modesOrEnd s p 0
  | .modes i =>
    let s := s.updDc p fun d =>
      { d with svids := d.svids.modify i fun r => { r with modes := vdos.take 5 }, trunc := d.trunc || decide (5 < vdos.length) }
    modesOrEnd s p (i + 1)

/-- R130: a NAK. A NAK of a repeated Discover SVIDs leaves no SVIDs recorded, those of the responses before it included: R130 says
both that this end records none and that the record keeps what came before the end (DESIGN CHOICE, log 70). -/
def discNak (s : State) (p : Nat) (st : DiscStep) : State :=
  match st with
  | .identity => s.discEnd p 3
  | .svids => discComplete (s.updDc p fun d => { d with naked := true, svids := [] }) p
  | .modes i => modesOrEnd (s.updDc p fun d => { d with naked := true }) p (i + 1)

def discBusy (s : State) (p : Nat) : State :=
  if (s.dc p).busyCount < 3 then
    s.updDc p fun d => { d with busyFrame := some s.frame, busyCount := d.busyCount + 1, waiting := false }
  else s.discEnd p 7

/-! ### Mode entry, exit and VDM_SEND answers (R132, R134, R308, R309) -/

/-- R132, R134: the mode is entered, by the DFP only. -/
def enterAck (s : State) (p : Nat) (t : ModeTry) : State :=
  let s := s.updDc p fun d =>
    { d with modeSvid := t.svid, modePos := t.pos, entered := true, failed := false, byTable := t.byTable, attempt := none }
  (s.pushEvent 0x11 p (leBytes 4 (modeStatus s p))).finishWait (.modeEnter p) stOk (leBytes 4 (modeStatus s p))

/-- An attempt fails: the next matching position or entry of the table, or the command's failure. -/
def enterFail (s : State) (p : Nat) (t : ModeTry) (why : Nat) : State :=
  let s := s.updDc p fun d => { d with failed := true, attempt := none }
  if t.byTable then tableWalk s p else s.finishWait (.modeEnter p) stFailed [byteOf why]

/-- The mode exited: by the host, or before its DR_Swap, which then waits for the line (R122). -/
def exitDone (s : State) (p : Nat) : State :=
  let dr := (s.sw p).drExit
  let s := (s.modeEnd p (if dr then 3 else 0)).updDc p fun d => { d with exitFrame := none }
  let s := s.finishWait (.modeExit p) stOk []
  if dr then drSwapFrame (s.updSw p fun w => { w with drExit := false, drDue := true }) p else s

def vdmResult (s : State) (p res : Nat) (hdr : List Byte) (vdos : List Word32) : State :=
  (s.updDc p fun d => { d with vdmFrame := none }).pushEvent 0x06 p
    ([byteOf res, 0, 0, 0] ++ hdr ++ (vdos.take 6).flatMap fun v => leBytes 4 v.toNat)

def ackCode : VdmAck → Nat
  | .ack => 0
  | .nak => 1
  | .busy => 2

/-- R130, R132, R134, R135: an answer to a VDM of the part, which ends the sequence (R91). A BUSY answer to Enter Mode is no ACK: the
attempt ends by tVDMWaitModeEntry, as R134 and R308 state (DEDUCED, log 71). -/
def vdmResponse (p : Nat) (k : VdmAck) (v10 : Bool) (vdos : List Word32) (s : State) : State :=
  if attachedPd s p then
    let s := (s.heard p).seqOver p
    let d := s.dc p
    match d.step, d.attempt with
    | some st, _ =>
      if d.waiting then
        let s := s.updDc p fun d => { d with v10 := v10, waiting := false }
        match k with
        | .ack => discAck s p st vdos
        | .nak => discNak s p st
        | .busy => discBusy s p
      else s
    | none, some t =>
      if t.sent && (s.sw p).dfp then
        match k with
        | .ack => enterAck s p t
        | .nak => enterFail s p t 1
        | .busy => s
      else s
    | none, none =>
      if d.exitFrame.isSome then (if k == .ack then exitDone s p else s)
      else if d.vdmFrame.isSome then vdmResult s p (ackCode k) (leBytes 4 (vdmHeader v10 d.modeSvid d.modePos (vdmType k) d.vdmCmd).toNat) vdos
      else s
  else s

/-! ### Timers (R129, R130, R134) -/

/-- R130, R91: the discovery's next step, or an Enter Mode that waits, is sent. -/
def discoveryStart (p : Nat) (s : State) : State :=
  let d := s.dc p
  if attachedPd s p && (s.sw p).dfp && s.mayBegin then
    match d.attempt, d.step with
    | some t, _ => if t.sent then s else s.startSeq p fun s => sendEnter s p t
    | none, some st => if d.waiting || d.busyFrame.isSome then s else s.startSeq p fun s => sendStep s p st
    | none, none =>
      if s.ran d.startDue 0 && (s.pd p).contract.explicit then
        s.startSeq p fun s => sendStep (s.updDc p Disc.cleared) p .identity
      else s
  else s

/-- R130: a BUSY step is retried after tVDMBusy. -/
def vdmBusyRetry (p : Nat) (s : State) : State :=
  let d := s.dc p
  if attachedPd s p && s.ran d.busyFrame 55 && s.mayBegin then
    match d.step with
    | some st => s.startSeq p fun s => sendStep s p st
    | none => s
  else s

/-- R130, R308, R309: tVDMSenderResponse. -/
def vdmResponseTimeout (p : Nat) (s : State) : State :=
  let d := s.dc p
  if attachedPd s p then
    if d.step.isSome && d.waiting && s.framesSince d.sentFrame 27 then (s.discEnd p 4).seqOver p
    else if s.ran d.exitFrame 27 then exitDone (s.seqOver p) p
    else if s.ran d.vdmFrame 27 then (vdmResult s p 3 [0, 0, 0, 0] []).seqOver p
    else s
  else s

/-- R134: tVDMWaitModeEntry. -/
def modeEntryTimeout (p : Nat) (s : State) : State :=
  match (s.dc p).attempt with
  | some t => if attachedPd s p && t.sent && s.framesSince t.frame 45 then enterFail (s.seqOver p) p t 2 else s
  | none => s

/-! ### Received VDMs (R135, R136, R476) -/

def attentionVdmReceived (p : Nat) (hdr : Word32) (vdo : Option Word32) (s : State) : State :=
  if attachedPd s p then
    (s.sinkSpoke p).pushEvent 0x05 p (leBytes 4 hdr.toNat ++ match vdo with
      | some v => leBytes 4 v.toNat
      | none => [])
  else s

def unstructuredVdm (p : Nat) (s : State) : State := if attachedPd s p then (s.sinkSpoke p).send p [.notSupported] else s

/-- The tester policy in force: 1 in service boot (R137). -/
def testerPolicy (s : State) : Nat := if s.seq.mode == .serviceBoot then 1 else s.inf 0 0 0x3B

/-- A tunnel exists (R136). -/
def tunnelExists (s : State) : Bool := s.otp.svid != 0 && testerPolicy s != 0

/-- The ID Header VDO (R136). -/
def idHeader (s : State) (p : Nat) : Word32 := BitVec.ofNat 32 (bitAt 30 (portParam s p 0x27 == 1) + s.otp.svid)

/-- R136: the answer of the part as UFP. -/
def ufpAnswer (s : State) (p : Nat) (v : VdmReq) : VdmAck × List Word32 :=
  if v.cmd = 1 then (.ack, [idHeader s p, 0, 0x0304])
  else if v.cmd = 2 && tunnelExists s then (.ack, [BitVec.ofNat 32 (s.otp.svid * 2 ^ 16)])
  else if v.cmd = 3 && tunnelExists s && v.svid == s.otp.svid then (.ack, [0x00000101])
  else (.nak, [])

def vdmRequestAsUfp (p : Nat) (v : VdmReq) (s : State) : State :=
  if attachedPd s p && !(s.sw p).dfp && v.cmd != 6 then
    let a := ufpAnswer s p v
    (s.sinkSpoke p).send p [vdmReply (s.pd p) a.1 v.svid v.cmd v.pos a.2]
  else s

def vdmRequestAsDfp (p : Nat) (v : VdmReq) (s : State) : State :=
  if attachedPd s p && (s.sw p).dfp && v.cmd != 6 then (s.sinkSpoke p).send p [vdmReply (s.pd p) .nak v.svid v.cmd v.pos []] else s

/-! ### Port opcodes -/

/-- R306: action 0x01. -/
def portErrorRecovery (pl : Place) (s : State) : State :=
  s.runOp pl 0x30 (fun c => c.p8 1 == 1) fun c =>
    let p := c.p8 0
    let st := (s.cc p).st
    if st == .disabled || st == .errorRecovery then s.finish pl stState [] else (s.errorRecovery p 0xC).finish pl stOk []

/-- R306: action 0x02. -/
def portCableDiscover (pl : Place) (s : State) : State :=
  s.runOp pl 0x30 (fun c => c.p8 1 == 2) fun c =>
    let p := c.p8 0
    if !((s.sw p).vconnSrc && (s.vc p).good && sourcing s p) then s.finish pl stState []
    else if (s.vc p).attempt.isSome then s.finish pl stBusy []
    else if s.quiet p then
      ((s.updVc p fun v => { v with attempt := some s.frame, attempts := min 15 (v.attempts + 1), hostTry := true }).send p
        [.discoverIdentityPrime]).hold pl (.cable p)
    else s

/-- R306: action 0x03. -/
def portRediscover (pl : Place) (s : State) : State :=
  s.runOp pl 0x30 (fun c => c.p8 1 == 3) fun c =>
    let p := c.p8 0
    if !((s.sw p).dfp && (s.pd p).contract.explicit && attachedPd s p) then s.finish pl stState []
    else if (s.dc p).step.isSome then s.finish pl stBusy []
    else s.startSeq p fun s => (sendStep (s.updDc p Disc.cleared) p .identity).hold pl (.discovery p)

/-- R308: `MODE_ENTER`. -/
def modeEnter (pl : Place) (s : State) : State :=
  s.runOp pl 0x32 anyCmd fun c =>
    let p := c.p8 0
    let svid := c.p16 1
    let pos := c.p8 3
    let d := s.dc p
    let has := match d.svids.find? (fun r => r.svid == svid) with
      | some r => decide (pos ≤ r.modes.length)
      | none => false
    if !((s.sw p).dfp && (d.status == 2 || d.status == 6) && has && !d.entered && attachedPd s p) then s.finish pl stState []
    else if d.attempt.isSome then s
    else s.startSeq p fun s => (sendEnter s p { svid, pos, entry := 8 }).hold pl (.modeEnter p)

/-- R308: `MODE_EXIT`. -/
def modeExit (pl : Place) (s : State) : State :=
  s.runOp pl 0x33 anyCmd fun c =>
    let p := c.p8 0
    if !(s.dc p).entered then s.finish pl stState []
    else s.startSeq p fun s =>
      ((s.updDc p fun d => { d with exitFrame := some s.frame }).send p [vdmAsk (s.pd p) (s.dc p).modeSvid 5 (s.dc p).modePos []]).hold pl (.modeExit p)

/-- The VDOs of a packet from byte `off`. -/
def vdosAt (c : Cmd) (off n : Nat) : List Word32 := (List.range n).map fun i => BitVec.ofNat 32 (rdLe c.par (off + 4 * i) 4)

/-- R309: `VDM_SEND`; the reply is `OK` at the GoodCRC. Where none comes, Hard Reset follows (R55, R108), and the model answers `FAILED`: the
rule gives that case no reply (DESIGN CHOICE, log 84). -/
def vdmSend (pl : Place) (goodCrc : Bool) (s : State) : State :=
  s.runOp pl 0x34 anyCmd fun c =>
    let p := c.p8 0
    if !(s.dc p).entered then s.finish pl stState []
    else if (s.dc p).vdmFrame.isSome then s.finish pl stBusy []
    else s.startSeq p fun s =>
      let s := s.send p [vdmAsk (s.pd p) (s.dc p).modeSvid (c.p8 1) (s.dc p).modePos (vdosAt c 4 (c.p8 2))]
      if goodCrc then (s.updDc p fun d => { d with vdmFrame := some s.frame, vdmCmd := c.p8 1 }).finish pl stOk []
      else (s.finish pl stFailed []).hardReset p 4 true

/-- R310: `DISC_READ`. -/
def discRead (pl : Place) (s : State) : State :=
  s.runOp pl 0x35 anyCmd fun c =>
    let p := c.p8 0
    s.finish pl stOk (if (s.port p).attachFrame.isSome then discRecord s p else List.replicate 28 0)

/-- R311: `MODE_TABLE` with L = 0. -/
def modeTableRead (pl : Place) (s : State) : State :=
  s.runOp pl 0x36 (fun c => c.plen == 0) fun _ => s.finish pl stOk s.svc.modeTable

/-- One entry of the table replaced. -/
def setEntry (t : List Byte) (i : Nat) (e : List Byte) : List Byte := t.take (16 * i) ++ e ++ t.drop (16 * i + 16)

/-- One entry of a `MODE_TABLE` write, skipped where a later-accepted command has written it (R293, R301); reserved bits read
zero (R9). -/
def writeEntry (c : Cmd) (i : Nat) (s : State) : State :=
  if s.older c (0xE6C0 + i) then s
  else
    let b := (c.par.drop (16 * i)).take 16
    let e := b.take 5 ++ [byteOf (rdB b 5 % 2), 0, 0] ++ b.drop 8
    { s with svc := { s.svc with modeTable := setEntry s.svc.modeTable i e }, itemSeq := mapSet s.itemSeq (0xE6C0 + i) c.seqNo }

/-- R311, R293: `MODE_TABLE` with L = 128. -/
def modeTableWrite (pl : Place) (s : State) : State :=
  s.runOp pl 0x36 (fun c => c.plen == 128) fun c =>
    let skipped := (List.range 8).filter fun i => s.older c (0xE6C0 + i)
    let s := (overN 8 (writeEntry c) s).markDirty 16
    s.finish pl (if skipped.isEmpty then stOk else stSuperseded) (skipped.flatMap fun i => leBytes 2 (0xE6C0 + i))

def execDiscoveryStart (p : Nat) (s : State) : Out := .next (s.restRow p (.discoveryStart p) (discoveryStart p))
def execVdmResponse (p : Nat) (k : VdmAck) (v10 : Bool) (vdos : List Word32) (s : State) : Out := .next (s.restRow p (.vdmResponse p k v10 vdos) (vdmResponse p k v10 vdos))
def execVdmBusyRetry (p : Nat) (s : State) : Out := .next (s.restRow p (.vdmBusyRetry p) (vdmBusyRetry p))
def execVdmResponseTimeout (p : Nat) (s : State) : Out := .next (s.restRow p (.vdmResponseTimeout p) (vdmResponseTimeout p))
def execModeEntryTimeout (p : Nat) (s : State) : Out := .next (s.restRow p (.modeEntryTimeout p) (modeEntryTimeout p))
def execAttentionVdmReceived (p : Nat) (hdr : Word32) (vdo : Option Word32) (s : State) : Out := .next (s.restRow p (.attentionVdmReceived p hdr vdo) (attentionVdmReceived p hdr vdo))
def execUnstructuredVdm (p : Nat) (s : State) : Out := .next (s.restRow p (.unstructuredVdm p) (unstructuredVdm p))
def execVdmRequestAsUfp (p : Nat) (v : VdmReq) (s : State) : Out := .next (s.restRow p (.vdmRequestAsUfp p v) (vdmRequestAsUfp p v))
def execVdmRequestAsDfp (p : Nat) (v : VdmReq) (s : State) : Out := .next (s.restRow p (.vdmRequestAsDfp p v) (vdmRequestAsDfp p v))
def execPortErrorRecovery (pl : Place) (s : State) : Out := .next (portErrorRecovery pl s)
def execPortCableDiscover (pl : Place) (s : State) : Out := .next (portCableDiscover pl s)
def execPortRediscover (pl : Place) (s : State) : Out := .next (portRediscover pl s)
def execModeEnter (pl : Place) (s : State) : Out := .next (modeEnter pl s)
def execModeExit (pl : Place) (s : State) : Out := .next (modeExit pl s)
def execVdmSend (x : SentAck) (s : State) : Out := .next (vdmSend x.place x.goodCrc s)
def execDiscRead (pl : Place) (s : State) : Out := .next (discRead pl s)
def execModeTableRead (pl : Place) (s : State) : Out := .next (modeTableRead pl s)
def execModeTableWrite (pl : Place) (s : State) : Out := .next (modeTableWrite pl s)

end Sys2Proof.Machine
end

