-- ==== Sys2Proof/Machine/Tester.lean ====
section
/-! DEFINITION. The service tester's tunnel (R136 to R143, R298) and USB Type-C Authentication (R144, R331). -/

namespace Sys2Proof.Machine

/-- `k` octets from the part's random generator (log 5). -/
def octetsOf (n k : Nat) : List Byte := (List.range k).map fun i => (Config.freeBytes n k).getD i 0

/-- A byte string brought to `k` bytes: a P-256 key or signature is 64 bytes (R140). -/
def fitTo (k : Nat) (l : List Byte) : List Byte := (List.range k).map fun i => l.getD i 0

/-- The unit identity public key, x then y. -/
def idPublic (s : State) : List Byte := fitTo 64 (Config.publicKey s.otp.idKey)

/-- A signature of the unit identity key with a free nonce. -/
def signWith (s : State) (m : List Byte) : List Byte := fitTo 64 (Config.ecdsaSign s.otp.idKey m s.freeN)

/-! ### Segments (R139, R140) -/

/-- SEG_LAST of a message length. -/
def segLast (len : Nat) : Nat := (len - 1) / 20

/-- Bytes a segment carries. -/
def segSize (len i : Nat) : Nat := min 20 (len - 20 * i)

/-- The data VDOs of bytes. -/
def bytesVdos (bs : List Byte) : List Word32 := (List.range ((bs.length + 3) / 4)).map fun j => BitVec.ofNat 32 (rdLe bs (4 * j) 4)

def vdosBytes (l : List Word32) : List Byte := l.flatMap fun v => leBytes 4 v.toNat

/-- Segment `i` of a message. -/
def mkSegment (typ seq : Nat) (msg : List Byte) (i : Nat) : Segment :=
  { msgType := typ, seq, index := i, last := segLast msg.length, len := msg.length
    data := bytesVdos ((msg.drop (20 * i)).take 20) }

/-- The header VDO of a segment (R140): [31:24] MSG_TYPE, [23:16] SEQ, [15:12] SEG_INDEX, [11:8] SEG_LAST, [7:0] MSG_LEN. -/
def segHeader (g : Segment) : Word32 :=
  BitVec.ofNat 32 (g.msgType % 256 * 2 ^ 24 + g.seq % 256 * 2 ^ 16 + g.index % 16 * 2 ^ 12 + g.last % 16 * 2 ^ 8 + g.len % 256)

/-- A segment as its header VDO and data VDOs spell it (R140). -/
def segOf (h : Word32) (data : List Word32) : Segment :=
  let n := h.toNat
  { msgType := fld n 24 8, seq := fld n 16 8, index := fld n 12 4, last := fld n 8 4, len := fld n 0 8, data }

/-- The header VDO of a SEG_GET: only SEQ and SEG_INDEX are set (R139). -/
def segGetHeader (seq : BitVec 8) (index : BitVec 4) : Word32 := segHeader { seq := seq.toNat, index := index.toNat }

/-- The commands of R139, at object position 1 of the service SVID. -/
def segPutCmd : Nat := 16
def segGetCmd : Nat := 17

/-- The header and data of a segment fit each other (R140). -/
def segmentOk (g : Segment) : Bool :=
  decide (g.last = segLast g.len) && decide (g.index ≤ g.last) && decide (g.len ≤ 255) &&
    decide (g.data.length = (segSize g.len g.index + 3) / 4) &&
    ((vdosBytes g.data).drop (segSize g.len g.index)).all (· == 0)

/-- The segment continues the message being assembled. -/
def continues (t : Tester) (g : Segment) : Bool :=
  decide (g.index = t.inNext) && !t.inWhole && decide (g.msgType = t.inType) && decide (g.seq = t.inSeq) &&
    decide (g.last = t.inLast) && decide (g.len = t.inLen)

/-- A segment 0 may start a message: no unfinished one of the same SEQ stands. -/
def starts (t : Tester) (g : Segment) : Bool :=
  decide (g.index = 0) && (t.inNext == 0 || t.inWhole || decide (g.seq ≠ t.inSeq))

/-- The unfinished message is discarded. -/
def noMessage (t : Tester) : Tester := { t with inNext := 0, inBytes := [], inWhole := false }

def takeSegment (t : Tester) (g : Segment) : Tester :=
  let bs := (if g.index = 0 then [] else t.inBytes) ++ (vdosBytes g.data).take (segSize g.len g.index)
  { t with inType := g.msgType, inSeq := g.seq, inLast := g.last, inLen := g.len, inNext := g.index + 1, inBytes := bs, inWhole := g.index == g.last }

/-- An answer prepared takes the place of any earlier one but a CMD's, whose answer stands in the tunnel's slot; of two answers to one SEQ the
later stands. -/
def reply (t : Tester) (typ seq : Nat) (msg : List Byte) (ready : Bool) : Tester :=
  { noMessage t with
    outType := typ, outSeq := seq, outBytes := msg, outReady := ready, outExists := true, outRead := []
    cmdSeq := t.cmdSeq.filter fun n => n != seq }

/-- R143, R298: a CMD's answer is what the tunnel's slot holds. -/
def cmdReply (t : Tester) (seq : Nat) : Tester :=
  { noMessage t with cmdSeq := some seq, cmdRead := [], outExists := t.outExists && t.outSeq != seq }

/-- An ERR of R141 to the message assembled. -/
def errReply (t : Tester) (code : Nat) : Tester := reply t 0x1F t.inSeq [byteOf code, byteOf t.inSeq, 0, 0] true

def State.updTester (s : State) (f : Tester → Tester) : State := { s with tester := f s.tester }

/-- The session of the port that a tunnel VDM reaches. -/
def sessionAt (s : State) (p : Nat) : Bool := attachedPd s p && !(s.sw p).dfp && s.tester.st != .closed && s.tester.port == p


/-- The answer to SEG_PUT or SEG_GET (R139): an ACK carries a segment header and, to SEG_GET, the data; NAK and BUSY carry none. -/
def segAnswer (s : State) (p cmd : Nat) (k : VdmAck) (vdos : List Word32) : State := s.send p [vdmReply (s.pd p) k s.otp.svid cmd 1 vdos]

/-- R139, R140, R298: a segment of a message. -/
def segPut (p : Nat) (hdr : Word32) (data : List Word32) (s : State) : State :=
  if sessionAt s p then
    let g := segOf hdr data
    let s := (s.sinkSpoke p).updTester fun t => { t with lastVdm := s.frame }
    let t := s.tester
    if segmentOk g && (starts t g || continues t g) then
      let cls := rdB (vdosBytes g.data) 2 % 4
      if g.index = 0 && g.msgType = 0x10 && t.st == .opened && s.tun.classHeld cls then segAnswer s p segPutCmd .busy []
      else
        let s := s.updTester fun t => takeSegment t g
        let s :=
          if s.tester.inWhole then
            if t.st == .lockedOut then s.updTester fun t => errReply t 5
            else if [0x01, 0x03, 0x10].contains g.msgType then s else s.updTester fun t => errReply t 1
          else s
        segAnswer s p segPutCmd .ack [hdr]
    else segAnswer (s.updTester noMessage) p segPutCmd .nak []
  else s

/-- A whole message of a type waits at the session of the port. -/
def wholeAt (s : State) (p typ : Nat) : Bool := sessionAt s p && s.tester.inWhole && s.tester.inType == typ

/-- R138, R142: a failure is counted; the third in an attach locks the session out; the next HELLO's answer waits. -/
def authFailure (s : State) (p code : Nat) : State :=
  let s := s.updDc p fun d => { d with authFails := d.authFails + 1 }
  let out := decide (3 ≤ (s.dc p).authFails)
  s.updTester fun t =>
    { errReply t code with st := if out then .lockedOut else .entered, delayUntil := some (s.frame + 1000) }

/-- R136, R138: Enter Mode on the service SVID. -/
def serviceEnterMode (p pos : Nat) (s : State) : State :=
  if attachedPd s p && !(s.sw p).dfp then
    let s := s.sinkSpoke p
    if tunnelExists s && pos = 1 && s.tester.st == .closed then
      let st : TunSt := if 3 ≤ (s.dc p).authFails then .lockedOut else .entered
      { s with tester := { st := st, port := p, lastVdm := s.frame, delayUntil := s.tester.delayUntil } }.send p
        [vdmReply (s.pd p) .ack s.otp.svid 4 pos []]
    else s.send p [vdmReply (s.pd p) .nak s.otp.svid 4 pos []]
  else s

/-- A HELLO that R141 admits. -/
def helloOk (bs : List Byte) : Bool := bs.length == 36 && rdB bs 0 == 1 && decide (rdB bs 1 ≤ 1)

/-- R138, R141: a whole HELLO. One of another length, version or slot is answered ERR 0x01 and counts as no failure: R138 counts
T_AUTH failures and new HELLOs, and says nothing of it (DESIGN CHOICE, log 72); its ERR does not wait for the delay of R142, which withholds
HELLO_R alone (DESIGN CHOICE, log 84). -/
def hello (p : Nat) (s : State) : State :=
  if wholeAt s p 0x01 then
    let bs := s.tester.inBytes
    match s.tester.st with
    | .entered =>
      if helloOk bs then
        let np := octetsOf s.freeN 32
        let due := match s.tester.delayUntil with
          | some d => decide (d ≤ s.frame)
          | none => true
        s.freeNext.updTester fun t =>
          { reply t 0x02 t.inSeq ([1, 0] ++ leBytes 2 0x0304 ++ np) due with
            st := .authenticating, slot := rdB bs 1, nt := (bs.drop 4).take 32, np }
      else s.updTester fun t => errReply t 1
    | .authenticating => authFailure s p 1
    | _ => s.updTester fun t => errReply t 1
  else s

/-- The signed message of R141 after its first byte. -/
def authMsg (s : State) (head : Byte) (a b : List Byte) : List Byte :=
  head :: a ++ b ++ leBytes 2 s.otp.svid ++ [byteOf s.tester.port]

/-- R142: the workshop privilege granted. -/
def privilege (s : State) : Bool := (s.otp.lo (176 + s.tester.slot)).getLsbD 0 && testerPolicy s != 2

/-- What R142 finds: an ERR code, or none. -/
def authFault (s : State) : Option Nat :=
  let bs := s.tester.inBytes
  let key := bs.take 64
  if bs.length ≠ 128 then some 1
  else if !s.otp.keyMatches (160 + 8 * s.tester.slot) key || !s.otp.idUsable then some 3
  else if !Config.ecdsaVerify key (bs.drop 64) (authMsg s 0x54 s.tester.np s.tester.nt) then some 4
  else none

/-- R138, R142: a whole T_AUTH. -/
def tAuth (p : Nat) (s : State) : State :=
  if wholeAt s p 0x03 then
    match s.tester.st with
    | .authenticating =>
      match authFault s with
      | some code => authFailure s p code
      | none =>
        let w := privilege s
        let msg := idPublic s ++ signWith s (authMsg s 0x50 s.tester.nt s.tester.np) ++ [byteOf (b1 w)]
        (s.freeNext.updTester fun t =>
          { reply t 0x04 t.inSeq msg false with st := .opened, workshop := w, outFrame := s.frame + 40 }).pushEvent 0x20 p [byteOf (b1 w)]
    | _ => s.updTester fun t => errReply t 1
  else s

/-- R142: P_AUTH is ready within 40 frames. -/
def pAuthReady (s : State) : State :=
  if s.tester.outExists && s.tester.outType == 0x04 && s.tester.st == .opened then s.updTester fun t => { t with outReady := true } else s

/-- R143, R298: a whole CMD message: its packet claims the tunnel's slot. -/
def tunnelCmd (p : Nat) (s : State) : State :=
  if wholeAt s p 0x10 then
    if s.tester.st == .opened then
      let c : Cmd := { bytes := s.tester.inBytes, tag := s.tester.inSeq, workshop := s.tester.workshop }
      if s.tun.classHeld c.cls then s.updTester noMessage
      else { s with tun := s.tun.claim c }.updTester fun t => cmdReply t t.inSeq
    else s.updTester fun t => errReply t 2
  else s

/-! ### SEG_GET (R139, R298) -/

/-- The reply read is that of a SUP_RESTART (R330). -/
def isRestartReply (bs : List Byte) : Bool := rdB bs 2 == 0xA3 && rdB bs 0 % 64 == 0

/-- What SEG_GET of SEQ `seq` finds: nothing, not ready (a message received whole that the part has not answered yet included), or
the bytes. -/
def outMessage (s : State) (seq : Nat) : Option (Option (List Byte)) :=
  let t := s.tester
  if t.inWhole && t.inSeq == seq then some none
  else if t.cmdSeq = some seq then
    match s.tun.slot with
    | .empty => none
    | .pending _ _ => some none
    | .ready again bs => some (some (if again then (bs.headD 0 ||| 0x80) :: bs.drop 1 else bs))
  else if !t.outExists || t.outSeq != seq then none
  else if t.outReady then some (some t.outBytes) else some none

/-- Every segment of a CMD's answer from 0 to SEG_LAST has been read: a complete read (R298). -/
def allRead (t : Tester) (n : Nat) : Bool := (List.range (segLast n + 1)).all fun i => t.cmdRead.contains i

/-- Segment `i` of the answer `bs` to a SEQ has been read. -/
def markRead (s : State) (seq : Nat) (bs : List Byte) (i : Nat) : State :=
  if s.tester.cmdSeq = some seq then
    let s := s.updTester fun t => { t with cmdRead := i :: t.cmdRead }
    if allRead s.tester bs.length then
      match s.tun.slot with
      | .ready _ full =>
        { s with tun := { s.tun with slot := .ready true full }, sup := { s.sup with replyRead := s.sup.replyRead || isRestartReply full } }
      | _ => s
    else s
  else s.updTester fun t => { t with outRead := i :: t.outRead }

/-- MSG_TYPE of the answer to a SEQ (R140). -/
def answerType (t : Tester) (seq : Nat) : Nat := if t.cmdSeq = some seq then 0x11 else t.outType

/-- R139, R298: SEG_GET. A segment beyond the SEG_LAST of a ready answer is answered NAK (DESIGN CHOICE, log 84: the spec gives no answer). -/
def segGet (p : Nat) (hdr : Word32) (s : State) : State :=
  if sessionAt s p then
    let g := segOf hdr []
    let s := (s.sinkSpoke p).updTester fun t => { t with lastVdm := s.frame }
    match outMessage s g.seq with
    | none => segAnswer s p segGetCmd .nak []
    | some none => segAnswer s p segGetCmd .busy []
    | some (some bs) =>
      let a := mkSegment (answerType s.tester g.seq) g.seq bs g.index
      if g.index ≤ segLast bs.length then segAnswer (markRead s g.seq bs g.index) p segGetCmd .ack (segHeader a :: a.data)
      else segAnswer s p segGetCmd .nak []
  else s

/-! ### The session's ends and delays -/

/-- R138: 60,000 frames with no tunnel VDM. -/
def sessionIdleTimeout (s : State) : State :=
  if s.tester.st != .closed && s.framesSince s.tester.lastVdm 60000 then s.sessionEnd 4 else s

def serviceExitMode (p : Nat) (s : State) : State :=
  if sessionAt s p then ((s.sinkSpoke p).send p [vdmReply (s.pd p) .ack s.otp.svid 5 1 []]).sessionEnd 0 else s

/-- R142: the answer to the HELLO that waited is ready. -/
def authFailureDelayEnd (s : State) : State :=
  match s.tester.delayUntil with
  | some d =>
    if d ≤ s.frame then
      s.updTester fun t => { t with delayUntil := none, outReady := t.outReady || (t.outExists && t.outType == 0x02) }
    else s
  | none => s

/-- R137: policy 0 ends every session at the next frame boundary. -/
def testerPolicyZero (s : State) : State :=
  if s.atBoundary && testerPolicy s == 0 && s.tester.st != .closed then s.sessionEnd 3 else s

/-! ### USB Type-C Authentication (R144, R331) -/

/-- The challenge answer's signed content, which the spec leaves to USB Type-C Authentication (log 8). -/
def challengeMsg (nonce chain : List Byte) : List Byte := nonce ++ sha256 chain

def secAnswer (s : State) : SecReq → PdTx
  | .getDigests => .secDigests (sha256 s.svc.chain)
  | .getCertificate slot off len => if slot = 0 then .secCert ((s.svc.chain.drop off).take len) else .secError
  | .challenge slot nonce => if slot = 0 then .secAuth (signWith s (challengeMsg nonce s.svc.chain)) else .secError

/-- R144: the responder, on slot 0; ERROR until a chain is loaded. -/
def securityRequest (p : Nat) (q : SecReq) (s : State) : State :=
  if attachedPd s p then
    if (s.pd p).rev20 then s.send p [.notSupported]
    else if s.svc.chain == [] || !s.otp.idUsable then answer s p [.secError]
    else (answer s p [secAnswer s q]).freeNext
  else s

/-- The initiator's reply (R331). -/
def authVerdict (s : State) (p v : Nat) : State :=
  let q := s.port p
  let s := { s with svc := { s.svc with initPort := none, initStep := 0 } }.seqOver p
  s.finishWait (.authInit p) stOk ([byteOf v, 0] ++ leBytes 2 q.peerChain.length ++ fitTo 32 q.peerDigest)

def initStepTo (s : State) (p n : Nat) : State := { s with svc := { s.svc with initStep := n } }.send p [.secRequest n]

/-- R144: the partner's answer advances or ends the run. -/
def securityResponse (p : Nat) (r : SecResp) (s : State) : State :=
  if attachedPd s p && s.svc.initPort == some p then
    let s := match r with
      | .none => s
      | _ => s.heard p
    match r with
    | .none => authVerdict s p 3
    | .error => authVerdict s p 4
    | .digests d => if s.svc.initStep = 0 then initStepTo (s.updPort p fun q => { q with peerDigest := d.take 32 }) p 1 else s
    | .certificate c =>
      if s.svc.initStep = 1 then
        let s := s.updPort p fun q => { q with peerChain := c }
        if Config.chainWellFormed c then initStepTo s p 2 else authVerdict s p 2
      else s
    | .challengeAuth sig =>
      if s.svc.initStep = 2 then
        let c := (s.port p).peerChain
        authVerdict s p (if Config.ecdsaVerify (Config.chainLeafKey c) sig (challengeMsg s.svc.initNonce c) then 0 else 1)
      else s
  else s

/-- R331: `AUTH_INITIATE`. -/
def authInitiate (pl : Place) (s : State) : State :=
  s.runOp pl 0xB3 anyCmd fun c =>
    let p := c.p8 0
    if !(attachedPd s p && (s.pd p).contract.explicit && !(s.pd p).rev20) then s.finish pl stState []
    else if s.svc.initPort.isSome then s.finish pl stBusy []
    else s.startSeq p fun s =>
      let s := (s.updPort p fun q => { q with peerChain := [], peerDigest := [] }).freeNext
      let s := { s with svc := { s.svc with initPort := some p, initNonce := octetsOf (s.freeN - 1) 32 } }
      (initStepTo s p 0).hold pl (.authInit p)

/-- R331: `AUTH_PEER_READ`. -/
def authPeerRead (pl : Place) (s : State) : State :=
  s.runOp pl 0xB4 anyCmd fun c =>
    let ch := (s.port (c.p8 0)).peerChain
    if ch == [] then s.finish pl stState [] else s.finish pl stOk ((ch.drop (c.p16 2)).take 240)

/-- R331, R409: `AUTH_PUBKEY`; a key whose CRC does not match is none. -/
def authPubkey (pl : Place) (s : State) : State :=
  s.runOp pl 0xB1 anyCmd fun _ =>
    if s.otp.idUsable then s.finish pl stOk (idPublic s) else s.finish pl stState []

/-- Bytes written into a string from an offset. -/
def putBytes (l : List Byte) (off : Nat) (d : List Byte) : List Byte := fitTo off l ++ d ++ l.drop (off + d.length)

/-- The chain is sound and its leaf key is the unit identity key (R331). -/
def chainOk (s : State) (c : List Byte) : Bool :=
  Config.chainWellFormed c && s.otp.idUsable && fitTo 64 (Config.chainLeafKey c) == idPublic s

/-- R331: `AUTH_CHAIN_LOAD`. -/
def authChainLoad (pl : Place) (s : State) : State :=
  s.runOp pl 0xB2 anyCmd fun c =>
    let off := c.p16 0
    let total := c.p16 2
    let d := c.par.drop 4
    let v := s.svc
    let old := if off = 0 then [] else v.chainNew
    let have0 := if off = 0 then [] else v.chainHave
    let have1 := have0 ++ ((List.range d.length).map (off + ·)).filter fun i => !have0.contains i
    let v := { v with chainNew := putBytes old off d, chainTotal := total, chainHave := have1 }
    if have1.length < total then { s with svc := v }.finish pl stOk []
    else
      let ch := v.chainNew.take total
      let v := { v with chainNew := [], chainTotal := 0, chainHave := [] }
      if chainOk s ch then ({ s with svc := { v with chain := ch } }.markDirty 17).finish pl stOk []
      else { s with svc := v }.finish pl stFailed [1]

def execServiceEnterMode (p pos : Nat) (s : State) : Out := .next (s.restRow p (.serviceEnterMode p pos) (serviceEnterMode p pos))
def execSegPut (p : Nat) (g : SegVdos) (s : State) : Out := .next (s.restRow p (.segPut p g) (segPut p g.hdr g.data))
def execSegGet (p : Nat) (seq : BitVec 8) (index : BitVec 4) (s : State) : Out := .next (s.restRow p (.segGet p seq index) (segGet p (segGetHeader seq index)))
def execHello (p : Nat) (s : State) : Out := .next (hello p s)
def execTAuth (p : Nat) (s : State) : Out := .next (tAuth p s)
def execPAuthReady (s : State) : Out := .next (pAuthReady s)
def execTunnelCmd (p : Nat) (s : State) : Out := .next (tunnelCmd p s)
def execSessionIdleTimeout (s : State) : Out := .next (sessionIdleTimeout s)
def execServiceExitMode (p : Nat) (s : State) : Out := .next (s.restRow p (.serviceExitMode p) (serviceExitMode p))
def execAuthFailureDelayEnd (s : State) : Out := .next (authFailureDelayEnd s)
def execTesterPolicyZero (s : State) : Out := .next (testerPolicyZero s)
def execSecurityRequest (p : Nat) (q : SecReq) (s : State) : Out := .next (s.restRow p (.securityRequest p q) (securityRequest p q))
def execSecurityResponse (p : Nat) (r : SecResp) (s : State) : Out := .next (s.restRow p (.securityResponse p r) (securityResponse p r))
def execAuthInitiate (pl : Place) (s : State) : Out := .next (authInitiate pl s)
def execAuthPeerRead (pl : Place) (s : State) : Out := .next (authPeerRead pl s)
def execAuthPubkey (pl : Place) (s : State) : Out := .next (authPubkey pl s)
def execAuthChainLoad (pl : Place) (s : State) : Out := .next (authChainLoad pl s)

end Sys2Proof.Machine
end

