-- ==== Sys2Proof/Machine/Accept.lean ====
section
/-! DEFINITION. Validation and acceptance of command packets (R287, R293, R299, R300, R306): the opcode map and the six checks. -/

namespace Sys2Proof.Machine

/-- The first moment an opcode is accepted (R299). -/
inductive FromWhen where
  | s60 | done
deriving DecidableEq, Repr

/-- A row of the opcode map (R299): classes as bits 0 to 2, the parameter lengths, and when it is served. -/
structure OpRow where
  op : Nat
  cls : Nat
  lo : Nat
  hi : Nat
  step : Nat := 1
  start : FromWhen := .s60
  burns : Bool := false

def opRow (op cls lo hi step : Nat) (start : FromWhen) : OpRow := { op, cls, lo, hi, step, start }

/-- R299. -/
def opMap : List OpRow :=
  [opRow 0x01 3 0 0 1 .s60, opRow 0x02 7 0 251 1 .s60, opRow 0x20 3 2 124 2 .s60, opRow 0x21 3 6 246 6 .s60,
   opRow 0x30 7 2 2 1 .done, opRow 0x31 4 1 1 1 .done, opRow 0x32 4 4 4 1 .done, opRow 0x33 4 1 1 1 .done, opRow 0x34 4 4 28 4 .done,
   opRow 0x35 2 1 1 1 .done, opRow 0x36 2 0 128 128 .s60, opRow 0x37 2 1 1 1 .s60, opRow 0x40 6 3 3 1 .done, opRow 0x50 2 2 2 1 .s60] ++
  [opRow 0x60 3 4 4 1 .s60, opRow 0x61 3 1 1 1 .s60, opRow 0x62 3 2 2 1 .s60, opRow 0x70 6 4 4 1 .s60,
   { opRow 0x71 4 8 244 4 .s60 with burns := true }, { opRow 0x72 4 4 4 1 .s60 with burns := true }, opRow 0x74 4 4 4 1 .s60,
   { opRow 0x75 4 0 0 1 .s60 with burns := true }, opRow 0x76 2 2 2 1 .s60, opRow 0x80 4 0 0 1 .done, opRow 0x81 4 8 8 1 .done] ++
  [opRow 0x90 4 8 244 4 .done, opRow 0x91 4 5 5 1 .done, opRow 0x92 4 2 2 1 .done, opRow 0x94 4 8 244 4 .done, opRow 0x98 4 5 244 1 .done,
   opRow 0x99 4 0 0 1 .done, opRow 0x9A 2 0 0 1 .done, opRow 0xA0 4 2 2 1 .done, opRow 0xA1 4 1 1 1 .done, opRow 0xA2 4 1 1 1 .done,
   opRow 0xA3 2 1 1 1 .done, opRow 0xA4 4 1 1 1 .done] ++
  [{ opRow 0xB0 4 0 0 1 .s60 with burns := true }, opRow 0xB1 2 0 0 1 .s60, opRow 0xB2 4 5 244 1 .s60, opRow 0xB3 4 1 1 1 .done,
   opRow 0xB4 6 4 4 1 .done, opRow 0xC0 4 4 4 1 .done, opRow 0xC1 6 3 3 1 .done]

def opOf (op : Nat) : Option OpRow := opMap.find? fun r => r.op == op

def OpRow.lenOk (r : OpRow) (l : Nat) : Bool := decide (r.lo ≤ l) && decide (l ≤ r.hi) && (l - r.lo) % r.step == 0

/-- R299, R306: the class is allowed. -/
def classOk (r : OpRow) (c : Cmd) : Bool :=
  if r.op = 0x30 then
    (if c.p8 1 = 1 then decide (c.cls ≤ 1) else if c.p8 1 = 2 || c.p8 1 = 3 then c.cls == 2 else c.cls != 3)
  else c.cls != 3 && r.cls.testBit c.cls

/-! ### Check 6: parameters in range (R300 to R332) -/

/-- A block instance that R317 names and that is not absent (R300). -/
def blkHere (s : State) (code inst : Nat) : Bool :=
  match blkOf code inst with
  | some (.portCc p) => portHere s p
  | some (.portPath p) => portHere s p
  | some (.phase k) => phaseHere s k
  | some (.ridge r) => ridgeHere s r
  | some _ => true
  | none => false

/-- A calibration channel (R322): its number 0 to 95, where its phase or port is there. -/
def chanOf (s : State) (w : Nat) : Option Nat :=
  let n := fld w 0 6
  match fld w 12 4 with
  | 0 => if phaseHere s n then some n else none
  | 1 => if portHere s n then some (48 + n) else none
  | 2 => if portHere s n then some (72 + n) else none
  | _ => none

/-- The word sets that `OTP_BURN` may name (R320). -/
def burnSet (a n : Nat) : Bool :=
  let within := fun (lo hi : Nat) => decide (lo ≤ a) && decide (a + n ≤ hi)
  within 64 128 || within 128 192 || within 209 256 || within 768 1008

/-- `MODE_TABLE`: an entry with EN 1 has an SVID (R311). -/
def tableParamOk (c : Cmd) : Bool :=
  c.plen == 0 || (List.range 8).all fun i => c.p8 (16 * i + 5) % 2 == 0 || c.p16 (16 * i) != 0

/-- `AUTH_CHAIN_LOAD` (R331). -/
def chainParamOk (s : State) (c : Cmd) : Bool :=
  let off := c.p16 0
  let total := c.p16 2
  decide (1 ≤ total) && decide (total ≤ 2048) && decide (off + (c.plen - 4) ≤ total) && (off == 0 || total == s.svc.chainTotal)

def paramsOk (s : State) (c : Cmd) : Bool :=
  match c.op with
  | 0x20 => (getIds c).all (idOk s)
  | 0x21 => setParamOk s c
  | 0x30 => portHere s (c.p8 0) && decide (1 ≤ c.p8 1) && decide (c.p8 1 ≤ 3)
  | 0x31 => portHere s (c.p8 0)
  | 0x32 => portHere s (c.p8 0) && decide (1 ≤ c.p8 3) && decide (c.p8 3 ≤ 5)
  | 0x33 => portHere s (c.p8 0)
  | 0x34 => portHere s (c.p8 0) && decide (16 ≤ c.p8 1) && decide (c.p8 1 ≤ 31) && decide (c.p8 2 ≤ 6) && c.plen == 4 + 4 * c.p8 2
  | 0x35 => portHere s (c.p8 0)
  | 0x36 => tableParamOk c
  | 0x40 => decide (1 ≤ c.p8 2) && decide (c.p8 2 ≤ 240) && decide (c.p16 0 + c.p8 2 ≤ 800)
  | 0x50 => decide (20 ≤ c.p16 0)
  | 0x60 => blkHere s (c.p8 0) (c.p8 1)
  | 0x61 => decide (c.p8 0 ≤ 1)
  | 0x62 => blkHere s (c.p8 0) (c.p8 1)
  | 0x70 => decide (1 ≤ c.p8 2) && decide (c.p8 2 ≤ 60) && decide (c.p16 0 + c.p8 2 ≤ 1024)
  | 0x71 => decide (1 ≤ c.p8 2) && decide (c.p8 2 ≤ 60) && c.plen == 4 + 4 * c.p8 2 && burnSet (c.p16 0) (c.p8 2)
  | 0x72 => decide (c.p8 0 ≤ 4) && decide (1 ≤ c.p16 2) && decide (c.p16 2 ≤ regionLen (c.p8 0))
  | 0x74 => (chanOf s (c.p16 0)).isSome
  | 0x76 => (chanOf s (c.p16 0)).isSome
  | 0x81 => decide (rdLe c.par 0 8 < 2 ^ 25)
  | 0x90 => ridgeHere s (c.p8 0) && decide (c.p16 2 + (c.plen - 4) / 4 ≤ 8192)
  | 0x91 => ridgeHere s (c.p8 0) && decide (c.p8 1 ≤ 1) && decide (1 ≤ c.p8 4) && decide (c.p8 4 ≤ 60) && decide (c.p16 2 + c.p8 4 ≤ 8192)
  | 0x92 => ridgeHere s (c.p8 0) && decide (c.p8 1 ≤ 1)
  | 0x94 =>
    (c.p8 0 == 0xFF || ridgeHere s (c.p8 0)) && decide (1 ≤ c.p8 2) && decide (c.p8 2 ≤ 60) && c.plen == 4 + 4 * c.p8 2 &&
      decide (c.p8 1 + c.p8 2 ≤ 256)
  | 0x98 => decide (c.p16 0 + (c.plen - 4) ≤ 16544)
  | 0xA0 => phaseHere s (c.p8 0) && decide (c.p8 1 ≤ 1)
  | 0xA1 => phaseHere s (c.p8 0)
  | 0xA2 => portHere s (c.p8 0)
  | 0xA3 => decide (c.p8 0 ≤ 1)
  | 0xA4 => phaseHere s (c.p8 0)
  | 0xB2 => chainParamOk s c
  | 0xB3 => portHere s (c.p8 0)
  | 0xB4 => portHere s (c.p8 0)
  | 0xC0 => ridgeHere s (c.p8 0) && decide (c.p8 1 ≤ 2) && decide (1 ≤ c.p16 2)
  | 0xC1 => decide (1 ≤ c.p8 2) && decide (c.p8 2 ≤ 240) && decide (c.p16 0 + c.p8 2 ≤ 2560)
  | _ => true

/-! ### Acceptance -/

/-- R143, R298: through the tunnel, class 0 and burning opcodes need the workshop privilege. -/
def privilegeOk (ch : Chan) (r : OpRow) (c : Cmd) : Bool := ch == .host || c.workshop || !(c.cls == 0 || r.burns)

/-- R252, R299: the milestone; not asked in service boot, where bring-up does not run. -/
def milestoneOk (s : State) (r : OpRow) : Bool :=
  s.seq.mode == .serviceBoot || (s.seq.interpreter && (r.start == .s60 || decide (6 ≤ s.seq.milestone)))

/-- R287: the status code of the first check that fails. -/
def packetFault (s : State) (ch : Chan) (c : Cmd) : Option Nat :=
  match opOf c.op with
  | none => if c.bytes.length = c.plen + 4 then some stBadOpcode else some stBadLength
  | some r =>
    if c.bytes.length ≠ c.plen + 4 || !r.lenOk c.plen then some stBadLength
    else if !classOk r c then some stBadClass
    else if !privilegeOk ch r c then some stPrivilege
    else if !milestoneOk s r then some stNotYet
    else if !paramsOk s c then some stBadParam
    else none

/-- A packet that still waits for its validation. -/
def fresh (c : Option Cmd) : Option Cmd := c.filter fun c => !c.accepted

/-- R287, R293: a packet is refused with no effect, or takes the next value of the acceptance sequence. -/
def judgePacket (s : State) (ch : Chan) (zero : Bool) (c : Cmd) : State :=
  let x := s.chan ch
  match packetFault s ch c with
  | some code => s.setChan ch ((x.setCmd zero none).answer c code [])
  | none =>
    { s with acceptSeq := s.acceptSeq + 1 }.setChan ch
      (x.setCmd zero (some { c with accepted := true, seqNo := s.acceptSeq + 1, frame := s.frame }))

/-- The command interpreter runs (R252, R290). -/
def State.interprets (s : State) : Bool := s.locked && s.sup.st != .hold && (s.busMode == 1 || s.seq.mode == .serviceBoot)

/-- R287: the next packet of a channel is validated; the class 0 place comes first. -/
def commandAccept (ch : Chan) (s : State) : State :=
  if s.interprets then
    let x := s.chan ch
    match fresh x.place0 with
    | some c => judgePacket s ch true c
    | none => match fresh x.place12 with
      | some c => judgePacket s ch false c
      | none => match x.place3 with
        | some c => s.setChan ch ({ x with place3 := none }.answer c ((packetFault s ch c).getD stBadClass) [])
        | none => s
  else s

def execCommandAccept (ch : Chan) (s : State) : Out := .next (commandAccept ch s)

end Sys2Proof.Machine
end

