-- ==== Sys2Proof/Machine/KnahaWord.lean ====
section
/-! DEFINITION. Knaha instruction words (R359 to R364): the moves of a word, its two encodings, and which words are legal. -/

namespace Sys2Proof.Machine

/-- A word as the engine executes it: move A, and move B where the word is paired. -/
structure KWord where
  a : KMove := {}
  b : Option KMove := none
deriving DecidableEq, Repr, Inhabited

/-! ### Encoding (R359, R360) -/

/-- The 2-bit code of a guard in the paired form (R361). -/
def guard2 (g : Nat) : Nat :=
  match g with
  | 0x1 => 1
  | 0x2 => 2
  | 0x9 => 3
  | _ => 0

/-- The 4-bit code that a 2-bit guard code stands for. -/
def guard4 (g : Nat) : Nat :=
  match g with
  | 1 => 0x1
  | 2 => 0x2
  | 3 => 0x9
  | _ => 0x0

/-- A short move's source: a socket. -/
def srcNum : KSrc → Nat
  | .sock n => n
  | .imm v => v.toNat

/-- The long form (R359). -/
def encodeLong (m : KMove) : Nat :=
  match m.src with
  | .sock n => m.guard * 2 ^ 27 + n * 2 ^ 18 + m.dst * 2 ^ 10
  | .imm v => m.guard * 2 ^ 27 + 2 ^ 26 + v.toNat * 2 ^ 10 + m.dst * 2 ^ 2

/-- The paired form (R360). -/
def encodePair (a b : KMove) : Nat :=
  2 ^ 31 + guard2 a.guard * 2 ^ 29 + srcNum a.src * 2 ^ 23 + a.dst * 2 ^ 16 + guard2 b.guard * 2 ^ 14 + srcNum b.src * 2 ^ 8 + b.dst * 2

def encodeWord (w : KWord) : Word32 :=
  match w.b with
  | none => BitVec.ofNat 32 (encodeLong w.a)
  | some b => BitVec.ofNat 32 (encodePair w.a b)

/-- R359, R360: what a word of program memory says; reserved bits are ignored. -/
def decodeWord (w : Word32) : KWord :=
  let n := w.toNat
  if fld n 31 1 = 1 then
    { a := { guard := guard4 (fld n 29 2), src := .sock (fld n 23 6), dst := fld n 16 7 }
      b := some { guard := guard4 (fld n 14 2), src := .sock (fld n 8 6), dst := fld n 1 7 } }
  else if fld n 26 1 = 1 then { a := { guard := fld n 27 4, src := .imm (BitVec.ofNat 16 (fld n 10 16)), dst := fld n 2 8 } }
  else { a := { guard := fld n 27 4, src := .sock (fld n 18 8), dst := fld n 10 8 } }

/-- A move that the long form can carry. -/
def longOk (m : KMove) : Bool :=
  decide (m.guard < 16) && decide (m.dst < 256) &&
    match m.src with
    | .sock n => decide (n < 256)
    | .imm _ => true

/-- A move that the paired form can carry. -/
def shortOk (m : KMove) : Bool :=
  [0x0, 0x1, 0x2, 0x9].contains m.guard && decide (m.dst < 128) &&
    match m.src with
    | .sock n => decide (n < 64)
    | .imm _ => false

/-- A word that has an encoding. -/
def wordOk (w : KWord) : Bool :=
  match w.b with
  | none => longOk w.a
  | some b => shortOk w.a && shortOk b

/-! ### Legal words (R364, R382 check 6) -/

/-- The destinations a ridge engine has. -/
def ridgeDst (d : Nat) : Bool :=
  d == 0 || (decide (0x08 ≤ d) && decide (d ≤ 0x3B)) || (decide (0x40 ≤ d) && decide (d ≤ 0x65)) ||
    (decide (0x68 ≤ d) && decide (d ≤ 0x71)) || (decide (0x80 ≤ d) && decide (d ≤ 0x9F))

/-- The destinations the supervisor has. -/
def supDst (d : Nat) : Bool :=
  d == 0 || (decide (0x08 ≤ d) && decide (d ≤ 0x3B)) || (decide (0x40 ≤ d) && decide (d ≤ 0x65)) ||
    (decide (0x80 ≤ d) && decide (d ≤ 0xA3))

/-- The reserved bits of a word are zero (R359, R360). -/
def reservedZero (w : Word32) : Bool :=
  let n := w.toNat
  if fld n 31 1 = 1 then n % 2 == 0 else if fld n 26 1 = 1 then n % 4 == 0 else n % 1024 == 0

/-- R382 check 6 for one word. -/
def legalWord (w : Word32) : Bool :=
  let k := decodeWord w
  reservedZero w && ridgeDst k.a.dst && (match k.b with
    | some b => ridgeDst b.dst
    | none => true)

/-! ### Words as commands carry them -/

/-- The word of a command whose own move writes socket `dst`. -/
def argWord (a : KArg) (dst : Nat) : KWord :=
  let own : KMove := { guard := a.op.guard, src := a.op.src, dst := dst }
  match a.other with
  | none => { a := own }
  | some m => if a.selfIsB then { a := m, b := some own } else { a := own, b := some m }

/-- The row's own move is a read of address unit `u` (0 to 3 `px`, 4 to 7 `py`). -/
def reading (a : KArg) (u : Nat) : KArg := { a with op := { a.op with src := .sock (0x20 + u) } }

/-- The reserved bits fit beside the fields of a word: bit 0 of a pair, bits [1:0] beside an immediate, [9:0] beside a socket. -/
def reservedFit (w : KWord) (n : Nat) : Bool :=
  match w.b, w.a.src with
  | some _, _ => decide (n < 2)
  | none, .imm _ => decide (n < 4)
  | none, .sock _ => decide (n < 1024)

/-- R359, R360: the 32-bit instruction word of a command whose own move writes socket `dst`. -/
def argBits (a : KArg) (dst : Nat) : Word32 := encodeWord (argWord a dst) + BitVec.ofNat 32 a.reserved

end Sys2Proof.Machine
end

