-- ==== Sys2Proof/Machine/Images.lean ====
section
/-! DEFINITION. Program images, decode tables and patches: their checks (R327, R328, R377, R380 to R382, R386, R430). -/

namespace Sys2Proof.Machine

/-! ### Decode tables (R375 to R377) -/

/-- The fields a micro-op must leave zero (R375, R376). -/
def entryOk (e : Word32) : Bool :=
  let n := e.toNat
  let fn := fld n 26 5
  let dst := fld n 23 3
  let a := fld n 20 3
  let b := fld n 17 3
  let imm := n.testBit 16
  let v := fld n 0 16
  let operandB := if imm then b == 0 else v == 0
  if fn = 0x00 then operandB && b == 0 && (!imm || a == 0)
  else if fn = 0x0D || fn = 0x0E then b == 0 && !imm && v == 0
  else if fn = 0x12 then dst == 0 && a == 0 && b == 0 && !imm && v == 0
  else decide (fn ≤ 0x12) && operandB

/-- R377: the table check. -/
def tableOk (b : Bank) : Bool := (List.range 256).all fun i => entryOk (b.entry i)

/-! ### Program images (R380 to R382) -/

/-- LENGTH of the image's header. -/
def Bank.length (b : Bank) : Nat := fld (b.word 2).toNat 0 14

/-- R381: the CRC over words 0 to LENGTH − 1 with word 8 taken as zero. -/
def Bank.crc (b : Bank) : Nat :=
  crc32 ((List.range b.length).flatMap fun i => leBytes 4 (if i = 8 then 0 else (b.word i).toNat))

/-- Reserved header fields are zero. -/
def headerZeros (b : Bank) : Bool :=
  let w := fun i => (b.word i).toNat
  w 1 / 2 ^ 16 == 0 && w 2 / 2 ^ 14 == 0 && w 3 / 2 ^ 13 == 0 && w 4 / 2 == 0 && w 5 / 2 ^ 10 == 0 &&
    (List.range 7).all fun i => w (9 + i) == 0

/-- R382: the number of the first check that fails; none where all pass. -/
def imageFault (b : Bank) : Option Nat :=
  let len := b.length
  let entry := fld (b.word 3).toNat 0 13
  let wcet := fld (b.word 5).toNat 0 10
  if (b.word 0).toNat != 0x50524E4B || fld (b.word 1).toNat 0 16 != 1 then some 1
  else if len < 16 || 8192 < len then some 2
  else if entry < 16 || len ≤ entry then some 3
  else if (b.word 8).toNat != b.crc then some 4
  else if wcet < 1 || 704 < wcet || !headerZeros b then some 5
  else if !((List.range (len - 16)).all fun i => legalWord (b.word (16 + i))) then some 6
  else if !tableOk b then some 7
  else if (b.word 6).toNat != 0 && (b.word 6).toNat != b.tableId then some 8
  else none

/-- Words LENGTH to 8,191 set to zero (R382). -/
def Bank.trimmed (b : Bank) : Bank := { b with words := b.words.filter fun w => decide (w.1 < b.length) }

/-- A ROM law with the decode table it declares (R326, R391). -/
def lawBank (n : Nat) : Bank := { base := n, tblBase := n }
def lawId (n : Nat) : Nat := 0xFFFF0000 + n

/-! ### The retained bank (R386, R430) -/

def ridgeCairn (r : Nat) : Nat := 4 + r
def decodeCairn (r : Nat) : Nat := 19 + r

/-- What the ridge bank load finds: the bank and its source, and whether the retained one failed. -/
structure Loaded where
  bank : Bank := lawBank 1
  src : Nat := 1
  id : Nat := 0xFFFF0001
  bad : Bool := false

/-- R386, R430: the retained bank if it passes, else law 1. -/
def retainedBank (s : State) (r : Nat) : Loaded :=
  let c := s.cairn (ridgeCairn r)
  let d := s.cairn (decodeCairn r)
  if !c.valid then { bad := true }
  else if rdLe c.record 6 2 != 0 then {}
  else
    let b : Bank := { words := s.ret.banks.getD r [], tbl := listWords (wordsFrom 256 d.record) }
    let id := rdLe c.record 8 4
    if d.valid && (imageFault b).isNone && b.crc == id then { bank := b, src := 0, id := id } else { bad := true }

/-- A bank starts in a ridge without a switch command (R250, R384). -/
def Ridge.start (b : Bank) (src id frame : Nat) (q : Ridge) : Ridge :=
  { q with
    bank := b, staging := q.bank, activeSrc := src, activeId := id, decodeId := b.tableId, stagingState := if q.started then 3 else 0
    switchPending := false, switchFrame := frame, started := true, steerWord := 0
    eng := { q.eng with units := List.replicate 8 {}, running := false } }

/-- R250, R386: the bank load of one ridge. -/
def State.loadBank (s : State) (r : Nat) : State :=
  let s := s.checkCairn (decodeCairn r)
  let l := retainedBank s r
  let s := s.updRidge r (Ridge.start l.bank l.src l.id s.frameCount)
  if l.bad then
    let s := s.raise .aon 3
    if (s.cairn (ridgeCairn r)).valid then s.markDirty (ridgeCairn r) else s
  else s

/-! ### Patches (R327, R328) -/

def patchWords (img : List Byte) : Nat := rdLe img 8 2
def patchLevelOf (img : List Byte) : Nat := rdLe img 6 2

/-- R328: the number of the first check that fails. -/
def patchFault (o : Otp) (img : List Byte) (len : Nat) : Option Nat :=
  let n := patchWords img
  let slot := rdB img 10
  let key := (img.drop 32).take 64
  let sig := (img.drop 96).take 64
  if rdLe img 0 4 != 0x54505653 || rdLe img 4 2 != 0x0304 then some 1
  else if n = 0 || 4096 < n || patchLevelOf img = 0 || len != 160 + 4 * n then some 2
  else if 3 < slot || !o.keyMatches (128 + 8 * slot) key then some 3
  else if !Config.ecdsaVerify key (img.take 32 ++ (img.drop 160).take (4 * n)) sig then some 4
  else none

/-- The words of an image as patch RAM takes them (R7, R327). -/
def patchBody (img : List Byte) : List Word32 :=
  (List.range (patchWords img)).map fun i => BitVec.ofNat 32 (rdLe img (160 + 4 * i) 4)

/-- No patch runs. -/
def Service.noPatch (v : Service) : Service := { v with patchRunning := false, patchLevel := 0, patchRam := [] }

/-- R352, R354: the supervisor's program word at an address: patch RAM over ROM words 0xF000 to 0xFFFF while a patch runs. -/
def supervisorWord (s : State) (a : Nat) : Word32 :=
  if s.svc.patchLevel ≠ 0 ∧ 0xF000 ≤ a then s.svc.patchRam.getD (a - 0xF000) (Config.patchTail (a - 0xF000)) else Config.supervisorRom a

/-- R250, R313, R445: a retained patch is verified and runs, or is discarded with PATCH_BAD and event 0x39. -/
def State.verifyRetained (s : State) : State :=
  let s := s.checkCairn 18
  let c := s.cairn 18
  if !c.valid || c.record.isEmpty then { s with svc := { s.svc with patch := [] }.noPatch }
  else match patchFault s.otp c.record c.record.length with
    | none => { s with svc := { s.svc with patch := c.record, patchRunning := true, patchLevel := patchLevelOf c.record, patchRam := patchBody c.record } }
    | some n =>
      let s := { s with svc := { s.svc with patch := [] }.noPatch }
      let cause : Nat := if n = 1 && rdLe c.record 4 2 != 0x0304 then 1 else 0
      ((s.raise .supv 3).pushEvent 0x39 0 [byteOf cause]).markDirty 18

end Sys2Proof.Machine
end

