-- ==== Sys2Proof/Machine/SeqOps.lean ====
section
/-! DEFINITION. What the sequencer's commands share (R233 to R249, R258, R456): the start of a sequence, the ordered shutdown, the total
shut-off, rail failures, and wakes. -/

namespace Sys2Proof.Machine

def State.updSeq (s : State) (f : Seq → Seq) : State := { s with seq := f s.seq }

/-! ### The VCORE domain (R258, R422, R423) -/

/-- The always-on part of a cairn: nothing is dirty and no write is open when `VCORE` comes up. -/
def Cairn.fresh (c : Cairn) : Cairn := { c with dirty := false, buf := [] }

/-- A port as a sequence finds it: unattached (R423), its discharge as the always-on domain holds it (R457), its passive Rd (R75). A weak mask
bit, which R75 says may fail to connect it, connects it as the low reference reads it (DESIGN CHOICE, log 84). -/
def Port.fresh (o : Otp) (p : Nat) (q : Port) : Port :=
  { cc := { disch := q.cc.disch, dischTick := q.cc.dischTick, vbusMv := q.cc.vbusMv, passiveRd := (o.lo 64).getLsbD p, flt := fltFresh (.portCc p) }
    path := { flt := fltFresh (.portPath p) } }

/-- The values of restore L and of the running calibration go; what burns keep and the critical latches stay (R400, R401). -/
def Otp.fresh (o : Otp) : Otp := { o with calUse := none, calNext := none, calBad := [], staged := [] }

/-- R258, R298, R312, R423: everything of the `VCORE` domain at its reset values. -/
def State.vcoreReset (s : State) : State :=
  { State.reset with
    pending := s.pending
    tick := s.tick
    freeN := s.freeN
    seq := s.seq
    fltSeq := { s.fltSeq with stamp := 0 }
    fltAon := { s.fltAon with stamp := 0 }
    faultN := { s.faultN with quietUntil := 0, action := none }
    attn := { note := s.attn.note }
    bus := { addrPins := s.bus.addrPins, idle := s.bus.idle, vcoreFe := s.bus.vcoreFe }
    otp := s.otp.fresh
    ret := { s.ret with cairns := s.ret.cairns.map Cairn.fresh, writing := none }
    ports := (List.range 24).map fun p => (s.port p).fresh s.otp p }

/-! ### Starting (R236, R238, R243, R246) -/

/-- A step begins: its first tick is this one (R239). -/
def Seq.enter (q : Seq) (n tick frame : Nat) : Seq := { q with step := n, stepTick := tick, sub := 0, subTick := tick, stepFrame := frame }

/-- The sequencer's own state for a sequence. -/
def Seq.begun (q : Seq) (mode : SeqMode) (first tick causes : Nat) (fresh boot : Bool) : Seq :=
  { mode := mode, step := first, stepTick := tick, subTick := tick
    retries := if fresh then 0 else q.retries
    failStep := q.failStep, lastTso := q.lastTso, noFall := q.noFall
    wakeCause := (if q.mode == .retention then 0 else q.wakeCause) ||| BitVec.ofNat 16 causes
    ign := q.ign, vbatOk := q.vbatOk, vboot := q.vboot, boot := boot }

/-- R261: a fresh sequence out of sequencing failure releases the pin with mode 0 and holds it with mode 1. -/
def faultPinStart (s : State) : FaultN :=
  if s.seq.mode == .seqFailure then { s.faultN with hold := s.faultN.hold || decide (s.inf 0 0 0x3A = 1) } else s.faultN

/-- R222: a retry within the same count keeps the feeds' trip counts. -/
def State.keepTrips (t s : State) : State := overN 2 (fun x u => u.updFeed x fun f => { f with trips := (s.feed x).trips }) t

/-- A sequence starts at step 0. -/
def State.startSequence (s : State) (causes : Nat) (fresh : Bool) : State :=
  let s := { s with faultN := faultPinStart s }
  let t := { s with seq := s.seq.begun .sequencing 0 s.tick causes fresh false }.vcoreReset
  if fresh then t else t.keepTrips s

/-- R237: service boot brings up the three internal rails from step 1. -/
def State.startBoot (s : State) (causes : Nat) (fresh : Bool) : State :=
  let s := { s with faultN := faultPinStart s }
  { s with seq := s.seq.begun .serviceBoot 1 s.tick causes fresh true }.vcoreReset

/-- A start of the kind that the supplies allow: service boot only while `VBAT_AON` is below its minimum (R77, R237; log 79). -/
def State.startAgain (s : State) (causes : Nat) (fresh : Bool) : State :=
  if s.seq.boot && !s.seq.vbatOk then s.startBoot causes fresh else s.startSequence causes fresh

/-- Wake conditions that end sequencing failure (R243) and integrity hold (R240), as bits of `WAKE_CAUSE`. -/
def endsFailure : Word := 0x0019
def endsIntegrity : Word := 0x0018

/-- R236, R240, R243, R246: a wake condition qualifies. While `VBAT_AON` is below its minimum only `VBOOT` wakes the part: after a
reset held in service boot that is a `VBOOT` that still stands qualified (R237). -/
def State.wake (s : State) (bit : Nat) : State :=
  let m : Word := BitVec.ofNat 16 (2 ^ bit)
  let go := if s.seq.resetLow then s else s.startAgain (2 ^ bit) true
  match s.seq.mode with
  | .retention => if s.seq.boot && !s.seq.vbatOk && !(bit == 3 && s.seq.vboot) then s else go
  | .sequencing => s.updSeq fun q => { q with wakeCause := q.wakeCause ||| m }
  | .shutdown => s.updSeq fun q => { q with wakeNoted := q.wakeNoted ||| m }
  | .shutoff => s.updSeq fun q => { q with wakeNoted := q.wakeNoted ||| m }
  | .holdoff => s.updSeq fun q => { q with wakeNoted := q.wakeNoted ||| m }
  | .seqFailure => if m &&& endsFailure = 0 then s else go
  | .integrityHold => if m &&& endsIntegrity = 0 then s else go
  | .serviceBoot => if s.seq.complete || !s.seq.vbatOk then s else s.updSeq fun q => { q with wakeCause := q.wakeCause ||| m }
  | _ => s

/-! ### Going down (R245, R247) -/

/-- A port's switches open; the detach discharge is the always-on domain's to keep, with `VBAT_AON` (R247, R457). -/
def State.portOff (s : State) (p : Nat) : State :=
  let s := (s.updPath p Path.opened).vconnOff p
  if s.seq.vbatOk then s.discharge p true else s

/-- R245 step 7, R385: switches open with the detach discharge, PWM low, `STEER_xx` released, `STGEN_r` low; a bank switch still pending is
cancelled and the staging bank is lost. -/
def State.outputsOff (s : State) : State :=
  let s := overN 24 (fun p t => t.portOff p) s
  let s := overN 24 (fun p t => (t.updCc p fun c => { c with st := .disabled, disabledBy := .bringup, alloc := false }).updPort p fun q => { q with inService := false }) s
  let s := overN 48 (fun k t => t.updPhase k Phase.off) s
  overN 6 (fun r t => t.updRidge r fun q =>
    { q with
      stgen := false, stgenQual := false, started := false, switchPending := false, stagingState := 0, staging := {}
      eng := { q.eng with running := false } }) s

/-- R245 step 6: both feeds to Off; a trip in the same pace is not counted (R229). -/
def State.feedsDown (s : State) : State :=
  overN 2 (fun x t => (if (t.feed x).st == .off then t else t.feedOff x).updFeed x fun f =>
    { f with armed := false, trips := if f.tripAt == some s.now then f.tripWas else f.trips }) s

/-- R274: control of the bus passes to the front end whose turn it is, while the bus is idle. -/
def State.handOver (s : State) : State :=
  if s.bus.idle then { s with bus := { s.bus with vcoreFe := s.locked } } else s

/-- R274: with `VCORE` lost a transaction of its front end ends, and both lines are released. -/
def State.busLost (s : State) : State :=
  if s.bus.vcoreFe && !s.bus.idle then { s with bus := { s.bus with out := [], nacked := true } } else s

/-- R295: commands in flight end with `VCORE`. The engine clock stops: a pulse in progress or due goes on by ticks (R259), an open cairn write is abandoned (R427). -/
def State.vcoreDown (s : State) : State :=
  let s := s.cairnAbandon
  let n := s.faultN
  let n := if n.pulse && !n.byTicks then { n with byTicks := true, pulseAt := s.tick } else n
  (({ s with locked := false, faultN := n, host := {}, tun := {} } : State).busLost).handOver

/-- R75: with `VIO` off the CC layer is unpowered. -/
def State.vioDown (s : State) : State :=
  overN 24 (fun p t => t.updCc p fun c => { c with passiveRd := (t.otp.lo 64).getLsbD p, activeRd := false }) s

/-- R245: what undoing a step does. -/
def State.undo (s : State) (n : Nat) : State :=
  match n with
  | 7 => s.outputsOff
  | 6 => s.feedsDown
  | 3 => s.vcoreDown
  | 1 => s.vioDown
  | _ => s

/-- The next step down begins to be undone. -/
def State.downTo (s : State) (n : Nat) : State :=
  (s.updSeq fun q => { q with downStep := n, downTick := s.tick, sub := if 5 ≤ n then q.sub else 0 }).undo n

/-- R244, R295: an ordered shutdown begins, from the highest step begun. -/
def State.orderedShutdown (s : State) (after : After) : State :=
  let top := if s.seq.mode == .running then 7 else s.seq.step
  let spare := s.otp.modes.testBit 2 && (decide (5 < s.seq.step) || (s.seq.step == 5 && s.seq.sub == 1))
  let s := { s with host := s.host.dropReplies, tun := s.tun.dropReplies }
  let s := s.updSeq fun q =>
    { q with mode := .shutdown, after := after, noFall := false, lastTso := false, holdLen := 640, wakeNoted := 0, sleepAt := none
             sub := if spare then 1 else 0, interpreter := false }
  s.downTo top

/-- R243: the count of an attempt after a rail failure of a step. -/
def State.countFailure (s : State) (step : Nat) : State × After :=
  let more := decide (s.seq.retries < s.otp.seqRetries)
  let s := (s.raise .seq 0).updSeq fun q => { q with failStep := step, retries := if more then q.retries + 1 else q.retries }
  (s, if more then .retry else .failure)

/-- R243: a rail failure. -/
def State.railFailure (s : State) (step : Nat) : State :=
  let (s, after) := s.countFailure step
  s.orderedShutdown after

/-- R247: the total shut-off. -/
def State.totalShutOff (s : State) (after : After) (hold : Nat) : State :=
  let s := { s with host := s.host.dropReplies, tun := s.tun.dropReplies }
  let s := s.outputsOff.feedsDown.vcoreDown.vioDown
  s.updSeq fun q =>
    { q with mode := .shutoff, after := after, holdLen := hold, tsoTick := s.tick, lastTso := true, noFall := false
             wakeNoted := if q.mode == .shutdown then q.wakeNoted else 0, sleepAt := none, interpreter := false }

/-- A sequence is under way or the part runs, in full or in service boot. -/
def State.powered (s : State) : Bool := s.seq.mode == .sequencing || s.seq.mode == .running || s.seq.mode == .serviceBoot

/-- R248: a running-rail or clock fault during sequencing, or within 1,000 frames of completion, counts as a rail failure. -/
def State.early1000 (s : State) : Bool := !s.seq.complete || decide (s.frame < s.seq.sFrame + 1000)

/-- R247, R248: the total shut-off of a running-rail or clock fault. In an ordered shutdown that already leads to a retry or a failure state
that outcome stands (DESIGN CHOICE, log 45); one toward rest follows the table. -/
def State.faultShutOff (s : State) (bit : Nat) : State :=
  let s := s.raise .seq bit
  if s.seq.mode == .shutdown && s.seq.after != .rest then s.totalShutOff s.seq.after 640
  else if s.early1000 then
    let (s, after) := s.countFailure s.seq.step
    s.totalShutOff after 640
  else s.totalShutOff .restart 640

end Sys2Proof.Machine
end

