-- ==== Sys2Proof/Machine/Bringup.lean ====
section
/-! DEFINITION. Bring-up and reduced service (R250 to R253, R424, R429, R440). -/

namespace Sys2Proof.Machine

/-- Bring-up runs: the sequence is complete. -/
def State.bringup (s : State) (m : Nat) : Bool := s.seq.mode == .running && s.locked && s.seq.milestone == m

def State.reach (s : State) (m : Nat) : State := s.updSeq fun q => { q with milestone := max q.milestone m }

/-- R250: the current CAL generation is taken up (R151, R419, R421). -/
def calibrationTakeup (s : State) : State := if s.bringup 0 then (s.takeCal s.otp.currentGen).reach 1 else s

/-! ### Reduced service (R251, R253) -/

/-- The RETIRED mask of the retained RIDGE cairn (R440), which reduced service reads before the cairn restore. -/
def retiredMask (s : State) (r : Nat) : Nat :=
  let c := s.cairn (4 + r)
  if c.valid then rdLe c.record 20 2 else 0

/-- Phase 2q of a port, and whether reduced service places it. -/
def homePhase (p : Nat) : Nat := 8 * ridgeOfPort p + 2 * localOfPort p

def reducedPlaces (s : State) (p : Nat) : Bool :=
  (s.port p).inService && (s.ridge (ridgeOfPort p)).run == .running && !(retiredMask s (ridgeOfPort p)).testBit (2 * localOfPort p)

/-- The placement of reduced service: phase 2q on its home pair at slot 4q with law set 5; the rest shed and open. -/
def reducedPhase (s : State) (k : Nat) : PhaseRec :=
  let p := 4 * (k / 8) + k % 8 / 2
  let d := roundDivNat (thermal s (k / 8) * s.inf 4 k 0x0B) 640
  if k % 2 = 0 && reducedPlaces s p then
    { pair := 1, st := 1, slot := 4 * (p % 4), excl := 0, lawSet := 5, share := 0x8000, imax := imaxOf s k 2500, derate := d }
  else
    let x : Nat := if !(s.phase k).fitted then 1 else if (s.phase k).stopped then 2 else if (retiredMask s (k / 8)).testBit (k % 8) then 4 else 0
    { pair := 0, st := if x = 0 then 0 else 3, lawSet := 5, excl := x, derate := d }

def reducedLedger (s : State) : Ledger :=
  let phases := (List.range 48).map (reducedPhase s)
  let out := fun (r : Nat) => (s.ridge r).run == .depopulated || (s.ridge r).run == .stopped
  { hdr :=
      { frame := s.frameCount, bHost := s.inf 0 0 0x30, feedless := noFeed s, ridgeOut := ((List.range 6).map fun r => bitAt r (out r)).sum
        running := ((List.range 24).filter (reducedPlaces s)).length, shed := (phases.filter fun r => r.st == 0).length }
    phases
    ports := (List.range 24).map fun p => { nph := b1 (reducedPlaces s p), tier := portParam s p 0x21 }
    slices := (List.range 6).map fun r =>
      { seq := s.frameCount % 65536, feedless := noFeed s, out := out r
        room := satU16 (roundDivNat (((List.range 8).map fun j =>
          if (reducedPhase s (8 * r + j)).st = 3 then 0 else capRaw s (8 * r + j) 10000).sum * 8) capUnit) } }

/-- R251: a port in service presents itself as a source. -/
def reducedPort (p : Nat) (s : State) : State :=
  let s := s.updCc p fun c => if c.st == .attachWaitSnk || c.st == .attachedSnk then c else { c with passiveRd := false }
  if reducedPlaces s p && (s.cc p).st == .disabled && (s.cc p).disabledBy == .bringup then s.home p else s

/-- When reduced service may start: at once after step 7 of the sequence, 60 frames after a late step 7 (R253). -/
def reducedDue (s : State) : Bool :=
  s.seq.step7 && (!s.seq.feedless || (s.framesSince s.seq.stepFrame 60 && s.framesSince s.seq.sFrame 60))

/-- R250, R251, R253: the reduced-service law starts in each running ridge; without step 7 the milestone passes alone. -/
def reducedServiceStart (s : State) : State :=
  if s.seq.mode == .running && s.locked && decide (1 ≤ s.seq.milestone) && decide (s.seq.milestone < 6) && !s.seq.reduced then
    if reducedDue s then
      let s := overN 6 (fun r t =>
        if (t.ridge r).run == .running then t.updRidge r (Ridge.start (lawBank 2) 2 (lawId 2) t.frameCount) else t) s
      let s := s.reach 2
      let s := s.updSeq fun q => { q with reduced := true }
      let s := placeFrame { s with ledger := reducedLedger s }
      (overN 24 reducedPort s).pushEvent 0x38 0 [4]
    else if !s.seq.step7 && s.seq.milestone == 1 then s.reach 2
    else s
  else s

/-! ### Cairn restore (R250, R252, R424, R429) -/

/-- A written item of R252 applied again. -/
def State.reapply (s : State) (id v : Nat) : State :=
  match pidFlt id with
  | some (b, i) => s.setFlt b ((s.flt b).setMask i v)
  | none => s.setItem id v

/-- The RIDGE cairn's items. At a supervisor restart (`runs`) ACTIVE_SRC, ACTIVE_ID and DECODE_ID stay those of the bank that the ridge runs on
(R444, R447). -/
def takeRidgeCairn (runs : Bool) (r : Nat) (s : State) : State :=
  let q := s.ridge r
  let t := s.takeCairn (4 + r)
  if runs then t.updRidge r fun x => { x with activeSrc := q.activeSrc, activeId := q.activeId, decodeId := q.decodeId } else t

/-- The mode policy table (cairn 16) and the chain (cairn 17). -/
def takeTables (s : State) : State :=
  let s := (s.checkCairn 16).checkCairn 17
  let t := s.cairn 16
  let c := s.cairn 17
  { s with svc := { s.svc with
      modeTable := if t.valid then t.record else List.replicate 128 0
      chain := if c.valid then (c.record.drop 4).take (rdLe c.record 0 2) else [] } }

/-- Cairns 0 and 4 to 17, as bring-up and a supervisor restart restore them (R429, R445). -/
def restoreCairns (runs : Bool) (s : State) : State :=
  let s := s.takeCairn 0
  let s := overN 6 (takeRidgeCairn runs) s
  let s := overN 6 (fun r t => t.takeCairn (10 + r)) s
  takeTables s

/-- R250, R424, R429: every cairn that this milestone takes up, at one frame boundary; earlier writes win (R252). -/
def cairnRestore (s : State) : State :=
  if s.bringup 2 && s.atBoundary then
    let s := restoreCairns false s
    let s := s.takeFields 1 (masks .bus) 6
    let s := overN 2 (fun x t => t.takeFields (2 + x) (.item (pid 1 x 0x19) :: masks (.feed x)) 18) s
    let s := s.early.foldl (fun t w => t.reapply w.1 w.2) s
    { s with early := [] }.reach 3
  else s

/-- R250: the retained patch. -/
def patchVerification (s : State) : State := if s.bringup 3 then s.verifyRetained.reach 4 else s

/-! ### The end of bring-up -/

/-- The banks of the ridges that have not yet been given theirs in this sequence. -/
def loadBanks (s : State) : State :=
  overN 6 (fun r t =>
    let q := t.ridge r
    if q.run != .depopulated && (!q.started || q.bank.base == 2) then t.loadBank r else t) s

/-- R250: the bank load of every ridge at one frame boundary. -/
def ridgeBankLoad (s : State) : State := if s.bringup 4 && s.atBoundary then (loadBanks s).reach 5 else s

/-- R64: the toggle seed of a port. -/
def toggleSeed (s : State) (p : Nat) : BitVec 15 :=
  let x := BitVec.ofNat 15 ((p + 1) * 0x0421) ^^^ BitVec.ofNat 15 s.frameCount
  if x = 0 then 0x7FFF else x

/-- A port enters full service (R57, R58, R82, R250, R251). -/
def fullPort (p : Nat) (s : State) : State :=
  if !(s.port p).inService then s
  else
    let m := portParam s p 0x20
    let s := s.updCc p fun c => { c with mode := m }
    if m = 2 && (s.cc p).st != .disabled && (s.cc p).st != .outOfService then s.disablePort p 0xC .host
    else match (s.cc p).st with
    | .disabled => if (s.cc p).disabledBy == .bringup then s.home p else s
    | .unattachedSrc => s.home p
    | .attachWaitSrc => if m = 0 then s else s.home p
    | .attachedSrc => startPd s p
    | .attachedSnk => if (s.pd p).started then s else startPd s p
    | _ => s

/-- R253: no reduced service was run, and the frame after both the end of bring-up and step 7 has come. -/
def lateService (s : State) : Bool :=
  s.bringup 6 && s.seq.step7 && !s.seq.full && decide (s.seq.stepFrame < s.frame) && decide (s.seq.endFrame < s.frame)

/-- R57, R250: every port goes to full service. -/
def fullService (s : State) : State := overN 24 fullPort (s.updSeq fun q => { q with full := true, reduced := false })

/-- R251: a port that an attach-sniff wake has taken over starts PD when bring-up ends. -/
def takenOverPd (p : Nat) (s : State) : State := if (s.port p).inService && (s.cc p).st == .attachedSnk then startPd s p else s

/-- R250, R253: the Innkeeper starts; ports that reduced service has run go to full service at once. -/
def endOfBringup (s : State) : State :=
  if s.bringup 5 then
    let s := (loadBanks s).reach 6
    let s := { s with inn := { s.inn with started := true } }.updSeq fun q => { q with endFrame := s.frame }
    let s := overN 24 (fun p t => t.updCc p fun c => { c with lfsr := toggleSeed t p }) s
    (if s.seq.reduced then fullService s else overN 24 takenOverPd s).pushEvent 0x38 0 [5]
  else if lateService s then fullService (loadBanks s)
  else s

/-- R250, R252, R263: commands from S + 60, with the bus items of cairn 1; noted changes of always-on records set FAULT. -/
def commandInterpreterStart (s : State) : State :=
  if s.seq.mode == .running && s.locked && !s.seq.interpreter && s.framesSince s.seq.sFrame 60 then
    let s := (s.takeFields 1 (itemsFrom 0 0 0x3C 3) 0).updSeq fun q => { q with interpreter := true }
    let s := if s.attn.note then { s with attn := { s.attn with note := false } }.setAttn 15 else s
    attnFrame s
  else s

def execCalibrationTakeup (s : State) : Out := .next (calibrationTakeup s)
def execReducedServiceStart (s : State) : Out := .next (reducedServiceStart s)
def execCairnRestore (s : State) : Out := .next (cairnRestore s)
def execPatchVerification (s : State) : Out := .next (patchVerification s)
def execRidgeBankLoad (s : State) : Out := .next (ridgeBankLoad s)
def execEndOfBringup (s : State) : Out := .next (endOfBringup s)
def execCommandInterpreterStart (s : State) : Out := .next (commandInterpreterStart s)

end Sys2Proof.Machine
end

