-- ==== Sys2Proof/Machine/Bus.lean ====
section
/-! DEFINITION. The host bus (R266 to R281, R287, R288, R294 to R297): transactions, PEC, timeouts, and the attention write. -/

namespace Sys2Proof.Machine

/-- The part answers on the bus at all: the always-on domain or the boot regulator is up, and the front end in charge has its supply (R274). -/
def State.answers (s : State) : Bool := s.seq.mode != .unpowered && (!s.bus.vcoreFe || s.locked)

/-- R236, R275: an address match in retention is a wake; during a sequence, a shutdown or a hold-off it is recorded. -/
def State.matched (s : State) : State := s.wake 1

/-- R277, R280: a STOP: the bus is idle, a back-off under way counts from here, and the other front end may take over (R274). -/
def State.busStop (s : State) : State :=
  ({ s with bus := { s.bus with idle := true, stopAt := if s.bus.attnWait then some s.paceCount else s.bus.stopAt } } : State).handOver

/-- A transaction addressed to the part ends with its STOP. -/
def State.busEnd (s : State) (ack : Bool) (out : List Byte) : State :=
  ({ s with bus := { s.bus with nacked := !ack, out := out } } : State).busStop

/-- Codes 0x10, 0x11 and 0x13 are acknowledged, by the `VCORE` front end alone (R270, R274, R297). -/
def State.served (s : State) : Bool := s.busMode == 1 && s.bus.vcoreFe && s.locked

/-- R270: the command codes that the part acknowledges. -/
def State.codeAcked (s : State) (code : Nat) : Bool := code == 0x12 || (s.served && (code == 0x10 || code == 0x11 || code == 0x13))

/-- The address byte of a write. -/
def State.addrByte (s : State) (rd : Bool) : Byte := byteOf (2 * s.busAddr + b1 rd)

/-- R273: a write's PEC: none sent, sent and right, or wrong. -/
inductive PecSeen where
  | absent | good | bad
deriving DecidableEq, Repr

def pecSeen (bytes : List Byte) (pec : Option Byte) : PecSeen :=
  match pec with
  | none => .absent
  | some b => if crc8 bytes == b then .good else .bad

/-- R273: whether a complete write takes effect; otherwise the PEC sticky bit sets. -/
def State.pecPasses (s : State) (x : PecSeen) : Bool :=
  match x with
  | .bad => false
  | .good => true
  | .absent => s.inf 0 0 0x3C != 1

/-! ### CMD_PUT (R271, R273, R287, R288) -/


/-- A byte count of 4 or more, `data` the bytes the host sent after it, `pec` the first byte beyond the frame. -/
def cmdPut (count : Nat) (data : List Byte) (pec : Option Byte) (s : State) : State :=
  if !s.answers then s
  else
    let s := s.matched
    if !s.served || count < 4 then s.busEnd false []
    else
      let body := data.take count
      let extra : Option Byte := if count < data.length then some (data.getD count 0) else if data.length = count then pec else none
      let cls := rdB body 2 % 4
      if decide (3 ≤ data.length) && s.host.classHeld cls then s.busEnd false []
      else if data.length < count then s.busEnd true []
      else
        let x := pecSeen (s.addrByte false :: 0x10 :: byteOf count :: body) extra
        if s.pecPasses x then
          { s with host := s.host.claim { bytes := body } }.busEnd (decide (data.length ≤ count + 1)) []
        else (s.raise .bus 2).busEnd (x != .bad) []

/-! ### RES_GET (R271, R294 to R296) -/

/-- What a `RES_GET` returns (R296). -/
def ChanState.resBytes (x : ChanState) : List Byte :=
  match x.slot with
  | .empty => [0x02, 0, 0, 0]
  | .pending t o => [0x01, t, o, 0]
  | .ready rd bs => if rd then bs.set 0 (bs.getD 0 0 ||| 0x80) else bs

/-- A complete read: the reply is read, and a `SUP_RESTART` reply noted (R330). -/
def resRead (s : State) : State :=
  match s.host.slot with
  | .ready _ bs =>
    let sampled := s.host.sampled
    let s := { s with host := { s.host with slot := .ready true bs, sampled := false } }
    let s := if isRestartReply bs && s.sup.st == .readied then { s with sup := { s.sup with replyRead := true } } else s
    if sampled then
      { s with attn := { s.attn with fresh := (s.attn.fresh &&& ~~~s.attn.sampled) ||| (s.attn.sinceSample &&& s.attn.sampled), sampled := 0 } }
    else s
  | _ => s

/-- R271, R273: the bytes of a read of which the host clocks `n` after the frame: the PEC, which follows an acknowledged last byte, then 0xFF. -/
def beyondFrame (pec : Byte) (n : Nat) : List Byte := (pec :: List.replicate (n - 1) 0xFF).take n

/-- The host clocks `clocked` bytes after the count, and with `withPec` one more, the PEC byte. -/
def resGet (clocked : Nat) (withPec : Bool) (s : State) : State :=
  if !s.answers then s
  else
    let s := s.matched
    if !s.served then s.busEnd false []
    else
      let bs := s.host.resBytes
      let body := byteOf bs.length :: bs
      let pec := crc8 (s.addrByte false :: 0x11 :: s.addrByte true :: body)
      if clocked < bs.length then s.busEnd true (body.take (clocked + 1))
      else (resRead s).busEnd true (body ++ beyondFrame pec (clocked - bs.length + b1 withPec))

/-! ### BUS_STATUS, ATTN_ACK (R263, R270 to R273) -/

/-- R271 to R273, R275: the status byte, the PEC where the host acknowledges it, and 0xFF for every byte beyond (the third byte of `out` stands
for all of them); in retention the read wakes the part and returns MODE 0. -/
def busStatus (s : State) : State :=
  if s.answers then
    let t := s.matched
    let b := byteOf t.busStatus
    t.busEnd true (b :: beyondFrame (crc8 [t.addrByte false, 0x12, t.addrByte true, b]) 2)
  else s

/-- R263: bits the host has seen clear; a bit set again since its last report stays and causes a new write. -/
def State.ackAttn (s : State) (mask : Word) : State :=
  let keep := s.attn.fresh &&& mask
  { s with
    attn := { s.attn with pending := s.attn.pending &&& ~~~(mask &&& ~~~keep), writeDue := s.attn.writeDue || keep != 0 }
    bus := { s.bus with attnHeld := false } }

/-- R263, R271, R273: the bytes after the code, and the byte after two of them where it is given apart; fewer than two are a write cut short. -/
def attnAck (data : List Byte) (pec : Option Byte) (s : State) : State :=
  if !s.answers then s
  else
    let s := s.matched
    if !s.served then s.busEnd false []
    else if data.length < 2 then s.busEnd true []
    else
      let x := pecSeen (s.addrByte false :: 0x13 :: data.take 2) (if 2 < data.length then some (data.getD 2 0) else pec)
      if s.pecPasses x then (s.ackAttn (BitVec.ofNat 16 (rdLe data 0 2))).busEnd (decide (data.length ≤ 3)) []
      else (s.raise .bus 2).busEnd (x != .bad && decide (data.length ≤ 3)) []

/-- R236, R269, R270, R275, R277: the part acknowledges its own address alone, whatever code follows, and a match counts as one; a code it
does not serve is not acknowledged; Quick Command and Send Byte are then ignored. -/
def addressMatchWake (a : AddrSeen) (s : State) : State :=
  if !s.answers then s
  else
    let s := match a.addr with
      | none => s
      | some n =>
        if n = s.busAddr then
          let t := s.matched
          { t with bus := { t.bus with idle := false, out := [], nacked := !(a.code.all t.codeAcked) } }
        else { s with bus := { s.bus with idle := false, out := [], nacked := true } }
    if a.stop then s.busStop else s

/-! ### Timeouts (R276 to R278) -/

/-- A bit of `DEVICE.BUS_FLT` sets; its record stands while `VCORE` does (R258, R265, R274). -/
def State.busFault (s : State) (i : Nat) : State := if s.locked then s.raise .bus i else s

def State.abandon (s : State) : State := { s with bus := { s.bus with idle := false, out := [], nacked := true } }

/-- R276: `SCL` low for 30 ms. -/
def busSclTimeout (s : State) : State := if s.answers then (s.busFault 1).abandon else s

/-- R276: no edge for 30 ms with `SCL` high. -/
def busEdgeTimeout (s : State) : State := if s.answers then s.abandon else s

/-- R278: the part releases `SDA` and resets its front end; commands and the reply slot stand. -/
def stuckRelease (s : State) : State := if s.answers then (s.busFault 0).abandon else s

/-- R274, R277: both lines high for 50 µs. -/
def busIdleDetect (s : State) : State := (({ s with bus := { s.bus with idle := true } } : State)).handOver

/-! ### The attention write (R279, R280) -/

/-- The bytes of an attempt (R279). -/
def attnBytes (s : State) : List Byte :=
  let body := [byteOf (2 * s.busAddr), byteOf s.attn.pending.toNat, byteOf (s.attn.pending.toNat / 256)]
  0x10 :: body ++ (if s.inf 0 0 0x3D = 1 then [crc8 (0x10 :: body)] else [])

/-- R280: the series ends with nothing sent when nothing is pending. -/
def attnCancel (s : State) : State := { s with bus := { s.bus with attnDue := false, attnWait := false, attnFails := 0 } }

/-- R280: a failed attempt: the first waits as its retries do; the eighth failed retry gives the event up. -/
def attnFailed (s : State) : State :=
  if 8 ≤ s.bus.attnFails then
    { s with bus := { s.bus with attnDue := false, attnWait := false, attnFails := 0, attnHeld := true } }.raise .bus 3
  else { s with bus := { s.bus with attnDue := false, attnWait := true, attnFails := s.bus.attnFails + 1, stopAt := none } }

/-- R280, R281: bit by bit the controller that sends a 0 wins; 0x10 wins over any address from 0xC0 in the first bit. -/
def lostTo : List Byte → List Byte → Bool
  | m :: ms, t :: ts => if m = t then lostTo ms ts else decide (t.toNat < m.toNat)
  | _, _ => false

/-- R263, R279 to R281: one attempt, carrying every bit pending at its start. The part is then no target: a START to it in the same bit loses
and gets no answer. After a lost arbitration it listens, until the STOP of the winner; else its own STOP ends the attempt. -/
def attnAttempt (s : State) (o : AttnTry) : State :=
  let tx := attnBytes s
  let s := { s with
    attn := { s.attn with fresh := s.attn.fresh &&& ~~~s.attn.pending, sinceSample := s.attn.sinceSample &&& ~~~s.attn.pending, writeDue := false }
    bus := { s.bus with attnTx := tx } }
  if (o.rival.map (lostTo tx)).getD false then attnFailed { s with bus := { s.bus with idle := false } }
  else if o.acked then { s with bus := { s.bus with attnDue := false, attnWait := false, attnFails := 0, attnHeld := false } }.busStop
  else (attnFailed s).busStop

/-- The attention write is possible: commands are served and the part may drive the bus (R263, R279, R280). -/
def State.notifies (s : State) : Bool := s.served && decide (s.inf 0 0 0x3E = 1)

/-- An attempt or retry at its time. -/
def attnDueNow (o : AttnTry) (s : State) : State := if s.attn.pending = 0 then attnCancel s else attnAttempt s o

/-- R280, R281: an attempt that is due starts once the bus is idle. -/
def attentionWrite (o : AttnTry) (s : State) : State :=
  if s.bus.attnDue && s.notifies && s.bus.idle then attnDueNow o s else s

/-- The back-off of R280 in paces: (4 × ADDR2 + 2 × ADDR1 + ADDR0 + 1) × 100 µs. -/
def State.backOff (s : State) : Nat := 50 * (s.bus.addrPins + 1)

/-- R280, R281: the back-off after the last STOP is over: the part retries if the bus is idle, else waits for the next STOP. -/
def attentionBackoffExpiry (o : AttnTry) (s : State) : State :=
  match s.bus.stopAt with
  | some t =>
    if s.bus.attnWait && s.notifies && decide (t + s.backOff ≤ s.paceCount) then
      if s.bus.idle then attnDueNow o s else { s with bus := { s.bus with stopAt := none } }
    else s
  | none => s

def execCmdPut (count : Nat) (data : List Byte) (pec : Option Byte) (s : State) : Out := .next (cmdPut count data pec s)
def execResGet (clocked : Nat) (withPec : Bool) (s : State) : Out := .next (resGet clocked withPec s)
def execBusStatus (s : State) : Out := .next (busStatus s)
def execAttnAck (data : List Byte) (pec : Option Byte) (s : State) : Out := .next (attnAck data pec s)
def execAddressMatchWake (a : AddrSeen) (s : State) : Out := .next (addressMatchWake a s)
def execBusSclTimeout (s : State) : Out := .next (busSclTimeout s)
def execBusEdgeTimeout (s : State) : Out := .next (busEdgeTimeout s)
def execStuckRelease (s : State) : Out := .next (stuckRelease s)
def execBusIdleDetect (s : State) : Out := .next (busIdleDetect s)
def execAttentionWrite (o : AttnTry) (s : State) : Out := .next (attentionWrite o s)
def execAttentionBackoffExpiry (o : AttnTry) (s : State) : Out := .next (attentionBackoffExpiry o s)

end Sys2Proof.Machine
end

