-- ==== Sys2Proof/Machine/Knaha.lean ====
section
/-! DEFINITION. Knaha engines (R352 to R379): one word, one cycle. -/

namespace Sys2Proof.Machine

/-- What an engine is: a ridge engine or the supervisor, with its decode table (R352), and what `irq.src` shows on the supervisor. -/
structure KKind where
  sup : Bool
  table : Nat → Word32
  irqs : Word := 0

/-- Words of each data memory and of the program space. -/
def KKind.dataSize (k : KKind) : Nat := if k.sup then 32768 else 4096
def KKind.progSize (k : KKind) : Nat := if k.sup then 65536 else 8192
def KKind.callDepth (k : KKind) : Nat := if k.sup then 16 else 8

/-- Effects of a word outside its engine. -/
structure KOut where
  eng : Engine
  duty : List (Nat × Word) := []
  publish : Bool := false
  steer : Option Word := none
  frees : Nat := 0

/-! ### Predicates (R361, R362, R368) -/

/-- No multiplier trigger is in flight. -/
def Engine.ready (e : Engine) : Bool := e.macPipe.isEmpty

/-- g3 in latched mode is the ready flag. -/
def Engine.preds (e : Engine) : BitVec 4 :=
  if e.macLatched then (e.pred &&& 7) ||| (if e.ready then 8 else 0) else e.pred

/-- The condition of a guard code's bits [2:0]. -/
def guardBase (g : BitVec 4) (c : Nat) : Bool :=
  match c with
  | 0 => true
  | 1 => g.getLsbD 0
  | 2 => g.getLsbD 1
  | 3 => g.getLsbD 2
  | 4 => g.getLsbD 3
  | 5 => g.getLsbD 0 && g.getLsbD 1
  | 6 => g.getLsbD 2 && g.getLsbD 3
  | _ => g.getLsbD 0 || g.getLsbD 1

/-- Bit 3 of the code negates (R361). -/
def guardHolds (g : BitVec 4) (code : Nat) : Bool := guardBase g (code % 8) != (code / 8 % 2 == 1)

/-- A predicate write; in latched mode g3 is the hardware's (R362). -/
def setPred (latched : Bool) (g : BitVec 4) (i : Nat) (b : Bool) : BitVec 4 :=
  if latched && i == 3 then g
  else if b then g ||| BitVec.ofNat 4 (2 ^ i) else g &&& ~~~(BitVec.ofNat 4 (2 ^ i))

/-! ### The accumulator (R367, R368) -/

def accTop : Int := 2 ^ 39 - 1
def accLow : Int := -(2 ^ 39)

/-- The accumulator after one trigger, and whether it saturated. -/
def MacDo.apply (acc : Int) : MacDo → Int × Bool
  | .set x => (x, false)
  | .add x => (max accLow (min accTop (acc + x)), decide (acc + x < accLow) || decide (accTop < acc + x))

/-- One trigger lands (R367). -/
def Engine.landOne (e : Engine) (o : MacOp) : Engine :=
  let r := o.what.apply e.acc
  { e with acc := r.1, macOut := r.1, macOvf := e.macOvf || r.2 }

/-- Every trigger whose three cycles have passed lands, oldest first. -/
def Engine.land (e : Engine) : Engine :=
  { (e.macPipe.filter fun o => decide (o.due ≤ e.cyc)).foldl Engine.landOne e with
    macPipe := e.macPipe.filter fun o => decide (e.cyc < o.due) }

/-- What the multiplier's result sockets show. -/
def Engine.macShown (e : Engine) : Int := if e.macLatched then e.macOut else e.acc

/-- `mac.sat` (R367): arithmetic shift right by 15 of the accumulator plus 0x4000, clamped. -/
def macSat (acc : Int) : Word := wordOfInt (sat16 ((acc + 0x4000) / 0x8000))

/-! ### Address units (R370) -/

/-- The lowest `b` bits of a number reversed. -/
def revBits : Nat → Nat → Nat
  | 0, _ => 0
  | b + 1, n => n % 2 * 2 ^ b + revBits b (n / 2)

/-- The largest b in 1 to 10 with 2^b ≤ len. -/
def ringBits (len : Nat) : Option Nat := ([10, 9, 8, 7, 6, 5, 4, 3, 2, 1] : List Nat).find? fun b => decide (2 ^ b ≤ len)

def AddrUnit.linear (u : AddrUnit) : AddrUnit := { u with ptr := u.ptr + u.step }

/-- The post-modify of R370. -/
def AddrUnit.post (u : AddrUnit) : AddrUnit :=
  match u.mode.toNat % 4 with
  | 1 =>
    if u.len = 0 then u.linear
    else
      let o : Int := ((u.ptr.toNat : Int) - u.base.toNat + u.step.toInt) % (u.len.toNat : Int)
      { u with ptr := BitVec.ofInt 16 (u.base.toNat + o) }
  | 2 =>
    match ringBits u.len.toNat with
    | none => u.linear
    | some b =>
      let o := twos b ((u.ptr.toNat : Int) - u.base.toNat)
      let o := revBits b ((revBits b o + twos b u.step.toInt) % 2 ^ b)
      { u with ptr := BitVec.ofNat 16 (u.base.toNat + o) }
  | _ => u.linear

def Engine.unit (e : Engine) (u : Nat) : AddrUnit := e.units.getD u {}

/-- The word a unit points at, in X for units 0 to 3 and Y for 4 to 7; addresses wrap at the memory's size (R353). -/
def Engine.peek (e : Engine) (k : KKind) (u : Nat) : Word :=
  let a := (e.unit u).ptr.toNat % k.dataSize
  if u < 4 then cellsRead e.x a else cellsRead e.y a

/-! ### Sources (R363) -/

/-- The unit that a source reads memory through. -/
def memSrc (s : KSrc) : Option Nat :=
  match s with
  | .sock n => if 0x20 ≤ n && n ≤ 0x27 then some (n - 0x20) else none
  | .imm _ => none

/-- Iterations still to run after the present one (R371). -/
def Engine.repLeft (e : Engine) : Nat :=
  match e.rep with
  | some n => n - 1
  | none => 0

def macStat (e : Engine) : Nat := bitAt 3 e.ready + bitAt 2 e.macLatched + bitAt 1 e.macDrop + bitAt 0 e.macOvf

/-- A source socket that is not a memory read; `free` supplies what the
supervisor's undescribed peripherals show (R354). `ctl.cyc` counts the cycles of a pace, 0 to 799. -/
def Engine.source (e : Engine) (k : KKind) (free : Nat) (n : Nat) : Word :=
  if 0x08 ≤ n && n ≤ 0x17 then e.gp.getD (n - 0x08) 0
  else if 0x28 ≤ n && n ≤ 0x2F then (e.unit (n - 0x28)).ptr
  else match n with
    | 0x01 => 0x0001
    | 0x02 => 0xFFFF
    | 0x03 => 0x7FFF
    | 0x04 => 0x8000
    | 0x18 => e.aluRes
    | 0x19 => e.preds.setWidth 16
    | 0x1A => wordOfInt (e.macShown / 65536)
    | 0x1B => wordOfInt e.macShown
    | 0x1C => macSat e.macShown
    | 0x1D => wordOfInt (e.macShown / 4294967296)
    | 0x1E => (e.u.getD 7 0).setWidth 16
    | 0x1F => ((e.u.getD 7 0) >>> 16).setWidth 16
    | 0x30 => BitVec.ofNat 16 (e.cyc % 800)
    | 0x31 => BitVec.ofNat 16 (macStat e)
    | 0x32 => BitVec.ofNat 16 e.repLeft
    | 0x40 => if k.sup then k.irqs else 0
    | 0x41 => if k.sup then Config.peripheral e.svPa.toNat free else 0
    | _ => 0

/-- A source reads something the spec does not describe. -/
def freeSrc (k : KKind) (s : KSrc) : Bool :=
  match s with
  | .sock n => k.sup && n == 0x41
  | .imm _ => false

/-! ### The ALU and the compare unit (R365, R366) -/

/-- The ALU result of a trigger socket. -/
def aluOp (t : Nat) (a v : Word) : Word :=
  match t with
  | 0x19 => v
  | 0x1A => a + v
  | 0x1B => a - v
  | 0x1C => wordOfInt (sat16 (a.toInt + v.toInt))
  | 0x1D => wordOfInt (sat16 (a.toInt - v.toInt))
  | 0x1E => a &&& v
  | 0x1F => a ||| v
  | 0x20 => a ^^^ v
  | 0x21 => a <<< (v.toNat % 16)
  | 0x22 => a.sshiftRight (v.toNat % 16)
  | 0x23 => a >>> (v.toNat % 16)
  | 0x24 => if a.toInt ≤ v.toInt then a else v
  | 0x25 => if a.toInt ≤ v.toInt then v else a
  | 0x26 => wordOfInt (sat16 (v.toInt.natAbs : Int))
  | _ => wordOfInt (sat16 (-v.toInt))

/-- The condition of a compare trigger. -/
def cmpOp (t : Nat) (a v : Word) : Bool :=
  match t with
  | 0x2A => decide (a.toInt < v.toInt)
  | 0x2B => decide (a.toInt ≤ v.toInt)
  | 0x2C => a == v
  | 0x2D => a != v
  | 0x2E => decide (v.toInt ≤ a.toInt)
  | 0x2F => decide (v.toInt < a.toInt)
  | 0x30 => decide (a.toNat < v.toNat)
  | 0x31 => decide (v.toNat ≤ a.toNat)
  | _ => v != 0

/-- A compare trigger (R366): one predicate, or all four for `cmp.pset`. -/
def Engine.compare (e : Engine) (t : Nat) (v : Word) : Engine :=
  if t = 0x33 then
    { e with pred := (List.range 4).foldl (fun g i => setPred e.macLatched g i (v.getLsbD i)) e.pred }
  else { e with pred := setPred e.macLatched e.pred (e.cmpP.toNat % 4) (cmpOp t e.cmpA v) }

/-! ### The custom unit (R374 to R376) -/

def low16 (x : Word32) : Int := (x.setWidth 16).toInt

/-- A micro-op's result for DST, where its function writes it. -/
def microOp (fn : Nat) (f : Bool) (imm : Bool) (a b : Word32) : Option Word32 :=
  match fn with
  | 0x00 => some (if imm then b else a)
  | 0x01 => some (a + b)
  | 0x02 => some (a - b)
  | 0x03 => some (a &&& b)
  | 0x04 => some (a ||| b)
  | 0x05 => some (a ^^^ b)
  | 0x06 => some (a <<< (b.toNat % 32))
  | 0x07 => some (a.sshiftRight (b.toNat % 32))
  | 0x08 => some (a >>> (b.toNat % 32))
  | 0x09 => some (BitVec.ofInt 32 (low16 a * low16 b))
  | 0x0A => some (BitVec.ofInt 32 (sat16 ((low16 a * low16 b + 0x4000) / 0x8000)))
  | 0x0B => some (if a.toInt ≤ b.toInt then a else b)
  | 0x0C => some (if a.toInt ≤ b.toInt then b else a)
  | 0x0D => some (BitVec.ofInt 32 (min (2 ^ 31 - 1) (a.toInt.natAbs : Int)))
  | 0x0E => some (BitVec.ofInt 32 (sat16 a.toInt))
  | 0x0F => some (if f then a else b)
  | _ => none

/-- One decode-table entry executes; the next one follows unless END is set or the socket's 16 entries are done. -/
def Engine.micro (e : Engine) (k : KKind) (i : Nat) : Engine :=
  let n := (k.table i).toNat
  let fn := fld n 26 5
  let imm := fld n 16 1 == 1
  let a := e.u.getD (fld n 20 3) 0
  let b := if imm then BitVec.ofInt 32 (sext 16 (fld n 0 16)) else e.u.getD (fld n 17 3) 0
  let u := match microOp fn e.cstF imm a b with
    | some r => e.u.set (fld n 23 3) r
    | none => e.u
  let f := if fn = 0x10 then decide (a.toInt < b.toInt) else if fn = 0x11 then a == b else e.cstF
  let g := if fn = 0x12 then setPred e.macLatched e.pred 2 e.cstF else e.pred
  { e with u := u, cstF := f, pred := g, cstAt := if fld n 31 1 = 1 || i % 16 = 15 then none else some (i + 1) }

/-- A custom trigger (R374): u0 and u1 are loaded and the first entry executes in the same cycle. -/
def Engine.custom (e : Engine) (k : KKind) (n : Nat) (v : Word) : Engine :=
  { e with u := (e.u.set 0 (v.signExtend 32)).set 1 (e.cstB.signExtend 32) }.micro k (16 * n)

/-! ### One cycle (R356 to R358) -/

/-- A move whose guard holds, with its value. -/
structure KAct where
  src : KSrc
  dst : Nat
  val : Word
deriving DecidableEq, Repr

/-- Which unit a trigger socket belongs to (R357): 1 ALU, 2 compare, 3 multiplier, 4 custom, 5 loop, 6 program counter. -/
def trigUnit (d : Nat) : Nat :=
  if 0x19 ≤ d && d ≤ 0x27 then 1 else if 0x2A ≤ d && d ≤ 0x33 then 2 else if 0x35 ≤ d && d ≤ 0x3A then 3
  else if 0x50 ≤ d && d ≤ 0x5F then 4 else if d = 0x61 || d = 0x62 then 5 else if 0x63 ≤ d && d ≤ 0x65 then 6 else 0

/-- Move A is lost beside move B: the same socket, or the same unit (R357). -/
def loses (a b : KMove) : Bool := a.dst == b.dst || (trigUnit a.dst != 0 && trigUnit a.dst == trigUnit b.dst)

/-- Moves of the word whose guards hold, A first. -/
def activeMoves (e : Engine) (w : KWord) : List KMove :=
  (w.a :: w.b.toList).filter fun m => guardHolds e.preds m.guard

/-- The moves that write or trigger. -/
def effective : List KMove → List KMove
  | [a, b] => if loses a b then [b] else [a, b]
  | l => l

/-- Units that moves read memory through, in order. -/
def readUnits (l : List KMove) : List Nat := l.filterMap fun m => memSrc m.src

/-- The first read of a memory decides what every read of it in the cycle returns (R358). -/
def portWord (e : Engine) (k : KKind) (reads : List Nat) (u : Nat) : Word :=
  match reads.find? fun v => decide (v < 4) == decide (u < 4) with
  | some v => e.peek k v
  | none => e.peek k u

/-- The value of a move's source. -/
def moveVal (e : Engine) (k : KKind) (free : Nat) (reads : List Nat) (m : KMove) : Word :=
  match m.src with
  | .imm v => v
  | .sock n => match memSrc m.src with
    | some u => portWord e k reads u
    | none => e.source k free n

/-- The dual fetch's units from its value (R367). -/
def dualUnits (v : Word) : List Nat := [v.toNat % 4, 4 + v.toNat / 4 % 4]

/-- A multiplier trigger is accepted (R368). -/
def Engine.macTakes (e : Engine) : Bool := !e.macLatched || e.ready

/-- The dual fetch of the word, where one is accepted. -/
def dualOf (e : Engine) (k : KKind) (free : Nat) (reads : List Nat) (l : List KMove) : List Nat :=
  match l.find? fun m => m.dst == 0x38 with
  | some m => if e.macTakes then dualUnits (moveVal e k free reads m) else []
  | none => []

/-- What a multiplier trigger will do. -/
def macDo (e : Engine) (t : Nat) (v : Word) (fx fy : Word) : MacDo :=
  let p := e.macA.toInt * v.toInt
  match t with
  | 0x35 => .set p
  | 0x36 => .add p
  | 0x37 => .add (-p)
  | 0x38 =>
    let q := if v.getLsbD 5 then -(fx.toInt * fy.toInt) else fx.toInt * fy.toInt
    if v.getLsbD 4 then .set q else .add q
  | 0x39 => .set (v.toInt * 32768)
  | _ => .set 0

/-- A multiplier trigger: in flight for three cycles, or dropped (R367, R368). -/
def Engine.macTrig (e : Engine) (t : Nat) (v fx fy : Word) : Engine :=
  if e.macTakes then { e with macPipe := e.macPipe ++ [{ due := e.cyc + 3, what := macDo e t v fx fy }] }
  else { e with macDrop := true }

/-- A write to a register, operand or address-unit socket (R364). -/
def Engine.writeReg (e : Engine) (k : KKind) (d : Nat) (v : Word) : Engine :=
  if 0x08 ≤ d && d ≤ 0x17 then { e with gp := e.gp.set (d - 0x08) v }
  else if 0x48 ≤ d && d ≤ 0x4F then { e with units := e.units.modify (d - 0x48) fun u => { u with ptr := v } }
  else if 0x80 ≤ d && d ≤ 0x9F then
    { e with units := e.units.modify ((d - 0x80) / 4) fun u =>
        match (d - 0x80) % 4 with
        | 0 => { u with step := v }
        | 1 => { u with base := v }
        | 2 => { u with len := v }
        | _ => { u with mode := v } }
  else match d with
    | 0x18 => { e with aluA := v }
    | 0x28 => { e with cmpA := v }
    | 0x29 => { e with cmpP := v }
    | 0x34 => { e with macA := v }
    | 0x60 => { e with cstB := v }
    | 0xA0 => if k.sup then { e with irqEn := v } else e
    | 0xA2 => if k.sup then { e with svPa := v } else e
    | _ => e

/-- R9, R146, R388: what a word written at an address of a ridge's X (`isX`) or Y memory holds: reserved words and bits of the blocks that
it shares with the part stay zero. -/
def keptWord (isX : Bool) (a : Nat) (v : Word) : Word :=
  if isX then if a = 0x46 || a = 0x47 || (decide (0x4C ≤ a) && decide (a < 0x80)) then 0 else v
  else if a = 0 then v &&& 0x0FFF else if 0x09 ≤ a && a ≤ 0x17 then 0 else v

/-- A store to a data memory at the unit's pointer as it stood (R358, R370). -/
def storeMem (e0 : Engine) (k : KKind) (e : Engine) (u : Nat) (v : Word) : Engine :=
  let a := (e0.unit u).ptr.toNat % k.dataSize
  let w := if k.sup then v else keptWord (decide (u < 4)) a v
  if u < 4 then { e with x := cellsWrite e.x a w } else { e with y := cellsWrite e.y a w }

/-- The store of a word's moves to one memory: only the last one is made (R358). -/
def storeOf (l : List KAct) (isX : Bool) : Option KAct :=
  (l.filter fun m => 0x40 ≤ m.dst && m.dst ≤ 0x47 && (decide (m.dst < 0x44) == isX)).getLast?

def storeSide (e0 : Engine) (k : KKind) (l : List KAct) (isX : Bool) (e : Engine) : Engine :=
  match storeOf l isX with
  | some m => storeMem e0 k e (m.dst - 0x40) m.val
  | none => e

/-- The ALU and compare triggers of a word. -/
def trigArith (e : Engine) (m : KAct) : Engine :=
  if trigUnit m.dst = 1 then { e with aluRes := aluOp m.dst e.aluA m.val } else e

def trigCompare (e : Engine) (m : KAct) : Engine := if trigUnit m.dst = 2 then e.compare m.dst m.val else e

/-- The custom unit in a cycle: a new instruction, or the next entry of the one running. -/
def customCycle (k : KKind) (l : List KAct) (e : Engine) : Engine :=
  match l.find? fun m => trigUnit m.dst == 4 with
  | some m => e.custom k (m.dst - 0x50) m.val
  | none => match e.cstAt with
    | some i => e.micro k i
    | none => e

def macCycle (l : List KAct) (fx fy : Word) (e : Engine) : Engine :=
  match l.find? fun m => trigUnit m.dst == 3 with
  | some m => e.macTrig m.dst m.val fx fy
  | none => e

/-- g3 as the ready flag, which replaces its value (R368). -/
def Engine.readyPred (e : Engine) : BitVec 4 := (e.pred &&& 7) ||| (if e.ready then 8 else 0)

/-- `mac.mode` acts at the end of its cycle; on entry to latched mode the ready flag replaces g3 (R368), and g3 keeps the flag's last value
when that mode is left. -/
def modeCycle (l : List KAct) (e : Engine) : Engine :=
  match l.find? fun m => m.dst == 0x3B with
  | some m => { e with macLatched := m.val == 1, pred := if e.macLatched || m.val == 1 then e.readyPred else e.pred }
  | none => e

/-! ### Sequencing (R371, R372, R379) -/

/-- A repetition that has run out is over: the engine stands at the word after it. -/
def Engine.repOver (e : Engine) (k : KKind) : Engine :=
  match e.rep with
  | some 0 => { e with rep := none, repHold := false, pc := BitVec.ofNat 16 ((e.pc.toNat + 1) % k.progSize) }
  | _ => e

/-- Where the engine goes next when no repetition holds it. -/
def Engine.after (e : Engine) (k : KKind) : Nat :=
  match e.jump with
  | some t => t.toNat % k.progSize
  | none => (e.pc.toNat + 1) % k.progSize

def push (k : KKind) (c : List Word) (a : Word) : List Word := (a :: c).take k.callDepth

/-- The loop unit beside a jump in one word: the delay slot is the word that repeats (R371, R372). -/
def Engine.slotRep (e : Engine) (rep : Option KAct) : Engine :=
  match rep with
  | some m => if 0 < m.val.toNat then { e with rep := some (min m.val.toNat 1023), repHold := m.dst == 0x62 } else e
  | none => e

/-- The pc, the pending jump, the loop unit and the call stack after a word. -/
def Engine.advance (e : Engine) (k : KKind) (l : List KAct) : Engine :=
  let jmp := l.find? fun m => trigUnit m.dst == 6
  let rep := l.find? fun m => trigUnit m.dst == 5
  let nxt := e.after k
  let slotAfter := BitVec.ofNat 16 ((nxt + 1) % k.progSize)
  match e.rep, jmp with
  | some (n + 1), none => if n = 0 && e.jump.isSome then
      { e with rep := none, repHold := false, pc := BitVec.ofNat 16 nxt, jump := none }
    else { e with rep := some n }
  | _, some m =>
    let e' := (({ e with rep := none, repHold := false, pc := BitVec.ofNat 16 nxt } : Engine)).slotRep (if e.rep.isSome then none else rep)
    if m.dst = 0x63 then { e' with jump := some m.val }
    else if m.dst = 0x64 then { e' with jump := some m.val, calls := push k e.calls slotAfter }
    else match e.calls with
      | a :: rest => { e' with jump := some a, calls := rest }
      | [] => if k.sup then { e' with jump := some 0 } else { e' with jump := none, running := false }
  | _, none =>
    let e' := { e with pc := BitVec.ofNat 16 nxt, jump := none }
    match rep with
    | some m =>
      let n := min m.val.toNat 1023
      if n = 0 then { e' with pc := slotAfter } else { e' with rep := some n, repHold := m.dst == 0x62 }
    | none => e'

/-- R379: what `irq.ret` restores once its delay slot has executed. -/
def Engine.resumeNow (e : Engine) : Engine :=
  match e.resume with
  | some sh => { e with pc := sh.pc, jump := sh.jump, rep := sh.rep, repHold := sh.repHold, resume := none }
  | none => e

/-- R379: `irq.ret`: predicates and enables return at once, the rest after the delay slot. -/
def irqCycle (k : KKind) (l : List KAct) (e : Engine) : Engine :=
  if k.sup && l.any fun m => m.dst == 0xA1 then
    match e.shadow with
    | some sh => { e with resume := some sh, shadow := none, pred := sh.pred, irqEn := sh.irqEn }
    | none => e
  else e

/-- One word in one engine cycle. -/
def Engine.cycle (e0 : Engine) (k : KKind) (free : Nat) (w : KWord) : KOut :=
  let e := (e0.repOver k).land
  let act := activeMoves e w
  let eff := effective act
  let dual := dualOf e k free (readUnits act) eff
  let reads := dual ++ readUnits act
  let vals := eff.map fun m => ({ src := m.src, dst := m.dst, val := moveVal e k free reads m } : KAct)
  let fx := match dual with
    | u :: _ => e.peek k u
    | [] => 0
  let fy := match dual with
    | _ :: u :: _ => e.peek k u
    | _ => 0
  let touched := reads ++ (act.filter fun m => 0x40 ≤ m.dst && m.dst ≤ 0x47).map fun m => m.dst - 0x40
  let e1 := { e with units := (List.range 8).map fun u => if touched.contains u then (e.unit u).post else e.unit u }
  let e2 := storeSide e k vals false (storeSide e k vals true e1)
  let e3 := vals.foldl (fun e m => e.writeReg k m.dst m.val) e2
  let e4 := vals.foldl trigCompare (customCycle k vals (vals.foldl trigArith e3))
  let e5 := macCycle vals fx fy e4
  let e6 := if e0.resume.isSome then ({ e5 with rep := none }).resumeNow else e5.advance k vals
  let e7 := irqCycle k vals (modeCycle vals e6)
  let pub := !k.sup && vals.any fun m => m.dst == 0x70
  { eng := { e7 with cyc := e.cyc + 1, running := e7.running && !pub }
    duty := if k.sup then [] else
      (vals.filter fun m => 0x68 ≤ m.dst && m.dst ≤ 0x6F).map fun m => (m.dst - 0x68, m.val)
    publish := pub
    steer := if k.sup then none else (vals.find? fun m => m.dst == 0x71).map (·.val)
    frees := if act.any fun m => freeSrc k m.src then 1 else 0 }

/-! ### Words on the block -/

/-- Steering requests made in a pace (R161): a later request of a phase replaces an earlier one. -/
def mergeSteer (old new : Word) : Word :=
  BitVec.ofNat 16 (((List.range 8).map fun j =>
    (if fld new.toNat (2 * j) 2 = 0 then fld old.toNat (2 * j) 2 else fld new.toNat (2 * j) 2) * 4 ^ j).sum)

/-- The word of the ridge engine's table. -/
def ridgeKind (b : Bank) : KKind := { sup := false, table := b.entry }

/-- What `irq.src` names: the sources of the interrupt being served and those still pending, in a layout that is not in the manual (R354,
R379; log 76). -/
def State.irqWord (s : State) : Word :=
  (s.irq ++ (s.sup.eng.shadow.elim [] Shadow.srcs)).foldr (fun x w => x.bit ||| w) 0

def State.supKind (s : State) : KKind := { sup := true, table := Config.lawTable 0, irqs := s.irqWord }

/-- A ridge engine executes a word: its pace has started, it has not published, and its window is open (R35). -/
def State.engineRuns (s : State) (r : Nat) : Bool :=
  s.ridgeLive r && (s.ridge r).eng.running && decide ((s.ridge r).eng.cyc < s.deadline)

/-- The supervisor executes: the engine clock runs and it is not held (R378, R444). -/
def State.supRuns (s : State) : Bool := s.locked && s.sup.st != .hold

/-- A word on a ridge engine. -/
def ridgeWord (r : Nat) (w : KWord) (s : State) : State :=
  if s.engineRuns r then
    let q := s.ridge r
    let o := q.eng.cycle (ridgeKind q.bank) s.freeN w
    let s := s.updRidge r fun q =>
      { q with eng := o.eng, steerWord := match o.steer with
          | some v => mergeSteer q.steerWord v
          | none => q.steerWord }
    let s := o.duty.foldl (fun t d => t.updPhase (8 * r + d.1) fun f => { f with shadow := d.2.toNat }) s
    if o.publish then s.publish r q.eng.cyc else s
  else s

/-- A word on the supervisor; what a write of `sv.pd` does in its peripheral is not described (R354; log 10). -/
def supWord (w : KWord) (s : State) : State :=
  if s.supRuns then
    let o := s.sup.eng.cycle s.supKind s.freeN w
    { s with sup := { s.sup with eng := o.eng }, freeN := s.freeN + o.frees }
  else s

/-- R356, R359, R360: a 32-bit word on the engine a command names: 0 to 5 the ridges, 6 the supervisor. -/
def runWord (eng : Nat) (w : Word32) (s : State) : Out :=
  .next (if eng = 6 then supWord (decodeWord w) s else ridgeWord eng (decodeWord w) s)

/-- R367: triggers that have run their three cycles land. -/
def macLand (e : Nat) (s : State) : State :=
  if e = 6 then { s with sup := { s.sup with eng := s.sup.eng.land } }
  else s.updRidge e fun q => { q with eng := q.eng.land }

/-- R371: a repetition that has run out ends. -/
def repeatDone (e : Nat) (s : State) : State :=
  if e = 6 then { s with sup := { s.sup with eng := s.sup.eng.repOver s.supKind } }
  else s.updRidge e fun q => { q with eng := q.eng.repOver (ridgeKind q.bank) }

/-- A cycle without a word: the entries of a custom instruction under way go on (R374). -/
def Engine.idleCycle (e : Engine) (k : KKind) : Engine :=
  let e' := match e.cstAt with
    | some i => e.land.micro k i
    | none => e.land
  { e' with cyc := e.cyc + 1 }

/-- R379: an interrupt of the sources `srcs` is taken between words, or between iterations of an `lp.rep`: the vector word executes in the
third cycle after the interrupted word. -/
def Engine.interrupt (e : Engine) (k : KKind) (srcs : List IrqSource) (vector : Word) : Engine :=
  { (e.idleCycle k).idleCycle k with
    shadow := some { pc := e.pc, jump := e.jump, rep := e.rep, repHold := e.repHold, pred := e.preds, irqEn := e.irqEn, srcs := srcs }
    irqEn := 0, pc := vector, jump := none, rep := none, repHold := false }

/-- The engine is between words, or between iterations of an `lp.rep`; interrupts do not nest (R379). -/
def Engine.mayInterrupt (e : Engine) : Bool :=
  e.shadow.isNone && e.resume.isNone && !(e.repHold && (match e.rep with
    | some (_ + 1) => true
    | _ => false))

/-- The pending sources that `irq.en` enables. -/
def State.enabledIrqs (s : State) : List IrqSource := s.irq.filter fun x => x.bit &&& s.sup.eng.irqEn != 0

/-- R379: the interrupt of every enabled source that is pending; one that cannot be taken yet stays pending. -/
def interruptTaken (vector : Word) (s : State) : State :=
  if s.supRuns && s.sup.eng.mayInterrupt && s.enabledIrqs != [] then
    { s with
      sup := { s.sup with eng := s.sup.eng.interrupt s.supKind s.enabledIrqs vector }
      irq := s.irq.filter fun x => !s.enabledIrqs.contains x }
  else s

/-! ### The commands -/

def execMove (a : KArg) (dst : Nat) (s : State) : Out := runWord a.eng (argBits a dst) s
def execMemRead (a : KArg) (u dst : Nat) (s : State) : Out := runWord a.eng (argBits (reading a u) dst) s
def execMemWrite (a : KArg) (u : Nat) (s : State) : Out := runWord a.eng (argBits a (0x40 + u)) s
def execAluPass (a : KArg) (s : State) : Out := runWord a.eng (argBits a 0x19) s
def execAluAdd (a : KArg) (s : State) : Out := runWord a.eng (argBits a 0x1A) s
def execAluSub (a : KArg) (s : State) : Out := runWord a.eng (argBits a 0x1B) s
def execAluAdds (a : KArg) (s : State) : Out := runWord a.eng (argBits a 0x1C) s
def execAluSubs (a : KArg) (s : State) : Out := runWord a.eng (argBits a 0x1D) s
def execAluAnd (a : KArg) (s : State) : Out := runWord a.eng (argBits a 0x1E) s
def execAluOr (a : KArg) (s : State) : Out := runWord a.eng (argBits a 0x1F) s
def execAluXor (a : KArg) (s : State) : Out := runWord a.eng (argBits a 0x20) s
def execAluShl (a : KArg) (s : State) : Out := runWord a.eng (argBits a 0x21) s
def execAluSar (a : KArg) (s : State) : Out := runWord a.eng (argBits a 0x22) s
def execAluShr (a : KArg) (s : State) : Out := runWord a.eng (argBits a 0x23) s
def execAluMin (a : KArg) (s : State) : Out := runWord a.eng (argBits a 0x24) s
def execAluMax (a : KArg) (s : State) : Out := runWord a.eng (argBits a 0x25) s
def execAluAbs (a : KArg) (s : State) : Out := runWord a.eng (argBits a 0x26) s
def execAluNeg (a : KArg) (s : State) : Out := runWord a.eng (argBits a 0x27) s
def execCmpLt (a : KArg) (s : State) : Out := runWord a.eng (argBits a 0x2A) s
def execCmpLe (a : KArg) (s : State) : Out := runWord a.eng (argBits a 0x2B) s
def execCmpEq (a : KArg) (s : State) : Out := runWord a.eng (argBits a 0x2C) s
def execCmpNe (a : KArg) (s : State) : Out := runWord a.eng (argBits a 0x2D) s
def execCmpGe (a : KArg) (s : State) : Out := runWord a.eng (argBits a 0x2E) s
def execCmpGt (a : KArg) (s : State) : Out := runWord a.eng (argBits a 0x2F) s
def execCmpLtu (a : KArg) (s : State) : Out := runWord a.eng (argBits a 0x30) s
def execCmpGeu (a : KArg) (s : State) : Out := runWord a.eng (argBits a 0x31) s
def execCmpTst (a : KArg) (s : State) : Out := runWord a.eng (argBits a 0x32) s
def execCmpPset (a : KArg) (s : State) : Out := runWord a.eng (argBits a 0x33) s
def execMacMul (a : KArg) (s : State) : Out := runWord a.eng (argBits a 0x35) s
def execMacMac (a : KArg) (s : State) : Out := runWord a.eng (argBits a 0x36) s
def execMacMsu (a : KArg) (s : State) : Out := runWord a.eng (argBits a 0x37) s
def execMacDmac (a : KArg) (s : State) : Out := runWord a.eng (argBits a 0x38) s
def execMacLd (a : KArg) (s : State) : Out := runWord a.eng (argBits a 0x39) s
def execMacClr (a : KArg) (s : State) : Out := runWord a.eng (argBits a 0x3A) s
def execMacMode (a : KArg) (s : State) : Out := runWord a.eng (argBits a 0x3B) s
def execLpRep (a : KArg) (s : State) : Out := runWord a.eng (argBits a 0x61) s
def execLpRepH (a : KArg) (s : State) : Out := runWord a.eng (argBits a 0x62) s
def execPcJmp (a : KArg) (s : State) : Out := runWord a.eng (argBits a 0x63) s
def execPcCall (a : KArg) (s : State) : Out := runWord a.eng (argBits a 0x64) s
def execPcRet (a : KArg) (s : State) : Out := runWord a.eng (argBits a 0x65) s
def execPwmDutyWrite (a : KArg) (k : Nat) (s : State) : Out := runWord a.eng (argBits a (0x68 + k)) s
def execPwmPub (a : KArg) (s : State) : Out := runWord a.eng (argBits a 0x70) s
def execSteerReq (a : KArg) (s : State) : Out := runWord a.eng (argBits a 0x71) s
def execCstTrigger (a : KArg) (n : Nat) (s : State) : Out := runWord a.eng (argBits a (0x50 + n)) s
def execIrqRet (a : KArg) (s : State) : Out := runWord a.eng (argBits a 0xA1) s
def execMacTriggerComplete (e : Nat) (s : State) : Out := .next (macLand e s)
def execRepeatEnd (e : Nat) (s : State) : Out := .next (repeatDone e s)
def execInterruptTaken (vector : Word) (s : State) : Out := .next (interruptTaken vector s)

end Sys2Proof.Machine
end

