-- ==== Sys2Proof/Machine/Opcodes.lean ====
section
/-! DEFINITION. Opcodes of identity, events, ledger, sleep, faults, programs, patches and diagnostics (R302, R312 to R318, R324 to R328,
R332), and the end of the FAULT_N pulse. -/

namespace Sys2Proof.Machine

/-! ### Identity (R302) -/

def patchState (s : State) : Nat := if s.svc.patch.isEmpty then 0 else if s.svc.patchRunning then 1 else 2

def identifyData (s : State) : List Byte :=
  leBytes 2 0x2448 ++ [0xB1, byteOf s.busMode] ++ leBytes 2 0x0304 ++ leBytes 2 s.svc.patchLevel ++
    [byteOf (patchState s), byteOf s.otp.locks, byteOf s.otp.calGen, 0] ++ leBytes 4 s.frameCount

def identify (pl : Place) (s : State) : State := s.runOp pl 0x01 anyCmd fun _ => s.finish pl stOk (identifyData s)

def echo (pl : Place) (s : State) : State := s.runOp pl 0x02 anyCmd fun c => s.finish pl stOk c.par

/-! ### Events (R312, R314) -/

def EventRec.bytes (e : EventRec) : List Byte :=
  [byteOf e.kind, byteOf e.inst, byteOf e.data.length, byteOf e.seq] ++ leBytes 4 e.frame ++ e.data

/-- The whole records from the head that fit in `room` bytes. -/
def fitRecords : Nat → List EventRec → List EventRec
  | _, [] => []
  | room, e :: es => if e.size ≤ room then e :: fitRecords (room - e.size) es else []

/-- R314: the removal step. -/
def EventQ.ack (q : EventQ) (n : Nat) : EventQ :=
  let rest := q.recs.drop n
  { q with recs := rest, lost := q.lost && (n == 0 || !rest.isEmpty) }

def EventQ.report (q : EventQ) : List Byte :=
  let out := fitRecords 249 q.recs
  [byteOf (bitAt 0 q.lost + bitAt 1 (decide (out.length < q.recs.length))), byteOf out.length] ++ out.flatMap EventRec.bytes

def eventRead (pl : Place) (s : State) : State :=
  s.runOp pl 0x37 anyCmd fun c =>
    let q := s.events.ack (c.p8 0)
    { s with events := q }.finish pl stOk q.report

/-! ### Ledger, sleep (R244, R315, R316) -/

def ledgerRead (pl : Place) (s : State) : State :=
  s.runOp pl 0x40 anyCmd fun c =>
    s.finish pl stOk (leBytes 4 s.ledger.hdr.frame ++ ((ledgerBytes s.ledger).drop (c.p16 0)).take (c.p8 2))

def sleep (pl : Place) (s : State) : State :=
  s.runOp pl 0x50 anyCmd fun c => (s.updSeq fun q => { q with sleepAt := some (s.frame + c.p16 0) }).ok pl

/-- An accepted opcode that burns OTP has not ended (R316, R329). -/
def State.burnPending (s : State) : Bool :=
  [Place.host0, .host12, .tun0, .tun12].any fun pl => match s.cmdAt pl with
    | some c => c.accepted && ((opOf c.op).map (·.burns)).getD false
    | none => false

/-- R316: the delay is over at a boundary, and no burn runs. -/
def sleepDelayExpiry (s : State) : State :=
  match s.seq.sleepAt with
  | some f =>
    if s.seq.mode == .running && s.locked && s.atBoundary && decide (f ≤ s.frame) && !s.burnPending then s.orderedShutdown .rest else s
  | none => s

/-! ### Faults (R257, R259, R260, R318) -/

/-- R257, R318: the reply after the boundary at which the clear acted. -/
def faultClear (pl : Place) (s : State) : State :=
  match s.cmdAt pl with
  | some c =>
    match c.clearOf with
    | some (b, m) =>
      if c.wait == some .faultClear then s.finish pl stOk (leBytes 2 (s.flt b).sticky.toNat)
      else if s.clearDue c then
        let s := s.clearFault b m
        s.finish pl stOk (leBytes 2 (s.flt b).sticky.toNat)
      else s
    | none => s
  | none => s

/-- R260, R318: release. -/
def faultPinRelease (pl : Place) (s : State) : State :=
  s.runOp pl 0x61 (fun c => c.p8 0 == 0) fun _ => { s with faultN := { s.faultN with action := some false } }.finish pl stOk [0]

/-- R260, R318: drive low and hold. -/
def faultPinHold (pl : Place) (s : State) : State :=
  s.runOp pl 0x61 (fun c => c.p8 0 == 1) fun _ => { s with faultN := { s.faultN with action := some true } }.finish pl stOk [1]

def faultRead (pl : Place) (s : State) : State :=
  s.runOp pl 0x62 anyCmd fun c =>
    match blkOf (c.p8 0) (c.p8 1) with
    | some b =>
      s.finish pl stOk (leBytes 2 (s.flt b).sticky.toNat ++ leBytes 4 (s.flt b).first.toNat ++ leBytes 2 (s.maskOf b 2) ++ leBytes 2 (s.maskOf b 3))
    | none => s

/-- R259, R260: 12 paces or 2 ticks have passed. -/
def faultNPulseEnd (s : State) : State :=
  let n := s.faultN
  if n.pulse && (if n.byTicks then decide (n.pulseAt + 2 ≤ s.tick) else decide (n.pulseAt + 12 ≤ s.now)) then
    if s.inf 0 0 0x3A = 1 then { s with faultN := { n with pulse := false, hold := true } }
    else { s with faultN := { n with pulse := false, quietUntil := if s.locked then s.now + 12 else n.quietUntil } }
  else s

/-! ### Programs and decode tables (R325, R326, R382 to R385) -/

/-- A word of a list over a base; a zero over a base of zeros is not listed. -/
def putWord (base : Nat) (m : List (Nat × Word32)) (a : Nat) (w : Word32) : List (Nat × Word32) :=
  if base = 0 && w == 0 then mapErase m a else mapSet m a w

def putWords (base : Nat) : List (Nat × Word32) → Nat → List Word32 → List (Nat × Word32)
  | m, _, [] => m
  | m, a, w :: ws => putWords base (putWord base m a w) (a + 1) ws

/-- The words of a packet from parameter byte 4. -/
def Cmd.words (c : Cmd) : List Word32 := wordsFrom ((c.plen - 4) / 4) (c.par.drop 4)

def progLoad (pl : Place) (s : State) : State :=
  s.runOp pl 0x90 anyCmd fun c =>
    let r := c.p8 0
    if (s.ridge r).switchPending then s.finish pl stBusy []
    else
      (s.updRidge r fun q =>
        { q with staging := { q.staging with words := putWords q.staging.base q.staging.words (c.p16 2) c.words }, stagingState := 1 }).ok pl

def progRead (pl : Place) (s : State) : State :=
  s.runOp pl 0x91 anyCmd fun c =>
    let q := s.ridge (c.p8 0)
    let b := if c.p8 1 = 0 then q.staging else q.bank
    s.finish pl stOk ((List.range (c.p8 4)).flatMap fun i => leBytes 4 (b.word (c.p16 2 + i)).toNat)

/-- The ridges that `UCODE_LOAD` names. -/
def ucodeRidges (s : State) (r : Nat) : List Nat := if r = 0xFF then (List.range 6).filter (ridgeHere s) else [r]

def ucodeLoad (pl : Place) (s : State) : State :=
  s.runOp pl 0x94 anyCmd fun c =>
    let rs := ucodeRidges s (c.p8 0)
    if rs.any fun r => (s.ridge r).switchPending then s.finish pl stBusy []
    else
      (overList rs (fun r t => t.updRidge r fun q =>
        { q with staging := { q.staging with tbl := putWords q.staging.tblBase q.staging.tbl (c.p8 1) c.words }, stagingState := 1 }) s).ok pl

/-- R326: live service is off and a port of the ridge is attached or waiting to be. -/
def switchRefused (s : State) (r : Nat) : Bool :=
  !s.liveOn && (ridgePorts r).any fun p =>
    let st := (s.cc p).st
    st.attached || st == .attachWaitSrc || st == .attachWaitSnk

/-- A switch becomes pending (R383). -/
def pendSwitch (s : State) (pl : Place) (r : Nat) (b : Bank) (src id : Nat) : State :=
  (s.updRidge r fun q => { q with staging := b, switchPending := true, switchSrc := src, switchId := id, stagingState := 2 }).hold pl (.bankSwitch r)

/-- A bank that is a ROM law as the ROM holds it (R326: the former active bank goes back unchanged). -/
def Bank.isLaw (b : Bank) : Bool := b.base != 0 && b.tblBase == b.base && b.words.isEmpty && b.tbl.isEmpty

/-- Words beyond LENGTH read zero (R382). -/
def Bank.cut (b : Bank) : Bank :=
  if b.base = 0 then b.trimmed else { b with base := 0, words := ((List.range b.length).map fun i => (i, b.word i)).filter fun p => p.2 != 0 }

def progSwitchStaging (pl : Place) (s : State) : State :=
  s.runOp pl 0x92 (fun c => c.p8 1 == 0) fun c =>
    let r := c.p8 0
    let b := (s.ridge r).staging
    if (s.ridge r).switchPending then s.finish pl stBusy []
    else if switchRefused s r then s.finish pl stState []
    else if b.isLaw then pendSwitch s pl r b b.base (lawId b.base)
    else match imageFault b with
      | some n => s.finish pl stFailed [1, byteOf n]
      | none => pendSwitch s pl r b.cut 0 b.crc

def progSwitchRomLaw (pl : Place) (s : State) : State :=
  s.runOp pl 0x92 (fun c => c.p8 1 == 1) fun c =>
    let r := c.p8 0
    if (s.ridge r).switchPending then s.finish pl stBusy []
    else if switchRefused s r then s.finish pl stState []
    else pendSwitch s pl r (lawBank 1) 1 (lawId 1)

/-! ### Patches (R327, R328) -/

def patchLoad (pl : Place) (s : State) : State :=
  s.runOp pl 0x98 anyCmd fun c =>
    let off := c.p16 0
    let d := c.par.drop 4
    let v := s.svc
    let high := if off = 0 then d.length else max v.patchHigh (off + d.length)
    { s with svc := { v with patchBuf := cellsStore v.patchBuf off d, patchHigh := high } }.ok pl

def patchVerify (pl : Place) (s : State) : State :=
  s.runOp pl 0x99 anyCmd fun _ =>
    let img := cellsLoad s.svc.patchBuf 0 s.svc.patchHigh
    match patchFault s.otp img img.length with
    | some n => s.finish pl (if n < 3 then stFailed else stAuth) [byteOf n]
    | none =>
      ({ s with svc := { s.svc with patch := img, patchRunning := false } }.markDirty 18).finish pl stOk (leBytes 2 (patchLevelOf img))

def patchDrop (pl : Place) (s : State) : State :=
  s.runOp pl 0x9A anyCmd fun _ => ({ s with svc := { s.svc with patch := [], patchRunning := false } }.markDirty 18).ok pl

/-! ### Diagnostics (R332) -/

def diagCapture (pl : Place) (s : State) : State :=
  s.runOp pl 0xC0 anyCmd fun c =>
    { s with svc := { s.svc with capArmed := some (c.p8 0, c.p8 1, s.frame + c.p16 2, s.now) } }.hold pl .capture

/-- The trigger of an armed capture has come in this pace: the pace after execution; a sticky bit of the ridge or of one of its phases that has
changed from 0 to 1; or PKLIM on a phase. -/
def captureTriggered (s : State) (r trigger since : Nat) : Bool :=
  if trigger = 0 then s.now == since + 1
  else if trigger = 1 then
    (s.flt (.ridge r)).last == s.stampNow || (List.range 8).any fun j => (s.flt (.phase (8 * r + j))).last == s.stampNow
  else (List.range 8).any fun j => (s.phase (8 * r + j)).pklim

/-- The end of the trigger pace: X words 0x0000 to 0x04FF go into the buffer. -/
def diagCaptureTrigger (s : State) : State :=
  match s.svc.capArmed with
  | some (r, trigger, _, since) =>
    if s.locked && captureTriggered s r trigger since then
      let x := (cellsLoad (s.ridge r).eng.x 0 1280).flatMap fun w => leBytes 2 w.toNat
      let s := { s with svc := { s.svc with capArmed := none, capBuf := x, capFrame := s.frameCount, capDone := true } }
      s.finishWait .capture stOk (leBytes 4 s.frameCount ++ leBytes 2 s.pace)
    else s
  | none => s

/-- No trigger within TIMEOUT. -/
def diagCaptureTimeout (s : State) : State :=
  match s.svc.capArmed with
  | some (_, _, due, _) =>
    if s.locked && decide (due ≤ s.frame) then { s with svc := { s.svc with capArmed := none } }.finishWait .capture stFailed [1] else s
  | none => s

def diagDump (pl : Place) (s : State) : State :=
  s.runOp pl 0xC1 anyCmd fun c =>
    if s.svc.capDone then s.finish pl stOk (leBytes 4 s.svc.capFrame ++ (s.svc.capBuf.drop (c.p16 0)).take (c.p8 2))
    else s.finish pl stState []

def execIdentify (pl : Place) (s : State) : Out := .next (identify pl s)
def execEcho (pl : Place) (s : State) : Out := .next (echo pl s)
def execEventRead (pl : Place) (s : State) : Out := .next (eventRead pl s)
def execLedgerRead (pl : Place) (s : State) : Out := .next (ledgerRead pl s)
def execSleep (pl : Place) (s : State) : Out := .next (sleep pl s)
def execSleepDelayExpiry (s : State) : Out := .next (sleepDelayExpiry s)
def execFaultClear (pl : Place) (s : State) : Out := .next (faultClear pl s)
def execFaultPinRelease (pl : Place) (s : State) : Out := .next (faultPinRelease pl s)
def execFaultPinHold (pl : Place) (s : State) : Out := .next (faultPinHold pl s)
def execFaultRead (pl : Place) (s : State) : Out := .next (faultRead pl s)
def execFaultNPulseEnd (s : State) : Out := .next (faultNPulseEnd s)
def execProgLoad (pl : Place) (s : State) : Out := .next (progLoad pl s)
def execProgRead (pl : Place) (s : State) : Out := .next (progRead pl s)
def execUcodeLoad (pl : Place) (s : State) : Out := .next (ucodeLoad pl s)
def execProgSwitchStaging (pl : Place) (s : State) : Out := .next (progSwitchStaging pl s)
def execProgSwitchRomLaw (pl : Place) (s : State) : Out := .next (progSwitchRomLaw pl s)
def execPatchLoad (pl : Place) (s : State) : Out := .next (patchLoad pl s)
def execPatchVerify (pl : Place) (s : State) : Out := .next (patchVerify pl s)
def execPatchDrop (pl : Place) (s : State) : Out := .next (patchDrop pl s)
def execDiagCapture (pl : Place) (s : State) : Out := .next (diagCapture pl s)
def execDiagCaptureTrigger (s : State) : Out := .next (diagCaptureTrigger s)
def execDiagCaptureTimeout (s : State) : Out := .next (diagCaptureTimeout s)
def execDiagDump (pl : Place) (s : State) : Out := .next (diagDump pl s)

end Sys2Proof.Machine
end

