-- ==== Sys2Proof/Machine/OtpCmds.lean ====
section
/-! DEFINITION. The OTP opcodes (R319 to R323, R331 AUTH_KEYGEN, R408, R413, R418, R420): reading, burning, locking, calibration and key
generation. -/

namespace Sys2Proof.Machine

/-! ### Reading (R319) -/

/-- A word as `OTP_READ` returns it: the device secret and the identity key read as zero. -/
def otpShown (o : Otp) (a : Nat) : Nat := if 192 ≤ a && a ≤ 207 then 0 else (o.lo a).toNat

def otpRead (pl : Place) (s : State) : State :=
  s.runOp pl 0x70 anyCmd fun c =>
    let a := c.p16 0
    let n := c.p8 2
    s.finish pl stOk (bitmap8 ((List.range n).filter fun i => s.otp.weak (a + i)) ++ (List.range n).flatMap fun i => leBytes 4 (otpShown s.otp (a + i)))

/-! ### Burning (R320, R400) -/

/-- The words that a burn cut short has burned; none where it runs to its end (R414, R415). -/
def burnShort (r : BurnResult) (l : List (Nat × Word32)) : Option (List (Nat × Word32)) :=
  match r.cut with
  | some n => if n < l.length then some (l.take n) else none
  | none => none

/-- R414, R415: a burn is cut short: its words so far stand as they are, nothing is re-read, and the command goes with the `VCORE`
domain. -/
def State.cutBurn (s : State) (pl : Place) (weak : List Nat) (l : List (Nat × Word32)) : State :=
  { s with otp := s.otp.burnList weak l }.hold pl .burn

/-- What a burn reports after its re-read: BURN_VERIFY for words that fail, WEAK_OPEN for weak ones (R264, R398, R400). -/
def State.afterBurn (s : State) (o : Otp) (a n : Nat) (failed : Bool) : State :=
  let s := { s with otp := o.recount }
  let s := if (List.range n).any fun i => o.weak (a + i) && !o.locked (regionOf (a + i)) && decide (a + i < 1008) then s.raise .otp 0 else s
  if failed then s.raise .otp 6 else s

/-- The first word with a 0 where the array holds a 1. -/
def firstClash (o : Otp) (a : Nat) (ws : List Word32) : Option Nat :=
  (List.range ws.length).find? fun i => o.lo (a + i) &&& ~~~(ws.getD i 0) != 0

def otpBurn (pl : Place) (r : BurnResult) (s : State) : State :=
  s.runOp pl 0x71 anyCmd fun c =>
    let a := c.p16 0
    let ws := wordsOf (c.p8 2) (c.par.drop 4)
    if s.otp.locked (regionOf a) then s.finish pl stLocked []
    else match firstClash s.otp a ws with
      | some i => s.finish pl stFailed [2, byteOf i]
      | none => match burnShort r (runOf a ws) with
        | some l => s.cutBurn pl r.weak l
        | none =>
          let o := s.otp.burnFrom r.weak a ws
          let bad := o.failing a ws
          let s := s.afterBurn o a ws.length (!bad.isEmpty)
          if bad.isEmpty then s.ok pl else s.finish pl stFailed (3 :: bitmap8 bad)

/-! ### FINALISE (R321, R411 to R413) -/

/-- The 15 slot words that carry a digest in slot i. -/
def slotWords (i : Nat) (d : List Byte) : List Word32 :=
  let n := leNat d * 2 ^ (48 * i)
  (List.range 15).map fun j => BitVec.ofNat 32 (fld n (32 * j) 32)

/-- The three lock copies of a region. -/
def lockBits (r : Nat) : Word32 := BitVec.ofNat 32 (2 ^ r + 2 ^ (5 + r) + 2 ^ (10 + r))

/-- The burns of steps 3 and 5 in their order (R413): the SPENT bit and the slot, then the lock copies if the slot has verified. -/
def lockSteps (o : Otp) (weak : List Nat) (r len k : Nat) : List (Nat × Word32) :=
  let i := 2 * r + k
  let d := o.digest r len
  let first := (1023, BitVec.ofNat 32 (2 ^ (15 + i))) :: runOf 1008 (slotWords i d)
  let t := o.burnList weak first
  if t.spent i && (t.failing 1008 (slotWords i d)).isEmpty && t.slot i == d then
    first ++ [0, 5, 10].map fun c => (1023, BitVec.ofNat 32 (2 ^ (c + r)))
  else first

/-- Steps 3 to 5 for a slot; the outcome and the array. -/
def lockRegion (o : Otp) (weak : List Nat) (r len k : Nat) : Otp × Bool :=
  let i := 2 * r + k
  let d := o.digest r len
  let o := o.burn1 weak 1023 (BitVec.ofNat 32 (2 ^ (15 + i)))
  let ws := slotWords i d
  let o := o.burnFrom weak 1008 ws
  if o.spent i && (o.failing 1008 ws).isEmpty && o.slot i == d then
    let o := o.burn1 weak 1023 (lockBits r)
    (o, o.verify1 1023 (lockBits r))
  else (o, false)

/-- SLOT_SPENT and UNLOCKABLE of a region that stays unlocked with a spent slot (R411). -/
def State.spentStickies (s : State) (r : Nat) : State :=
  if s.otp.locked r then s
  else
    let s := if (s.otp.lastSlot r).isSome then s.raise .otp 4 else s
    if s.otp.spent (2 * r) && s.otp.spent (2 * r + 1) then s.raise .otp 5 else s

def finalise (pl : Place) (b : BurnResult) (s : State) : State :=
  s.runOp pl 0x72 anyCmd fun c =>
    let r := c.p8 0
    let len := c.p16 2
    let o := s.otp
    if o.locked r then s.finish pl stLocked []
    else if o.spent (2 * r) && o.spent (2 * r + 1) then s.finish pl stState [2]
    else if o.fillOf r ≠ len then s.finish pl stState (1 :: leBytes 2 (o.fillOf r))
    else
      let k := b1 (o.spent (2 * r))
      match burnShort b (lockSteps o b.weak r len k) with
      | some l => s.cutBurn pl b.weak l
      | none =>
        let (o, good) := lockRegion o b.weak r len k
        let s := (s.afterBurn o 1008 16 (!good)).spentStickies r
        if good then s.finish pl stOk [byteOf k] else s.finish pl stFailed [3, byteOf k]

/-! ### Calibration (R322, R323, R418, R420) -/

/-- The channel is in the condition for a point (R322). -/
def captureOk (s : State) (ch : Nat) (gain load : Bool) : Bool :=
  if ch < 48 then
    match recPort ch (s.ledger.phase ch) with
    | some p => gain && (s.ledger.phase ch).st == 1 && s.ledger.on p == [ch] && (s.path p).pmode == 1
    | none => !gain && (s.phase ch).steer == 0
  else
    let p := (ch - 48) % 24
    if gain then (s.path p).swOn && load else offsetOk s p

/-- R322: a capture begins; it averages the codes of the next 500 paces. `load`: the channel carries the fixture's load. -/
def calCapture (pl : Place) (load : Bool) (s : State) : State :=
  s.runOp pl 0x74 anyCmd fun c =>
    match chanOf s (c.p16 0) with
    | none => s
    | some ch =>
      let t := rdS16 c.par 2
      let gain := t != 0
      if !captureOk s ch gain load then s.finish pl stState []
      else
        let others := s.captures.filter fun x => !(x.chan == ch && x.gain == gain)
        ({ s with captures := others ++ [({ chan := ch, gain := gain, truth := t } : CalCapture)] }).hold pl (.calCapture ch gain)

/-- The lowest generation above the current one whose words all read 0 at both margins (R420). -/
def nextGen (o : Otp) : Option Nat :=
  let from_ := match o.currentGen with
    | some g => g + 1
    | none => 0
  (List.range 6).find? fun g => decide (from_ ≤ g) && (List.range 80).all fun j => o.lo (genBase g + j) == 0 && o.hi (genBase g + j) == 0

/-- A record of the new generation: staged points replace the current generation's (R323, R421). -/
def newRecord (o : Otp) (ch : Nat) : CalRec :=
  let r := o.currentRec ch
  let r := match stagedOf o ch false with
    | some (v, _) => { r with ofs := v }
    | none => r
  match stagedOf o ch true with
  | some (v, l) => { r with trim := v, lcode := l }
  | none => r

/-- The 80 words of the new generation (R417). -/
def newGenWords (o : Otp) : List Word32 :=
  let n := (List.range 96).foldr (fun ch acc => recNat (newRecord o ch) + 2 ^ 24 * acc) 0
  let ws : List Word32 := (List.range 79).map fun j => BitVec.ofNat 32 (fld n (32 * j) 32)
  ws ++ [BitVec.ofNat 32 (crc32 (ws.flatMap fun w => leBytes 4 w.toNat))]

def calBurn (pl : Place) (b : BurnResult) (s : State) : State :=
  s.runOp pl 0x75 anyCmd fun _ =>
    if s.otp.staged.isEmpty then s.finish pl stState [1]
    else match nextGen s.otp with
      | none => s.finish pl stState [2]
      | some g =>
        if s.otp.locked 3 then s.finish pl stLocked []
        else
          let ws := newGenWords s.otp
          let o := s.otp.burnFrom b.weak (genBase g) ws
          let steps := runOf (genBase g) ws ++ (if (o.failing (genBase g) ws).isEmpty then [(256 + g, BitVec.ofNat 32 (0xCA100000 + g))] else [])
          match burnShort b steps with
          | some l => s.cutBurn pl b.weak l
          | none =>
          if (o.failing (genBase g) ws).isEmpty then
            let w : Word32 := BitVec.ofNat 32 (0xCA100000 + g)
            let o := o.burn1 b.weak (256 + g) w
            let good := o.verify1 (256 + g) w
            let s := s.afterBurn o (256 + g) 1 (!good)
            let s := { s with otp := { s.otp with calNext := s.otp.currentGen } }
            if good then { s with otp := { s.otp with staged := [] } }.ok pl else s.finish pl stFailed [3]
          else (s.afterBurn o (genBase g) 80 true).finish pl stFailed [3]

def calRead (pl : Place) (s : State) : State :=
  s.runOp pl 0x76 anyCmd fun c =>
    match chanOf s (c.p16 0) with
    | none => s
    | some ch =>
      let o := s.otp
      let bits := match o.calUse with
        | some g => o.recBits g ch
        | none => 0
      s.finish pl stOk ([byteOf o.calGen, byteOf (bitAt 0 (stagedOf o ch false).isSome + bitAt 1 (stagedOf o ch true).isSome)] ++ leBytes 3 bits)

/-! ### Keys (R331, R408) -/

/-- The words 192 to 208 of a drawn secret and identity key. -/
def keyWords (secret key : List Byte) : List Word32 :=
  let a := fitTo 32 (Config.scramble secret)
  let b := fitTo 32 (Config.scramble key)
  wordsOf 16 (a ++ b) ++ [BitVec.ofNat 32 (crc32 (a ++ b))]

def authKeygen (pl : Place) (r : BurnResult) (s : State) : State :=
  s.runOp pl 0xB0 anyCmd fun _ =>
    if s.otp.anyBit 192 16 then s.finish pl stState []
    else if s.otp.locked 2 then s.finish pl stLocked []
    else
      let ws := keyWords (octetsOf s.freeN 32) (octetsOf (s.freeN + 1) 32)
      let s := { s with freeN := s.freeN + 2 }
      match burnShort r (runOf 192 ws) with
      | some l => s.cutBurn pl r.weak l
      | none =>
        let o := s.otp.burnFrom r.weak 192 ws
        let bad := o.failing 192 ws
        let s := s.afterBurn o 192 17 (!bad.isEmpty)
        if bad.isEmpty then s.finish pl stOk (idPublic s) else s.finish pl stFailed [3]

def execOtpRead (pl : Place) (s : State) : Out := .next (otpRead pl s)
def execOtpBurn (pl : Place) (r : BurnResult) (s : State) : Out := .next (otpBurn pl r s)
def execFinalise (pl : Place) (r : BurnResult) (s : State) : Out := .next (finalise pl r s)
def execCalCapture (pl : Place) (load : Bool) (s : State) : Out := .next (calCapture pl load s)
def execCalBurn (pl : Place) (r : BurnResult) (s : State) : Out := .next (calBurn pl r s)
def execCalRead (pl : Place) (s : State) : Out := .next (calRead pl s)
def execAuthKeygen (pl : Place) (r : BurnResult) (s : State) : Out := .next (authKeygen pl r s)

end Sys2Proof.Machine
end

