-- ==== Sys2Proof/Machine/Retention.lean ====
section
/-! DEFINITION. Retained state, margin mode, live service and the supervisor restart (R324, R329, R330, R426 to R448). -/

namespace Sys2Proof.Machine

/-! ### Cairns (R324, R426 to R430) -/

def cairnSync (pl : Place) (s : State) : State :=
  s.runOp pl 0x80 anyCmd fun _ => (overN 25 (fun n t => t.markDirty n) s).hold pl .cairnSync

def cairnDrop (pl : Place) (s : State) : State :=
  s.runOp pl 0x81 anyCmd fun c =>
    if s.ret.writing.isSome then s.finish pl stBusy []
    else
      let m := rdLe c.par 0 8
      (overN 25 (fun n t => if m.testBit n then t.updCairn n fun x => { x with state := 4, dirty := false } else t) s).ok pl

/-- The supervisor writes cairns: after the cairn restore, while it runs, and in an ordered shutdown before step 6 is undone (R428). -/
def writesCairns (s : State) : Bool :=
  s.locked && decide (3 ≤ s.seq.milestone) && s.sup.st != .hold && s.ret.writing.isNone &&
    (s.seq.mode == .running && s.atBoundary || s.seq.mode == .shutdown && s.seq.downStep == 7)

/-- R426, R427: the lowest dirty cairn. -/
def cairnWriteBegin (s : State) : State :=
  if writesCairns s then (match s.firstDirty with
    | some n => s.cairnBegin n
    | none => s) else s

/-- R427, R324: the write closes; `CAIRN_SYNC` ends when none is left. -/
def cairnWriteComplete (s : State) : State :=
  match s.ret.writing with
  | some n =>
    if s.locked then
      let s := s.cairnClose n
      if s.firstDirty.isNone then s.finishWait .cairnSync stOk [] else s
    else s
  | none => s

/-- R430: the copy of a new active bank is complete. -/
def bankCopyComplete (r : Nat) (s : State) : State :=
  if decide (r < 6) && s.locked && (s.ridge r).copying then
    let s := { s with ret := { s.ret with banks := s.ret.banks.set r (s.ridge r).bank.words } }
    let s := s.updRidge r fun q => { q with copying := false }
    (s.markDirty (decodeCairn r)).markDirty (ridgeCairn r)
  else s

/-! ### Measurements (R432 to R434) -/

/-- R433: 1,024 paces make a record. -/
def probeRecordComplete (r : Nat) (s : State) : State :=
  match (s.ridge r).probe with
  | some b =>
    if decide (r < 6) && s.locked && b.paces == 1024 && decide (b.records < 8) then
      s.updRidge r fun q => { q with probe := some { b with records := b.records + 1, paces := 0 } }
    else s
  | none => s

/-- The estimates of R434 for an item of scope 6, within its range (log 11). -/
def estimateOf (b : Probe) (item : Nat) : Nat :=
  let v := Config.estimate item b.data
  if item = 0x01 || item = 0x20 then min v 900 else min v 65535

/-- The base set of R159 whose band contains an inductance in 10 nH. -/
def bandOf (l : Nat) : Nat := if l < 240 then 0 else if l < 330 then 1 else if l < 470 then 2 else 3

/-- L_EST within 1.8 µH to 6.8 µH (R160). -/
def inBand (l : Nat) : Bool := decide (180 ≤ l) && decide (l ≤ 680)

/-- LAW_SET of R436; `stay` keeps a phase of sets 4 to 7 in its set. -/
def lawSetOf (l margin cur : Nat) (stay : Bool) : Nat :=
  let b := bandOf l
  if !inBand l then (if l < 180 then 4 else 7)
  else if margin < 450 || (stay && cur == b + 4) then b + 4
  else b

/-- The estimates written into the diagnostic view of phase, port and ridge (R434). -/
def takeEstimates (s : State) (r : Nat) (b : Probe) : State :=
  let k := b.phase
  let s := s.updPhase k fun f =>
    let l := estimateOf b 0x00
    { f with
      est := (List.range 4).map (estimateOf b), measFrame := s.frameCount, nMeas := sat1 f.nMeas, measured := true
      rEff := estimateOf b 0x100, lBase := if f.lBase = 0 then l else f.lBase }
  let s := match steeredPort s k with
    | some p => s.updPath p fun h => { h with est := (List.range 3).map fun i => estimateOf b (0x20 + i) }
    | none => s
  (s.updRidge r fun q => { q with est := (List.range 3).map fun i => estimateOf b (0x40 + i), probe := none }).markDirty (10 + r)

/-- R441 step 6: the phase is admitted with its items at their defaults. -/
def admitPhase (s : State) (k : Nat) : State :=
  let f := s.phase k
  let l := f.est.getD 0 0
  let set := fun (m v : Nat) (t : State) => t.setItem (pid 4 k m) v
  let s := set 0x04 2000 (set 0x08 500 (set 0x09 100 (set 0x0A 20000 (set 0x0B 100 (set 0x07 (lawSetOf l (f.est.getD 1 0) 0 false) s)))))
  let s := s.updPhase k fun f => { f with retired := false, lBase := l, goodMeas := 0 }
  (s.markDirty (4 + ridgeOfPhase k)).markDirty (10 + ridgeOfPhase k)

/-- A readmission ends. -/
def readmitEnd (s : State) (k code : Nat) (data : List Byte) : State :=
  { s with readmitting := s.readmitting.filter fun x => x != k }.finishWait (.readmit k) code data

/-- R434, R436, R441: eight records are analysed. A readmission replies once a ledger has placed its phase (`readmitFrame`). -/
def measurementComplete (r : Nat) (s : State) : State :=
  match (s.ridge r).probe with
  | some b =>
    if decide (r < 6) && s.locked && b.records == 8 then
      let k := b.phase
      let s := takeEstimates s r b
      if b.readmit then
        if inBand ((s.phase k).est.getD 0 0) then
          let s := admitPhase s k
          { s with readmitting := s.readmitting.filter fun x => x != k }
        else readmitEnd s k stFailed [2]
      else
        let s := { s with ageQueue := s.ageQueue.filter fun x => x != k }
        let s := s.updRidge r fun q => { q with replanDue := some k }
        s.finishWait (.ageing k) stOk (measureData s k)
    else s
  | none => s

/-! ### Re-planning (R436, R437) -/

/-- Numbers in rising order. -/
def insertNat (x : Nat) : List Nat → List Nat
  | [] => [x]
  | y :: ys => if x ≤ y then x :: y :: ys else y :: insertNat x ys

/-- Twice the median of a list: the sum of its two middle elements. -/
def median2 (l : List Nat) : Nat :=
  let v := l.foldr insertNat []
  v.getD ((v.length - 1) / 2) 0 + v.getD (v.length / 2) 0

/-- R_eff of the ridge's measured phases. -/
def ridgeREff (s : State) (r : Nat) : List Nat :=
  (((List.range 8).map (8 * r + ·)).filter fun k => (s.phase k).fitted && (s.phase k).measured).map fun k => (s.phase k).rEff

/-- A loss coefficient changes by at most 10 % (R436), within its range. -/
def within10 (cur v hi : Nat) : Nat := min hi (max (cur - cur / 10) (min (cur + cur / 10) v))

/-- DERATE of R436 and the count of good measurements. -/
def derateOf (f : Phase) (cur med2 : Nat) : Nat × Nat :=
  let bad := decide (100 * f.est.getD 0 0 < 85 * f.lBase) || decide (3 * med2 < 4 * f.rEff)
  let d := if bad then cur - 10 else if 2 ≤ f.goodMeas then cur + 10 else cur
  let d := if inBand (f.est.getD 0 0) then d else min d 50
  (max 25 (min 100 d), if bad || decide (2 ≤ f.goodMeas) then 0 else f.goodMeas + 1)

/-- R436, R437: the re-plan of the measured phase at a frame boundary. -/
def replanApply (r : Nat) (s : State) : State :=
  match (s.ridge r).replanDue with
  | some k =>
    if decide (r < 6) && s.locked && s.atBoundary && s.sup.st != .hold then
      let s := s.updRidge r fun q => { q with replanDue := none }
      if s.marginOn then
        let f := s.phase k
        let cur := fun m => s.written (pid 4 k m)
        let (d, n) := derateOf f (cur 0x0B) (median2 (ridgeREff s r))
        let set := fun (m v : Nat) (t : State) => t.setItem (pid 4 k m) v
        let s := set 0x07 (lawSetOf (f.est.getD 0 0) (f.est.getD 1 0) (cur 0x07) true) (set 0x0B d (set 0x04 (max 400 (20 * d))
          (set 0x0A (within10 (cur 0x0A) f.rEff 65535) s)))
        (s.updPhase k fun f => { f with goodMeas := n }).markDirty (10 + r)
      else s
    else s
  | none => s

/-- R436, R437: the device-wide fit; its inputs are those the spec names (log 11). -/
def lossFit (s : State) : State :=
  if s.locked && s.marginOn && s.atBoundary && s.sup.st != .hold && s.framesSince s.dev.lossFitFrame 10000 then
    let inputs := (s.freeN : Int) :: s.inn.feedHist ++ s.inn.outHist
    let s := overN 48 (fun k t =>
      if (t.phase k).fitted then
        let one := fun (m i : Nat) (t : State) => t.setItem (pid 4 k m) (within10 (t.written (pid 4 k m)) (Config.lossFit i inputs) 10000)
        one 0x08 0 (one 0x09 1 t)
      else t) s
    let s := overN 6 (fun r t => if (t.ridge r).run == .depopulated then t else t.markDirty (10 + r)) s
    { s with freeN := s.freeN + 1, dev := { s.dev with lossFitFrame := s.frame } }
  else s

/-- The acceptance frame of a command that waits. -/
def waitFrame (s : State) (w : WaitFor) : Option Nat :=
  ([Place.host0, .host12, .tun0, .tun12].find? fun pl => s.waits pl w).bind fun pl => (s.cmdAt pl).map (·.frame)

/-- R329, R433: an `AGEING_MEASURE` has not had its records within 1,000 frames. -/
def ageingMeasureTimeout (r : Nat) (s : State) : State :=
  match s.ageQueue.find? fun k => ridgeOfPhase k == r && s.ran (waitFrame s (.ageing k)) 1000 with
  | some k =>
    let s := { s with ageQueue := s.ageQueue.filter fun x => x != k }
    let s := s.updRidge r fun q => match q.probe with
      | some b => if b.phase = k then { q with probe := none } else q
      | none => q
    s.finishWait (.ageing k) stFailed [1]
  | none => s

/-- R441: the records of a readmission are not complete within 1,000 frames of the solve that placed the probe. -/
def readmitTimeout (r : Nat) (s : State) : State :=
  match (s.ridge r).probe with
  | some b =>
    if decide (r < 6) && s.locked && b.readmit && s.framesSince b.startFrame 1000 then
      readmitEnd (s.updRidge r fun q => { q with probe := none }) b.phase stFailed [3]
    else s
  | none => s

/-! ### Live service (R329, R438 to R442) -/

/-- The OTP enable of live service, and of margin mode (R343). -/
def liveInOtp (s : State) : Bool := s.otp.modes.testBit 1
def marginInOtp (s : State) : Bool := s.otp.modes.testBit 0

/-- A phase being retired or readmitted. -/
def inLiveAction (s : State) (k : Nat) : Bool := (s.retiring.any fun x => x.1 == k) || s.readmitting.contains k

def phaseRetire (pl : Place) (s : State) : State :=
  s.runOp pl 0xA0 anyCmd fun c =>
    let k := c.p8 0
    let f := s.phase k
    if !liveInOtp s then s.finish pl stLocked []
    else if !s.liveOn || f.stopped || f.retired || inLiveAction s k || (c.p8 1 == 0 && trialLoses s k) then s.finish pl stState []
    else
      let s := s.updRidge (ridgeOfPhase k) fun q => match q.probe with
        | some b => if b.phase = k then { q with probe := none } else q
        | none => q
      { s with retiring := s.retiring ++ [(k, s.frame)] }.hold pl (.retire k)

/-- `imonMv`: `IMON_xx` with both legs off, as the command reads it (R441 step 1). -/
def phaseReadmit (pl : Place) (imonMv : Nat) (s : State) : State :=
  s.runOp pl 0xA1 anyCmd fun c =>
    let k := c.p8 0
    if !liveInOtp s then s.finish pl stLocked []
    else if !s.liveOn || !(s.phase k).retired || inLiveAction s k then s.finish pl stState []
    else if imonMv < 700 then s.finish pl stFailed [1]
    else { s with readmitting := s.readmitting ++ [k] }.hold pl (.readmit k)

/-- R329, R442: 10 frames of paces that meet the offset condition are averaged. -/
def portRecal (pl : Place) (v i : List Nat) (s : State) : State :=
  s.runOp pl 0xA2 anyCmd fun c =>
    let p := c.p8 0
    if !liveInOtp s then s.finish pl stLocked []
    else if !s.liveOn || !offsetOk s p || (s.path p).recalPaces != 0 then s.finish pl stState []
    else (s.updPath p (recalBegun v i)).hold pl (.recal p)

def ageingMeasure (pl : Place) (s : State) : State :=
  s.runOp pl 0xA4 anyCmd fun c =>
    let k := c.p8 0
    if !marginInOtp s then s.finish pl stLocked []
    else if !s.marginOn || exclCode s k != 0 then s.finish pl stState []
    else { s with ageQueue := if s.ageQueue.contains k then s.ageQueue else s.ageQueue ++ [k] }.hold pl (.ageing k)

/-! ### Supervisor restart (R329, R330, R443 to R447) -/

/-- The refusals of `SUP_RESTART`, or the restart readied. -/
def readyRestart (s : State) (pl : Place) (romOnly : Bool) : State :=
  if !liveInOtp s then s.finish pl stLocked []
  else if !s.liveOn then s.finish pl stState []
  else if s.burnPending || (s.ridges.any fun q => q.switchPending) then s.finish pl stBusy []
  else { s with sup := { s.sup with st := .readied, romOnly := romOnly, readyFrame := s.frame, replyRead := false } }.ok pl

def supRestartPatch (pl : Place) (s : State) : State := s.runOp pl 0xA3 (fun c => c.p8 0 == 0) fun _ => readyRestart s pl false
def supRestartRom (pl : Place) (s : State) : State := s.runOp pl 0xA3 (fun c => c.p8 0 == 1) fun _ => readyRestart s pl true

/-- R297: a reply was unread or a command in flight. -/
def ChanState.lossy (x : ChanState) : Bool :=
  x.lostReply || x.place0.isSome || x.place12.isSome || x.place3.isSome || (match x.slot with
    | .ready false _ => true
    | _ => false)

/-- A ridge at the supervisor's reset: a pending switch cancelled, its probe gone (R385, R448). -/
def Ridge.atReset (q : Ridge) : Ridge :=
  { q with stagingState := if q.switchPending then 1 else q.stagingState, switchPending := false, probe := none, replanDue := none }

/-- R297, R313, R330, R443, R445: the hold begins at a frame boundary: the supervisor is reset, and the end of a tester session is the first
event of the emptied queue. -/
def supRestartHoldBegin (s : State) : State :=
  if s.locked && s.sup.st == .readied && s.atBoundary && s.retClean && (s.sup.replyRead || s.framesSince s.sup.readyFrame 100) then
    let s := { s with
      events := { lost := true, seq := s.events.seq }
      host := { lostReply := s.host.lossy }, tun := {}
      attn := { s.attn with sampled := 0, sinceSample := 0 }
      otp := { s.otp with staged := [] }
      retiring := [], readmitting := [], ageQueue := [], captures := [], irq := []
      inn := { s.inn with next := none }
      svc := { s.svc with chainNew := [], chainTotal := 0, chainHave := [], initPort := none, patchBuf := [], patchHigh := 0
                          capArmed := none }
      sup := { s.sup with st := .hold, hFrame := s.frame, expired := false, schedDue := false, eng := {} } }
    let s := overN 24 (fun p t => (t.updPath p fun h => { h with recalPaces := 0 }).updPd p fun d => { d with inbox := [] }) s
    ((overN 6 (fun r t => t.updRidge r Ridge.atReset) s).updSeq fun q => { q with sleepAt := none }).sessionEnd 5
  else s

/-- R447: what the supervisor keeps of restore F begins again at zero. -/
def countersAnew (s : State) : State :=
  let s := overN 24 (fun p t => t.updPort p fun q => { q with counters := List.replicate 14 0, path := { q.path with eOut8 := 0, eRet := 0 } }) s
  let s := overN 2 (fun x t => t.updFeed x fun f => { f with eIn := 0 }) s
  let s := overN 6 (fun r t => t.updRidge r fun q => { q with eLoss8 := 0 }) s
  { s with dev := { s.dev with uptime := 0 } }

/-- R445: the retained patch runs with MODE 0, not with MODE 1. -/
def restartPatch (s : State) : State :=
  if s.sup.romOnly then { s with svc := s.svc.noPatch } else s.verifyRetained

/-- R445: R, the boundary at which the restarted supervisor's ledger takes force: the full solve ran in the frame before it. The PPS
and keep-alive timeouts have not counted the hold (R113). -/
def supervisorReturn (s : State) : State :=
  if s.locked && s.sup.st == .hold && s.atBoundary && decide (s.sup.hFrame < s.frame) then
    let s := countersAnew (restartPatch (restoreCairns true s))
    let held := s.frame - s.sup.hFrame
    let s := overN 24 (fun p t => t.updPd p fun d => { d with lastReq := min s.frame (d.lastReq + held), lastMsg := min s.frame (d.lastMsg + held) }) s
    let s := { s with sup := { s.sup with st := .up }, inn := { started := true, feedHist := s.inn.feedHist, outHist := s.inn.outHist } }
    let s := { solveNow { s with frame := s.frame - 1 } with frame := s.frame }
    let s := overN 24 (fun p t => t.updPd p Pd.ledgerTakes) { s with ledger := s.inn.next.getD s.ledger, inn := { s.inn with next := none } }
    let s := placeFrame s
    let s := overN 24 (fun p t =>
      if (t.pd p).hrInHold then (t.updPd p fun d => { d with hrInHold := false }).errorRecovery p 0xB else t) s
    attnFrame s
  else s

/-- R112: every port loses conversion. -/
def dropPort (p : Nat) (s : State) : State :=
  if (s.port p).inService then
    match (s.cc p).st with
    | .disabled => s
    | .outOfService => s
    | .errorRecovery => s.updCc p fun c => { c with toOutOfService := true }
    | _ => s.loseConversion p
  else s

/-- R446: no ledger by H + 500. -/
def holdExpiry (s : State) : State :=
  if s.locked && s.sup.st == .hold && s.framesSince s.sup.hFrame 500 && !s.sup.expired then
    let l := s.ledger
    let s := placeFrame { s with ledger := { l with
      phases := l.phases.map fun x => { x with pair := 0, st := if x.st = 3 then 3 else 0, share := 0, paired := false }
      ports := l.ports.map fun x => { x with nph := 0, pCover := 0, vCover := 0 } } }
    let s := overN 24 dropPort s
    let s := { s with
      svc := { s.svc with patch := [] }.noPatch
      sup := { s.sup with romOnly := true, expired := true } }
    (s.raise .supv 3).markDirty 18
  else s

def execCairnSync (pl : Place) (s : State) : Out := .next (cairnSync pl s)
def execCairnDrop (pl : Place) (s : State) : Out := .next (cairnDrop pl s)
def execCairnWriteBegin (s : State) : Out := .next (cairnWriteBegin s)
def execCairnWriteComplete (s : State) : Out := .next (cairnWriteComplete s)
def execBankCopyComplete (r : Nat) (s : State) : Out := .next (bankCopyComplete r s)
def execProbeRecordComplete (r : Nat) (s : State) : Out := .next (probeRecordComplete r s)
def execMeasurementComplete (r : Nat) (s : State) : Out := .next (measurementComplete r s)
def execReplanApply (r : Nat) (s : State) : Out := .next (replanApply r s)
def execLossFit (s : State) : Out := .next (lossFit s)
def execAgeingMeasureTimeout (r : Nat) (s : State) : Out := .next (ageingMeasureTimeout r s)
def execReadmitTimeout (r : Nat) (s : State) : Out := .next (readmitTimeout r s)
def execPhaseRetire (pl : Place) (s : State) : Out := .next (phaseRetire pl s)
def execPhaseReadmit (pl : Place) (imonMv : Nat) (s : State) : Out := .next (phaseReadmit pl imonMv s)
def execPortRecal (pl : Place) (v i : List Nat) (s : State) : Out := .next (portRecal pl v i s)
def execAgeingMeasure (pl : Place) (s : State) : Out := .next (ageingMeasure pl s)
def execSupRestartPatch (pl : Place) (s : State) : Out := .next (supRestartPatch pl s)
def execSupRestartRom (pl : Place) (s : State) : Out := .next (supRestartRom pl s)
def execSupRestartHoldBegin (s : State) : Out := .next (supRestartHoldBegin s)
def execSupervisorReturn (s : State) : Out := .next (supervisorReturn s)
def execHoldExpiry (s : State) : Out := .next (holdExpiry s)

end Sys2Proof.Machine
end

