-- ==== Sys2Proof/Machine/Schedule.lean ====
section
/-! DEFINITION. The frame's task schedule (R47 step 6, R48 to R50): its start once the class 0 effects of its boundary have acted, the
policy engines' work at that start, and what a suspended engine goes on with. -/

namespace Sys2Proof.Machine

/-- What a policy engine or the VDM handling does with a row that has waited for its task (R50). -/
def policyMeaning (i : Instr) (s : State) : State :=
  match i with
  | .sourceCapSend p goodCrc => sourceCapSend p goodCrc s
  | .collisionWaitExpiry p => collisionWaitExpiry p s
  | .cableDiscoverAttempt p => cableDiscoverAttempt p s
  | .cableIdentityResponse p c => cableIdentityResponse p c s
  | .goodcrcRetryFail p sopPrime => goodcrcRetryFail p sopPrime s
  | .senderResponseTimeout p sopPrime => senderResponseTimeout p sopPrime s
  | .requestReceived p q => requestReceived p q s
  | .transitionStart p => transitionStart p s
  | .transitionSettled p => transitionSettled p s
  | .phasesNotPlacedTimeout p => phasesNotPlacedTimeout p s
  | .ppsTimeout p => ppsTimeout p s
  | .eprModeEnter p => eprModeEnter p s
  | .eprKeepalive p => eprKeepalive p s
  | .eprKeepaliveTimeout p => eprKeepaliveTimeout p s
  | .eprModeExit p => eprModeExit p s
  | .eprPartExit p => eprPartExit p s
  | .eprEnClear p => eprEnClear p s
  | .loweredCapsTimeout p => loweredCapsTimeout p s
  | .getSourceCap p => getSourceCap p s
  | .getSinkCap p => getSinkCap p s
  | .getSourceCapExtended p => getSourceCapExtended p s
  | .getStatus p => getStatus p s
  | .getPpsStatus p => getPpsStatus p s
  | .getSourceInfo p => getSourceInfo p s
  | .getRevision p => getRevision p s
  | .alertReceived p ado => alertReceived p ado s
  | .unsupportedRequest p => unsupportedRequest p s
  | .protocolError p => protocolError p s
  | .softResetTimeout p => softResetTimeout p s
  | .softResetReceived p => softResetReceived p s
  | .sourceCapRepeat p goodCrc => sourceCapRepeat p goodCrc s
  | .hardResetReceived p => hardResetReceived p s
  | .hardResetTakedown p => hardResetTakedown p s
  | .hardResetRecover p => hardResetRecover p s
  | .sinkSourceCapReceived p objs => sinkSourceCapReceived p objs s
  | .sinkAcceptReceived p psRdy => sinkAcceptReceived p psRdy s
  | .sinkVbusCheckTimeout p => sinkVbusCheckTimeout p s
  | .prSwapSend p => prSwapSend p s
  | .prSwapAccept p => prSwapAccept p s
  | .prSwapPsRdy p => prSwapPsRdy p s
  | .prSwapSourceOffTimeout p => prSwapSourceOffTimeout p s
  | .prSwapVbusConfirmTimeout p => prSwapVbusConfirmTimeout p s
  | .prSwapReceived p => prSwapReceived p s
  | .drSwapReceived x => drSwapReceived x.port x.goodCrc s
  | .vconnSwapSend p => vconnSwapSend p s
  | .vconnSwapReceived p => vconnSwapReceived p s
  | .vconnSwapPartnerPsRdy p => vconnSwapPartnerPsRdy p s
  | .vconnSourceTimeout p => vconnSourceTimeout p s
  | .swapResponseTimeout p => swapResponseTimeout p s
  | .swapReplyReceived p r => swapReplyReceived p r s
  | .discoveryStart p => discoveryStart p s
  | .vdmResponse p k v10 vdos => vdmResponse p k v10 vdos s
  | .vdmBusyRetry p => vdmBusyRetry p s
  | .vdmResponseTimeout p => vdmResponseTimeout p s
  | .modeEntryTimeout p => modeEntryTimeout p s
  | .attentionVdmReceived p hdr vdo => attentionVdmReceived p hdr vdo s
  | .unstructuredVdm p => unstructuredVdm p s
  | .vdmRequestAsUfp p v => vdmRequestAsUfp p v s
  | .vdmRequestAsDfp p v => vdmRequestAsDfp p v s
  | .serviceEnterMode p pos => serviceEnterMode p pos s
  | .segPut p g => segPut p g.hdr g.data s
  | .segGet p seq index => segGet p (segGetHeader seq index) s
  | .serviceExitMode p => serviceExitMode p s
  | .securityRequest p q => securityRequest p q s
  | .securityResponse p r => securityResponse p r s
  | .portCloseComplete x => portCloseComplete x.port x.goodCrc s
  | .vconnGood x => vconnGood x.port x.goodCrc s
  | _ => s

/-- R50: an engine goes on with what came to it while its task stood, in the order in which it came. -/
def resumeInbox (p : Nat) (s : State) : State :=
  (s.pd p).inbox.foldl (fun t i => policyMeaning i t) (s.updPd p fun d => { d with inbox := [] })

/-- R49: the policy engines' part of the schedule: offers from the ledger in force, then what has come to each engine. -/
def policyTask (s : State) : State :=
  if s.policyRuns then overN 24 resumeInbox (overN 24 (fun p t => drSwapFrame (prSwapConfirm (offerDerive t p) p) p) s) else s

/-- R47 steps 5 and 6: the class 0 effects of the boundary are in place, what they wrote is taken up, and the schedule starts. -/
def startSchedule (s : State) : State := let t := if s.takeUp then s.takeNow else s
  policyTask { t with sup := { t.sup with schedDue := false } }

/-- The schedule starts at the boundary itself where no class 0 command waits. -/
def scheduleNow (s : State) : State := if s.sup.schedDue && !s.zeroWaits then startSchedule s else s

/-- R51: pace 0 is over: the class 0 commands of the boundary have acted. -/
def scheduleLate (s : State) : State := if s.sup.schedDue && s.atBoundary && !s.paceZero then startSchedule s else s

def execFrameBoundary (s : State) : Out := .next (scheduleNow (frameBoundary s))
def execPaceBoundary (sense : PaceSense) (s : State) : Out := .next (paceBoundary sense (scheduleLate s))

end Sys2Proof.Machine
end

