-- ==== Sys2Proof/Machine/Sequencer.lean ====
section
/-! DEFINITION. Wake sources, the sequence's steps, rail faults, shutdown and the hold-off (R32, R33, R77, R78, R236 to R248). -/

namespace Sys2Proof.Machine

/-! ### Supplies, resets, wakes -/

/-- R236: `IGN` qualifies high after a low. -/
def ignWake (s : State) : State := (s.updSeq fun q => { q with ign := true, ignLowFrom := none }).wake 0

/-- R236, R266: `RESET_N` is high again after a qualifying low; the address balls are sampled. -/
def resetNRelease (addrPins : Nat) (s : State) : State :=
  if s.seq.mode == .unpowered then s
  else
    let s := s.updSeq fun q => { q with resetLow := false }
    { s with bus := { s.bus with addrPins := addrPins % 8 } }.wake 3

/-- R247: `RESET_N` low for 2 µs. -/
def resetNAssert (s : State) : State :=
  if s.seq.mode == .unpowered then s
  else
    let s := s.updSeq fun q => { q with resetLow := true }
    if s.powered || s.seq.mode == .shutdown then (s.raise .seq 4).totalShutOff .rest 640 else s

/-- The always-on domain in its power-on reset, the array as it is burned (R401, R431). -/
def State.aonReset (s : State) : State :=
  let o : Otp := { low := s.otp.low, high := s.otp.high, locks := 0 }
  { State.reset with
    pending := s.pending, freeN := s.freeN, otp := o
    ports := (List.range 24).map fun p => ({} : Port).fresh o p }

/-- R258, R260, R266: what a `VBAT_AON` power-on sets anew while the part goes on: the sequencer and always-on records, the hold latch of
`FAULT_N`, and the address. -/
def State.vbatFresh (s : State) (addrPins : Nat) : State :=
  { s with
    fltSeq := fltFresh .seq, fltAon := fltFresh .aon, faultN := { s.faultN with hold := false }, attn := { s.attn with note := false }
    bus := { s.bus with addrPins := addrPins % 8 } }

/-- `VBAT_AON` comes up while `VBOOT` has supplied the always-on domain: service boot itself goes on (R78); a failure state or an
integrity hold ends in a fresh sequence (R240, R243), at once or after the hold-off that leads there (R246). -/
def State.vbatInBoot (s : State) (ignHigh : Bool) (addrPins : Nat) : State :=
  let s := ((s.updSeq fun q => { q with vbatOk := true, ign := ignHigh }).vbatFresh addrPins).raise .aon 0
  let ends := s.seq.after == .failure || s.seq.after == .integrity
  match s.seq.mode with
  | .seqFailure => s.wake 4
  | .integrityHold => s.wake 4
  | .shutdown => if ignHigh || ends then s.wake 4 else s
  | .shutoff => if ignHigh || ends then s.wake 4 else s
  | .holdoff => if ignHigh || ends then s.wake 4 else s
  | .retention =>
    let s := s.updSeq fun q => { q with boot := false }
    if ignHigh then s.wake 4 else s
  | _ => s

/-- R236, R401, R431: the always-on domain leaves its power-on reset: critical bits sensed, POR, and a wake if `IGN` is high. -/
def vbatAonPowerOn (ignHigh : Bool) (addrPins : Nat) (s : State) : State :=
  if s.seq.vbatOk then s
  else if s.seq.mode != .unpowered then s.vbatInBoot ignHigh addrPins
  else
    let s := s.aonReset
    let s := { s with otp := s.otp.sense s.freeN, freeN := s.freeN + 1024, bus := { s.bus with addrPins := addrPins % 8 } }
    let s := (s.updSeq fun q => { q with mode := .retention, vbatOk := true, ign := ignHigh }).raise .aon 0
    if ignHigh then s.wake 4 else s

/-- R237, R247, R431: `VBAT_AON` falls below its minimum; service boot goes on from `VBOOT`. -/
def vbatAonDrop (s : State) : State :=
  if !s.seq.vbatOk then s
  else if s.seq.boot then s.updSeq fun q => { q with vbatOk := false }
  else s.aonReset

/-- R77, R236: `VBOOT` has stood at or above 4.30 V for 64 ticks (the row is that event; log 47): service boot without `VBAT_AON`, whose
clock has then run those 64 ticks; with it an attach-sniff wake, which starts a sequence from retention and is recorded while one is under
way; ignored while the part runs. -/
def vbootQualify (s : State) : State :=
  let t := s.updSeq fun q => { q with vboot := true }
  match s.seq.mode with
  | .unpowered =>
    let s := s.aonReset
    let s := { s with otp := s.otp.sense s.freeN, freeN := s.freeN + 1024, tick := 64 }
    (s.updSeq fun q => { q with vboot := true }).startBoot 0 true
  | .retention => if s.seq.vbatOk then t.wake 2 else if s.seq.resetLow then t else t.startBoot 0 true
  | .sequencing => t.wake 2
  | .shutdown => if s.seq.vbatOk then t.wake 2 else t
  | .shutoff => if s.seq.vbatOk then t.wake 2 else t
  | .holdoff => if s.seq.vbatOk then t.wake 2 else t
  | _ => s

/-- R78, R249: the supply of service boot is gone with `VBAT_AON` present: retention, with what the always-on domain holds of the sequence. -/
def State.bootLost (s : State) : State :=
  let q := s.seq
  { s.totalShutOff .rest 640 with host := {}, tun := {} }.updSeq fun _ =>
    { mode := .retention, vbatOk := true, step := q.step, retries := q.retries, failStep := q.failStep, lastTso := q.lastTso
      noFall := q.noFall, feedless := q.feedless, wakeCause := q.wakeCause, ign := q.ign, resetLow := q.resetLow }

/-- R78, R246: `VBOOT` below 3.90 V ends service boot; a shutdown or hold-off that `VBAT_AON` carries runs to its end (log 47). -/
def vbootDisqualify (s : State) : State :=
  if s.seq.boot && !s.seq.vbatOk then s.aonReset
  else if s.seq.mode == .serviceBoot then s.bootLost
  else s.updSeq fun q => { q with vboot := false }

/-- The lowest mask port with a source on it (R78). -/
def bootCandidate (s : State) : Option Nat :=
  (List.range 24).find? fun p =>
    (s.otp.lo 64).getLsbD p && decide (4300 ≤ (s.cc p).vbusMv) && ((s.cc p).cc1 == .rp) != ((s.cc p).cc2 == .rp)

/-- R34, R78: the booting port is chosen at frame 0, or at a later frame's check, and its ridge's engine runs the service-boot law. -/
def bootPortSelect (s : State) : State :=
  if s.seq.mode == .serviceBoot && s.locked && s.atBoundary && s.seq.bootPort.isNone then
    match bootCandidate s with
    | none => s
    | some p =>
      (s.updSeq fun q => { q with bootPort := some p }).updRidge (ridgeOfPort p) fun r =>
        { Ridge.start (lawBank 3) 3 (lawId 3) s.frameCount r with run := .running, stagingState := 0 }
  else s

/-! ### Clock and dies -/

/-- R32: the clock monitor. -/
def clockFault (s : State) : State :=
  if s.locked && (s.powered || s.seq.mode == .shutdown) then s.faultShutOff 3 else s

/-- R239, R247: a qualified rail fails two samples. -/
def runningRailFault (s : State) : State := if s.powered then s.faultShutOff 2 else s

/-- R247, R248: the die at 160 °C. -/
def dieHot (s : State) : State :=
  if s.powered || s.seq.mode == .shutdown then (s.raise .seq 6).totalShutOff .restart 32000 else s

/-- R264: the die at 140 °C. -/
def dieWarn (s : State) : State :=
  if s.locked && decide (2240 ≤ s.dev.dieTemp) then { s with dev := { s.dev with dieWarn := true } }.raise .therm 8 else s

/-! ### Step 3 (R240) -/

/-- The PLL and the OTP read belong to step 3. -/
def State.inStep3 (s : State) (sub : Nat) : Bool :=
  (s.seq.mode == .sequencing || s.seq.mode == .serviceBoot) && s.seq.step == 3 && s.seq.sub == sub && !s.seq.complete

/-- R33, R240: lock within 64 ticks; the pace counter starts and the OTP read begins. -/
def pllLock (s : State) : State :=
  if s.inStep3 1 && decide (s.tick ≤ s.seq.subTick + 64) then
    (({ s with locked := true, frame := 0, pace := 0, paceZero := true, paceCount := 0 } : State).handOver).updSeq fun q =>
      { q with sub := 2, subTick := s.tick, ignLowFrom := if q.ign then none else some 0 }
  else s

/-- R240: no lock within 64 ticks. -/
def pllLockTimeout (s : State) : State :=
  if s.inStep3 1 && decide (s.seq.subTick + 64 < s.tick) then s.railFailure 3 else s

/-- R240, R399, R400: the two-margin read ends. -/
def otpReadComplete (s : State) : State :=
  if s.inStep3 2 then
    if s.otp.integrityFails then s.orderedShutdown .integrity
    else
      let s := otpStickies { s with otp := s.otp.takeUp }
      let s := overN 2 (fun x t => t.updFeed x (t.otp.feedItems x)) s
      if s.seq.boot then
        (s.takeCal s.otp.currentGen).updSeq fun q => { q with complete := true, sFrame := s.frame, interpreter := true }
      else s.updSeq fun q => q.enter 4 s.tick s.frame
  else s

/-! ### Steps (R238, R239, R241, R242) -/

/-- Feed items 0x10 to 0x18 come from their cairns when step 6 begins (R424, R429). -/
def takeFeedCairns (s : State) : State :=
  overN 2 (fun x t => t.takeFields (2 + x) (itemsFrom 1 x 0x10 9) 0) s

/-- R215, R241: step 6 enables the feed logic. -/
def beginStep6 (s : State) : State :=
  let s := (takeFeedCairns s).updSeq fun q => { q.enter 6 s.tick s.frame with step6Good := false, step7Frame := none }
  overN 2 (fun x t => (t.updFeed x fun f => { f with armed := true }).feedEnable x) s

/-- R75, R77, R78: whether a port keeps its passive Rd as `VIO` comes up: every mask port in service boot; else the one that an attach-sniff
wake has to take over, which shows the source's Rp. -/
def keepsPassive (s : State) (rp : List Nat) (p : Nat) : Bool := s.seq.boot || s.seq.wakeCause.getLsbD 2 && rp.contains p

/-- A rail of steps 0 to 5 qualifies, and the next step begins. -/
def railQualified (rp : List Nat) (s : State) : State :=
  let next := fun (n : Nat) (t : State) => t.updSeq fun q => q.enter n s.tick s.frame
  match s.seq.step with
  | 0 => next 1 s
  | 1 => next 2 (overN 24 (fun p t => t.updCc p fun c => { c with passiveRd := c.passiveRd && keepsPassive s rp p }) s)
  | 2 => next 3 s
  | 3 => s.updSeq fun q => { q with sub := 1, subTick := s.tick }
  | 4 => next 5 s
  | _ => if s.otp.modes.testBit 2 && s.seq.sub == 0 then s.updSeq fun q => { q with sub := 1, subTick := s.tick } else beginStep6 s

/-- A rail of the present step is being qualified. -/
def State.railStep (s : State) : Bool :=
  (s.seq.mode == .sequencing && decide (s.seq.step ≤ 5) || s.seq.mode == .serviceBoot && !s.seq.complete) &&
    (s.seq.step != 3 || s.seq.sub == 0)

/-- R242: the sequence is complete once every raised ridge has qualified or stopped. -/
def seqComplete (s : State) : State :=
  if (List.range 6).all fun r => !(s.ridge r).stgen || (s.ridge r).stgenQual then
    if s.seq.mode == .sequencing then
      s.updSeq fun q => { q with mode := .running, complete := true, step7 := true, sFrame := s.frame, stepFrame := s.frame }
    else if !s.seq.step7 then s.updSeq fun q => { q with step7 := true, stepFrame := s.frame }
    else s
  else s

/-- R23, R466: `IMON_xx` with the stages off stands in the zero-current window of a fitted stage. -/
def imonFitted (imonMv : List Nat) (k : Nat) : Bool := decide (700 ≤ imonMv.getD k 0)

/-- How many ridges below r are populated: `STGEN_r` rises one ridge a tick (R242). -/
def ridgesBefore (imonMv : List Nat) (r : Nat) : Nat :=
  ((List.range r).filter fun i => (List.range 8).any fun j => imonFitted imonMv (8 * i + j)).length

/-- R25, R26: a port whose first home phase is absent goes out of service; one that an attach-sniff wake has taken over leaves its attach. -/
def portFitting (here : Bool) (p : Nat) (s : State) : State :=
  if here then s.updPort p fun q => { q with inService := true }
  else
    let s := if (s.cc p).st.attached then s.disablePort p 0xA .bringup else s
    (s.updPort p fun q => { q with inService := false }).updCc p fun c =>
      { c with st := .outOfService, passiveRd := false, activeRd := false, takeoverFrame := none }

/-- R23 to R26, R242: the fitting read and the raising of `STGEN_r`, one ridge a tick. -/
def beginStep7 (imonMv : List Nat) (s : State) : State :=
  let s := overN 48 (fun k t => t.updPhase k fun f => { f with fitted := imonFitted imonMv k }) s
  let s := overN 6 (fun r t => t.updRidge r fun q =>
    let up := (List.range 8).any fun j => imonFitted imonMv (8 * r + j)
    { q with run := if up then .running else .depopulated, stgen := up, stgenQual := false, stgenTick := s.tick + ridgesBefore imonMv r }) s
  let s := overN 24 (fun p t => portFitting (imonFitted imonMv (8 * (p / 4) + 2 * (p % 4))) p t) s
  seqComplete (s.updSeq fun q => q.enter 7 s.tick s.frame)

/-- Step 7 is due: a feed gained power-good, in the sequence or after a feedless completion (R241). -/
def State.step7Due (s : State) : Bool :=
  s.seq.step == 6 && (s.seq.mode == .sequencing || s.seq.mode == .running) && s.seq.step6Good &&
    match s.seq.step7Frame with
    | some f => decide (f ≤ s.frame)
    | none => false

/-- A ridge whose `STGEN_r` is raised and not yet qualified. -/
def State.stgenOpen (s : State) (r : Nat) : Bool :=
  decide (r < 6) && s.locked && (s.seq.mode == .sequencing || s.seq.mode == .running) && (s.ridge r).stgen && !(s.ridge r).stgenQual

/-- R239, R242: the third consecutive good sample of the present step's rail, or of ridge r at step 7, within the step's timeout
(in its last tick the sample decides, if it comes first; log 78). -/
def seqStepQualify (m : StepSense) (r : Nat) (s : State) : State :=
  if s.railStep then (if decide (s.seq.subTick + 3 ≤ s.tick) && decide (s.tick ≤ s.seq.subTick + s.otp.seqTmo) then railQualified m.rp s else s)
  else if s.step7Due then beginStep7 m.imonMv s
  else if s.stgenOpen r && decide ((s.ridge r).stgenTick + 3 ≤ s.tick) && decide (s.tick ≤ (s.ridge r).stgenTick + s.otp.seqTmo) then
    seqComplete (s.updRidge r fun q => { q with stgenQual := true })
  else s

/-- R239, R243: a rail not qualified by its timeout. -/
def seqStepTimeout (s : State) : State :=
  if s.railStep && decide (s.seq.subTick + s.otp.seqTmo ≤ s.tick) then s.railFailure s.seq.step else s

/-- R241: step 6 ends without a good feed. -/
def step6FeedlessTimeout (s : State) : State :=
  if s.seq.mode == .sequencing && s.seq.step == 6 && !s.seq.step6Good && s.framesSince s.seq.stepFrame 2000 then
    s.updSeq fun q => { q with mode := .running, complete := true, feedless := true, sFrame := s.frame }
  else s

/-- R242: a ridge that has not qualified at step 7 is stopped. -/
def stgenRidgeTimeout (r : Nat) (s : State) : State :=
  if s.stgenOpen r && decide ((s.ridge r).stgenTick + s.otp.seqTmo ≤ s.tick) then
    seqComplete ((s.updRidge r fun q => { q with stgen := false }).stopRidge r 5)
  else s

/-! ### Shutdown and shut-off (R244 to R248) -/

/-- The hold-off begins (R246). -/
def State.holdOff (s : State) : State := s.updSeq fun q => { q with mode := .holdoff, holdEnd := s.tick + q.holdLen }

/-- The step being undone is off: the next one down, or the hold-off. -/
def State.downNext (s : State) : State :=
  let q := s.seq
  if q.downStep = 5 && q.sub = 1 then s.updSeq fun q => { q with sub := 0, downTick := s.tick }
  else if q.downStep = 0 || (q.boot && decide (q.downStep ≤ 1)) then s.holdOff
  else s.downTo (q.downStep - 1)

/-- R245, R428, R430: step 7 is off in the tick after its actions, and waits for the cairn writes. -/
def step7Off (s : State) : Bool := decide (s.seq.downTick < s.tick) && (s.retClean || !s.locked || decide (s.seq.milestone < 3))

/-- R245: the rail of the step being undone meets its off condition. -/
def shutdownStepOff (s : State) : State :=
  if s.seq.mode == .shutdown && (s.seq.downStep != 7 || step7Off s) then s.downNext else s

/-- R245: a rail has not fallen within 640 ticks. -/
def shutdownNofallTimeout (s : State) : State :=
  if s.seq.mode == .shutdown && s.seq.downStep != 7 && decide (s.seq.downTick + 640 ≤ s.tick) then
    ((s.raise .seq 5).updSeq fun q => { q with noFall := true }).downNext
  else s

/-- R248: after a total shut-off every rail is off, or 640 ticks have passed. -/
def shutoffRailWaitEnd (railsOff : Bool) (s : State) : State :=
  if s.seq.mode == .shutoff && (railsOff || decide (s.seq.tsoTick + 640 ≤ s.tick)) then s.holdOff else s

/-- The part rests: in retention, or in service boot's supply, where `VBOOT` starts it again. -/
def State.rest (s : State) : State :=
  if s.seq.boot && !s.seq.vbatOk then s.startBoot 0 true else s.updSeq fun q => { q with mode := .retention, boot := false }

/-- A start at the end of the hold-off; none while `RESET_N` stays low, whose release is a wake of its own (R248). -/
def State.startOrWait (s : State) (causes : Nat) (fresh : Bool) : State :=
  if s.seq.resetLow then s.updSeq fun q => { q with mode := .retention, boot := q.boot && !q.vbatOk } else s.startAgain causes fresh

/-- The part enters sequencing failure or integrity hold, with the wake conditions that the hold-off noted recorded (R236). -/
def Seq.fails (q : Seq) (mode : SeqMode) : Seq := { q with mode := mode, wakeCause := q.wakeCause ||| q.wakeNoted }

/-- R246: the hold-off ends. -/
def holdoffEnd (s : State) : State :=
  if s.seq.mode == .holdoff && decide (s.seq.holdEnd ≤ s.tick) then
    let w := s.seq.wakeNoted
    let n := w.toNat
    match s.seq.after with
    | .failure => if w &&& endsFailure != 0 then s.startOrWait n true else (s.updSeq fun q => q.fails .seqFailure).raise .seq 1
    | .integrity => if w &&& endsIntegrity != 0 then s.startOrWait n true else s.updSeq fun q => q.fails .integrityHold
    | .retry => s.startOrWait (n ||| 0x20) false
    | .restart => s.startOrWait (n ||| 0x20) true
    | .rest => if s.seq.resetLow || n != 0 then s.startOrWait n true else s.rest
  else s

/-! ### IGN (R244, R262, R316) -/

/-- R262, R316: `IGN` rises or falls; a rise cancels a pending sleep. -/
def ignChange (high : Bool) (s : State) : State :=
  if s.seq.mode == .unpowered then s
  else
    let changed := s.seq.ign != high
    let s := s.updSeq fun q =>
      { q with ign := high, ignLowFrom := if high then none else some s.frame, sleepAt := if high then none else q.sleepAt }
    if changed && s.seq.mode == .running then s.pushEvent 0x30 0 [byteOf (b1 high)] else s

/-- R237, R244: `IGN` has been low for `IGN_OFF_DLY` frames, in the running part or in service boot. -/
def ignOffDelayExpiry (s : State) : State :=
  if (s.seq.mode == .running || s.seq.mode == .serviceBoot && s.seq.complete) && decide (s.inf 0 0 0x38 = 1) && s.ran s.seq.ignLowFrom (s.inf 0 0 0x39) then s.orderedShutdown .rest else s

/-- R457: the always-on domain opens a detach discharge after 6,400 ticks. -/
def aonDischargeTimeout (p : Nat) (s : State) : State :=
  if decide (p < 24) && !s.locked && (s.cc p).disch && decide ((s.cc p).dischTick + 6400 ≤ s.tick) then
    s.updCc p fun c => { c with disch := false }
  else s

def execIgnWake (s : State) : Out := .next (ignWake s)
def execResetNRelease (addrPins : Nat) (s : State) : Out := .next (resetNRelease addrPins s)
def execResetNAssert (s : State) : Out := .next (resetNAssert s)
def execVbatAonPowerOn (ignHigh : Bool) (addrPins : Nat) (s : State) : Out := .next (vbatAonPowerOn ignHigh addrPins s)
def execVbatAonDrop (s : State) : Out := .next (vbatAonDrop s)
def execVbootQualify (s : State) : Out := .next (vbootQualify s)
def execVbootDisqualify (s : State) : Out := .next (vbootDisqualify s)
def execBootPortSelect (s : State) : Out := .next (bootPortSelect s)
def execClockFault (s : State) : Out := .next (clockFault s)
def execPllLock (s : State) : Out := .next (pllLock s)
def execPllLockTimeout (s : State) : Out := .next (pllLockTimeout s)
def execSeqStepQualify (m : StepSense) (r : Nat) (s : State) : Out := .next (seqStepQualify m r s)
def execSeqStepTimeout (s : State) : Out := .next (seqStepTimeout s)
def execOtpReadComplete (s : State) : Out := .next (otpReadComplete s)
def execStep6FeedlessTimeout (s : State) : Out := .next (step6FeedlessTimeout s)
def execStgenRidgeTimeout (r : Nat) (s : State) : Out := .next (stgenRidgeTimeout r s)
def execRunningRailFault (s : State) : Out := .next (runningRailFault s)
def execDieHot (s : State) : Out := .next (dieHot s)
def execDieWarn (s : State) : Out := .next (dieWarn s)
def execShutoffRailWaitEnd (railsOff : Bool) (s : State) : Out := .next (shutoffRailWaitEnd railsOff s)
def execShutdownStepOff (s : State) : Out := .next (shutdownStepOff s)
def execShutdownNofallTimeout (s : State) : Out := .next (shutdownNofallTimeout s)
def execHoldoffEnd (s : State) : Out := .next (holdoffEnd s)
def execIgnChange (high : Bool) (s : State) : Out := .next (ignChange high s)
def execIgnOffDelayExpiry (s : State) : Out := .next (ignOffDelayExpiry s)
def execAonDischargeTimeout (p : Nat) (s : State) : Out := .next (aonDischargeTimeout p s)

end Sys2Proof.Machine
end

