-- ==== Sys2Proof/Machine/Dispatch.lean ====
section
/-! DEFINITION. The meaning of every command: one arm per constructor, one call of one meaning. -/

namespace Sys2Proof.Machine

def exec (i : Instr) (s : State) : Host.Outcome State Fault Refusal :=
  match i with
  | .cmdPut count data pec => Sys2Proof.Machine.execCmdPut count data pec s
  | .commandAccept ch => Sys2Proof.Machine.execCommandAccept ch s
  | .resGet clocked withPec => Sys2Proof.Machine.execResGet clocked withPec s
  | .busStatus => Sys2Proof.Machine.execBusStatus s
  | .attnAck mask pec => Sys2Proof.Machine.execAttnAck mask pec s
  | .addressMatchWake addr => Sys2Proof.Machine.execAddressMatchWake addr s
  | .busSclTimeout => Sys2Proof.Machine.execBusSclTimeout s
  | .busEdgeTimeout => Sys2Proof.Machine.execBusEdgeTimeout s
  | .stuckRelease => Sys2Proof.Machine.execStuckRelease s
  | .busIdleDetect => Sys2Proof.Machine.execBusIdleDetect s
  | .attentionWrite o => Sys2Proof.Machine.execAttentionWrite o s
  | .attentionBackoffExpiry o => Sys2Proof.Machine.execAttentionBackoffExpiry o s
  | .identify pl => Sys2Proof.Machine.execIdentify pl s
  | .echo pl => Sys2Proof.Machine.execEcho pl s
  | .getParam pl => Sys2Proof.Machine.execGetParam pl s
  | .setParam pl => Sys2Proof.Machine.execSetParam pl s
  | .paramTakeEffect => Sys2Proof.Machine.execParamTakeEffect s
  | .attachModeChange p => Sys2Proof.Machine.execAttachModeChange p s
  | .testerPolicyZero => Sys2Proof.Machine.execTesterPolicyZero s
  | .eprEnClear p => Sys2Proof.Machine.execEprEnClear p s
  | .portErrorRecovery pl => Sys2Proof.Machine.execPortErrorRecovery pl s
  | .portCableDiscover pl => Sys2Proof.Machine.execPortCableDiscover pl s
  | .portRediscover pl => Sys2Proof.Machine.execPortRediscover pl s
  | .portDrSwap pl => Sys2Proof.Machine.execPortDrSwap pl s
  | .modeEnter pl => Sys2Proof.Machine.execModeEnter pl s
  | .modeExit pl => Sys2Proof.Machine.execModeExit pl s
  | .vdmSend pl => Sys2Proof.Machine.execVdmSend pl s
  | .discRead pl => Sys2Proof.Machine.execDiscRead pl s
  | .modeTableRead pl => Sys2Proof.Machine.execModeTableRead pl s
  | .modeTableWrite pl => Sys2Proof.Machine.execModeTableWrite pl s
  | .eventRead pl => Sys2Proof.Machine.execEventRead pl s
  | .ledgerRead pl => Sys2Proof.Machine.execLedgerRead pl s
  | .sleep pl => Sys2Proof.Machine.execSleep pl s
  | .sleepDelayExpiry => Sys2Proof.Machine.execSleepDelayExpiry s
  | .faultClear pl => Sys2Proof.Machine.execFaultClear pl s
  | .faultPinRelease pl => Sys2Proof.Machine.execFaultPinRelease pl s
  | .faultPinHold pl => Sys2Proof.Machine.execFaultPinHold pl s
  | .faultRead pl => Sys2Proof.Machine.execFaultRead pl s
  | .otpRead pl => Sys2Proof.Machine.execOtpRead pl s
  | .otpBurn pl r => Sys2Proof.Machine.execOtpBurn pl r s
  | .finalise pl r => Sys2Proof.Machine.execFinalise pl r s
  | .calCapture pl load => Sys2Proof.Machine.execCalCapture pl load s
  | .calBurn pl r => Sys2Proof.Machine.execCalBurn pl r s
  | .calRead pl => Sys2Proof.Machine.execCalRead pl s
  | .cairnSync pl => Sys2Proof.Machine.execCairnSync pl s
  | .cairnDrop pl => Sys2Proof.Machine.execCairnDrop pl s
  | .progLoad pl => Sys2Proof.Machine.execProgLoad pl s
  | .progRead pl => Sys2Proof.Machine.execProgRead pl s
  | .ucodeLoad pl => Sys2Proof.Machine.execUcodeLoad pl s
  | .progSwitchStaging pl => Sys2Proof.Machine.execProgSwitchStaging pl s
  | .progSwitchRomLaw pl => Sys2Proof.Machine.execProgSwitchRomLaw pl s
  | .bankSwitch r => Sys2Proof.Machine.execBankSwitch r s
  | .patchLoad pl => Sys2Proof.Machine.execPatchLoad pl s
  | .patchVerify pl => Sys2Proof.Machine.execPatchVerify pl s
  | .patchDrop pl => Sys2Proof.Machine.execPatchDrop pl s
  | .phaseRetire pl => Sys2Proof.Machine.execPhaseRetire pl s
  | .phaseReadmit pl imonMv => Sys2Proof.Machine.execPhaseReadmit pl imonMv s
  | .portRecal pl v n => Sys2Proof.Machine.execPortRecal pl v n s
  | .supRestartPatch pl => Sys2Proof.Machine.execSupRestartPatch pl s
  | .supRestartRom pl => Sys2Proof.Machine.execSupRestartRom pl s
  | .ageingMeasure pl => Sys2Proof.Machine.execAgeingMeasure pl s
  | .authKeygen pl r => Sys2Proof.Machine.execAuthKeygen pl r s
  | .authPubkey pl => Sys2Proof.Machine.execAuthPubkey pl s
  | .authChainLoad pl => Sys2Proof.Machine.execAuthChainLoad pl s
  | .authInitiate pl => Sys2Proof.Machine.execAuthInitiate pl s
  | .authPeerRead pl => Sys2Proof.Machine.execAuthPeerRead pl s
  | .diagCapture pl => Sys2Proof.Machine.execDiagCapture pl s
  | .diagCaptureTrigger => Sys2Proof.Machine.execDiagCaptureTrigger s
  | .diagCaptureTimeout => Sys2Proof.Machine.execDiagCaptureTimeout s
  | .diagDump pl => Sys2Proof.Machine.execDiagDump pl s
  | .paceBoundary sense => Sys2Proof.Machine.execPaceBoundary sense s
  | .carrierStart k => Sys2Proof.Machine.execCarrierStart k s
  | .ridgeProgramStart r => Sys2Proof.Machine.execRidgeProgramStart r s
  | .pwmPub a => Sys2Proof.Machine.execPwmPub a s
  | .paceOverrun r => Sys2Proof.Machine.execPaceOverrun r s
  | .frameBoundary => Sys2Proof.Machine.execFrameBoundary s
  | .taskCapReached t => Sys2Proof.Machine.execTaskCapReached t s
  | .innkeeperSolveComplete => Sys2Proof.Machine.execInnkeeperSolveComplete s
  | .degradedEnd => Sys2Proof.Machine.execDegradedEnd s
  | .dipHoldEnd => Sys2Proof.Machine.execDipHoldEnd s
  | .dipExit => Sys2Proof.Machine.execDipExit s
  | .feedlessExpiry => Sys2Proof.Machine.execFeedlessExpiry s
  | .shedBackstop p => Sys2Proof.Machine.execShedBackstop p s
  | .overdrawTypecEnd p => Sys2Proof.Machine.execOverdrawTypecEnd p s
  | .clockFault => Sys2Proof.Machine.execClockFault s
  | .pllLock => Sys2Proof.Machine.execPllLock s
  | .pllLockTimeout => Sys2Proof.Machine.execPllLockTimeout s
  | .ccSniff p seen => Sys2Proof.Machine.execCcSniff p seen s
  | .toggleSourceEnd p => Sys2Proof.Machine.execToggleSourceEnd p s
  | .toggleSinkEnd p => Sys2Proof.Machine.execToggleSinkEnd p s
  | .attachDebounceSrc p => Sys2Proof.Machine.execAttachDebounceSrc p s
  | .attachDebounceSnk p => Sys2Proof.Machine.execAttachDebounceSnk p s
  | .attachwaitTimeout p => Sys2Proof.Machine.execAttachwaitTimeout p s
  | .unexpectedVbus p => Sys2Proof.Machine.execUnexpectedVbus p s
  | .portSwitchClose p => Sys2Proof.Machine.execPortSwitchClose p s
  | .vbusStartCheck p => Sys2Proof.Machine.execVbusStartCheck p s
  | .errorRecoveryEnd p => Sys2Proof.Machine.execErrorRecoveryEnd p s
  | .sinkVbusLoss p => Sys2Proof.Machine.execSinkVbusLoss p s
  | .detachByDebounce p => Sys2Proof.Machine.execDetachByDebounce p s
  | .detachByCurrent p => Sys2Proof.Machine.execDetachByCurrent p s
  | .detachSwitchOpen p => Sys2Proof.Machine.execDetachSwitchOpen p s
  | .vbusDischargeComplete p => Sys2Proof.Machine.execVbusDischargeComplete p s
  | .vbusDischargeTimeout p => Sys2Proof.Machine.execVbusDischargeTimeout p s
  | .vconnGood x => Sys2Proof.Machine.execVconnGood x s
  | .vconnFaultTimerTrip p => Sys2Proof.Machine.execVconnFaultTimerTrip p s
  | .vconnHardTrip p => Sys2Proof.Machine.execVconnHardTrip p s
  | .vconnReverseBlock p => Sys2Proof.Machine.execVconnReverseBlock p s
  | .vconnSupplyLoss p => Sys2Proof.Machine.execVconnSupplyLoss p s
  | .vconnDischargeEnd p => Sys2Proof.Machine.execVconnDischargeEnd p s
  | .vbootQualify => Sys2Proof.Machine.execVbootQualify s
  | .vbootDisqualify => Sys2Proof.Machine.execVbootDisqualify s
  | .bootPortSelect => Sys2Proof.Machine.execBootPortSelect s
  | .passiveRdTakeover p => Sys2Proof.Machine.execPassiveRdTakeover p s
  | .sourceCapSend p goodCrc => Sys2Proof.Machine.execSourceCapSend p goodCrc s
  | .collisionWaitExpiry p => Sys2Proof.Machine.execCollisionWaitExpiry p s
  | .cableDiscoverAttempt p => Sys2Proof.Machine.execCableDiscoverAttempt p s
  | .cableIdentityResponse p c => Sys2Proof.Machine.execCableIdentityResponse p c s
  | .goodcrcRetryFail p sopPrime => Sys2Proof.Machine.execGoodcrcRetryFail p sopPrime s
  | .senderResponseTimeout p sopPrime => Sys2Proof.Machine.execSenderResponseTimeout p sopPrime s
  | .requestReceived p q => Sys2Proof.Machine.execRequestReceived p q s
  | .transitionStart p => Sys2Proof.Machine.execTransitionStart p s
  | .transitionSettled p => Sys2Proof.Machine.execTransitionSettled p s
  | .phasesNotPlacedTimeout p => Sys2Proof.Machine.execPhasesNotPlacedTimeout p s
  | .ppsTimeout p => Sys2Proof.Machine.execPpsTimeout p s
  | .eprModeEnter p => Sys2Proof.Machine.execEprModeEnter p s
  | .eprKeepalive p => Sys2Proof.Machine.execEprKeepalive p s
  | .eprKeepaliveTimeout p => Sys2Proof.Machine.execEprKeepaliveTimeout p s
  | .eprModeExit p => Sys2Proof.Machine.execEprModeExit p s
  | .eprPartExit p => Sys2Proof.Machine.execEprPartExit p s
  | .loweredCapsTimeout p => Sys2Proof.Machine.execLoweredCapsTimeout p s
  | .getSourceCap p => Sys2Proof.Machine.execGetSourceCap p s
  | .getSinkCap p => Sys2Proof.Machine.execGetSinkCap p s
  | .getSourceCapExtended p => Sys2Proof.Machine.execGetSourceCapExtended p s
  | .getStatus p => Sys2Proof.Machine.execGetStatus p s
  | .getPpsStatus p => Sys2Proof.Machine.execGetPpsStatus p s
  | .getSourceInfo p => Sys2Proof.Machine.execGetSourceInfo p s
  | .getRevision p => Sys2Proof.Machine.execGetRevision p s
  | .alertReceived p ado => Sys2Proof.Machine.execAlertReceived p ado s
  | .unsupportedRequest p => Sys2Proof.Machine.execUnsupportedRequest p s
  | .protocolError p => Sys2Proof.Machine.execProtocolError p s
  | .softResetTimeout p => Sys2Proof.Machine.execSoftResetTimeout p s
  | .sourceCapRepeat p goodCrc => Sys2Proof.Machine.execSourceCapRepeat p goodCrc s
  | .hardResetReceived p => Sys2Proof.Machine.execHardResetReceived p s
  | .hardResetTakedown p => Sys2Proof.Machine.execHardResetTakedown p s
  | .hardResetRecover p => Sys2Proof.Machine.execHardResetRecover p s
  | .lossOfConversion p => Sys2Proof.Machine.execLossOfConversion p s
  | .outOfServiceReturn p => Sys2Proof.Machine.execOutOfServiceReturn p s
  | .holdMessageAnswer p keepAlive => Sys2Proof.Machine.execHoldMessageAnswer p keepAlive s
  | .holdHardReset p => Sys2Proof.Machine.execHoldHardReset p s
  | .sinkSourceCapReceived p objs => Sys2Proof.Machine.execSinkSourceCapReceived p objs s
  | .sinkVbusCheckTimeout p => Sys2Proof.Machine.execSinkVbusCheckTimeout p s
  | .prSwapSend p => Sys2Proof.Machine.execPrSwapSend p s
  | .prSwapAccept p => Sys2Proof.Machine.execPrSwapAccept p s
  | .prSwapPsRdy p => Sys2Proof.Machine.execPrSwapPsRdy p s
  | .prSwapSourceOffTimeout p => Sys2Proof.Machine.execPrSwapSourceOffTimeout p s
  | .swapResponseTimeout p => Sys2Proof.Machine.execSwapResponseTimeout p s
  | .prSwapReceived p => Sys2Proof.Machine.execPrSwapReceived p s
  | .drSwapReceived x => Sys2Proof.Machine.execDrSwapReceived x s
  | .vconnSwapSend p => Sys2Proof.Machine.execVconnSwapSend p s
  | .vconnSwapReceived p => Sys2Proof.Machine.execVconnSwapReceived p s
  | .vconnSwapPartnerPsRdy p => Sys2Proof.Machine.execVconnSwapPartnerPsRdy p s
  | .vconnSourceTimeout p => Sys2Proof.Machine.execVconnSourceTimeout p s
  | .swapSuppressionEnd p kd => Sys2Proof.Machine.execSwapSuppressionEnd p kd s
  | .sinkVbusRestoreTimeout p => Sys2Proof.Machine.execSinkVbusRestoreTimeout p s
  | .discoveryStart p => Sys2Proof.Machine.execDiscoveryStart p s
  | .vdmResponse p k v10 vdos => Sys2Proof.Machine.execVdmResponse p k v10 vdos s
  | .vdmBusyRetry p => Sys2Proof.Machine.execVdmBusyRetry p s
  | .vdmResponseTimeout p => Sys2Proof.Machine.execVdmResponseTimeout p s
  | .modeEntryTimeout p => Sys2Proof.Machine.execModeEntryTimeout p s
  | .attentionVdmReceived p hdr vdo => Sys2Proof.Machine.execAttentionVdmReceived p hdr vdo s
  | .unstructuredVdm p => Sys2Proof.Machine.execUnstructuredVdm p s
  | .vdmRequestAsUfp p v => Sys2Proof.Machine.execVdmRequestAsUfp p v s
  | .vdmRequestAsDfp p v => Sys2Proof.Machine.execVdmRequestAsDfp p v s
  | .serviceEnterMode p pos => Sys2Proof.Machine.execServiceEnterMode p pos s
  | .segPut p g => Sys2Proof.Machine.execSegPut p g s
  | .segGet p seq index => Sys2Proof.Machine.execSegGet p seq index s
  | .hello p => Sys2Proof.Machine.execHello p s
  | .tAuth p => Sys2Proof.Machine.execTAuth p s
  | .pAuthReady => Sys2Proof.Machine.execPAuthReady s
  | .tunnelCmd p => Sys2Proof.Machine.execTunnelCmd p s
  | .sessionIdleTimeout => Sys2Proof.Machine.execSessionIdleTimeout s
  | .serviceExitMode p => Sys2Proof.Machine.execServiceExitMode p s
  | .authFailureDelayEnd => Sys2Proof.Machine.execAuthFailureDelayEnd s
  | .securityRequest p q => Sys2Proof.Machine.execSecurityRequest p q s
  | .guardDrainZero k => Sys2Proof.Machine.execGuardDrainZero k s
  | .guardDrainTimeout k => Sys2Proof.Machine.execGuardDrainTimeout k s
  | .guardZeroCountDone k => Sys2Proof.Machine.execGuardZeroCountDone k s
  | .guardCountTimeout k => Sys2Proof.Machine.execGuardCountTimeout k s
  | .guardBreakDone k => Sys2Proof.Machine.execGuardBreakDone k s
  | .guardPrebiasTimeout k => Sys2Proof.Machine.execGuardPrebiasTimeout k s
  | .peakValleyLimit x => Sys2Proof.Machine.execPeakValleyLimit x s
  | .pklimStop k => Sys2Proof.Machine.execPklimStop k s
  | .phaseAbsentRun k => Sys2Proof.Machine.execPhaseAbsentRun k s
  | .stageFault r => Sys2Proof.Machine.execStageFault r s
  | .phaseInvStop k => Sys2Proof.Machine.execPhaseInvStop k s
  | .ridgeHot r => Sys2Proof.Machine.execRidgeHot r s
  | .portCloseComplete x => Sys2Proof.Machine.execPortCloseComplete x s
  | .portCloseTimeout p => Sys2Proof.Machine.execPortCloseTimeout p s
  | .portFaultTimerTrip p => Sys2Proof.Machine.execPortFaultTimerTrip p s
  | .portFaultTimerReset p => Sys2Proof.Machine.execPortFaultTimerReset p s
  | .portFastTrip x => Sys2Proof.Machine.execPortFastTrip x s
  | .portReverseBlock x => Sys2Proof.Machine.execPortReverseBlock x s
  | .portOvervoltage p => Sys2Proof.Machine.execPortOvervoltage p s
  | .portTripCountClear p => Sys2Proof.Machine.execPortTripCountClear p s
  | .feedQualifyComplete x => Sys2Proof.Machine.execFeedQualifyComplete x s
  | .feedWindowLoss x => Sys2Proof.Machine.execFeedWindowLoss x s
  | .feedRampTurnTake x => Sys2Proof.Machine.execFeedRampTurnTake x s
  | .feedFullyOn m => Sys2Proof.Machine.execFeedFullyOn m s
  | .feedRampTimeout x => Sys2Proof.Machine.execFeedRampTimeout x s
  | .feedFastTrip l => Sys2Proof.Machine.execFeedFastTrip l s
  | .feedFaultTimerTrip x => Sys2Proof.Machine.execFeedFaultTimerTrip x s
  | .feedFaultTimerReset x => Sys2Proof.Machine.execFeedFaultTimerReset x s
  | .feedOvTurnoff l => Sys2Proof.Machine.execFeedOvTurnoff l s
  | .feedUvRun x => Sys2Proof.Machine.execFeedUvRun x s
  | .feedHoldoffReturn x => Sys2Proof.Machine.execFeedHoldoffReturn x s
  | .feedRetryDelayEnd x => Sys2Proof.Machine.execFeedRetryDelayEnd x s
  | .feedReverseTurnoff d => Sys2Proof.Machine.execFeedReverseTurnoff d s
  | .feedOdgTurnOn x => Sys2Proof.Machine.execFeedOdgTurnOn x s
  | .feedIdealDiodeFault x => Sys2Proof.Machine.execFeedIdealDiodeFault x s
  | .feedTripCountClear x => Sys2Proof.Machine.execFeedTripCountClear x s
  | .ignWake => Sys2Proof.Machine.execIgnWake s
  | .resetNRelease addrPins => Sys2Proof.Machine.execResetNRelease addrPins s
  | .resetNAssert => Sys2Proof.Machine.execResetNAssert s
  | .vbatAonPowerOn ignHigh addrPins => Sys2Proof.Machine.execVbatAonPowerOn ignHigh addrPins s
  | .vbatAonDrop => Sys2Proof.Machine.execVbatAonDrop s
  | .seqStepQualify m r => Sys2Proof.Machine.execSeqStepQualify m r s
  | .seqStepTimeout => Sys2Proof.Machine.execSeqStepTimeout s
  | .otpReadComplete => Sys2Proof.Machine.execOtpReadComplete s
  | .step6FeedlessTimeout => Sys2Proof.Machine.execStep6FeedlessTimeout s
  | .stgenRidgeTimeout r => Sys2Proof.Machine.execStgenRidgeTimeout r s
  | .runningRailFault => Sys2Proof.Machine.execRunningRailFault s
  | .dieHot => Sys2Proof.Machine.execDieHot s
  | .dieWarn => Sys2Proof.Machine.execDieWarn s
  | .shutoffRailWaitEnd railsOff => Sys2Proof.Machine.execShutoffRailWaitEnd railsOff s
  | .shutdownStepOff => Sys2Proof.Machine.execShutdownStepOff s
  | .shutdownNofallTimeout => Sys2Proof.Machine.execShutdownNofallTimeout s
  | .holdoffEnd => Sys2Proof.Machine.execHoldoffEnd s
  | .ignChange high => Sys2Proof.Machine.execIgnChange high s
  | .ignOffDelayExpiry => Sys2Proof.Machine.execIgnOffDelayExpiry s
  | .calibrationTakeup => Sys2Proof.Machine.execCalibrationTakeup s
  | .reducedServiceStart => Sys2Proof.Machine.execReducedServiceStart s
  | .cairnRestore => Sys2Proof.Machine.execCairnRestore s
  | .patchVerification => Sys2Proof.Machine.execPatchVerification s
  | .ridgeBankLoad => Sys2Proof.Machine.execRidgeBankLoad s
  | .endOfBringup => Sys2Proof.Machine.execEndOfBringup s
  | .faultNPulseEnd => Sys2Proof.Machine.execFaultNPulseEnd s
  | .cairnWriteBegin => Sys2Proof.Machine.execCairnWriteBegin s
  | .cairnWriteComplete => Sys2Proof.Machine.execCairnWriteComplete s
  | .bankCopyComplete r => Sys2Proof.Machine.execBankCopyComplete r s
  | .probeRecordComplete r => Sys2Proof.Machine.execProbeRecordComplete r s
  | .measurementComplete r => Sys2Proof.Machine.execMeasurementComplete r s
  | .replanApply r => Sys2Proof.Machine.execReplanApply r s
  | .lossFit => Sys2Proof.Machine.execLossFit s
  | .ageingMeasureTimeout r => Sys2Proof.Machine.execAgeingMeasureTimeout r s
  | .readmitTimeout r => Sys2Proof.Machine.execReadmitTimeout r s
  | .supRestartHoldBegin => Sys2Proof.Machine.execSupRestartHoldBegin s
  | .supervisorReturn => Sys2Proof.Machine.execSupervisorReturn s
  | .holdExpiry => Sys2Proof.Machine.execHoldExpiry s
  | .interruptTaken vector => Sys2Proof.Machine.execInterruptTaken vector s
  | .irqRet a => Sys2Proof.Machine.execIrqRet a s
  | .move a dst => Sys2Proof.Machine.execMove a dst s
  | .memRead a u dst => Sys2Proof.Machine.execMemRead a u dst s
  | .memWrite a u => Sys2Proof.Machine.execMemWrite a u s
  | .aluPass a => Sys2Proof.Machine.execAluPass a s
  | .aluAdd a => Sys2Proof.Machine.execAluAdd a s
  | .aluSub a => Sys2Proof.Machine.execAluSub a s
  | .aluAdds a => Sys2Proof.Machine.execAluAdds a s
  | .aluSubs a => Sys2Proof.Machine.execAluSubs a s
  | .aluAnd a => Sys2Proof.Machine.execAluAnd a s
  | .aluOr a => Sys2Proof.Machine.execAluOr a s
  | .aluXor a => Sys2Proof.Machine.execAluXor a s
  | .aluShl a => Sys2Proof.Machine.execAluShl a s
  | .aluSar a => Sys2Proof.Machine.execAluSar a s
  | .aluShr a => Sys2Proof.Machine.execAluShr a s
  | .aluMin a => Sys2Proof.Machine.execAluMin a s
  | .aluMax a => Sys2Proof.Machine.execAluMax a s
  | .aluAbs a => Sys2Proof.Machine.execAluAbs a s
  | .aluNeg a => Sys2Proof.Machine.execAluNeg a s
  | .cmpLt a => Sys2Proof.Machine.execCmpLt a s
  | .cmpLe a => Sys2Proof.Machine.execCmpLe a s
  | .cmpEq a => Sys2Proof.Machine.execCmpEq a s
  | .cmpNe a => Sys2Proof.Machine.execCmpNe a s
  | .cmpGe a => Sys2Proof.Machine.execCmpGe a s
  | .cmpGt a => Sys2Proof.Machine.execCmpGt a s
  | .cmpLtu a => Sys2Proof.Machine.execCmpLtu a s
  | .cmpGeu a => Sys2Proof.Machine.execCmpGeu a s
  | .cmpTst a => Sys2Proof.Machine.execCmpTst a s
  | .cmpPset a => Sys2Proof.Machine.execCmpPset a s
  | .macMul a => Sys2Proof.Machine.execMacMul a s
  | .macMac a => Sys2Proof.Machine.execMacMac a s
  | .macMsu a => Sys2Proof.Machine.execMacMsu a s
  | .macDmac a => Sys2Proof.Machine.execMacDmac a s
  | .macLd a => Sys2Proof.Machine.execMacLd a s
  | .macClr a => Sys2Proof.Machine.execMacClr a s
  | .macMode a => Sys2Proof.Machine.execMacMode a s
  | .macTriggerComplete e => Sys2Proof.Machine.execMacTriggerComplete e s
  | .lpRep a => Sys2Proof.Machine.execLpRep a s
  | .lpRepH a => Sys2Proof.Machine.execLpRepH a s
  | .repeatEnd e => Sys2Proof.Machine.execRepeatEnd e s
  | .pcJmp a => Sys2Proof.Machine.execPcJmp a s
  | .pcCall a => Sys2Proof.Machine.execPcCall a s
  | .pcRet a => Sys2Proof.Machine.execPcRet a s
  | .pwmDutyWrite a k => Sys2Proof.Machine.execPwmDutyWrite a k s
  | .steerReq a => Sys2Proof.Machine.execSteerReq a s
  | .cstTrigger a n => Sys2Proof.Machine.execCstTrigger a n s
  | .swapReplyReceived p r => Sys2Proof.Machine.execSwapReplyReceived p r s
  | .softResetReceived p => Sys2Proof.Machine.execSoftResetReceived p s
  | .sinkAcceptReceived p psRdy => Sys2Proof.Machine.execSinkAcceptReceived p psRdy s
  | .securityResponse p r => Sys2Proof.Machine.execSecurityResponse p r s
  | .prSwapVbusConfirmTimeout p => Sys2Proof.Machine.execPrSwapVbusConfirmTimeout p s
  | .ntcOutOfRange r => Sys2Proof.Machine.execNtcOutOfRange r s
  | .aonDischargeTimeout p => Sys2Proof.Machine.execAonDischargeTimeout p s
  | .commandInterpreterStart => Sys2Proof.Machine.execCommandInterpreterStart s

end Sys2Proof.Machine
end

