-- ==== Sys2Proof/Machine/Step.lean ====
section
/-! DEFINITION. One step of the block: the command at the front of the queue, or a tick of the always-on clock when none waits. -/

namespace Sys2Proof.Machine

/-- An empty queue: one tick of the 32 kHz clock passes and nothing else happens (R10, R233; log 1). -/
def idle (s : State) : State := { s with tick := s.tick + 1 }

/-- The command at the front of the queue takes effect on the state with the queue's rest (log 1). -/
def step (s : State) : Host.Outcome State Fault Refusal :=
  match s.pending with
  | [] => .next (idle s)
  | c :: rest => exec c { s with pending := rest }

/-- The state with the command that a word spells put in front of its queue; unchanged where the word spells none (log 2). -/
def State.withFetchWord (s : State) (nbits w : Nat) : State :=
  match decodeTableWord nbits w with
  | none => s
  | some c => { s with pending := c :: s.pending }

end Sys2Proof.Machine
end

