-- ==== Sys2Proof/Safety.lean ====
section
/-! DEFINITION. The terms that statements use: completion of a command, what a command may touch, and the invariant of the state. -/

namespace Sys2Proof.Machine

/-- Command `c` completes from `s`, in a next state of which `q` holds. -/
def Goes (c : Instr) (s : State) (q : State → Prop) : Prop := ∃ t, Sys2Proof.Machine.exec c s = .next t ∧ q t

/-- Command `c` completes from `s` in exactly the state `t`. -/
def GoesTo (c : Instr) (s t : State) : Prop := Sys2Proof.Machine.exec c s = .next t

/-- Command `c` completes from `s` and changes nothing: its condition does not hold (log 14). -/
def Idles (c : Instr) (s : State) : Prop := GoesTo c s s

/-! ### What a command may touch -/

/-- A port command on port p touches nothing of the block but port p and what all blocks share: the fault pin, attention, pending
interrupts, the event queue, reply slots, the tunnel session, and the initiator of R331. -/
def OnlyPort (p : Nat) (s t : State) : Prop :=
  t = { s with ports := t.ports, faultN := t.faultN, attn := t.attn, irq := t.irq, events := t.events, host := t.host, tun := t.tun
               tester := t.tester, svc := { s.svc with initPort := t.svc.initPort } } ∧
  t.ports.length = s.ports.length ∧ ∀ q, q ≠ p → t.port q = s.port q

/-- Only port p differs, and nothing that the blocks share. -/
def PortAlone (p : Nat) (s t : State) : Prop :=
  t = { s with ports := t.ports } ∧ t.ports.length = s.ports.length ∧ ∀ q, q ≠ p → t.port q = s.port q

/-- A feed command on feed x touches feed x, the ramp turn, its power-good event, the fault pin, attention, pending interrupts, the sequencer's
note of a good feed (R241), and the dip state that a feed's return ends (R209). -/
def OnlyFeed (x : Nat) (s t : State) : Prop :=
  t = { s with feeds := t.feeds, rampTurn := t.rampTurn, turnFrom := t.turnFrom, faultN := t.faultN, attn := t.attn, irq := t.irq, events := t.events, seq := t.seq
               inn := t.inn } ∧
  t.feeds.length = s.feeds.length ∧ ∀ y, y ≠ x → t.feed y = s.feed y

/-- Only feed x differs. -/
def FeedAlone (x : Nat) (s t : State) : Prop :=
  t = { s with feeds := t.feeds } ∧ t.feeds.length = s.feeds.length ∧ ∀ y, y ≠ x → t.feed y = s.feed y

/-- A phase command on phase k touches phase k, the counters and record of its ridge, the fault pin and attention. -/
def OnlyPhase (k : Nat) (s t : State) : Prop :=
  t = { s with phases := t.phases, ridges := t.ridges, faultN := t.faultN, attn := t.attn, irq := t.irq } ∧
  (∀ j, j ≠ k → t.phase j = s.phase j) ∧ ∀ r, r ≠ ridgeOfPhase k → t.ridge r = s.ridge r

/-- Only phase k differs. -/
def PhaseAlone (k : Nat) (s t : State) : Prop := t = { s with phases := t.phases } ∧ ∀ j, j ≠ k → t.phase j = s.phase j

/-- Of the engine of phase k's ridge, only the STAT word of the phase in X memory differs (R35, R147). -/
def StatOnly (k : Nat) (s t : State) : Prop :=
  (t.ridge (ridgeOfPhase k)).eng = { (s.ridge (ridgeOfPhase k)).eng with x := (t.ridge (ridgeOfPhase k)).eng.x } ∧
    ∀ a, a ≠ 4 * localOfPhase k + 3 →
      cellsRead (t.ridge (ridgeOfPhase k)).eng.x a = cellsRead (s.ridge (ridgeOfPhase k)).eng.x a

/-- An opcode at place `pl` that reads touches nothing but its channel's places and reply slot (R288, R295). -/
def OnlyReply (pl : Place) (s t : State) : Prop :=
  match placeChan pl with
  | .host => t = { s with host := t.host }
  | .tunnel => t = { s with tun := t.tun }

/-- The command at place `pl` has ended with status `code` and data `d`: its place is free and its reply is ready, unless it was
orphaned (R288, R292, R295). -/
def Answered (pl : Place) (c : Cmd) (code : Nat) (d : List Byte) (t : State) : Prop :=
  t.cmdAt pl = none ∧ (c.orphan = false → (t.chan (placeChan pl)).slot = .ready false (replyBytes c code d))

/-- Place `pl` holds command `c`, accepted with opcode `op`, whose turn has come (R51, R289, R291), and which the state does not turn
away in service boot (R299). -/
def Turn (pl : Place) (op : Nat) (c : Cmd) (s : State) : Prop :=
  s.cmdAt pl = some c ∧ c.op = op ∧ s.cmdDue c = true ∧ s.seq.mode ≠ .serviceBoot

/-- A block's record is where the state can hold it. -/
def Blk.here (s : State) : Blk → Prop
  | .feed x => x < s.feeds.length
  | .portCc p => p < s.ports.length
  | .portPath p => p < s.ports.length
  | .phase k => k < s.phases.length
  | .ridge r => r < s.ridges.length
  | _ => True

/-! ### The invariant -/

/-- The register files of a Knaha engine have the sizes of R353, R364 and R374. -/
def Engine.Shaped (e : Engine) : Prop := e.gp.length = 16 ∧ e.units.length = 8 ∧ e.u.length = 8

/-- Both data memories of an engine are in canonical form. -/
def Engine.MemOk (e : Engine) : Prop := cellsWf 0 e.x = true ∧ cellsWf 0 e.y = true

/-- The block has 24 ports, 48 phases, 6 ridges, 2 feeds and 25 cairns (R12, R424), and every engine its registers. -/
def State.Shaped (s : State) : Prop :=
  s.ports.length = 24 ∧ s.phases.length = 48 ∧ s.ridges.length = 6 ∧ s.feeds.length = 2 ∧ s.ret.cairns.length = 25 ∧
    (∀ q ∈ s.ridges, q.eng.Shaped) ∧ s.sup.eng.Shaped

/-- The OTP array, the patch buffer and every data memory are in canonical form. -/
def State.MemOk (s : State) : Prop :=
  cellsWf 0 s.otp.low = true ∧ cellsWf 0 s.otp.high = true ∧ cellsWf 0 s.svc.patchBuf = true ∧ (∀ q ∈ s.ridges, q.eng.MemOk) ∧ s.sup.eng.MemOk

/-- The invariant that every step keeps. -/
def State.Inv (s : State) : Prop := s.Shaped ∧ s.MemOk

end Sys2Proof.Machine
end

