-- ==== Sys2Proof/WellFormed.lean ====
section
/-! DEFINITION. Which commands are well-formed: instance numbers that exist (R12, R334), bytes that fit a packet (R282, R283), sense
data of the lengths of R36, and Knaha words that have an encoding (R359, R360). -/

namespace Sys2Proof.Machine

def okPort (p : Nat) : Bool := decide (p < 24)
def okPhase (k : Nat) : Bool := decide (k < 48)
def okRidge (r : Nat) : Bool := decide (r < 6)
def okFeed (x : Nat) : Bool := decide (x < 2)

/-- A Knaha word of a command: its engine exists and the word has an encoding. A destination that the engine lacks is no error: the
write has no effect (R364). -/
def okWord (a : KArg) (dst : Nat) : Bool := decide (a.eng < 7) && wordOk (argWord a dst) && reservedFit (argWord a dst) a.reserved

/-- What the converters deliver for a pace (R36, R146): 25 codes a phase, 10 and 10 a port; fewer where samples are missing. -/
def okSense (m : PaceSense) : Bool :=
  m.phases.length == 48 && m.ports.length == 24 && m.feeds.length == 2 && m.ntc.length == 6 &&
    m.phases.all (fun f => decide (f.codes.length ≤ 25)) &&
    m.ports.all (fun q => decide (q.vCodes.length ≤ 10) && decide (q.iCodes.length ≤ 10)) && m.dmaLate.all okRidge

/-- The operands of a command are of the kind the spec gives it. -/
def wellFormed : Instr → Bool
  | .cmdPut count data _ => decide (count < 256) && decide (data.length ≤ 255)
  | .addressMatchWake a => a.addr.all (fun n => decide (n < 128)) && a.code.all fun n => decide (n < 256)
  | .bankSwitch r | .ridgeProgramStart r | .paceOverrun r | .stageFault r | .ridgeHot r | .ntcOutOfRange r
  | .stgenRidgeTimeout r | .bankCopyComplete r | .probeRecordComplete r | .measurementComplete r | .replanApply r
  | .ageingMeasureTimeout r | .readmitTimeout r => okRidge r
  | .seqStepQualify m r => decide (m.imonMv.length ≤ 48) && m.rp.all okPort && okRidge r
  | .phaseReadmit _ mv => decide (mv < 4096)
  | .paceBoundary m => okSense m
  | .carrierStart k | .guardDrainZero k | .guardDrainTimeout k | .guardZeroCountDone k | .guardCountTimeout k | .guardBreakDone k
  | .guardPrebiasTimeout k | .peakValleyLimit ⟨k, _, _⟩ | .pklimStop k | .phaseAbsentRun k | .phaseInvStop k => okPhase k
  | .ccSniff p seen => okPort p && seen.length == 8
  | .attachModeChange p | .eprEnClear p | .shedBackstop p | .overdrawTypecEnd p | .toggleSourceEnd p | .toggleSinkEnd p
  | .attachDebounceSrc p | .attachDebounceSnk p | .attachwaitTimeout p | .unexpectedVbus p | .portSwitchClose p
  | .vbusStartCheck p | .errorRecoveryEnd p | .sinkVbusLoss p | .detachByDebounce p | .detachByCurrent p | .detachSwitchOpen p
  | .vbusDischargeComplete p | .vbusDischargeTimeout p | .vconnGood ⟨p, _⟩ | .vconnFaultTimerTrip p | .vconnHardTrip p
  | .vconnReverseBlock p | .vconnSupplyLoss p | .vconnDischargeEnd p | .passiveRdTakeover p | .collisionWaitExpiry p
  | .cableDiscoverAttempt p | .transitionStart p | .transitionSettled p | .phasesNotPlacedTimeout p | .ppsTimeout p
  | .eprModeEnter p | .eprKeepalive p | .eprKeepaliveTimeout p | .eprModeExit p | .eprPartExit p | .loweredCapsTimeout p
  | .getSourceCap p | .getSinkCap p | .getSourceCapExtended p | .getStatus p | .getPpsStatus p | .getSourceInfo p
  | .getRevision p | .unsupportedRequest p | .protocolError p | .softResetTimeout p | .hardResetReceived p
  | .hardResetTakedown p | .hardResetRecover p | .lossOfConversion p | .outOfServiceReturn p | .holdHardReset p
  | .sinkVbusCheckTimeout p | .prSwapSend p | .prSwapAccept p | .prSwapPsRdy p | .prSwapSourceOffTimeout p
  | .swapResponseTimeout p | .prSwapReceived p | .drSwapReceived ⟨p, _⟩ | .vconnSwapSend p | .vconnSwapReceived p
  | .vconnSwapPartnerPsRdy p | .vconnSourceTimeout p | .sinkVbusRestoreTimeout p | .discoveryStart p | .vdmBusyRetry p
  | .vdmResponseTimeout p | .modeEntryTimeout p | .unstructuredVdm p | .hello p | .tAuth p | .tunnelCmd p | .serviceExitMode p
  | .portCloseComplete ⟨p, _⟩ | .portCloseTimeout p | .portFaultTimerTrip p | .portFaultTimerReset p | .portFastTrip ⟨p, _⟩
  | .portReverseBlock ⟨p, _⟩ | .portOvervoltage p | .portTripCountClear p | .softResetReceived p | .prSwapVbusConfirmTimeout p
  | .aonDischargeTimeout p => okPort p
  | .sourceCapSend p _ | .sourceCapRepeat p _ | .goodcrcRetryFail p _ | .senderResponseTimeout p _ | .alertReceived p _
  | .holdMessageAnswer p _ | .sinkAcceptReceived p _ | .swapSuppressionEnd p _ | .swapReplyReceived p _
  | .securityResponse p _ | .securityRequest p _ => okPort p
  | .cableIdentityResponse p c => okPort p && decide (c.vMax < 4)
  | .requestReceived p q => okPort p && decide (1 ≤ q.pos) && decide (q.pos ≤ 11)
  | .sinkSourceCapReceived p objs => okPort p && decide (objs.length ≤ 7)
  | .vdmResponse p _ _ vdos => okPort p && decide (vdos.length ≤ 6)
  | .attentionVdmReceived p _ _ => okPort p
  | .vdmRequestAsUfp p v | .vdmRequestAsDfp p v => okPort p && decide (v.cmd < 32) && decide (v.pos < 8)
  | .serviceEnterMode p pos => okPort p && decide (pos < 8)
  | .segPut p ⟨_, data⟩ => okPort p && decide (data.length ≤ 5)
  | .segGet p _ _ => okPort p
  | .feedQualifyComplete x | .feedWindowLoss x | .feedRampTurnTake x | .feedFullyOn ⟨x, _, _⟩ | .feedRampTimeout x | .feedFastTrip ⟨x, _⟩
  | .feedFaultTimerTrip x | .feedFaultTimerReset x | .feedOvTurnoff ⟨x, _⟩ | .feedUvRun x | .feedHoldoffReturn x
  | .feedRetryDelayEnd x | .feedReverseTurnoff ⟨x, _⟩ | .feedOdgTurnOn x | .feedIdealDiodeFault x | .feedTripCountClear x => okFeed x
  | .resetNRelease a => decide (a < 8)
  | .vbatAonPowerOn _ a => decide (a < 8)
  | .pwmPub a => okWord a 0x70
  | .irqRet a => okWord a 0xA1
  | .move a dst => okWord a dst
  | .memRead a u dst => okWord (reading a u) dst && decide (u < 8)
  | .memWrite a u => okWord a (0x40 + u) && decide (u < 8)
  | .aluPass a => okWord a 0x19
  | .aluAdd a => okWord a 0x1A
  | .aluSub a => okWord a 0x1B
  | .aluAdds a => okWord a 0x1C
  | .aluSubs a => okWord a 0x1D
  | .aluAnd a => okWord a 0x1E
  | .aluOr a => okWord a 0x1F
  | .aluXor a => okWord a 0x20
  | .aluShl a => okWord a 0x21
  | .aluSar a => okWord a 0x22
  | .aluShr a => okWord a 0x23
  | .aluMin a => okWord a 0x24
  | .aluMax a => okWord a 0x25
  | .aluAbs a => okWord a 0x26
  | .aluNeg a => okWord a 0x27
  | .cmpLt a => okWord a 0x2A
  | .cmpLe a => okWord a 0x2B
  | .cmpEq a => okWord a 0x2C
  | .cmpNe a => okWord a 0x2D
  | .cmpGe a => okWord a 0x2E
  | .cmpGt a => okWord a 0x2F
  | .cmpLtu a => okWord a 0x30
  | .cmpGeu a => okWord a 0x31
  | .cmpTst a => okWord a 0x32
  | .cmpPset a => okWord a 0x33
  | .macMul a => okWord a 0x35
  | .macMac a => okWord a 0x36
  | .macMsu a => okWord a 0x37
  | .macDmac a => okWord a 0x38
  | .macLd a => okWord a 0x39
  | .macClr a => okWord a 0x3A
  | .macMode a => okWord a 0x3B
  | .lpRep a => okWord a 0x61
  | .lpRepH a => okWord a 0x62
  | .pcJmp a => okWord a 0x63
  | .pcCall a => okWord a 0x64
  | .pcRet a => okWord a 0x65
  | .pwmDutyWrite a k => okWord a (0x68 + k) && decide (k < 8)
  | .steerReq a => okWord a 0x71
  | .cstTrigger a n => okWord a (0x50 + n) && decide (n < 16)
  | .macTriggerComplete e | .repeatEnd e => decide (e < 7)
  | .commandAccept _ | .resGet _ _ | .busStatus | .attnAck _ _ | .busSclTimeout | .busEdgeTimeout | .stuckRelease
  | .busIdleDetect | .attentionWrite _ | .attentionBackoffExpiry _ | .identify _ | .echo _ | .getParam _ | .setParam _
  | .paramTakeEffect | .testerPolicyZero | .portErrorRecovery _ | .portCableDiscover _ | .portRediscover _ | .portDrSwap _
  | .modeEnter _ | .modeExit _ | .vdmSend _ | .discRead _ | .modeTableRead _ | .modeTableWrite _ | .eventRead _
  | .ledgerRead _ | .sleep _ | .sleepDelayExpiry | .faultClear _ | .faultPinRelease _ | .faultPinHold _ | .faultRead _
  | .otpRead _ | .otpBurn _ _ | .finalise _ _ | .calBurn _ _ | .calRead _ | .calCapture _ _ | .portRecal _ _ _ | .cairnSync _ | .cairnDrop _ | .progLoad _
  | .progRead _ | .ucodeLoad _ | .progSwitchStaging _ | .progSwitchRomLaw _ | .patchLoad _ | .patchVerify _ | .patchDrop _
  | .phaseRetire _ | .supRestartPatch _ | .supRestartRom _ | .ageingMeasure _ | .authKeygen _ _ | .authPubkey _
  | .authChainLoad _ | .authInitiate _ | .authPeerRead _ | .diagCapture _ | .diagCaptureTrigger | .diagCaptureTimeout
  | .diagDump _ | .frameBoundary | .taskCapReached _ | .innkeeperSolveComplete | .degradedEnd | .dipHoldEnd | .dipExit
  | .feedlessExpiry | .clockFault | .pllLock | .pllLockTimeout | .vbootQualify | .vbootDisqualify | .bootPortSelect
  | .pAuthReady | .sessionIdleTimeout | .authFailureDelayEnd | .ignWake | .resetNAssert | .vbatAonDrop | .seqStepTimeout
  | .otpReadComplete | .step6FeedlessTimeout | .runningRailFault | .dieHot | .dieWarn | .shutoffRailWaitEnd _
  | .shutdownStepOff | .shutdownNofallTimeout | .holdoffEnd | .ignChange _ | .ignOffDelayExpiry | .calibrationTakeup
  | .reducedServiceStart | .cairnRestore | .patchVerification | .ridgeBankLoad | .endOfBringup | .faultNPulseEnd
  | .cairnWriteBegin | .cairnWriteComplete | .lossFit | .supRestartHoldBegin | .supervisorReturn | .holdExpiry
  | .interruptTaken _ | .commandInterpreterStart => true

end Sys2Proof.Machine
end

