-- ==== Sys2Proof/Certificates/Slice0/Obligations.lean ====
section
/-! DEFINITION. The statements for the provers. -/

section Statements

open Sys2Proof Sys2Proof.Machine
/-! ### The block as a whole -/

/-- One step takes the command at the front of the queue and gives `exec` of it on the state with the queue's rest (log 1). -/
def Obligations.StepRunsFrontCommand : Prop :=
  ∀ (s : State) (c : Instr) (rest : List Instr), s.pending = c :: rest →
    Sys2Proof.Machine.step s = Sys2Proof.Machine.exec c { s with pending := rest }

/-- What reset leaves: no supply has come up, no command waits, both reply slots are empty, the event queue is empty, no attention is
pending, every fault record is empty with the `_PIN` and `_ATTN` defaults of R342, both feeds are Off, no phase is placed and every settable
item of a device holds its default. The model's choices in it: the trims (log 12) and every value the spec does not give (log 15). -/
def Obligations.ResetState : Prop :=
  State.reset.pending = [] ∧ State.reset.seq.mode = .unpowered ∧ State.reset.locked = false ∧ State.reset.host = {} ∧
    State.reset.host.slot = .empty ∧ State.reset.tun.slot = .empty ∧ State.reset.attn.pending = 0 ∧
    State.reset.events.recs = [] ∧ State.reset.events.seq = 0 ∧
    (∀ b : Blk, b.here State.reset → State.reset.flt b = { pin := pinDefault b, attn := 0xFFFF }) ∧
    (∀ x, x < 2 → (State.reset.feed x).st = .off ∧ (State.reset.feed x).pg = false) ∧
    (∀ k, k < 48 → State.reset.ledger.phase k = {}) ∧
    State.reset.inf 0 0 0x30 = 360 ∧ State.reset.inf 0 0 0x39 = 60000 ∧ State.reset.inf 1 0 0x15 = 6000 ∧ State.reset.inf 3 5 0x22 = 120 ∧
    State.reset.inf 4 7 0x0A = 20000

/-- The reset state meets the invariant: 24 ports, 48 phases, 6 ridges, 2 feeds, 25 cairns, and every memory in canonical form. -/
def Obligations.ResetMeetsInvariant : Prop := State.reset.Inv

/-- Every step keeps the number of ports, phases, ridges, feeds and cairns, and the sizes of every engine's register files. -/
def Obligations.StepKeepsShape : Prop :=
  ∀ s t : State, s.Shaped → Sys2Proof.Machine.step s = .next t → t.Shaped

/-- Every step keeps every memory in canonical form: the OTP cells, the patch buffer, and the X and Y memories of each engine. -/
def Obligations.StepKeepsMemories : Prop :=
  ∀ s t : State, s.Inv → Sys2Proof.Machine.step s = .next t → t.MemOk

/-- Every word that has an encoding, long or paired, decodes to itself, at every guard, source and destination the form admits; its reserved
bits, whatever they hold, change nothing (R359, R360). -/
def Obligations.KnahaWordsRoundTrip : Prop :=
  (∀ w : KWord, wordOk w = true → decodeWord (encodeWord w) = w) ∧
  ∀ (a : KArg) (d : Nat), wordOk (argWord a d) = true → reservedFit (argWord a d) a.reserved = true → decodeWord (argBits a d) = argWord a d

/-- The end of a transaction on the host bus: idle, what it returned, whether a byte was not acknowledged, the STOP from which a back-off counts
(R280), and the front end that is then in charge (R274). -/
def busAfter (s : State) (nack : Bool) (out : List Byte) : Bus :=
  { s.bus with
    idle := true, nacked := nack, out := out, vcoreFe := s.locked
    stopAt := if s.bus.attnWait then some s.paceCount else s.bus.stopAt }

/-- The byte that stands where the PEC of a write frame does: the one after the counted bytes, if the host sent it (R271, R273). -/
def seenPec (count : Nat) (data : List Byte) (pec : Option Byte) : Option Byte :=
  if count < data.length then some (data.getD count 0) else pec

/-- R273: the frame's PEC is right, or there is none and none is needed. -/
def putPasses (s : State) (count : Nat) (data : List Byte) (pec : Option Byte) : Prop :=
  seenPec count data pec = some (crc8 (s.addrByte false :: 0x10 :: byteOf count :: data.take count)) ∨
    (seenPec count data pec = none ∧ s.inf 0 0 0x3C ≠ 1)

/-- R271, R273, R287, R288: where commands are served, `CMD_PUT` COMPLETES. A frame of a count of 4 or more, sent whole, whose class's place is free,
with its PEC right or with none where none is needed, claims the reply slot and the place of its class, and that is all it does. A frame whose
place is held is not acknowledged, one cut short has no effect, a count under 4 is not acknowledged, and a wrong or missing PEC sets its
sticky bit: none of these touches the reply slot, a place, an item or a port. -/
def Obligations.CmdPutClaimsOrRefuses : Prop :=
  ∀ (s : State) (count : Nat) (data : List Byte) (pec : Option Byte), s.served = true →
    (4 ≤ count → count ≤ data.length → s.host.classHeld (rdB data 2 % 4) = false → putPasses s count data pec →
      Sys2Proof.Machine.exec (.cmdPut count data pec) s =
        .next { s with host := s.host.claim { bytes := data.take count }, bus := busAfter s (decide (count + 1 < data.length)) [] }) ∧
    (∀ c : Cmd, (s.host.claim c).slot = .pending (c.bytes.getD 1 0) (c.bytes.getD 0 0) ∧
      (c.cls = 0 → ∃ d, (s.host.claim c).place0 = some { c with discarded := d } ∧ (s.host.claim c).place12 = orphaned s.host.place12) ∧
      (c.cls = 1 ∨ c.cls = 2 → ∃ d, (s.host.claim c).place12 = some { c with discarded := d } ∧ (s.host.claim c).place0 = orphaned s.host.place0)) ∧
    (4 ≤ count → 3 ≤ data.length → s.host.classHeld (rdB data 2 % 4) = true →
      GoesTo (.cmdPut count data pec) s { s with bus := busAfter s true [] }) ∧
    (4 ≤ count → data.length < count → (data.length < 3 ∨ s.host.classHeld (rdB data 2 % 4) = false) →
      GoesTo (.cmdPut count data pec) s { s with bus := busAfter s false [] }) ∧
    (count < 4 → GoesTo (.cmdPut count data pec) s { s with bus := busAfter s true [] }) ∧
    (4 ≤ count → count ≤ data.length → s.host.classHeld (rdB data 2 % 4) = false → ¬ putPasses s count data pec →
      Goes (.cmdPut count data pec) s fun t =>
        t.host = s.host ∧ t.fltBus.sticky.getLsbD 2 = true ∧ t.params = s.params ∧ t.ports = s.ports ∧
          t.bus.nacked = (seenPec count data pec).isSome)

/-- R263, R271, R273: an `ATTN_ACK` clears each bit of its mask that has not been set again since its last report; a bit set again stays pending
and a new attention write is due; bytes after its PEC are not acknowledged. One cut short has no effect; one with a wrong PEC, or none where
it is needed, clears nothing and sets the PEC sticky bit. -/
def Obligations.AttnAckClearsWhatWasSeen : Prop :=
  ∀ (s : State) (a b : Byte) (more : List Byte) (pec : Option Byte) (mask : Word) (seen : Option Byte), s.served = true →
    mask = BitVec.ofNat 16 (rdLe [a, b] 0 2) → seen = (if more = [] then pec else some (more.getD 0 0)) →
    (seen = some (crc8 [s.addrByte false, 0x13, a, b]) ∨ (seen = none ∧ s.inf 0 0 0x3C ≠ 1) →
      Goes (.attnAck (a :: b :: more) pec) s fun t =>
        t = { s with attn := t.attn, bus := { busAfter s (decide (1 < more.length)) [] with attnHeld := false } } ∧
        (∀ i, i < 16 → t.attn.pending.getLsbD i =
          (s.attn.pending.getLsbD i && (!mask.getLsbD i || s.attn.fresh.getLsbD i))) ∧
        (t.attn.writeDue = true ↔ s.attn.writeDue = true ∨ s.attn.fresh &&& mask ≠ 0)) ∧
    (seen ≠ some (crc8 [s.addrByte false, 0x13, a, b]) → (seen = none → s.inf 0 0 0x3C = 1) →
      Goes (.attnAck (a :: b :: more) pec) s fun t =>
        t.fltBus.sticky.getLsbD 2 = true ∧ (∀ i, s.attn.pending.getLsbD i = true → t.attn.pending.getLsbD i = true) ∧
          t.bus.attnHeld = s.bus.attnHeld ∧ t.host = s.host ∧ t.params = s.params ∧ t.ports = s.ports) ∧
    GoesTo (.attnAck [a] pec) s { s with bus := busAfter s false [] } ∧ GoesTo (.attnAck [] pec) s { s with bus := busAfter s false [] }

/-- R263, R269 to R274, R276 to R281, R294 to R296: a complete `RES_GET` returns the reply with its PEC and leaves it read, and reports the bits
of `ATTN_PENDING` its reply carries; before a reply is ready it returns IN PROGRESS with the packet's TAG and OPCODE, and with no packet since
reset NO REPLY; `BUS_STATUS` returns the status byte, its PEC, and 0xFF beyond. A timeout abandons the transaction and, for `SCL` low, sets its
sticky bit; a released bus keeps commands and reply slot; 50 µs with both lines high makes the bus idle and hands it to the front end whose
turn it is. An acknowledged attention write ends its series; a failed one waits for the next STOP and its back-off, and counts, the eighth
failed retry giving it up with the BUS sticky bit 3; of two controllers that start in one bit the host's address loses to 0x10. The part's
address wakes it from retention, and another address leaves it alone. The model's choices in it: the corners of log 53, and what meets an
attempt as an operand (log 54). -/
def Obligations.BusReadsAndEvents : Prop :=
  ((∀ (s : State) (bs : List Byte) (rd : Bool), s.served = true → s.host.slot = .ready rd bs → isRestartReply bs = false →
    Goes (.resGet bs.length true) s fun t =>
      t.host = { s.host with slot := .ready true bs, sampled := false } ∧ t.attn.pending = s.attn.pending ∧ t.ports = s.ports ∧ t.params = s.params ∧
      (s.host.sampled = false → t.attn = s.attn) ∧
      (s.host.sampled = true →
        t.attn.fresh = (s.attn.fresh &&& ~~~s.attn.sampled) ||| (s.attn.sinceSample &&& s.attn.sampled) ∧ t.attn.sampled = 0) ∧
      (rd = false → t.bus.out = byteOf bs.length :: bs ++ [crc8 (s.addrByte false :: 0x11 :: s.addrByte true :: byteOf bs.length :: bs)]) ∧
      (rd = true → bs ≠ [] → t.bus.out.getD 1 0 = bs.getD 0 0 ||| 0x80)) ∧
  (∀ (s : State) (tag op : Byte), s.served = true → s.host.slot = .pending tag op →
    GoesTo (.resGet 4 false) s { s with bus := busAfter s false [0x04, 0x01, tag, op, 0x00] }) ∧
  (∀ s : State, s.served = true → s.host.slot = .empty →
    GoesTo (.resGet 4 false) s { s with bus := busAfter s false [0x04, 0x02, 0x00, 0x00, 0x00] }) ∧
  (∀ (s : State) (b : Byte), s.served = true → b = byteOf s.busStatus →
    GoesTo .busStatus s { s with bus := busAfter s false [b, crc8 [s.addrByte false, 0x12, s.addrByte true, b], 0xFF] }) ∧
  (∀ s : State, s.answers = true → Goes .busStatus s fun t =>
    t.bus.out.head? = some (byteOf t.busStatus) ∧ t.bus.nacked = false ∧ (s.seq.mode = .running → t = { s with bus := t.bus }))) ∧
  ((∀ s : State, s.answers = true →
    (Goes .busSclTimeout s fun t =>
      (s.locked = true → t.fltBus.sticky.getLsbD 1 = true) ∧ t.bus.idle = false ∧ t.host = s.host ∧ t.ports = s.ports ∧ t.params = s.params) ∧
    GoesTo .busEdgeTimeout s { s with bus := { s.bus with idle := false, out := [], nacked := true } } ∧
    (Goes .stuckRelease s fun t =>
      (s.locked = true → t.fltBus.sticky.getLsbD 0 = true) ∧ t.bus.idle = false ∧ t.host = s.host ∧ t.tun = s.tun ∧ t.ports = s.ports)) ∧
  (∀ s : State, GoesTo .busIdleDetect s { s with bus := { s.bus with idle := true, vcoreFe := s.locked } }) ∧
  (∀ (s : State) (c : AttnTry → Instr) (o : AttnTry) (lost : Bool), s.notifies = true → s.bus.idle = true → s.attn.pending ≠ 0 →
    ((c = .attentionWrite ∧ s.bus.attnDue = true) ∨
      (c = .attentionBackoffExpiry ∧ s.bus.attnWait = true ∧ ∃ p, s.bus.stopAt = some p ∧ p + 50 * (s.bus.addrPins + 1) ≤ s.paceCount)) →
    lost = (o.rival.map (lostTo (attnBytes s))).getD false →
    Goes (c o) s fun t =>
      t.bus.attnTx = attnBytes s ∧ t.bus.attnDue = false ∧ t.bus.idle = !lost ∧
      ((lost = false ∧ o.acked = true) ∨ s.bus.attnFails < 8 →
        t.attn.pending = s.attn.pending ∧ t.attn.fresh = (s.attn.fresh &&& ~~~s.attn.pending) ∧ t.fltBus = s.fltBus) ∧
      (lost = false → o.acked = true → t.bus.attnWait = false ∧ t.bus.attnFails = 0 ∧ t.bus.attnHeld = false) ∧
      (lost = true ∨ o.acked = false → s.bus.attnFails < 8 →
        t.bus.attnWait = true ∧ t.bus.attnFails = s.bus.attnFails + 1 ∧ t.bus.stopAt = (if lost then none else some s.paceCount)) ∧
      (lost = true ∨ o.acked = false → 8 ≤ s.bus.attnFails →
        t.bus.attnWait = false ∧ t.bus.attnHeld = true ∧ t.fltBus.sticky.getLsbD 3 = true)) ∧
  (∀ (s : State) (o : AttnTry) (p : Nat), s.notifies = true → s.bus.idle = false → s.bus.attnWait = true → s.bus.stopAt = some p →
    p + 50 * (s.bus.addrPins + 1) ≤ s.paceCount →
    GoesTo (.attentionBackoffExpiry o) s { s with bus := { s.bus with stopAt := none } }) ∧
  (∀ (s : State) (a : Byte) (rest : List Byte), 0xC0 ≤ a.toNat → lostTo (attnBytes s) (a :: rest) = false) ∧
  (∀ (s : State) (code : Option Nat) (stop : Bool), s.answers = true → s.seq.mode = .retention → s.seq.resetLow = false → s.seq.boot = false →
    Goes (.addressMatchWake { addr := some s.busAddr, code, stop }) s fun t =>
      t.seq.mode = .sequencing ∧ t.seq.step = 0 ∧ t.seq.wakeCause = 0x0002 ∧ t.seq.retries = 0 ∧ t.otp.low = s.otp.low ∧
        t.bus.idle = stop ∧ (t.bus.nacked = true ↔ code ≠ none ∧ code ≠ some 0x12)) ∧
  (∀ (s : State) (n : Nat) (code : Option Nat) (stop : Bool), s.answers = true → n ≠ s.busAddr →
    Goes (.addressMatchWake { addr := some n, code, stop }) s fun t =>
      t = { s with bus := t.bus } ∧ t.bus.nacked = true ∧ t.bus.idle = stop))

/-- R287: a packet that fails a check is refused with the code of the first check that fails and frees its place; one that passes takes the next
value of the acceptance sequence. -/
def Obligations.PacketsAreJudged : Prop :=
  ∀ (s : State) (ch : Chan) (zero : Bool) (c : Cmd), s.interprets = true → fresh ((s.chan ch).cmd zero) = some c →
    (zero = true ∨ fresh (s.chan ch).place0 = none) →
    (∀ code, packetFault s ch c = some code →
      Goes (.commandAccept ch) s fun t =>
        (t.chan ch).cmd zero = none ∧ t.acceptSeq = s.acceptSeq ∧ t.params = s.params ∧ t.ports = s.ports ∧
          (c.orphan = false → (t.chan ch).slot = .ready false (replyBytes c code []))) ∧
    (packetFault s ch c = none →
      Goes (.commandAccept ch) s fun t =>
        (t.chan ch).cmd zero = some { c with accepted := true, seqNo := s.acceptSeq + 1, frame := s.frame } ∧
          t.acceptSeq = s.acceptSeq + 1 ∧ (t.chan ch).slot = (s.chan ch).slot ∧ t.params = s.params ∧ t.ports = s.ports)
/-! ### Opcodes: how a command ends or goes on -/

/-- Command `cmd` completes from `s` in `s'` with the reply of status `code` and data `d` at its place; nothing else differs from `s'` but the
places and the reply slot of its channel. -/
def Ends (cmd : Instr) (pl : Place) (c : Cmd) (s s' : State) (code : Nat) (d : List Byte) : Prop :=
  Goes cmd s fun t => OnlyReply pl s' t ∧ Answered pl c code d t

/-- Command `cmd` completes from `s` in `s'` and keeps its place, waiting for `w`. -/
def Waits (cmd : Instr) (pl : Place) (c : Cmd) (s s' : State) (w : WaitFor) : Prop :=
  Goes cmd s fun t => OnlyReply pl s' t ∧ t.cmdAt pl = some { c with wait := some w }

/-- R302, R303, R310, R311, R314, R315, R318, R319, R323, R325, R331, R332: the opcodes that read answer OK with their data and change nothing
but the reply slot and the place (`GET_PARAM` also notes what of `ATTN_PENDING` it reported, and clears ACCESSORY_SEEN of a port whose `CC_STATUS` it read). -/
def Obligations.ReadingOpcodes : Prop :=
  ∀ (pl : Place) (s : State) (c : Cmd),
    (Turn pl 0x01 c s → Ends (.identify pl) pl c s s stOk (identifyData s)) ∧
    (Turn pl 0x02 c s → Ends (.echo pl) pl c s s stOk c.par) ∧
    (Turn pl 0x20 c s → Goes (.getParam pl) s fun t =>
      OnlyReply pl { s with attn := t.attn, ports := t.ports } t ∧ t.attn.pending = s.attn.pending ∧
      (∀ p, p < s.ports.length → p < 24 → t.port p = (if (getIds c).contains (pid 3 p 0) then
        { s.port p with cc := { s.cc p with accessory := false } } else s.port p)) ∧ Answered pl c stOk (paramData s (getIds c)) t) ∧
    (Turn pl 0x35 c s → Ends (.discRead pl) pl c s s stOk
      (if (s.port (c.p8 0)).attachFrame.isSome then discRecord s (c.p8 0) else List.replicate 28 0)) ∧
    (discRecord s (c.p8 0)).length = 28 + 24 * (s.dc (c.p8 0)).svids.length ∧
    (Turn pl 0x36 c s → c.plen = 0 → Ends (.modeTableRead pl) pl c s s stOk s.svc.modeTable) ∧
    (Turn pl 0x40 c s → Ends (.ledgerRead pl) pl c s s stOk
      (leBytes 4 s.ledger.hdr.frame ++ ((ledgerBytes s.ledger).drop (c.p16 0)).take (c.p8 2))) ∧
    (∀ b, Turn pl 0x62 c s → blkOf (c.p8 0) (c.p8 1) = some b → Ends (.faultRead pl) pl c s s stOk
      (leBytes 2 (s.flt b).sticky.toNat ++ leBytes 4 (s.flt b).first.toNat ++ leBytes 2 (s.maskOf b 2) ++ leBytes 2 (s.maskOf b 3))) ∧
    (Turn pl 0x70 c s → Ends (.otpRead pl) pl c s s stOk
      (bitmap8 ((List.range (c.p8 2)).filter fun i => s.otp.weak (c.p16 0 + i)) ++
        (List.range (c.p8 2)).flatMap fun i => leBytes 4 (if 192 ≤ c.p16 0 + i ∧ c.p16 0 + i ≤ 207 then 0 else (s.otp.lo (c.p16 0 + i)).toNat))) ∧
    (∀ ch g, Turn pl 0x76 c s → chanOf s (c.p16 0) = some ch → s.otp.calUse = some g → Ends (.calRead pl) pl c s s stOk
      ([byteOf s.otp.calGen, byteOf (bitAt 0 (stagedOf s.otp ch false).isSome + bitAt 1 (stagedOf s.otp ch true).isSome)] ++
        leBytes 3 (s.otp.recBits g ch))) ∧
    (Turn pl 0x91 c s → Ends (.progRead pl) pl c s s stOk
      ((List.range (c.p8 4)).flatMap fun i =>
        leBytes 4 ((if c.p8 1 = 0 then (s.ridge (c.p8 0)).staging else (s.ridge (c.p8 0)).bank).word (c.p16 2 + i)).toNat)) ∧
    (Turn pl 0xB1 c s → s.otp.idUsable = true → Ends (.authPubkey pl) pl c s s stOk (idPublic s)) ∧
    (Turn pl 0xB4 c s → (s.port (c.p8 0)).peerChain ≠ [] →
      Ends (.authPeerRead pl) pl c s s stOk (((s.port (c.p8 0)).peerChain.drop (c.p16 2)).take 240)) ∧
    (Turn pl 0xC1 c s → s.svc.capDone = true →
      Ends (.diagDump pl) pl c s s stOk (leBytes 4 s.svc.capFrame ++ (s.svc.capBuf.drop (c.p16 0)).take (c.p8 2)))

/-- R304, R340, R336: a `SET_PARAM` of one settable item writes it and no other item, and answers OK; one that names a read-only item answers
ACCESS and writes nothing; written items are taken up at a frame boundary. -/
def Obligations.SettingParameters : Prop :=
  (∀ (pl : Place) (s : State) (c : Cmd) (id v : Nat) (r : ItemRow), Turn pl 0x21 c s → setEntries c = [(id, v)] → noAccess s id = false →
    s.older c id = false → itemRow (pidScope id) (pidItem id) = some r → r.acc ≠ .rz → pidFlt id = none →
    Goes (.setParam pl) s fun t =>
      t.written id = keptValue id v ∧ (∀ j, j ≠ id → t.written j = s.written j) ∧ t.inForce = s.inForce ∧ t.ports = s.ports ∧
        t.phases = s.phases ∧ t.ridges = s.ridges ∧ t.feeds = s.feeds ∧ Answered pl c stOk [] t) ∧
  (∀ (pl : Place) (s : State) (c : Cmd), Turn pl 0x21 c s → ((setEntries c).any fun e => noAccess s e.1) = true →
    Ends (.setParam pl) pl c s s stAccess []) ∧
  (∀ s : State, s.locked = true → s.takeUp = true → s.atBoundary = true →
    Goes .paramTakeEffect s fun t =>
      t.inForce = s.params ∧ t.params = s.params ∧ t.takeUp = false ∧ ∀ scope inst item,
        t.inf scope inst item = (mapGet s.params (pid scope inst item)).getD (itemDefault t (pid scope inst item)))

/-- R137, R244, R257, R259, R260, R314, R316, R318: what events, fault records, `FAULT_N`, sleep and the tester policy do at their commands.
The model's choices in it: the end of a `FAULT_N` pulse as a command (log 54). -/
def Obligations.EventsFaultsAndSleep : Prop :=
  (∀ (pl : Place) (s : State) (c : Cmd), Turn pl 0x37 c s →
    Ends (.eventRead pl) pl c s { s with events := s.events.ack (c.p8 0) } stOk (s.events.ack (c.p8 0)).report) ∧
  (∀ (pl : Place) (s : State) (c : Cmd) (b : Blk) (m : Word), s.cmdAt pl = some c → s.clearDue c = true → c.clearOf = some (b, m) →
    (b = .seq ∨ b = .aon ∨ b = .bus ∨ (b = .supv ∧ s.inn.degradedFrom = none) →
      Ends (.faultClear pl) pl c s (s.setFlt b ((s.flt b).clear m)) stOk (leBytes 2 ((s.flt b).sticky &&& ~~~m).toNat)) ∧
    (b = .supv → s.inn.degradedFrom ≠ none → Goes (.faultClear pl) s fun t =>
      t.fltSupv.sticky = (s.fltSupv.sticky &&& ~~~m) ||| 0x0002 ∧ t.cmdAt pl = none ∧ t.ports = s.ports ∧ t.phases = s.phases)) ∧
  (∀ (pl : Place) (s : State) (c : Cmd), Turn pl 0x61 c s →
    (c.p8 0 = 0 → Ends (.faultPinRelease pl) pl c s { s with faultN := { s.faultN with action := some false } } stOk [0]) ∧
    (c.p8 0 = 1 → Ends (.faultPinHold pl) pl c s { s with faultN := { s.faultN with action := some true } } stOk [1])) ∧
  (∀ s : State, s.faultN.pulse = true → s.faultN.byTicks = false → s.faultN.pulseAt + 12 ≤ s.now →
    (s.inf 0 0 0x3A = 1 → GoesTo .faultNPulseEnd s { s with faultN := { s.faultN with pulse := false, hold := true } }) ∧
    (s.inf 0 0 0x3A = 0 → s.locked = true →
      GoesTo .faultNPulseEnd s { s with faultN := { s.faultN with pulse := false, quietUntil := s.now + 12 } })) ∧
  (∀ (pl : Place) (s : State) (c : Cmd), Turn pl 0x50 c s →
    Ends (.sleep pl) pl c s { s with seq := { s.seq with sleepAt := some (s.frame + c.p16 0) } } stOk []) ∧
  (∀ (s : State) (f : Nat), s.Shaped → s.seq.sleepAt = some f → s.seq.mode = .running → s.locked = true → s.atBoundary = true → f ≤ s.frame →
    s.burnPending = false →
    Goes .sleepDelayExpiry s fun t =>
      t.seq.mode = .shutdown ∧ t.seq.after = .rest ∧ t.seq.downStep = 7 ∧ t.seq.interpreter = false ∧ t.seq.sleepAt = none ∧
        t.host.slot = .empty ∧ t.tun.slot = .empty ∧ t.otp = s.otp ∧ ∀ p, (s.port p).inService = true → (t.path p).swOn = false) ∧
  (∀ s : State, s.atBoundary = true → testerPolicy s = 0 → s.tester.st ≠ .closed →
    Goes .testerPolicyZero s fun t => t.tester.st = .closed ∧ t.tester.delayUntil = s.tester.delayUntil ∧ t.tun.slot = .empty ∧ t.ports = s.ports)

/-- R325, R326, R383, R384: `PROG_LOAD` and `UCODE_LOAD` write the staging bank and nothing else; `PROG_SWITCH` checks it, refuses it with
the number of the first failed check, or waits for the switch; at the switch the banks exchange. The model's choices in it: an unmodified
law in staging (log 49) and the order of refusals (log 57). -/
def Obligations.ProgramBanks : Prop :=
  (∀ (pl : Place) (s : State) (c : Cmd), Turn pl 0x90 c s → s.Shaped → c.p8 0 < 6 → (s.ridge (c.p8 0)).switchPending = false →
    Goes (.progLoad pl) s fun t =>
      Answered pl c stOk [] t ∧ (t.ridge (c.p8 0)).stagingState = 1 ∧ (t.ridge (c.p8 0)).bank = (s.ridge (c.p8 0)).bank ∧
      (∀ i, i < c.words.length → (t.ridge (c.p8 0)).staging.word (c.p16 2 + i) = c.words.getD i 0) ∧
      (∀ a, a < c.p16 2 ∨ c.p16 2 + c.words.length ≤ a → (t.ridge (c.p8 0)).staging.word a = (s.ridge (c.p8 0)).staging.word a) ∧
      (∀ r, r ≠ c.p8 0 → t.ridge r = s.ridge r) ∧ t.ports = s.ports ∧ t.phases = s.phases ∧ t.ledger = s.ledger) ∧
  (∀ (pl : Place) (s : State) (c : Cmd), Turn pl 0x90 c s → (s.ridge (c.p8 0)).switchPending = true → Ends (.progLoad pl) pl c s s stBusy []) ∧
  (∀ (pl : Place) (s : State) (c : Cmd), Turn pl 0x94 c s → s.Shaped → c.p8 0 < 6 → (s.ridge (c.p8 0)).switchPending = false →
    Goes (.ucodeLoad pl) s fun t =>
      Answered pl c stOk [] t ∧ (t.ridge (c.p8 0)).stagingState = 1 ∧ (t.ridge (c.p8 0)).bank = (s.ridge (c.p8 0)).bank ∧
      (∀ i, i < c.words.length → (t.ridge (c.p8 0)).staging.entry (c.p8 1 + i) = c.words.getD i 0) ∧
      (∀ a, a < c.p8 1 ∨ c.p8 1 + c.words.length ≤ a → (t.ridge (c.p8 0)).staging.entry a = (s.ridge (c.p8 0)).staging.entry a) ∧
      (∀ r, r ≠ c.p8 0 → t.ridge r = s.ridge r) ∧ t.ports = s.ports ∧ t.phases = s.phases) ∧
  (∀ (pl : Place) (s : State) (c : Cmd), Turn pl 0x94 c s → s.Shaped → c.p8 0 = 0xFF →
    (∀ r, r < 6 → ridgeHere s r = true → (s.ridge r).switchPending = false) →
    Goes (.ucodeLoad pl) s fun t =>
      Answered pl c stOk [] t ∧ t.ports = s.ports ∧ t.phases = s.phases ∧
      ∀ r, r < 6 →
        (ridgeHere s r = true → (t.ridge r).stagingState = 1 ∧ (t.ridge r).bank = (s.ridge r).bank ∧
          ∀ i, i < c.words.length → (t.ridge r).staging.entry (c.p8 1 + i) = c.words.getD i 0) ∧
        (ridgeHere s r = false → t.ridge r = s.ridge r)) ∧
  (∀ (pl : Place) (s : State) (c : Cmd), Turn pl 0x92 c s → (s.ridge (c.p8 0)).switchPending = false → switchRefused s (c.p8 0) = false →
    (c.p8 1 = 0 → (s.ridge (c.p8 0)).staging.isLaw = false →
      (∀ n, imageFault (s.ridge (c.p8 0)).staging = some n → Ends (.progSwitchStaging pl) pl c s s stFailed [1, byteOf n]) ∧
      (imageFault (s.ridge (c.p8 0)).staging = none →
        Waits (.progSwitchStaging pl) pl c s
          (s.updRidge (c.p8 0) fun q =>
            { q with staging := q.staging.cut, switchPending := true, switchSrc := 0, switchId := q.staging.crc, stagingState := 2 })
          (.bankSwitch (c.p8 0)))) ∧
    (c.p8 1 = 1 →
      Waits (.progSwitchRomLaw pl) pl c s
        (s.updRidge (c.p8 0) fun q => { q with staging := lawBank 1, switchPending := true, switchSrc := 1, switchId := 0xFFFF0001, stagingState := 2 })
        (.bankSwitch (c.p8 0)))) ∧
  (∀ (s : State) (r : Nat), s.Shaped → r < 6 → s.locked = true → s.atBoundary = true → s.sup.st ≠ .hold → s.mayBankSwitch r = true →
    Goes (.bankSwitch r) s fun t =>
      (t.ridge r).bank = (s.ridge r).staging ∧ (t.ridge r).staging = (s.ridge r).bank ∧ (t.ridge r).activeSrc = (s.ridge r).switchSrc ∧
      (t.ridge r).activeId = (s.ridge r).switchId ∧ (t.ridge r).switchPending = false ∧ (t.ridge r).stagingState = 3 ∧
      (t.ridge r).switchFrame = s.frameCount ∧ (t.ridge r).decodeId = (s.ridge r).staging.tableId ∧
      (∀ q, q ≠ r → t.ridge q = s.ridge q) ∧ t.ports = s.ports ∧ t.phases = s.phases ∧ t.ledger = s.ledger) ∧
  (∀ (s : State) (r : Nat), s.Shaped → r < 6 → s.locked = true → (s.ridge r).copying = true → r < s.ret.banks.length →
    Goes (.bankCopyComplete r) s fun t =>
      t.ret.banks.getD r [] = (s.ridge r).bank.words ∧ (t.ridge r).copying = false ∧ (t.cairn (decodeCairn r)).dirty = true ∧
        (t.cairn (ridgeCairn r)).dirty = true ∧ t.ports = s.ports ∧ t.phases = s.phases)

/-- R327, R328, R332: the patch buffer, its verification and its drop; a diagnostic capture armed, triggered and timed out. The model's
choices in it: the length of a loaded image (log 58) and an asserted trigger (log 59). -/
def Obligations.PatchesAndCaptures : Prop :=
  (∀ (pl : Place) (s : State) (c : Cmd), Turn pl 0x98 c s → cellsWf 0 s.svc.patchBuf = true →
    Goes (.patchLoad pl) s fun t =>
      Answered pl c stOk [] t ∧ t.svc = { s.svc with patchBuf := t.svc.patchBuf, patchHigh := t.svc.patchHigh } ∧
      (∀ i, i < (c.par.drop 4).length → cellsRead t.svc.patchBuf (c.p16 0 + i) = (c.par.drop 4).getD i 0) ∧
      (∀ a, a < c.p16 0 ∨ c.p16 0 + (c.par.drop 4).length ≤ a → cellsRead t.svc.patchBuf a = cellsRead s.svc.patchBuf a) ∧
      t.svc.patchHigh = (if c.p16 0 = 0 then (c.par.drop 4).length else max s.svc.patchHigh (c.p16 0 + (c.par.drop 4).length)) ∧
      t.ports = s.ports ∧ t.ridges = s.ridges ∧ t.otp = s.otp) ∧
  (∀ (pl : Place) (s : State) (c : Cmd) (img : List Byte), Turn pl 0x99 c s → img = cellsLoad s.svc.patchBuf 0 s.svc.patchHigh →
    Goes (.patchVerify pl) s fun t =>
      (∀ n, patchFault s.otp img img.length = some n →
        OnlyReply pl s t ∧ Answered pl c (if n < 3 then stFailed else stAuth) [byteOf n] t) ∧
      (patchFault s.otp img img.length = none →
        OnlyReply pl (({ s with svc := { s.svc with patch := img, patchRunning := false } } : State).markDirty 18) t ∧
          Answered pl c stOk (leBytes 2 (patchLevelOf img)) t)) ∧
  (∀ (pl : Place) (s : State) (c : Cmd), Turn pl 0x9A c s →
    Ends (.patchDrop pl) pl c s (({ s with svc := { s.svc with patch := [], patchRunning := false } } : State).markDirty 18) stOk []) ∧
  (∀ (pl : Place) (s : State) (c : Cmd), Turn pl 0xC0 c s →
    Waits (.diagCapture pl) pl c s { s with svc := { s.svc with capArmed := some (c.p8 0, c.p8 1, s.frame + c.p16 2, s.now) } } .capture) ∧
  (∀ (s : State) (r trigger due since : Nat), s.svc.capArmed = some (r, trigger, due, since) → s.locked = true →
    (captureTriggered s r trigger since = true →
      Goes .diagCaptureTrigger s fun t =>
        t.svc = { s.svc with
          capArmed := none, capFrame := s.frameCount, capDone := true
          capBuf := (cellsLoad (s.ridge r).eng.x 0 1280).flatMap fun w => leBytes 2 w.toNat } ∧
        t.ports = s.ports ∧ t.ridges = s.ridges ∧
        ∀ pl c, s.cmdAt pl = some c → c.wait = some .capture → t.cmdAt pl = none) ∧
    (due ≤ s.frame →
      Goes .diagCaptureTimeout s fun t =>
        t.svc = { s.svc with capArmed := none } ∧ t.ports = s.ports ∧ t.ridges = s.ridges ∧
        ∀ pl c, s.cmdAt pl = some c → c.wait = some .capture → t.cmdAt pl = none))
/-! ### Opcodes: ports, OTP, authentication, live service, cairns -/

/-- R306: `PORT_CTL` sends an attached port to ErrorRecovery with LAST_END 0xC, starts a cable attempt, or a new discovery; what may not run
answers STATE. -/
def Obligations.PortControlOpcodes : Prop :=
  ∀ (pl : Place) (s : State) (c : Cmd), s.Shaped → c.p8 0 < 24 →
    (Turn pl 0x30 c s → c.p8 1 = 1 →
      ((s.cc (c.p8 0)).st = .disabled ∨ (s.cc (c.p8 0)).st = .errorRecovery → Ends (.portErrorRecovery pl) pl c s s stState []) ∧
      ((s.cc (c.p8 0)).st ≠ .disabled → (s.cc (c.p8 0)).st ≠ .errorRecovery →
        Goes (.portErrorRecovery pl) s fun t =>
          OnlyPort (c.p8 0) s t ∧ (t.cc (c.p8 0)).st = .errorRecovery ∧ (t.pd (c.p8 0)).lastEnd = 0xC ∧ (t.pd (c.p8 0)).contract = {} ∧
            (t.path (c.p8 0)).swOn = false ∧ (t.vc (c.p8 0)).on = false)) ∧
    (Turn pl 0x30 c s → c.p8 1 = 2 → (s.vc (c.p8 0)).attempt = none →
      ((s.sw (c.p8 0)).vconnSrc = false → Ends (.portCableDiscover pl) pl c s s stState []) ∧
      ((s.sw (c.p8 0)).vconnSrc = true → (s.vc (c.p8 0)).good = true → sourcing s (c.p8 0) = true → s.quiet (c.p8 0) = true →
        Goes (.portCableDiscover pl) s fun t =>
          OnlyPort (c.p8 0) s t ∧ (t.vc (c.p8 0)).attempt = some s.frame ∧ (t.pd (c.p8 0)).tx = [.discoverIdentityPrime] ∧
            (t.vc (c.p8 0)).attempts = min 15 ((s.vc (c.p8 0)).attempts + 1) ∧ t.cmdAt pl = some { c with wait := some (.cable (c.p8 0)) })) ∧
    (Turn pl 0x30 c s → c.p8 1 = 3 → attachedPd s (c.p8 0) = true → (s.pd (c.p8 0)).contract.explicit = true →
      ((s.sw (c.p8 0)).dfp = false → Ends (.portRediscover pl) pl c s s stState []) ∧
      ((s.sw (c.p8 0)).dfp = true → (s.dc (c.p8 0)).step = none → s.mayStart (c.p8 0) = true →
        Goes (.portRediscover pl) s fun t =>
          OnlyPort (c.p8 0) s t ∧ (t.dc (c.p8 0)).step = some .identity ∧ (t.dc (c.p8 0)).status = 1 ∧ (t.dc (c.p8 0)).svids = [] ∧
            (t.pd (c.p8 0)).tx = [vdmAsk (s.pd (c.p8 0)) 0xFF00 1 0 []] ∧ t.cmdAt pl = some { c with wait := some (.discovery (c.p8 0)) }))

/-- R307 to R309, R311: a data role swap, Enter Mode, Exit Mode and a VDM are sent when a sequence may start, and refused with STATE where
they may not; a VDM without GoodCRC leads to Hard Reset; `MODE_TABLE` is written entry by entry with reserved bits zero. The model's choices
in it: when a step may start (log 33). -/
def Obligations.ModeOpcodes : Prop :=
  (∀ (pl : Place) (s : State) (c : Cmd), s.Shaped → c.p8 0 < 24 → s.mayStart (c.p8 0) = true → attachedPd s (c.p8 0) = true →
    (Turn pl 0x31 c s →
      ((s.pd (c.p8 0)).contract.explicit = false → Ends (.portDrSwap pl) pl c s s stState (leBytes 2 (swapStatus s (c.p8 0)))) ∧
      ((s.pd (c.p8 0)).contract.explicit = true → (s.sw (c.p8 0)).drSupp = none → (s.dc (c.p8 0)).entered = false →
        Goes (.portDrSwap pl) s fun t =>
          OnlyPort (c.p8 0) s t ∧ (t.sw (c.p8 0)).kind = some .dr ∧ (t.sw (c.p8 0)).mine = true ∧ (t.pd (c.p8 0)).tx = [.drSwap] ∧
            t.cmdAt pl = some { c with wait := some (.drSwap (c.p8 0)) })) ∧
    (Turn pl 0x32 c s → (s.sw (c.p8 0)).dfp = true → (s.dc (c.p8 0)).attempt = none →
      ((s.dc (c.p8 0)).entered = true → Ends (.modeEnter pl) pl c s s stState []) ∧
      (∀ r, (s.dc (c.p8 0)).entered = false → ((s.dc (c.p8 0)).status = 2 ∨ (s.dc (c.p8 0)).status = 6) →
        (s.dc (c.p8 0)).svids.find? (fun r => r.svid == c.p16 1) = some r → c.p8 3 ≤ r.modes.length →
        Goes (.modeEnter pl) s fun t =>
          OnlyPort (c.p8 0) s t ∧ (t.pd (c.p8 0)).tx = [vdmAsk (s.pd (c.p8 0)) (c.p16 1) 4 (c.p8 3) []] ∧ (t.dc (c.p8 0)).entered = false ∧
            (t.dc (c.p8 0)).attempt = some { svid := c.p16 1, pos := c.p8 3, entry := 8, sent := true, frame := s.frame } ∧
            t.cmdAt pl = some { c with wait := some (.modeEnter (c.p8 0)) })) ∧
    (Turn pl 0x33 c s →
      ((s.dc (c.p8 0)).entered = false → Ends (.modeExit pl) pl c s s stState []) ∧
      ((s.dc (c.p8 0)).entered = true →
        Goes (.modeExit pl) s fun t =>
          OnlyPort (c.p8 0) s t ∧ (t.pd (c.p8 0)).tx = [vdmAsk (s.pd (c.p8 0)) (s.dc (c.p8 0)).modeSvid 5 (s.dc (c.p8 0)).modePos []] ∧
            (t.dc (c.p8 0)).exitFrame = some s.frame ∧ t.cmdAt pl = some { c with wait := some (.modeExit (c.p8 0)) })) ∧
    (Turn pl 0x34 c s →
      (∀ g, (s.dc (c.p8 0)).entered = false → Ends (.vdmSend ⟨pl, g⟩) pl c s s stState []) ∧
      ((s.dc (c.p8 0)).entered = true → (s.dc (c.p8 0)).vdmFrame = none →
        (Goes (.vdmSend ⟨pl, false⟩) s fun t =>
          OnlyPort (c.p8 0) s t ∧ t.cmdAt pl = none ∧ (t.dc (c.p8 0)).entered = false ∧ (t.pd (c.p8 0)).lastEnd = 4 ∧
            (t.pd (c.p8 0)).tx = [.hardReset]) ∧
        Goes (.vdmSend ⟨pl, true⟩) s fun t =>
          OnlyPort (c.p8 0) s t ∧ Answered pl c stOk [] t ∧ (t.dc (c.p8 0)).vdmFrame = some s.frame ∧
            (t.pd (c.p8 0)).tx = [vdmAsk (s.pd (c.p8 0)) (s.dc (c.p8 0)).modeSvid (c.p8 1) (s.dc (c.p8 0)).modePos (vdosAt c 4 (c.p8 2))]))) ∧
  (∀ (pl : Place) (s : State) (c : Cmd), Turn pl 0x36 c s → c.plen = 128 → s.svc.modeTable.length = 128 → c.par.length = 128 →
    s.Shaped → (∀ i, i < 8 → s.older c (0xE6C0 + i) = false) →
    Goes (.modeTableWrite pl) s fun t =>
      Answered pl c stOk [] t ∧ (t.cairn 16).dirty = true ∧ t.ports = s.ports ∧
        ∀ i, i < 128 → t.svc.modeTable.getD i 0 =
          (if i % 16 = 5 then byteOf (c.p8 i % 2) else if i % 16 = 6 ∨ i % 16 = 7 then 0 else c.par.getD i 0))

/-- R320, R321, R331, R396, R408, R413: a burn ORs its words into the array and changes no other word; a locked region, a 0 asked where a 1
stands, a spent slot and a wrong length are refused with nothing burned; a burn cut short leaves the words burned so far and its command
unanswered; FINALISE locks its region; a key is drawn once. The model's choices
in it: a burn as one command (log 56), the order of refusals (log 57) and the drawn key (log 5, log 7). -/
def Obligations.BurningOpcodes : Prop :=
  ∀ (pl : Place) (s : State) (c : Cmd), s.MemOk →
    (Turn pl 0x71 c s → ∀ r : BurnResult,
      (s.otp.locked (regionOf (c.p16 0)) = true → Ends (.otpBurn pl r) pl c s s stLocked []) ∧
      (s.otp.locked (regionOf (c.p16 0)) = false →
        (∀ i, firstClash s.otp (c.p16 0) (wordsOf (c.p8 2) (c.par.drop 4)) = some i →
          Ends (.otpBurn pl r) pl c s s stFailed [2, byteOf i]) ∧
        (∀ l, firstClash s.otp (c.p16 0) (wordsOf (c.p8 2) (c.par.drop 4)) = none →
          burnShort r (runOf (c.p16 0) (wordsOf (c.p8 2) (c.par.drop 4))) = some l →
          Waits (.otpBurn pl r) pl c s { s with otp := s.otp.burnList r.weak l } .burn) ∧
        (firstClash s.otp (c.p16 0) (wordsOf (c.p8 2) (c.par.drop 4)) = none →
          burnShort r (runOf (c.p16 0) (wordsOf (c.p8 2) (c.par.drop 4))) = none →
          Goes (.otpBurn pl r) s fun t =>
            (∀ i, i < c.p8 2 → t.otp.lo (c.p16 0 + i) = s.otp.lo (c.p16 0 + i) ||| (wordsOf (c.p8 2) (c.par.drop 4)).getD i 0) ∧
            (∀ a, a < c.p16 0 ∨ c.p16 0 + c.p8 2 ≤ a → t.otp.lo a = s.otp.lo a ∧ t.otp.hi a = s.otp.hi a) ∧
            (r.weak = [] → Answered pl c stOk [] t) ∧ t.ports = s.ports ∧ t.params = s.params))) ∧
    (Turn pl 0x72 c s → ∀ r : BurnResult,
      (s.otp.locked (c.p8 0) = true → Ends (.finalise pl r) pl c s s stLocked []) ∧
      (s.otp.locked (c.p8 0) = false → s.otp.spent (2 * c.p8 0) = true → s.otp.spent (2 * c.p8 0 + 1) = true →
        Ends (.finalise pl r) pl c s s stState [2]) ∧
      (s.otp.locked (c.p8 0) = false → s.otp.spent (2 * c.p8 0) = false → s.otp.fillOf (c.p8 0) ≠ c.p16 2 →
        Ends (.finalise pl r) pl c s s stState (1 :: leBytes 2 (s.otp.fillOf (c.p8 0)))) ∧
      (s.otp.locked (c.p8 0) = false → s.otp.spent (2 * c.p8 0) = false → s.otp.fillOf (c.p8 0) = c.p16 2 →
        burnShort r (lockSteps s.otp r.weak (c.p8 0) (c.p16 2) 0) = none →
        (lockRegion s.otp r.weak (c.p8 0) (c.p16 2) 0).2 = true → c.p8 0 < 5 →
        Goes (.finalise pl r) s fun t =>
          Answered pl c stOk [0] t ∧ t.otp.locked (c.p8 0) = true ∧ t.otp.low = (lockRegion s.otp r.weak (c.p8 0) (c.p16 2) 0).1.low ∧
            t.ports = s.ports)) ∧
    (Turn pl 0xB0 c s → ∀ r : BurnResult,
      (s.otp.anyBit 192 16 = true → Ends (.authKeygen pl r) pl c s s stState []) ∧
      (s.otp.anyBit 192 16 = false → s.otp.locked 2 = true → Ends (.authKeygen pl r) pl c s s stLocked []) ∧
      (s.otp.anyBit 192 16 = false → s.otp.locked 2 = false → r.weak = [] → r.cut = none →
        Goes (.authKeygen pl r) s fun t =>
          Answered pl c stOk (idPublic t) t ∧ (∀ a, a < 192 ∨ 209 ≤ a → t.otp.lo a = s.otp.lo a) ∧
            t.otp.keyState = t.otp.keyStateNow ∧ t.ports = s.ports ∧ t.params = s.params))

/-- R322, R323, R418, R420: `CAL_CAPTURE` refuses a channel out of condition, and else waits for 500 paces with codes of its channel, whose mean
stages an offset or a trim, or is refused within 256 of the offset; `CAL_BURN` refuses with nothing staged, with no unused generation, or
with CALIBRATION locked, and ends the staging. The model's choices in it: the fixture's load as an operand (log 41) and the tie of a nearest
code (log 3). -/
def Obligations.CalibrationOpcodes : Prop :=
  ∀ (pl : Place) (s : State) (c : Cmd),
    (∀ (load gain : Bool) (ch : Nat), Turn pl 0x74 c s → chanOf s (c.p16 0) = some ch → gain = (rdS16 c.par 2 != 0) →
      (captureOk s ch gain load = false → Ends (.calCapture pl load) pl c s s stState []) ∧
      (captureOk s ch gain load = true →
        Waits (.calCapture pl load) pl c s
          { s with captures := s.captures.filter (fun x => !(x.chan == ch && x.gain == gain)) ++ [{ chan := ch, gain := gain, truth := rdS16 c.par 2 }] }
          (.calCapture ch gain))) ∧
    ((∀ (m : PaceSense) (x : CalCapture), s.captures = [x] → chanCodes m x.chan ≠ [] →
        (x.paces < 499 → capturePaces m s =
          { s with captures := [{ x with
              paces := x.paces + 1, sum := x.sum + (chanCodes m x.chan).sum, codes := x.codes + (chanCodes m x.chan).length }] }) ∧
        (x.paces = 499 → capturePaces m s = captureDone { s with captures := [] } { x with
          paces := 500, sum := x.sum + (chanCodes m x.chan).sum, codes := x.codes + (chanCodes m x.chan).length })) ∧
      (∀ (m : PaceSense) (x : CalCapture), s.captures = [x] → x.paces < 500 → chanCodes m x.chan = [] → capturePaces m s = s) ∧
      ∀ (x : CalCapture) (mean : Nat) (d : Int), x.codes ≠ 0 → mean = roundDivNat x.sum x.codes → d = (mean : Int) - zNom x.chan - offsetNow s.otp x.chan →
        (x.gain = false →
          captureDone s x = (stagePoint s x.chan false ((mean : Int) - zNom x.chan) 0).finishWait (.calCapture x.chan false) stOk (leBytes 2 mean ++ [0]) ∧
            stagedOf (captureDone s x).otp x.chan false = some (max (-128) (min 127 ((mean : Int) - zNom x.chan)), 0)) ∧
        (x.gain = true → d.natAbs ≤ 256 → captureDone s x = s.finishWait (.calCapture x.chan true) stFailed [1]) ∧
        (x.gain = true → 256 < d.natAbs → ∃ trim : Int, -1024 ≤ trim ∧ trim ≤ 1023 ∧
          stagedOf (captureDone s x).otp x.chan true = some (trim, min 31 (x.truth.natAbs / lStep x.chan)) ∧
          (captureDone s x).otp.low = s.otp.low ∧ (captureDone s x).otp.high = s.otp.high ∧ (captureDone s x).ports = s.ports)) ∧
    (∀ r : BurnResult, Turn pl 0x75 c s →
      (s.otp.staged = [] → Ends (.calBurn pl r) pl c s s stState [1]) ∧
      (s.otp.staged ≠ [] → nextGen s.otp = none → Ends (.calBurn pl r) pl c s s stState [2]) ∧
      (∀ g, s.otp.staged ≠ [] → nextGen s.otp = some g → s.otp.locked 3 = true → Ends (.calBurn pl r) pl c s s stLocked []) ∧
      (∀ g, s.otp.staged ≠ [] → nextGen s.otp = some g → s.otp.locked 3 = false → r.weak = [] → r.cut = none → s.MemOk →
        Goes (.calBurn pl r) s fun t =>
          Answered pl c stOk [] t ∧ t.otp.staged = [] ∧ t.otp.lo (256 + g) ≠ 0 ∧
            (∀ j, j < 80 → t.otp.lo (genBase g + j) = (newGenWords s.otp).getD j 0) ∧ t.ports = s.ports))

/-- R144, R331: the chain loads in pieces and is installed when whole and sound; a run is begun towards the partner, its answers advance it
and end it with a verdict; requests of the partner are answered from slot 0, with ERROR while no chain is loaded. The model's choices in it:
the verdicts of chain and signature and the signed message (log 6, log 8). -/
def Obligations.Authentication : Prop :=
  (∀ (pl : Place) (s : State) (c : Cmd), Turn pl 0xB2 c s →
    c.p16 0 = 0 → (c.par.drop 4).length = c.p16 2 →
    Goes (.authChainLoad pl) s fun t =>
      t.svc.chainNew = [] ∧ t.ports = s.ports ∧ t.otp = s.otp ∧
        (chainOk s (c.par.drop 4) = true → Answered pl c stOk [] t ∧ t.svc.chain = c.par.drop 4) ∧
        (chainOk s (c.par.drop 4) = false → Answered pl c stFailed [1] t ∧ t.svc.chain = s.svc.chain)) ∧
  (∀ (pl : Place) (s : State) (c : Cmd), Turn pl 0xB2 c s →
    (c.par.drop 4).length < c.p16 2 → c.p16 0 = 0 →
    Goes (.authChainLoad pl) s fun t =>
      Answered pl c stOk [] t ∧ t.svc.chain = s.svc.chain ∧ t.svc.chainNew = c.par.drop 4 ∧ t.svc.chainTotal = c.p16 2 ∧ t.ports = s.ports) ∧
  (∀ (pl : Place) (s : State) (c : Cmd), s.Shaped → Turn pl 0xB3 c s → c.p8 0 < 24 → attachedPd s (c.p8 0) = true →
    (s.pd (c.p8 0)).contract.explicit = true → (s.pd (c.p8 0)).rev20 = false → s.svc.initPort = none → s.mayStart (c.p8 0) = true →
    Goes (.authInitiate pl) s fun t =>
      t.svc.initPort = some (c.p8 0) ∧ t.svc.initStep = 0 ∧ (t.pd (c.p8 0)).tx = [.secRequest 0] ∧ (t.port (c.p8 0)).peerChain = [] ∧
        t.cmdAt pl = some { c with wait := some (.authInit (c.p8 0)) } ∧ ∀ q, q ≠ c.p8 0 → t.port q = s.port q) ∧
  (∀ (s : State) (p : Nat), s.Shaped → p < 24 → attachedPd s p = true →
    (∀ q, (s.pd p).rev20 = true → Goes (.securityRequest p q) s fun t => PortAlone p s t ∧ (t.pd p).tx = [.notSupported]) ∧
    (∀ q, (s.pd p).rev20 = false → s.svc.chain = [] → s.quiet p = true →
      Goes (.securityRequest p q) s fun t => PortAlone p s t ∧ (t.pd p).tx = [.secError]) ∧
    ((s.pd p).rev20 = false → s.svc.chain ≠ [] → s.otp.idUsable = true → s.quiet p = true →
      Goes (.securityRequest p .getDigests) s fun t => (t.pd p).tx = [.secDigests (sha256 s.svc.chain)] ∧ t.svc = s.svc) ∧
    (∀ chain, s.svc.initPort = some p → s.svc.initStep = 1 →
      Goes (.securityResponse p (.certificate chain)) s fun t =>
        (t.port p).peerChain = chain ∧
          (Config.chainWellFormed chain = true → t.svc.initStep = 2 ∧ (t.pd p).tx = [.secRequest 2] ∧ t.svc.initPort = some p) ∧
          (Config.chainWellFormed chain = false → t.svc.initPort = none)) ∧
    (∀ r, s.svc.initPort = some p → (r = .none ∨ r = .error) →
      Goes (.securityResponse p r) s fun t =>
        t.svc.initPort = none ∧ t.svc.initStep = 0 ∧ (t.pd p).contract = (s.pd p).contract ∧ ∀ q, q ≠ p → t.port q = s.port q))

/-- R329, R330, R439, R441, R442: live-service commands answer LOCKED without their OTP enable, STATE where they may not run, and else keep
their place with the action noted; `PORT_RECAL` counts the paces that meet its condition and stages the means of their codes; a restart is
readied and answered at once. The model's choice in it: whether the pace in which `PORT_RECAL` executes counts (log 41). -/
def Obligations.LiveServiceOpcodes : Prop :=
  ∀ (pl : Place) (s : State) (c : Cmd),
    (Turn pl 0xA0 c s →
      (liveInOtp s = false → Ends (.phaseRetire pl) pl c s s stLocked []) ∧
      (liveInOtp s = true → s.liveOn = false → Ends (.phaseRetire pl) pl c s s stState []) ∧
      (liveInOtp s = true → s.liveOn = true → (s.phase (c.p8 0)).stopped = false → (s.phase (c.p8 0)).retired = false →
        inLiveAction s (c.p8 0) = false → c.p8 1 = 1 →
        Goes (.phaseRetire pl) s fun t =>
          t.retiring = s.retiring ++ [(c.p8 0, s.frame)] ∧ t.cmdAt pl = some { c with wait := some (.retire (c.p8 0)) } ∧
            t.phases = s.phases ∧ t.ports = s.ports ∧ t.ledger = s.ledger)) ∧
    (∀ mv, Turn pl 0xA1 c s →
      (liveInOtp s = false → Ends (.phaseReadmit pl mv) pl c s s stLocked []) ∧
      (liveInOtp s = true → s.liveOn = true → (s.phase (c.p8 0)).retired = true → inLiveAction s (c.p8 0) = false →
        (mv < 700 → Ends (.phaseReadmit pl mv) pl c s s stFailed [1]) ∧
        (700 ≤ mv → Waits (.phaseReadmit pl mv) pl c s { s with readmitting := s.readmitting ++ [c.p8 0] } (.readmit (c.p8 0))))) ∧
    (Turn pl 0xA2 c s → liveInOtp s = true → s.liveOn = true → (s.path (c.p8 0)).recalPaces = 0 →
      ∀ v i, (offsetOk s (c.p8 0) = false → Ends (.portRecal pl v i) pl c s s stState []) ∧
        (offsetOk s (c.p8 0) = true → Waits (.portRecal pl v i) pl c s (s.updPath (c.p8 0) (recalBegun v i)) (.recal (c.p8 0)))) ∧
    (∀ v i h, (recalBegun v i h).recalPaces + (if v = [] ∧ i = [] then 0 else 1) = 5000 ∧ (recalBegun v i h).recalV = v.sum ∧
      (recalBegun v i h).recalVn = v.length ∧ (recalBegun v i h).recalI = i.sum ∧ (recalBegun v i h).recalIn = i.length) ∧
    (∀ (m : PaceSense) (p v i : Nat), s.Shaped → p < 24 →
      (offsetOk s p = false ∨ (s.path p).recalPaces = 0 → recalPace m p s = s) ∧
      (offsetOk s p = true → 1 < (s.path p).recalPaces →
        PortAlone p s (recalPace m p s) ∧ ((recalPace m p s).path p).recalPaces = (s.path p).recalPaces - 1 ∧
          ((recalPace m p s).path p).recalV = (s.path p).recalV + (chanCodes m (72 + p)).sum ∧
          ((recalPace m p s).path p).recalI = (s.path p).recalI + (chanCodes m (48 + p)).sum) ∧
      (offsetOk s p = true → (s.path p).recalPaces = 1 →
        v = roundDivNat ((s.path p).recalV + (chanCodes m (72 + p)).sum) (max 1 ((s.path p).recalVn + (chanCodes m (72 + p)).length)) →
        i = roundDivNat ((s.path p).recalI + (chanCodes m (48 + p)).sum) (max 1 ((s.path p).recalIn + (chanCodes m (48 + p)).length)) →
        stagedOf (recalPace m p s).otp (72 + p) false = some (max (-128) (min 127 ((v : Int) - 64)), 0) ∧
          stagedOf (recalPace m p s).otp (48 + p) false = some (max (-128) (min 127 ((i : Int) - 2048)), 0) ∧
          ((recalPace m p s).path p).recalPaces = 0 ∧ (recalPace m p s).anyWait (.recal p) = false)) ∧
    (Turn pl 0xA4 c s →
      (marginInOtp s = false → Ends (.ageingMeasure pl) pl c s s stLocked []) ∧
      (marginInOtp s = true → s.marginOn = true → exclCode s (c.p8 0) = 0 → s.ageQueue.contains (c.p8 0) = false →
        Waits (.ageingMeasure pl) pl c s { s with ageQueue := s.ageQueue ++ [c.p8 0] } (.ageing (c.p8 0)))) ∧
    (Turn pl 0xA3 c s → c.p8 0 ≤ 1 →
      (liveInOtp s = false →
        (c.p8 0 = 0 → Ends (.supRestartPatch pl) pl c s s stLocked []) ∧ (c.p8 0 = 1 → Ends (.supRestartRom pl) pl c s s stLocked [])) ∧
      (liveInOtp s = true → s.liveOn = true → s.burnPending = false → (s.ridges.any fun q => q.switchPending) = false →
        (c.p8 0 = 0 → Ends (.supRestartPatch pl) pl c s
          { s with sup := { s.sup with st := .readied, romOnly := false, readyFrame := s.frame, replyRead := false } } stOk []) ∧
        (c.p8 0 = 1 → Ends (.supRestartRom pl) pl c s
          { s with sup := { s.sup with st := .readied, romOnly := true, readyFrame := s.frame, replyRead := false } } stOk [])))

/-- R324, R426, R427: `CAIRN_SYNC` marks every cairn dirty and waits; `CAIRN_DROP` empties the cairns of its mask, unless a write is open; the
lowest dirty cairn is written: STATE 3 while open, then STATE 1 with its CRC, its length, its frame and one more write. -/
def Obligations.Cairns : Prop :=
  (∀ (pl : Place) (s : State) (c : Cmd), s.Shaped → Turn pl 0x80 c s →
    Goes (.cairnSync pl) s fun t =>
      (∀ n, n < 25 → t.cairn n = { s.cairn n with dirty := true }) ∧ t.cmdAt pl = some { c with wait := some .cairnSync } ∧
        t.ports = s.ports ∧ t.ret.writing = s.ret.writing) ∧
  (∀ (pl : Place) (s : State) (c : Cmd), s.Shaped → Turn pl 0x81 c s →
    (s.ret.writing.isSome = true → Ends (.cairnDrop pl) pl c s s stBusy []) ∧
    (s.ret.writing = none →
      Goes (.cairnDrop pl) s fun t =>
        Answered pl c stOk [] t ∧ t.ports = s.ports ∧
        ∀ n, n < 25 → t.cairn n = (if (rdLe c.par 0 8).testBit n then { s.cairn n with state := 4, dirty := false } else s.cairn n))) ∧
  (∀ (s : State) (n : Nat), s.Shaped → writesCairns s = true → s.firstDirty = some n →
    Goes .cairnWriteBegin s fun t =>
      t.ret.writing = some n ∧ (t.cairn n).state = 3 ∧ (t.cairn n).dirty = false ∧ (t.cairn n).buf = cairnRecord s n ∧
        (∀ m, m ≠ n → t.cairn m = s.cairn m) ∧ t.ports = s.ports ∧ t.params = s.params) ∧
  (∀ (s : State) (n : Nat), s.Shaped → n < 25 → s.ret.writing = some n → s.locked = true →
    Goes .cairnWriteComplete s fun t =>
      t.ret.writing = none ∧ (t.cairn n).state = 1 ∧ (t.cairn n).record = (s.cairn n).buf ∧
        (t.cairn n).crc = crc32 (s.cairn n).buf ∧ (t.cairn n).written = s.frameCount ∧ (t.cairn n).writes = (s.cairn n).writes + 1 ∧
        (∀ m, m ≠ n → t.cairn m = s.cairn m) ∧ t.ports = s.ports)
/-! ### Type-C (R52 to R79) -/

/-- The state a port goes to when it goes home (R59, R112, R57, R251). -/
def homeOf (s : State) (p mode : Nat) : CcSt :=
  if (s.cc p).toOutOfService then .outOfService
  else if s.seq.mode = .serviceBoot ∧ s.seq.bootPort = some p then .unattachedSnk
  else if s.preService = true ∨ (mode = 2 ∧ s.seq.reduced = false) then .disabled else .unattachedSrc

/-- The events of the Type-C layer and of the path of port p. -/
def TypeCEvent (p : Nat) (c : Instr) : Prop :=
  c ∈ [.toggleSourceEnd p, .toggleSinkEnd p, .attachDebounceSrc p, .attachDebounceSnk p, .attachwaitTimeout p, .unexpectedVbus p,
   .portSwitchClose p, .vbusStartCheck p, .errorRecoveryEnd p, .sinkVbusLoss p, .detachByDebounce p, .detachByCurrent p,
   .detachSwitchOpen p, .vbusDischargeComplete p, .vbusDischargeTimeout p, .vconnFaultTimerTrip p, .vconnHardTrip p,
   .vconnReverseBlock p, .vconnSupplyLoss p, .vconnDischargeEnd p, .passiveRdTakeover p, .attachModeChange p, .aonDischargeTimeout p] ++
    [.portCloseTimeout p, .portFaultTimerTrip p, .portFaultTimerReset p, .portOvervoltage p, .portTripCountClear p, .overdrawTypecEnd p] ∨
  (∃ b, c = .vconnGood ⟨p, b⟩ ∨ c = .portCloseComplete ⟨p, b⟩) ∨ ∃ n, c = .portFastTrip ⟨p, n⟩ ∨ c = .portReverseBlock ⟨p, n⟩

/-- Frame of the Type-C and port path events: in every state each completes, and it changes nothing of the block but port p, the event queue,
attention, the fault pin, reply slots, the tunnel session and the initiator of R331. -/
def Obligations.TypeCEventsTouchOnlyTheirPort : Prop :=
  ∀ (p : Nat) (s : State) (c : Instr), TypeCEvent p c → Goes c s (OnlyPort p s)

/-- R63, R59, R64: a sniff that sees Rd on one line and open or Ra on the other leaves Unattached.SRC for AttachWait.SRC with that line as
candidate; the toggle's source part ends after 28 frames and a new period of 80 to 87 frames begins when the old one ends. R59, R112, R57,
R58: AttachWait without its termination for 15 frames and ErrorRecovery that ends go home; a changed `ATTACH_MODE` puts the port into
Disabled (LAST_END 0xC) or sends an unattached port home again. The model's choices in it: a port on its way out of service (log 32). -/
def Obligations.TogglesAndHomes : Prop :=
  ((∀ (s : State) (p : Nat) (seen : List (List Nat × List Nat)), s.Shaped → s.serves p = true →
    (s.cc p).st = .unattachedSrc → s.frameCount % 4 = 0 → s.pace = 107 → seen.length = 8 →
    sniffClass (seen.map fun x => (s.cc p).held x.1) (s.cc p).cc1 = .rd →
    (sniffClass (seen.map fun x => (s.cc p).held x.2) (s.cc p).cc2 = .opn ∨
      sniffClass (seen.map fun x => (s.cc p).held x.2) (s.cc p).cc2 = .ra) →
    Goes (.ccSniff p seen) s fun t =>
      PortAlone p s t ∧ (t.cc p).st = .attachWaitSrc ∧ (t.cc p).debLine = 1 ∧ (t.cc p).cc1 = .rd ∧ (t.cc p).alloc = true ∧
        (t.cc p).since = s.now) ∧
  (∀ (s : State) (p : Nat), s.Shaped → toggles s p = true → (s.cc p).st = .unattachedSrc → (s.cc p).toggleFrame + 28 ≤ s.frame →
    Goes (.toggleSourceEnd p) s fun t =>
      PortAlone p s t ∧ (t.cc p).st = .unattachedSnk ∧ (t.cc p).togglePeriod = (s.cc p).togglePeriod ∧ (t.cc p).lfsr = (s.cc p).lfsr) ∧
  (∀ (s : State) (p : Nat), s.Shaped → toggles s p = true → (s.cc p).st = .unattachedSnk →
    (s.cc p).toggleFrame + (s.cc p).togglePeriod ≤ s.frame →
    Goes (.toggleSinkEnd p) s fun t =>
      PortAlone p s t ∧ (t.cc p).st = .unattachedSrc ∧ (t.cc p).toggleFrame = s.frame ∧
        (t.cc p).lfsr = lfsrStep (lfsrStep (lfsrStep (s.cc p).lfsr)) ∧
        (t.cc p).togglePeriod = 80 + (t.cc p).lfsr.toNat % 8)) ∧
  ((∀ (s : State) (p : Nat), s.Shaped → s.serves p = true → ((s.cc p).st = .attachWaitSrc ∨ (s.cc p).st = .attachWaitSnk) →
    (s.cc p).debLine = 0 → (s.cc p).goneFrom + 7500 ≤ s.now →
    Goes (.attachwaitTimeout p) s fun t =>
      PortAlone p s t ∧ (t.cc p).st = homeOf s p (s.cc p).mode ∧ (t.cc p).alloc = false) ∧
  (∀ (s : State) (p : Nat), s.Shaped → s.serves p = true → (s.cc p).st = .errorRecovery → (s.cc p).since + 15000 ≤ s.now →
    (s.cc p).vbusMv < 800 →
    Goes (.errorRecoveryEnd p) s fun t =>
      PortAlone p s t ∧ (t.cc p).st = homeOf s p (s.cc p).mode ∧ (t.cc p).alloc = false) ∧
  (∀ (s : State) (p : Nat), s.Shaped → s.serves p = true → s.atBoundary = true → s.seq.mode ≠ .serviceBoot → s.seq.full = true →
    (s.cc p).mode ≠ portParam s p 0x20 → portParam s p 0x20 = 2 → (s.cc p).st ≠ .disabled →
    Goes (.attachModeChange p) s fun t =>
      OnlyPort p s t ∧ (t.cc p).st = .disabled ∧ (t.cc p).disabledBy = .host ∧ (t.path p).swOn = false ∧ (t.vc p).on = false ∧
        (t.pd p).contract = {} ∧ (t.pd p).lastEnd = 0xC) ∧
  (∀ (s : State) (p : Nat), s.Shaped → s.serves p = true → s.atBoundary = true → s.seq.mode ≠ .serviceBoot → s.seq.full = true →
    (s.cc p).mode ≠ portParam s p 0x20 → portParam s p 0x20 ≠ 2 →
    ((s.cc p).st = .unattachedSrc ∨ (s.cc p).st = .unattachedSnk ∨ (s.cc p).st = .attachWaitSrc ∨ (s.cc p).st = .attachWaitSnk) →
    Goes (.attachModeChange p) s fun t =>
      PortAlone p s t ∧ (t.cc p).st = homeOf s p (portParam s p 0x20) ∧ (t.cc p).mode = portParam s p 0x20))

/-- R59, R61, R65, R116: the debounces end in Attached.SRC and Attached.SNK with orientation and roles latched; the switch begins to close at
4.75 V to 5.50 V; the 20-frame VBUS check; unexpected VBUS. -/
def Obligations.AttachAndClose : Prop :=
  (∀ (s : State) (p : Nat), s.Shaped → s.serves p = true → (s.cc p).st = .attachWaitSrc → (s.cc p).debLine ≠ 0 →
    (s.cc p).debFrom + 75000 ≤ s.now → (s.cc p).vbusMv < 800 → ¬((s.cc p).cc1 = .rd ∧ (s.cc p).cc2 = .rd) →
    Goes (.attachDebounceSrc p) s fun t =>
      OnlyPort p s t ∧ (t.cc p).st = .attachedSrc ∧ ((t.cc p).onCc2 = true ↔ (s.cc p).debLine = 2) ∧
        (t.cc p).rp = rpOf s p ∧ (t.pd p).contract = typecContract (rpOf s p) ∧ (t.sw p).source = true ∧ (t.sw p).dfp = true ∧
        (t.port p).attachFrame = some s.frame ∧ (t.path p).vtgt = 2500 ∧ (t.port p).counters = (s.port p).counters.modify 0 sat1 ∧
        ((t.cc p).alloc = true ↔ ((s.cc p).alloc = true ∧ s.placed p = false))) ∧
  (∀ (s : State) (p : Nat), s.Shaped → s.serves p = true → s.seq.mode ≠ .serviceBoot → (s.cc p).st = .attachWaitSnk →
    (s.cc p).debLine ≠ 0 → (s.cc p).debFrom + 75000 ≤ s.now → 4000 ≤ (s.cc p).vbusMv →
    Goes (.attachDebounceSnk p) s fun t =>
      OnlyPort p s t ∧ (t.cc p).st = .attachedSnk ∧ ((t.cc p).onCc2 = true ↔ (s.cc p).debLine = 2) ∧ (t.sw p).source = false ∧
        (t.sw p).dfp = false ∧ (t.path p).swOn = true ∧ (t.path p).ppg = false ∧ (t.port p).attachFrame = some s.frame) ∧
  (∀ (s : State) (p : Nat), s.Shaped → s.serves p = true → (s.cc p).st = .attachedSrc → (s.cc p).detach = 0 →
    (s.path p).swOn = false → (s.pd p).hrFrame = none → 2375 ≤ (s.path p).vAvg → (s.path p).vAvg ≤ 2750 →
    ((s.vc p).on = false ∨ (s.vc p).good = true) →
    Goes (.portSwitchClose p) s fun t =>
      PortAlone p s t ∧ (t.path p).swOn = true ∧ (t.path p).closing = true ∧ (t.path p).ppg = false ∧ t.cc p = s.cc p ∧ t.pd p = s.pd p) ∧
  (∀ (s : State) (p : Nat), s.Shaped → s.serves p = true → (s.cc p).st = .attachedSrc → (s.cc p).vbusChecked = false →
    (s.cc p).detach = 0 → (s.pd p).hrFrame = none → (s.cc p).since + 10000 ≤ s.now →
    (4750 ≤ s.vbus p → s.vbus p ≤ 5500 →
      Goes (.vbusStartCheck p) s fun t => PortAlone p s t ∧ (t.cc p).vbusChecked = true ∧ (t.cc p).st = .attachedSrc ∧ t.path p = s.path p) ∧
    ((s.vbus p < 4750 ∨ 5500 < s.vbus p) →
      Goes (.vbusStartCheck p) s fun t =>
        OnlyPort p s t ∧ (t.cc p).st = .errorRecovery ∧ (t.pd p).lastEnd = 0xE ∧ (t.cc p).flt.sticky.getLsbD 1 = true ∧
          (t.path p).swOn = false)) ∧
  (∀ (s : State) (p f : Nat), s.Shaped → s.serves p = true → (s.cc p).st = .attachWaitSrc → (s.cc p).unexpSet = false →
    (s.cc p).vbusHighFrom = some f → f + 325000 ≤ s.now →
    Goes (.unexpectedVbus p) s fun t =>
      OnlyPort p s t ∧ (t.cc p).unexpSet = true ∧ (t.cc p).flt.sticky.getLsbD 0 = true ∧ (t.cc p).st = .attachWaitSrc)

/-- R71 to R73, R109, R59: a qualified detach voids the contract (LAST_END 1, or 2 with a transition in progress); its switches open at the
next boundary with the discharge connected; the discharge ends below 0.8 V, or after 650 frames in Disabled; VBUS lost as sink, which connects no discharge. The model's
choices in it: LAST_END 1 of a sink that lost VBUS (log 25). -/
def Obligations.DetachOfAPort : Prop :=
  (∀ (s : State) (p f : Nat), s.Shaped → s.serves p = true → (s.cc p).st = .attachedSrc → (s.cc p).detach = 0 →
    (s.cc p).openFrom = some f → f + 7500 ≤ s.now →
    Goes (.detachByDebounce p) s fun t =>
      OnlyPort p s t ∧ (t.cc p).detach = 1 ∧ (t.cc p).detachFrame = s.frame ∧ (t.pd p).contract = {} ∧ (t.sw p).kind = none ∧
        (t.dc p).entered = false ∧ (t.path p).detach = true ∧ (t.pd p).lastEnd = (if (s.pd p).next.isSome then 2 else 1)) ∧
  (∀ (s : State) (p : Nat), s.Shaped → s.serves p = true → (s.cc p).st = .attachedSrc → (s.cc p).detach = 0 → (s.sw p).kind = none →
    4 ≤ (s.cc p).openLowRun →
    Goes (.detachByCurrent p) s fun t =>
      OnlyPort p s t ∧ (t.cc p).detach = 2 ∧ (t.pd p).contract = {} ∧ (t.path p).detach = true ∧
        (t.pd p).lastEnd = (if (s.pd p).next.isSome then 2 else 1)) ∧
  (∀ (s : State) (p : Nat), s.Shaped → s.serves p = true → s.atBoundary = true → (s.cc p).detach ≠ 0 → (s.cc p).detachFrame < s.frame →
    Goes (.detachSwitchOpen p) s fun t =>
      PortAlone p s t ∧ (t.path p).swOn = false ∧ (t.path p).ppg = false ∧ (t.vc p).on = false ∧ (t.cc p).disch = true ∧
        (t.cc p).dischDetach = true ∧ (t.cc p).st = homeOf s p (s.cc p).mode ∧ (t.port p).attachFrame = none) ∧
  (∀ (s : State) (p : Nat), s.Shaped → p < 24 → (s.cc p).disch = true → (s.cc p).vbusMv < 800 →
    Goes (.vbusDischargeComplete p) s fun t =>
      PortAlone p s t ∧ (t.cc p).disch = false ∧ (t.cc p).dischDetach = false ∧ (t.cc p).st = (s.cc p).st) ∧
  (∀ (s : State) (p : Nat), s.Shaped → s.serves p = true → (s.cc p).disch = true → (s.cc p).dischDetach = true →
    800 ≤ s.vbus p → (s.cc p).detachFrame + 650 ≤ s.frame →
    Goes (.vbusDischargeTimeout p) s fun t =>
      OnlyPort p s t ∧ (t.cc p).st = .disabled ∧ (t.cc p).disabledBy = .discharge ∧ (t.cc p).disch = true ∧
        (t.cc p).flt.sticky.getLsbD 5 = true) ∧
  (∀ (s : State) (p : Nat), s.Shaped → s.serves p = true → (s.cc p).st = .attachedSnk → 4 ≤ (s.cc p).lowRun →
    (s.pd p).next = none → (s.sw p).kind = none → (s.pd p).snkRestore = none →
    Goes (.sinkVbusLoss p) s fun t =>
      OnlyPort p s t ∧ (t.cc p).st = homeOf s p (s.cc p).mode ∧ (t.cc p).disch = (s.cc p).disch ∧ (t.pd p).lastEnd = 1 ∧ (t.pd p).contract = {} ∧ (t.path p).swOn = false)

/-- R67 to R70, R85: VCONN good after a frame at 4.50 V; a trip, a reverse block or a loss of supply opens the switch for the rest of the
attach, sets its sticky bit and loses the cable for the offer; the pull-down ends below 0.30 V. The model's
choice in it: that VCONN_GOOD then stands (log 67). -/
def Obligations.VconnOfAPort : Prop :=
  (∀ (s : State) (p f : Nat) (b : Bool), s.Shaped → s.serves p = true → (s.vc p).on = true → (s.vc p).good = false → (s.vc p).goodFrom = some f →
    f + 500 ≤ s.now → (s.sw p).kind = none →
    Goes (.vconnGood ⟨p, b⟩) s fun t =>
      PortAlone p s t ∧ (t.vc p).good = true ∧ (t.vc p).on = true ∧
        (t.vc p).attemptsDue = (if (s.pd p).started then some (s.frame + 1) else none)) ∧
  (∀ (s : State) (p : Nat) (c : Instr) (b : Nat), s.Shaped → s.serves p = true → (s.vc p).on = true →
    ((c = .vconnFaultTimerTrip p ∧ b = 2 ∧ ∃ f, (s.vc p).limitFrom = some f ∧ f + 1000 ≤ s.now) ∨
      (c = .vconnHardTrip p ∧ b = 3) ∨ (c = .vconnReverseBlock p ∧ b = 4)) →
    Goes c s fun t =>
      OnlyPort p s t ∧ (t.vc p).on = false ∧ (t.vc p).blocked = true ∧ (t.vc p).lost = true ∧ (t.sw p).vconnSrc = false ∧
        (t.pd p).cableChanged = true ∧ (t.cc p).flt.sticky.getLsbD b = true ∧ (t.cc p).st = (s.cc p).st ∧
        (t.port p).counters = (s.port p).counters.modify 8 sat1) ∧
  (∀ (s : State) (p : Nat), s.Shaped → s.serves p = true → (s.vc p).on = true → (s.ridge (ridgeOfPort p)).vconnInGood = false →
    Goes (.vconnSupplyLoss p) s fun t =>
      OnlyPort p s t ∧ (t.vc p).on = false ∧ (t.vc p).blocked = true ∧ (t.sw p).vconnSrc = false ∧ (t.cc p).flt.sticky.getLsbD 7 = true ∧
        (t.port p).counters = (s.port p).counters) ∧
  (∀ (s : State) (p : Nat), s.Shaped → s.serves p = true → (s.vc p).pulldown.isSome = true → (s.vc p).mv < 300 →
    Goes (.vconnDischargeEnd p) s fun t => PortAlone p s t ∧ (t.vc p).pulldown = none ∧ (t.vc p).on = (s.vc p).on)
/-! ### Contracts (R80 to R115) -/

/-- What a Hard Reset with `LAST_END` `code` leaves on port p (R108, R110); the third in a row outside a swap ends in ErrorRecovery. -/
def AfterHardReset (p code : Nat) (sent : Bool) (s t : State) : Prop :=
  OnlyPort p s t ∧ (t.pd p).contract = {} ∧ (t.pd p).next = none ∧ (t.pd p).epr = false ∧ (t.pd p).lastEnd = code ∧
    (t.sw p).kind = none ∧ (t.dc p).entered = false ∧ (t.vc p).on = false ∧
    ((s.pd p).hrRun < 2 →
      (t.pd p).tx = (if sent then [.hardReset] else []) ∧ (t.pd p).hrRun = (s.pd p).hrRun + 1 ∧
        ((t.cc p).st = .attachedSrc → (t.pd p).hrFrame = some s.frame ∧ (t.pd p).started = false) ∧
        ((t.cc p).st = .attachedSnk → (t.pd p).hrFrame = none ∧ (t.pd p).started = s.policyUp ∧ (t.pd p).snkRestore.isSome = true)) ∧
    (2 ≤ (s.pd p).hrRun → (s.sw p).kind = none → (s.cc p).st = .attachedSrc → (t.cc p).st = .errorRecovery ∧ (t.cc p).flt.sticky.getLsbD 6 = true)

/-- R83, R97, R101, R104, R105, R107, R108, R111, R114, R127: the events that end a contract in Hard Reset, each with its `LAST_END` code.
The model's choices in it: code 4 for the check of a sink (log 30). -/
def Obligations.HardResetCauses : Prop :=
  ∀ (s : State) (p : Nat), s.Shaped → p < 24 →
    (attachedPd s p = true → (s.pd p).tx ≠ [] → Goes (.goodcrcRetryFail p false) s (AfterHardReset p 4 true s)) ∧
    (attachedPd s p = true → s.ran (s.pd p).awaiting 27 = true → Goes (.senderResponseTimeout p false) s (AfterHardReset p 4 true s)) ∧
    (attachedPd s p = true → s.ran (s.pd p).softReset 27 = true → Goes (.softResetTimeout p) s (AfterHardReset p 4 true s)) ∧
    (∀ c, sourcing s p = true → (s.pd p).next = some c → (s.pd p).slewing = false → placedFor s p = false →
      (s.pd p).acceptFrame + (if 4 ≤ c.kind then 400 else 200) ≤ s.frame →
      Goes (.phasesNotPlacedTimeout p) s (AfterHardReset p 8 true s)) ∧
    (sourcing s p = true → (s.pd p).contract.kind = 3 → (s.pd p).lastReq + 14000 ≤ s.frame →
      Goes (.ppsTimeout p) s (AfterHardReset p 5 true s)) ∧
    (sourcing s p = true → (s.pd p).epr = true → (s.pd p).lastMsg + 875 ≤ s.frame →
      Goes (.eprKeepaliveTimeout p) s (AfterHardReset p 6 true s)) ∧
    (sourcing s p = true → s.ran (s.pd p).lowered 30 = true → Goes (.loweredCapsTimeout p) s (AfterHardReset p 7 true s)) ∧
    (s.serves p = true → s.policyRuns = true → (s.cc p).st.attached = true → (s.cc p).detach = 0 →
      Goes (.hardResetReceived p) s (AfterHardReset p 3 false s)) ∧
    (∀ c, sinking s p = true → s.ran (s.pd p).snkAccept 500 = true → (s.pd p).next = some c →
      ((c.mv < ((s.vbus p : Int) - c.mv).natAbs * 20 → Goes (.sinkVbusCheckTimeout p) s (AfterHardReset p 4 true s)) ∧
       (((s.vbus p : Int) - c.mv).natAbs * 20 ≤ c.mv → Goes (.sinkVbusCheckTimeout p) s fun t => PortAlone p s t ∧ (t.pd p).snkAccept = none ∧ (t.pd p).next = some c)))

/-- R83, R90, R91, R107: a set that is due goes out as the set derived, with its response timer; without GoodCRC it is repeated, 50 times in
all; 18 frames after SinkTxNG a sequence may start. R83 to R86: an SOP′ Discover Identity goes out; an answer records the cable; an attempt
without an answer counts as no e-marker. The model's choices in it: what counts as the set last sent (log 27) and no repeat under a contract
(log 30). -/
def Obligations.CapabilitiesAndCable : Prop :=
  (∀ (s : State) (p : Nat), s.Shaped → p < 24 → sourcing s p = true → (s.pd p).noPd = false → s.mayBegin = true →
    (∀ c : Bool → Instr,
      (c = .sourceCapSend p ∧ (s.pd p).capsDue = true ∧ s.mayStart p = true) ∨ (c = .sourceCapRepeat p ∧ s.ran (s.pd p).repeatFrame 150 = true) →
      (Goes (c true) s fun t =>
        PortAlone p s t ∧ (t.pd p).tx = [capsMsg s p] ∧ (t.pd p).sent = (s.pd p).derived ∧ (t.pd p).sentP = (s.pd p).derivedP ∧
          (t.pd p).sentFrame = some s.frame ∧ (t.pd p).everSent = true ∧ (t.pd p).capsDue = false ∧ (t.pd p).repeatFrame = none ∧
          (t.pd p).cableChanged = ((s.pd p).cableChanged && staleSet s p) ∧
          (staleSet s p = false → unbacked s p = true ∨ ((s.pd p).epr = true ∧ eprDisallowed s p = true) →
            (t.pd p).lowered = some s.frame ∧ (t.pd p).awaiting = none) ∧
          (staleSet s p = false → unbacked s p = false → ((s.pd p).epr && eprDisallowed s p) = false → (t.pd p).awaiting = some s.frame) ∧
          (staleSet s p = true → (t.pd p).eprExit = (s.pd p).eprExit) ∧
          (t.port p).counters = (s.port p).counters.modify 6 sat1) ∧
      ((s.pd p).contract.explicit = false →
        Goes (c false) s fun t =>
          PortAlone p s t ∧ (t.pd p).capsCount = (s.pd p).capsCount + 1 ∧ (t.pd p).everSent = (s.pd p).everSent ∧
            ((s.pd p).capsCount + 1 < 50 → (t.pd p).repeatFrame = some s.frame ∧ (t.pd p).noPd = false) ∧
            (50 ≤ (s.pd p).capsCount + 1 → (t.pd p).noPd = true ∧ (t.pd p).lastEnd = 0xD)) ∧
      ((s.pd p).contract.explicit = true → Goes (c false) s (AfterHardReset p 4 true s))) ∧
    (s.ran (s.pd p).collision 18 = true →
      Goes (.collisionWaitExpiry p) s fun t =>
        PortAlone p s t ∧ (t.pd p).collision = none ∧ (t.pd p).clear = true ∧ t.cc p = s.cc p)) ∧
  (∀ (s : State) (p : Nat), s.Shaped → p < 24 → sourcing s p = true →
    ((s.vc p).on = true → (s.vc p).good = true → (s.vc p).attempt = none → s.ran (s.vc p).attemptsDue 0 = true →
      Goes (.cableDiscoverAttempt p) s fun t =>
        PortAlone p s t ∧ (t.vc p).attempt = some s.frame ∧ (t.vc p).attempts = min 15 ((s.vc p).attempts + 1) ∧
          (t.pd p).tx = [.discoverIdentityPrime]) ∧
    (∀ i : CableId, (s.vc p).on = true → (s.vc p).attempt.isSome = true → (s.vc p).forEpr = false →
      Goes (.cableIdentityResponse p i) s fun t =>
        OnlyPort p s t ∧ (t.vc p).disc = 3 ∧ (t.vc p).iMax = (if i.fiveA then 2 else 1) ∧ (t.vc p).vMax = i.vMax % 4 ∧
          (t.vc p).epr = i.epr ∧ (t.vc p).active = i.active ∧ (t.vc p).attempt = none ∧ (t.vc p).firstEnded = true) ∧
    (∀ c : Instr, (s.vc p).attempt.isSome = true → (s.vc p).forEpr = false →
      (c = .goodcrcRetryFail p true ∨ (c = .senderResponseTimeout p true ∧ s.ran (s.vc p).attempt 27 = true)) →
      Goes c s fun t =>
        OnlyPort p s t ∧ (t.vc p).disc = 2 ∧ (t.vc p).iMax = 0 ∧ (t.vc p).epr = false ∧ (t.vc p).attempt = none ∧
          (t.vc p).firstEnded = true ∧ (t.cc p).st = (s.cc p).st))

/-- R92 to R97: a request that passes the five checks is accepted and a transition begins; one that fails is rejected and counted; a transition
starts after tSrcTransition once its phases are in place, and four settled paces put its contract in force. -/
def Obligations.RequestsAndTransitions : Prop :=
  (∀ (s : State) (p : Nat) (q : PdRequest), s.Shaped → p < 24 → sourcing s p = true → s.sup.st = .up → s.quiet p = true → (s.pd p).everSent = true →
    (q.epr = true → (s.pd p).epr = true) →
    (∀ c, judge s p q = .inl c →
      Goes (.requestReceived p q) s fun t =>
        PortAlone p s t ∧ (t.pd p).next = some c ∧ (t.pd p).acceptFrame = s.frame ∧ (t.pd p).tx = [.accept] ∧ (t.pd p).slewing = false ∧
          (t.pd p).contract = (s.pd p).contract ∧ (t.pd p).lastReq = s.frame ∧ (t.pd p).mismatch = q.mismatch ∧
          (c.mv < (s.pd p).contract.mv → (s.path p).pmode ≠ 0 → (t.path p).pmode = 2)) ∧
    (∀ n, judge s p q = .inr n → (s.pd p).low = true → 2 ≤ (s.pd p).rejects → Goes (.requestReceived p q) s (AfterHardReset p 7 true s)) ∧
    (∀ n, judge s p q = .inr n → ((s.pd p).low = false ∨ (s.pd p).rejects < 2) →
      Goes (.requestReceived p q) s fun t =>
        PortAlone p s t ∧ (t.pd p).next = none ∧ (t.pd p).tx = [.reject] ∧ (t.pd p).contract = (s.pd p).contract ∧
          (t.port p).counters = (s.port p).counters.modify 5 sat1 ∧ (n = 5 → (t.pd p).capsDue = true))) ∧
  (∀ (s : State) (p : Nat) (q : PdRequest), s.Shaped → p < 24 → sourcing s p = true → (s.pd p).softReset = none →
    s.sup.st = .readied →
    Goes (.requestReceived p q) s fun t => PortAlone p s t ∧ (t.pd p).tx = [.wait] ∧ (t.pd p).next = (s.pd p).next) ∧
  (∀ (s : State) (p : Nat) (c : Contract), s.Shaped → s.serves p = true → (s.cc p).st = .attachedSrc → (s.cc p).detach = 0 →
    s.policyRuns = true → (s.pd p).next = some c →
    (s.atBoundary = true → (s.pd p).slewing = false → placedFor s p = true →
      (s.pd p).acceptFrame + (if c.kind = 3 ∨ c.kind = 5 then 1 else 25) ≤ s.frame →
      Goes (.transitionStart p) s fun t =>
        PortAlone p s t ∧ (t.pd p).slewing = true ∧ (t.pd p).settled = 0 ∧ (t.path p).vtgt = c.mv / 2 ∧
          (t.path p).itgt = (if c.kind = 3 then c.cur * 10 + 50 else 0x7FFF) ∧ (t.pd p).contract = (s.pd p).contract) ∧
    ((s.pd p).slewing = true → 4 ≤ (s.pd p).settled →
      Goes (.transitionSettled p) s fun t =>
        OnlyPort p s t ∧ (t.pd p).contract = c ∧ (t.pd p).next = none ∧ (t.pd p).tx = [.psRdy] ∧ (t.pd p).hrRun = 0 ∧
          (t.pd p).lastEnd = 0 ∧ (t.pd p).firstContract.isSome = true ∧ (t.cc p).st = .attachedSrc))

/-- R103 to R105: EPR mode is entered only through a fresh cable check, is kept alive by messages, and is left by the partner at once and by
the part through EPR capabilities with empty EPR positions. The model's choices in it: the reason codes of a refusal and the sets sent at
once (log 29). -/
def Obligations.EprMode : Prop :=
  ∀ (s : State) (p : Nat), s.Shaped → p < 24 → sourcing s p = true →
    ((s.pd p).epr = false → s.quiet p = true → ((s.pd p).contract.kind = 2 ∨ (s.pd p).contract.kind = 3) →
      (∀ r, eprRefusal s p = some r → Goes (.eprModeEnter p) s fun t => PortAlone p s t ∧ (t.pd p).tx = [.eprMode 4 r] ∧ (t.pd p).epr = false) ∧
      (eprRefusal s p = none →
        Goes (.eprModeEnter p) s fun t =>
          PortAlone p s t ∧ (t.pd p).tx = [.eprMode 2 0] ∧ (t.pd p).epr = false ∧ (t.vc p).forEpr = true ∧ (t.vc p).attemptsDue = some s.frame)) ∧
    ((s.pd p).epr = true →
      (Goes (.eprKeepalive p) s fun t =>
        PortAlone p s t ∧ (t.pd p).tx = [.keepAliveAck] ∧ (t.pd p).lastMsg = s.frame ∧ (t.pd p).epr = true) ∧
      ((s.pd p).next = none → (s.sw p).kind = none → Goes (.eprModeExit p) s fun t =>
        PortAlone p s t ∧ (t.pd p).epr = false ∧ (t.pd p).capsDue = true ∧ (t.pd p).contract = (s.pd p).contract) ∧
      (s.mayBegin = true → s.mayStart p = true →
        ((s.pd p).eprExit = 2 → Goes (.eprPartExit p) s fun t => PortAlone p s t ∧ (t.pd p).epr = false ∧ (t.pd p).tx = [.eprMode 5 0]) ∧
        (∀ c : Instr, (s.pd p).eprExit = 0 →
          ((c = .eprPartExit p ∧ eprDisallowed s p = true) ∨ (c = .eprEnClear p ∧ portParam s p 0x26 = 0)) →
          Goes c s fun t =>
            PortAlone p s t ∧ (t.pd p).epr = true ∧ (t.pd p).eprExit = 1 ∧ (t.pd p).tx = [.eprSourceCaps (capFlags s p) (sprSet s p (offerP s p))] ∧
              (t.pd p).sent = sprSet s p (offerP s p) ∧ (t.pd p).lowered = some s.frame)))

/-- R106, R107: requests of the partner outside a transition or swap are answered, with Not_Supported where the revision or the role does
not have them; a protocol error sends Soft_Reset and a received Soft_Reset is accepted; an Alert becomes an event. The model's choices in
it: a Get message inside a transition (log 28) and an extended message at revision 2.0 (log 33). -/
def Obligations.MessagesAreAnswered : Prop :=
  ∀ (s : State) (p : Nat), s.Shaped → p < 24 →
    (sourcing s p = true → s.quiet p = true →
      Goes (.getSourceCap p) s fun t => PortAlone p s t ∧ (t.pd p).tx = [capsMsg s p] ∧ (t.pd p).sent = (s.pd p).derived) ∧
    (attachedPd s p = true → s.quiet p = true →
      ∀ (c : Instr) (m : PdTx),
        ((c = .getSourceCap p ∧ sourcing s p = false ∧ m = .sourceCaps (capFlags s p) (deriveSet s p)) ∨
          (c = .getSourceCapExtended p ∧ m = (if (s.pd p).rev20 then .notSupported
            else .capsExtended s.otp.svid 0x2448 0 0x04 0xB1 3 0x03 (min (s.pd p).sentP 100) (if (s.pd p).epr then (s.pd p).sentP else 0))) ∨
          (c = .getPpsStatus p ∧ m = (if (s.pd p).rev20 then .notSupported else .ppsStatus (s.path p).fvAvg (s.path p).fiAvg (s.pd p).ppsLimitPrev)) ∨
          (c = .getSourceInfo p ∧ m = .sourceInfo true (maxPdp s p) (s.ledger.port p).ceil (s.pd p).sentP) ∨
          (c = .getSinkCap p ∧ m = (if s.otp.dualRole.testBit p then .sinkCaps sinkObjs else .notSupported)) ∨
          (c = .getStatus p ∧ m = (if (s.pd p).rev20 then .notSupported else .status (s.ridge (ridgeOfPort p)).tRidge true)) ∨
          (c = .getRevision p ∧ m = .revision 3 2 1 0) ∨ (c = .unsupportedRequest p ∧ m = .notSupported)) →
        Goes c s fun t => PortAlone p s t ∧ (t.pd p).tx = [m] ∧ (t.pd p).lastMsg = s.frame ∧ (t.pd p).contract = (s.pd p).contract) ∧
    (attachedPd s p = true →
      (∀ ado : Word32, Goes (.alertReceived p ado) s fun t =>
        t = { s with ports := t.ports, attn := t.attn, events := t.events } ∧ t.events.seq = (s.events.seq + 1) % 256 ∧
          (t.pd p).lastMsg = s.frame ∧ t.attn.pending.getLsbD 14 = true) ∧
      (∀ c : Instr, (c = .protocolError p ∨ ((∃ q, c = .getSourceCap p ∧ (s.pd p).next = some q) ∧ sourcing s p = true)) → (s.sw p).kind = none →
        (s.pd p).softReset = none →
        Goes c s fun t =>
          PortAlone p s t ∧ (t.pd p).tx = [.softReset] ∧ (t.pd p).softReset = some s.frame ∧ (t.pd p).awaiting = none ∧
            (t.port p).counters = (s.port p).counters.modify 4 sat1) ∧
      ((s.sw p).kind = none →
        Goes (.softResetReceived p) s fun t =>
          PortAlone p s t ∧ (t.pd p).tx = [.accept] ∧ (t.pd p).softReset = none ∧ (t.pd p).contract = (s.pd p).contract ∧
            (t.port p).counters = (s.port p).counters.modify 4 sat1 ∧
            ((s.cc p).st = .attachedSrc → (t.pd p).cableChanged = true)))

/-- R110, R112, R113, R114: take-down and recovery of a Hard Reset, loss of conversion and its return, messages and Hard Reset in the
supervisor-absent hold, and the requests of the sink role. -/
def Obligations.RecoveryHoldAndSink : Prop :=
  ∀ (s : State) (p : Nat), s.Shaped → s.serves p = true →
    (s.policyRuns = true → (s.cc p).st = .attachedSrc →
      (s.ran (s.pd p).hrFrame 30 = true → (s.pd p).takedown = false →
        Goes (.hardResetTakedown p) s fun t =>
          PortAlone p s t ∧ (t.pd p).takedown = true ∧ (t.path p).vtgt = 250 ∧ (t.path p).swOn = (s.path p).swOn ∧
            ((s.path p).pmode ≠ 0 → (t.path p).pmode = 2)) ∧
      ((s.pd p).takedown = true → s.ran (s.pd p).takenDown 800 = true →
        Goes (.hardResetRecover p) s fun t =>
          PortAlone p s t ∧ (t.path p).vtgt = 2500 ∧ (t.pd p).hrFrame = none ∧ (t.pd p).takedown = false ∧ (t.pd p).started = true ∧
            (t.pd p).contract = typecContract (rpOf s p) ∧ (t.cc p).rp = rpOf s p ∧ (t.cc p).st = .attachedSrc)) ∧
    (conversionLost s p = true → (s.cc p).st ≠ .disabled → (s.cc p).st ≠ .outOfService → (s.cc p).st ≠ .errorRecovery →
      Goes (.lossOfConversion p) s fun t =>
        OnlyPort p s t ∧ (t.cc p).st = .errorRecovery ∧ (t.cc p).toOutOfService = true ∧ (t.pd p).lastEnd = 0xA ∧ (t.path p).swOn = false ∧
          (t.pd p).contract = {}) ∧
    ((s.cc p).st = .outOfService → (s.cc p).toOutOfService = true → s.atBoundary = true → s.ledger.hdr.feedless = false →
      noneUsable s p = false → (s.cc p).mode = 0 → s.seq.mode = .running → s.preService = false →
      Goes (.outOfServiceReturn p) s fun t => PortAlone p s t ∧ (t.cc p).st = .unattachedSrc ∧ (t.cc p).toOutOfService = false) ∧
    (s.sup.st = .hold →
      ((s.cc p).st = .attachedSrc →
        (Goes (.holdMessageAnswer p false) s fun t => PortAlone p s t ∧ (t.pd p).tx = [.wait] ∧ (t.pd p).lastReq = s.frame ∧
          (t.pd p).contract = (s.pd p).contract) ∧
        ((s.pd p).epr = true →
          Goes (.holdMessageAnswer p true) s fun t => PortAlone p s t ∧ (t.pd p).tx = [.keepAliveAck] ∧ (t.pd p).lastMsg = s.frame)) ∧
      ((s.cc p).st.attached = true →
        Goes (.holdHardReset p) s fun t =>
          PortAlone p s t ∧ (t.path p).swOn = false ∧ (t.cc p).disch = true ∧ (t.pd p).hrInHold = true ∧ (t.cc p).st = (s.cc p).st ∧
            (t.pd p).hardResets = min 255 ((s.pd p).hardResets + 1))) ∧
    (sinking s p = true → (s.sw p).kind = none → (s.pd p).softReset = none →
      (∀ objs o, s.seq.mode = .running → bestObj objs = some o →
        Goes (.sinkSourceCapReceived p objs) s fun t =>
          PortAlone p s t ∧ (t.pd p).tx = [.request o.pos (min o.cur (2700000 / o.mv))] ∧ (t.pd p).awaiting = some s.frame ∧
            (t.pd p).want.map (·.mv) = some o.mv ∧ (t.pd p).contract = (s.pd p).contract) ∧
      (∀ c, (s.pd p).want = some c →
        Goes (.sinkAcceptReceived p false) s fun t =>
          PortAlone p s t ∧ (t.pd p).next = some c ∧ (t.pd p).snkAccept = some s.frame ∧ (t.pd p).awaiting = none) ∧
      (∀ c, (s.pd p).next = some c →
        Goes (.sinkAcceptReceived p true) s fun t =>
          OnlyPort p s t ∧ (t.pd p).contract = c ∧ (t.pd p).next = none ∧ (t.pd p).lastEnd = 0))
/-! ### Swaps (R116 to R129) -/

/-- R120, R121: a PR_Swap of the part: sent, accepted with the switch open, confirmed by the partner's PS_RDY, and ended in ErrorRecovery by
its timeouts; a received one is accepted only where policy and placement allow, and answered by Not_Supported, Wait or Reject else. The model's choices in it: LAST_END of a
failed swap (log 26) and that the part's own swap waits for its home phase (log 68). -/
def Obligations.PowerRoleSwaps : Prop :=
  ∀ (s : State) (p : Nat), s.Shaped → p < 24 →
    (sinking s p = true →
      (s.otp.dualRole.testBit p = true → s.seq.mode = .running → portParam s p 0x2A = 1 → s.mayBegin = true → s.quiet p = true →
        s.ran (s.pd p).firstContract 50 = true → (s.cc p).rp = 2 → (s.sw p).prSupp = none → (s.sw p).prFails < 3 → s.placed p = true →
        Goes (.prSwapSend p) s fun t =>
          PortAlone p s t ∧ (t.sw p).kind = some .pr ∧ (t.sw p).mine = true ∧ (t.sw p).step = 0 ∧ (t.cc p).alloc = true ∧ (t.pd p).tx = [.prSwap]) ∧
      ((s.sw p).kind = some .pr → (s.sw p).mine = true → (s.sw p).step = 0 →
        Goes (.prSwapAccept p) s fun t =>
          PortAlone p s t ∧ (t.sw p).step = 1 ∧ (t.path p).swOn = false ∧ (t.path p).vtgt = 2500 ∧ (t.pd p).contract = {} ∧
            (t.sw p).frame = s.frame) ∧
      ((s.sw p).kind = some .pr → (s.sw p).step = 1 →
        Goes (.prSwapPsRdy p) s fun t => PortAlone p s t ∧ (t.sw p).step = 2 ∧ (t.sw p).frame = s.frame)) ∧
    (s.serves p = true → s.policyRuns = true → (s.sw p).kind = some .pr →
      ∀ c : Instr, ((c = .prSwapSourceOffTimeout p ∧ (s.sw p).step = 1 ∧ (s.sw p).frame + 835 ≤ s.frame) ∨
          (c = .prSwapVbusConfirmTimeout p ∧ (s.sw p).step = 2 ∧ (s.sw p).frame + 5 ≤ s.frame ∧ 800 ≤ (s.cc p).vbusMv)) →
        Goes c s fun t =>
          OnlyPort p s t ∧ (t.cc p).st = .errorRecovery ∧ (t.sw p).kind = none ∧ (t.sw p).lastKind = 1 ∧ (t.sw p).lastResult = 2 ∧
            (t.sw p).prSupp = some s.frame) ∧
    (attachedPd s p = true → (s.pd p).next = none → (s.sw p).kind = none →
      ((s.cc p).st = .attachedSrc →
        Goes (.prSwapReceived p) s fun t =>
          PortAlone p s t ∧ (t.sw p).kind = none ∧ (t.pd p).tx =
            [if s.otp.dualRole.testBit p = false then .notSupported else if (s.sw p).prSupp.isSome then .wait else .reject]) ∧
      ((s.cc p).st = .attachedSnk → (s.sw p).prSupp = none → s.seq.mode = .running →
        (portParam s p 0x2A = 0 → Goes (.prSwapReceived p) s fun t => PortAlone p s t ∧ (t.pd p).tx = [.reject] ∧ (t.sw p).kind = none) ∧
        (portParam s p 0x2A = 1 → s.placed p = false →
          Goes (.prSwapReceived p) s fun t => PortAlone p s t ∧ (t.pd p).tx = [.wait] ∧ (t.cc p).alloc = true ∧ (t.sw p).kind = none) ∧
        (portParam s p 0x2A = 1 → s.placed p = true →
          Goes (.prSwapReceived p) s fun t =>
            PortAlone p s t ∧ (t.pd p).tx = [.accept] ∧ (t.sw p).kind = some .pr ∧ (t.sw p).step = 1 ∧ (t.path p).swOn = false))) ∧
    ((s.sw p).kind ≠ none ∨ (s.pd p).next ≠ none → attachedPd s p = true → (s.pd p).softReset = none →
      ∀ (c : Instr) (b : Bool), (c = .prSwapReceived p ∨ c = .drSwapReceived ⟨p, b⟩ ∨ c = .vconnSwapReceived p) →
        Goes c s fun t => OnlyPort p s t ∧ (t.pd p).tx = [.softReset] ∧ (t.sw p).kind = none)

/-- R117, R119, R122 to R128: DR_Swap and VCONN_Swap, received and of the part: the roles they exchange, the answers, the suppression after
a failure and its end, and the timeouts. The model's choices in it: a VCONN swap after a
trip (log 31), LAST_END 4 of `tVCONNSourceTimeout` and of a DR_Swap with a mode entered (log 30), and Wait before that Hard Reset (log 69). -/
def Obligations.DataAndVconnSwaps : Prop :=
  ∀ (s : State) (p : Nat), s.Shaped → p < 24 →
    (attachedPd s p = true → (s.pd p).next = none → (s.sw p).kind = none →
      ((s.sw p).drSupp.isSome = true →
        ∀ b, Goes (.drSwapReceived ⟨p, b⟩) s fun t => PortAlone p s t ∧ (t.pd p).tx = [.wait] ∧ (t.sw p).dfp = (s.sw p).dfp) ∧
      ((s.sw p).drSupp = none → modeOn s p = true →
        ∀ b, Goes (.drSwapReceived ⟨p, b⟩) s fun t =>
          OnlyPort p s t ∧ (t.pd p).lastEnd = 4 ∧ (t.pd p).contract = {} ∧ (t.dc p).entered = false ∧ (t.sw p).kind = none ∧
            (t.sw p).lastKind = 2 ∧ (t.sw p).lastResult = 3 ∧ (t.sw p).dfp = (s.sw p).attDfp) ∧
      ((s.sw p).drSupp = none → modeOn s p = false → s.seq.mode = .running → drAccepts s p = false →
        ∀ b, Goes (.drSwapReceived ⟨p, b⟩) s fun t => PortAlone p s t ∧ (t.pd p).tx = [.reject] ∧ (t.sw p).dfp = (s.sw p).dfp) ∧
      ((s.sw p).drSupp = none → modeOn s p = false → s.seq.mode = .running → drAccepts s p = true →
        (Goes (.drSwapReceived ⟨p, true⟩) s fun t =>
          OnlyPort p s t ∧ (t.pd p).tx = [.accept] ∧ (t.sw p).dfp = !(s.sw p).dfp ∧ (t.sw p).kind = none ∧ (t.sw p).lastKind = 2 ∧
            (t.sw p).lastResult = 0) ∧
        Goes (.drSwapReceived ⟨p, false⟩) s fun t =>
          OnlyPort p s t ∧ (t.pd p).lastEnd = 4 ∧ (t.sw p).kind = none ∧ (t.sw p).lastResult = 3 ∧ (t.sw p).dfp = (s.sw p).attDfp)) ∧
    (sourcing s p = true → (s.pd p).next = none → (s.sw p).kind = none → (s.sw p).vcSupp = none →
      (portParam s p 0x2C = 0 → Goes (.vconnSwapReceived p) s fun t => PortAlone p s t ∧ (t.pd p).tx = [.reject] ∧ t.vc p = s.vc p) ∧
      ((s.sw p).vconnSrc = true → portParam s p 0x2C = 2 → vconnNeeded (s.pd p) = false →
        Goes (.vconnSwapReceived p) s fun t =>
          PortAlone p s t ∧ (t.pd p).tx = [.accept] ∧ (t.sw p).kind = some .vconn ∧ (t.sw p).step = 2 ∧ (t.vc p).on = (s.vc p).on) ∧
      ((s.sw p).vconnSrc = false → portParam s p 0x2C ≠ 0 → (s.ridge (ridgeOfPort p)).vconnInGood = true →
        Goes (.vconnSwapReceived p) s fun t =>
          PortAlone p s t ∧ (t.pd p).tx = [.accept] ∧ (t.sw p).kind = some .vconn ∧ (t.sw p).step = 1 ∧
            ((s.vc p).blocked = false → (t.vc p).on = true) ∧ ((s.vc p).blocked = true → (t.vc p).on = (s.vc p).on))) ∧
    (sourcing s p = true → (s.sw p).vconnSrc = false → portParam s p 0x2C ≠ 0 → (s.ridge (ridgeOfPort p)).vconnInGood = true →
      (s.sw p).vcSent = false → s.ran (s.pd p).firstContract 10 = true → (s.sw p).vcSupp = none →
      s.mayBegin = true → s.mayStart p = true →
      Goes (.vconnSwapSend p) s fun t =>
        PortAlone p s t ∧ (t.pd p).tx = [.vconnSwap] ∧ (t.sw p).kind = some .vconn ∧ (t.sw p).mine = true ∧ (t.sw p).vcSent = true) ∧
    (sourcing s p = true → (s.sw p).kind = some .vconn →
      ((s.sw p).step = 2 →
        Goes (.vconnSwapPartnerPsRdy p) s fun t =>
          OnlyPort p s t ∧ (t.vc p).on = false ∧ (t.sw p).vconnSrc = false ∧ (t.sw p).kind = none ∧ (t.sw p).lastKind = 3 ∧ (t.sw p).lastResult = 0) ∧
      ((s.sw p).step = 1 ∨ (s.sw p).step = 2 → (s.sw p).frame + 150 ≤ s.frame →
        Goes (.vconnSourceTimeout p) s (AfterHardReset p 4 true s))) ∧
    (∀ kd, attachedPd s p = true → (s.sw p).kind = some kd → (s.sw p).mine = true → (s.sw p).step = 0 →
      ((s.sw p).frame + 27 ≤ s.frame →
        Goes (.swapResponseTimeout p) s fun t =>
          OnlyPort p s t ∧ (t.sw p).kind = none ∧ (t.sw p).lastKind = swapCode kd ∧ (t.sw p).lastResult = 2) ∧
      (∀ r, (s.pd p).softReset = none → r ≠ SwapReply.accept →
        Goes (.swapReplyReceived p r) s fun t =>
          OnlyPort p s t ∧ (t.sw p).kind = none ∧ (t.sw p).lastKind = swapCode kd ∧ (t.sw p).lastResult = 1 ∧
            (t.port p).counters = (s.port p).counters.modify 9 sat1) ∧
      ((s.pd p).softReset = none → kd = .dr →
        Goes (.swapReplyReceived p .accept) s fun t =>
          OnlyPort p s t ∧ (t.sw p).kind = none ∧ (t.sw p).dfp = !(s.sw p).dfp ∧ (t.sw p).lastResult = 0)) ∧
    (s.ran (s.sw p).prSupp 1000 = true → Goes (.swapSuppressionEnd p .pr) s fun t => PortAlone p s t ∧ (t.sw p).prSupp = none ∧ (t.sw p).drSupp = (s.sw p).drSupp) ∧
    (s.ran (s.sw p).drSupp 1000 = true → Goes (.swapSuppressionEnd p .dr) s fun t => PortAlone p s t ∧ (t.sw p).drSupp = none ∧ (t.sw p).prSupp = (s.sw p).prSupp) ∧
    (s.ran (s.sw p).vcSupp 1000 = true → Goes (.swapSuppressionEnd p .vconn) s fun t => PortAlone p s t ∧ (t.sw p).vcSupp = none ∧ (t.sw p).prSupp = (s.sw p).prSupp) ∧
    (s.serves p = true → (s.cc p).st = .attachedSnk → s.ran (s.pd p).snkRestore 1100 = true → s.vbus p < 4000 →
      Goes (.sinkVbusRestoreTimeout p) s fun t =>
        OnlyPort p s t ∧ (t.cc p).st = homeOf s p (s.cc p).mode ∧ (t.pd p).lastEnd = 1 ∧ (t.pd p).snkRestore = none ∧ (t.path p).swOn = false)
/-! ### Discovery, modes and VDMs (R130 to R136, R476) -/

/-- R129 to R135: a discovery starts with Discover Identity, goes on to SVIDs and modes with the answers, ends with its status on a NAK of
Identity or a timeout, and retries a BUSY step; Enter and Exit Mode end with their answers; an attention is reported. The model's choices in
it: when a step may start (log 33). -/
def Obligations.DiscoveryAndModes : Prop :=
  ∀ (s : State) (p : Nat), s.Shaped → p < 24 → attachedPd s p = true →
    ((s.sw p).dfp = true → s.mayBegin = true → s.mayStart p = true → (s.dc p).attempt = none →
      ((s.dc p).step = none → s.ran (s.dc p).startDue 0 = true → (s.pd p).contract.explicit = true →
        Goes (.discoveryStart p) s fun t =>
          PortAlone p s t ∧ (t.dc p).step = some .identity ∧ (t.dc p).status = 1 ∧ (t.dc p).waiting = true ∧ (t.dc p).sentFrame = s.frame ∧
            (t.pd p).tx = [vdmAsk (s.pd p) 0xFF00 1 0 []]) ∧
      (∀ st, (s.dc p).step = some st → s.ran (s.dc p).busyFrame 55 = true →
        Goes (.vdmBusyRetry p) s fun t =>
          PortAlone p s t ∧ (t.dc p).step = some st ∧ (t.dc p).busyFrame = none ∧ (t.dc p).waiting = true ∧ (t.pd p).tx = [stepVdm (s.pd p) (s.dc p) st])) ∧
    (∀ v10 vdos, (s.dc p).step = some .identity → (s.dc p).waiting = true →
      (Goes (.vdmResponse p .ack v10 vdos) s fun t =>
        PortAlone p s t ∧ (t.dc p).idVdos = vdos.take 6 ∧ (t.dc p).step = some .svids ∧ (t.dc p).v10 = v10) ∧
      (Goes (.vdmResponse p .nak v10 vdos) s fun t => OnlyPort p s t ∧ (t.dc p).status = 3 ∧ (t.dc p).step = none) ∧
      ((s.dc p).busyCount < 3 →
        Goes (.vdmResponse p .busy v10 vdos) s fun t =>
          PortAlone p s t ∧ (t.dc p).busyFrame = some s.frame ∧ (t.dc p).busyCount = (s.dc p).busyCount + 1 ∧ (t.dc p).step = some .identity)) ∧
    ((s.dc p).step.isSome = true → (s.dc p).waiting = true → (s.dc p).sentFrame + 27 ≤ s.frame →
      Goes (.vdmResponseTimeout p) s fun t => OnlyPort p s t ∧ (t.dc p).status = 4 ∧ (t.dc p).step = none) ∧
    (∀ m v10 vdos, (s.dc p).step = none → (s.dc p).attempt = some m → m.sent = true → m.byTable = false →
      (s.sw p).dfp = true →
      (Goes (.vdmResponse p .ack v10 vdos) s fun t =>
        OnlyPort p s t ∧ (t.dc p).entered = true ∧ (t.dc p).modeSvid = m.svid ∧ (t.dc p).modePos = m.pos ∧ (t.dc p).attempt = none) ∧
      (Goes (.vdmResponse p .nak v10 vdos) s fun t =>
        OnlyPort p s t ∧ (t.dc p).entered = (s.dc p).entered ∧ (t.dc p).failed = true ∧ (t.dc p).attempt = none) ∧
      (m.frame + 45 ≤ s.frame →
        Goes (.modeEntryTimeout p) s fun t =>
          OnlyPort p s t ∧ (t.dc p).entered = (s.dc p).entered ∧ (t.dc p).failed = true ∧ (t.dc p).attempt = none)) ∧
    (∀ m v10 vdos, (s.dc p).step = none → (s.dc p).attempt = some m → m.sent = true → (s.sw p).dfp = true →
      Goes (.vdmResponse p .busy v10 vdos) s fun t =>
        PortAlone p s t ∧ (t.dc p).attempt = some m ∧ (t.dc p).failed = (s.dc p).failed ∧ (t.pd p).lastMsg = s.frame) ∧
    (∀ v10 vdos, (s.dc p).step = none → (s.dc p).attempt = none → (s.dc p).exitFrame.isSome = true → (s.dc p).entered = true → (s.sw p).drExit = false →
      Goes (.vdmResponse p .ack v10 vdos) s fun t => OnlyPort p s t ∧ (t.dc p).entered = false ∧ (t.dc p).exitFrame = none) ∧
    (∀ hdr vdo, Goes (.attentionVdmReceived p hdr vdo) s fun t =>
      OnlyPort p s t ∧ t.events.seq = (s.events.seq + 1) % 256 ∧ (t.pd p).lastMsg = s.frame ∧ t.dc p = s.dc p)

/-- R136, R476: an unstructured VDM is answered Not_Supported; a structured request by the data role: as UFP the identity, the SVID and the mode
of the service tester's tunnel, and NAK for all else; as DFP NAK. -/
def Obligations.VdmRequests : Prop :=
  ∀ (s : State) (p : Nat), s.Shaped → p < 24 → attachedPd s p = true →
    (Goes (.unstructuredVdm p) s fun t => PortAlone p s t ∧ (t.pd p).tx = [.notSupported]) ∧
    ((s.sw p).dfp = true → ∀ v : VdmReq, v.cmd ≠ 6 →
      Goes (.vdmRequestAsDfp p v) s fun t => PortAlone p s t ∧ (t.pd p).tx = [vdmReply (s.pd p) .nak v.svid v.cmd v.pos []]) ∧
    ((s.sw p).dfp = false →
      (Goes (.vdmRequestAsUfp p { svid := 0xFF00, cmd := 1 }) s fun t =>
        PortAlone p s t ∧ (t.pd p).tx = [vdmReply (s.pd p) .ack 0xFF00 1 0 [idHeader s p, 0, 0x0304]]) ∧
      (tunnelExists s = true →
        (Goes (.vdmRequestAsUfp p { svid := 0xFF00, cmd := 2 }) s fun t =>
          PortAlone p s t ∧ (t.pd p).tx = [vdmReply (s.pd p) .ack 0xFF00 2 0 [BitVec.ofNat 32 (s.otp.svid * 2 ^ 16)]]) ∧
        (Goes (.vdmRequestAsUfp p { svid := s.otp.svid, cmd := 3 }) s fun t =>
          PortAlone p s t ∧ (t.pd p).tx = [vdmReply (s.pd p) .ack s.otp.svid 3 0 [0x00000101]])) ∧
      (tunnelExists s = false → ∀ v : VdmReq, v.cmd = 2 ∨ v.cmd = 3 →
        Goes (.vdmRequestAsUfp p v) s fun t => PortAlone p s t ∧ (t.pd p).tx = [vdmReply (s.pd p) .nak v.svid v.cmd v.pos []]))

/-! ### The service tester (R137 to R143, R298) -/

/-- R136 to R138: the service mode is entered where a tunnel exists and no session is open, and refused else; Exit Mode, 60,000 frames of
silence and policy 0 end a session; the delay after a failure ends. The model's choices in it: a delay that outlives its session (log 34).
-/
def Obligations.TesterSessions : Prop :=
  (∀ (s : State) (p : Nat), s.Shaped → p < 24 → attachedPd s p = true → (s.sw p).dfp = false →
    (tunnelExists s = true → s.tester.st = .closed → (s.dc p).authFails < 3 →
      Goes (.serviceEnterMode p 1) s fun t =>
        t.tester.st = .entered ∧ t.tester.port = p ∧ t.tester.workshop = false ∧ (t.pd p).tx = [vdmReply (s.pd p) .ack s.otp.svid 4 1 []] ∧
          (∀ q, q ≠ p → t.port q = s.port q) ∧ t.host = s.host) ∧
    (tunnelExists s = true → s.tester.st = .closed → 3 ≤ (s.dc p).authFails →
      Goes (.serviceEnterMode p 1) s fun t => t.tester.st = .lockedOut) ∧
    (∀ pos, tunnelExists s = false ∨ pos ≠ 1 ∨ s.tester.st ≠ .closed →
      Goes (.serviceEnterMode p pos) s fun t => PortAlone p s t ∧ (t.pd p).tx = [vdmReply (s.pd p) .nak s.otp.svid 4 pos []]) ∧
    (s.tester.st = .opened → s.tester.port = p →
      Goes (.serviceExitMode p) s fun t =>
        t.tester.st = .closed ∧ t.tun.slot = .empty ∧ t.host = s.host ∧ (t.pd p).tx = [vdmReply (s.pd p) .ack s.otp.svid 5 1 []])) ∧
  (∀ s : State, s.tester.st ≠ .closed → s.tester.lastVdm + 60000 ≤ s.frame →
    Goes .sessionIdleTimeout s fun t => t.tester.st = .closed ∧ t.tun.slot = .empty ∧ t.ports = s.ports ∧ t.host = s.host) ∧
  (∀ (s : State) (d : Nat), s.tester.delayUntil = some d → d ≤ s.frame →
    GoesTo .authFailureDelayEnd s
      { s with tester := { s.tester with delayUntil := none, outReady := s.tester.outReady || (s.tester.outExists && s.tester.outType == 0x02) } })

/-- R139 to R142: segments are assembled in order and a wrong one discards the message; answers are read segment by segment, BUSY until they
are ready; a HELLO is answered, a T_AUTH opens the tunnel or counts a failure, and a command claims the tunnel's slot. The model's choices
in it: ERR codes out of place (log 35) and the withheld answer (log 34). -/
def Obligations.TesterMessages : Prop :=
  ∀ (s : State) (p : Nat), s.Shaped → p < 24 → sessionAt s p = true →
    (∀ (hdr : Word32) (data : List Word32), segmentOk (segOf hdr data) = false →
      Goes (.segPut p ⟨hdr, data⟩) s fun t =>
        t.tester.inNext = 0 ∧ t.tester.inWhole = false ∧ (t.pd p).tx = [vdmReply (s.pd p) .nak s.otp.svid 16 1 []] ∧ t.tun = s.tun) ∧
    (∀ (hdr : Word32) (data : List Word32) (g : Segment), g = segOf hdr data → segmentOk g = true → g.index = 0 → 0 < g.last →
      g.msgType ≠ 0x10 → s.tester.inNext = 0 →
      Goes (.segPut p ⟨hdr, data⟩) s fun t =>
        t.tester.inNext = 1 ∧ t.tester.inWhole = false ∧ t.tester.inBytes = (vdosBytes data).take 20 ∧
          (t.pd p).tx = [vdmReply (s.pd p) .ack s.otp.svid 16 1 [hdr]] ∧ t.tester.lastVdm = s.frame) ∧
    (∀ (sb : BitVec 8) (ib : BitVec 4) (sq ix : Nat), sq = sb.toNat → ix = ib.toNat →
      (outMessage s sq = none →
        Goes (.segGet p sb ib) s fun t =>
          (t.pd p).tx = [vdmReply (s.pd p) .nak s.otp.svid 17 1 []] ∧ t.tester.lastVdm = s.frame ∧ t.tester.outRead = s.tester.outRead) ∧
      (outMessage s sq = some none → Goes (.segGet p sb ib) s fun t => (t.pd p).tx = [vdmReply (s.pd p) .busy s.otp.svid 17 1 []]) ∧
      (∀ bs, outMessage s sq = some (some bs) → ix ≤ segLast bs.length →
        Goes (.segGet p sb ib) s fun t =>
          (t.pd p).tx =
            [vdmReply (s.pd p) .ack s.otp.svid 17 1
              (segHeader (mkSegment (answerType s.tester sq) sq bs ix) :: (mkSegment (answerType s.tester sq) sq bs ix).data)] ∧
          (s.tester.cmdSeq ≠ some sq → t.tester.outRead = ix :: s.tester.outRead ∧ t.tun = s.tun) ∧
          (s.tester.cmdSeq = some sq → t.tester.cmdRead = ix :: s.tester.cmdRead ∧
            ∀ rd full, s.tun.slot = .ready rd full → (∀ i, i ≤ segLast bs.length → i = ix ∨ i ∈ s.tester.cmdRead) →
              t.tun.slot = .ready true full))) ∧
    (wholeAt s p 0x01 = true → s.tester.st = .entered → s.tester.delayUntil = none → helloOk s.tester.inBytes = true →
      Goes (.hello p) s fun t =>
        t.tester.st = .authenticating ∧ t.tester.outType = 0x02 ∧ t.tester.outReady = true ∧ t.tester.nt = (s.tester.inBytes.drop 4).take 32 ∧
          t.tester.np.length = 32 ∧ t.ports = s.ports) ∧
    (wholeAt s p 0x03 = true → s.tester.st = .authenticating →
      Goes (.tAuth p) s fun t =>
        (authFault s = none →
          t.tester.st = .opened ∧ t.tester.workshop = privilege s ∧ t.tester.outType = 0x04 ∧ t.tester.outReady = false ∧ t.ports = s.ports) ∧
        (∀ code, authFault s = some code →
          t.tester.st = (if 2 ≤ (s.dc p).authFails then .lockedOut else .entered) ∧ (t.dc p).authFails = (s.dc p).authFails + 1 ∧
            t.tester.delayUntil = some (s.frame + 1000))) ∧
    (s.tester.outExists = true → s.tester.outType = 0x04 → s.tester.st = .opened →
      GoesTo .pAuthReady s { s with tester := { s.tester with outReady := true } }) ∧
    (wholeAt s p 0x10 = true → s.tester.st = .opened → s.tun.classHeld (rdB s.tester.inBytes 2 % 4) = false →
      Goes (.tunnelCmd p) s fun t =>
        t.tun = s.tun.claim { bytes := s.tester.inBytes, tag := s.tester.inSeq, workshop := s.tester.workshop } ∧
          t.tester.cmdSeq = some s.tester.inSeq ∧ t.tester.cmdRead = [] ∧ t.tester.inWhole = false ∧
          t.host = s.host ∧ t.ports = s.ports)

/-! ### Port path protection (R175 to R182) -/

/-- R175, R178 to R180, R264: each trip opens the switch, ends the contract with LAST_END 9, records its cause and its sticky bit; below
`TRIP_RETRIES` the port goes to ErrorRecovery and the trip counts, at it the path latches and the port is Disabled. -/
def Obligations.PortTrips : Prop :=
  ∀ (s : State) (p : Nat) (c : Instr) (k : Nat), s.Shaped → s.serves p = true →
    ((∃ n, c = .portFastTrip ⟨p, n⟩ ∧ k = 1 ∧ (s.path p).swOn = true ∧ 10 * fastTrip s p < n) ∨
      (c = .portFaultTimerTrip p ∧ k = 2 ∧ (s.path p).swOn = true ∧ portParam s p 0x2E ≤ (s.path p).timer) ∨
      (c = .portCloseTimeout p ∧ k = 3 ∧ (s.path p).closing = true ∧ 2500 ≤ (s.path p).closePaces) ∨
      (∃ n, c = .portReverseBlock ⟨p, n⟩ ∧ k = 4 ∧ (s.path p).swOn = true ∧ revLimit s p < n) ∨
      (c = .portOvervoltage p ∧ k = 5 ∧ 2 ≤ (s.path p).ovRun)) →
    Goes c s fun t =>
      OnlyPort p s t ∧ (t.path p).swOn = false ∧ (t.path p).ppg = false ∧ (t.vc p).on = false ∧ (t.path p).lastTrip = k ∧
        (t.path p).flt.sticky.getLsbD (k - 1) = true ∧ (t.pd p).contract = {} ∧ (t.pd p).lastEnd = 9 ∧ (t.sw p).kind = none ∧
        (t.port p).counters.getD 7 0 = ((s.port p).counters.modify 7 sat1).getD 7 0 ∧
        ((s.path p).trips < portParam s p 0x31 →
          (t.cc p).st = .errorRecovery ∧ (t.path p).trips = (s.path p).trips + 1 ∧ (t.path p).latched = (s.path p).latched) ∧
        (portParam s p 0x31 ≤ (s.path p).trips →
          (t.cc p).st = .disabled ∧ (t.cc p).disabledBy = .latched ∧ (t.path p).latched = true ∧
            (t.path p).flt.sticky.getLsbD 5 = true)

/-- R120, R175, R178, R180, R181, R203: the close ends with PPG unless the fault timer runs, and ends a PR_Swap to source
where VBUS stands within 4.75 V to 5.50 V; the timer resets after 50 paces without the limit and
a PPG withheld asserts then; the trip count clears after 1,000 frames of PPG; an overdraw of Type-C current ends 60 frames after the level
came within the ceiling. R79, R77, R457: a passive Rd that sees a source is taken over by the active Rd, shown beside it for one frame
before the port stands in AttachWait.SNK; in the always-on states a discharge ends after 6,400 ticks. The model's choices in it: the end of
an always-on discharge (log 48). -/
def Obligations.PathTimersAndTakeover : Prop :=
  (∀ (s : State) (p : Nat), s.Shaped → s.serves p = true → (s.path p).closing = true → 4 ≤ (s.path p).fullyOn →
    (∀ b, (s.sw p).kind ≠ some .pr →
      Goes (.portCloseComplete ⟨p, b⟩) s fun t =>
        PortAlone p s t ∧ (t.path p).closing = false ∧ ((t.path p).ppg = true ↔ (s.path p).timer = 0 ∧ (s.path p).ilimAct = false) ∧
          t.cc p = s.cc p ∧ t.pd p = s.pd p) ∧
    (∀ b, s.vbus p < 4750 ∨ 5500 < s.vbus p →
      Goes (.portCloseComplete ⟨p, b⟩) s fun t =>
        PortAlone p s t ∧ (t.path p).closing = false ∧ t.sw p = s.sw p ∧ (t.pd p).tx = (s.pd p).tx ∧ t.cc p = s.cc p) ∧
    ((s.sw p).kind = some .pr → (s.sw p).step = 3 → s.policyRuns = true → 4750 ≤ s.vbus p → s.vbus p ≤ 5500 →
      Goes (.portCloseComplete ⟨p, false⟩) s (AfterHardReset p 4 true s)) ∧
    ((s.sw p).kind = some .pr → (s.sw p).step = 3 → s.policyRuns = true → 4750 ≤ s.vbus p → s.vbus p ≤ 5500 →
      Goes (.portCloseComplete ⟨p, true⟩) s fun t =>
        OnlyPort p s t ∧ (t.path p).closing = false ∧ (t.pd p).tx = [.psRdy] ∧ (t.sw p).kind = none ∧ (t.sw p).lastKind = 1 ∧
          (t.sw p).lastResult = 0 ∧ (t.sw p).source = true ∧ (t.sw p).dfp = (s.sw p).dfp ∧ (t.cc p).st = (s.cc p).st)) ∧
  (∀ (s : State) (p : Nat), s.Shaped → s.serves p = true → (s.path p).timer ≠ 0 → 50 ≤ (s.path p).timerOff →
    Goes (.portFaultTimerReset p) s fun t =>
      PortAlone p s t ∧ (t.path p).timer = 0 ∧ (t.path p).swOn = (s.path p).swOn ∧
        ((t.path p).ppg = true ↔ (s.path p).ppg = true ∨ (s.path p).swOn = true ∧ (s.path p).closing = false)) ∧
  (∀ (s : State) (p f : Nat), s.Shaped → s.serves p = true → (s.path p).ppg = true → (s.path p).ppgFrom = some f → f + 1000 ≤ s.frame →
    Goes (.portTripCountClear p) s fun t =>
      PortAlone p s t ∧ (t.path p).trips = 0 ∧ (t.path p).ppg = true ∧ (t.path p).lastTrip = (s.path p).lastTrip) ∧
  (∀ (s : State) (p f : Nat), s.Shaped → p < 24 → (s.pd p).typecOver = true → (s.pd p).typecFrom = some f → f + 60 ≤ s.frame →
    Goes (.overdrawTypecEnd p) s fun t =>
      PortAlone p s t ∧ (t.pd p).typecOver = false ∧ (t.pd p).typecFrom = none ∧ t.cc p = s.cc p ∧ t.path p = s.path p) ∧
  (∀ (s : State) (p : Nat), s.Shaped → p < 24 → s.locked = true → s.seq.mode ≠ .serviceBoot → (s.cc p).passiveRd = true →
    (s.cc p).st ≠ .outOfService →
    (((s.cc p).cc1 = .rp ∧ (s.cc p).cc2 ≠ .rp) ∨ ((s.cc p).cc1 ≠ .rp ∧ (s.cc p).cc2 = .rp)) →
    ((s.cc p).activeRd = false →
      Goes (.passiveRdTakeover p) s fun t =>
        PortAlone p s t ∧ (t.cc p).activeRd = true ∧ (t.cc p).passiveRd = true ∧ (t.cc p).takeoverFrame = some s.frame) ∧
    (∀ f, (s.cc p).activeRd = true → (s.cc p).takeoverFrame = some f → f + 1 ≤ s.frame →
      Goes (.passiveRdTakeover p) s fun t =>
        PortAlone p s t ∧ (t.cc p).st = .attachWaitSnk ∧ (t.cc p).passiveRd = false ∧ (t.cc p).activeRd = false ∧
          (t.cc p).debLine = (if (s.cc p).cc2 = .rp then 2 else 1))) ∧
  (∀ (s : State) (p : Nat), s.Shaped → p < 24 → s.locked = false → (s.cc p).disch = true → (s.cc p).dischTick + 6400 ≤ s.tick →
    Goes (.aonDischargeTimeout p) s fun t => PortAlone p s t ∧ (t.cc p).disch = false ∧ (t.cc p).st = (s.cc p).st)

/-! ### Phases, the steering guard and ridges (R39 to R44, R154 to R168) -/

/-- R164 to R167: the guard drains, counts, breaks and closes the pair the ledger places; a step that takes too long is refused with its
reason, which leaves the phase idle on its old pair or open and counts in the ridge. The model's choices in it: the duty of the pre-bias and
when a migration counts (log 36). -/
def Obligations.SteeringGuard : Prop :=
  ∀ (s : State) (k r : Nat), s.Inv → s.hasPhase k = true → r = ridgeOfPhase k →
    ((s.phase k).guard = .drain → 1 ≤ (s.phase k).gAge → (s.phase k).zeroPrev = true →
      Goes (.guardDrainZero k) s fun t =>
        OnlyPhase k s t ∧ StatOnly k s t ∧ t.ridge r = { s.ridge r with eng := (t.ridge r).eng } ∧ (t.phase k).guard = .count ∧
          (t.phase k).pwmOff = true ∧ (t.phase k).active = 0 ∧ (t.phase k).gZc = 0 ∧ (t.phase k).steer = (s.phase k).steer) ∧
    ((s.phase k).guard = .count → 4 ≤ (s.phase k).gZc →
      Goes (.guardZeroCountDone k) s fun t =>
        OnlyPhase k s t ∧ StatOnly k s t ∧ t.ridge r = { s.ridge r with eng := (t.ridge r).eng } ∧ (t.phase k).guard = .brk ∧
          (t.phase k).steer = 0 ∧ (t.phase k).gBt = 0 ∧ (t.phase k).steerFrame = some s.frame ∧
          ((s.ridge r).run ≠ .depopulated → (s.ridge r).eng.running = false → (s.ridge r).published = false →
            cellsRead (t.ridge r).eng.x (4 * localOfPhase k + 3) = BitVec.ofNat 16 (phaseStat (t.phase k)))) ∧
    ((s.phase k).guard = .brk → 10 ≤ (s.phase k).gBt → ((s.phase k).gTarget = 3 ∨ 2 ≤ (s.phase k).gSettled) →
      Goes (.guardBreakDone k) s fun t =>
        OnlyPhase k s t ∧ StatOnly k s t ∧ (t.phase k).guard = .free ∧ (t.phase k).active = 0 ∧ (t.phase k).pwmOff = false ∧
          (t.phase k).slot = (s.ledger.phase k).slot ∧
          ((s.phase k).gTarget ≠ 3 → requestPlaced s k (s.phase k).gTarget = true →
            (t.phase k).steer = (s.phase k).gTarget ∧
              t.ridge r = { s.ridge r with
                eng := (t.ridge r).eng
                nMigrate := if (s.ledger.phase k).st = 2 then sat1 (s.ridge r).nMigrate else (s.ridge r).nMigrate }) ∧
          ((s.phase k).gTarget = 3 ∨ requestPlaced s k (s.phase k).gTarget = false →
            (t.phase k).steer = 0 ∧ t.ridge r = { s.ridge r with eng := (t.ridge r).eng })) ∧
    (∀ (c : Instr) (n : Nat),
      ((c = .guardDrainTimeout k ∧ n = 1 ∧ (s.phase k).guard = .drain ∧ 16 < (s.phase k).gAge ∧ (s.phase k).zeroPrev = false) ∨
        (c = .guardCountTimeout k ∧ n = 2 ∧ (s.phase k).guard = .count ∧ 40 ≤ (s.phase k).gAge ∧ (s.phase k).gZc < 4) ∨
        (c = .guardPrebiasTimeout k ∧ n = 3 ∧ (s.phase k).guard = .brk ∧ 40 ≤ (s.phase k).gBt ∧ (s.phase k).gTarget ≠ 3 ∧ (s.phase k).gSettled < 2)) →
      Goes c s fun t =>
        OnlyPhase k s t ∧ StatOnly k s t ∧ (t.phase k).guard = .free ∧ (t.phase k).refused = true ∧ (t.phase k).pwmOff = true ∧
          (t.phase k).active = 0 ∧ (t.phase k).steer = (s.phase k).steer ∧ (t.ridge r).nRefuse = sat1 (s.ridge r).nRefuse ∧
          (t.ridge r).guardReason = (if (s.ridge r).guardReason = 0 then reasonWord k n else (s.ridge r).guardReason) ∧
          (t.ridge r).flt.sticky.getLsbD 3 = true)

/-- R24, R39, R40, R157, R158, R264: a phase loads its active duty at its own carrier start; its comparator marks the pace and ends the
on-time; it stops after
50 paces at its limit or when it reads absent, and leaves the sharing after 4 paces of INV; a stage fault or a hot ridge stops all eight
phases and opens all four switches of its ridge and of no other, and opens the pairs of its saddle phases, and is recorded on a ridge that
has stopped; a thermistor out of range is reported. The model's choices in it: the count of a stage
fault (log 42). -/
def Obligations.PhaseAndRidgeStops : Prop :=
  (∀ (s : State) (k : Nat), s.Shaped → s.hasPhase k = true →
    Goes (.carrierStart k) s fun t =>
      PhaseAlone k s t ∧ (t.phase k).loaded = (if (s.phase k).pwmOff then 0 else (s.phase k).active) ∧ (t.phase k).cut = none ∧
        (t.phase k).active = (s.phase k).active ∧
        ((t.phase k).pwmOff = true ↔ (s.phase k).pwmOff = true ∨ (s.phase k).guard = .drain ∧ (s.phase k).active = 0)) ∧
  (∀ (s : State) (k : Nat) (ma : Int) (cyc : Nat), s.Shaped → s.hasPhase k = true → (s.phase k).fitted = true →
    ((ipk s k : Int) ≤ ma ∨ ma ≤ -(ipk s k : Int) →
      Goes (.peakValleyLimit ⟨k, ma, cyc⟩) s fun t =>
        PhaseAlone k s t ∧ (t.phase k).pkNow = true ∧ (t.phase k).active = (s.phase k).active ∧
          ∀ on off, (t.phase k).legs = some (on, off) → on ≤ cyc ∧ off ≤ cyc ∧ ∃ a b, (s.phase k).legs = some (a, b) ∧ on ≤ a ∧ off ≤ b) ∧
    (ma < (ipk s k : Int) → -(ipk s k : Int) < ma → Idles (.peakValleyLimit ⟨k, ma, cyc⟩) s)) ∧
  (∀ (s : State) (k : Nat) (c : Instr) (b : Nat), s.Shaped → s.phaseLive k = true →
    ((c = .pklimStop k ∧ b = 1 ∧ 50 ≤ (s.phase k).pklimRun) ∨ (c = .phaseAbsentRun k ∧ b = 2)) →
    Goes c s fun t =>
      OnlyPhase k s t ∧ t.ridges = s.ridges ∧ (t.phase k).stopped = true ∧ (t.phase k).pwmOff = true ∧ (t.phase k).active = 0 ∧
        (t.phase k).steer = 0 ∧ (t.phase k).guard = .free ∧ (t.phase k).flt.sticky.getLsbD b = true ∧
        ((t.phase k).readsAbsent = true ↔ b = 2 ∨ (s.phase k).readsAbsent = true)) ∧
  (∀ (s : State) (k : Nat), s.Shaped → s.phaseLive k = true → 4 ≤ (s.phase k).invRun →
    Goes (.phaseInvStop k) s fun t =>
      OnlyPhase k s t ∧ t.ridges = s.ridges ∧
        ((s.ridge (ridgeOfPhase k)).bank.base ≠ 0 → (t.phase k).invOut = true ∧ (t.phase k).shadow = 0) ∧
        ((s.ridge (ridgeOfPhase k)).bank.base = 0 → (t.phase k).invOut = (s.phase k).invOut ∧ (t.phase k).shadow = (s.phase k).shadow) ∧
        (t.phase k).active = (s.phase k).active ∧ (t.phase k).steer = (s.phase k).steer ∧ (t.phase k).stopped = false ∧ (t.phase k).flt.sticky.getLsbD 3 = true) ∧
  (∀ (s : State) (r : Nat) (c : Instr) (b : Nat), s.Shaped → s.ridgeLive r = true →
    ((c = .stageFault r ∧ b = 4 ∧ 2 ≤ (s.ridge r).stgfltRun) ∨ (c = .ridgeHot r ∧ b = 6 ∧ ridgeIsHot s r = true)) →
    Goes c s fun t =>
      t = { s with phases := t.phases, ports := t.ports, ridges := t.ridges, faultN := t.faultN, attn := t.attn, irq := t.irq } ∧
        (t.ridge r).run = .stopped ∧ (t.ridge r).flt.sticky.getLsbD b = true ∧
        (∀ j, j < 8 → (t.phase (8 * r + j)).active = 0 ∧ (t.phase (8 * r + j)).pwmOff = true ∧ (t.phase (8 * r + j)).guard = .free ∧
          (t.phase (8 * r + j)).steer =
            (if (s.phase (8 * r + j)).steer = 2 ∨ (s.phase (8 * r + j)).held = true then 0 else (s.phase (8 * r + j)).steer)) ∧
        (∀ q, q < 4 → (t.path (4 * r + q)).swOn = false ∧ (t.path (4 * r + q)).ppg = false) ∧
        (∀ x, x ≠ r → t.ridge x = s.ridge x) ∧ (∀ k, ridgeOfPhase k ≠ r → t.phase k = s.phase k) ∧
        (∀ p, ridgeOfPort p ≠ r → t.port p = s.port p)) ∧
  (∀ (s : State) (r : Nat) (c : Instr) (b : Nat), s.Shaped → r < 6 → s.locked = true → (s.ridge r).run = .stopped →
    ((c = .stageFault r ∧ b = 4 ∧ 2 ≤ (s.ridge r).stgfltRun) ∨ (c = .ridgeHot r ∧ b = 6 ∧ ridgeIsHot s r = true)) →
    Goes c s fun t =>
      t = { s with ridges := t.ridges, faultN := t.faultN, attn := t.attn, irq := t.irq } ∧ (t.ridge r).run = .stopped ∧
        (t.ridge r).flt.sticky.getLsbD b = true ∧ ∀ x, x ≠ r → t.ridge x = s.ridge x) ∧
  (∀ (s : State) (r : Nat), r < 6 → s.locked = true → (s.ridge r).run ≠ .depopulated →
    ((s.ridge r).tRidge < -800 ∨ 2800 < (s.ridge r).tRidge) →
    Goes (.ntcOutOfRange r) s fun t =>
      t = { s with fltTherm := t.fltTherm, faultN := t.faultN, attn := t.attn, irq := t.irq } ∧ t.fltTherm.sticky.getLsbD r = true)

/-! ### Paces and frames (R33 to R50, R340) -/

/-- R33, R35, R37, R39, R42, R43, R47, R49, R146, R260, R340, R369: cycle 0 of a pace. The publish windows of the pace before it check what its
programs published; then the clock moves on by one pace, or waits at pace 499 for the frame boundary; a phase of a ridge that published, that
neither the guard nor a probe drives and whose ridge asked for no steering, takes its checked duty, and one of a ridge that did not publish
keeps its active duty; fault masks and the pin command act; each ridge's program is told of the pace and of `V_ORED`. The schedule of a frame
starts, at the latest, as its pace 0 ends. The model's choices in it: that pace 499 waits for the frame boundary (log 14), readings as
operands (log 18) and where the schedule starts (log 43). -/
def Obligations.PaceBoundary : Prop :=
  (∀ (s : State) (m : PaceSense), s.locked = true → 499 ≤ s.pace → s.paceZero = false → Idles (.paceBoundary m) s) ∧
  (∀ (s u : State) (m : PaceSense), s.Inv → s.locked = true → (s.pace < 499 ∨ s.paceZero = true) → u = publishWindows s →
    (s.sup.schedDue = false ∨ s.pace ≠ 0 ∨ s.paceZero = true) →
    Goes (.paceBoundary m) s fun t =>
      t.pace = (if s.paceZero then 0 else s.pace + 1) ∧ t.paceZero = false ∧ t.frame = s.frame ∧ t.paceCount = s.paceCount + 1 ∧
        t.dev.vOred = m.vOred ∧ (s.paceZero = false → t.fltWrites = [] ∧ t.faultN.action = none) ∧ t.ledger = s.ledger ∧ t.params = s.params ∧
        t.inForce = s.inForce ∧ t.seq = s.seq ∧ t.sup.eng.cyc = 0 ∧ t.sup.eng.macDrop = false ∧ t.sup.eng.macOvf = false ∧
        (∀ k, k < 48 → (s.ridge (ridgeOfPhase k)).published = true → (s.ridge (ridgeOfPhase k)).overrun = false →
          (s.ridge (ridgeOfPhase k)).probe = none → (s.ridge (ridgeOfPhase k)).steerWord = 0 → unchecked (u.phase k) = false →
          (u.phase k).pwmOff = false →
          (t.phase k).active = (u.phase k).checked ∧ (t.phase k).lastDuty = (u.phase k).checked) ∧
        (∀ k, k < 48 → ((s.ridge (ridgeOfPhase k)).published = false ∨ (s.ridge (ridgeOfPhase k)).overrun = true) →
          (s.ridge (ridgeOfPhase k)).steerWord = 0 → (u.phase k).guard = .free → (t.phase k).active = (u.phase k).active) ∧
        (∀ r, r < 6 → (t.ridge r).held = (s.ridge r).overrun ∧ (t.ridge r).published = false ∧ (t.ridge r).overrun = false ∧
          (t.ridge r).bank = (s.ridge r).bank ∧
          ((s.ridge r).run ≠ .depopulated →
            cellsRead (t.ridge r).eng.x 0x0040 = BitVec.ofNat 16 t.pace ∧ cellsRead (t.ridge r).eng.x 0x0042 = BitVec.ofNat 16 m.vOred))) ∧
  (∀ (s : State) (m : PaceSense), s.sup.schedDue = true → s.pace = 0 → s.paceZero = false →
    GoesTo (.paceBoundary m) s (paceBoundary m (startSchedule s)) ∧ (startSchedule s).sup.schedDue = false)

/-- R35, R37, R158, R355: a ridge's program starts at its first cycle with the engine state of R355, a loaded image by its own words; a ROM
law gives every idle phase duty 0 and no phase without INV a duty above its ceiling. R42, R44, R264: a pace that ends without a publish is
an overrun: its requests are dropped, its ramp steps are taken back and the ridge is held; a second in succession stops the ridge. The model's choices in it: what the controllers of a ROM law add is free (log 4). -/
def Obligations.ProgramsAndOverruns : Prop :=
  (∀ (s : State) (r : Nat), s.Shaped → s.ridgeLive r = true → (s.ridge r).started = true → (s.ridge r).dmaLate = false →
    (s.ridge r).published = false → (s.ridge r).overrun = false →
    Goes (.ridgeProgramStart r) s fun t =>
      t = { s with phases := t.phases, ports := t.ports, ridges := t.ridges, freeN := t.freeN } ∧ (t.ridge r).eng.running = true ∧
        (t.ridge r).eng.cyc = s.firstCycle ∧ (t.ridge r).eng.pc = BitVec.ofNat 16 (s.ridge r).bank.entryAddr ∧
        (∀ x, x ≠ r → t.ridge x = s.ridge x) ∧ (∀ k, ridgeOfPhase k ≠ r → t.phase k = s.phase k) ∧
        (∀ p, ridgeOfPort p ≠ r → t.port p = s.port p) ∧
        ((s.ridge r).bank.base = 0 →
          t.phases = s.phases ∧ t.ports = s.ports ∧ (t.ridge r).eng = (s.ridge r).eng.atStart (s.ridge r).bank.entryAddr s.firstCycle (s.ridge r).bank.latched) ∧
        ((s.ridge r).bank.base ≠ 0 →
          ∀ j, j < 8 → (idlePhase s (8 * r + j) = true → (t.phase (8 * r + j)).shadow = 0) ∧
            ((s.phase (8 * r + j)).inv = false → (t.phase (8 * r + j)).shadow ≤ dutyCeil s (8 * r + j)))) ∧
  (∀ (s : State) (r : Nat), s.Shaped → s.ridgeLive r = true → (s.ridge r).started = true → (s.ridge r).published = false →
    (s.ridge r).overrun = false →
    Goes (.paceOverrun r) s fun t =>
      t = { s with phases := t.phases, ports := t.ports, ridges := t.ridges, faultN := t.faultN, attn := t.attn, irq := t.irq } ∧
        (t.ridge r).nOverrun = sat1 (s.ridge r).nOverrun ∧ (t.ridge r).steerWord = 0 ∧ (t.ridge r).eng.running = false ∧
        (t.ridge r).flt.sticky.getLsbD 0 = true ∧ (∀ x, x ≠ r → t.ridge x = s.ridge x) ∧
        ((s.ridge r).run = .running → (t.ridge r).run = .held ∧ (t.ridge r).overrun = true ∧ t.ports = s.ports ∧
          (∀ j, j < 8 → t.phase (8 * r + j) =
            { s.phase (8 * r + j) with ramp := (s.phase (8 * r + j)).rampPrev, up := (s.phase (8 * r + j)).upPrev }) ∧
          ∀ k, ridgeOfPhase k ≠ r → t.phase k = s.phase k) ∧
        ((s.ridge r).run = .held →
          (t.ridge r).run = .stopped ∧ (t.ridge r).flt.sticky.getLsbD 2 = true ∧
            (∀ j, j < 8 → (t.phase (8 * r + j)).active = 0) ∧ ∀ q, q < 4 → (t.path (4 * r + q)).swOn = false))

/-- R33, R47, R49, R50, R210, R340: after pace 499 the frame number moves on and pace 0 comes; written items act; the measurements of the
frame are the averages of its paces; the ledger that the Innkeeper finished takes force, else the one in force repeats with HELD set; the
frame's schedule starts at once where no class 0 command waits, and after the class 0 work where one does. The model's choices in it: rounding
of the averages (log 3) and the order inside the boundary (log 43). -/
def Obligations.FrameBoundary : Prop :=
  ∀ (s : State), s.Shaped → s.locked = true → s.pace = 499 → s.paceZero = false →
    Goes .frameBoundary s fun t =>
      t.frame = s.frame + 1 ∧ t.pace = 0 ∧ t.paceZero = true ∧ t.inForce = s.params ∧ t.params = s.params ∧
        ((frameBoundary s).zeroWaits = true → t.takeUp = true ∧ t.sup.schedDue = true) ∧
        ((frameBoundary s).zeroWaits = false → t.takeUp = false ∧ t.sup.schedDue = false) ∧
        (s.dev.vOredN ≠ 0 → t.dev.vOredAvg = roundDivNat s.dev.vOredSum s.dev.vOredN ∧ t.dev.vOredMin = s.dev.vOredLo) ∧
        (s.sup.st = .hold → t.ledger = s.ledger.again) ∧
        (s.sup.st ≠ .hold → s.inn.started = false → t.ledger = s.ledger) ∧
        (∀ l, s.sup.st ≠ .hold → s.inn.started = true → s.inn.next = some l → t.ledger = l ∧ t.inn.next = none) ∧
        (s.sup.st ≠ .hold → s.inn.started = true → s.inn.next = none →
          t.ledger = s.ledger.again ∧ t.inn.reducedNext = true ∧ t.fltSupv.sticky.getLsbD 0 = true)

/-- R48, R50, R203, R207 to R210, R390: the Innkeeper finishes once a frame within its cap; a task that reaches its cap is suspended (R50); the dip's
hold and end; the degraded mode's end; the feedless expiry; the shed backstop. The model's choices in it: what a solve counts as carried (log 37). -/
def Obligations.InnkeeperEvents : Prop :=
  (∀ (s : State), s.inn.started = true → s.locked = true → s.sup.st ≠ .hold → s.inn.next = none → s.inn.capped = false →
    s.sup.schedDue = false → (s.zeroWaits = false ∨ s.sup.cmdCapped = true) →
    Goes .innkeeperSolveComplete s fun t =>
      (∀ p, t.port p = { s.port p with pd := { s.pd p with nextIn := (t.pd p).nextIn } }) ∧
        (∀ p, (s.pd p).next = none → (t.pd p).nextIn = (s.pd p).nextIn) ∧
      t = { s with ridges := t.ridges, ports := t.ports, inn := { s.inn with next := some (solveLedger s), reducedNext := false, bPhys := t.inn.bPhys } } ∧
        (solveLedger s).hdr.frame = (s.frame + 1) % 2 ^ 32 ∧ (solveLedger s).phases.length = 48 ∧ (solveLedger s).ports.length = 24) ∧
  (∀ (s : State), s.locked = true → s.sup.st ≠ .hold →
    (s.inn.started = true → s.inn.next = none →
      GoesTo (.taskCapReached .innkeeper) s { s with inn := { s.inn with capped := true } }) ∧
    (∀ k, k ≠ .innkeeper → Goes (.taskCapReached k) s fun t =>
      t = { s with sup := t.sup, fltSupv := t.fltSupv, faultN := t.faultN, attn := t.attn, irq := t.irq } ∧ t.fltSupv.sticky.getLsbD 2 = true ∧
        t.sup = (if k = .policy then { s.sup with pdCapped := true } else { s.sup with cmdCapped := true }))) ∧
  (∀ (s : State) (f : Nat), s.inn.degradedFrom = some f → f + 1000 ≤ s.frame →
    GoesTo .degradedEnd s { s with inn := { s.inn with degradedFrom := none, heldFrames := [] } }) ∧
  (∀ (s : State), s.inn.dip = true → s.inn.dipHoldOver = false →
    (s.inn.dipFrom + s.inf 0 0 0x35 ≤ s.frame ∨ feedStrained s 0 = true ∨ feedStrained s 1 = true) →
    GoesTo .dipHoldEnd s { s with inn := { s.inn with dipHoldOver := true } }) ∧
  (∀ (s : State), s.inn.dip = true → 100 ≤ s.inn.dipClear →
    GoesTo .dipExit s { s with inn := { s.inn with dip := false, dipHoldOver := false, dipClear := 0 } }) ∧
  (∀ (s : State), s.inn.started = true → noFeed s = true → 500 ≤ s.inn.feedless →
    GoesTo .feedlessExpiry s { s with inn := { s.inn with feedlessOut := true } }) ∧
  (∀ (s : State) (p : Nat), s.Shaped → p < 24 → s.locked = true → (s.ledger.port p).tier ≠ 0 → (s.path p).shed = false → s.placed p = true →
    3 ≤ (s.ridge (ridgeOfPort p)).shedRun.getD (s.ledger.port p).tier 0 →
    Goes (.shedBackstop p) s fun t =>
      t = { s with phases := t.phases, ports := t.ports, ridges := t.ridges } ∧ (t.path p).shed = true ∧
        (∀ k, k ∈ s.ledger.on p → (t.phase k).checked = 0 ∧ (t.phase k).active = (s.phase k).active) ∧
        (∀ k, k ∉ s.ledger.on p → t.phase k = s.phase k) ∧ (∀ q, q ≠ p → t.port q = s.port q))

/-! ### Feeds (R212 to R232) -/

/-- R215, R217, R218, R474: a feed whose delay is complete, in its window at a frame boundary, with the turn free (feed B after feed A), starts
its ramp: it takes the turn and drives the ideal-diode gate; a retry that ends outside the window goes to Hold-off instead. R219, R223,
R224, R229, R241: four consecutive paces fully on end the ramp: On with power-good, the turn given up, and in step 6 the sequencer notes it; a
trip or a turn-off of the same pace comes first, and there is no power-good. -/
def Obligations.FeedRamps : Prop :=
  (∀ (s : State) (x : Nat) (c : Instr), s.Shaped → s.mayRamp x = true →
    ((c = .feedQualifyComplete x ∧ (s.feed x).st = .qualify) ∨ (c = .feedHoldoffReturn x ∧ (s.feed x).st = .holdOff) ∨
      (c = .feedRetryDelayEnd x ∧ (s.feed x).st = .retryWait) ∨ c = .feedRampTurnTake x) →
    Goes c s fun t =>
      t = { s with feeds := t.feeds, rampTurn := some x } ∧ (t.feed x).st = .ramp ∧ (t.feed x).rampFrame = s.frame ∧
        (t.feed x).odg = !(s.feed x).revNow ∧ (t.feed x).timer = 0 ∧ (t.feed x).trips = (s.feed x).trips ∧
        t.feed (1 - x) = s.feed (1 - x)) ∧
  (∀ (s : State) (x : Nat), s.Shaped → x < 2 → s.atBoundary = true → (s.feed x).st = .retryWait →
    (s.feed x).tripFrame + feedParam s x 0x17 ≤ s.frame → (s.feed x).window = false →
    Goes (.feedRetryDelayEnd x) s fun t =>
      t = { s with feeds := t.feeds, rampTurn := t.rampTurn, turnFrom := t.turnFrom } ∧ (t.feed x).st = .holdOff ∧
        ((t.feed x).holdOv = true ↔ (s.feed x).ov < (s.feed x).sns) ∧
        (t.feed x).count = 0 ∧ t.rampTurn ≠ some x ∧ t.feed (1 - x) = s.feed (1 - x)) ∧
  (∀ (s : State) (x : Nat), s.Shaped → x < 2 → ((s.feed x).st = .qualify ∨ (s.feed x).st = .holdOff) → (s.feed x).window = false →
    Goes (.feedWindowLoss x) s fun t =>
      FeedAlone x s t ∧ (t.feed x).count = 0 ∧ (t.feed x).st = (s.feed x).st) ∧
  (∀ (s : State) (m : FeedOn) (x : Nat), s.Shaped → m.feed = x → x < 2 → (s.feed x).st = .ramp → 4 ≤ (s.feed x).onRun → (s.feed x).withheld = false →
    (m.nv < fastTripNv s x → (s.feed x).timer < feedParam s x 0x16 → m.sns ≤ (s.feed x).ov → (s.feed x).sns ≤ (s.feed x).ov → (s.feed x).uvRun < 4 →
      Goes (.feedFullyOn m) s fun t =>
        OnlyFeed x s t ∧ (t.feed x).st = .on ∧ (t.feed x).pg = true ∧ t.rampTurn ≠ some x ∧
          (s.seq.mode = .sequencing → s.seq.step = 6 → t.seq.step6Good = true) ∧
          (s.seq.mode ≠ .sequencing → s.seq.feedless = false → t.seq = s.seq) ∧
          ((s.feed x).pg = false → t.attn.pending.getLsbD (eventAttn 0x28) = true) ∧
          ((s.feed 0).pg = false → (s.feed 1).pg = false → t.inn = s.inn.fresh)) ∧
    (fastTripNv s x ≤ m.nv ∨ feedParam s x 0x16 ≤ (s.feed x).timer ∨ (s.feed x).ov < max m.sns (s.feed x).sns ∨ 4 ≤ (s.feed x).uvRun →
      Goes (.feedFullyOn m) s fun t => OnlyFeed x s t ∧ (t.feed x).pg = false ∧ (t.feed x).st ≠ .on ∧ (t.feed x).st ≠ .ramp ∧ t.seq = s.seq))

/-- R221, R222, R264: a feed trip turns both gates off, drops power-good, names its cause and sets its sticky bit; it consumes one retry and
waits, or latches without one and gives the turn up. R213 to R215: an overvoltage turn-off and a run below UV_RUN hold the feed off instead:
no trip, no retry consumed, the turn given up; R229: a ramp timeout of the same pace is still the trip. -/
def Obligations.FeedTripsAndHoldOffs : Prop :=
  (∀ (s : State) (x : Nat) (c : Instr) (k : Nat), s.Shaped → x < 2 →
    ((∃ n, c = .feedFastTrip ⟨x, n⟩ ∧ k = 1 ∧ (s.feed x).conducting = true ∧ fastTripNv s x ≤ n) ∨
      (c = .feedFaultTimerTrip x ∧ k = 2 ∧ (s.feed x).conducting = true ∧ feedParam s x 0x16 ≤ (s.feed x).timer) ∨
      (c = .feedRampTimeout x ∧ k = 3 ∧ (s.feed x).st = .ramp ∧ (s.feed x).rampFrame + feedParam s x 0x14 ≤ s.frame)) →
    Goes c s fun t =>
      OnlyFeed x s t ∧ t.seq = s.seq ∧ (t.feed x).odg = false ∧ (t.feed x).pg = false ∧ (t.feed x).lastTrip = k ∧
        (t.feed x).flt.sticky.getLsbD (k - 1) = true ∧
        ((s.feed x).trips < (s.feed x).retries →
          (t.feed x).st = .retryWait ∧ (t.feed x).trips = (s.feed x).trips + 1 ∧ (t.feed x).tripFrame = s.frame ∧ t.rampTurn = s.rampTurn) ∧
        ((s.feed x).retries ≤ (s.feed x).trips →
          (t.feed x).st = .latched ∧ (t.feed x).trips = (s.feed x).trips ∧ (t.feed x).flt.sticky.getLsbD 3 = true ∧ t.rampTurn ≠ some x)) ∧
  (∀ (s : State) (x : Nat), s.Shaped → x < 2 → (s.feed x).st = .holdOff → (s.feed x).offAt = some s.now → (s.feed x).offTurn = true →
    (s.feed x).rampFrame + feedParam s x 0x14 ≤ s.frame →
    Goes (.feedRampTimeout x) s fun t =>
      OnlyFeed x s t ∧ (t.feed x).lastTrip = 3 ∧ (t.feed x).flt.sticky.getLsbD 2 = true ∧
        ((s.feed x).trips < (s.feed x).retries →
          (t.feed x).st = .retryWait ∧ (t.feed x).trips = (s.feed x).trips + 1 ∧ t.rampTurn = some x) ∧
        ((s.feed x).retries ≤ (s.feed x).trips → (t.feed x).st = .latched ∧ (t.feed x).trips = (s.feed x).trips)) ∧
  (∀ (s : State) (x : Nat) (c : Instr) (ov : Bool), s.Shaped → x < 2 → (s.feed x).conducting = true →
    ((∃ v, c = .feedOvTurnoff ⟨x, v⟩ ∧ ov = true ∧ (s.feed x).ov < v) ∨ (c = .feedUvRun x ∧ ov = false ∧ 4 ≤ (s.feed x).uvRun)) →
    Goes c s fun t =>
      OnlyFeed x s t ∧ t.seq = s.seq ∧ (t.feed x).st = .holdOff ∧ (t.feed x).holdOv = ov ∧ (t.feed x).odg = false ∧ (t.feed x).pg = false ∧
        (t.feed x).trips = (s.feed x).trips ∧ (t.feed x).lastTrip = (s.feed x).lastTrip ∧ t.rampTurn ≠ some x ∧
        (t.feed x).flt.sticky.getLsbD (if ov then 4 else 5) = true)

/-- R221, R222, R226, R228: the fault timer resets after 50 paces without the limit; the ideal-diode gate turns off and on with the node;
reverse current through a gate held off sets sticky bit 6; the trip count clears after 1,000 frames of power-good. -/
def Obligations.FeedGatesAndTimers : Prop :=
  (∀ (s : State) (x : Nat), s.Shaped → x < 2 → 50 ≤ (s.feed x).timerOff →
    Goes (.feedFaultTimerReset x) s fun t => FeedAlone x s t ∧ (t.feed x).timer = 0 ∧ (t.feed x).st = (s.feed x).st) ∧
  (∀ (s : State) (x : Nat) (d : Int), s.Shaped → x < 2 → (s.feed x).conducting = true → d < -10 →
    Goes (.feedReverseTurnoff ⟨x, d⟩) s fun t =>
      FeedAlone x s t ∧ (t.feed x).odg = false ∧ (t.feed x).rev = true ∧ (t.feed x).pg = (s.feed x).pg ∧ (t.feed x).st = (s.feed x).st) ∧
  (∀ (s : State) (x : Nat), s.Shaped → x < 2 → (s.feed x).conducting = true → (s.feed x).revNow = true → 2 ≤ (s.feed x).dropRun →
    Goes (.feedOdgTurnOn x) s fun t => FeedAlone x s t ∧ (t.feed x).odg = true ∧ (t.feed x).revNow = false ∧ (t.feed x).st = (s.feed x).st) ∧
  (∀ (s : State) (x : Nat), s.Shaped → x < 2 → 2 ≤ (s.feed x).revRun →
    Goes (.feedIdealDiodeFault x) s fun t =>
      OnlyFeed x s t ∧ (t.feed x).flt.sticky.getLsbD 6 = true ∧ (t.feed x).st = (s.feed x).st ∧ (t.feed x).odg = (s.feed x).odg) ∧
  (∀ (s : State) (x f : Nat), s.Shaped → x < 2 → (s.feed x).pg = true → (s.feed x).pgFrame = some f → f + 1000 ≤ s.frame →
    Goes (.feedTripCountClear x) s fun t => FeedAlone x s t ∧ (t.feed x).trips = 0 ∧ (t.feed x).pg = true)

/-! ### The sequencer (R32, R33, R77, R78, R236 to R249) -/

/-- R236, R240, R243, R266, R401, R431: a wake starts the sequence at step 0 with the `VCORE` domain at its reset values and the array as it
is burned; the always-on domain leaves and enters its power-on reset; a wake during a shutdown is noted; sequencing failure and integrity
hold end only by their own causes. The model's choices in it: what a wake records (log 46) and service boot (log 47). -/
def Obligations.WakesAndSupplies : Prop :=
  (∀ (s : State) (c : Instr) (b : Nat), s.seq.boot = false →
    ((c = .ignWake ∧ b = 0 ∧ s.seq.resetLow = false ∧ (s.seq.mode = .retention ∨ s.seq.mode = .seqFailure)) ∨
      (c = .vbootQualify ∧ b = 2 ∧ s.seq.resetLow = false ∧ s.seq.vbatOk = true ∧ s.seq.mode = .retention) ∨
      ((∃ a, c = .resetNRelease a) ∧ b = 3 ∧ (s.seq.mode = .retention ∨ s.seq.mode = .seqFailure ∨ s.seq.mode = .integrityHold))) →
    Goes c s fun t =>
      t.seq.mode = .sequencing ∧ t.seq.step = 0 ∧ t.seq.stepTick = s.tick ∧ t.seq.retries = 0 ∧ t.seq.wakeCause.getLsbD b = true ∧
        (s.seq.mode = .retention → t.seq.wakeCause = BitVec.ofNat 16 (2 ^ b)) ∧ t.locked = false ∧ t.params = State.reset.params ∧
        t.ledger = State.reset.ledger ∧ t.host = {} ∧ t.otp.low = s.otp.low ∧ t.otp.high = s.otp.high ∧ t.tick = s.tick ∧
        t.fltSeq = { s.fltSeq with stamp := 0 }) ∧
  (∀ (s : State) (c : Instr) (b : Nat), (s.seq.mode = .shutdown ∨ s.seq.mode = .shutoff ∨ s.seq.mode = .holdoff) →
    ((c = .ignWake ∧ b = 0) ∨ (c = .vbootQualify ∧ b = 2 ∧ s.seq.vbatOk = true) ∨ ((∃ a, c = .resetNRelease a) ∧ b = 3)) →
    Goes c s fun t =>
      t = { s with seq := t.seq, bus := t.bus } ∧ t.seq.mode = s.seq.mode ∧ t.seq.wakeNoted = s.seq.wakeNoted ||| BitVec.ofNat 16 (2 ^ b)) ∧
  (∀ (s : State) (c : Instr) (b : Nat), s.seq.mode = .sequencing →
    ((c = .ignWake ∧ b = 0) ∨ (c = .vbootQualify ∧ b = 2) ∨ ((∃ a, c = .resetNRelease a) ∧ b = 3)) →
    Goes c s fun t =>
      t = { s with seq := t.seq, bus := t.bus } ∧ t.seq.mode = .sequencing ∧ t.seq.step = s.seq.step ∧
        t.seq.wakeCause = s.seq.wakeCause ||| BitVec.ofNat 16 (2 ^ b)) ∧
  (∀ (s : State) (high : Bool) (a : Nat), s.seq.vbatOk = false → s.seq.resetLow = false →
    (s.seq.mode = .seqFailure ∨ s.seq.mode = .integrityHold) →
    Goes (.vbatAonPowerOn high a) s fun t =>
      t.seq.mode = .sequencing ∧ t.seq.step = 0 ∧ t.seq.retries = 0 ∧ t.seq.wakeCause.getLsbD 4 = true ∧ t.seq.vbatOk = true ∧
        t.fltAon.sticky = 1 ∧ t.fltSeq.sticky = 0 ∧ t.bus.addrPins = a % 8) ∧
  (∀ (s : State), s.seq.mode = .integrityHold →
    GoesTo .ignWake s { s with seq := { s.seq with ign := true, ignLowFrom := none } }) ∧
  (∀ (s : State) (high : Bool) (a : Nat), s.seq.vbatOk = false → s.seq.mode = .unpowered →
    Goes (.vbatAonPowerOn high a) s fun t =>
      t.seq.mode = (if high then .sequencing else .retention) ∧ t.seq.wakeCause = (if high then 0x0010 else 0) ∧ t.seq.vbatOk = true ∧
        t.seq.ign = high ∧ t.fltAon.sticky.getLsbD 0 = true ∧ t.bus.addrPins = a % 8 ∧ t.otp.low = s.otp.low ∧ t.otp.high = s.otp.high ∧
        t.params = State.reset.params ∧ t.ret.banks = State.reset.ret.banks) ∧
  (∀ (s : State), s.seq.vbatOk = true →
    (s.seq.boot = false → Goes .vbatAonDrop s fun t =>
      t.seq = State.reset.seq ∧ t.locked = false ∧ t.otp.low = s.otp.low ∧ t.otp.high = s.otp.high ∧ t.ret = State.reset.ret) ∧
    (s.seq.boot = true → GoesTo .vbatAonDrop s { s with seq := { s.seq with vbatOk := false } })) ∧
  (∀ (s : State), (s.powered = true ∨ s.seq.mode = .shutdown) →
    Goes .resetNAssert s fun t =>
      t.seq.mode = .shutoff ∧ t.seq.after = .rest ∧ t.seq.resetLow = true ∧ t.seq.lastTso = true ∧ t.locked = false ∧
        t.fltSeq.sticky.getLsbD 4 = true) ∧
  (∀ (s : State) (high : Bool), s.seq.mode ≠ .unpowered →
    Goes (.ignChange high) s fun t =>
      t = { s with seq := t.seq, attn := t.attn, events := t.events } ∧ t.seq.ign = high ∧ t.seq.mode = s.seq.mode ∧
        (high = true → t.seq.sleepAt = none ∧ t.seq.ignLowFrom = none) ∧ (high = false → t.seq.ignLowFrom = some s.frame) ∧
        (s.seq.ign ≠ high → s.seq.mode = .running → t.attn.pending.getLsbD (eventAttn 0x30) = true) ∧
        (s.seq.ign = high → t.attn = s.attn)) ∧
  (∀ (s : State) (p : Nat), s.seq.mode = .serviceBoot → s.locked = true → s.atBoundary = true → s.seq.bootPort = none → s.Shaped → bootCandidate s = some p →
    Goes .bootPortSelect s fun t =>
      t = { s with seq := { s.seq with bootPort := some p }, ridges := t.ridges } ∧ (t.ridge (ridgeOfPort p)).run = .running ∧
        (t.ridge (ridgeOfPort p)).bank.base = 3 ∧ (t.ridge (ridgeOfPort p)).activeSrc = 3 ∧
        ∀ x, x ≠ ridgeOfPort p → t.ridge x = s.ridge x) ∧
  (∀ (s : State), s.seq.boot = true →
    (s.seq.vbatOk = false → Goes .vbootDisqualify s fun t =>
      t.locked = false ∧ t.otp.low = s.otp.low ∧ t.otp.high = s.otp.high ∧ t.seq = State.reset.seq ∧ t.host = {} ∧ t.tun = {} ∧
        t.ret = State.reset.ret) ∧
    (s.seq.vbatOk = true → s.seq.mode = .serviceBoot → Goes .vbootDisqualify s fun t =>
      t.locked = false ∧ t.otp.low = s.otp.low ∧ t.otp.high = s.otp.high ∧ t.host = {} ∧ t.tun = {} ∧ t.seq.mode = .retention ∧
        t.seq.boot = false ∧ t.seq.vboot = false ∧ t.seq.retries = s.seq.retries ∧ t.seq.failStep = s.seq.failStep ∧
        t.seq.lastTso = s.seq.lastTso ∧ t.seq.noFall = s.seq.noFall ∧ t.seq.feedless = s.seq.feedless ∧ t.seq.wakeCause = s.seq.wakeCause ∧
        t.ret.banks = s.ret.banks)) ∧
  (∀ (s : State), (s.seq.boot = false ∨ s.seq.vbatOk = true) → s.seq.mode ≠ .serviceBoot →
    GoesTo .vbootDisqualify s { s with seq := { s.seq with vboot := false } })

/-- R33, R75, R238 to R243, R274, R399, R400: a rail good for three samples begins the next step; as `VIO` comes up only the port that an
attach-sniff wake takes over keeps its passive Rd, or in service boot every mask port; the PLL's lock starts frame 0 and hands an idle bus to
the `VCORE` front end; a sound OTP read begins step 4, a failing one goes to integrity hold; steps 6 and 7, whose `STGEN_r` rise one ridge a
tick; a step that is not qualified in time is a rail failure, which counts an attempt. The model's choices in it: what a counted shut-off
records (log 45). -/
def Obligations.SequenceSteps : Prop :=
  (∀ (s : State) (m : StepSense) (r n : Nat), s.seq.mode = .sequencing → s.seq.step = n → (n = 0 ∨ n = 1 ∨ n = 2 ∨ n = 4) →
    s.seq.subTick + 3 ≤ s.tick → s.tick ≤ s.seq.subTick + s.otp.seqTmo →
    Goes (.seqStepQualify m r) s fun t =>
      t = { s with seq := t.seq, ports := t.ports } ∧ t.seq.step = n + 1 ∧ t.seq.stepTick = s.tick ∧ t.seq.sub = 0 ∧
        t.seq.mode = .sequencing ∧ (n ≠ 1 → t.ports = s.ports) ∧
        (n = 1 → s.Shaped → ∀ p, p < 24 → t.port p =
          { s.port p with cc := { s.cc p with
              passiveRd := (s.cc p).passiveRd && (s.seq.boot || s.seq.wakeCause.getLsbD 2 && m.rp.contains p) } })) ∧
  (∀ (s : State) (m : StepSense) (r : Nat), s.seq.mode = .sequencing → s.seq.step = 3 → s.seq.sub = 0 → s.seq.subTick + 3 ≤ s.tick →
    s.tick ≤ s.seq.subTick + s.otp.seqTmo →
    GoesTo (.seqStepQualify m r) s { s with seq := { s.seq with sub := 1, subTick := s.tick } }) ∧
  (∀ (s : State) (m : StepSense) (r : Nat), s.Shaped → s.seq.mode = .sequencing → s.seq.step = 5 → s.seq.subTick + 3 ≤ s.tick →
    s.tick ≤ s.seq.subTick + s.otp.seqTmo →
    (s.otp.modes.testBit 2 = true → s.seq.sub = 0 →
      GoesTo (.seqStepQualify m r) s { s with seq := { s.seq with sub := 1, subTick := s.tick } }) ∧
    ((s.otp.modes.testBit 2 = false ∨ s.seq.sub ≠ 0) →
      Goes (.seqStepQualify m r) s fun t =>
        t.seq.step = 6 ∧ t.seq.step6Good = false ∧ (t.feed 0).armed = true ∧ (t.feed 1).armed = true ∧ t.ports = s.ports)) ∧
  (∀ (s : State) (m : StepSense) (l : List Nat) (r f : Nat), s.Shaped → l = m.imonMv → s.seq.mode = .sequencing → s.seq.step = 6 →
    s.seq.step6Good = true → s.seq.step7Frame = some f → f ≤ s.frame →
    Goes (.seqStepQualify m r) s fun t =>
      t.seq.step = 7 ∧ (∀ k, k < 48 → (t.phase k).fitted = imonFitted l k) ∧
        (∀ x, x < 6 → ((t.ridge x).stgen = true ↔ ∃ j, j < 8 ∧ imonFitted l (8 * x + j) = true) ∧
          ((t.ridge x).run = .depopulated ↔ ∀ j, j < 8 → imonFitted l (8 * x + j) = false) ∧
          (t.ridge x).stgenTick = s.tick + ridgesBefore l x) ∧
        (∀ p, p < 24 → (t.port p).inService = imonFitted l (8 * (p / 4) + 2 * (p % 4))) ∧
        ∀ p, p < 24 → imonFitted l (8 * (p / 4) + 2 * (p % 4)) = false → (t.cc p).st = .outOfService) ∧
  (∀ (s : State) (m : StepSense) (r : Nat), s.Shaped → s.seq.mode = .sequencing → s.seq.step = 7 → r < 6 → s.locked = true →
    (s.ridge r).stgen = true → (s.ridge r).stgenQual = false →
    ((s.ridge r).stgenTick + 3 ≤ s.tick → s.tick ≤ (s.ridge r).stgenTick + s.otp.seqTmo →
      Goes (.seqStepQualify m r) s fun t =>
        t = { s with seq := t.seq, ridges := t.ridges } ∧ (t.ridge r).stgenQual = true ∧
          (t.seq.mode = .running ↔ ∀ x, x < 6 → x ≠ r → (s.ridge x).stgen = true → (s.ridge x).stgenQual = true)) ∧
    ((s.ridge r).stgenTick + s.otp.seqTmo ≤ s.tick →
      Goes (.stgenRidgeTimeout r) s fun t =>
        (t.ridge r).run = .stopped ∧ (t.ridge r).stgen = false ∧ (t.ridge r).flt.sticky.getLsbD 5 = true ∧
          (∀ x, x ≠ r → t.ridge x = s.ridge x) ∧
          (t.seq.mode = .running ↔ ∀ x, x < 6 → x ≠ r → (s.ridge x).stgen = true → (s.ridge x).stgenQual = true))) ∧
  (∀ (s : State), s.inStep3 1 = true → s.tick ≤ s.seq.subTick + 64 →
    Goes .pllLock s fun t =>
      t = { s with locked := true, frame := 0, pace := 0, paceZero := true, paceCount := 0, seq := t.seq, bus := t.bus } ∧ t.seq.sub = 2 ∧
        t.seq.mode = s.seq.mode ∧ t.bus = (if s.bus.idle then { s.bus with vcoreFe := true } else s.bus)) ∧
  (∀ (s : State), s.inStep3 2 = true → s.otp.integrityFails = true →
    Goes .otpReadComplete s fun t => t.seq.mode = .shutdown ∧ t.seq.after = .integrity ∧ t.otp.low = s.otp.low) ∧
  (∀ (s : State), s.Shaped → s.inStep3 2 = true → s.otp.integrityFails = false → s.seq.boot = false →
    Goes .otpReadComplete s fun t =>
      t.seq.mode = s.seq.mode ∧ t.seq.step = 4 ∧ t.otp = s.otp.takeUp ∧ t.feed 0 = s.otp.takeUp.feedItems 0 (s.feed 0) ∧
        t.feed 1 = s.otp.takeUp.feedItems 1 (s.feed 1)) ∧
  (∀ (s : State), s.inStep3 2 = true → s.otp.integrityFails = false → s.seq.boot = true →
    Goes .otpReadComplete s fun t => t.seq.mode = s.seq.mode ∧ t.seq.complete = true ∧ t.seq.interpreter = true) ∧
  (∀ (s : State), s.seq.mode = .sequencing → s.seq.step = 6 → s.seq.step6Good = false → s.seq.stepFrame + 2000 ≤ s.frame →
    GoesTo .step6FeedlessTimeout s { s with seq := { s.seq with mode := .running, complete := true, feedless := true, sFrame := s.frame } }) ∧
  (∀ (s : State) (c : Instr), s.Shaped → s.seq.mode = .sequencing →
    ((c = .seqStepTimeout ∧ s.railStep = true ∧ s.seq.subTick + s.otp.seqTmo ≤ s.tick) ∨
      (c = .pllLockTimeout ∧ s.inStep3 1 = true ∧ s.seq.subTick + 64 < s.tick)) →
    Goes c s fun t =>
      t.seq.mode = .shutdown ∧ t.seq.failStep = s.seq.step ∧ t.seq.downStep = s.seq.step ∧ t.fltSeq.sticky.getLsbD 0 = true ∧
        (s.seq.retries < s.otp.seqRetries → t.seq.retries = s.seq.retries + 1 ∧ t.seq.after = .retry) ∧
        (s.otp.seqRetries ≤ s.seq.retries → t.seq.retries = s.seq.retries ∧ t.seq.after = .failure))

/-- R32, R239, R244 to R248, R264: the total shut-offs of the clock, a running rail and the die, a fault within 1,000 frames counting as a
rail failure; the warning of the die; an ordered shutdown after `IGN_OFF_DLY`, step by step down; the hold-off and what follows it. The
model's choices in it: what a total shut-off records (log 45) and the steps of a shutdown (log 50). -/
def Obligations.ShutdownAndHoldoff : Prop :=
  (∀ (s : State) (c : Instr) (b : Nat), s.powered = true →
    ((c = .runningRailFault ∧ b = 2) ∨ (c = .clockFault ∧ b = 3 ∧ s.locked = true)) →
    Goes c s fun t =>
      t.seq.mode = .shutoff ∧ t.locked = false ∧ t.seq.lastTso = true ∧ t.seq.tsoTick = s.tick ∧ t.seq.holdLen = 640 ∧ t.fltSeq.sticky.getLsbD b = true ∧
        (s.early1000 = false → t.seq.after = .restart ∧ t.seq.retries = s.seq.retries) ∧
        (s.early1000 = true → t.fltSeq.sticky.getLsbD 0 = true ∧
          t.seq.after = (if s.seq.retries < s.otp.seqRetries then .retry else .failure))) ∧
  (∀ (s : State), s.powered = true →
    Goes .dieHot s fun t =>
      t.seq.mode = .shutoff ∧ t.locked = false ∧ t.seq.after = .restart ∧ t.seq.holdLen = 32000 ∧ t.fltSeq.sticky.getLsbD 6 = true) ∧
  (∀ (s : State), s.locked = true → 2240 ≤ s.dev.dieTemp →
    Goes .dieWarn s fun t =>
      t = { s with dev := { s.dev with dieWarn := true }, fltTherm := t.fltTherm, faultN := t.faultN, attn := t.attn, irq := t.irq } ∧
        t.fltTherm.sticky.getLsbD 8 = true) ∧
  (∀ (s : State) (f : Nat), s.Shaped → s.seq.mode = .running → s.inf 0 0 0x38 = 1 → s.seq.ignLowFrom = some f → f + s.inf 0 0 0x39 ≤ s.frame →
    Goes .ignOffDelayExpiry s fun t =>
      t.seq.mode = .shutdown ∧ t.seq.after = .rest ∧ t.seq.downStep = 7 ∧ t.seq.downTick = s.tick ∧ t.seq.interpreter = false ∧
        (∀ p, p < 24 → (t.port p).inService = false ∧ (t.path p).swOn = false ∧ (s.seq.vbatOk = true → (t.cc p).disch = true)) ∧
        (∀ k, k < 48 → (t.phase k).active = 0 ∧ (t.phase k).steer = 0) ∧
        ∀ r, r < 6 → (t.ridge r).stgen = false ∧ (t.ridge r).switchPending = false ∧ (t.ridge r).stagingState = 0) ∧
  (∀ (s : State) (f : Nat), s.seq.mode = .serviceBoot → s.seq.complete = true → s.inf 0 0 0x38 = 1 → s.seq.ignLowFrom = some f →
    f + s.inf 0 0 0x39 ≤ s.frame →
    Goes .ignOffDelayExpiry s fun t =>
      t.seq.mode = .shutdown ∧ t.seq.after = .rest ∧ t.seq.downStep = s.seq.step ∧ t.seq.downTick = s.tick ∧ t.seq.interpreter = false) ∧
  (∀ (s : State) (n : Nat), s.seq.mode = .shutdown → s.seq.boot = false → s.seq.downStep = n + 1 → (n + 1 = 7 → step7Off s = true) →
    ¬(n + 1 = 5 ∧ s.seq.sub = 1) →
    Goes .shutdownStepOff s fun t => t.seq.mode = .shutdown ∧ t.seq.downStep = n ∧ t.seq.downTick = s.tick ∧ t.seq.noFall = s.seq.noFall ∧
      (n = 3 → t.locked = false)) ∧
  (∀ (s : State), s.seq.mode = .shutdown → s.seq.downStep = 5 → s.seq.sub = 1 →
    GoesTo .shutdownStepOff s { s with seq := { s.seq with sub := 0, downTick := s.tick } }) ∧
  (∀ (s : State), s.seq.mode = .shutdown → s.seq.downStep = 0 → s.seq.sub = 0 →
    GoesTo .shutdownStepOff s { s with seq := { s.seq with mode := .holdoff, holdEnd := s.tick + s.seq.holdLen } }) ∧
  (∀ (s : State), s.seq.mode = .shutdown → s.seq.downStep ≠ 7 → s.seq.downTick + 640 ≤ s.tick →
    Goes .shutdownNofallTimeout s fun t =>
      t.seq.noFall = true ∧ t.fltSeq.sticky.getLsbD 5 = true ∧ (s.seq.downStep = 0 → s.seq.sub = 0 → t.seq.mode = .holdoff)) ∧
  (∀ (s : State) (off : Bool), s.seq.mode = .shutoff → (off = true ∨ s.seq.tsoTick + 640 ≤ s.tick) →
    GoesTo (.shutoffRailWaitEnd off) s { s with seq := { s.seq with mode := .holdoff, holdEnd := s.tick + s.seq.holdLen } }) ∧
  (∀ (s : State), s.seq.mode = .holdoff → s.seq.holdEnd ≤ s.tick → s.seq.boot = false →
    (s.seq.resetLow = true →
      (s.seq.after = .rest ∨ s.seq.after = .retry ∨ s.seq.after = .restart ∨ (s.seq.after = .failure ∧ s.seq.wakeNoted &&& 0x0019 ≠ 0) ∨
        (s.seq.after = .integrity ∧ s.seq.wakeNoted &&& 0x0018 ≠ 0)) →
      Goes .holdoffEnd s fun t => t = { s with seq := t.seq } ∧ t.seq.mode = .retention) ∧
    (s.seq.resetLow = false → s.seq.wakeNoted = 0 →
      (s.seq.after = .rest → GoesTo .holdoffEnd s { s with seq := { s.seq with mode := .retention } }) ∧
      (s.seq.after = .retry → Goes .holdoffEnd s fun t =>
        t.seq.mode = .sequencing ∧ t.seq.step = 0 ∧ t.seq.retries = s.seq.retries ∧ t.seq.wakeCause.getLsbD 5 = true ∧
          ∀ x, x < 2 → (t.feed x).trips = (s.feed x).trips) ∧
      (s.seq.after = .restart → Goes .holdoffEnd s fun t =>
        t.seq.mode = .sequencing ∧ t.seq.step = 0 ∧ t.seq.retries = 0 ∧ t.seq.wakeCause.getLsbD 5 = true)) ∧
    (s.seq.after = .integrity → s.seq.wakeNoted &&& 0x0018 = 0 →
      GoesTo .holdoffEnd s { s with seq := { s.seq with mode := .integrityHold, wakeCause := s.seq.wakeCause ||| s.seq.wakeNoted } }) ∧
    (s.seq.after = .failure → s.seq.wakeNoted &&& 0x0019 = 0 → Goes .holdoffEnd s fun t =>
      t.seq = { s.seq with mode := .seqFailure, wakeCause := s.seq.wakeCause ||| s.seq.wakeNoted } ∧ t.fltSeq.sticky.getLsbD 1 = true ∧
        t.faultN = s.faultN) ∧
    (s.seq.resetLow = false → s.seq.after = .rest → s.seq.wakeNoted ≠ 0 → Goes .holdoffEnd s fun t => t.seq.mode = .sequencing ∧ t.seq.step = 0))

/-! ### Bring-up (R250 to R253, R424, R429) -/

/-- R57, R58, R82, R250, R251: every port in service is in full service: it goes home with its ATTACH_MODE from where reduced service or the
sequence has left it, starts PD where it is attached, and is disabled where ATTACH_MODE is 2. -/
def FullService (s t : State) : Prop :=
  ∀ p, p < 24 → (s.port p).inService = true →
    ((s.cc p).st = .disabled → (s.cc p).disabledBy = .bringup → (t.cc p).st =
      (if (s.cc p).toOutOfService then .outOfService else if portParam s p 0x20 = 2 then .disabled else .unattachedSrc)) ∧
    ((s.cc p).st = .attachedSrc → portParam s p 0x20 ≠ 2 →
      (t.cc p).st = .attachedSrc ∧ (t.pd p).started = true ∧ (t.pd p).startDue = some s.frame) ∧
    ((s.cc p).st = .attachedSrc → portParam s p 0x20 = 2 → (t.cc p).st = .disabled ∧ (t.pd p).lastEnd = 0xC ∧ (t.path p).swOn = false)

/-- R250 to R253, R263, R386, R424, R429: the milestones of bring-up in their order; reduced service places phase 2q of each port on its
home pair; the cairns, the early writes, the patch and the banks come back; at the end the Innkeeper starts, and the ports go to full service:
at once where reduced service has run, else in the frame after both that end and step 7; commands are served 60 frames after the sequence's end. The model's choices in it: banks, shutdown and late ridges (log 49 to log
52). -/
def Obligations.BringUp : Prop :=
  (∀ s : State, s.bringup 0 = true →
    Goes .calibrationTakeup s fun t =>
      t.seq = { s.seq with milestone := 1 } ∧ t.otp.calUse = s.otp.currentGen ∧ t.otp.calBad = s.otp.badChannels s.otp.currentGen ∧
        (s.otp.badChannels s.otp.currentGen ≠ [] → t.fltSense.sticky.getLsbD 3 = true)) ∧
  (∀ s : State, s.Shaped → s.seq.mode = .running → s.locked = true → 1 ≤ s.seq.milestone → s.seq.milestone < 6 → s.seq.reduced = false →
    (reducedDue s = true →
      Goes .reducedServiceStart s fun t =>
        t.seq = { s.seq with milestone := max s.seq.milestone 2, reduced := true } ∧ t.attn.pending.getLsbD (eventAttn 0x38) = true ∧
          (∀ r, r < 6 → (s.ridge r).run = .running → (t.ridge r).bank.base = 2 ∧ (t.ridge r).activeSrc = 2 ∧ (t.ridge r).started = true) ∧
          ∀ p, p < 24 →
            (reducedPlaces s p = true →
              (t.ledger.phase (homePhase p)).pair = 1 ∧ (t.ledger.phase (homePhase p)).st = 1 ∧
                (t.ledger.phase (homePhase p)).slot = 4 * (p % 4) ∧ (t.ledger.phase (homePhase p)).lawSet = 5 ∧
                ((s.cc p).st = .disabled → (s.cc p).disabledBy = .bringup →
                  (t.cc p).st = (if (s.cc p).toOutOfService then .outOfService else .unattachedSrc))) ∧
            (t.ledger.phase (homePhase p + 1)).pair = 0 ∧
            ((s.cc p).st ≠ .disabled → (t.cc p).st = (s.cc p).st)) ∧
    (s.seq.step7 = false → s.seq.milestone = 1 → GoesTo .reducedServiceStart s { s with seq := { s.seq with milestone := 2 } })) ∧
  (∀ s : State, s.Shaped → s.bringup 2 = true → s.atBoundary = true →
    Goes .cairnRestore s fun t =>
      t.seq = { s.seq with milestone := 3 } ∧ t.early = [] ∧ t.ledger = s.ledger ∧
        (∀ l id v, s.early = l ++ [(id, v)] → pidFlt id = none → mapGet t.params id = some v ∧ mapGet t.inForce id = some v) ∧
        ((s.cairn 16).valid = true → t.svc.modeTable = (s.cairn 16).record) ∧
        ((s.cairn 16).valid = false → t.svc.modeTable = List.replicate 128 0)) ∧
  (∀ s : State, s.bringup 3 = true → (s.cairn 18).valid = true → (s.cairn 18).record ≠ [] →
    Goes .patchVerification s fun t =>
      t.seq = { s.seq with milestone := 4 } ∧
        (patchFault s.otp (s.cairn 18).record (s.cairn 18).record.length = none →
          t.svc.patch = (s.cairn 18).record ∧ t.svc.patchRunning = true ∧ t.svc.patchLevel = patchLevelOf (s.cairn 18).record ∧
            t.svc.patchRam = patchBody (s.cairn 18).record ∧
            t.fltSupv = s.fltSupv) ∧
        (∀ n, patchFault s.otp (s.cairn 18).record (s.cairn 18).record.length = some n →
          t.svc.patchRunning = false ∧ t.fltSupv.sticky.getLsbD 3 = true ∧ t.attn.pending.getLsbD (eventAttn 0x39) = true)) ∧
  (∀ s : State, s.bringup 3 = true → ((s.cairn 18).valid = false ∨ (s.cairn 18).record = []) →
    Goes .patchVerification s fun t => t.seq = { s.seq with milestone := 4 } ∧ t.svc.patchRunning = false ∧ t.fltSupv = s.fltSupv) ∧
  (∀ s : State, s.Shaped → s.bringup 4 = true → s.atBoundary = true →
    Goes .ridgeBankLoad s fun t =>
      t.seq = { s.seq with milestone := 5 } ∧ t.ledger = s.ledger ∧
        ∀ r, r < 6 →
          ((s.ridge r).run = .depopulated → t.ridge r = s.ridge r) ∧
          ((s.ridge r).started = true → (s.ridge r).bank.base ≠ 2 → t.ridge r = s.ridge r) ∧
          ((s.ridge r).run ≠ .depopulated → ((s.ridge r).started = false ∨ (s.ridge r).bank.base = 2) →
            (t.ridge r).started = true ∧
              ((s.cairn (4 + r)).valid = false →
                (t.ridge r).bank = lawBank 1 ∧ (t.ridge r).activeSrc = 1 ∧ t.fltAon.sticky.getLsbD 3 = true))) ∧
  (∀ s : State, s.Shaped → s.bringup 5 = true →
    Goes .endOfBringup s fun t =>
      t.seq = { s.seq with milestone := 6, endFrame := s.frame, full := s.seq.full || s.seq.reduced, reduced := false } ∧ t.inn.started = true ∧
        t.attn.pending.getLsbD (eventAttn 0x38) = true ∧
        (s.seq.reduced = true → FullService s t) ∧
        (s.seq.reduced = false → ∀ p, p < 24 → (t.cc p).st = (s.cc p).st ∧
          ((s.port p).inService = true → (s.cc p).st = .attachedSnk → (t.pd p).started = true ∧ (t.pd p).startDue = some s.frame) ∧
          ((s.cc p).st ≠ .attachedSnk → t.pd p = s.pd p))) ∧
  (∀ s : State, s.Shaped → s.bringup 6 = true → s.seq.step7 = true → s.seq.full = false → s.seq.stepFrame < s.frame → s.seq.endFrame < s.frame →
    Goes .endOfBringup s fun t => t.seq = { s.seq with full := true, reduced := false } ∧ FullService s t) ∧
  (∀ s : State, s.Shaped → s.seq.mode = .running → s.locked = true → s.seq.interpreter = false → s.seq.sFrame + 60 ≤ s.frame →
    Goes .commandInterpreterStart s fun t =>
      t.seq = { s.seq with interpreter := true } ∧ t.attn.note = false ∧ (s.attn.note = true → t.attn.pending.getLsbD 15 = true))

/-! ### Margin mode and the supervisor restart (R433 to R437, R441 to R447) -/

/-- R329, R433, R434, R436, R437, R441: a record of 1,024 paces counts; eight are analysed into the phase's estimates; the re-plan bounds
DERATE and picks the law set, and the loss fit changes a coefficient by at most a tenth; a measurement or readmission without records ends.
The model's choices in it: free estimates and fit (log 11) and the corners of measurement (log 61). -/
def Obligations.MarginMode : Prop :=
  (∀ (s : State) (r : Nat) (b : Probe), s.Shaped → r < 6 → s.locked = true → (s.ridge r).probe = some b → b.paces = 1024 → b.records < 8 →
    GoesTo (.probeRecordComplete r) s (s.updRidge r fun q => { q with probe := some { b with records := b.records + 1, paces := 0 } })) ∧
  (∀ (s : State) (r : Nat) (b : Probe), s.Shaped → r < 6 → s.locked = true → (s.ridge r).probe = some b → b.records = 8 → b.readmit = false →
    b.phase < 48 →
    Goes (.measurementComplete r) s fun t =>
      (t.ridge r).probe = none ∧ (t.ridge r).replanDue = some b.phase ∧ (t.phase b.phase).est = (List.range 4).map (estimateOf b) ∧
        (t.phase b.phase).measured = true ∧ (t.phase b.phase).measFrame = s.frameCount ∧
        (t.phase b.phase).nMeas = sat1 (s.phase b.phase).nMeas ∧ b.phase ∉ t.ageQueue ∧ t.ledger = s.ledger ∧ t.params = s.params) ∧
  (∀ (s : State) (r : Nat) (b : Probe), s.Shaped → r < 6 → s.locked = true → (s.ridge r).probe = some b → b.records = 8 → b.readmit = true →
    b.phase < 48 →
    Goes (.measurementComplete r) s fun t =>
      (t.ridge r).probe = none ∧ b.phase ∉ t.readmitting ∧
        (inBand (estimateOf b 0) = true → (t.phase b.phase).retired = false ∧ (t.phase b.phase).lBase = estimateOf b 0 ∧
          mapGet t.params (pid 4 b.phase 0x0B) = some 100 ∧ ∀ pl, t.waits pl (.readmit b.phase) = s.waits pl (.readmit b.phase)) ∧
        (inBand (estimateOf b 0) = false → (t.phase b.phase).retired = (s.phase b.phase).retired ∧ t.params = s.params ∧
          ∀ pl, t.waits pl (.readmit b.phase) = false)) ∧
  (∀ (s : State) (r k : Nat), s.Shaped → r < 6 → s.locked = true → s.atBoundary = true → s.sup.st ≠ .hold → (s.ridge r).replanDue = some k →
    (s.marginOn = false → GoesTo (.replanApply r) s (s.updRidge r fun q => { q with replanDue := none })) ∧
    (s.marginOn = true →
      Goes (.replanApply r) s fun t =>
        (t.ridge r).replanDue = none ∧ t.ledger = s.ledger ∧
          ∃ d, mapGet t.params (pid 4 k 0x0B) = some d ∧ 25 ≤ d ∧ d ≤ 100 ∧
            mapGet t.params (pid 4 k 0x04) = some (max 400 (20 * d)) ∧
            mapGet t.params (pid 4 k 0x07) =
              some (lawSetOf ((s.phase k).est.getD 0 0) ((s.phase k).est.getD 1 0) (s.written (pid 4 k 0x07)) true))) ∧
  (∀ s : State, s.Shaped → s.locked = true → s.marginOn = true → s.atBoundary = true → s.sup.st ≠ .hold → s.dev.lossFitFrame + 10000 ≤ s.frame →
    Goes .lossFit s fun t =>
      t.dev.lossFitFrame = s.frame ∧ t.freeN = s.freeN + 1 ∧ t.ledger = s.ledger ∧
        ∀ k m, k < 48 → (m = 0x08 ∨ m = 0x09) →
          t.written (pid 4 k m) ≤ s.written (pid 4 k m) + s.written (pid 4 k m) / 10 ∧
          (s.written (pid 4 k m) ≤ 10000 → s.written (pid 4 k m) - s.written (pid 4 k m) / 10 ≤ t.written (pid 4 k m))) ∧
  (∀ (s : State) (r k : Nat), s.Shaped → (s.ageQueue.find? fun k => ridgeOfPhase k == r && s.ran (waitFrame s (.ageing k)) 1000) = some k →
    Goes (.ageingMeasureTimeout r) s fun t =>
      k ∉ t.ageQueue ∧ (∀ pl, t.waits pl (.ageing k) = false) ∧ (∀ b, (t.ridge r).probe = some b → b.phase ≠ k) ∧ t.phases = s.phases ∧
        t.params = s.params) ∧
  (∀ (s : State) (r : Nat) (b : Probe), s.Shaped → r < 6 → s.locked = true → (s.ridge r).probe = some b → b.readmit = true →
    b.startFrame + 1000 ≤ s.frame →
    Goes (.readmitTimeout r) s fun t =>
      (t.ridge r).probe = none ∧ b.phase ∉ t.readmitting ∧ (∀ pl, t.waits pl (.readmit b.phase) = false) ∧ t.phases = s.phases)

/-- R112, R297, R330, R443 to R447: the readied restart begins its hold at a frame boundary once everything retained is written: the
supervisor is reset, the event queue is lost, the ports and phases go on under the ledger in force; it returns with a new ledger; a hold
that expires places no phase and every served port loses conversion. The model's choices in it: when a hold begins and returns (log 62). -/
def Obligations.SupervisorRestart : Prop :=
  (∀ s : State, s.Shaped → s.locked = true → s.sup.st = .readied → s.atBoundary = true → s.retClean = true →
    (s.sup.replyRead = true ∨ s.sup.readyFrame + 100 ≤ s.frame) →
    Goes .supRestartHoldBegin s fun t =>
      t.sup.st = .hold ∧ t.sup.hFrame = s.frame ∧ t.sup.eng = {} ∧ t.events.lost = true ∧ t.irq = [] ∧ t.captures = [] ∧
        (s.tester.st = .closed → t.events.recs = []) ∧
        (s.tester.st ≠ .closed → ∃ e, t.events.recs = [e] ∧ e.kind = 0x21 ∧ e.inst = s.tester.port ∧ e.data = [5]) ∧ t.host.slot = .empty ∧
        t.host.place0 = none ∧ t.host.place12 = none ∧ t.tun.slot = .empty ∧ t.tester.st = .closed ∧ t.otp.staged = [] ∧
        t.seq.sleepAt = none ∧ t.inn.next = none ∧ t.ledger = s.ledger ∧ t.phases = s.phases ∧ t.params = s.params ∧
        t.fltSeq = s.fltSeq ∧ t.busMode ≠ 1 ∧
        (∀ p, p < 24 → t.cc p = s.cc p ∧ t.pd p = { s.pd p with inbox := [] } ∧ t.sw p = s.sw p ∧ t.vc p = s.vc p) ∧
        ∀ r, r < 6 → (t.ridge r).switchPending = false ∧ (t.ridge r).probe = none ∧ (t.ridge r).run = (s.ridge r).run) ∧
  (∀ s : State, s.Shaped → s.locked = true → s.sup.st = .hold → s.atBoundary = true → s.sup.hFrame < s.frame →
    Goes .supervisorReturn s fun t =>
      t.sup.st = .up ∧ t.inn.started = true ∧ t.inn.next = none ∧ t.frame = s.frame ∧ t.ledger.hdr.frame = s.frame % 2 ^ 32 ∧
        t.ledger.hdr.held = false ∧ t.dev.uptime = 0 ∧
        (s.sup.romOnly = true → t.svc.patchRunning = false ∧ t.svc.patchLevel = 0) ∧
        ∀ p, p < 24 → (s.pd p).hrInHold = true → (t.cc p).st = .errorRecovery ∧ (t.pd p).lastEnd = 0xB ∧ (t.pd p).hrInHold = false) ∧
  (∀ s : State, s.Shaped → s.locked = true → s.sup.st = .hold → s.sup.hFrame + 500 ≤ s.frame → s.sup.expired = false →
    Goes .holdExpiry s fun t =>
      t.sup.st = .hold ∧ t.sup.expired = true ∧ t.sup.romOnly = true ∧ t.svc.patchRunning = false ∧ t.fltSupv.sticky.getLsbD 3 = true ∧
        (∀ k, (t.ledger.phase k).pair = 0 ∧ recPort k (t.ledger.phase k) = none) ∧
        ∀ p, p < 24 → (s.port p).inService = true → (s.cc p).st ≠ .disabled → (s.cc p).st ≠ .outOfService →
          (t.cc p).st = .errorRecovery ∧ (t.cc p).toOutOfService = true ∧
            ((s.cc p).st ≠ .errorRecovery → (t.pd p).lastEnd = 0xA ∧ (t.pd p).contract = {} ∧ (t.path p).swOn = false))

/-! ### The Knaha engines (R352 to R379) -/

/-- The command of a word whose own move writes socket d (R364). -/
def KnahaCommand (c : Instr) (a : KArg) (d : Nat) : Prop :=
  (c, d) ∈ [(.aluPass a, 0x19), (.aluAdd a, 0x1A), (.aluSub a, 0x1B), (.aluAdds a, 0x1C), (.aluSubs a, 0x1D), (.aluAnd a, 0x1E),
    (.aluOr a, 0x1F), (.aluXor a, 0x20), (.aluShl a, 0x21), (.aluSar a, 0x22), (.aluShr a, 0x23), (.aluMin a, 0x24), (.aluMax a, 0x25),
    (.aluAbs a, 0x26), (.aluNeg a, 0x27), (.cmpLt a, 0x2A), (.cmpLe a, 0x2B), (.cmpEq a, 0x2C), (.cmpNe a, 0x2D), (.cmpGe a, 0x2E),
    (.cmpGt a, 0x2F), (.cmpLtu a, 0x30), (.cmpGeu a, 0x31), (.cmpTst a, 0x32)] ++
    [(.cmpPset a, 0x33), (.macMul a, 0x35), (.macMac a, 0x36), (.macMsu a, 0x37), (.macDmac a, 0x38), (.macLd a, 0x39), (.macClr a, 0x3A),
    (.macMode a, 0x3B), (.lpRep a, 0x61), (.lpRepH a, 0x62), (.pcJmp a, 0x63), (.pcCall a, 0x64), (.pcRet a, 0x65), (.pwmPub a, 0x70),
    (.steerReq a, 0x71), (.irqRet a, 0xA1)] ∨
  c = .move a d ∨ (∃ u, c = .memRead a u d) ∨ (∃ u, c = .memWrite a u ∧ d = 0x40 + u) ∨ (∃ k, c = .pwmDutyWrite a k ∧ d = 0x68 + k) ∨
  ∃ n, c = .cstTrigger a n ∧ d = 0x50 + n

/-- No repetition, jump, custom instruction, multiplier trigger or interrupt return is under way. -/
def Quiet (e : Engine) : Prop := e.rep = none ∧ e.resume = none ∧ e.macPipe = [] ∧ e.cstAt = none ∧ e.jump = none

/-- The operands of a word of one move have an encoding (R359). -/
def OneMove (a : KArg) : Prop := a.other = none ∧ longOk { guard := a.op.guard, src := a.op.src } = true ∧ reservedFit (argWord a 0) a.reserved = true

/-- A word of one move runs on a ridge engine: its window is open, its guard holds, and its source shows `v`. -/
def RunsOn (s : State) (a : KArg) (v : Word) : Prop :=
  s.Shaped ∧ a.eng < 6 ∧ s.engineRuns a.eng = true ∧ OneMove a ∧ Quiet (s.ridge a.eng).eng ∧
    guardHolds (s.ridge a.eng).eng.preds a.op.guard = true ∧
    (a.op.src = .imm v ∨ ∃ n, a.op.src = .sock n ∧ memSrc (.sock n) = none ∧
      (s.ridge a.eng).eng.source (ridgeKind (s.ridge a.eng).bank) 0 n = v)

/-- The engine one cycle and one word on. -/
def nextWord (e : Engine) : Engine := { e with pc := BitVec.ofNat 16 ((e.pc.toNat + 1) % 8192), cyc := e.cyc + 1 }

/-- The word leaves engine r as `e` and changes nothing else of the block. -/
def Leaves (c : Instr) (s : State) (r : Nat) (e : Engine) : Prop := GoesTo c s (s.updRidge r fun q => { q with eng := e })

/-- R352 to R360, R364 and R378: every 32-bit word, long or paired, completes on a ridge engine whose window is open and on the supervisor, and
touches nothing of the block but its engine, the shadow duties, requests and publish of its ridge; a word outside the window does nothing.
A write of `sv.pd` completes like a write of a reserved socket, because the manual does not describe the peripherals (log 10). The model's
choices in it: a command is the word at the pc (log 63). -/
def Obligations.KnahaWordsComplete : Prop :=
  (∀ (s : State) (c : Instr) (a : KArg) (d : Nat), s.Shaped → KnahaCommand c a d → a.eng < 6 → s.engineRuns a.eng = true →
    Goes c s fun t =>
      t = { s with phases := t.phases, ridges := t.ridges } ∧
        (t.ridge a.eng).eng.cyc = (s.ridge a.eng).eng.cyc + 1 ∧ (∀ x, x ≠ a.eng → t.ridge x = s.ridge x) ∧
        ∀ k, ridgeOfPhase k ≠ a.eng → t.phase k = s.phase k) ∧
  (∀ (s : State) (c : Instr) (a : KArg) (d : Nat), KnahaCommand c a d → a.eng < 6 → s.engineRuns a.eng = false → Idles c s) ∧
  (∀ (s : State) (c : Instr) (a : KArg) (d : Nat), KnahaCommand c a d → a.eng = 6 →
    (s.supRuns = true → Goes c s fun t =>
      t = { s with sup := { s.sup with eng := t.sup.eng }, freeN := t.freeN } ∧ t.sup.eng.cyc = s.sup.eng.cyc + 1) ∧
    (s.supRuns = false → Idles c s)) ∧
  (∀ (s : State) (a : KArg) (v : Word), s.Shaped → a.eng = 6 → s.supRuns = true → OneMove a → a.op.src = .imm v → Quiet s.sup.eng →
    guardHolds s.sup.eng.preds a.op.guard = true →
    GoesTo (.move a 0xA3) s { s with sup := { s.sup with eng :=
      { s.sup.eng with pc := BitVec.ofNat 16 ((s.sup.eng.pc.toNat + 1) % 65536), cyc := s.sup.eng.cyc + 1 } } })

/-- R357, R361, R362, R364 to R368: what a word of one move does in a ridge engine: the ALU's result, the predicate a compare writes, the
trigger in flight of the multiplier, the register a move writes, and nothing else but the next pc and cycle; of two moves of a word to one
register move B is made. -/
def Obligations.KnahaArithmetic : Prop :=
  (∀ (s : State) (a : KArg) (v x : Word) (c : Instr) (e : Engine), RunsOn s a v → e = (s.ridge a.eng).eng →
    (c, x) ∈ [(.aluPass a, v), (.aluAdd a, e.aluA + v), (.aluSub a, e.aluA - v), (.aluAdds a, wordOfInt (sat16 (e.aluA.toInt + v.toInt))),
      (.aluSubs a, wordOfInt (sat16 (e.aluA.toInt - v.toInt))), (.aluAnd a, e.aluA &&& v), (.aluOr a, e.aluA ||| v), (.aluXor a, e.aluA ^^^ v),
      (.aluShl a, e.aluA <<< (v.toNat % 16)), (.aluSar a, e.aluA.sshiftRight (v.toNat % 16)), (.aluShr a, e.aluA >>> (v.toNat % 16)),
      (.aluMin a, if e.aluA.toInt ≤ v.toInt then e.aluA else v), (.aluMax a, if e.aluA.toInt ≤ v.toInt then v else e.aluA),
      (.aluAbs a, if v = 0x8000 then 0x7FFF else if v.toInt < 0 then 0 - v else v), (.aluNeg a, if v = 0x8000 then 0x7FFF else 0 - v)] →
    Leaves c s a.eng { nextWord e with aluRes := x }) ∧
  (∀ (s : State) (a : KArg) (v : Word) (b : Bool) (c : Instr) (e : Engine), RunsOn s a v → e = (s.ridge a.eng).eng →
    (c, b) ∈ [(.cmpLt a, decide (e.cmpA.toInt < v.toInt)), (.cmpLe a, decide (e.cmpA.toInt ≤ v.toInt)), (.cmpEq a, decide (e.cmpA = v)),
      (.cmpNe a, decide (e.cmpA ≠ v)), (.cmpGe a, decide (v.toInt ≤ e.cmpA.toInt)), (.cmpGt a, decide (v.toInt < e.cmpA.toInt)),
      (.cmpLtu a, decide (e.cmpA.toNat < v.toNat)), (.cmpGeu a, decide (v.toNat ≤ e.cmpA.toNat)), (.cmpTst a, decide (v ≠ 0))] →
    Leaves c s a.eng { nextWord e with pred := setPred e.macLatched e.pred (e.cmpP.toNat % 4) b }) ∧
  (∀ (s : State) (a : KArg) (v : Word) (e : Engine), RunsOn s a v → e = (s.ridge a.eng).eng →
    ∃ g : BitVec 4, Leaves (.cmpPset a) s a.eng { nextWord e with pred := g } ∧
      (∀ i, i < 3 → g.getLsbD i = v.getLsbD i) ∧ g.getLsbD 3 = (if e.macLatched then e.pred.getLsbD 3 else v.getLsbD 3)) ∧
  (∀ (s : State) (a : KArg) (v : Word) (w : MacDo) (c : Instr) (e : Engine), RunsOn s a v → e = (s.ridge a.eng).eng →
    (c, w) ∈ [(.macMul a, .set (e.macA.toInt * v.toInt)), (.macMac a, .add (e.macA.toInt * v.toInt)), (.macMsu a, .add (-(e.macA.toInt * v.toInt))),
      (.macLd a, .set (v.toInt * 32768)), (.macClr a, .set 0)] →
    Leaves c s a.eng { nextWord e with macPipe := [{ due := e.cyc + 3, what := w }] }) ∧
  (∀ (s : State) (a : KArg) (v : Word) (e : Engine) (i j : Nat) (q : Int), RunsOn s a v → e = (s.ridge a.eng).eng →
    i = v.toNat % 4 → j = 4 + v.toNat / 4 % 4 →
    q = (e.peek (ridgeKind (s.ridge a.eng).bank) i).toInt * (e.peek (ridgeKind (s.ridge a.eng).bank) j).toInt →
    Leaves (.macDmac a) s a.eng
      { nextWord e with
        units := (e.units.modify i AddrUnit.post).modify j AddrUnit.post
        macPipe := [{ due := e.cyc + 3, what := if v.getLsbD 4 then .set (if v.getLsbD 5 then -q else q) else .add (if v.getLsbD 5 then -q else q) }] }) ∧
  (∀ (s : State) (a : KArg) (v : Word) (e : Engine), RunsOn s a v → e = (s.ridge a.eng).eng →
    Leaves (.macMode a) s a.eng
      { nextWord e with macLatched := v == 1, pred := if e.macLatched = true ∨ v = 1 then (e.pred &&& 7) ||| 8 else e.pred }) ∧
  (∀ (s : State) (a : KArg) (v : Word) (e e' : Engine) (d : Nat), RunsOn s a v → e = (s.ridge a.eng).eng →
    ((d = 0 ∧ e' = e) ∨ (∃ i, i < 16 ∧ d = 0x08 + i ∧ e' = { e with gp := e.gp.set i v }) ∨ (d = 0x18 ∧ e' = { e with aluA := v }) ∨
      (d = 0x28 ∧ e' = { e with cmpA := v }) ∨ (d = 0x29 ∧ e' = { e with cmpP := v }) ∨ (d = 0x34 ∧ e' = { e with macA := v }) ∨
      (d = 0x60 ∧ e' = { e with cstB := v }) ∨
      (∃ u, u < 8 ∧ ((d = 0x48 + u ∧ e' = { e with units := e.units.modify u fun x => { x with ptr := v } }) ∨
        (d = 0x80 + 4 * u ∧ e' = { e with units := e.units.modify u fun x => { x with step := v } }) ∨
        (d = 0x81 + 4 * u ∧ e' = { e with units := e.units.modify u fun x => { x with base := v } }) ∨
        (d = 0x82 + 4 * u ∧ e' = { e with units := e.units.modify u fun x => { x with len := v } }) ∨
        (d = 0x83 + 4 * u ∧ e' = { e with units := e.units.modify u fun x => { x with mode := v } })))) →
    Leaves (.move a d) s a.eng (nextWord e')) ∧
  (∀ (s : State) (a : KArg) (m : KMove) (e : Engine) (i j x y : Nat), s.Shaped → a.eng < 6 → s.engineRuns a.eng = true →
    e = (s.ridge a.eng).eng → Quiet e → a.other = some m → a.selfIsB = false → shortOk { a.op with dst := 0 } = true → shortOk m = true →
    a.reserved < 2 → guardHolds e.preds a.op.guard = true →
    guardHolds e.preds m.guard = true → a.op.src = .sock (0x08 + x) → m.src = .sock (0x08 + y) → m.dst = 0x08 + j →
    i < 16 → j < 16 → x < 16 → y < 16 →
    Leaves (.move a (0x08 + i)) s a.eng
      (nextWord { e with gp := if i = j then e.gp.set j (e.gp.getD y 0) else (e.gp.set i (e.gp.getD x 0)).set j (e.gp.getD y 0) }))

/-- R353, R358, R367, R370 to R372, R374, R379: memory is read and written at a unit's pointer, which is then post-modified; the loop, jump,
call and return; the custom unit; a trigger that lands after three cycles; the supervisor's interrupt and its return. The model's choices in
it: corners of the engines (log 64). -/
def Obligations.KnahaMemoryAndControl : Prop :=
  (∀ (s : State) (a : KArg) (v : Word) (e : Engine) (u : Nat), RunsOn s a v → e = (s.ridge a.eng).eng → u < 8 →
    Leaves (.memWrite a u) s a.eng
      { nextWord e with
        x := if u < 4 then cellsWrite e.x ((e.unit u).ptr.toNat % 4096) (keptWord true ((e.unit u).ptr.toNat % 4096) v) else e.x
        y := if u < 4 then e.y else cellsWrite e.y ((e.unit u).ptr.toNat % 4096) (keptWord false ((e.unit u).ptr.toNat % 4096) v)
        units := e.units.modify u AddrUnit.post }) ∧
  (∀ (a : Nat) (v : Word) (isX : Bool), keptWord isX a v = v ∨ (isX = true ∧ 0x46 ≤ a ∧ a < 0x80 ∧ keptWord isX a v = 0) ∨
    (isX = false ∧ a < 0x18 ∧ keptWord isX a v = v &&& 0x0FFF ∧ a = 0) ∨ (isX = false ∧ 0x09 ≤ a ∧ a ≤ 0x17 ∧ keptWord isX a v = 0)) ∧
  (∀ (s : State) (a : KArg) (e : Engine) (u i : Nat), s.Shaped → a.eng < 6 → s.engineRuns a.eng = true → OneMove (reading a u) →
    e = (s.ridge a.eng).eng → Quiet e → guardHolds e.preds a.op.guard = true → u < 8 → i < 16 →
    Leaves (.memRead a u (0x08 + i)) s a.eng
      { nextWord e with
        gp := e.gp.set i (cellsRead (if u < 4 then e.x else e.y) ((e.unit u).ptr.toNat % 4096))
        units := e.units.modify u AddrUnit.post }) ∧
  (∀ (s : State) (a : KArg) (v : Word) (e : Engine) (c : Instr) (h : Bool), RunsOn s a v → e = (s.ridge a.eng).eng →
    ((c = .lpRep a ∧ h = false) ∨ (c = .lpRepH a ∧ h = true)) →
    (v ≠ 0 → Leaves c s a.eng { nextWord e with rep := some (min v.toNat 1023), repHold := h }) ∧
    (v = 0 → Leaves c s a.eng { nextWord e with pc := BitVec.ofNat 16 ((e.pc.toNat + 2) % 8192) })) ∧
  (∀ (s : State) (a : KArg) (v : Word) (e : Engine), RunsOn s a v → e = (s.ridge a.eng).eng →
    Leaves (.pcJmp a) s a.eng { nextWord e with jump := some v, repHold := false } ∧
    Leaves (.pcCall a) s a.eng
      { nextWord e with
        jump := some v, repHold := false
        calls := (BitVec.ofNat 16 ((e.pc.toNat + 2) % 8192) :: e.calls).take 8 } ∧
    (∀ x rest, e.calls = x :: rest → Leaves (.pcRet a) s a.eng { nextWord e with jump := some x, calls := rest, repHold := false }) ∧
    (e.calls = [] → Leaves (.pcRet a) s a.eng { nextWord e with running := false, repHold := false })) ∧
  (∀ (s : State) (a : KArg) (v : Word) (e : Engine) (n : Nat), RunsOn s a v → e = (s.ridge a.eng).eng → n < 16 →
    Leaves (.cstTrigger a n) s a.eng (nextWord
      (({ e with u := (e.u.set 0 (v.signExtend 32)).set 1 (e.cstB.signExtend 32) } : Engine).micro (ridgeKind (s.ridge a.eng).bank) (16 * n)))) ∧
  (∀ (s : State) (r : Nat) (e : Engine) (o : MacOp), s.Shaped → r < 6 → e = (s.ridge r).eng → e.macPipe = [o] → o.due ≤ e.cyc →
    (∀ x, o.what = .set x → Leaves (.macTriggerComplete r) s r { e with acc := x, macOut := x, macPipe := [] }) ∧
    (∀ x, o.what = .add x → -(2 ^ 39) ≤ e.acc + x → e.acc + x ≤ 2 ^ 39 - 1 →
      Leaves (.macTriggerComplete r) s r { e with acc := e.acc + x, macOut := e.acc + x, macPipe := [] }) ∧
    (∀ x, o.what = .add x → 2 ^ 39 - 1 < e.acc + x →
      Leaves (.macTriggerComplete r) s r { e with acc := 2 ^ 39 - 1, macOut := 2 ^ 39 - 1, macOvf := true, macPipe := [] })) ∧
  (∀ (s : State) (r : Nat) (e : Engine), s.Shaped → r < 6 → e = (s.ridge r).eng → e.rep = some 0 →
    Leaves (.repeatEnd r) s r { e with rep := none, repHold := false, pc := BitVec.ofNat 16 ((e.pc.toNat + 1) % 8192) }) ∧
  (∀ (s : State) (vec : Word) (e : Engine), s.supRuns = true → e = s.sup.eng → e.shadow = none → e.resume = none →
    (e.repHold = false ∨ e.rep = none ∨ e.rep = some 0) →
    (s.enabledIrqs = [] → Idles (.interruptTaken vec) s) ∧
    (s.enabledIrqs ≠ [] → Goes (.interruptTaken vec) s fun t =>
      t = { s with sup := { s.sup with eng := t.sup.eng }, irq := t.irq } ∧ t.sup.eng.pc = vec ∧ t.sup.eng.cyc = e.cyc + 2 ∧ t.sup.eng.irqEn = 0 ∧
        t.sup.eng.jump = none ∧ t.sup.eng.rep = none ∧ t.sup.eng.gp = e.gp ∧
        t.sup.eng.shadow = some { pc := e.pc, jump := e.jump, rep := e.rep, repHold := e.repHold, pred := e.preds, irqEn := e.irqEn,
                                  srcs := s.enabledIrqs } ∧
        ∀ x, x ∈ t.irq ↔ x ∈ s.irq ∧ x.bit &&& e.irqEn = 0)) ∧
  (∀ (s : State) (vec : Word), s.sup.eng.mayInterrupt = false → Idles (.interruptTaken vec) s) ∧
  (∀ (s : State) (a : KArg) (e : Engine) (w : Word), e = s.sup.eng → s.supRuns = true → s.Shaped → a.eng = 6 → OneMove a → a.op.src = .imm w →
    Quiet e → guardHolds e.preds a.op.guard = true → ∀ sh, e.shadow = some sh →
    Goes (.irqRet a) s fun t =>
      t = { s with sup := { s.sup with eng := t.sup.eng } } ∧ t.sup.eng.resume = some sh ∧ t.sup.eng.shadow = none ∧ t.sup.eng.pred = sh.pred ∧
        t.sup.eng.irqEn = sh.irqEn ∧ t.sup.eng.pc = BitVec.ofNat 16 ((e.pc.toNat + 1) % 65536))

/-- R35, R37 to R39, R43, R44, R161: a ridge program writes shadow duties and steering requests; its publish counts and ends the program of its
pace; in the publish window each published duty is checked: one within its ceiling is taken up, a first miss keeps the active duty, or zero
for an idle phase, a second stops the phase, and every miss is reported. -/
def Obligations.DutiesAndPublish : Prop :=
  (∀ (s : State) (a : KArg) (v : Word) (e : Engine) (k : Nat), RunsOn s a v → e = (s.ridge a.eng).eng → k < 8 →
    GoesTo (.pwmDutyWrite a k) s
      ((s.updRidge a.eng fun q => { q with eng := nextWord e }).updPhase (8 * a.eng + k) fun f => { f with shadow := v.toNat })) ∧
  (∀ (s : State) (a : KArg) (v : Word) (e : Engine), RunsOn s a v → e = (s.ridge a.eng).eng →
    GoesTo (.steerReq a) s (s.updRidge a.eng fun q => { q with eng := nextWord e, steerWord := mergeSteer q.steerWord v })) ∧
  (∀ (s : State) (a : KArg) (v : Word) (e : Engine) (n : Nat), RunsOn s a v → e = (s.ridge a.eng).eng → n = s.deadline - 1 - e.cyc →
    GoesTo (.pwmPub a) s (s.updRidge a.eng fun q =>
      { q with
        eng := { nextWord e with running := false }, published := true, checkDue := true, pubCyc := e.cyc
        run := if q.run == .held then .running else q.run
        paceMarginNow := min q.paceMarginNow n, paceMarginMin := min q.paceMarginMin n })) ∧
  (∀ (s u : State) (r : Nat), s.Shaped → s.ridgeLive r = true → (s.ridge r).checkDue = true → u = publishWindow r s →
    u = { s with phases := u.phases, ridges := u.ridges, faultN := u.faultN, attn := u.attn, irq := u.irq } ∧ (u.ridge r).checkDue = false ∧
      (∀ x, x ≠ r → u.ridge x = s.ridge x) ∧ (∀ k, ridgeOfPhase k ≠ r → u.phase k = s.phase k) ∧
      ∀ j k, j < 8 → k = 8 * r + j →
        (unchecked (s.phase k) = true → u.phase k = s.phase k) ∧
        (unchecked (s.phase k) = false → dutyFails s k = false →
          u.phase k = { s.phase k with missed := false, checked := if shedPhase s k then 0 else (s.phase k).shadow }) ∧
        (unchecked (s.phase k) = false → dutyFails s k = true →
          (u.ridge r).flt.sticky.getLsbD 1 = true ∧ (u.ridge r).pubMiss.getLsbD j = true ∧
          ((s.phase k).missed = false →
            u.phase k = { s.phase k with missed := true, checked := if idlePhase s k then 0 else (s.phase k).active }) ∧
          ((s.phase k).missed = true →
            (u.phase k).stopped = true ∧ (u.phase k).active = 0 ∧ (u.phase k).steer = 0 ∧ (u.phase k).flt.sticky.getLsbD 0 = true)))

end Statements
end

