-- ==== Sys2Proof/Laws/State.lean ====
section
/-! SUPPORT. One lemma per field per update of the state: what each named update leaves alone, and what it writes. -/

namespace Sys2Proof.Machine

variable (s : State)

/-! ### `updPort` -/

@[simp] theorem State.updPort_pending (p : Nat) (f : Port → Port) : (s.updPort p f).pending = s.pending := rfl
@[simp] theorem State.updPort_tick (p : Nat) (f : Port → Port) : (s.updPort p f).tick = s.tick := rfl
@[simp] theorem State.updPort_locked (p : Nat) (f : Port → Port) : (s.updPort p f).locked = s.locked := rfl
@[simp] theorem State.updPort_frame (p : Nat) (f : Port → Port) : (s.updPort p f).frame = s.frame := rfl
@[simp] theorem State.updPort_pace (p : Nat) (f : Port → Port) : (s.updPort p f).pace = s.pace := rfl
@[simp] theorem State.updPort_paceZero (p : Nat) (f : Port → Port) : (s.updPort p f).paceZero = s.paceZero := rfl
@[simp] theorem State.updPort_paceCount (p : Nat) (f : Port → Port) : (s.updPort p f).paceCount = s.paceCount := rfl
@[simp] theorem State.updPort_freeN (p : Nat) (f : Port → Port) : (s.updPort p f).freeN = s.freeN := rfl
@[simp] theorem State.updPort_seq (p : Nat) (f : Port → Port) : (s.updPort p f).seq = s.seq := rfl
@[simp] theorem State.updPort_fltSeq (p : Nat) (f : Port → Port) : (s.updPort p f).fltSeq = s.fltSeq := rfl
@[simp] theorem State.updPort_fltAon (p : Nat) (f : Port → Port) : (s.updPort p f).fltAon = s.fltAon := rfl
@[simp] theorem State.updPort_fltSupv (p : Nat) (f : Port → Port) : (s.updPort p f).fltSupv = s.fltSupv := rfl
@[simp] theorem State.updPort_fltSense (p : Nat) (f : Port → Port) : (s.updPort p f).fltSense = s.fltSense := rfl
@[simp] theorem State.updPort_fltBus (p : Nat) (f : Port → Port) : (s.updPort p f).fltBus = s.fltBus := rfl
@[simp] theorem State.updPort_fltOtp (p : Nat) (f : Port → Port) : (s.updPort p f).fltOtp = s.fltOtp := rfl
@[simp] theorem State.updPort_fltTherm (p : Nat) (f : Port → Port) : (s.updPort p f).fltTherm = s.fltTherm := rfl
@[simp] theorem State.updPort_faultN (p : Nat) (f : Port → Port) : (s.updPort p f).faultN = s.faultN := rfl
@[simp] theorem State.updPort_attn (p : Nat) (f : Port → Port) : (s.updPort p f).attn = s.attn := rfl
@[simp] theorem State.updPort_events (p : Nat) (f : Port → Port) : (s.updPort p f).events = s.events := rfl
@[simp] theorem State.updPort_irq (p : Nat) (f : Port → Port) : (s.updPort p f).irq = s.irq := rfl
@[simp] theorem State.updPort_bus (p : Nat) (f : Port → Port) : (s.updPort p f).bus = s.bus := rfl
@[simp] theorem State.updPort_host (p : Nat) (f : Port → Port) : (s.updPort p f).host = s.host := rfl
@[simp] theorem State.updPort_tun (p : Nat) (f : Port → Port) : (s.updPort p f).tun = s.tun := rfl
@[simp] theorem State.updPort_acceptSeq (p : Nat) (f : Port → Port) : (s.updPort p f).acceptSeq = s.acceptSeq := rfl
@[simp] theorem State.updPort_itemSeq (p : Nat) (f : Port → Port) : (s.updPort p f).itemSeq = s.itemSeq := rfl
@[simp] theorem State.updPort_params (p : Nat) (f : Port → Port) : (s.updPort p f).params = s.params := rfl
@[simp] theorem State.updPort_inForce (p : Nat) (f : Port → Port) : (s.updPort p f).inForce = s.inForce := rfl
@[simp] theorem State.updPort_takeUp (p : Nat) (f : Port → Port) : (s.updPort p f).takeUp = s.takeUp := rfl
@[simp] theorem State.updPort_fltWrites (p : Nat) (f : Port → Port) : (s.updPort p f).fltWrites = s.fltWrites := rfl
@[simp] theorem State.updPort_early (p : Nat) (f : Port → Port) : (s.updPort p f).early = s.early := rfl
@[simp] theorem State.updPort_dev (p : Nat) (f : Port → Port) : (s.updPort p f).dev = s.dev := rfl
@[simp] theorem State.updPort_feeds (p : Nat) (f : Port → Port) : (s.updPort p f).feeds = s.feeds := rfl
@[simp] theorem State.updPort_rampTurn (p : Nat) (f : Port → Port) : (s.updPort p f).rampTurn = s.rampTurn := rfl
@[simp] theorem State.updPort_turnFrom (p : Nat) (f : Port → Port) : (s.updPort p f).turnFrom = s.turnFrom := rfl
@[simp] theorem State.updPort_ridges (p : Nat) (f : Port → Port) : (s.updPort p f).ridges = s.ridges := rfl
@[simp] theorem State.updPort_phases (p : Nat) (f : Port → Port) : (s.updPort p f).phases = s.phases := rfl
@[simp] theorem State.updPort_ledger (p : Nat) (f : Port → Port) : (s.updPort p f).ledger = s.ledger := rfl
@[simp] theorem State.updPort_inn (p : Nat) (f : Port → Port) : (s.updPort p f).inn = s.inn := rfl
@[simp] theorem State.updPort_otp (p : Nat) (f : Port → Port) : (s.updPort p f).otp = s.otp := rfl
@[simp] theorem State.updPort_ret (p : Nat) (f : Port → Port) : (s.updPort p f).ret = s.ret := rfl
@[simp] theorem State.updPort_tester (p : Nat) (f : Port → Port) : (s.updPort p f).tester = s.tester := rfl
@[simp] theorem State.updPort_svc (p : Nat) (f : Port → Port) : (s.updPort p f).svc = s.svc := rfl
@[simp] theorem State.updPort_sup (p : Nat) (f : Port → Port) : (s.updPort p f).sup = s.sup := rfl
@[simp] theorem State.updPort_ageQueue (p : Nat) (f : Port → Port) : (s.updPort p f).ageQueue = s.ageQueue := rfl
@[simp] theorem State.updPort_retiring (p : Nat) (f : Port → Port) : (s.updPort p f).retiring = s.retiring := rfl
@[simp] theorem State.updPort_readmitting (p : Nat) (f : Port → Port) : (s.updPort p f).readmitting = s.readmitting := rfl
@[simp] theorem State.updPort_captures (p : Nat) (f : Port → Port) : (s.updPort p f).captures = s.captures := rfl

@[simp] theorem State.updPort_length (p : Nat) (f : Port → Port) : (s.updPort p f).ports.length = s.ports.length := by
  simp [State.updPort]
theorem State.port_updPort (p : Nat) (f : Port → Port) (h : p < s.ports.length) : (s.updPort p f).port p = f (s.port p) := by
  simp [State.updPort, State.port, h]
@[simp] theorem State.port_updPort_ne (p w : Nat) (f : Port → Port) (h : w ≠ p) : (s.updPort p f).port w = s.port w := by
  simp [State.updPort, State.port, Ne.symm h]
@[simp] theorem State.updPort_phase (p w : Nat) (f : Port → Port) : (s.updPort p f).phase w = s.phase w := rfl
@[simp] theorem State.updPort_ridge (p w : Nat) (f : Port → Port) : (s.updPort p f).ridge w = s.ridge w := rfl
@[simp] theorem State.updPort_feed (p w : Nat) (f : Port → Port) : (s.updPort p f).feed w = s.feed w := rfl

/-! ### `updPhase` -/

@[simp] theorem State.updPhase_pending (k : Nat) (f : Phase → Phase) : (s.updPhase k f).pending = s.pending := rfl
@[simp] theorem State.updPhase_tick (k : Nat) (f : Phase → Phase) : (s.updPhase k f).tick = s.tick := rfl
@[simp] theorem State.updPhase_locked (k : Nat) (f : Phase → Phase) : (s.updPhase k f).locked = s.locked := rfl
@[simp] theorem State.updPhase_frame (k : Nat) (f : Phase → Phase) : (s.updPhase k f).frame = s.frame := rfl
@[simp] theorem State.updPhase_pace (k : Nat) (f : Phase → Phase) : (s.updPhase k f).pace = s.pace := rfl
@[simp] theorem State.updPhase_paceZero (k : Nat) (f : Phase → Phase) : (s.updPhase k f).paceZero = s.paceZero := rfl
@[simp] theorem State.updPhase_paceCount (k : Nat) (f : Phase → Phase) : (s.updPhase k f).paceCount = s.paceCount := rfl
@[simp] theorem State.updPhase_freeN (k : Nat) (f : Phase → Phase) : (s.updPhase k f).freeN = s.freeN := rfl
@[simp] theorem State.updPhase_seq (k : Nat) (f : Phase → Phase) : (s.updPhase k f).seq = s.seq := rfl
@[simp] theorem State.updPhase_fltSeq (k : Nat) (f : Phase → Phase) : (s.updPhase k f).fltSeq = s.fltSeq := rfl
@[simp] theorem State.updPhase_fltAon (k : Nat) (f : Phase → Phase) : (s.updPhase k f).fltAon = s.fltAon := rfl
@[simp] theorem State.updPhase_fltSupv (k : Nat) (f : Phase → Phase) : (s.updPhase k f).fltSupv = s.fltSupv := rfl
@[simp] theorem State.updPhase_fltSense (k : Nat) (f : Phase → Phase) : (s.updPhase k f).fltSense = s.fltSense := rfl
@[simp] theorem State.updPhase_fltBus (k : Nat) (f : Phase → Phase) : (s.updPhase k f).fltBus = s.fltBus := rfl
@[simp] theorem State.updPhase_fltOtp (k : Nat) (f : Phase → Phase) : (s.updPhase k f).fltOtp = s.fltOtp := rfl
@[simp] theorem State.updPhase_fltTherm (k : Nat) (f : Phase → Phase) : (s.updPhase k f).fltTherm = s.fltTherm := rfl
@[simp] theorem State.updPhase_faultN (k : Nat) (f : Phase → Phase) : (s.updPhase k f).faultN = s.faultN := rfl
@[simp] theorem State.updPhase_attn (k : Nat) (f : Phase → Phase) : (s.updPhase k f).attn = s.attn := rfl
@[simp] theorem State.updPhase_events (k : Nat) (f : Phase → Phase) : (s.updPhase k f).events = s.events := rfl
@[simp] theorem State.updPhase_irq (k : Nat) (f : Phase → Phase) : (s.updPhase k f).irq = s.irq := rfl
@[simp] theorem State.updPhase_bus (k : Nat) (f : Phase → Phase) : (s.updPhase k f).bus = s.bus := rfl
@[simp] theorem State.updPhase_host (k : Nat) (f : Phase → Phase) : (s.updPhase k f).host = s.host := rfl
@[simp] theorem State.updPhase_tun (k : Nat) (f : Phase → Phase) : (s.updPhase k f).tun = s.tun := rfl
@[simp] theorem State.updPhase_acceptSeq (k : Nat) (f : Phase → Phase) : (s.updPhase k f).acceptSeq = s.acceptSeq := rfl
@[simp] theorem State.updPhase_itemSeq (k : Nat) (f : Phase → Phase) : (s.updPhase k f).itemSeq = s.itemSeq := rfl
@[simp] theorem State.updPhase_params (k : Nat) (f : Phase → Phase) : (s.updPhase k f).params = s.params := rfl
@[simp] theorem State.updPhase_inForce (k : Nat) (f : Phase → Phase) : (s.updPhase k f).inForce = s.inForce := rfl
@[simp] theorem State.updPhase_takeUp (k : Nat) (f : Phase → Phase) : (s.updPhase k f).takeUp = s.takeUp := rfl
@[simp] theorem State.updPhase_fltWrites (k : Nat) (f : Phase → Phase) : (s.updPhase k f).fltWrites = s.fltWrites := rfl
@[simp] theorem State.updPhase_early (k : Nat) (f : Phase → Phase) : (s.updPhase k f).early = s.early := rfl
@[simp] theorem State.updPhase_dev (k : Nat) (f : Phase → Phase) : (s.updPhase k f).dev = s.dev := rfl
@[simp] theorem State.updPhase_feeds (k : Nat) (f : Phase → Phase) : (s.updPhase k f).feeds = s.feeds := rfl
@[simp] theorem State.updPhase_rampTurn (k : Nat) (f : Phase → Phase) : (s.updPhase k f).rampTurn = s.rampTurn := rfl
@[simp] theorem State.updPhase_turnFrom (k : Nat) (f : Phase → Phase) : (s.updPhase k f).turnFrom = s.turnFrom := rfl
@[simp] theorem State.updPhase_ridges (k : Nat) (f : Phase → Phase) : (s.updPhase k f).ridges = s.ridges := rfl
@[simp] theorem State.updPhase_ports (k : Nat) (f : Phase → Phase) : (s.updPhase k f).ports = s.ports := rfl
@[simp] theorem State.updPhase_ledger (k : Nat) (f : Phase → Phase) : (s.updPhase k f).ledger = s.ledger := rfl
@[simp] theorem State.updPhase_inn (k : Nat) (f : Phase → Phase) : (s.updPhase k f).inn = s.inn := rfl
@[simp] theorem State.updPhase_otp (k : Nat) (f : Phase → Phase) : (s.updPhase k f).otp = s.otp := rfl
@[simp] theorem State.updPhase_ret (k : Nat) (f : Phase → Phase) : (s.updPhase k f).ret = s.ret := rfl
@[simp] theorem State.updPhase_tester (k : Nat) (f : Phase → Phase) : (s.updPhase k f).tester = s.tester := rfl
@[simp] theorem State.updPhase_svc (k : Nat) (f : Phase → Phase) : (s.updPhase k f).svc = s.svc := rfl
@[simp] theorem State.updPhase_sup (k : Nat) (f : Phase → Phase) : (s.updPhase k f).sup = s.sup := rfl
@[simp] theorem State.updPhase_ageQueue (k : Nat) (f : Phase → Phase) : (s.updPhase k f).ageQueue = s.ageQueue := rfl
@[simp] theorem State.updPhase_retiring (k : Nat) (f : Phase → Phase) : (s.updPhase k f).retiring = s.retiring := rfl
@[simp] theorem State.updPhase_readmitting (k : Nat) (f : Phase → Phase) : (s.updPhase k f).readmitting = s.readmitting := rfl
@[simp] theorem State.updPhase_captures (k : Nat) (f : Phase → Phase) : (s.updPhase k f).captures = s.captures := rfl

@[simp] theorem State.updPhase_length (k : Nat) (f : Phase → Phase) : (s.updPhase k f).phases.length = s.phases.length := by
  simp [State.updPhase]
theorem State.phase_updPhase (k : Nat) (f : Phase → Phase) (h : k < s.phases.length) : (s.updPhase k f).phase k = f (s.phase k) := by
  simp [State.updPhase, State.phase, h]
@[simp] theorem State.phase_updPhase_ne (k w : Nat) (f : Phase → Phase) (h : w ≠ k) : (s.updPhase k f).phase w = s.phase w := by
  simp [State.updPhase, State.phase, Ne.symm h]
@[simp] theorem State.updPhase_port (k w : Nat) (f : Phase → Phase) : (s.updPhase k f).port w = s.port w := rfl
@[simp] theorem State.updPhase_ridge (k w : Nat) (f : Phase → Phase) : (s.updPhase k f).ridge w = s.ridge w := rfl
@[simp] theorem State.updPhase_feed (k w : Nat) (f : Phase → Phase) : (s.updPhase k f).feed w = s.feed w := rfl

/-! ### `updRidge` -/

@[simp] theorem State.updRidge_pending (r : Nat) (f : Ridge → Ridge) : (s.updRidge r f).pending = s.pending := rfl
@[simp] theorem State.updRidge_tick (r : Nat) (f : Ridge → Ridge) : (s.updRidge r f).tick = s.tick := rfl
@[simp] theorem State.updRidge_locked (r : Nat) (f : Ridge → Ridge) : (s.updRidge r f).locked = s.locked := rfl
@[simp] theorem State.updRidge_frame (r : Nat) (f : Ridge → Ridge) : (s.updRidge r f).frame = s.frame := rfl
@[simp] theorem State.updRidge_pace (r : Nat) (f : Ridge → Ridge) : (s.updRidge r f).pace = s.pace := rfl
@[simp] theorem State.updRidge_paceZero (r : Nat) (f : Ridge → Ridge) : (s.updRidge r f).paceZero = s.paceZero := rfl
@[simp] theorem State.updRidge_paceCount (r : Nat) (f : Ridge → Ridge) : (s.updRidge r f).paceCount = s.paceCount := rfl
@[simp] theorem State.updRidge_freeN (r : Nat) (f : Ridge → Ridge) : (s.updRidge r f).freeN = s.freeN := rfl
@[simp] theorem State.updRidge_seq (r : Nat) (f : Ridge → Ridge) : (s.updRidge r f).seq = s.seq := rfl
@[simp] theorem State.updRidge_fltSeq (r : Nat) (f : Ridge → Ridge) : (s.updRidge r f).fltSeq = s.fltSeq := rfl
@[simp] theorem State.updRidge_fltAon (r : Nat) (f : Ridge → Ridge) : (s.updRidge r f).fltAon = s.fltAon := rfl
@[simp] theorem State.updRidge_fltSupv (r : Nat) (f : Ridge → Ridge) : (s.updRidge r f).fltSupv = s.fltSupv := rfl
@[simp] theorem State.updRidge_fltSense (r : Nat) (f : Ridge → Ridge) : (s.updRidge r f).fltSense = s.fltSense := rfl
@[simp] theorem State.updRidge_fltBus (r : Nat) (f : Ridge → Ridge) : (s.updRidge r f).fltBus = s.fltBus := rfl
@[simp] theorem State.updRidge_fltOtp (r : Nat) (f : Ridge → Ridge) : (s.updRidge r f).fltOtp = s.fltOtp := rfl
@[simp] theorem State.updRidge_fltTherm (r : Nat) (f : Ridge → Ridge) : (s.updRidge r f).fltTherm = s.fltTherm := rfl
@[simp] theorem State.updRidge_faultN (r : Nat) (f : Ridge → Ridge) : (s.updRidge r f).faultN = s.faultN := rfl
@[simp] theorem State.updRidge_attn (r : Nat) (f : Ridge → Ridge) : (s.updRidge r f).attn = s.attn := rfl
@[simp] theorem State.updRidge_events (r : Nat) (f : Ridge → Ridge) : (s.updRidge r f).events = s.events := rfl
@[simp] theorem State.updRidge_irq (r : Nat) (f : Ridge → Ridge) : (s.updRidge r f).irq = s.irq := rfl
@[simp] theorem State.updRidge_bus (r : Nat) (f : Ridge → Ridge) : (s.updRidge r f).bus = s.bus := rfl
@[simp] theorem State.updRidge_host (r : Nat) (f : Ridge → Ridge) : (s.updRidge r f).host = s.host := rfl
@[simp] theorem State.updRidge_tun (r : Nat) (f : Ridge → Ridge) : (s.updRidge r f).tun = s.tun := rfl
@[simp] theorem State.updRidge_acceptSeq (r : Nat) (f : Ridge → Ridge) : (s.updRidge r f).acceptSeq = s.acceptSeq := rfl
@[simp] theorem State.updRidge_itemSeq (r : Nat) (f : Ridge → Ridge) : (s.updRidge r f).itemSeq = s.itemSeq := rfl
@[simp] theorem State.updRidge_params (r : Nat) (f : Ridge → Ridge) : (s.updRidge r f).params = s.params := rfl
@[simp] theorem State.updRidge_inForce (r : Nat) (f : Ridge → Ridge) : (s.updRidge r f).inForce = s.inForce := rfl
@[simp] theorem State.updRidge_takeUp (r : Nat) (f : Ridge → Ridge) : (s.updRidge r f).takeUp = s.takeUp := rfl
@[simp] theorem State.updRidge_fltWrites (r : Nat) (f : Ridge → Ridge) : (s.updRidge r f).fltWrites = s.fltWrites := rfl
@[simp] theorem State.updRidge_early (r : Nat) (f : Ridge → Ridge) : (s.updRidge r f).early = s.early := rfl
@[simp] theorem State.updRidge_dev (r : Nat) (f : Ridge → Ridge) : (s.updRidge r f).dev = s.dev := rfl
@[simp] theorem State.updRidge_feeds (r : Nat) (f : Ridge → Ridge) : (s.updRidge r f).feeds = s.feeds := rfl
@[simp] theorem State.updRidge_rampTurn (r : Nat) (f : Ridge → Ridge) : (s.updRidge r f).rampTurn = s.rampTurn := rfl
@[simp] theorem State.updRidge_turnFrom (r : Nat) (f : Ridge → Ridge) : (s.updRidge r f).turnFrom = s.turnFrom := rfl
@[simp] theorem State.updRidge_phases (r : Nat) (f : Ridge → Ridge) : (s.updRidge r f).phases = s.phases := rfl
@[simp] theorem State.updRidge_ports (r : Nat) (f : Ridge → Ridge) : (s.updRidge r f).ports = s.ports := rfl
@[simp] theorem State.updRidge_ledger (r : Nat) (f : Ridge → Ridge) : (s.updRidge r f).ledger = s.ledger := rfl
@[simp] theorem State.updRidge_inn (r : Nat) (f : Ridge → Ridge) : (s.updRidge r f).inn = s.inn := rfl
@[simp] theorem State.updRidge_otp (r : Nat) (f : Ridge → Ridge) : (s.updRidge r f).otp = s.otp := rfl
@[simp] theorem State.updRidge_ret (r : Nat) (f : Ridge → Ridge) : (s.updRidge r f).ret = s.ret := rfl
@[simp] theorem State.updRidge_tester (r : Nat) (f : Ridge → Ridge) : (s.updRidge r f).tester = s.tester := rfl
@[simp] theorem State.updRidge_svc (r : Nat) (f : Ridge → Ridge) : (s.updRidge r f).svc = s.svc := rfl
@[simp] theorem State.updRidge_sup (r : Nat) (f : Ridge → Ridge) : (s.updRidge r f).sup = s.sup := rfl
@[simp] theorem State.updRidge_ageQueue (r : Nat) (f : Ridge → Ridge) : (s.updRidge r f).ageQueue = s.ageQueue := rfl
@[simp] theorem State.updRidge_retiring (r : Nat) (f : Ridge → Ridge) : (s.updRidge r f).retiring = s.retiring := rfl
@[simp] theorem State.updRidge_readmitting (r : Nat) (f : Ridge → Ridge) : (s.updRidge r f).readmitting = s.readmitting := rfl
@[simp] theorem State.updRidge_captures (r : Nat) (f : Ridge → Ridge) : (s.updRidge r f).captures = s.captures := rfl

@[simp] theorem State.updRidge_length (r : Nat) (f : Ridge → Ridge) : (s.updRidge r f).ridges.length = s.ridges.length := by
  simp [State.updRidge]
theorem State.ridge_updRidge (r : Nat) (f : Ridge → Ridge) (h : r < s.ridges.length) : (s.updRidge r f).ridge r = f (s.ridge r) := by
  simp [State.updRidge, State.ridge, h]
@[simp] theorem State.ridge_updRidge_ne (r w : Nat) (f : Ridge → Ridge) (h : w ≠ r) : (s.updRidge r f).ridge w = s.ridge w := by
  simp [State.updRidge, State.ridge, Ne.symm h]
@[simp] theorem State.updRidge_port (r w : Nat) (f : Ridge → Ridge) : (s.updRidge r f).port w = s.port w := rfl
@[simp] theorem State.updRidge_phase (r w : Nat) (f : Ridge → Ridge) : (s.updRidge r f).phase w = s.phase w := rfl
@[simp] theorem State.updRidge_feed (r w : Nat) (f : Ridge → Ridge) : (s.updRidge r f).feed w = s.feed w := rfl

/-! ### `updFeed` -/

@[simp] theorem State.updFeed_pending (x : Nat) (f : Feed → Feed) : (s.updFeed x f).pending = s.pending := rfl
@[simp] theorem State.updFeed_tick (x : Nat) (f : Feed → Feed) : (s.updFeed x f).tick = s.tick := rfl
@[simp] theorem State.updFeed_locked (x : Nat) (f : Feed → Feed) : (s.updFeed x f).locked = s.locked := rfl
@[simp] theorem State.updFeed_frame (x : Nat) (f : Feed → Feed) : (s.updFeed x f).frame = s.frame := rfl
@[simp] theorem State.updFeed_pace (x : Nat) (f : Feed → Feed) : (s.updFeed x f).pace = s.pace := rfl
@[simp] theorem State.updFeed_paceZero (x : Nat) (f : Feed → Feed) : (s.updFeed x f).paceZero = s.paceZero := rfl
@[simp] theorem State.updFeed_paceCount (x : Nat) (f : Feed → Feed) : (s.updFeed x f).paceCount = s.paceCount := rfl
@[simp] theorem State.updFeed_freeN (x : Nat) (f : Feed → Feed) : (s.updFeed x f).freeN = s.freeN := rfl
@[simp] theorem State.updFeed_seq (x : Nat) (f : Feed → Feed) : (s.updFeed x f).seq = s.seq := rfl
@[simp] theorem State.updFeed_fltSeq (x : Nat) (f : Feed → Feed) : (s.updFeed x f).fltSeq = s.fltSeq := rfl
@[simp] theorem State.updFeed_fltAon (x : Nat) (f : Feed → Feed) : (s.updFeed x f).fltAon = s.fltAon := rfl
@[simp] theorem State.updFeed_fltSupv (x : Nat) (f : Feed → Feed) : (s.updFeed x f).fltSupv = s.fltSupv := rfl
@[simp] theorem State.updFeed_fltSense (x : Nat) (f : Feed → Feed) : (s.updFeed x f).fltSense = s.fltSense := rfl
@[simp] theorem State.updFeed_fltBus (x : Nat) (f : Feed → Feed) : (s.updFeed x f).fltBus = s.fltBus := rfl
@[simp] theorem State.updFeed_fltOtp (x : Nat) (f : Feed → Feed) : (s.updFeed x f).fltOtp = s.fltOtp := rfl
@[simp] theorem State.updFeed_fltTherm (x : Nat) (f : Feed → Feed) : (s.updFeed x f).fltTherm = s.fltTherm := rfl
@[simp] theorem State.updFeed_faultN (x : Nat) (f : Feed → Feed) : (s.updFeed x f).faultN = s.faultN := rfl
@[simp] theorem State.updFeed_attn (x : Nat) (f : Feed → Feed) : (s.updFeed x f).attn = s.attn := rfl
@[simp] theorem State.updFeed_events (x : Nat) (f : Feed → Feed) : (s.updFeed x f).events = s.events := rfl
@[simp] theorem State.updFeed_irq (x : Nat) (f : Feed → Feed) : (s.updFeed x f).irq = s.irq := rfl
@[simp] theorem State.updFeed_bus (x : Nat) (f : Feed → Feed) : (s.updFeed x f).bus = s.bus := rfl
@[simp] theorem State.updFeed_host (x : Nat) (f : Feed → Feed) : (s.updFeed x f).host = s.host := rfl
@[simp] theorem State.updFeed_tun (x : Nat) (f : Feed → Feed) : (s.updFeed x f).tun = s.tun := rfl
@[simp] theorem State.updFeed_acceptSeq (x : Nat) (f : Feed → Feed) : (s.updFeed x f).acceptSeq = s.acceptSeq := rfl
@[simp] theorem State.updFeed_itemSeq (x : Nat) (f : Feed → Feed) : (s.updFeed x f).itemSeq = s.itemSeq := rfl
@[simp] theorem State.updFeed_params (x : Nat) (f : Feed → Feed) : (s.updFeed x f).params = s.params := rfl
@[simp] theorem State.updFeed_inForce (x : Nat) (f : Feed → Feed) : (s.updFeed x f).inForce = s.inForce := rfl
@[simp] theorem State.updFeed_takeUp (x : Nat) (f : Feed → Feed) : (s.updFeed x f).takeUp = s.takeUp := rfl
@[simp] theorem State.updFeed_fltWrites (x : Nat) (f : Feed → Feed) : (s.updFeed x f).fltWrites = s.fltWrites := rfl
@[simp] theorem State.updFeed_early (x : Nat) (f : Feed → Feed) : (s.updFeed x f).early = s.early := rfl
@[simp] theorem State.updFeed_dev (x : Nat) (f : Feed → Feed) : (s.updFeed x f).dev = s.dev := rfl
@[simp] theorem State.updFeed_rampTurn (x : Nat) (f : Feed → Feed) : (s.updFeed x f).rampTurn = s.rampTurn := rfl
@[simp] theorem State.updFeed_turnFrom (x : Nat) (f : Feed → Feed) : (s.updFeed x f).turnFrom = s.turnFrom := rfl
@[simp] theorem State.updFeed_ridges (x : Nat) (f : Feed → Feed) : (s.updFeed x f).ridges = s.ridges := rfl
@[simp] theorem State.updFeed_phases (x : Nat) (f : Feed → Feed) : (s.updFeed x f).phases = s.phases := rfl
@[simp] theorem State.updFeed_ports (x : Nat) (f : Feed → Feed) : (s.updFeed x f).ports = s.ports := rfl
@[simp] theorem State.updFeed_ledger (x : Nat) (f : Feed → Feed) : (s.updFeed x f).ledger = s.ledger := rfl
@[simp] theorem State.updFeed_inn (x : Nat) (f : Feed → Feed) : (s.updFeed x f).inn = s.inn := rfl
@[simp] theorem State.updFeed_otp (x : Nat) (f : Feed → Feed) : (s.updFeed x f).otp = s.otp := rfl
@[simp] theorem State.updFeed_ret (x : Nat) (f : Feed → Feed) : (s.updFeed x f).ret = s.ret := rfl
@[simp] theorem State.updFeed_tester (x : Nat) (f : Feed → Feed) : (s.updFeed x f).tester = s.tester := rfl
@[simp] theorem State.updFeed_svc (x : Nat) (f : Feed → Feed) : (s.updFeed x f).svc = s.svc := rfl
@[simp] theorem State.updFeed_sup (x : Nat) (f : Feed → Feed) : (s.updFeed x f).sup = s.sup := rfl
@[simp] theorem State.updFeed_ageQueue (x : Nat) (f : Feed → Feed) : (s.updFeed x f).ageQueue = s.ageQueue := rfl
@[simp] theorem State.updFeed_retiring (x : Nat) (f : Feed → Feed) : (s.updFeed x f).retiring = s.retiring := rfl
@[simp] theorem State.updFeed_readmitting (x : Nat) (f : Feed → Feed) : (s.updFeed x f).readmitting = s.readmitting := rfl
@[simp] theorem State.updFeed_captures (x : Nat) (f : Feed → Feed) : (s.updFeed x f).captures = s.captures := rfl

@[simp] theorem State.updFeed_length (x : Nat) (f : Feed → Feed) : (s.updFeed x f).feeds.length = s.feeds.length := by
  simp [State.updFeed]
theorem State.feed_updFeed (x : Nat) (f : Feed → Feed) (h : x < s.feeds.length) : (s.updFeed x f).feed x = f (s.feed x) := by
  simp [State.updFeed, State.feed, h]
@[simp] theorem State.feed_updFeed_ne (x w : Nat) (f : Feed → Feed) (h : w ≠ x) : (s.updFeed x f).feed w = s.feed w := by
  simp [State.updFeed, State.feed, Ne.symm h]
@[simp] theorem State.updFeed_port (x w : Nat) (f : Feed → Feed) : (s.updFeed x f).port w = s.port w := rfl
@[simp] theorem State.updFeed_phase (x w : Nat) (f : Feed → Feed) : (s.updFeed x f).phase w = s.phase w := rfl
@[simp] theorem State.updFeed_ridge (x w : Nat) (f : Feed → Feed) : (s.updFeed x f).ridge w = s.ridge w := rfl

/-! ### Attention, events, the pin -/

@[simp] theorem State.setAttn_pending (b : Nat) : (s.setAttn b).pending = s.pending := rfl
@[simp] theorem State.setAttn_tick (b : Nat) : (s.setAttn b).tick = s.tick := rfl
@[simp] theorem State.setAttn_locked (b : Nat) : (s.setAttn b).locked = s.locked := rfl
@[simp] theorem State.setAttn_frame (b : Nat) : (s.setAttn b).frame = s.frame := rfl
@[simp] theorem State.setAttn_pace (b : Nat) : (s.setAttn b).pace = s.pace := rfl
@[simp] theorem State.setAttn_paceZero (b : Nat) : (s.setAttn b).paceZero = s.paceZero := rfl
@[simp] theorem State.setAttn_paceCount (b : Nat) : (s.setAttn b).paceCount = s.paceCount := rfl
@[simp] theorem State.setAttn_freeN (b : Nat) : (s.setAttn b).freeN = s.freeN := rfl
@[simp] theorem State.setAttn_seq (b : Nat) : (s.setAttn b).seq = s.seq := rfl
@[simp] theorem State.setAttn_fltSeq (b : Nat) : (s.setAttn b).fltSeq = s.fltSeq := rfl
@[simp] theorem State.setAttn_fltAon (b : Nat) : (s.setAttn b).fltAon = s.fltAon := rfl
@[simp] theorem State.setAttn_fltSupv (b : Nat) : (s.setAttn b).fltSupv = s.fltSupv := rfl
@[simp] theorem State.setAttn_fltSense (b : Nat) : (s.setAttn b).fltSense = s.fltSense := rfl
@[simp] theorem State.setAttn_fltBus (b : Nat) : (s.setAttn b).fltBus = s.fltBus := rfl
@[simp] theorem State.setAttn_fltOtp (b : Nat) : (s.setAttn b).fltOtp = s.fltOtp := rfl
@[simp] theorem State.setAttn_fltTherm (b : Nat) : (s.setAttn b).fltTherm = s.fltTherm := rfl
@[simp] theorem State.setAttn_faultN (b : Nat) : (s.setAttn b).faultN = s.faultN := rfl
@[simp] theorem State.setAttn_events (b : Nat) : (s.setAttn b).events = s.events := rfl
@[simp] theorem State.setAttn_irq (b : Nat) : (s.setAttn b).irq = s.irq := rfl
@[simp] theorem State.setAttn_bus (b : Nat) : (s.setAttn b).bus = s.bus := rfl
@[simp] theorem State.setAttn_host (b : Nat) : (s.setAttn b).host = s.host := rfl
@[simp] theorem State.setAttn_tun (b : Nat) : (s.setAttn b).tun = s.tun := rfl
@[simp] theorem State.setAttn_acceptSeq (b : Nat) : (s.setAttn b).acceptSeq = s.acceptSeq := rfl
@[simp] theorem State.setAttn_itemSeq (b : Nat) : (s.setAttn b).itemSeq = s.itemSeq := rfl
@[simp] theorem State.setAttn_params (b : Nat) : (s.setAttn b).params = s.params := rfl
@[simp] theorem State.setAttn_inForce (b : Nat) : (s.setAttn b).inForce = s.inForce := rfl
@[simp] theorem State.setAttn_takeUp (b : Nat) : (s.setAttn b).takeUp = s.takeUp := rfl
@[simp] theorem State.setAttn_fltWrites (b : Nat) : (s.setAttn b).fltWrites = s.fltWrites := rfl
@[simp] theorem State.setAttn_early (b : Nat) : (s.setAttn b).early = s.early := rfl
@[simp] theorem State.setAttn_dev (b : Nat) : (s.setAttn b).dev = s.dev := rfl
@[simp] theorem State.setAttn_feeds (b : Nat) : (s.setAttn b).feeds = s.feeds := rfl
@[simp] theorem State.setAttn_rampTurn (b : Nat) : (s.setAttn b).rampTurn = s.rampTurn := rfl
@[simp] theorem State.setAttn_turnFrom (b : Nat) : (s.setAttn b).turnFrom = s.turnFrom := rfl
@[simp] theorem State.setAttn_ridges (b : Nat) : (s.setAttn b).ridges = s.ridges := rfl
@[simp] theorem State.setAttn_phases (b : Nat) : (s.setAttn b).phases = s.phases := rfl
@[simp] theorem State.setAttn_ports (b : Nat) : (s.setAttn b).ports = s.ports := rfl
@[simp] theorem State.setAttn_ledger (b : Nat) : (s.setAttn b).ledger = s.ledger := rfl
@[simp] theorem State.setAttn_inn (b : Nat) : (s.setAttn b).inn = s.inn := rfl
@[simp] theorem State.setAttn_otp (b : Nat) : (s.setAttn b).otp = s.otp := rfl
@[simp] theorem State.setAttn_ret (b : Nat) : (s.setAttn b).ret = s.ret := rfl
@[simp] theorem State.setAttn_tester (b : Nat) : (s.setAttn b).tester = s.tester := rfl
@[simp] theorem State.setAttn_svc (b : Nat) : (s.setAttn b).svc = s.svc := rfl
@[simp] theorem State.setAttn_sup (b : Nat) : (s.setAttn b).sup = s.sup := rfl
@[simp] theorem State.setAttn_ageQueue (b : Nat) : (s.setAttn b).ageQueue = s.ageQueue := rfl
@[simp] theorem State.setAttn_retiring (b : Nat) : (s.setAttn b).retiring = s.retiring := rfl
@[simp] theorem State.setAttn_readmitting (b : Nat) : (s.setAttn b).readmitting = s.readmitting := rfl
@[simp] theorem State.setAttn_captures (b : Nat) : (s.setAttn b).captures = s.captures := rfl

@[simp] theorem State.pushEvent_pending (k i : Nat) (d : List Byte) : (s.pushEvent k i d).pending = s.pending := rfl
@[simp] theorem State.pushEvent_tick (k i : Nat) (d : List Byte) : (s.pushEvent k i d).tick = s.tick := rfl
@[simp] theorem State.pushEvent_locked (k i : Nat) (d : List Byte) : (s.pushEvent k i d).locked = s.locked := rfl
@[simp] theorem State.pushEvent_frame (k i : Nat) (d : List Byte) : (s.pushEvent k i d).frame = s.frame := rfl
@[simp] theorem State.pushEvent_pace (k i : Nat) (d : List Byte) : (s.pushEvent k i d).pace = s.pace := rfl
@[simp] theorem State.pushEvent_paceZero (k i : Nat) (d : List Byte) : (s.pushEvent k i d).paceZero = s.paceZero := rfl
@[simp] theorem State.pushEvent_paceCount (k i : Nat) (d : List Byte) : (s.pushEvent k i d).paceCount = s.paceCount := rfl
@[simp] theorem State.pushEvent_freeN (k i : Nat) (d : List Byte) : (s.pushEvent k i d).freeN = s.freeN := rfl
@[simp] theorem State.pushEvent_seq (k i : Nat) (d : List Byte) : (s.pushEvent k i d).seq = s.seq := rfl
@[simp] theorem State.pushEvent_fltSeq (k i : Nat) (d : List Byte) : (s.pushEvent k i d).fltSeq = s.fltSeq := rfl
@[simp] theorem State.pushEvent_fltAon (k i : Nat) (d : List Byte) : (s.pushEvent k i d).fltAon = s.fltAon := rfl
@[simp] theorem State.pushEvent_fltSupv (k i : Nat) (d : List Byte) : (s.pushEvent k i d).fltSupv = s.fltSupv := rfl
@[simp] theorem State.pushEvent_fltSense (k i : Nat) (d : List Byte) : (s.pushEvent k i d).fltSense = s.fltSense := rfl
@[simp] theorem State.pushEvent_fltBus (k i : Nat) (d : List Byte) : (s.pushEvent k i d).fltBus = s.fltBus := rfl
@[simp] theorem State.pushEvent_fltOtp (k i : Nat) (d : List Byte) : (s.pushEvent k i d).fltOtp = s.fltOtp := rfl
@[simp] theorem State.pushEvent_fltTherm (k i : Nat) (d : List Byte) : (s.pushEvent k i d).fltTherm = s.fltTherm := rfl
@[simp] theorem State.pushEvent_faultN (k i : Nat) (d : List Byte) : (s.pushEvent k i d).faultN = s.faultN := rfl
@[simp] theorem State.pushEvent_irq (k i : Nat) (d : List Byte) : (s.pushEvent k i d).irq = s.irq := rfl
@[simp] theorem State.pushEvent_bus (k i : Nat) (d : List Byte) : (s.pushEvent k i d).bus = s.bus := rfl
@[simp] theorem State.pushEvent_host (k i : Nat) (d : List Byte) : (s.pushEvent k i d).host = s.host := rfl
@[simp] theorem State.pushEvent_tun (k i : Nat) (d : List Byte) : (s.pushEvent k i d).tun = s.tun := rfl
@[simp] theorem State.pushEvent_acceptSeq (k i : Nat) (d : List Byte) : (s.pushEvent k i d).acceptSeq = s.acceptSeq := rfl
@[simp] theorem State.pushEvent_itemSeq (k i : Nat) (d : List Byte) : (s.pushEvent k i d).itemSeq = s.itemSeq := rfl
@[simp] theorem State.pushEvent_params (k i : Nat) (d : List Byte) : (s.pushEvent k i d).params = s.params := rfl
@[simp] theorem State.pushEvent_inForce (k i : Nat) (d : List Byte) : (s.pushEvent k i d).inForce = s.inForce := rfl
@[simp] theorem State.pushEvent_takeUp (k i : Nat) (d : List Byte) : (s.pushEvent k i d).takeUp = s.takeUp := rfl
@[simp] theorem State.pushEvent_fltWrites (k i : Nat) (d : List Byte) : (s.pushEvent k i d).fltWrites = s.fltWrites := rfl
@[simp] theorem State.pushEvent_early (k i : Nat) (d : List Byte) : (s.pushEvent k i d).early = s.early := rfl
@[simp] theorem State.pushEvent_dev (k i : Nat) (d : List Byte) : (s.pushEvent k i d).dev = s.dev := rfl
@[simp] theorem State.pushEvent_feeds (k i : Nat) (d : List Byte) : (s.pushEvent k i d).feeds = s.feeds := rfl
@[simp] theorem State.pushEvent_rampTurn (k i : Nat) (d : List Byte) : (s.pushEvent k i d).rampTurn = s.rampTurn := rfl
@[simp] theorem State.pushEvent_turnFrom (k i : Nat) (d : List Byte) : (s.pushEvent k i d).turnFrom = s.turnFrom := rfl
@[simp] theorem State.pushEvent_ridges (k i : Nat) (d : List Byte) : (s.pushEvent k i d).ridges = s.ridges := rfl
@[simp] theorem State.pushEvent_phases (k i : Nat) (d : List Byte) : (s.pushEvent k i d).phases = s.phases := rfl
@[simp] theorem State.pushEvent_ports (k i : Nat) (d : List Byte) : (s.pushEvent k i d).ports = s.ports := rfl
@[simp] theorem State.pushEvent_ledger (k i : Nat) (d : List Byte) : (s.pushEvent k i d).ledger = s.ledger := rfl
@[simp] theorem State.pushEvent_inn (k i : Nat) (d : List Byte) : (s.pushEvent k i d).inn = s.inn := rfl
@[simp] theorem State.pushEvent_otp (k i : Nat) (d : List Byte) : (s.pushEvent k i d).otp = s.otp := rfl
@[simp] theorem State.pushEvent_ret (k i : Nat) (d : List Byte) : (s.pushEvent k i d).ret = s.ret := rfl
@[simp] theorem State.pushEvent_tester (k i : Nat) (d : List Byte) : (s.pushEvent k i d).tester = s.tester := rfl
@[simp] theorem State.pushEvent_svc (k i : Nat) (d : List Byte) : (s.pushEvent k i d).svc = s.svc := rfl
@[simp] theorem State.pushEvent_sup (k i : Nat) (d : List Byte) : (s.pushEvent k i d).sup = s.sup := rfl
@[simp] theorem State.pushEvent_ageQueue (k i : Nat) (d : List Byte) : (s.pushEvent k i d).ageQueue = s.ageQueue := rfl
@[simp] theorem State.pushEvent_retiring (k i : Nat) (d : List Byte) : (s.pushEvent k i d).retiring = s.retiring := rfl
@[simp] theorem State.pushEvent_readmitting (k i : Nat) (d : List Byte) : (s.pushEvent k i d).readmitting = s.readmitting := rfl
@[simp] theorem State.pushEvent_captures (k i : Nat) (d : List Byte) : (s.pushEvent k i d).captures = s.captures := rfl

@[simp] theorem State.pinOccur_pending : s.pinOccur.pending = s.pending := by
  unfold State.pinOccur; split <;> [rfl; (split <;> rfl)]
@[simp] theorem State.pinOccur_tick : s.pinOccur.tick = s.tick := by
  unfold State.pinOccur; split <;> [rfl; (split <;> rfl)]
@[simp] theorem State.pinOccur_locked : s.pinOccur.locked = s.locked := by
  unfold State.pinOccur; split <;> [rfl; (split <;> rfl)]
@[simp] theorem State.pinOccur_frame : s.pinOccur.frame = s.frame := by
  unfold State.pinOccur; split <;> [rfl; (split <;> rfl)]
@[simp] theorem State.pinOccur_pace : s.pinOccur.pace = s.pace := by
  unfold State.pinOccur; split <;> [rfl; (split <;> rfl)]
@[simp] theorem State.pinOccur_paceZero : s.pinOccur.paceZero = s.paceZero := by
  unfold State.pinOccur; split <;> [rfl; (split <;> rfl)]
@[simp] theorem State.pinOccur_paceCount : s.pinOccur.paceCount = s.paceCount := by
  unfold State.pinOccur; split <;> [rfl; (split <;> rfl)]
@[simp] theorem State.pinOccur_freeN : s.pinOccur.freeN = s.freeN := by
  unfold State.pinOccur; split <;> [rfl; (split <;> rfl)]
@[simp] theorem State.pinOccur_seq : s.pinOccur.seq = s.seq := by
  unfold State.pinOccur; split <;> [rfl; (split <;> rfl)]
@[simp] theorem State.pinOccur_fltSeq : s.pinOccur.fltSeq = s.fltSeq := by
  unfold State.pinOccur; split <;> [rfl; (split <;> rfl)]
@[simp] theorem State.pinOccur_fltAon : s.pinOccur.fltAon = s.fltAon := by
  unfold State.pinOccur; split <;> [rfl; (split <;> rfl)]
@[simp] theorem State.pinOccur_fltSupv : s.pinOccur.fltSupv = s.fltSupv := by
  unfold State.pinOccur; split <;> [rfl; (split <;> rfl)]
@[simp] theorem State.pinOccur_fltSense : s.pinOccur.fltSense = s.fltSense := by
  unfold State.pinOccur; split <;> [rfl; (split <;> rfl)]
@[simp] theorem State.pinOccur_fltBus : s.pinOccur.fltBus = s.fltBus := by
  unfold State.pinOccur; split <;> [rfl; (split <;> rfl)]
@[simp] theorem State.pinOccur_fltOtp : s.pinOccur.fltOtp = s.fltOtp := by
  unfold State.pinOccur; split <;> [rfl; (split <;> rfl)]
@[simp] theorem State.pinOccur_fltTherm : s.pinOccur.fltTherm = s.fltTherm := by
  unfold State.pinOccur; split <;> [rfl; (split <;> rfl)]
@[simp] theorem State.pinOccur_attn : s.pinOccur.attn = s.attn := by
  unfold State.pinOccur; split <;> [rfl; (split <;> rfl)]
@[simp] theorem State.pinOccur_events : s.pinOccur.events = s.events := by
  unfold State.pinOccur; split <;> [rfl; (split <;> rfl)]
@[simp] theorem State.pinOccur_irq : s.pinOccur.irq = s.irq := by
  unfold State.pinOccur; split <;> [rfl; (split <;> rfl)]
@[simp] theorem State.pinOccur_bus : s.pinOccur.bus = s.bus := by
  unfold State.pinOccur; split <;> [rfl; (split <;> rfl)]
@[simp] theorem State.pinOccur_host : s.pinOccur.host = s.host := by
  unfold State.pinOccur; split <;> [rfl; (split <;> rfl)]
@[simp] theorem State.pinOccur_tun : s.pinOccur.tun = s.tun := by
  unfold State.pinOccur; split <;> [rfl; (split <;> rfl)]
@[simp] theorem State.pinOccur_acceptSeq : s.pinOccur.acceptSeq = s.acceptSeq := by
  unfold State.pinOccur; split <;> [rfl; (split <;> rfl)]
@[simp] theorem State.pinOccur_itemSeq : s.pinOccur.itemSeq = s.itemSeq := by
  unfold State.pinOccur; split <;> [rfl; (split <;> rfl)]
@[simp] theorem State.pinOccur_params : s.pinOccur.params = s.params := by
  unfold State.pinOccur; split <;> [rfl; (split <;> rfl)]
@[simp] theorem State.pinOccur_inForce : s.pinOccur.inForce = s.inForce := by
  unfold State.pinOccur; split <;> [rfl; (split <;> rfl)]
@[simp] theorem State.pinOccur_takeUp : s.pinOccur.takeUp = s.takeUp := by
  unfold State.pinOccur; split <;> [rfl; (split <;> rfl)]
@[simp] theorem State.pinOccur_fltWrites : s.pinOccur.fltWrites = s.fltWrites := by
  unfold State.pinOccur; split <;> [rfl; (split <;> rfl)]
@[simp] theorem State.pinOccur_early : s.pinOccur.early = s.early := by
  unfold State.pinOccur; split <;> [rfl; (split <;> rfl)]
@[simp] theorem State.pinOccur_dev : s.pinOccur.dev = s.dev := by
  unfold State.pinOccur; split <;> [rfl; (split <;> rfl)]
@[simp] theorem State.pinOccur_feeds : s.pinOccur.feeds = s.feeds := by
  unfold State.pinOccur; split <;> [rfl; (split <;> rfl)]
@[simp] theorem State.pinOccur_rampTurn : s.pinOccur.rampTurn = s.rampTurn := by
  unfold State.pinOccur; split <;> [rfl; (split <;> rfl)]
@[simp] theorem State.pinOccur_turnFrom : s.pinOccur.turnFrom = s.turnFrom := by
  unfold State.pinOccur; split <;> [rfl; (split <;> rfl)]
@[simp] theorem State.pinOccur_ridges : s.pinOccur.ridges = s.ridges := by
  unfold State.pinOccur; split <;> [rfl; (split <;> rfl)]
@[simp] theorem State.pinOccur_phases : s.pinOccur.phases = s.phases := by
  unfold State.pinOccur; split <;> [rfl; (split <;> rfl)]
@[simp] theorem State.pinOccur_ports : s.pinOccur.ports = s.ports := by
  unfold State.pinOccur; split <;> [rfl; (split <;> rfl)]
@[simp] theorem State.pinOccur_ledger : s.pinOccur.ledger = s.ledger := by
  unfold State.pinOccur; split <;> [rfl; (split <;> rfl)]
@[simp] theorem State.pinOccur_inn : s.pinOccur.inn = s.inn := by
  unfold State.pinOccur; split <;> [rfl; (split <;> rfl)]
@[simp] theorem State.pinOccur_otp : s.pinOccur.otp = s.otp := by
  unfold State.pinOccur; split <;> [rfl; (split <;> rfl)]
@[simp] theorem State.pinOccur_ret : s.pinOccur.ret = s.ret := by
  unfold State.pinOccur; split <;> [rfl; (split <;> rfl)]
@[simp] theorem State.pinOccur_tester : s.pinOccur.tester = s.tester := by
  unfold State.pinOccur; split <;> [rfl; (split <;> rfl)]
@[simp] theorem State.pinOccur_svc : s.pinOccur.svc = s.svc := by
  unfold State.pinOccur; split <;> [rfl; (split <;> rfl)]
@[simp] theorem State.pinOccur_sup : s.pinOccur.sup = s.sup := by
  unfold State.pinOccur; split <;> [rfl; (split <;> rfl)]
@[simp] theorem State.pinOccur_ageQueue : s.pinOccur.ageQueue = s.ageQueue := by
  unfold State.pinOccur; split <;> [rfl; (split <;> rfl)]
@[simp] theorem State.pinOccur_retiring : s.pinOccur.retiring = s.retiring := by
  unfold State.pinOccur; split <;> [rfl; (split <;> rfl)]
@[simp] theorem State.pinOccur_readmitting : s.pinOccur.readmitting = s.readmitting := by
  unfold State.pinOccur; split <;> [rfl; (split <;> rfl)]
@[simp] theorem State.pinOccur_captures : s.pinOccur.captures = s.captures := by
  unfold State.pinOccur; split <;> [rfl; (split <;> rfl)]

@[simp] theorem State.interrupt_pending (x : IrqSource) : (s.interrupt x).pending = s.pending := by
  unfold State.interrupt; split <;> rfl
@[simp] theorem State.interrupt_tick (x : IrqSource) : (s.interrupt x).tick = s.tick := by
  unfold State.interrupt; split <;> rfl
@[simp] theorem State.interrupt_locked (x : IrqSource) : (s.interrupt x).locked = s.locked := by
  unfold State.interrupt; split <;> rfl
@[simp] theorem State.interrupt_frame (x : IrqSource) : (s.interrupt x).frame = s.frame := by
  unfold State.interrupt; split <;> rfl
@[simp] theorem State.interrupt_pace (x : IrqSource) : (s.interrupt x).pace = s.pace := by
  unfold State.interrupt; split <;> rfl
@[simp] theorem State.interrupt_paceZero (x : IrqSource) : (s.interrupt x).paceZero = s.paceZero := by
  unfold State.interrupt; split <;> rfl
@[simp] theorem State.interrupt_paceCount (x : IrqSource) : (s.interrupt x).paceCount = s.paceCount := by
  unfold State.interrupt; split <;> rfl
@[simp] theorem State.interrupt_freeN (x : IrqSource) : (s.interrupt x).freeN = s.freeN := by
  unfold State.interrupt; split <;> rfl
@[simp] theorem State.interrupt_seq (x : IrqSource) : (s.interrupt x).seq = s.seq := by
  unfold State.interrupt; split <;> rfl
@[simp] theorem State.interrupt_fltSeq (x : IrqSource) : (s.interrupt x).fltSeq = s.fltSeq := by
  unfold State.interrupt; split <;> rfl
@[simp] theorem State.interrupt_fltAon (x : IrqSource) : (s.interrupt x).fltAon = s.fltAon := by
  unfold State.interrupt; split <;> rfl
@[simp] theorem State.interrupt_fltSupv (x : IrqSource) : (s.interrupt x).fltSupv = s.fltSupv := by
  unfold State.interrupt; split <;> rfl
@[simp] theorem State.interrupt_fltSense (x : IrqSource) : (s.interrupt x).fltSense = s.fltSense := by
  unfold State.interrupt; split <;> rfl
@[simp] theorem State.interrupt_fltBus (x : IrqSource) : (s.interrupt x).fltBus = s.fltBus := by
  unfold State.interrupt; split <;> rfl
@[simp] theorem State.interrupt_fltOtp (x : IrqSource) : (s.interrupt x).fltOtp = s.fltOtp := by
  unfold State.interrupt; split <;> rfl
@[simp] theorem State.interrupt_fltTherm (x : IrqSource) : (s.interrupt x).fltTherm = s.fltTherm := by
  unfold State.interrupt; split <;> rfl
@[simp] theorem State.interrupt_faultN (x : IrqSource) : (s.interrupt x).faultN = s.faultN := by
  unfold State.interrupt; split <;> rfl
@[simp] theorem State.interrupt_attn (x : IrqSource) : (s.interrupt x).attn = s.attn := by
  unfold State.interrupt; split <;> rfl
@[simp] theorem State.interrupt_events (x : IrqSource) : (s.interrupt x).events = s.events := by
  unfold State.interrupt; split <;> rfl
@[simp] theorem State.interrupt_bus (x : IrqSource) : (s.interrupt x).bus = s.bus := by
  unfold State.interrupt; split <;> rfl
@[simp] theorem State.interrupt_host (x : IrqSource) : (s.interrupt x).host = s.host := by
  unfold State.interrupt; split <;> rfl
@[simp] theorem State.interrupt_tun (x : IrqSource) : (s.interrupt x).tun = s.tun := by
  unfold State.interrupt; split <;> rfl
@[simp] theorem State.interrupt_acceptSeq (x : IrqSource) : (s.interrupt x).acceptSeq = s.acceptSeq := by
  unfold State.interrupt; split <;> rfl
@[simp] theorem State.interrupt_itemSeq (x : IrqSource) : (s.interrupt x).itemSeq = s.itemSeq := by
  unfold State.interrupt; split <;> rfl
@[simp] theorem State.interrupt_params (x : IrqSource) : (s.interrupt x).params = s.params := by
  unfold State.interrupt; split <;> rfl
@[simp] theorem State.interrupt_inForce (x : IrqSource) : (s.interrupt x).inForce = s.inForce := by
  unfold State.interrupt; split <;> rfl
@[simp] theorem State.interrupt_takeUp (x : IrqSource) : (s.interrupt x).takeUp = s.takeUp := by
  unfold State.interrupt; split <;> rfl
@[simp] theorem State.interrupt_fltWrites (x : IrqSource) : (s.interrupt x).fltWrites = s.fltWrites := by
  unfold State.interrupt; split <;> rfl
@[simp] theorem State.interrupt_early (x : IrqSource) : (s.interrupt x).early = s.early := by
  unfold State.interrupt; split <;> rfl
@[simp] theorem State.interrupt_dev (x : IrqSource) : (s.interrupt x).dev = s.dev := by
  unfold State.interrupt; split <;> rfl
@[simp] theorem State.interrupt_feeds (x : IrqSource) : (s.interrupt x).feeds = s.feeds := by
  unfold State.interrupt; split <;> rfl
@[simp] theorem State.interrupt_rampTurn (x : IrqSource) : (s.interrupt x).rampTurn = s.rampTurn := by
  unfold State.interrupt; split <;> rfl
@[simp] theorem State.interrupt_turnFrom (x : IrqSource) : (s.interrupt x).turnFrom = s.turnFrom := by
  unfold State.interrupt; split <;> rfl
@[simp] theorem State.interrupt_ridges (x : IrqSource) : (s.interrupt x).ridges = s.ridges := by
  unfold State.interrupt; split <;> rfl
@[simp] theorem State.interrupt_phases (x : IrqSource) : (s.interrupt x).phases = s.phases := by
  unfold State.interrupt; split <;> rfl
@[simp] theorem State.interrupt_ports (x : IrqSource) : (s.interrupt x).ports = s.ports := by
  unfold State.interrupt; split <;> rfl
@[simp] theorem State.interrupt_ledger (x : IrqSource) : (s.interrupt x).ledger = s.ledger := by
  unfold State.interrupt; split <;> rfl
@[simp] theorem State.interrupt_inn (x : IrqSource) : (s.interrupt x).inn = s.inn := by
  unfold State.interrupt; split <;> rfl
@[simp] theorem State.interrupt_otp (x : IrqSource) : (s.interrupt x).otp = s.otp := by
  unfold State.interrupt; split <;> rfl
@[simp] theorem State.interrupt_ret (x : IrqSource) : (s.interrupt x).ret = s.ret := by
  unfold State.interrupt; split <;> rfl
@[simp] theorem State.interrupt_tester (x : IrqSource) : (s.interrupt x).tester = s.tester := by
  unfold State.interrupt; split <;> rfl
@[simp] theorem State.interrupt_svc (x : IrqSource) : (s.interrupt x).svc = s.svc := by
  unfold State.interrupt; split <;> rfl
@[simp] theorem State.interrupt_sup (x : IrqSource) : (s.interrupt x).sup = s.sup := by
  unfold State.interrupt; split <;> rfl
@[simp] theorem State.interrupt_ageQueue (x : IrqSource) : (s.interrupt x).ageQueue = s.ageQueue := by
  unfold State.interrupt; split <;> rfl
@[simp] theorem State.interrupt_retiring (x : IrqSource) : (s.interrupt x).retiring = s.retiring := by
  unfold State.interrupt; split <;> rfl
@[simp] theorem State.interrupt_readmitting (x : IrqSource) : (s.interrupt x).readmitting = s.readmitting := by
  unfold State.interrupt; split <;> rfl
@[simp] theorem State.interrupt_captures (x : IrqSource) : (s.interrupt x).captures = s.captures := by
  unfold State.interrupt; split <;> rfl

/-! ### Reply slots -/

@[simp] theorem State.setChan_pending (c : Chan) (x : ChanState) : (s.setChan c x).pending = s.pending := by
  cases c <;> rfl
@[simp] theorem State.setChan_tick (c : Chan) (x : ChanState) : (s.setChan c x).tick = s.tick := by
  cases c <;> rfl
@[simp] theorem State.setChan_locked (c : Chan) (x : ChanState) : (s.setChan c x).locked = s.locked := by
  cases c <;> rfl
@[simp] theorem State.setChan_frame (c : Chan) (x : ChanState) : (s.setChan c x).frame = s.frame := by
  cases c <;> rfl
@[simp] theorem State.setChan_pace (c : Chan) (x : ChanState) : (s.setChan c x).pace = s.pace := by
  cases c <;> rfl
@[simp] theorem State.setChan_paceZero (c : Chan) (x : ChanState) : (s.setChan c x).paceZero = s.paceZero := by
  cases c <;> rfl
@[simp] theorem State.setChan_paceCount (c : Chan) (x : ChanState) : (s.setChan c x).paceCount = s.paceCount := by
  cases c <;> rfl
@[simp] theorem State.setChan_freeN (c : Chan) (x : ChanState) : (s.setChan c x).freeN = s.freeN := by
  cases c <;> rfl
@[simp] theorem State.setChan_seq (c : Chan) (x : ChanState) : (s.setChan c x).seq = s.seq := by
  cases c <;> rfl
@[simp] theorem State.setChan_fltSeq (c : Chan) (x : ChanState) : (s.setChan c x).fltSeq = s.fltSeq := by
  cases c <;> rfl
@[simp] theorem State.setChan_fltAon (c : Chan) (x : ChanState) : (s.setChan c x).fltAon = s.fltAon := by
  cases c <;> rfl
@[simp] theorem State.setChan_fltSupv (c : Chan) (x : ChanState) : (s.setChan c x).fltSupv = s.fltSupv := by
  cases c <;> rfl
@[simp] theorem State.setChan_fltSense (c : Chan) (x : ChanState) : (s.setChan c x).fltSense = s.fltSense := by
  cases c <;> rfl
@[simp] theorem State.setChan_fltBus (c : Chan) (x : ChanState) : (s.setChan c x).fltBus = s.fltBus := by
  cases c <;> rfl
@[simp] theorem State.setChan_fltOtp (c : Chan) (x : ChanState) : (s.setChan c x).fltOtp = s.fltOtp := by
  cases c <;> rfl
@[simp] theorem State.setChan_fltTherm (c : Chan) (x : ChanState) : (s.setChan c x).fltTherm = s.fltTherm := by
  cases c <;> rfl
@[simp] theorem State.setChan_faultN (c : Chan) (x : ChanState) : (s.setChan c x).faultN = s.faultN := by
  cases c <;> rfl
@[simp] theorem State.setChan_attn (c : Chan) (x : ChanState) : (s.setChan c x).attn = s.attn := by
  cases c <;> rfl
@[simp] theorem State.setChan_events (c : Chan) (x : ChanState) : (s.setChan c x).events = s.events := by
  cases c <;> rfl
@[simp] theorem State.setChan_irq (c : Chan) (x : ChanState) : (s.setChan c x).irq = s.irq := by
  cases c <;> rfl
@[simp] theorem State.setChan_bus (c : Chan) (x : ChanState) : (s.setChan c x).bus = s.bus := by
  cases c <;> rfl
@[simp] theorem State.setChan_acceptSeq (c : Chan) (x : ChanState) : (s.setChan c x).acceptSeq = s.acceptSeq := by
  cases c <;> rfl
@[simp] theorem State.setChan_itemSeq (c : Chan) (x : ChanState) : (s.setChan c x).itemSeq = s.itemSeq := by
  cases c <;> rfl
@[simp] theorem State.setChan_params (c : Chan) (x : ChanState) : (s.setChan c x).params = s.params := by
  cases c <;> rfl
@[simp] theorem State.setChan_inForce (c : Chan) (x : ChanState) : (s.setChan c x).inForce = s.inForce := by
  cases c <;> rfl
@[simp] theorem State.setChan_takeUp (c : Chan) (x : ChanState) : (s.setChan c x).takeUp = s.takeUp := by
  cases c <;> rfl
@[simp] theorem State.setChan_fltWrites (c : Chan) (x : ChanState) : (s.setChan c x).fltWrites = s.fltWrites := by
  cases c <;> rfl
@[simp] theorem State.setChan_early (c : Chan) (x : ChanState) : (s.setChan c x).early = s.early := by
  cases c <;> rfl
@[simp] theorem State.setChan_dev (c : Chan) (x : ChanState) : (s.setChan c x).dev = s.dev := by
  cases c <;> rfl
@[simp] theorem State.setChan_feeds (c : Chan) (x : ChanState) : (s.setChan c x).feeds = s.feeds := by
  cases c <;> rfl
@[simp] theorem State.setChan_rampTurn (c : Chan) (x : ChanState) : (s.setChan c x).rampTurn = s.rampTurn := by
  cases c <;> rfl
@[simp] theorem State.setChan_turnFrom (c : Chan) (x : ChanState) : (s.setChan c x).turnFrom = s.turnFrom := by
  cases c <;> rfl
@[simp] theorem State.setChan_ridges (c : Chan) (x : ChanState) : (s.setChan c x).ridges = s.ridges := by
  cases c <;> rfl
@[simp] theorem State.setChan_phases (c : Chan) (x : ChanState) : (s.setChan c x).phases = s.phases := by
  cases c <;> rfl
@[simp] theorem State.setChan_ports (c : Chan) (x : ChanState) : (s.setChan c x).ports = s.ports := by
  cases c <;> rfl
@[simp] theorem State.setChan_ledger (c : Chan) (x : ChanState) : (s.setChan c x).ledger = s.ledger := by
  cases c <;> rfl
@[simp] theorem State.setChan_inn (c : Chan) (x : ChanState) : (s.setChan c x).inn = s.inn := by
  cases c <;> rfl
@[simp] theorem State.setChan_otp (c : Chan) (x : ChanState) : (s.setChan c x).otp = s.otp := by
  cases c <;> rfl
@[simp] theorem State.setChan_ret (c : Chan) (x : ChanState) : (s.setChan c x).ret = s.ret := by
  cases c <;> rfl
@[simp] theorem State.setChan_tester (c : Chan) (x : ChanState) : (s.setChan c x).tester = s.tester := by
  cases c <;> rfl
@[simp] theorem State.setChan_svc (c : Chan) (x : ChanState) : (s.setChan c x).svc = s.svc := by
  cases c <;> rfl
@[simp] theorem State.setChan_sup (c : Chan) (x : ChanState) : (s.setChan c x).sup = s.sup := by
  cases c <;> rfl
@[simp] theorem State.setChan_ageQueue (c : Chan) (x : ChanState) : (s.setChan c x).ageQueue = s.ageQueue := by
  cases c <;> rfl
@[simp] theorem State.setChan_retiring (c : Chan) (x : ChanState) : (s.setChan c x).retiring = s.retiring := by
  cases c <;> rfl
@[simp] theorem State.setChan_readmitting (c : Chan) (x : ChanState) : (s.setChan c x).readmitting = s.readmitting := by
  cases c <;> rfl
@[simp] theorem State.setChan_captures (c : Chan) (x : ChanState) : (s.setChan c x).captures = s.captures := by
  cases c <;> rfl
@[simp] theorem State.finish_pending (pl : Place) (n : Nat) (d : List Byte) : (s.finish pl n d).pending = s.pending := by
  unfold State.finish; split <;> simp
@[simp] theorem State.finish_tick (pl : Place) (n : Nat) (d : List Byte) : (s.finish pl n d).tick = s.tick := by
  unfold State.finish; split <;> simp
@[simp] theorem State.finish_locked (pl : Place) (n : Nat) (d : List Byte) : (s.finish pl n d).locked = s.locked := by
  unfold State.finish; split <;> simp
@[simp] theorem State.finish_frame (pl : Place) (n : Nat) (d : List Byte) : (s.finish pl n d).frame = s.frame := by
  unfold State.finish; split <;> simp
@[simp] theorem State.finish_pace (pl : Place) (n : Nat) (d : List Byte) : (s.finish pl n d).pace = s.pace := by
  unfold State.finish; split <;> simp
@[simp] theorem State.finish_paceZero (pl : Place) (n : Nat) (d : List Byte) : (s.finish pl n d).paceZero = s.paceZero := by
  unfold State.finish; split <;> simp
@[simp] theorem State.finish_paceCount (pl : Place) (n : Nat) (d : List Byte) : (s.finish pl n d).paceCount = s.paceCount := by
  unfold State.finish; split <;> simp
@[simp] theorem State.finish_freeN (pl : Place) (n : Nat) (d : List Byte) : (s.finish pl n d).freeN = s.freeN := by
  unfold State.finish; split <;> simp
@[simp] theorem State.finish_seq (pl : Place) (n : Nat) (d : List Byte) : (s.finish pl n d).seq = s.seq := by
  unfold State.finish; split <;> simp
@[simp] theorem State.finish_fltSeq (pl : Place) (n : Nat) (d : List Byte) : (s.finish pl n d).fltSeq = s.fltSeq := by
  unfold State.finish; split <;> simp
@[simp] theorem State.finish_fltAon (pl : Place) (n : Nat) (d : List Byte) : (s.finish pl n d).fltAon = s.fltAon := by
  unfold State.finish; split <;> simp
@[simp] theorem State.finish_fltSupv (pl : Place) (n : Nat) (d : List Byte) : (s.finish pl n d).fltSupv = s.fltSupv := by
  unfold State.finish; split <;> simp
@[simp] theorem State.finish_fltSense (pl : Place) (n : Nat) (d : List Byte) : (s.finish pl n d).fltSense = s.fltSense := by
  unfold State.finish; split <;> simp
@[simp] theorem State.finish_fltBus (pl : Place) (n : Nat) (d : List Byte) : (s.finish pl n d).fltBus = s.fltBus := by
  unfold State.finish; split <;> simp
@[simp] theorem State.finish_fltOtp (pl : Place) (n : Nat) (d : List Byte) : (s.finish pl n d).fltOtp = s.fltOtp := by
  unfold State.finish; split <;> simp
@[simp] theorem State.finish_fltTherm (pl : Place) (n : Nat) (d : List Byte) : (s.finish pl n d).fltTherm = s.fltTherm := by
  unfold State.finish; split <;> simp
@[simp] theorem State.finish_faultN (pl : Place) (n : Nat) (d : List Byte) : (s.finish pl n d).faultN = s.faultN := by
  unfold State.finish; split <;> simp
@[simp] theorem State.finish_attn (pl : Place) (n : Nat) (d : List Byte) : (s.finish pl n d).attn = s.attn := by
  unfold State.finish; split <;> simp
@[simp] theorem State.finish_events (pl : Place) (n : Nat) (d : List Byte) : (s.finish pl n d).events = s.events := by
  unfold State.finish; split <;> simp
@[simp] theorem State.finish_irq (pl : Place) (n : Nat) (d : List Byte) : (s.finish pl n d).irq = s.irq := by
  unfold State.finish; split <;> simp
@[simp] theorem State.finish_bus (pl : Place) (n : Nat) (d : List Byte) : (s.finish pl n d).bus = s.bus := by
  unfold State.finish; split <;> simp
@[simp] theorem State.finish_acceptSeq (pl : Place) (n : Nat) (d : List Byte) : (s.finish pl n d).acceptSeq = s.acceptSeq := by
  unfold State.finish; split <;> simp
@[simp] theorem State.finish_itemSeq (pl : Place) (n : Nat) (d : List Byte) : (s.finish pl n d).itemSeq = s.itemSeq := by
  unfold State.finish; split <;> simp
@[simp] theorem State.finish_params (pl : Place) (n : Nat) (d : List Byte) : (s.finish pl n d).params = s.params := by
  unfold State.finish; split <;> simp
@[simp] theorem State.finish_inForce (pl : Place) (n : Nat) (d : List Byte) : (s.finish pl n d).inForce = s.inForce := by
  unfold State.finish; split <;> simp
@[simp] theorem State.finish_takeUp (pl : Place) (n : Nat) (d : List Byte) : (s.finish pl n d).takeUp = s.takeUp := by
  unfold State.finish; split <;> simp
@[simp] theorem State.finish_fltWrites (pl : Place) (n : Nat) (d : List Byte) : (s.finish pl n d).fltWrites = s.fltWrites := by
  unfold State.finish; split <;> simp
@[simp] theorem State.finish_early (pl : Place) (n : Nat) (d : List Byte) : (s.finish pl n d).early = s.early := by
  unfold State.finish; split <;> simp
@[simp] theorem State.finish_dev (pl : Place) (n : Nat) (d : List Byte) : (s.finish pl n d).dev = s.dev := by
  unfold State.finish; split <;> simp
@[simp] theorem State.finish_feeds (pl : Place) (n : Nat) (d : List Byte) : (s.finish pl n d).feeds = s.feeds := by
  unfold State.finish; split <;> simp
@[simp] theorem State.finish_rampTurn (pl : Place) (n : Nat) (d : List Byte) : (s.finish pl n d).rampTurn = s.rampTurn := by
  unfold State.finish; split <;> simp
@[simp] theorem State.finish_turnFrom (pl : Place) (n : Nat) (d : List Byte) : (s.finish pl n d).turnFrom = s.turnFrom := by
  unfold State.finish; split <;> simp
@[simp] theorem State.finish_ridges (pl : Place) (n : Nat) (d : List Byte) : (s.finish pl n d).ridges = s.ridges := by
  unfold State.finish; split <;> simp
@[simp] theorem State.finish_phases (pl : Place) (n : Nat) (d : List Byte) : (s.finish pl n d).phases = s.phases := by
  unfold State.finish; split <;> simp
@[simp] theorem State.finish_ports (pl : Place) (n : Nat) (d : List Byte) : (s.finish pl n d).ports = s.ports := by
  unfold State.finish; split <;> simp
@[simp] theorem State.finish_ledger (pl : Place) (n : Nat) (d : List Byte) : (s.finish pl n d).ledger = s.ledger := by
  unfold State.finish; split <;> simp
@[simp] theorem State.finish_inn (pl : Place) (n : Nat) (d : List Byte) : (s.finish pl n d).inn = s.inn := by
  unfold State.finish; split <;> simp
@[simp] theorem State.finish_otp (pl : Place) (n : Nat) (d : List Byte) : (s.finish pl n d).otp = s.otp := by
  unfold State.finish; split <;> simp
@[simp] theorem State.finish_ret (pl : Place) (n : Nat) (d : List Byte) : (s.finish pl n d).ret = s.ret := by
  unfold State.finish; split <;> simp
@[simp] theorem State.finish_tester (pl : Place) (n : Nat) (d : List Byte) : (s.finish pl n d).tester = s.tester := by
  unfold State.finish; split <;> simp
@[simp] theorem State.finish_svc (pl : Place) (n : Nat) (d : List Byte) : (s.finish pl n d).svc = s.svc := by
  unfold State.finish; split <;> simp
@[simp] theorem State.finish_sup (pl : Place) (n : Nat) (d : List Byte) : (s.finish pl n d).sup = s.sup := by
  unfold State.finish; split <;> simp
@[simp] theorem State.finish_ageQueue (pl : Place) (n : Nat) (d : List Byte) : (s.finish pl n d).ageQueue = s.ageQueue := by
  unfold State.finish; split <;> simp
@[simp] theorem State.finish_retiring (pl : Place) (n : Nat) (d : List Byte) : (s.finish pl n d).retiring = s.retiring := by
  unfold State.finish; split <;> simp
@[simp] theorem State.finish_readmitting (pl : Place) (n : Nat) (d : List Byte) : (s.finish pl n d).readmitting = s.readmitting := by
  unfold State.finish; split <;> simp
@[simp] theorem State.finish_captures (pl : Place) (n : Nat) (d : List Byte) : (s.finish pl n d).captures = s.captures := by
  unfold State.finish; split <;> simp
@[simp] theorem State.hold_pending (pl : Place) (w : WaitFor) : (s.hold pl w).pending = s.pending := by
  unfold State.hold; split <;> simp [State.setCmdAt]
@[simp] theorem State.hold_tick (pl : Place) (w : WaitFor) : (s.hold pl w).tick = s.tick := by
  unfold State.hold; split <;> simp [State.setCmdAt]
@[simp] theorem State.hold_locked (pl : Place) (w : WaitFor) : (s.hold pl w).locked = s.locked := by
  unfold State.hold; split <;> simp [State.setCmdAt]
@[simp] theorem State.hold_frame (pl : Place) (w : WaitFor) : (s.hold pl w).frame = s.frame := by
  unfold State.hold; split <;> simp [State.setCmdAt]
@[simp] theorem State.hold_pace (pl : Place) (w : WaitFor) : (s.hold pl w).pace = s.pace := by
  unfold State.hold; split <;> simp [State.setCmdAt]
@[simp] theorem State.hold_paceZero (pl : Place) (w : WaitFor) : (s.hold pl w).paceZero = s.paceZero := by
  unfold State.hold; split <;> simp [State.setCmdAt]
@[simp] theorem State.hold_paceCount (pl : Place) (w : WaitFor) : (s.hold pl w).paceCount = s.paceCount := by
  unfold State.hold; split <;> simp [State.setCmdAt]
@[simp] theorem State.hold_freeN (pl : Place) (w : WaitFor) : (s.hold pl w).freeN = s.freeN := by
  unfold State.hold; split <;> simp [State.setCmdAt]
@[simp] theorem State.hold_seq (pl : Place) (w : WaitFor) : (s.hold pl w).seq = s.seq := by
  unfold State.hold; split <;> simp [State.setCmdAt]
@[simp] theorem State.hold_fltSeq (pl : Place) (w : WaitFor) : (s.hold pl w).fltSeq = s.fltSeq := by
  unfold State.hold; split <;> simp [State.setCmdAt]
@[simp] theorem State.hold_fltAon (pl : Place) (w : WaitFor) : (s.hold pl w).fltAon = s.fltAon := by
  unfold State.hold; split <;> simp [State.setCmdAt]
@[simp] theorem State.hold_fltSupv (pl : Place) (w : WaitFor) : (s.hold pl w).fltSupv = s.fltSupv := by
  unfold State.hold; split <;> simp [State.setCmdAt]
@[simp] theorem State.hold_fltSense (pl : Place) (w : WaitFor) : (s.hold pl w).fltSense = s.fltSense := by
  unfold State.hold; split <;> simp [State.setCmdAt]
@[simp] theorem State.hold_fltBus (pl : Place) (w : WaitFor) : (s.hold pl w).fltBus = s.fltBus := by
  unfold State.hold; split <;> simp [State.setCmdAt]
@[simp] theorem State.hold_fltOtp (pl : Place) (w : WaitFor) : (s.hold pl w).fltOtp = s.fltOtp := by
  unfold State.hold; split <;> simp [State.setCmdAt]
@[simp] theorem State.hold_fltTherm (pl : Place) (w : WaitFor) : (s.hold pl w).fltTherm = s.fltTherm := by
  unfold State.hold; split <;> simp [State.setCmdAt]
@[simp] theorem State.hold_faultN (pl : Place) (w : WaitFor) : (s.hold pl w).faultN = s.faultN := by
  unfold State.hold; split <;> simp [State.setCmdAt]
@[simp] theorem State.hold_attn (pl : Place) (w : WaitFor) : (s.hold pl w).attn = s.attn := by
  unfold State.hold; split <;> simp [State.setCmdAt]
@[simp] theorem State.hold_events (pl : Place) (w : WaitFor) : (s.hold pl w).events = s.events := by
  unfold State.hold; split <;> simp [State.setCmdAt]
@[simp] theorem State.hold_irq (pl : Place) (w : WaitFor) : (s.hold pl w).irq = s.irq := by
  unfold State.hold; split <;> simp [State.setCmdAt]
@[simp] theorem State.hold_bus (pl : Place) (w : WaitFor) : (s.hold pl w).bus = s.bus := by
  unfold State.hold; split <;> simp [State.setCmdAt]
@[simp] theorem State.hold_acceptSeq (pl : Place) (w : WaitFor) : (s.hold pl w).acceptSeq = s.acceptSeq := by
  unfold State.hold; split <;> simp [State.setCmdAt]
@[simp] theorem State.hold_itemSeq (pl : Place) (w : WaitFor) : (s.hold pl w).itemSeq = s.itemSeq := by
  unfold State.hold; split <;> simp [State.setCmdAt]
@[simp] theorem State.hold_params (pl : Place) (w : WaitFor) : (s.hold pl w).params = s.params := by
  unfold State.hold; split <;> simp [State.setCmdAt]
@[simp] theorem State.hold_inForce (pl : Place) (w : WaitFor) : (s.hold pl w).inForce = s.inForce := by
  unfold State.hold; split <;> simp [State.setCmdAt]
@[simp] theorem State.hold_takeUp (pl : Place) (w : WaitFor) : (s.hold pl w).takeUp = s.takeUp := by
  unfold State.hold; split <;> simp [State.setCmdAt]
@[simp] theorem State.hold_fltWrites (pl : Place) (w : WaitFor) : (s.hold pl w).fltWrites = s.fltWrites := by
  unfold State.hold; split <;> simp [State.setCmdAt]
@[simp] theorem State.hold_early (pl : Place) (w : WaitFor) : (s.hold pl w).early = s.early := by
  unfold State.hold; split <;> simp [State.setCmdAt]
@[simp] theorem State.hold_dev (pl : Place) (w : WaitFor) : (s.hold pl w).dev = s.dev := by
  unfold State.hold; split <;> simp [State.setCmdAt]
@[simp] theorem State.hold_feeds (pl : Place) (w : WaitFor) : (s.hold pl w).feeds = s.feeds := by
  unfold State.hold; split <;> simp [State.setCmdAt]
@[simp] theorem State.hold_rampTurn (pl : Place) (w : WaitFor) : (s.hold pl w).rampTurn = s.rampTurn := by
  unfold State.hold; split <;> simp [State.setCmdAt]
@[simp] theorem State.hold_turnFrom (pl : Place) (w : WaitFor) : (s.hold pl w).turnFrom = s.turnFrom := by
  unfold State.hold; split <;> simp [State.setCmdAt]
@[simp] theorem State.hold_ridges (pl : Place) (w : WaitFor) : (s.hold pl w).ridges = s.ridges := by
  unfold State.hold; split <;> simp [State.setCmdAt]
@[simp] theorem State.hold_phases (pl : Place) (w : WaitFor) : (s.hold pl w).phases = s.phases := by
  unfold State.hold; split <;> simp [State.setCmdAt]
@[simp] theorem State.hold_ports (pl : Place) (w : WaitFor) : (s.hold pl w).ports = s.ports := by
  unfold State.hold; split <;> simp [State.setCmdAt]
@[simp] theorem State.hold_ledger (pl : Place) (w : WaitFor) : (s.hold pl w).ledger = s.ledger := by
  unfold State.hold; split <;> simp [State.setCmdAt]
@[simp] theorem State.hold_inn (pl : Place) (w : WaitFor) : (s.hold pl w).inn = s.inn := by
  unfold State.hold; split <;> simp [State.setCmdAt]
@[simp] theorem State.hold_otp (pl : Place) (w : WaitFor) : (s.hold pl w).otp = s.otp := by
  unfold State.hold; split <;> simp [State.setCmdAt]
@[simp] theorem State.hold_ret (pl : Place) (w : WaitFor) : (s.hold pl w).ret = s.ret := by
  unfold State.hold; split <;> simp [State.setCmdAt]
@[simp] theorem State.hold_tester (pl : Place) (w : WaitFor) : (s.hold pl w).tester = s.tester := by
  unfold State.hold; split <;> simp [State.setCmdAt]
@[simp] theorem State.hold_svc (pl : Place) (w : WaitFor) : (s.hold pl w).svc = s.svc := by
  unfold State.hold; split <;> simp [State.setCmdAt]
@[simp] theorem State.hold_sup (pl : Place) (w : WaitFor) : (s.hold pl w).sup = s.sup := by
  unfold State.hold; split <;> simp [State.setCmdAt]
@[simp] theorem State.hold_ageQueue (pl : Place) (w : WaitFor) : (s.hold pl w).ageQueue = s.ageQueue := by
  unfold State.hold; split <;> simp [State.setCmdAt]
@[simp] theorem State.hold_retiring (pl : Place) (w : WaitFor) : (s.hold pl w).retiring = s.retiring := by
  unfold State.hold; split <;> simp [State.setCmdAt]
@[simp] theorem State.hold_readmitting (pl : Place) (w : WaitFor) : (s.hold pl w).readmitting = s.readmitting := by
  unfold State.hold; split <;> simp [State.setCmdAt]
@[simp] theorem State.hold_captures (pl : Place) (w : WaitFor) : (s.hold pl w).captures = s.captures := by
  unfold State.hold; split <;> simp [State.setCmdAt]

/-- A fold of updates that each leave a part of the state alone leaves it alone. -/
theorem foldl_keeps {α β : Type} (g : State → β) (f : State → α → State) (h : ∀ t a, g (f t a) = g t) (l : List α) :
    g (l.foldl f s) = g s := by
  induction l generalizing s with
  | nil => rfl
  | cons a l ih => rw [List.foldl_cons, ih, h]

@[simp] theorem State.finishWait_pending (w : WaitFor) (n : Nat) (d : List Byte) : (s.finishWait w n d).pending = s.pending :=
  foldl_keeps s (·.pending) _ (fun t pl => by split <;> simp) _
@[simp] theorem State.finishWait_tick (w : WaitFor) (n : Nat) (d : List Byte) : (s.finishWait w n d).tick = s.tick :=
  foldl_keeps s (·.tick) _ (fun t pl => by split <;> simp) _
@[simp] theorem State.finishWait_locked (w : WaitFor) (n : Nat) (d : List Byte) : (s.finishWait w n d).locked = s.locked :=
  foldl_keeps s (·.locked) _ (fun t pl => by split <;> simp) _
@[simp] theorem State.finishWait_frame (w : WaitFor) (n : Nat) (d : List Byte) : (s.finishWait w n d).frame = s.frame :=
  foldl_keeps s (·.frame) _ (fun t pl => by split <;> simp) _
@[simp] theorem State.finishWait_pace (w : WaitFor) (n : Nat) (d : List Byte) : (s.finishWait w n d).pace = s.pace :=
  foldl_keeps s (·.pace) _ (fun t pl => by split <;> simp) _
@[simp] theorem State.finishWait_paceZero (w : WaitFor) (n : Nat) (d : List Byte) : (s.finishWait w n d).paceZero = s.paceZero :=
  foldl_keeps s (·.paceZero) _ (fun t pl => by split <;> simp) _
@[simp] theorem State.finishWait_paceCount (w : WaitFor) (n : Nat) (d : List Byte) : (s.finishWait w n d).paceCount = s.paceCount :=
  foldl_keeps s (·.paceCount) _ (fun t pl => by split <;> simp) _
@[simp] theorem State.finishWait_freeN (w : WaitFor) (n : Nat) (d : List Byte) : (s.finishWait w n d).freeN = s.freeN :=
  foldl_keeps s (·.freeN) _ (fun t pl => by split <;> simp) _
@[simp] theorem State.finishWait_seq (w : WaitFor) (n : Nat) (d : List Byte) : (s.finishWait w n d).seq = s.seq :=
  foldl_keeps s (·.seq) _ (fun t pl => by split <;> simp) _
@[simp] theorem State.finishWait_fltSeq (w : WaitFor) (n : Nat) (d : List Byte) : (s.finishWait w n d).fltSeq = s.fltSeq :=
  foldl_keeps s (·.fltSeq) _ (fun t pl => by split <;> simp) _
@[simp] theorem State.finishWait_fltAon (w : WaitFor) (n : Nat) (d : List Byte) : (s.finishWait w n d).fltAon = s.fltAon :=
  foldl_keeps s (·.fltAon) _ (fun t pl => by split <;> simp) _
@[simp] theorem State.finishWait_fltSupv (w : WaitFor) (n : Nat) (d : List Byte) : (s.finishWait w n d).fltSupv = s.fltSupv :=
  foldl_keeps s (·.fltSupv) _ (fun t pl => by split <;> simp) _
@[simp] theorem State.finishWait_fltSense (w : WaitFor) (n : Nat) (d : List Byte) : (s.finishWait w n d).fltSense = s.fltSense :=
  foldl_keeps s (·.fltSense) _ (fun t pl => by split <;> simp) _
@[simp] theorem State.finishWait_fltBus (w : WaitFor) (n : Nat) (d : List Byte) : (s.finishWait w n d).fltBus = s.fltBus :=
  foldl_keeps s (·.fltBus) _ (fun t pl => by split <;> simp) _
@[simp] theorem State.finishWait_fltOtp (w : WaitFor) (n : Nat) (d : List Byte) : (s.finishWait w n d).fltOtp = s.fltOtp :=
  foldl_keeps s (·.fltOtp) _ (fun t pl => by split <;> simp) _
@[simp] theorem State.finishWait_fltTherm (w : WaitFor) (n : Nat) (d : List Byte) : (s.finishWait w n d).fltTherm = s.fltTherm :=
  foldl_keeps s (·.fltTherm) _ (fun t pl => by split <;> simp) _
@[simp] theorem State.finishWait_faultN (w : WaitFor) (n : Nat) (d : List Byte) : (s.finishWait w n d).faultN = s.faultN :=
  foldl_keeps s (·.faultN) _ (fun t pl => by split <;> simp) _
@[simp] theorem State.finishWait_attn (w : WaitFor) (n : Nat) (d : List Byte) : (s.finishWait w n d).attn = s.attn :=
  foldl_keeps s (·.attn) _ (fun t pl => by split <;> simp) _
@[simp] theorem State.finishWait_events (w : WaitFor) (n : Nat) (d : List Byte) : (s.finishWait w n d).events = s.events :=
  foldl_keeps s (·.events) _ (fun t pl => by split <;> simp) _
@[simp] theorem State.finishWait_irq (w : WaitFor) (n : Nat) (d : List Byte) : (s.finishWait w n d).irq = s.irq :=
  foldl_keeps s (·.irq) _ (fun t pl => by split <;> simp) _
@[simp] theorem State.finishWait_bus (w : WaitFor) (n : Nat) (d : List Byte) : (s.finishWait w n d).bus = s.bus :=
  foldl_keeps s (·.bus) _ (fun t pl => by split <;> simp) _
@[simp] theorem State.finishWait_acceptSeq (w : WaitFor) (n : Nat) (d : List Byte) : (s.finishWait w n d).acceptSeq = s.acceptSeq :=
  foldl_keeps s (·.acceptSeq) _ (fun t pl => by split <;> simp) _
@[simp] theorem State.finishWait_itemSeq (w : WaitFor) (n : Nat) (d : List Byte) : (s.finishWait w n d).itemSeq = s.itemSeq :=
  foldl_keeps s (·.itemSeq) _ (fun t pl => by split <;> simp) _
@[simp] theorem State.finishWait_params (w : WaitFor) (n : Nat) (d : List Byte) : (s.finishWait w n d).params = s.params :=
  foldl_keeps s (·.params) _ (fun t pl => by split <;> simp) _
@[simp] theorem State.finishWait_inForce (w : WaitFor) (n : Nat) (d : List Byte) : (s.finishWait w n d).inForce = s.inForce :=
  foldl_keeps s (·.inForce) _ (fun t pl => by split <;> simp) _
@[simp] theorem State.finishWait_takeUp (w : WaitFor) (n : Nat) (d : List Byte) : (s.finishWait w n d).takeUp = s.takeUp :=
  foldl_keeps s (·.takeUp) _ (fun t pl => by split <;> simp) _
@[simp] theorem State.finishWait_fltWrites (w : WaitFor) (n : Nat) (d : List Byte) : (s.finishWait w n d).fltWrites = s.fltWrites :=
  foldl_keeps s (·.fltWrites) _ (fun t pl => by split <;> simp) _
@[simp] theorem State.finishWait_early (w : WaitFor) (n : Nat) (d : List Byte) : (s.finishWait w n d).early = s.early :=
  foldl_keeps s (·.early) _ (fun t pl => by split <;> simp) _
@[simp] theorem State.finishWait_dev (w : WaitFor) (n : Nat) (d : List Byte) : (s.finishWait w n d).dev = s.dev :=
  foldl_keeps s (·.dev) _ (fun t pl => by split <;> simp) _
@[simp] theorem State.finishWait_feeds (w : WaitFor) (n : Nat) (d : List Byte) : (s.finishWait w n d).feeds = s.feeds :=
  foldl_keeps s (·.feeds) _ (fun t pl => by split <;> simp) _
@[simp] theorem State.finishWait_rampTurn (w : WaitFor) (n : Nat) (d : List Byte) : (s.finishWait w n d).rampTurn = s.rampTurn :=
  foldl_keeps s (·.rampTurn) _ (fun t pl => by split <;> simp) _
@[simp] theorem State.finishWait_turnFrom (w : WaitFor) (n : Nat) (d : List Byte) : (s.finishWait w n d).turnFrom = s.turnFrom :=
  foldl_keeps s (·.turnFrom) _ (fun t pl => by split <;> simp) _
@[simp] theorem State.finishWait_ridges (w : WaitFor) (n : Nat) (d : List Byte) : (s.finishWait w n d).ridges = s.ridges :=
  foldl_keeps s (·.ridges) _ (fun t pl => by split <;> simp) _
@[simp] theorem State.finishWait_phases (w : WaitFor) (n : Nat) (d : List Byte) : (s.finishWait w n d).phases = s.phases :=
  foldl_keeps s (·.phases) _ (fun t pl => by split <;> simp) _
@[simp] theorem State.finishWait_ports (w : WaitFor) (n : Nat) (d : List Byte) : (s.finishWait w n d).ports = s.ports :=
  foldl_keeps s (·.ports) _ (fun t pl => by split <;> simp) _
@[simp] theorem State.finishWait_ledger (w : WaitFor) (n : Nat) (d : List Byte) : (s.finishWait w n d).ledger = s.ledger :=
  foldl_keeps s (·.ledger) _ (fun t pl => by split <;> simp) _
@[simp] theorem State.finishWait_inn (w : WaitFor) (n : Nat) (d : List Byte) : (s.finishWait w n d).inn = s.inn :=
  foldl_keeps s (·.inn) _ (fun t pl => by split <;> simp) _
@[simp] theorem State.finishWait_otp (w : WaitFor) (n : Nat) (d : List Byte) : (s.finishWait w n d).otp = s.otp :=
  foldl_keeps s (·.otp) _ (fun t pl => by split <;> simp) _
@[simp] theorem State.finishWait_ret (w : WaitFor) (n : Nat) (d : List Byte) : (s.finishWait w n d).ret = s.ret :=
  foldl_keeps s (·.ret) _ (fun t pl => by split <;> simp) _
@[simp] theorem State.finishWait_tester (w : WaitFor) (n : Nat) (d : List Byte) : (s.finishWait w n d).tester = s.tester :=
  foldl_keeps s (·.tester) _ (fun t pl => by split <;> simp) _
@[simp] theorem State.finishWait_svc (w : WaitFor) (n : Nat) (d : List Byte) : (s.finishWait w n d).svc = s.svc :=
  foldl_keeps s (·.svc) _ (fun t pl => by split <;> simp) _
@[simp] theorem State.finishWait_sup (w : WaitFor) (n : Nat) (d : List Byte) : (s.finishWait w n d).sup = s.sup :=
  foldl_keeps s (·.sup) _ (fun t pl => by split <;> simp) _
@[simp] theorem State.finishWait_ageQueue (w : WaitFor) (n : Nat) (d : List Byte) : (s.finishWait w n d).ageQueue = s.ageQueue :=
  foldl_keeps s (·.ageQueue) _ (fun t pl => by split <;> simp) _
@[simp] theorem State.finishWait_retiring (w : WaitFor) (n : Nat) (d : List Byte) : (s.finishWait w n d).retiring = s.retiring :=
  foldl_keeps s (·.retiring) _ (fun t pl => by split <;> simp) _
@[simp] theorem State.finishWait_readmitting (w : WaitFor) (n : Nat) (d : List Byte) : (s.finishWait w n d).readmitting = s.readmitting :=
  foldl_keeps s (·.readmitting) _ (fun t pl => by split <;> simp) _
@[simp] theorem State.finishWait_captures (w : WaitFor) (n : Nat) (d : List Byte) : (s.finishWait w n d).captures = s.captures :=
  foldl_keeps s (·.captures) _ (fun t pl => by split <;> simp) _
/-! ### The instances behind the shared operations -/

@[simp] theorem State.setAttn_port (b : Nat) (y : Nat) : (s.setAttn b).port y = s.port y := rfl
@[simp] theorem State.setAttn_phase (b : Nat) (y : Nat) : (s.setAttn b).phase y = s.phase y := rfl
@[simp] theorem State.setAttn_ridge (b : Nat) (y : Nat) : (s.setAttn b).ridge y = s.ridge y := rfl
@[simp] theorem State.setAttn_feed (b : Nat) (y : Nat) : (s.setAttn b).feed y = s.feed y := rfl
@[simp] theorem State.pushEvent_port (k i : Nat) (d : List Byte) (y : Nat) : (s.pushEvent k i d).port y = s.port y := rfl
@[simp] theorem State.pushEvent_phase (k i : Nat) (d : List Byte) (y : Nat) : (s.pushEvent k i d).phase y = s.phase y := rfl
@[simp] theorem State.pushEvent_ridge (k i : Nat) (d : List Byte) (y : Nat) : (s.pushEvent k i d).ridge y = s.ridge y := rfl
@[simp] theorem State.pushEvent_feed (k i : Nat) (d : List Byte) (y : Nat) : (s.pushEvent k i d).feed y = s.feed y := rfl
@[simp] theorem State.pinOccur_port  (y : Nat) : (s.pinOccur).port y = s.port y := by
  simp [State.port]
@[simp] theorem State.pinOccur_phase  (y : Nat) : (s.pinOccur).phase y = s.phase y := by
  simp [State.phase]
@[simp] theorem State.pinOccur_ridge  (y : Nat) : (s.pinOccur).ridge y = s.ridge y := by
  simp [State.ridge]
@[simp] theorem State.pinOccur_feed  (y : Nat) : (s.pinOccur).feed y = s.feed y := by
  simp [State.feed]
@[simp] theorem State.interrupt_port (x : IrqSource) (y : Nat) : (s.interrupt x).port y = s.port y := by
  simp [State.port]
@[simp] theorem State.interrupt_phase (x : IrqSource) (y : Nat) : (s.interrupt x).phase y = s.phase y := by
  simp [State.phase]
@[simp] theorem State.interrupt_ridge (x : IrqSource) (y : Nat) : (s.interrupt x).ridge y = s.ridge y := by
  simp [State.ridge]
@[simp] theorem State.interrupt_feed (x : IrqSource) (y : Nat) : (s.interrupt x).feed y = s.feed y := by
  simp [State.feed]
@[simp] theorem State.setChan_port (c : Chan) (x : ChanState) (y : Nat) : (s.setChan c x).port y = s.port y := by
  simp [State.port]
@[simp] theorem State.setChan_phase (c : Chan) (x : ChanState) (y : Nat) : (s.setChan c x).phase y = s.phase y := by
  simp [State.phase]
@[simp] theorem State.setChan_ridge (c : Chan) (x : ChanState) (y : Nat) : (s.setChan c x).ridge y = s.ridge y := by
  simp [State.ridge]
@[simp] theorem State.setChan_feed (c : Chan) (x : ChanState) (y : Nat) : (s.setChan c x).feed y = s.feed y := by
  simp [State.feed]
@[simp] theorem State.finish_port (pl : Place) (n : Nat) (d : List Byte) (y : Nat) : (s.finish pl n d).port y = s.port y := by
  simp [State.port]
@[simp] theorem State.finish_phase (pl : Place) (n : Nat) (d : List Byte) (y : Nat) : (s.finish pl n d).phase y = s.phase y := by
  simp [State.phase]
@[simp] theorem State.finish_ridge (pl : Place) (n : Nat) (d : List Byte) (y : Nat) : (s.finish pl n d).ridge y = s.ridge y := by
  simp [State.ridge]
@[simp] theorem State.finish_feed (pl : Place) (n : Nat) (d : List Byte) (y : Nat) : (s.finish pl n d).feed y = s.feed y := by
  simp [State.feed]
@[simp] theorem State.hold_port (pl : Place) (w : WaitFor) (y : Nat) : (s.hold pl w).port y = s.port y := by
  simp [State.port]
@[simp] theorem State.hold_phase (pl : Place) (w : WaitFor) (y : Nat) : (s.hold pl w).phase y = s.phase y := by
  simp [State.phase]
@[simp] theorem State.hold_ridge (pl : Place) (w : WaitFor) (y : Nat) : (s.hold pl w).ridge y = s.ridge y := by
  simp [State.ridge]
@[simp] theorem State.hold_feed (pl : Place) (w : WaitFor) (y : Nat) : (s.hold pl w).feed y = s.feed y := by
  simp [State.feed]
@[simp] theorem State.finishWait_port (w : WaitFor) (n : Nat) (d : List Byte) (y : Nat) : (s.finishWait w n d).port y = s.port y := by
  simp [State.port]
@[simp] theorem State.finishWait_phase (w : WaitFor) (n : Nat) (d : List Byte) (y : Nat) : (s.finishWait w n d).phase y = s.phase y := by
  simp [State.phase]
@[simp] theorem State.finishWait_ridge (w : WaitFor) (n : Nat) (d : List Byte) (y : Nat) : (s.finishWait w n d).ridge y = s.ridge y := by
  simp [State.ridge]
@[simp] theorem State.finishWait_feed (w : WaitFor) (n : Nat) (d : List Byte) (y : Nat) : (s.finishWait w n d).feed y = s.feed y := by
  simp [State.feed]

end Sys2Proof.Machine
end

