-- ==== Sys2Proof/Laws/Raise.lean ====
section
/-! SUPPORT. What raising a sticky bit (R255) leaves alone: every field but the record itself, the fault pin, attention and pending interrupts. -/

namespace Sys2Proof.Machine

variable (s : State)

/-- A feed without its record. -/
def Feed.bare (f : Feed) : Feed := { f with flt := {} }

/-- A phase without its record. -/
def Phase.bare (f : Phase) : Phase := { f with flt := {} }

/-- A ridge without its record. -/
def Ridge.bare (f : Ridge) : Ridge := { f with flt := {} }

/-- A port without its two records. -/
def Port.bare (q : Port) : Port := { q with cc := { q.cc with flt := {} }, path := { q.path with flt := {} } }

theorem State.feed_updFeed_bare (x y : Nat) (g : Feed → Feed) (h : ∀ f, (g f).bare = f.bare) :
    ((s.updFeed x g).feed y).bare = (s.feed y).bare := by
  by_cases e : y = x
  · subst e
    by_cases l : y < s.feeds.length
    · rw [State.feed_updFeed s y g l, h]
    · simp [State.updFeed, State.feed, l]
  · rw [State.feed_updFeed_ne s x y g e]

theorem State.phase_updPhase_bare (x y : Nat) (g : Phase → Phase) (h : ∀ f, (g f).bare = f.bare) :
    ((s.updPhase x g).phase y).bare = (s.phase y).bare := by
  by_cases e : y = x
  · subst e
    by_cases l : y < s.phases.length
    · rw [State.phase_updPhase s y g l, h]
    · simp [State.updPhase, State.phase, l]
  · rw [State.phase_updPhase_ne s x y g e]

theorem State.ridge_updRidge_bare (x y : Nat) (g : Ridge → Ridge) (h : ∀ f, (g f).bare = f.bare) :
    ((s.updRidge x g).ridge y).bare = (s.ridge y).bare := by
  by_cases e : y = x
  · subst e
    by_cases l : y < s.ridges.length
    · rw [State.ridge_updRidge s y g l, h]
    · simp [State.updRidge, State.ridge, l]
  · rw [State.ridge_updRidge_ne s x y g e]

theorem State.port_updPort_bare (x y : Nat) (g : Port → Port) (h : ∀ f, (g f).bare = f.bare) :
    ((s.updPort x g).port y).bare = (s.port y).bare := by
  by_cases e : y = x
  · subst e
    by_cases l : y < s.ports.length
    · rw [State.port_updPort s y g l, h]
    · simp [State.updPort, State.port, l]
  · rw [State.port_updPort_ne s x y g e]

theorem State.setFlt_feed_bare (b : Blk) (f : Flt) (y : Nat) : ((s.setFlt b f).feed y).bare = (s.feed y).bare := by
  cases b <;> first | rfl | exact State.feed_updFeed_bare s _ _ _ fun _ => rfl

theorem State.setFlt_phase_bare (b : Blk) (f : Flt) (y : Nat) : ((s.setFlt b f).phase y).bare = (s.phase y).bare := by
  cases b <;> first | rfl | exact State.phase_updPhase_bare s _ _ _ fun _ => rfl

theorem State.setFlt_ridge_bare (b : Blk) (f : Flt) (y : Nat) : ((s.setFlt b f).ridge y).bare = (s.ridge y).bare := by
  cases b <;> first | rfl | exact State.ridge_updRidge_bare s _ _ _ fun _ => rfl

theorem State.setFlt_port_bare (b : Blk) (f : Flt) (y : Nat) : ((s.setFlt b f).port y).bare = (s.port y).bare := by
  cases b <;> first | rfl | exact State.port_updPort_bare s _ _ _ fun _ => rfl

theorem State.pinOccur_shape : ∃ n, s.pinOccur = { s with faultN := n } := by
  unfold State.pinOccur
  split
  · exact ⟨s.faultN, rfl⟩
  · split <;> exact ⟨_, rfl⟩

theorem State.interrupt_shape (x : IrqSource) : ∃ q, s.interrupt x = { s with irq := q } := by
  unfold State.interrupt
  split <;> [exact ⟨_, rfl⟩; exact ⟨s.irq, rfl⟩]

/-- Raising acts on the record, the pin, attention and the supervisor's pending interrupts. -/
theorem State.raise_shape (b : Blk) (i : Nat) :
    (∃ a n, ∃ q : List IrqSource,
        s.raise b i = { s.setFlt b ((s.flt b).occur i s.firstFrame s.stampNow) with attn := a, faultN := n, irq := q }) ∨
      ((s.flt b).sticky.getLsbD i = true ∧ s.raise b i = s) := by
  unfold State.raise
  dsimp only
  split
  · exact .inr ⟨‹_›, rfl⟩
  · refine .inl ?_
    generalize s.setFlt b _ = u
    obtain ⟨q, hq⟩ := u.interrupt_shape (.fault b i)
    split <;> (try rw [hq])
    all_goals
      split <;> (try (obtain ⟨n, h⟩ := State.pinOccur_shape _; rw [h]))
      all_goals split <;> exact ⟨_, _, _, rfl⟩

theorem State.raise_feed_bare (b : Blk) (i y : Nat) : ((s.raise b i).feed y).bare = (s.feed y).bare := by
  obtain ⟨a, n, q, h⟩ | ⟨-, h⟩ := s.raise_shape b i
  · rw [h]; exact State.setFlt_feed_bare s b _ y
  · rw [h]

theorem State.raise_phase_bare (b : Blk) (i y : Nat) : ((s.raise b i).phase y).bare = (s.phase y).bare := by
  obtain ⟨a, n, q, h⟩ | ⟨-, h⟩ := s.raise_shape b i
  · rw [h]; exact State.setFlt_phase_bare s b _ y
  · rw [h]

theorem State.raise_ridge_bare (b : Blk) (i y : Nat) : ((s.raise b i).ridge y).bare = (s.ridge y).bare := by
  obtain ⟨a, n, q, h⟩ | ⟨-, h⟩ := s.raise_shape b i
  · rw [h]; exact State.setFlt_ridge_bare s b _ y
  · rw [h]

theorem State.raise_port_bare (b : Blk) (i y : Nat) : ((s.raise b i).port y).bare = (s.port y).bare := by
  obtain ⟨a, n, q, h⟩ | ⟨-, h⟩ := s.raise_shape b i
  · rw [h]; exact State.setFlt_port_bare s b _ y
  · rw [h]

@[simp] theorem State.raise_feed_st (b : Blk) (i y : Nat) : ((s.raise b i).feed y).st = (s.feed y).st := by
  exact (congrArg Feed.st (s.raise_feed_bare b i y) :)
@[simp] theorem State.raise_feed_lastTrip (b : Blk) (i y : Nat) : ((s.raise b i).feed y).lastTrip = (s.feed y).lastTrip := by
  exact (congrArg Feed.lastTrip (s.raise_feed_bare b i y) :)
@[simp] theorem State.raise_feed_trips (b : Blk) (i y : Nat) : ((s.raise b i).feed y).trips = (s.feed y).trips := by
  exact (congrArg Feed.trips (s.raise_feed_bare b i y) :)
@[simp] theorem State.raise_feed_pg (b : Blk) (i y : Nat) : ((s.raise b i).feed y).pg = (s.feed y).pg := by
  exact (congrArg Feed.pg (s.raise_feed_bare b i y) :)
@[simp] theorem State.raise_feed_window (b : Blk) (i y : Nat) : ((s.raise b i).feed y).window = (s.feed y).window := by
  exact (congrArg Feed.window (s.raise_feed_bare b i y) :)
@[simp] theorem State.raise_feed_odg (b : Blk) (i y : Nat) : ((s.raise b i).feed y).odg = (s.feed y).odg := by
  exact (congrArg Feed.odg (s.raise_feed_bare b i y) :)
@[simp] theorem State.raise_feed_rev (b : Blk) (i y : Nat) : ((s.raise b i).feed y).rev = (s.feed y).rev := by
  exact (congrArg Feed.rev (s.raise_feed_bare b i y) :)
@[simp] theorem State.raise_feed_revPrev (b : Blk) (i y : Nat) : ((s.raise b i).feed y).revPrev = (s.feed y).revPrev := by
  exact (congrArg Feed.revPrev (s.raise_feed_bare b i y) :)
@[simp] theorem State.raise_feed_revNow (b : Blk) (i y : Nat) : ((s.raise b i).feed y).revNow = (s.feed y).revNow := by
  exact (congrArg Feed.revNow (s.raise_feed_bare b i y) :)
@[simp] theorem State.raise_feed_ilimAct (b : Blk) (i y : Nat) : ((s.raise b i).feed y).ilimAct = (s.feed y).ilimAct := by
  exact (congrArg Feed.ilimAct (s.raise_feed_bare b i y) :)
@[simp] theorem State.raise_feed_holdOv (b : Blk) (i y : Nat) : ((s.raise b i).feed y).holdOv = (s.feed y).holdOv := by
  exact (congrArg Feed.holdOv (s.raise_feed_bare b i y) :)
@[simp] theorem State.raise_feed_enable (b : Blk) (i y : Nat) : ((s.raise b i).feed y).enable = (s.feed y).enable := by
  exact (congrArg Feed.enable (s.raise_feed_bare b i y) :)
@[simp] theorem State.raise_feed_armed (b : Blk) (i y : Nat) : ((s.raise b i).feed y).armed = (s.feed y).armed := by
  exact (congrArg Feed.armed (s.raise_feed_bare b i y) :)
@[simp] theorem State.raise_feed_count (b : Blk) (i y : Nat) : ((s.raise b i).feed y).count = (s.feed y).count := by
  exact (congrArg Feed.count (s.raise_feed_bare b i y) :)
@[simp] theorem State.raise_feed_frameOk (b : Blk) (i y : Nat) : ((s.raise b i).feed y).frameOk = (s.feed y).frameOk := by
  exact (congrArg Feed.frameOk (s.raise_feed_bare b i y) :)
@[simp] theorem State.raise_feed_ovSeen (b : Blk) (i y : Nat) : ((s.raise b i).feed y).ovSeen = (s.feed y).ovSeen := by
  exact (congrArg Feed.ovSeen (s.raise_feed_bare b i y) :)
@[simp] theorem State.raise_feed_rampFrame (b : Blk) (i y : Nat) : ((s.raise b i).feed y).rampFrame = (s.feed y).rampFrame := by
  exact (congrArg Feed.rampFrame (s.raise_feed_bare b i y) :)
@[simp] theorem State.raise_feed_onRun (b : Blk) (i y : Nat) : ((s.raise b i).feed y).onRun = (s.feed y).onRun := by
  exact (congrArg Feed.onRun (s.raise_feed_bare b i y) :)
@[simp] theorem State.raise_feed_timer (b : Blk) (i y : Nat) : ((s.raise b i).feed y).timer = (s.feed y).timer := by
  exact (congrArg Feed.timer (s.raise_feed_bare b i y) :)
@[simp] theorem State.raise_feed_timerOff (b : Blk) (i y : Nat) : ((s.raise b i).feed y).timerOff = (s.feed y).timerOff := by
  exact (congrArg Feed.timerOff (s.raise_feed_bare b i y) :)
@[simp] theorem State.raise_feed_tripFrame (b : Blk) (i y : Nat) : ((s.raise b i).feed y).tripFrame = (s.feed y).tripFrame := by
  exact (congrArg Feed.tripFrame (s.raise_feed_bare b i y) :)
@[simp] theorem State.raise_feed_uvRun (b : Blk) (i y : Nat) : ((s.raise b i).feed y).uvRun = (s.feed y).uvRun := by
  exact (congrArg Feed.uvRun (s.raise_feed_bare b i y) :)
@[simp] theorem State.raise_feed_withheld (b : Blk) (i y : Nat) : ((s.raise b i).feed y).withheld = (s.feed y).withheld := by
  exact (congrArg Feed.withheld (s.raise_feed_bare b i y) :)
@[simp] theorem State.raise_feed_revRun (b : Blk) (i y : Nat) : ((s.raise b i).feed y).revRun = (s.feed y).revRun := by
  exact (congrArg Feed.revRun (s.raise_feed_bare b i y) :)
@[simp] theorem State.raise_feed_dropRun (b : Blk) (i y : Nat) : ((s.raise b i).feed y).dropRun = (s.feed y).dropRun := by
  exact (congrArg Feed.dropRun (s.raise_feed_bare b i y) :)
@[simp] theorem State.raise_feed_tripAt (b : Blk) (i y : Nat) : ((s.raise b i).feed y).tripAt = (s.feed y).tripAt := by
  exact (congrArg Feed.tripAt (s.raise_feed_bare b i y) :)
@[simp] theorem State.raise_feed_tripWas (b : Blk) (i y : Nat) : ((s.raise b i).feed y).tripWas = (s.feed y).tripWas := by
  exact (congrArg Feed.tripWas (s.raise_feed_bare b i y) :)
@[simp] theorem State.raise_feed_tripNew (b : Blk) (i y : Nat) : ((s.raise b i).feed y).tripNew = (s.feed y).tripNew := by
  exact (congrArg Feed.tripNew (s.raise_feed_bare b i y) :)
@[simp] theorem State.raise_feed_offAt (b : Blk) (i y : Nat) : ((s.raise b i).feed y).offAt = (s.feed y).offAt := by
  exact (congrArg Feed.offAt (s.raise_feed_bare b i y) :)
@[simp] theorem State.raise_feed_offTurn (b : Blk) (i y : Nat) : ((s.raise b i).feed y).offTurn = (s.feed y).offTurn := by
  exact (congrArg Feed.offTurn (s.raise_feed_bare b i y) :)
@[simp] theorem State.raise_feed_offTimer (b : Blk) (i y : Nat) : ((s.raise b i).feed y).offTimer = (s.feed y).offTimer := by
  exact (congrArg Feed.offTimer (s.raise_feed_bare b i y) :)
@[simp] theorem State.raise_feed_pgFrame (b : Blk) (i y : Nat) : ((s.raise b i).feed y).pgFrame = (s.feed y).pgFrame := by
  exact (congrArg Feed.pgFrame (s.raise_feed_bare b i y) :)
@[simp] theorem State.raise_feed_sns (b : Blk) (i y : Nat) : ((s.raise b i).feed y).sns = (s.feed y).sns := by
  exact (congrArg Feed.sns (s.raise_feed_bare b i y) :)
@[simp] theorem State.raise_feed_cur (b : Blk) (i y : Nat) : ((s.raise b i).feed y).cur = (s.feed y).cur := by
  exact (congrArg Feed.cur (s.raise_feed_bare b i y) :)
@[simp] theorem State.raise_feed_n (b : Blk) (i y : Nat) : ((s.raise b i).feed y).n = (s.feed y).n := by
  exact (congrArg Feed.n (s.raise_feed_bare b i y) :)
@[simp] theorem State.raise_feed_vSum (b : Blk) (i y : Nat) : ((s.raise b i).feed y).vSum = (s.feed y).vSum := by
  exact (congrArg Feed.vSum (s.raise_feed_bare b i y) :)
@[simp] theorem State.raise_feed_vLo (b : Blk) (i y : Nat) : ((s.raise b i).feed y).vLo = (s.feed y).vLo := by
  exact (congrArg Feed.vLo (s.raise_feed_bare b i y) :)
@[simp] theorem State.raise_feed_iSum (b : Blk) (i y : Nat) : ((s.raise b i).feed y).iSum = (s.feed y).iSum := by
  exact (congrArg Feed.iSum (s.raise_feed_bare b i y) :)
@[simp] theorem State.raise_feed_iExt (b : Blk) (i y : Nat) : ((s.raise b i).feed y).iExt = (s.feed y).iExt := by
  exact (congrArg Feed.iExt (s.raise_feed_bare b i y) :)
@[simp] theorem State.raise_feed_pgAll (b : Blk) (i y : Nat) : ((s.raise b i).feed y).pgAll = (s.feed y).pgAll := by
  exact (congrArg Feed.pgAll (s.raise_feed_bare b i y) :)
@[simp] theorem State.raise_feed_vAvg (b : Blk) (i y : Nat) : ((s.raise b i).feed y).vAvg = (s.feed y).vAvg := by
  exact (congrArg Feed.vAvg (s.raise_feed_bare b i y) :)
@[simp] theorem State.raise_feed_vMin (b : Blk) (i y : Nat) : ((s.raise b i).feed y).vMin = (s.feed y).vMin := by
  exact (congrArg Feed.vMin (s.raise_feed_bare b i y) :)
@[simp] theorem State.raise_feed_iAvg (b : Blk) (i y : Nat) : ((s.raise b i).feed y).iAvg = (s.feed y).iAvg := by
  exact (congrArg Feed.iAvg (s.raise_feed_bare b i y) :)
@[simp] theorem State.raise_feed_iPeak (b : Blk) (i y : Nat) : ((s.raise b i).feed y).iPeak = (s.feed y).iPeak := by
  exact (congrArg Feed.iPeak (s.raise_feed_bare b i y) :)
@[simp] theorem State.raise_feed_eIn (b : Blk) (i y : Nat) : ((s.raise b i).feed y).eIn = (s.feed y).eIn := by
  exact (congrArg Feed.eIn (s.raise_feed_bare b i y) :)
@[simp] theorem State.raise_feed_pSum (b : Blk) (i y : Nat) : ((s.raise b i).feed y).pSum = (s.feed y).pSum := by
  exact (congrArg Feed.pSum (s.raise_feed_bare b i y) :)
@[simp] theorem State.raise_feed_uv (b : Blk) (i y : Nat) : ((s.raise b i).feed y).uv = (s.feed y).uv := by
  exact (congrArg Feed.uv (s.raise_feed_bare b i y) :)
@[simp] theorem State.raise_feed_ov (b : Blk) (i y : Nat) : ((s.raise b i).feed y).ov = (s.feed y).ov := by
  exact (congrArg Feed.ov (s.raise_feed_bare b i y) :)
@[simp] theorem State.raise_feed_insDly (b : Blk) (i y : Nat) : ((s.raise b i).feed y).insDly = (s.feed y).insDly := by
  exact (congrArg Feed.insDly (s.raise_feed_bare b i y) :)
@[simp] theorem State.raise_feed_retries (b : Blk) (i y : Nat) : ((s.raise b i).feed y).retries = (s.feed y).retries := by
  exact (congrArg Feed.retries (s.raise_feed_bare b i y) :)

@[simp] theorem State.raise_phase_fitted (b : Blk) (i y : Nat) : ((s.raise b i).phase y).fitted = (s.phase y).fitted := by
  exact (congrArg Phase.fitted (s.raise_phase_bare b i y) :)
@[simp] theorem State.raise_phase_readsAbsent (b : Blk) (i y : Nat) : ((s.raise b i).phase y).readsAbsent = (s.phase y).readsAbsent := by
  exact (congrArg Phase.readsAbsent (s.raise_phase_bare b i y) :)
@[simp] theorem State.raise_phase_stopped (b : Blk) (i y : Nat) : ((s.raise b i).phase y).stopped = (s.phase y).stopped := by
  exact (congrArg Phase.stopped (s.raise_phase_bare b i y) :)
@[simp] theorem State.raise_phase_retired (b : Blk) (i y : Nat) : ((s.raise b i).phase y).retired = (s.phase y).retired := by
  exact (congrArg Phase.retired (s.raise_phase_bare b i y) :)
@[simp] theorem State.raise_phase_refused (b : Blk) (i y : Nat) : ((s.raise b i).phase y).refused = (s.phase y).refused := by
  exact (congrArg Phase.refused (s.raise_phase_bare b i y) :)
@[simp] theorem State.raise_phase_shadow (b : Blk) (i y : Nat) : ((s.raise b i).phase y).shadow = (s.phase y).shadow := by
  exact (congrArg Phase.shadow (s.raise_phase_bare b i y) :)
@[simp] theorem State.raise_phase_checked (b : Blk) (i y : Nat) : ((s.raise b i).phase y).checked = (s.phase y).checked := by
  exact (congrArg Phase.checked (s.raise_phase_bare b i y) :)
@[simp] theorem State.raise_phase_active (b : Blk) (i y : Nat) : ((s.raise b i).phase y).active = (s.phase y).active := by
  exact (congrArg Phase.active (s.raise_phase_bare b i y) :)
@[simp] theorem State.raise_phase_loaded (b : Blk) (i y : Nat) : ((s.raise b i).phase y).loaded = (s.phase y).loaded := by
  exact (congrArg Phase.loaded (s.raise_phase_bare b i y) :)
@[simp] theorem State.raise_phase_slot (b : Blk) (i y : Nat) : ((s.raise b i).phase y).slot = (s.phase y).slot := by
  exact (congrArg Phase.slot (s.raise_phase_bare b i y) :)
@[simp] theorem State.raise_phase_slotTo (b : Blk) (i y : Nat) : ((s.raise b i).phase y).slotTo = (s.phase y).slotTo := by
  exact (congrArg Phase.slotTo (s.raise_phase_bare b i y) :)
@[simp] theorem State.raise_phase_steer (b : Blk) (i y : Nat) : ((s.raise b i).phase y).steer = (s.phase y).steer := by
  exact (congrArg Phase.steer (s.raise_phase_bare b i y) :)
@[simp] theorem State.raise_phase_req (b : Blk) (i y : Nat) : ((s.raise b i).phase y).req = (s.phase y).req := by
  exact (congrArg Phase.req (s.raise_phase_bare b i y) :)
@[simp] theorem State.raise_phase_guard (b : Blk) (i y : Nat) : ((s.raise b i).phase y).guard = (s.phase y).guard := by
  exact (congrArg Phase.guard (s.raise_phase_bare b i y) :)
@[simp] theorem State.raise_phase_gTarget (b : Blk) (i y : Nat) : ((s.raise b i).phase y).gTarget = (s.phase y).gTarget := by
  exact (congrArg Phase.gTarget (s.raise_phase_bare b i y) :)
@[simp] theorem State.raise_phase_gAge (b : Blk) (i y : Nat) : ((s.raise b i).phase y).gAge = (s.phase y).gAge := by
  exact (congrArg Phase.gAge (s.raise_phase_bare b i y) :)
@[simp] theorem State.raise_phase_gZc (b : Blk) (i y : Nat) : ((s.raise b i).phase y).gZc = (s.phase y).gZc := by
  exact (congrArg Phase.gZc (s.raise_phase_bare b i y) :)
@[simp] theorem State.raise_phase_gBt (b : Blk) (i y : Nat) : ((s.raise b i).phase y).gBt = (s.phase y).gBt := by
  exact (congrArg Phase.gBt (s.raise_phase_bare b i y) :)
@[simp] theorem State.raise_phase_gIzero (b : Blk) (i y : Nat) : ((s.raise b i).phase y).gIzero = (s.phase y).gIzero := by
  exact (congrArg Phase.gIzero (s.raise_phase_bare b i y) :)
@[simp] theorem State.raise_phase_gSettled (b : Blk) (i y : Nat) : ((s.raise b i).phase y).gSettled = (s.phase y).gSettled := by
  exact (congrArg Phase.gSettled (s.raise_phase_bare b i y) :)
@[simp] theorem State.raise_phase_zeroLoaded (b : Blk) (i y : Nat) : ((s.raise b i).phase y).zeroLoaded = (s.phase y).zeroLoaded := by
  exact (congrArg Phase.zeroLoaded (s.raise_phase_bare b i y) :)
@[simp] theorem State.raise_phase_zeroPrev (b : Blk) (i y : Nat) : ((s.raise b i).phase y).zeroPrev = (s.phase y).zeroPrev := by
  exact (congrArg Phase.zeroPrev (s.raise_phase_bare b i y) :)
@[simp] theorem State.raise_phase_pkNow (b : Blk) (i y : Nat) : ((s.raise b i).phase y).pkNow = (s.phase y).pkNow := by
  exact (congrArg Phase.pkNow (s.raise_phase_bare b i y) :)
@[simp] theorem State.raise_phase_cut (b : Blk) (i y : Nat) : ((s.raise b i).phase y).cut = (s.phase y).cut := by
  exact (congrArg Phase.cut (s.raise_phase_bare b i y) :)
@[simp] theorem State.raise_phase_pwmOff (b : Blk) (i y : Nat) : ((s.raise b i).phase y).pwmOff = (s.phase y).pwmOff := by
  exact (congrArg Phase.pwmOff (s.raise_phase_bare b i y) :)
@[simp] theorem State.raise_phase_missed (b : Blk) (i y : Nat) : ((s.raise b i).phase y).missed = (s.phase y).missed := by
  exact (congrArg Phase.missed (s.raise_phase_bare b i y) :)
@[simp] theorem State.raise_phase_readsLow (b : Blk) (i y : Nat) : ((s.raise b i).phase y).readsLow = (s.phase y).readsLow := by
  exact (congrArg Phase.readsLow (s.raise_phase_bare b i y) :)
@[simp] theorem State.raise_phase_pklim (b : Blk) (i y : Nat) : ((s.raise b i).phase y).pklim = (s.phase y).pklim := by
  exact (congrArg Phase.pklim (s.raise_phase_bare b i y) :)
@[simp] theorem State.raise_phase_pklimRun (b : Blk) (i y : Nat) : ((s.raise b i).phase y).pklimRun = (s.phase y).pklimRun := by
  exact (congrArg Phase.pklimRun (s.raise_phase_bare b i y) :)
@[simp] theorem State.raise_phase_invRun (b : Blk) (i y : Nat) : ((s.raise b i).phase y).invRun = (s.phase y).invRun := by
  exact (congrArg Phase.invRun (s.raise_phase_bare b i y) :)
@[simp] theorem State.raise_phase_inv (b : Blk) (i y : Nat) : ((s.raise b i).phase y).inv = (s.phase y).inv := by
  exact (congrArg Phase.inv (s.raise_phase_bare b i y) :)
@[simp] theorem State.raise_phase_invOut (b : Blk) (i y : Nat) : ((s.raise b i).phase y).invOut = (s.phase y).invOut := by
  exact (congrArg Phase.invOut (s.raise_phase_bare b i y) :)
@[simp] theorem State.raise_phase_calx (b : Blk) (i y : Nat) : ((s.raise b i).phase y).calx = (s.phase y).calx := by
  exact (congrArg Phase.calx (s.raise_phase_bare b i y) :)
@[simp] theorem State.raise_phase_calxMax (b : Blk) (i y : Nat) : ((s.raise b i).phase y).calxMax = (s.phase y).calxMax := by
  exact (congrArg Phase.calxMax (s.raise_phase_bare b i y) :)
@[simp] theorem State.raise_phase_avg (b : Blk) (i y : Nat) : ((s.raise b i).phase y).avg = (s.phase y).avg := by
  exact (congrArg Phase.avg (s.raise_phase_bare b i y) :)
@[simp] theorem State.raise_phase_peak (b : Blk) (i y : Nat) : ((s.raise b i).phase y).peak = (s.phase y).peak := by
  exact (congrArg Phase.peak (s.raise_phase_bare b i y) :)
@[simp] theorem State.raise_phase_valley (b : Blk) (i y : Nat) : ((s.raise b i).phase y).valley = (s.phase y).valley := by
  exact (congrArg Phase.valley (s.raise_phase_bare b i y) :)
@[simp] theorem State.raise_phase_mode (b : Blk) (i y : Nat) : ((s.raise b i).phase y).mode = (s.phase y).mode := by
  exact (congrArg Phase.mode (s.raise_phase_bare b i y) :)
@[simp] theorem State.raise_phase_stat (b : Blk) (i y : Nat) : ((s.raise b i).phase y).stat = (s.phase y).stat := by
  exact (congrArg Phase.stat (s.raise_phase_bare b i y) :)
@[simp] theorem State.raise_phase_iSum (b : Blk) (i y : Nat) : ((s.raise b i).phase y).iSum = (s.phase y).iSum := by
  exact (congrArg Phase.iSum (s.raise_phase_bare b i y) :)
@[simp] theorem State.raise_phase_iAvg (b : Blk) (i y : Nat) : ((s.raise b i).phase y).iAvg = (s.phase y).iAvg := by
  exact (congrArg Phase.iAvg (s.raise_phase_bare b i y) :)
@[simp] theorem State.raise_phase_steerFrame (b : Blk) (i y : Nat) : ((s.raise b i).phase y).steerFrame = (s.phase y).steerFrame := by
  exact (congrArg Phase.steerFrame (s.raise_phase_bare b i y) :)
@[simp] theorem State.raise_phase_lastDuty (b : Blk) (i y : Nat) : ((s.raise b i).phase y).lastDuty = (s.phase y).lastDuty := by
  exact (congrArg Phase.lastDuty (s.raise_phase_bare b i y) :)
@[simp] theorem State.raise_phase_ramp (b : Blk) (i y : Nat) : ((s.raise b i).phase y).ramp = (s.phase y).ramp := by
  exact (congrArg Phase.ramp (s.raise_phase_bare b i y) :)
@[simp] theorem State.raise_phase_up (b : Blk) (i y : Nat) : ((s.raise b i).phase y).up = (s.phase y).up := by
  exact (congrArg Phase.up (s.raise_phase_bare b i y) :)
@[simp] theorem State.raise_phase_rampPrev (b : Blk) (i y : Nat) : ((s.raise b i).phase y).rampPrev = (s.phase y).rampPrev := by
  exact (congrArg Phase.rampPrev (s.raise_phase_bare b i y) :)
@[simp] theorem State.raise_phase_upPrev (b : Blk) (i y : Nat) : ((s.raise b i).phase y).upPrev = (s.phase y).upPrev := by
  exact (congrArg Phase.upPrev (s.raise_phase_bare b i y) :)
@[simp] theorem State.raise_phase_share (b : Blk) (i y : Nat) : ((s.raise b i).phase y).share = (s.phase y).share := by
  exact (congrArg Phase.share (s.raise_phase_bare b i y) :)
@[simp] theorem State.raise_phase_part (b : Blk) (i y : Nat) : ((s.raise b i).phase y).part = (s.phase y).part := by
  exact (congrArg Phase.part (s.raise_phase_bare b i y) :)
@[simp] theorem State.raise_phase_est (b : Blk) (i y : Nat) : ((s.raise b i).phase y).est = (s.phase y).est := by
  exact (congrArg Phase.est (s.raise_phase_bare b i y) :)
@[simp] theorem State.raise_phase_measFrame (b : Blk) (i y : Nat) : ((s.raise b i).phase y).measFrame = (s.phase y).measFrame := by
  exact (congrArg Phase.measFrame (s.raise_phase_bare b i y) :)
@[simp] theorem State.raise_phase_nMeas (b : Blk) (i y : Nat) : ((s.raise b i).phase y).nMeas = (s.phase y).nMeas := by
  exact (congrArg Phase.nMeas (s.raise_phase_bare b i y) :)
@[simp] theorem State.raise_phase_measured (b : Blk) (i y : Nat) : ((s.raise b i).phase y).measured = (s.phase y).measured := by
  exact (congrArg Phase.measured (s.raise_phase_bare b i y) :)
@[simp] theorem State.raise_phase_runOfs (b : Blk) (i y : Nat) : ((s.raise b i).phase y).runOfs = (s.phase y).runOfs := by
  exact (congrArg Phase.runOfs (s.raise_phase_bare b i y) :)
@[simp] theorem State.raise_phase_ofsSum (b : Blk) (i y : Nat) : ((s.raise b i).phase y).ofsSum = (s.phase y).ofsSum := by
  exact (congrArg Phase.ofsSum (s.raise_phase_bare b i y) :)
@[simp] theorem State.raise_phase_ofsN (b : Blk) (i y : Nat) : ((s.raise b i).phase y).ofsN = (s.phase y).ofsN := by
  exact (congrArg Phase.ofsN (s.raise_phase_bare b i y) :)
@[simp] theorem State.raise_phase_lBase (b : Blk) (i y : Nat) : ((s.raise b i).phase y).lBase = (s.phase y).lBase := by
  exact (congrArg Phase.lBase (s.raise_phase_bare b i y) :)
@[simp] theorem State.raise_phase_rEff (b : Blk) (i y : Nat) : ((s.raise b i).phase y).rEff = (s.phase y).rEff := by
  exact (congrArg Phase.rEff (s.raise_phase_bare b i y) :)
@[simp] theorem State.raise_phase_goodMeas (b : Blk) (i y : Nat) : ((s.raise b i).phase y).goodMeas = (s.phase y).goodMeas := by
  exact (congrArg Phase.goodMeas (s.raise_phase_bare b i y) :)

@[simp] theorem State.raise_ridge_run (b : Blk) (i y : Nat) : ((s.raise b i).ridge y).run = (s.ridge y).run := by
  exact (congrArg Ridge.run (s.raise_ridge_bare b i y) :)
@[simp] theorem State.raise_ridge_started (b : Blk) (i y : Nat) : ((s.raise b i).ridge y).started = (s.ridge y).started := by
  exact (congrArg Ridge.started (s.raise_ridge_bare b i y) :)
@[simp] theorem State.raise_ridge_stgen (b : Blk) (i y : Nat) : ((s.raise b i).ridge y).stgen = (s.ridge y).stgen := by
  exact (congrArg Ridge.stgen (s.raise_ridge_bare b i y) :)
@[simp] theorem State.raise_ridge_stgenTick (b : Blk) (i y : Nat) : ((s.raise b i).ridge y).stgenTick = (s.ridge y).stgenTick := by
  exact (congrArg Ridge.stgenTick (s.raise_ridge_bare b i y) :)
@[simp] theorem State.raise_ridge_stgenQual (b : Blk) (i y : Nat) : ((s.raise b i).ridge y).stgenQual = (s.ridge y).stgenQual := by
  exact (congrArg Ridge.stgenQual (s.raise_ridge_bare b i y) :)
@[simp] theorem State.raise_ridge_eng (b : Blk) (i y : Nat) : ((s.raise b i).ridge y).eng = (s.ridge y).eng := by
  exact (congrArg Ridge.eng (s.raise_ridge_bare b i y) :)
@[simp] theorem State.raise_ridge_bank (b : Blk) (i y : Nat) : ((s.raise b i).ridge y).bank = (s.ridge y).bank := by
  exact (congrArg Ridge.bank (s.raise_ridge_bare b i y) :)
@[simp] theorem State.raise_ridge_staging (b : Blk) (i y : Nat) : ((s.raise b i).ridge y).staging = (s.ridge y).staging := by
  exact (congrArg Ridge.staging (s.raise_ridge_bare b i y) :)
@[simp] theorem State.raise_ridge_activeSrc (b : Blk) (i y : Nat) : ((s.raise b i).ridge y).activeSrc = (s.ridge y).activeSrc := by
  exact (congrArg Ridge.activeSrc (s.raise_ridge_bare b i y) :)
@[simp] theorem State.raise_ridge_activeId (b : Blk) (i y : Nat) : ((s.raise b i).ridge y).activeId = (s.ridge y).activeId := by
  exact (congrArg Ridge.activeId (s.raise_ridge_bare b i y) :)
@[simp] theorem State.raise_ridge_decodeId (b : Blk) (i y : Nat) : ((s.raise b i).ridge y).decodeId = (s.ridge y).decodeId := by
  exact (congrArg Ridge.decodeId (s.raise_ridge_bare b i y) :)
@[simp] theorem State.raise_ridge_stagingState (b : Blk) (i y : Nat) : ((s.raise b i).ridge y).stagingState = (s.ridge y).stagingState := by
  exact (congrArg Ridge.stagingState (s.raise_ridge_bare b i y) :)
@[simp] theorem State.raise_ridge_switchPending (b : Blk) (i y : Nat) : ((s.raise b i).ridge y).switchPending = (s.ridge y).switchPending := by
  exact (congrArg Ridge.switchPending (s.raise_ridge_bare b i y) :)
@[simp] theorem State.raise_ridge_switchSrc (b : Blk) (i y : Nat) : ((s.raise b i).ridge y).switchSrc = (s.ridge y).switchSrc := by
  exact (congrArg Ridge.switchSrc (s.raise_ridge_bare b i y) :)
@[simp] theorem State.raise_ridge_switchId (b : Blk) (i y : Nat) : ((s.raise b i).ridge y).switchId = (s.ridge y).switchId := by
  exact (congrArg Ridge.switchId (s.raise_ridge_bare b i y) :)
@[simp] theorem State.raise_ridge_switchFrame (b : Blk) (i y : Nat) : ((s.raise b i).ridge y).switchFrame = (s.ridge y).switchFrame := by
  exact (congrArg Ridge.switchFrame (s.raise_ridge_bare b i y) :)
@[simp] theorem State.raise_ridge_published (b : Blk) (i y : Nat) : ((s.raise b i).ridge y).published = (s.ridge y).published := by
  exact (congrArg Ridge.published (s.raise_ridge_bare b i y) :)
@[simp] theorem State.raise_ridge_checkDue (b : Blk) (i y : Nat) : ((s.raise b i).ridge y).checkDue = (s.ridge y).checkDue := by
  exact (congrArg Ridge.checkDue (s.raise_ridge_bare b i y) :)
@[simp] theorem State.raise_ridge_overrun (b : Blk) (i y : Nat) : ((s.raise b i).ridge y).overrun = (s.ridge y).overrun := by
  exact (congrArg Ridge.overrun (s.raise_ridge_bare b i y) :)
@[simp] theorem State.raise_ridge_pubCyc (b : Blk) (i y : Nat) : ((s.raise b i).ridge y).pubCyc = (s.ridge y).pubCyc := by
  exact (congrArg Ridge.pubCyc (s.raise_ridge_bare b i y) :)
@[simp] theorem State.raise_ridge_steerWord (b : Blk) (i y : Nat) : ((s.raise b i).ridge y).steerWord = (s.ridge y).steerWord := by
  exact (congrArg Ridge.steerWord (s.raise_ridge_bare b i y) :)
@[simp] theorem State.raise_ridge_held (b : Blk) (i y : Nat) : ((s.raise b i).ridge y).held = (s.ridge y).held := by
  exact (congrArg Ridge.held (s.raise_ridge_bare b i y) :)
@[simp] theorem State.raise_ridge_dmaLate (b : Blk) (i y : Nat) : ((s.raise b i).ridge y).dmaLate = (s.ridge y).dmaLate := by
  exact (congrArg Ridge.dmaLate (s.raise_ridge_bare b i y) :)
@[simp] theorem State.raise_ridge_stgfltRun (b : Blk) (i y : Nat) : ((s.raise b i).ridge y).stgfltRun = (s.ridge y).stgfltRun := by
  exact (congrArg Ridge.stgfltRun (s.raise_ridge_bare b i y) :)
@[simp] theorem State.raise_ridge_shedRun (b : Blk) (i y : Nat) : ((s.raise b i).ridge y).shedRun = (s.ridge y).shedRun := by
  exact (congrArg Ridge.shedRun (s.raise_ridge_bare b i y) :)
@[simp] theorem State.raise_ridge_out (b : Blk) (i y : Nat) : ((s.raise b i).ridge y).out = (s.ridge y).out := by
  exact (congrArg Ridge.out (s.raise_ridge_bare b i y) :)
@[simp] theorem State.raise_ridge_pubMiss (b : Blk) (i y : Nat) : ((s.raise b i).ridge y).pubMiss = (s.ridge y).pubMiss := by
  exact (congrArg Ridge.pubMiss (s.raise_ridge_bare b i y) :)
@[simp] theorem State.raise_ridge_guardReason (b : Blk) (i y : Nat) : ((s.raise b i).ridge y).guardReason = (s.ridge y).guardReason := by
  exact (congrArg Ridge.guardReason (s.raise_ridge_bare b i y) :)
@[simp] theorem State.raise_ridge_tRidge (b : Blk) (i y : Nat) : ((s.raise b i).ridge y).tRidge = (s.ridge y).tRidge := by
  exact (congrArg Ridge.tRidge (s.raise_ridge_bare b i y) :)
@[simp] theorem State.raise_ridge_tSum (b : Blk) (i y : Nat) : ((s.raise b i).ridge y).tSum = (s.ridge y).tSum := by
  exact (congrArg Ridge.tSum (s.raise_ridge_bare b i y) :)
@[simp] theorem State.raise_ridge_tAvg (b : Blk) (i y : Nat) : ((s.raise b i).ridge y).tAvg = (s.ridge y).tAvg := by
  exact (congrArg Ridge.tAvg (s.raise_ridge_bare b i y) :)
@[simp] theorem State.raise_ridge_pLoss (b : Blk) (i y : Nat) : ((s.raise b i).ridge y).pLoss = (s.ridge y).pLoss := by
  exact (congrArg Ridge.pLoss (s.raise_ridge_bare b i y) :)
@[simp] theorem State.raise_ridge_eLoss8 (b : Blk) (i y : Nat) : ((s.raise b i).ridge y).eLoss8 = (s.ridge y).eLoss8 := by
  exact (congrArg Ridge.eLoss8 (s.raise_ridge_bare b i y) :)
@[simp] theorem State.raise_ridge_paceMargin (b : Blk) (i y : Nat) : ((s.raise b i).ridge y).paceMargin = (s.ridge y).paceMargin := by
  exact (congrArg Ridge.paceMargin (s.raise_ridge_bare b i y) :)
@[simp] theorem State.raise_ridge_paceMarginNow (b : Blk) (i y : Nat) : ((s.raise b i).ridge y).paceMarginNow = (s.ridge y).paceMarginNow := by
  exact (congrArg Ridge.paceMarginNow (s.raise_ridge_bare b i y) :)
@[simp] theorem State.raise_ridge_paceMarginMin (b : Blk) (i y : Nat) : ((s.raise b i).ridge y).paceMarginMin = (s.ridge y).paceMarginMin := by
  exact (congrArg Ridge.paceMarginMin (s.raise_ridge_bare b i y) :)
@[simp] theorem State.raise_ridge_nOverrun (b : Blk) (i y : Nat) : ((s.raise b i).ridge y).nOverrun = (s.ridge y).nOverrun := by
  exact (congrArg Ridge.nOverrun (s.raise_ridge_bare b i y) :)
@[simp] theorem State.raise_ridge_nPubmiss (b : Blk) (i y : Nat) : ((s.raise b i).ridge y).nPubmiss = (s.ridge y).nPubmiss := by
  exact (congrArg Ridge.nPubmiss (s.raise_ridge_bare b i y) :)
@[simp] theorem State.raise_ridge_nRefuse (b : Blk) (i y : Nat) : ((s.raise b i).ridge y).nRefuse = (s.ridge y).nRefuse := by
  exact (congrArg Ridge.nRefuse (s.raise_ridge_bare b i y) :)
@[simp] theorem State.raise_ridge_nMigrate (b : Blk) (i y : Nat) : ((s.raise b i).ridge y).nMigrate = (s.ridge y).nMigrate := by
  exact (congrArg Ridge.nMigrate (s.raise_ridge_bare b i y) :)
@[simp] theorem State.raise_ridge_probe (b : Blk) (i y : Nat) : ((s.raise b i).ridge y).probe = (s.ridge y).probe := by
  exact (congrArg Ridge.probe (s.raise_ridge_bare b i y) :)
@[simp] theorem State.raise_ridge_replanDue (b : Blk) (i y : Nat) : ((s.raise b i).ridge y).replanDue = (s.ridge y).replanDue := by
  exact (congrArg Ridge.replanDue (s.raise_ridge_bare b i y) :)
@[simp] theorem State.raise_ridge_est (b : Blk) (i y : Nat) : ((s.raise b i).ridge y).est = (s.ridge y).est := by
  exact (congrArg Ridge.est (s.raise_ridge_bare b i y) :)
@[simp] theorem State.raise_ridge_vconnIn (b : Blk) (i y : Nat) : ((s.raise b i).ridge y).vconnIn = (s.ridge y).vconnIn := by
  exact (congrArg Ridge.vconnIn (s.raise_ridge_bare b i y) :)
@[simp] theorem State.raise_ridge_vconnInGood (b : Blk) (i y : Nat) : ((s.raise b i).ridge y).vconnInGood = (s.ridge y).vconnInGood := by
  exact (congrArg Ridge.vconnInGood (s.raise_ridge_bare b i y) :)
@[simp] theorem State.raise_ridge_copying (b : Blk) (i y : Nat) : ((s.raise b i).ridge y).copying = (s.ridge y).copying := by
  exact (congrArg Ridge.copying (s.raise_ridge_bare b i y) :)

@[simp] theorem State.raise_port_vc (b : Blk) (i y : Nat) : ((s.raise b i).port y).vc = (s.port y).vc := by
  exact (congrArg Port.vc (s.raise_port_bare b i y) :)
@[simp] theorem State.raise_port_pd (b : Blk) (i y : Nat) : ((s.raise b i).port y).pd = (s.port y).pd := by
  exact (congrArg Port.pd (s.raise_port_bare b i y) :)
@[simp] theorem State.raise_port_sw (b : Blk) (i y : Nat) : ((s.raise b i).port y).sw = (s.port y).sw := by
  exact (congrArg Port.sw (s.raise_port_bare b i y) :)
@[simp] theorem State.raise_port_dc (b : Blk) (i y : Nat) : ((s.raise b i).port y).dc = (s.port y).dc := by
  exact (congrArg Port.dc (s.raise_port_bare b i y) :)
@[simp] theorem State.raise_port_inService (b : Blk) (i y : Nat) : ((s.raise b i).port y).inService = (s.port y).inService := by
  exact (congrArg Port.inService (s.raise_port_bare b i y) :)
@[simp] theorem State.raise_port_attachFrame (b : Blk) (i y : Nat) : ((s.raise b i).port y).attachFrame = (s.port y).attachFrame := by
  exact (congrArg Port.attachFrame (s.raise_port_bare b i y) :)
@[simp] theorem State.raise_port_counters (b : Blk) (i y : Nat) : ((s.raise b i).port y).counters = (s.port y).counters := by
  exact (congrArg Port.counters (s.raise_port_bare b i y) :)
@[simp] theorem State.raise_port_peerChain (b : Blk) (i y : Nat) : ((s.raise b i).port y).peerChain = (s.port y).peerChain := by
  exact (congrArg Port.peerChain (s.raise_port_bare b i y) :)
@[simp] theorem State.raise_port_peerDigest (b : Blk) (i y : Nat) : ((s.raise b i).port y).peerDigest = (s.port y).peerDigest := by
  exact (congrArg Port.peerDigest (s.raise_port_bare b i y) :)
@[simp] theorem State.raise_port_cc_st (b : Blk) (i y : Nat) : ((s.raise b i).port y).cc.st = (s.port y).cc.st := by
  exact (congrArg (fun q => q.cc.st) (s.raise_port_bare b i y) :)
@[simp] theorem State.raise_port_cc_disabledBy (b : Blk) (i y : Nat) : ((s.raise b i).port y).cc.disabledBy = (s.port y).cc.disabledBy := by
  exact (congrArg (fun q => q.cc.disabledBy) (s.raise_port_bare b i y) :)
@[simp] theorem State.raise_port_cc_cc1 (b : Blk) (i y : Nat) : ((s.raise b i).port y).cc.cc1 = (s.port y).cc.cc1 := by
  exact (congrArg (fun q => q.cc.cc1) (s.raise_port_bare b i y) :)
@[simp] theorem State.raise_port_cc_cc2 (b : Blk) (i y : Nat) : ((s.raise b i).port y).cc.cc2 = (s.port y).cc.cc2 := by
  exact (congrArg (fun q => q.cc.cc2) (s.raise_port_bare b i y) :)
@[simp] theorem State.raise_port_cc_rp (b : Blk) (i y : Nat) : ((s.raise b i).port y).cc.rp = (s.port y).cc.rp := by
  exact (congrArg (fun q => q.cc.rp) (s.raise_port_bare b i y) :)
@[simp] theorem State.raise_port_cc_rpNext (b : Blk) (i y : Nat) : ((s.raise b i).port y).cc.rpNext = (s.port y).cc.rpNext := by
  exact (congrArg (fun q => q.cc.rpNext) (s.raise_port_bare b i y) :)
@[simp] theorem State.raise_port_cc_onCc2 (b : Blk) (i y : Nat) : ((s.raise b i).port y).cc.onCc2 = (s.port y).cc.onCc2 := by
  exact (congrArg (fun q => q.cc.onCc2) (s.raise_port_bare b i y) :)
@[simp] theorem State.raise_port_cc_raLatched (b : Blk) (i y : Nat) : ((s.raise b i).port y).cc.raLatched = (s.port y).cc.raLatched := by
  exact (congrArg (fun q => q.cc.raLatched) (s.raise_port_bare b i y) :)
@[simp] theorem State.raise_port_cc_accessory (b : Blk) (i y : Nat) : ((s.raise b i).port y).cc.accessory = (s.port y).cc.accessory := by
  exact (congrArg (fun q => q.cc.accessory) (s.raise_port_bare b i y) :)
@[simp] theorem State.raise_port_cc_passiveRd (b : Blk) (i y : Nat) : ((s.raise b i).port y).cc.passiveRd = (s.port y).cc.passiveRd := by
  exact (congrArg (fun q => q.cc.passiveRd) (s.raise_port_bare b i y) :)
@[simp] theorem State.raise_port_cc_activeRd (b : Blk) (i y : Nat) : ((s.raise b i).port y).cc.activeRd = (s.port y).cc.activeRd := by
  exact (congrArg (fun q => q.cc.activeRd) (s.raise_port_bare b i y) :)
@[simp] theorem State.raise_port_cc_takeoverFrame (b : Blk) (i y : Nat) : ((s.raise b i).port y).cc.takeoverFrame = (s.port y).cc.takeoverFrame := by
  exact (congrArg (fun q => q.cc.takeoverFrame) (s.raise_port_bare b i y) :)
@[simp] theorem State.raise_port_cc_mode (b : Blk) (i y : Nat) : ((s.raise b i).port y).cc.mode = (s.port y).cc.mode := by
  exact (congrArg (fun q => q.cc.mode) (s.raise_port_bare b i y) :)
@[simp] theorem State.raise_port_cc_debLine (b : Blk) (i y : Nat) : ((s.raise b i).port y).cc.debLine = (s.port y).cc.debLine := by
  exact (congrArg (fun q => q.cc.debLine) (s.raise_port_bare b i y) :)
@[simp] theorem State.raise_port_cc_debFrom (b : Blk) (i y : Nat) : ((s.raise b i).port y).cc.debFrom = (s.port y).cc.debFrom := by
  exact (congrArg (fun q => q.cc.debFrom) (s.raise_port_bare b i y) :)
@[simp] theorem State.raise_port_cc_goneFrom (b : Blk) (i y : Nat) : ((s.raise b i).port y).cc.goneFrom = (s.port y).cc.goneFrom := by
  exact (congrArg (fun q => q.cc.goneFrom) (s.raise_port_bare b i y) :)
@[simp] theorem State.raise_port_cc_vbusHighFrom (b : Blk) (i y : Nat) : ((s.raise b i).port y).cc.vbusHighFrom = (s.port y).cc.vbusHighFrom := by
  exact (congrArg (fun q => q.cc.vbusHighFrom) (s.raise_port_bare b i y) :)
@[simp] theorem State.raise_port_cc_unexpSet (b : Blk) (i y : Nat) : ((s.raise b i).port y).cc.unexpSet = (s.port y).cc.unexpSet := by
  exact (congrArg (fun q => q.cc.unexpSet) (s.raise_port_bare b i y) :)
@[simp] theorem State.raise_port_cc_since (b : Blk) (i y : Nat) : ((s.raise b i).port y).cc.since = (s.port y).cc.since := by
  exact (congrArg (fun q => q.cc.since) (s.raise_port_bare b i y) :)
@[simp] theorem State.raise_port_cc_toOutOfService (b : Blk) (i y : Nat) : ((s.raise b i).port y).cc.toOutOfService = (s.port y).cc.toOutOfService := by
  exact (congrArg (fun q => q.cc.toOutOfService) (s.raise_port_bare b i y) :)
@[simp] theorem State.raise_port_cc_openFrom (b : Blk) (i y : Nat) : ((s.raise b i).port y).cc.openFrom = (s.port y).cc.openFrom := by
  exact (congrArg (fun q => q.cc.openFrom) (s.raise_port_bare b i y) :)
@[simp] theorem State.raise_port_cc_openLowRun (b : Blk) (i y : Nat) : ((s.raise b i).port y).cc.openLowRun = (s.port y).cc.openLowRun := by
  exact (congrArg (fun q => q.cc.openLowRun) (s.raise_port_bare b i y) :)
@[simp] theorem State.raise_port_cc_detach (b : Blk) (i y : Nat) : ((s.raise b i).port y).cc.detach = (s.port y).cc.detach := by
  exact (congrArg (fun q => q.cc.detach) (s.raise_port_bare b i y) :)
@[simp] theorem State.raise_port_cc_detachFrame (b : Blk) (i y : Nat) : ((s.raise b i).port y).cc.detachFrame = (s.port y).cc.detachFrame := by
  exact (congrArg (fun q => q.cc.detachFrame) (s.raise_port_bare b i y) :)
@[simp] theorem State.raise_port_cc_disch (b : Blk) (i y : Nat) : ((s.raise b i).port y).cc.disch = (s.port y).cc.disch := by
  exact (congrArg (fun q => q.cc.disch) (s.raise_port_bare b i y) :)
@[simp] theorem State.raise_port_cc_dischFrame (b : Blk) (i y : Nat) : ((s.raise b i).port y).cc.dischFrame = (s.port y).cc.dischFrame := by
  exact (congrArg (fun q => q.cc.dischFrame) (s.raise_port_bare b i y) :)
@[simp] theorem State.raise_port_cc_dischDetach (b : Blk) (i y : Nat) : ((s.raise b i).port y).cc.dischDetach = (s.port y).cc.dischDetach := by
  exact (congrArg (fun q => q.cc.dischDetach) (s.raise_port_bare b i y) :)
@[simp] theorem State.raise_port_cc_dischTick (b : Blk) (i y : Nat) : ((s.raise b i).port y).cc.dischTick = (s.port y).cc.dischTick := by
  exact (congrArg (fun q => q.cc.dischTick) (s.raise_port_bare b i y) :)
@[simp] theorem State.raise_port_cc_lfsr (b : Blk) (i y : Nat) : ((s.raise b i).port y).cc.lfsr = (s.port y).cc.lfsr := by
  exact (congrArg (fun q => q.cc.lfsr) (s.raise_port_bare b i y) :)
@[simp] theorem State.raise_port_cc_togglePeriod (b : Blk) (i y : Nat) : ((s.raise b i).port y).cc.togglePeriod = (s.port y).cc.togglePeriod := by
  exact (congrArg (fun q => q.cc.togglePeriod) (s.raise_port_bare b i y) :)
@[simp] theorem State.raise_port_cc_toggleFrame (b : Blk) (i y : Nat) : ((s.raise b i).port y).cc.toggleFrame = (s.port y).cc.toggleFrame := by
  exact (congrArg (fun q => q.cc.toggleFrame) (s.raise_port_bare b i y) :)
@[simp] theorem State.raise_port_cc_alloc (b : Blk) (i y : Nat) : ((s.raise b i).port y).cc.alloc = (s.port y).cc.alloc := by
  exact (congrArg (fun q => q.cc.alloc) (s.raise_port_bare b i y) :)
@[simp] theorem State.raise_port_cc_vbusMv (b : Blk) (i y : Nat) : ((s.raise b i).port y).cc.vbusMv = (s.port y).cc.vbusMv := by
  exact (congrArg (fun q => q.cc.vbusMv) (s.raise_port_bare b i y) :)
@[simp] theorem State.raise_port_cc_lowRun (b : Blk) (i y : Nat) : ((s.raise b i).port y).cc.lowRun = (s.port y).cc.lowRun := by
  exact (congrArg (fun q => q.cc.lowRun) (s.raise_port_bare b i y) :)
@[simp] theorem State.raise_port_cc_vbusChecked (b : Blk) (i y : Nat) : ((s.raise b i).port y).cc.vbusChecked = (s.port y).cc.vbusChecked := by
  exact (congrArg (fun q => q.cc.vbusChecked) (s.raise_port_bare b i y) :)
@[simp] theorem State.raise_port_path_swOn (b : Blk) (i y : Nat) : ((s.raise b i).port y).path.swOn = (s.port y).path.swOn := by
  exact (congrArg (fun q => q.path.swOn) (s.raise_port_bare b i y) :)
@[simp] theorem State.raise_port_path_closing (b : Blk) (i y : Nat) : ((s.raise b i).port y).path.closing = (s.port y).path.closing := by
  exact (congrArg (fun q => q.path.closing) (s.raise_port_bare b i y) :)
@[simp] theorem State.raise_port_path_closePaces (b : Blk) (i y : Nat) : ((s.raise b i).port y).path.closePaces = (s.port y).path.closePaces := by
  exact (congrArg (fun q => q.path.closePaces) (s.raise_port_bare b i y) :)
@[simp] theorem State.raise_port_path_fullyOn (b : Blk) (i y : Nat) : ((s.raise b i).port y).path.fullyOn = (s.port y).path.fullyOn := by
  exact (congrArg (fun q => q.path.fullyOn) (s.raise_port_bare b i y) :)
@[simp] theorem State.raise_port_path_ppg (b : Blk) (i y : Nat) : ((s.raise b i).port y).path.ppg = (s.port y).path.ppg := by
  exact (congrArg (fun q => q.path.ppg) (s.raise_port_bare b i y) :)
@[simp] theorem State.raise_port_path_ppgFrom (b : Blk) (i y : Nat) : ((s.raise b i).port y).path.ppgFrom = (s.port y).path.ppgFrom := by
  exact (congrArg (fun q => q.path.ppgFrom) (s.raise_port_bare b i y) :)
@[simp] theorem State.raise_port_path_ilimAct (b : Blk) (i y : Nat) : ((s.raise b i).port y).path.ilimAct = (s.port y).path.ilimAct := by
  exact (congrArg (fun q => q.path.ilimAct) (s.raise_port_bare b i y) :)
@[simp] theorem State.raise_port_path_timer (b : Blk) (i y : Nat) : ((s.raise b i).port y).path.timer = (s.port y).path.timer := by
  exact (congrArg (fun q => q.path.timer) (s.raise_port_bare b i y) :)
@[simp] theorem State.raise_port_path_timerOff (b : Blk) (i y : Nat) : ((s.raise b i).port y).path.timerOff = (s.port y).path.timerOff := by
  exact (congrArg (fun q => q.path.timerOff) (s.raise_port_bare b i y) :)
@[simp] theorem State.raise_port_path_ovRun (b : Blk) (i y : Nat) : ((s.raise b i).port y).path.ovRun = (s.port y).path.ovRun := by
  exact (congrArg (fun q => q.path.ovRun) (s.raise_port_bare b i y) :)
@[simp] theorem State.raise_port_path_trips (b : Blk) (i y : Nat) : ((s.raise b i).port y).path.trips = (s.port y).path.trips := by
  exact (congrArg (fun q => q.path.trips) (s.raise_port_bare b i y) :)
@[simp] theorem State.raise_port_path_lastTrip (b : Blk) (i y : Nat) : ((s.raise b i).port y).path.lastTrip = (s.port y).path.lastTrip := by
  exact (congrArg (fun q => q.path.lastTrip) (s.raise_port_bare b i y) :)
@[simp] theorem State.raise_port_path_latched (b : Blk) (i y : Nat) : ((s.raise b i).port y).path.latched = (s.port y).path.latched := by
  exact (congrArg (fun q => q.path.latched) (s.raise_port_bare b i y) :)
@[simp] theorem State.raise_port_path_calx (b : Blk) (i y : Nat) : ((s.raise b i).port y).path.calx = (s.port y).path.calx := by
  exact (congrArg (fun q => q.path.calx) (s.raise_port_bare b i y) :)
@[simp] theorem State.raise_port_path_calxI (b : Blk) (i y : Nat) : ((s.raise b i).port y).path.calxI = (s.port y).path.calxI := by
  exact (congrArg (fun q => q.path.calxI) (s.raise_port_bare b i y) :)
@[simp] theorem State.raise_port_path_calxV (b : Blk) (i y : Nat) : ((s.raise b i).port y).path.calxV = (s.port y).path.calxV := by
  exact (congrArg (fun q => q.path.calxV) (s.raise_port_bare b i y) :)
@[simp] theorem State.raise_port_path_pmode (b : Blk) (i y : Nat) : ((s.raise b i).port y).path.pmode = (s.port y).path.pmode := by
  exact (congrArg (fun q => q.path.pmode) (s.raise_port_bare b i y) :)
@[simp] theorem State.raise_port_path_retKind (b : Blk) (i y : Nat) : ((s.raise b i).port y).path.retKind = (s.port y).path.retKind := by
  exact (congrArg (fun q => q.path.retKind) (s.raise_port_bare b i y) :)
@[simp] theorem State.raise_port_path_vsrc (b : Blk) (i y : Nat) : ((s.raise b i).port y).path.vsrc = (s.port y).path.vsrc := by
  exact (congrArg (fun q => q.path.vsrc) (s.raise_port_bare b i y) :)
@[simp] theorem State.raise_port_path_swThis (b : Blk) (i y : Nat) : ((s.raise b i).port y).path.swThis = (s.port y).path.swThis := by
  exact (congrArg (fun q => q.path.swThis) (s.raise_port_bare b i y) :)
@[simp] theorem State.raise_port_path_detach (b : Blk) (i y : Nat) : ((s.raise b i).port y).path.detach = (s.port y).path.detach := by
  exact (congrArg (fun q => q.path.detach) (s.raise_port_bare b i y) :)
@[simp] theorem State.raise_port_path_vtgt (b : Blk) (i y : Nat) : ((s.raise b i).port y).path.vtgt = (s.port y).path.vtgt := by
  exact (congrArg (fun q => q.path.vtgt) (s.raise_port_bare b i y) :)
@[simp] theorem State.raise_port_path_itgt (b : Blk) (i y : Nat) : ((s.raise b i).port y).path.itgt = (s.port y).path.itgt := by
  exact (congrArg (fun q => q.path.itgt) (s.raise_port_bare b i y) :)
@[simp] theorem State.raise_port_path_ref (b : Blk) (i y : Nat) : ((s.raise b i).port y).path.ref = (s.port y).path.ref := by
  exact (congrArg (fun q => q.path.ref) (s.raise_port_bare b i y) :)
@[simp] theorem State.raise_port_path_iref (b : Blk) (i y : Nat) : ((s.raise b i).port y).path.iref = (s.port y).path.iref := by
  exact (congrArg (fun q => q.path.iref) (s.raise_port_bare b i y) :)
@[simp] theorem State.raise_port_path_shed (b : Blk) (i y : Nat) : ((s.raise b i).port y).path.shed = (s.port y).path.shed := by
  exact (congrArg (fun q => q.path.shed) (s.raise_port_bare b i y) :)
@[simp] theorem State.raise_port_path_backstop (b : Blk) (i y : Nat) : ((s.raise b i).port y).path.backstop = (s.port y).path.backstop := by
  exact (congrArg (fun q => q.path.backstop) (s.raise_port_bare b i y) :)
@[simp] theorem State.raise_port_path_vAvg (b : Blk) (i y : Nat) : ((s.raise b i).port y).path.vAvg = (s.port y).path.vAvg := by
  exact (congrArg (fun q => q.path.vAvg) (s.raise_port_bare b i y) :)
@[simp] theorem State.raise_port_path_vMin (b : Blk) (i y : Nat) : ((s.raise b i).port y).path.vMin = (s.port y).path.vMin := by
  exact (congrArg (fun q => q.path.vMin) (s.raise_port_bare b i y) :)
@[simp] theorem State.raise_port_path_vMax (b : Blk) (i y : Nat) : ((s.raise b i).port y).path.vMax = (s.port y).path.vMax := by
  exact (congrArg (fun q => q.path.vMax) (s.raise_port_bare b i y) :)
@[simp] theorem State.raise_port_path_iAvg (b : Blk) (i y : Nat) : ((s.raise b i).port y).path.iAvg = (s.port y).path.iAvg := by
  exact (congrArg (fun q => q.path.iAvg) (s.raise_port_bare b i y) :)
@[simp] theorem State.raise_port_path_iPeak (b : Blk) (i y : Nat) : ((s.raise b i).port y).path.iPeak = (s.port y).path.iPeak := by
  exact (congrArg (fun q => q.path.iPeak) (s.raise_port_bare b i y) :)
@[simp] theorem State.raise_port_path_n (b : Blk) (i y : Nat) : ((s.raise b i).port y).path.n = (s.port y).path.n := by
  exact (congrArg (fun q => q.path.n) (s.raise_port_bare b i y) :)
@[simp] theorem State.raise_port_path_vSum (b : Blk) (i y : Nat) : ((s.raise b i).port y).path.vSum = (s.port y).path.vSum := by
  exact (congrArg (fun q => q.path.vSum) (s.raise_port_bare b i y) :)
@[simp] theorem State.raise_port_path_vLo (b : Blk) (i y : Nat) : ((s.raise b i).port y).path.vLo = (s.port y).path.vLo := by
  exact (congrArg (fun q => q.path.vLo) (s.raise_port_bare b i y) :)
@[simp] theorem State.raise_port_path_vHi (b : Blk) (i y : Nat) : ((s.raise b i).port y).path.vHi = (s.port y).path.vHi := by
  exact (congrArg (fun q => q.path.vHi) (s.raise_port_bare b i y) :)
@[simp] theorem State.raise_port_path_iSum (b : Blk) (i y : Nat) : ((s.raise b i).port y).path.iSum = (s.port y).path.iSum := by
  exact (congrArg (fun q => q.path.iSum) (s.raise_port_bare b i y) :)
@[simp] theorem State.raise_port_path_iExt (b : Blk) (i y : Nat) : ((s.raise b i).port y).path.iExt = (s.port y).path.iExt := by
  exact (congrArg (fun q => q.path.iExt) (s.raise_port_bare b i y) :)
@[simp] theorem State.raise_port_path_pSum (b : Blk) (i y : Nat) : ((s.raise b i).port y).path.pSum = (s.port y).path.pSum := by
  exact (congrArg (fun q => q.path.pSum) (s.raise_port_bare b i y) :)
@[simp] theorem State.raise_port_path_fvAvg (b : Blk) (i y : Nat) : ((s.raise b i).port y).path.fvAvg = (s.port y).path.fvAvg := by
  exact (congrArg (fun q => q.path.fvAvg) (s.raise_port_bare b i y) :)
@[simp] theorem State.raise_port_path_fvMin (b : Blk) (i y : Nat) : ((s.raise b i).port y).path.fvMin = (s.port y).path.fvMin := by
  exact (congrArg (fun q => q.path.fvMin) (s.raise_port_bare b i y) :)
@[simp] theorem State.raise_port_path_fvMax (b : Blk) (i y : Nat) : ((s.raise b i).port y).path.fvMax = (s.port y).path.fvMax := by
  exact (congrArg (fun q => q.path.fvMax) (s.raise_port_bare b i y) :)
@[simp] theorem State.raise_port_path_fiAvg (b : Blk) (i y : Nat) : ((s.raise b i).port y).path.fiAvg = (s.port y).path.fiAvg := by
  exact (congrArg (fun q => q.path.fiAvg) (s.raise_port_bare b i y) :)
@[simp] theorem State.raise_port_path_fiPeak (b : Blk) (i y : Nat) : ((s.raise b i).port y).path.fiPeak = (s.port y).path.fiPeak := by
  exact (congrArg (fun q => q.path.fiPeak) (s.raise_port_bare b i y) :)
@[simp] theorem State.raise_port_path_fpAvg (b : Blk) (i y : Nat) : ((s.raise b i).port y).path.fpAvg = (s.port y).path.fpAvg := by
  exact (congrArg (fun q => q.path.fpAvg) (s.raise_port_bare b i y) :)
@[simp] theorem State.raise_port_path_eOut8 (b : Blk) (i y : Nat) : ((s.raise b i).port y).path.eOut8 = (s.port y).path.eOut8 := by
  exact (congrArg (fun q => q.path.eOut8) (s.raise_port_bare b i y) :)
@[simp] theorem State.raise_port_path_retSum (b : Blk) (i y : Nat) : ((s.raise b i).port y).path.retSum = (s.port y).path.retSum := by
  exact (congrArg (fun q => q.path.retSum) (s.raise_port_bare b i y) :)
@[simp] theorem State.raise_port_path_eRet (b : Blk) (i y : Nat) : ((s.raise b i).port y).path.eRet = (s.port y).path.eRet := by
  exact (congrArg (fun q => q.path.eRet) (s.raise_port_bare b i y) :)
@[simp] theorem State.raise_port_path_vRunOfs (b : Blk) (i y : Nat) : ((s.raise b i).port y).path.vRunOfs = (s.port y).path.vRunOfs := by
  exact (congrArg (fun q => q.path.vRunOfs) (s.raise_port_bare b i y) :)
@[simp] theorem State.raise_port_path_iRunOfs (b : Blk) (i y : Nat) : ((s.raise b i).port y).path.iRunOfs = (s.port y).path.iRunOfs := by
  exact (congrArg (fun q => q.path.iRunOfs) (s.raise_port_bare b i y) :)
@[simp] theorem State.raise_port_path_vOfsSum (b : Blk) (i y : Nat) : ((s.raise b i).port y).path.vOfsSum = (s.port y).path.vOfsSum := by
  exact (congrArg (fun q => q.path.vOfsSum) (s.raise_port_bare b i y) :)
@[simp] theorem State.raise_port_path_iOfsSum (b : Blk) (i y : Nat) : ((s.raise b i).port y).path.iOfsSum = (s.port y).path.iOfsSum := by
  exact (congrArg (fun q => q.path.iOfsSum) (s.raise_port_bare b i y) :)
@[simp] theorem State.raise_port_path_ofsN (b : Blk) (i y : Nat) : ((s.raise b i).port y).path.ofsN = (s.port y).path.ofsN := by
  exact (congrArg (fun q => q.path.ofsN) (s.raise_port_bare b i y) :)
@[simp] theorem State.raise_port_path_est (b : Blk) (i y : Nat) : ((s.raise b i).port y).path.est = (s.port y).path.est := by
  exact (congrArg (fun q => q.path.est) (s.raise_port_bare b i y) :)
@[simp] theorem State.raise_port_path_recalPaces (b : Blk) (i y : Nat) : ((s.raise b i).port y).path.recalPaces = (s.port y).path.recalPaces := by
  exact (congrArg (fun q => q.path.recalPaces) (s.raise_port_bare b i y) :)
@[simp] theorem State.raise_port_path_recalV (b : Blk) (i y : Nat) : ((s.raise b i).port y).path.recalV = (s.port y).path.recalV := by
  exact (congrArg (fun q => q.path.recalV) (s.raise_port_bare b i y) :)
@[simp] theorem State.raise_port_path_recalVn (b : Blk) (i y : Nat) : ((s.raise b i).port y).path.recalVn = (s.port y).path.recalVn := by
  exact (congrArg (fun q => q.path.recalVn) (s.raise_port_bare b i y) :)
@[simp] theorem State.raise_port_path_recalI (b : Blk) (i y : Nat) : ((s.raise b i).port y).path.recalI = (s.port y).path.recalI := by
  exact (congrArg (fun q => q.path.recalI) (s.raise_port_bare b i y) :)
@[simp] theorem State.raise_port_path_recalIn (b : Blk) (i y : Nat) : ((s.raise b i).port y).path.recalIn = (s.port y).path.recalIn := by
  exact (congrArg (fun q => q.path.recalIn) (s.raise_port_bare b i y) :)

@[simp] theorem State.raise_pending (b : Blk) (i : Nat) : (s.raise b i).pending = s.pending := by
  obtain ⟨a, n, q, h⟩ | ⟨-, h⟩ := s.raise_shape b i
  · rw [h]; cases b <;> rfl
  · rw [h]
@[simp] theorem State.raise_tick (b : Blk) (i : Nat) : (s.raise b i).tick = s.tick := by
  obtain ⟨a, n, q, h⟩ | ⟨-, h⟩ := s.raise_shape b i
  · rw [h]; cases b <;> rfl
  · rw [h]
@[simp] theorem State.raise_locked (b : Blk) (i : Nat) : (s.raise b i).locked = s.locked := by
  obtain ⟨a, n, q, h⟩ | ⟨-, h⟩ := s.raise_shape b i
  · rw [h]; cases b <;> rfl
  · rw [h]
@[simp] theorem State.raise_frame (b : Blk) (i : Nat) : (s.raise b i).frame = s.frame := by
  obtain ⟨a, n, q, h⟩ | ⟨-, h⟩ := s.raise_shape b i
  · rw [h]; cases b <;> rfl
  · rw [h]
@[simp] theorem State.raise_pace (b : Blk) (i : Nat) : (s.raise b i).pace = s.pace := by
  obtain ⟨a, n, q, h⟩ | ⟨-, h⟩ := s.raise_shape b i
  · rw [h]; cases b <;> rfl
  · rw [h]
@[simp] theorem State.raise_paceZero (b : Blk) (i : Nat) : (s.raise b i).paceZero = s.paceZero := by
  obtain ⟨a, n, q, h⟩ | ⟨-, h⟩ := s.raise_shape b i
  · rw [h]; cases b <;> rfl
  · rw [h]
@[simp] theorem State.raise_paceCount (b : Blk) (i : Nat) : (s.raise b i).paceCount = s.paceCount := by
  obtain ⟨a, n, q, h⟩ | ⟨-, h⟩ := s.raise_shape b i
  · rw [h]; cases b <;> rfl
  · rw [h]
@[simp] theorem State.raise_freeN (b : Blk) (i : Nat) : (s.raise b i).freeN = s.freeN := by
  obtain ⟨a, n, q, h⟩ | ⟨-, h⟩ := s.raise_shape b i
  · rw [h]; cases b <;> rfl
  · rw [h]
@[simp] theorem State.raise_seq (b : Blk) (i : Nat) : (s.raise b i).seq = s.seq := by
  obtain ⟨a, n, q, h⟩ | ⟨-, h⟩ := s.raise_shape b i
  · rw [h]; cases b <;> rfl
  · rw [h]
@[simp] theorem State.raise_events (b : Blk) (i : Nat) : (s.raise b i).events = s.events := by
  obtain ⟨a, n, q, h⟩ | ⟨-, h⟩ := s.raise_shape b i
  · rw [h]; cases b <;> rfl
  · rw [h]
@[simp] theorem State.raise_bus (b : Blk) (i : Nat) : (s.raise b i).bus = s.bus := by
  obtain ⟨a, n, q, h⟩ | ⟨-, h⟩ := s.raise_shape b i
  · rw [h]; cases b <;> rfl
  · rw [h]
@[simp] theorem State.raise_host (b : Blk) (i : Nat) : (s.raise b i).host = s.host := by
  obtain ⟨a, n, q, h⟩ | ⟨-, h⟩ := s.raise_shape b i
  · rw [h]; cases b <;> rfl
  · rw [h]
@[simp] theorem State.raise_tun (b : Blk) (i : Nat) : (s.raise b i).tun = s.tun := by
  obtain ⟨a, n, q, h⟩ | ⟨-, h⟩ := s.raise_shape b i
  · rw [h]; cases b <;> rfl
  · rw [h]
@[simp] theorem State.raise_acceptSeq (b : Blk) (i : Nat) : (s.raise b i).acceptSeq = s.acceptSeq := by
  obtain ⟨a, n, q, h⟩ | ⟨-, h⟩ := s.raise_shape b i
  · rw [h]; cases b <;> rfl
  · rw [h]
@[simp] theorem State.raise_itemSeq (b : Blk) (i : Nat) : (s.raise b i).itemSeq = s.itemSeq := by
  obtain ⟨a, n, q, h⟩ | ⟨-, h⟩ := s.raise_shape b i
  · rw [h]; cases b <;> rfl
  · rw [h]
@[simp] theorem State.raise_params (b : Blk) (i : Nat) : (s.raise b i).params = s.params := by
  obtain ⟨a, n, q, h⟩ | ⟨-, h⟩ := s.raise_shape b i
  · rw [h]; cases b <;> rfl
  · rw [h]
@[simp] theorem State.raise_inForce (b : Blk) (i : Nat) : (s.raise b i).inForce = s.inForce := by
  obtain ⟨a, n, q, h⟩ | ⟨-, h⟩ := s.raise_shape b i
  · rw [h]; cases b <;> rfl
  · rw [h]
@[simp] theorem State.raise_takeUp (b : Blk) (i : Nat) : (s.raise b i).takeUp = s.takeUp := by
  obtain ⟨a, n, q, h⟩ | ⟨-, h⟩ := s.raise_shape b i
  · rw [h]; cases b <;> rfl
  · rw [h]
@[simp] theorem State.raise_fltWrites (b : Blk) (i : Nat) : (s.raise b i).fltWrites = s.fltWrites := by
  obtain ⟨a, n, q, h⟩ | ⟨-, h⟩ := s.raise_shape b i
  · rw [h]; cases b <;> rfl
  · rw [h]
@[simp] theorem State.raise_early (b : Blk) (i : Nat) : (s.raise b i).early = s.early := by
  obtain ⟨a, n, q, h⟩ | ⟨-, h⟩ := s.raise_shape b i
  · rw [h]; cases b <;> rfl
  · rw [h]
@[simp] theorem State.raise_dev (b : Blk) (i : Nat) : (s.raise b i).dev = s.dev := by
  obtain ⟨a, n, q, h⟩ | ⟨-, h⟩ := s.raise_shape b i
  · rw [h]; cases b <;> rfl
  · rw [h]
@[simp] theorem State.raise_rampTurn (b : Blk) (i : Nat) : (s.raise b i).rampTurn = s.rampTurn := by
  obtain ⟨a, n, q, h⟩ | ⟨-, h⟩ := s.raise_shape b i
  · rw [h]; cases b <;> rfl
  · rw [h]
@[simp] theorem State.raise_turnFrom (b : Blk) (i : Nat) : (s.raise b i).turnFrom = s.turnFrom := by
  obtain ⟨a, n, q, h⟩ | ⟨-, h⟩ := s.raise_shape b i
  · rw [h]; cases b <;> rfl
  · rw [h]
@[simp] theorem State.raise_ledger (b : Blk) (i : Nat) : (s.raise b i).ledger = s.ledger := by
  obtain ⟨a, n, q, h⟩ | ⟨-, h⟩ := s.raise_shape b i
  · rw [h]; cases b <;> rfl
  · rw [h]
@[simp] theorem State.raise_inn (b : Blk) (i : Nat) : (s.raise b i).inn = s.inn := by
  obtain ⟨a, n, q, h⟩ | ⟨-, h⟩ := s.raise_shape b i
  · rw [h]; cases b <;> rfl
  · rw [h]
@[simp] theorem State.raise_otp (b : Blk) (i : Nat) : (s.raise b i).otp = s.otp := by
  obtain ⟨a, n, q, h⟩ | ⟨-, h⟩ := s.raise_shape b i
  · rw [h]; cases b <;> rfl
  · rw [h]
@[simp] theorem State.raise_ret (b : Blk) (i : Nat) : (s.raise b i).ret = s.ret := by
  obtain ⟨a, n, q, h⟩ | ⟨-, h⟩ := s.raise_shape b i
  · rw [h]; cases b <;> rfl
  · rw [h]
@[simp] theorem State.raise_tester (b : Blk) (i : Nat) : (s.raise b i).tester = s.tester := by
  obtain ⟨a, n, q, h⟩ | ⟨-, h⟩ := s.raise_shape b i
  · rw [h]; cases b <;> rfl
  · rw [h]
@[simp] theorem State.raise_svc (b : Blk) (i : Nat) : (s.raise b i).svc = s.svc := by
  obtain ⟨a, n, q, h⟩ | ⟨-, h⟩ := s.raise_shape b i
  · rw [h]; cases b <;> rfl
  · rw [h]
@[simp] theorem State.raise_sup (b : Blk) (i : Nat) : (s.raise b i).sup = s.sup := by
  obtain ⟨a, n, q, h⟩ | ⟨-, h⟩ := s.raise_shape b i
  · rw [h]; cases b <;> rfl
  · rw [h]
@[simp] theorem State.raise_ageQueue (b : Blk) (i : Nat) : (s.raise b i).ageQueue = s.ageQueue := by
  obtain ⟨a, n, q, h⟩ | ⟨-, h⟩ := s.raise_shape b i
  · rw [h]; cases b <;> rfl
  · rw [h]
@[simp] theorem State.raise_retiring (b : Blk) (i : Nat) : (s.raise b i).retiring = s.retiring := by
  obtain ⟨a, n, q, h⟩ | ⟨-, h⟩ := s.raise_shape b i
  · rw [h]; cases b <;> rfl
  · rw [h]
@[simp] theorem State.raise_readmitting (b : Blk) (i : Nat) : (s.raise b i).readmitting = s.readmitting := by
  obtain ⟨a, n, q, h⟩ | ⟨-, h⟩ := s.raise_shape b i
  · rw [h]; cases b <;> rfl
  · rw [h]
@[simp] theorem State.raise_captures (b : Blk) (i : Nat) : (s.raise b i).captures = s.captures := by
  obtain ⟨a, n, q, h⟩ | ⟨-, h⟩ := s.raise_shape b i
  · rw [h]; cases b <;> rfl
  · rw [h]
@[simp] theorem State.raise_ports_length (b : Blk) (i : Nat) : (s.raise b i).ports.length = s.ports.length := by
  obtain ⟨a, n, q, h⟩ | ⟨-, h⟩ := s.raise_shape b i
  · rw [h]; cases b <;> simp [State.setFlt, State.updCc, State.updPath]
  · rw [h]
@[simp] theorem State.raise_feeds_length (b : Blk) (i : Nat) : (s.raise b i).feeds.length = s.feeds.length := by
  obtain ⟨a, n, q, h⟩ | ⟨-, h⟩ := s.raise_shape b i
  · rw [h]; cases b <;> simp [State.setFlt, State.updCc, State.updPath]
  · rw [h]
@[simp] theorem State.raise_phases_length (b : Blk) (i : Nat) : (s.raise b i).phases.length = s.phases.length := by
  obtain ⟨a, n, q, h⟩ | ⟨-, h⟩ := s.raise_shape b i
  · rw [h]; cases b <;> simp [State.setFlt, State.updCc, State.updPath]
  · rw [h]
@[simp] theorem State.raise_ridges_length (b : Blk) (i : Nat) : (s.raise b i).ridges.length = s.ridges.length := by
  obtain ⟨a, n, q, h⟩ | ⟨-, h⟩ := s.raise_shape b i
  · rw [h]; cases b <;> simp [State.setFlt, State.updCc, State.updPath]
  · rw [h]

theorem State.flt_setFlt (b : Blk) (f : Flt) (h : b.here s) : (s.setFlt b f).flt b = f := by
  cases b <;> simp_all [State.setFlt, State.flt, Blk.here, State.updCc, State.updPath, State.cc, State.path, State.feed_updFeed,
    State.port_updPort, State.phase_updPhase, State.ridge_updRidge]

/-- After an occurrence the sticky bit stands (R255). -/
theorem Flt.occur_sticky (f : Flt) (i fr st : Nat) (h : i < 16) : (f.occur i fr st).sticky.getLsbD i = true := by
  have e : (BitVec.ofNat 16 (2 ^ i)).getLsbD i = true := by
    rw [BitVec.getLsbD_ofNat]
    simp only [h, decide_true, Nat.testBit_two_pow_self, Bool.and_self]
  unfold Flt.occur
  dsimp only
  split
  · exact e
  · rw [BitVec.getLsbD_or, e, Bool.or_true]

/-- R255: raising sets the bit. -/
theorem State.raise_sticky (b : Blk) (i : Nat) (h : b.here s) (hi : i < 16) : ((s.raise b i).flt b).sticky.getLsbD i = true := by
  obtain ⟨a, n, q, e⟩ | ⟨e, r⟩ := s.raise_shape b i
  · have w : ((s.raise b i).flt b) = (s.setFlt b ((s.flt b).occur i s.firstFrame s.stampNow)).flt b := by
      rw [e]; cases b <;> rfl
    rw [w, s.flt_setFlt b _ h]
    exact Flt.occur_sticky _ i _ _ hi
  · rw [r, e]

end Sys2Proof.Machine
end

