-- ==== Sys2Proof/Laws/Commands.lean ====
section
/-! SUPPORT. Executing a packet: when its opcode runs, and what ending it or keeping its place does (R288, R292, R295, R300). -/

namespace Sys2Proof.Machine

variable {s t : State} {pl : Place} {c : Cmd}

/-- A command whose turn has come executes. -/
theorem State.runOp_turn {op : Nat} {act : Cmd → Bool} (go : Cmd → State) (h : Turn pl op c s) (ha : act c = true) :
    s.runOp pl op act go = go c := by
  obtain ⟨h1, h2, h3, h4⟩ := h
  simp [State.runOp, h1, h2, h3, h4, ha]

/-- Ending a command touches its channel alone, frees its place and makes its reply ready. -/
theorem State.finish_spec (h : s.cmdAt pl = some c) (code : Nat) (d : List Byte) :
    OnlyReply pl s (s.finish pl code d) ∧ Answered pl c code d (s.finish pl code d) := by
  unfold State.finish
  simp only [h]
  unfold OnlyReply Answered
  cases pl <;> cases o : c.orphan <;>
    simp [placeChan, placeZero, State.setChan, State.chan, ChanState.setCmd, ChanState.answer, State.cmdAt, ChanState.cmd, o]

/-- A command that goes on keeps its place and its reply slot. -/
theorem State.hold_spec (h : s.cmdAt pl = some c) (w : WaitFor) :
    OnlyReply pl s (s.hold pl w) ∧ (s.hold pl w).cmdAt pl = some { c with wait := some w } ∧
      ((s.hold pl w).chan (placeChan pl)).slot = (s.chan (placeChan pl)).slot := by
  unfold State.hold
  simp only [h]
  unfold OnlyReply
  cases pl <;>
    simp [State.setCmdAt, placeChan, placeZero, State.setChan, State.chan, ChanState.setCmd, State.cmdAt, ChanState.cmd]

/-- Commands stand in the channels: a state with the same channels holds the same commands. -/
theorem State.cmdAt_congr (h1 : t.host = s.host) (h2 : t.tun = s.tun) (pl : Place) : t.cmdAt pl = s.cmdAt pl := by
  cases pl <;> simp [State.cmdAt, State.chan, placeChan, h1, h2]

end Sys2Proof.Machine
end

