-- ==== Sys2Proof/Laws/Ports.lean ====
section
/-! SUPPORT. The shared operations of a port: what each may touch (`OnlyPort`), said once. -/

namespace Sys2Proof.Machine

variable {p : Nat} {s t u : State}

/-! ### `OnlyPort` is kept by composition -/

theorem OnlyPort.refl (p : Nat) (s : State) : OnlyPort p s s := ⟨rfl, rfl, fun _ _ => rfl⟩

theorem OnlyPort.trans (h : OnlyPort p s t) (k : OnlyPort p t u) : OnlyPort p s u := by
  obtain ⟨h1, h2, h3⟩ := h
  obtain ⟨k1, k2, k3⟩ := k
  refine ⟨?_, k2.trans h2, fun q hq => (k3 q hq).trans (h3 q hq)⟩
  rw [k1, h1]

theorem OnlyPort.now_eq (h : OnlyPort p s t) : t.now = s.now := by rw [h.1]; rfl
theorem OnlyPort.frame_eq (h : OnlyPort p s t) : t.frame = s.frame := by rw [h.1]
theorem OnlyPort.length_eq (h : OnlyPort p s t) : t.ports.length = s.ports.length := h.2.1

theorem OnlyPort.updPort (h : OnlyPort p s t) (f : Port → Port) : OnlyPort p s (t.updPort p f) :=
  h.trans ⟨rfl, by simp, fun q hq => by simp [hq]⟩

theorem OnlyPort.updCc (h : OnlyPort p s t) (f : CcLayer → CcLayer) : OnlyPort p s (t.updCc p f) := h.updPort _
theorem OnlyPort.updVc (h : OnlyPort p s t) (f : Vconn → Vconn) : OnlyPort p s (t.updVc p f) := h.updPort _
theorem OnlyPort.updPd (h : OnlyPort p s t) (f : Pd → Pd) : OnlyPort p s (t.updPd p f) := h.updPort _
theorem OnlyPort.updSw (h : OnlyPort p s t) (f : Swap → Swap) : OnlyPort p s (t.updSw p f) := h.updPort _
theorem OnlyPort.updDc (h : OnlyPort p s t) (f : Disc → Disc) : OnlyPort p s (t.updDc p f) := h.updPort _
theorem OnlyPort.updPath (h : OnlyPort p s t) (f : Path → Path) : OnlyPort p s (t.updPath p f) := h.updPort _
theorem OnlyPort.countUp (h : OnlyPort p s t) (c : PCount) : OnlyPort p s (t.countUp p c) := h.updPort _
theorem OnlyPort.send (h : OnlyPort p s t) (m : List PdTx) : OnlyPort p s (t.send p m) := h.updPort _

theorem OnlyPort.pushEvent (h : OnlyPort p s t) (k i : Nat) (d : List Byte) : OnlyPort p s (t.pushEvent k i d) :=
  h.trans ⟨rfl, rfl, fun _ _ => rfl⟩

theorem State.finishWait_shape (s : State) (w : WaitFor) (n : Nat) (d : List Byte) :
    s.finishWait w n d = { s with host := (s.finishWait w n d).host, tun := (s.finishWait w n d).tun } := by
  have step : ∀ (l : List Place) (t : State), t = { s with host := t.host, tun := t.tun } →
      l.foldl (fun t pl => if t.waits pl w then t.finish pl n d else t) t =
        { s with
          host := (l.foldl (fun t pl => if t.waits pl w then t.finish pl n d else t) t).host
          tun := (l.foldl (fun t pl => if t.waits pl w then t.finish pl n d else t) t).tun } := by
    intro l
    induction l with
    | nil => intro t h; exact h
    | cons a l ih =>
      intro t h
      refine ih _ ?_
      beta_reduce
      split
      · unfold State.finish
        split
        · exact h
        · cases a <;> (rw [h]; rfl)
      · exact h
  exact step _ s rfl

theorem OnlyPort.finishWait (h : OnlyPort p s t) (w : WaitFor) (n : Nat) (d : List Byte) : OnlyPort p s (t.finishWait w n d) := by
  refine h.trans ⟨?_, by simp, fun q _ => by simp⟩
  have e := t.finishWait_shape w n d
  generalize t.finishWait w n d = x at e ⊢
  rw [e]

theorem OnlyPort.raiseCc (h : OnlyPort p s t) (i : Nat) : OnlyPort p s (t.raise (.portCc p) i) := by
  refine h.trans ?_
  obtain ⟨a, n, q, e⟩ | ⟨-, e⟩ := t.raise_shape (.portCc p) i
  · rw [e]; exact ⟨rfl, by simp [State.setFlt, State.updCc], fun q hq => by
      change ((t.updPort p _).port q) = _
      simp [hq]⟩
  · rw [e]; exact OnlyPort.refl p t

theorem OnlyPort.raisePath (h : OnlyPort p s t) (i : Nat) : OnlyPort p s (t.raise (.portPath p) i) := by
  refine h.trans ?_
  obtain ⟨a, n, q, e⟩ | ⟨-, e⟩ := t.raise_shape (.portPath p) i
  · rw [e]; exact ⟨rfl, by simp [State.setFlt, State.updPath], fun q hq => by
      change ((t.updPort p _).port q) = _
      simp [hq]⟩
  · rw [e]; exact OnlyPort.refl p t

theorem OnlyPort.ite {c : Prop} [Decidable c] {a b : State} (h : OnlyPort p s a) (k : OnlyPort p s b) :
    OnlyPort p s (if c then a else b) := by
  split
  · exact h
  · exact k

/-- A condition on the state's own parts keeps the rest apart. -/
theorem OnlyPort.initPort (h : OnlyPort p s t) (x : Option Nat) : OnlyPort p s { t with svc := { t.svc with initPort := x } } :=
  h.trans ⟨rfl, rfl, fun _ _ => rfl⟩

/-! ### The operations -/

theorem OnlyPort.vconnOff (h : OnlyPort p s t) : OnlyPort p s (t.vconnOff p) := ((h.updSw _).updVc _).ite (h.updSw _)

theorem OnlyPort.vconnOn (h : OnlyPort p s t) : OnlyPort p s (t.vconnOn p) := (h.updVc _).ite h

theorem OnlyPort.vconnLose (h : OnlyPort p s t) (b : Nat) : OnlyPort p s (t.vconnLose p b) := by
  unfold State.vconnLose
  dsimp only
  have k := ((h.vconnOff.raiseCc b).updVc fun v =>
    { v with blocked := true, lost := true, attempt := none, attemptsDue := none, forEpr := false, hostTry := false, firstEnded := true }).updPd
      fun d => { d with cableChanged := true, eprEnter := none }
  exact ((k.send _).ite k).finishWait _ _ _

theorem OnlyPort.discharge (h : OnlyPort p s t) (b : Bool) : OnlyPort p s (t.discharge p b) := h.updCc _

theorem OnlyPort.returnNode (h : OnlyPort p s t) (k v : Nat) : OnlyPort p s (t.returnNode p k v) := (h.updPath _).ite h

theorem OnlyPort.home (h : OnlyPort p s t) : OnlyPort p s (t.home p) := h.updCc _

theorem OnlyPort.modeEnd (h : OnlyPort p s t) (c : Nat) : OnlyPort p s (t.modeEnd p c) := ((h.updDc _).pushEvent _ _ _).ite h

theorem OnlyPort.discEnd (h : OnlyPort p s t) (c : Nat) : OnlyPort p s (t.discEnd p c) :=
  (((h.updDc _).pushEvent _ _ _).finishWait _ _ _).ite (h.updDc _)

theorem OnlyPort.sessionEnd (h : OnlyPort p s t) (c : Nat) : OnlyPort p s (t.sessionEnd c) := by
  have k : OnlyPort p t { t with tester := { delayUntil := t.tester.delayUntil }, tun := t.tun.dropReplies } :=
    ⟨rfl, rfl, fun _ _ => rfl⟩
  exact h.ite ((h.trans k).ite ((h.trans k).pushEvent _ _ _))

theorem OnlyPort.sessionEndOn (h : OnlyPort p s t) (c : Nat) : OnlyPort p s (t.sessionEndOn p c) := (h.sessionEnd c).ite h

theorem OnlyPort.failWaits (h : OnlyPort p s t) : OnlyPort p s (t.failWaits p) := by
  unfold State.failWaits
  exact ((((((h.finishWait _ _ _).finishWait _ _ _).finishWait _ _ _).finishWait _ _ _).finishWait _ _ _).initPort _).ite
    (((((h.finishWait _ _ _).finishWait _ _ _).finishWait _ _ _).finishWait _ _ _).finishWait _ _ _)

theorem OnlyPort.swapEnds (h : OnlyPort p s t) (r : Nat) (b : Bool) : OnlyPort p s (t.swapEnds p r b) := by
  unfold State.swapEnds
  split
  · exact h.updSw _
  · exact ((((((h.updSw _).updCc _).countUp _).ite ((h.updSw _).updCc _)).pushEvent _ _ _).finishWait _ _ _)

theorem OnlyPort.swapFail (h : OnlyPort p s t) (r : Nat) : OnlyPort p s (t.swapFail p r) := h.swapEnds r true

theorem OnlyPort.swapDone (h : OnlyPort p s t) : OnlyPort p s (t.swapDone p) := by
  unfold State.swapDone
  split
  · exact h
  · exact ((h.updSw _).pushEvent _ _ _).finishWait _ _ _

theorem OnlyPort.setDfp (h : OnlyPort p s t) (b : Bool) : OnlyPort p s (t.setDfp p b) := h.ite ((h.updSw _).pushEvent _ _ _)

theorem OnlyPort.voidContract (h : OnlyPort p s t) (c : Nat) : OnlyPort p s (t.voidContract p c) :=
  (((h.updPd _).updPath _).pushEvent _ _ _).ite ((h.updPd _).updPath _)

theorem OnlyPort.attachOver (h : OnlyPort p s t) (c : Nat) (b : Bool) : OnlyPort p s (t.attachOver p c b) := by
  have k := ((((h.swapFail 2).ite (c := b = true) (h.swapEnds 3 false)).modeEnd 1).discEnd 5).sessionEndOn 1
  unfold State.attachOver
  exact (((((k.voidContract c).updPd _).updVc _).updDc _).updPort _).failWaits

theorem OnlyPort.openPort (h : OnlyPort p s t) (d : Bool) : OnlyPort p s (t.openPort p d) := ((h.updPath _).vconnOff).discharge d

theorem OnlyPort.errorRecovery (h : OnlyPort p s t) (c : Nat) : OnlyPort p s (t.errorRecovery p c) :=
  (((((h.attachOver c true).openPort false).updCc _).updPort _).returnNode 2 2500).finishWait _ _ _

theorem OnlyPort.disablePort (h : OnlyPort p s t) (c : Nat) (w : DisabledBy) : OnlyPort p s (t.disablePort p c w) :=
  ((((h.attachOver c false).openPort false).updCc _).updPort _).returnNode 2 2500

theorem OnlyPort.loseConversion (h : OnlyPort p s t) : OnlyPort p s (t.loseConversion p) := (h.errorRecovery 0xA).updCc _

theorem OnlyPort.portTrip (h : OnlyPort p s t) (c : Nat) : OnlyPort p s (t.portTrip p c) :=
  ((((h.raisePath _).countUp _).updPath _).errorRecovery 9).ite (((((h.raisePath _).countUp _).updPath _).disablePort 9 .latched).raisePath 5)

theorem OnlyPort.waitTx (h : OnlyPort p s t) : OnlyPort p s (t.waitTx p) := ((h.updPd _).updCc _).ite h

theorem OnlyPort.startSeq (h : OnlyPort p s t) (go : State → State) (k : ∀ u, OnlyPort p u (go u)) : OnlyPort p s (t.startSeq p go) :=
  ((h.trans (k t)).updPd _).ite (h.waitTx.ite h)

theorem OnlyPort.seqOver (h : OnlyPort p s t) : OnlyPort p s (t.seqOver p) := (h.updCc _).ite h

theorem OnlyPort.sinkSpoke (h : OnlyPort p s t) : OnlyPort p s (t.sinkSpoke p) := h.updPd _

theorem OnlyPort.resetRoles (h : OnlyPort p s t) : OnlyPort p s (t.resetRoles p) := by
  unfold State.resetRoles
  dsimp only
  split
  · split
    · exact ((((h.swapFail 3).updSw _).updCc _).setDfp _)
    · exact ((((((h.swapFail 3).updPath _).discharge false).updSw _).updCc _).updPd _).setDfp _
  · split
    · exact h.setDfp _
    · exact (h.updPd _).setDfp _

theorem OnlyPort.heard (h : OnlyPort p s t) : OnlyPort p s (t.heard p) := h.updPd _

theorem OnlyPort.rewait (h : OnlyPort p s t) : OnlyPort p s (t.rewait p) := h.waitTx.ite h

theorem OnlyPort.hardReset (h : OnlyPort p s t) (c : Nat) (b : Bool) : OnlyPort p s (t.hardReset p c b) := by
  unfold State.hardReset
  dsimp only
  have k := fun f g i j m => (((((((((((((h.countUp (if b then .hrSent else .hrRcvd)).modeEnd 2).discEnd 5).sessionEndOn 2).resetRoles).voidContract c).failWaits).updPd
    f).send m).updVc g).updDc i).vconnOff).updSw j)
  exact (OnlyPort.ite ((((k _ _ _ _ _).updPath _).updCc _).ite (k _ _ _ _ _) |>.raiseCc 6 |>.errorRecovery c)
    ((((k _ _ _ _ _).updPath _).updCc _).ite (k _ _ _ _ _)))

end Sys2Proof.Machine
end

