-- ==== Sys2Proof/Laws/Layers.lean ====
section
/-! SUPPORT. The shared operations of a port, layer by layer: which layers each leaves alone, and what it leaves behind. -/

namespace Sys2Proof.Machine

variable (s : State) (p q : Nat)

/-- A part of a port that an update does not write stays as it was. -/
theorem State.port_updPort_part {α : Type} (g : Port → α) (f : Port → Port) (h : ∀ x, g (f x) = g x) :
    g ((s.updPort p f).port q) = g (s.port q) := by
  by_cases e : q = p
  · subst e
    by_cases l : q < s.ports.length
    · rw [State.port_updPort s q f l, h]
    · simp [State.updPort, State.port, l]
  · rw [State.port_updPort_ne s p q f e]

theorem State.port_updCc_part {α : Type} (g : CcLayer → α) (f : CcLayer → CcLayer) (h : ∀ x, g (f x) = g x) :
    g ((s.updCc p f).port q).cc = g (s.port q).cc :=
  s.port_updPort_part p q (fun x => g x.cc) _ fun x => h x.cc

theorem State.port_updPath_part {α : Type} (g : Path → α) (f : Path → Path) (h : ∀ x, g (f x) = g x) :
    g ((s.updPath p f).port q).path = g (s.port q).path :=
  s.port_updPort_part p q (fun x => g x.path) _ fun x => h x.path

@[simp] theorem State.updCc_port_vc (f : CcLayer → CcLayer) : ((s.updCc p f).port q).vc = (s.port q).vc :=
  s.port_updPort_part p q (·.vc) _ fun _ => rfl
@[simp] theorem State.updCc_port_pd (f : CcLayer → CcLayer) : ((s.updCc p f).port q).pd = (s.port q).pd :=
  s.port_updPort_part p q (·.pd) _ fun _ => rfl
@[simp] theorem State.updCc_port_sw (f : CcLayer → CcLayer) : ((s.updCc p f).port q).sw = (s.port q).sw :=
  s.port_updPort_part p q (·.sw) _ fun _ => rfl
@[simp] theorem State.updCc_port_dc (f : CcLayer → CcLayer) : ((s.updCc p f).port q).dc = (s.port q).dc :=
  s.port_updPort_part p q (·.dc) _ fun _ => rfl
@[simp] theorem State.updCc_port_path (f : CcLayer → CcLayer) : ((s.updCc p f).port q).path = (s.port q).path :=
  s.port_updPort_part p q (·.path) _ fun _ => rfl
@[simp] theorem State.updCc_port_inService (f : CcLayer → CcLayer) : ((s.updCc p f).port q).inService = (s.port q).inService :=
  s.port_updPort_part p q (·.inService) _ fun _ => rfl
@[simp] theorem State.updCc_port_attachFrame (f : CcLayer → CcLayer) : ((s.updCc p f).port q).attachFrame = (s.port q).attachFrame :=
  s.port_updPort_part p q (·.attachFrame) _ fun _ => rfl
@[simp] theorem State.updCc_port_counters (f : CcLayer → CcLayer) : ((s.updCc p f).port q).counters = (s.port q).counters :=
  s.port_updPort_part p q (·.counters) _ fun _ => rfl
@[simp] theorem State.updCc_port_peerChain (f : CcLayer → CcLayer) : ((s.updCc p f).port q).peerChain = (s.port q).peerChain :=
  s.port_updPort_part p q (·.peerChain) _ fun _ => rfl
@[simp] theorem State.updCc_port_peerDigest (f : CcLayer → CcLayer) : ((s.updCc p f).port q).peerDigest = (s.port q).peerDigest :=
  s.port_updPort_part p q (·.peerDigest) _ fun _ => rfl
theorem State.cc_updCc (f : CcLayer → CcLayer) (h : p < s.ports.length) : ((s.updCc p f).port p).cc = f (s.port p).cc := by
  rw [State.updCc, State.port_updPort s p _ h]
@[simp] theorem State.updCc_ports_length (f : CcLayer → CcLayer) : (s.updCc p f).ports.length = s.ports.length := by
  simp [State.updCc]

@[simp] theorem State.updVc_port_cc (f : Vconn → Vconn) : ((s.updVc p f).port q).cc = (s.port q).cc :=
  s.port_updPort_part p q (·.cc) _ fun _ => rfl
@[simp] theorem State.updVc_port_pd (f : Vconn → Vconn) : ((s.updVc p f).port q).pd = (s.port q).pd :=
  s.port_updPort_part p q (·.pd) _ fun _ => rfl
@[simp] theorem State.updVc_port_sw (f : Vconn → Vconn) : ((s.updVc p f).port q).sw = (s.port q).sw :=
  s.port_updPort_part p q (·.sw) _ fun _ => rfl
@[simp] theorem State.updVc_port_dc (f : Vconn → Vconn) : ((s.updVc p f).port q).dc = (s.port q).dc :=
  s.port_updPort_part p q (·.dc) _ fun _ => rfl
@[simp] theorem State.updVc_port_path (f : Vconn → Vconn) : ((s.updVc p f).port q).path = (s.port q).path :=
  s.port_updPort_part p q (·.path) _ fun _ => rfl
@[simp] theorem State.updVc_port_inService (f : Vconn → Vconn) : ((s.updVc p f).port q).inService = (s.port q).inService :=
  s.port_updPort_part p q (·.inService) _ fun _ => rfl
@[simp] theorem State.updVc_port_attachFrame (f : Vconn → Vconn) : ((s.updVc p f).port q).attachFrame = (s.port q).attachFrame :=
  s.port_updPort_part p q (·.attachFrame) _ fun _ => rfl
@[simp] theorem State.updVc_port_counters (f : Vconn → Vconn) : ((s.updVc p f).port q).counters = (s.port q).counters :=
  s.port_updPort_part p q (·.counters) _ fun _ => rfl
@[simp] theorem State.updVc_port_peerChain (f : Vconn → Vconn) : ((s.updVc p f).port q).peerChain = (s.port q).peerChain :=
  s.port_updPort_part p q (·.peerChain) _ fun _ => rfl
@[simp] theorem State.updVc_port_peerDigest (f : Vconn → Vconn) : ((s.updVc p f).port q).peerDigest = (s.port q).peerDigest :=
  s.port_updPort_part p q (·.peerDigest) _ fun _ => rfl
theorem State.vc_updVc (f : Vconn → Vconn) (h : p < s.ports.length) : ((s.updVc p f).port p).vc = f (s.port p).vc := by
  rw [State.updVc, State.port_updPort s p _ h]
@[simp] theorem State.updVc_ports_length (f : Vconn → Vconn) : (s.updVc p f).ports.length = s.ports.length := by
  simp [State.updVc]

@[simp] theorem State.updPd_port_cc (f : Pd → Pd) : ((s.updPd p f).port q).cc = (s.port q).cc :=
  s.port_updPort_part p q (·.cc) _ fun _ => rfl
@[simp] theorem State.updPd_port_vc (f : Pd → Pd) : ((s.updPd p f).port q).vc = (s.port q).vc :=
  s.port_updPort_part p q (·.vc) _ fun _ => rfl
@[simp] theorem State.updPd_port_sw (f : Pd → Pd) : ((s.updPd p f).port q).sw = (s.port q).sw :=
  s.port_updPort_part p q (·.sw) _ fun _ => rfl
@[simp] theorem State.updPd_port_dc (f : Pd → Pd) : ((s.updPd p f).port q).dc = (s.port q).dc :=
  s.port_updPort_part p q (·.dc) _ fun _ => rfl
@[simp] theorem State.updPd_port_path (f : Pd → Pd) : ((s.updPd p f).port q).path = (s.port q).path :=
  s.port_updPort_part p q (·.path) _ fun _ => rfl
@[simp] theorem State.updPd_port_inService (f : Pd → Pd) : ((s.updPd p f).port q).inService = (s.port q).inService :=
  s.port_updPort_part p q (·.inService) _ fun _ => rfl
@[simp] theorem State.updPd_port_attachFrame (f : Pd → Pd) : ((s.updPd p f).port q).attachFrame = (s.port q).attachFrame :=
  s.port_updPort_part p q (·.attachFrame) _ fun _ => rfl
@[simp] theorem State.updPd_port_counters (f : Pd → Pd) : ((s.updPd p f).port q).counters = (s.port q).counters :=
  s.port_updPort_part p q (·.counters) _ fun _ => rfl
@[simp] theorem State.updPd_port_peerChain (f : Pd → Pd) : ((s.updPd p f).port q).peerChain = (s.port q).peerChain :=
  s.port_updPort_part p q (·.peerChain) _ fun _ => rfl
@[simp] theorem State.updPd_port_peerDigest (f : Pd → Pd) : ((s.updPd p f).port q).peerDigest = (s.port q).peerDigest :=
  s.port_updPort_part p q (·.peerDigest) _ fun _ => rfl
theorem State.pd_updPd (f : Pd → Pd) (h : p < s.ports.length) : ((s.updPd p f).port p).pd = f (s.port p).pd := by
  rw [State.updPd, State.port_updPort s p _ h]
@[simp] theorem State.updPd_ports_length (f : Pd → Pd) : (s.updPd p f).ports.length = s.ports.length := by
  simp [State.updPd]

@[simp] theorem State.updSw_port_cc (f : Swap → Swap) : ((s.updSw p f).port q).cc = (s.port q).cc :=
  s.port_updPort_part p q (·.cc) _ fun _ => rfl
@[simp] theorem State.updSw_port_vc (f : Swap → Swap) : ((s.updSw p f).port q).vc = (s.port q).vc :=
  s.port_updPort_part p q (·.vc) _ fun _ => rfl
@[simp] theorem State.updSw_port_pd (f : Swap → Swap) : ((s.updSw p f).port q).pd = (s.port q).pd :=
  s.port_updPort_part p q (·.pd) _ fun _ => rfl
@[simp] theorem State.updSw_port_dc (f : Swap → Swap) : ((s.updSw p f).port q).dc = (s.port q).dc :=
  s.port_updPort_part p q (·.dc) _ fun _ => rfl
@[simp] theorem State.updSw_port_path (f : Swap → Swap) : ((s.updSw p f).port q).path = (s.port q).path :=
  s.port_updPort_part p q (·.path) _ fun _ => rfl
@[simp] theorem State.updSw_port_inService (f : Swap → Swap) : ((s.updSw p f).port q).inService = (s.port q).inService :=
  s.port_updPort_part p q (·.inService) _ fun _ => rfl
@[simp] theorem State.updSw_port_attachFrame (f : Swap → Swap) : ((s.updSw p f).port q).attachFrame = (s.port q).attachFrame :=
  s.port_updPort_part p q (·.attachFrame) _ fun _ => rfl
@[simp] theorem State.updSw_port_counters (f : Swap → Swap) : ((s.updSw p f).port q).counters = (s.port q).counters :=
  s.port_updPort_part p q (·.counters) _ fun _ => rfl
@[simp] theorem State.updSw_port_peerChain (f : Swap → Swap) : ((s.updSw p f).port q).peerChain = (s.port q).peerChain :=
  s.port_updPort_part p q (·.peerChain) _ fun _ => rfl
@[simp] theorem State.updSw_port_peerDigest (f : Swap → Swap) : ((s.updSw p f).port q).peerDigest = (s.port q).peerDigest :=
  s.port_updPort_part p q (·.peerDigest) _ fun _ => rfl
theorem State.sw_updSw (f : Swap → Swap) (h : p < s.ports.length) : ((s.updSw p f).port p).sw = f (s.port p).sw := by
  rw [State.updSw, State.port_updPort s p _ h]
@[simp] theorem State.updSw_ports_length (f : Swap → Swap) : (s.updSw p f).ports.length = s.ports.length := by
  simp [State.updSw]

@[simp] theorem State.updDc_port_cc (f : Disc → Disc) : ((s.updDc p f).port q).cc = (s.port q).cc :=
  s.port_updPort_part p q (·.cc) _ fun _ => rfl
@[simp] theorem State.updDc_port_vc (f : Disc → Disc) : ((s.updDc p f).port q).vc = (s.port q).vc :=
  s.port_updPort_part p q (·.vc) _ fun _ => rfl
@[simp] theorem State.updDc_port_pd (f : Disc → Disc) : ((s.updDc p f).port q).pd = (s.port q).pd :=
  s.port_updPort_part p q (·.pd) _ fun _ => rfl
@[simp] theorem State.updDc_port_sw (f : Disc → Disc) : ((s.updDc p f).port q).sw = (s.port q).sw :=
  s.port_updPort_part p q (·.sw) _ fun _ => rfl
@[simp] theorem State.updDc_port_path (f : Disc → Disc) : ((s.updDc p f).port q).path = (s.port q).path :=
  s.port_updPort_part p q (·.path) _ fun _ => rfl
@[simp] theorem State.updDc_port_inService (f : Disc → Disc) : ((s.updDc p f).port q).inService = (s.port q).inService :=
  s.port_updPort_part p q (·.inService) _ fun _ => rfl
@[simp] theorem State.updDc_port_attachFrame (f : Disc → Disc) : ((s.updDc p f).port q).attachFrame = (s.port q).attachFrame :=
  s.port_updPort_part p q (·.attachFrame) _ fun _ => rfl
@[simp] theorem State.updDc_port_counters (f : Disc → Disc) : ((s.updDc p f).port q).counters = (s.port q).counters :=
  s.port_updPort_part p q (·.counters) _ fun _ => rfl
@[simp] theorem State.updDc_port_peerChain (f : Disc → Disc) : ((s.updDc p f).port q).peerChain = (s.port q).peerChain :=
  s.port_updPort_part p q (·.peerChain) _ fun _ => rfl
@[simp] theorem State.updDc_port_peerDigest (f : Disc → Disc) : ((s.updDc p f).port q).peerDigest = (s.port q).peerDigest :=
  s.port_updPort_part p q (·.peerDigest) _ fun _ => rfl
theorem State.dc_updDc (f : Disc → Disc) (h : p < s.ports.length) : ((s.updDc p f).port p).dc = f (s.port p).dc := by
  rw [State.updDc, State.port_updPort s p _ h]
@[simp] theorem State.updDc_ports_length (f : Disc → Disc) : (s.updDc p f).ports.length = s.ports.length := by
  simp [State.updDc]

@[simp] theorem State.updPath_port_cc (f : Path → Path) : ((s.updPath p f).port q).cc = (s.port q).cc :=
  s.port_updPort_part p q (·.cc) _ fun _ => rfl
@[simp] theorem State.updPath_port_vc (f : Path → Path) : ((s.updPath p f).port q).vc = (s.port q).vc :=
  s.port_updPort_part p q (·.vc) _ fun _ => rfl
@[simp] theorem State.updPath_port_pd (f : Path → Path) : ((s.updPath p f).port q).pd = (s.port q).pd :=
  s.port_updPort_part p q (·.pd) _ fun _ => rfl
@[simp] theorem State.updPath_port_sw (f : Path → Path) : ((s.updPath p f).port q).sw = (s.port q).sw :=
  s.port_updPort_part p q (·.sw) _ fun _ => rfl
@[simp] theorem State.updPath_port_dc (f : Path → Path) : ((s.updPath p f).port q).dc = (s.port q).dc :=
  s.port_updPort_part p q (·.dc) _ fun _ => rfl
@[simp] theorem State.updPath_port_inService (f : Path → Path) : ((s.updPath p f).port q).inService = (s.port q).inService :=
  s.port_updPort_part p q (·.inService) _ fun _ => rfl
@[simp] theorem State.updPath_port_attachFrame (f : Path → Path) : ((s.updPath p f).port q).attachFrame = (s.port q).attachFrame :=
  s.port_updPort_part p q (·.attachFrame) _ fun _ => rfl
@[simp] theorem State.updPath_port_counters (f : Path → Path) : ((s.updPath p f).port q).counters = (s.port q).counters :=
  s.port_updPort_part p q (·.counters) _ fun _ => rfl
@[simp] theorem State.updPath_port_peerChain (f : Path → Path) : ((s.updPath p f).port q).peerChain = (s.port q).peerChain :=
  s.port_updPort_part p q (·.peerChain) _ fun _ => rfl
@[simp] theorem State.updPath_port_peerDigest (f : Path → Path) : ((s.updPath p f).port q).peerDigest = (s.port q).peerDigest :=
  s.port_updPort_part p q (·.peerDigest) _ fun _ => rfl
theorem State.path_updPath (f : Path → Path) (h : p < s.ports.length) : ((s.updPath p f).port p).path = f (s.port p).path := by
  rw [State.updPath, State.port_updPort s p _ h]
@[simp] theorem State.updPath_ports_length (f : Path → Path) : (s.updPath p f).ports.length = s.ports.length := by
  simp [State.updPath]

@[simp] theorem State.countUp_ports_length (c : PCount) : (s.countUp p c).ports.length = s.ports.length := by
  simp [State.countUp]
@[simp] theorem State.countUp_port_cc (c : PCount) : ((s.countUp p c).port q).cc = (s.port q).cc :=
  s.port_updPort_part p q (·.cc) _ fun _ => rfl
@[simp] theorem State.countUp_port_vc (c : PCount) : ((s.countUp p c).port q).vc = (s.port q).vc :=
  s.port_updPort_part p q (·.vc) _ fun _ => rfl
@[simp] theorem State.countUp_port_pd (c : PCount) : ((s.countUp p c).port q).pd = (s.port q).pd :=
  s.port_updPort_part p q (·.pd) _ fun _ => rfl
@[simp] theorem State.countUp_port_sw (c : PCount) : ((s.countUp p c).port q).sw = (s.port q).sw :=
  s.port_updPort_part p q (·.sw) _ fun _ => rfl
@[simp] theorem State.countUp_port_dc (c : PCount) : ((s.countUp p c).port q).dc = (s.port q).dc :=
  s.port_updPort_part p q (·.dc) _ fun _ => rfl
@[simp] theorem State.countUp_port_path (c : PCount) : ((s.countUp p c).port q).path = (s.port q).path :=
  s.port_updPort_part p q (·.path) _ fun _ => rfl
@[simp] theorem State.countUp_port_inService (c : PCount) : ((s.countUp p c).port q).inService = (s.port q).inService :=
  s.port_updPort_part p q (·.inService) _ fun _ => rfl
@[simp] theorem State.countUp_port_attachFrame (c : PCount) : ((s.countUp p c).port q).attachFrame = (s.port q).attachFrame :=
  s.port_updPort_part p q (·.attachFrame) _ fun _ => rfl
@[simp] theorem State.countUp_port_peerChain (c : PCount) : ((s.countUp p c).port q).peerChain = (s.port q).peerChain :=
  s.port_updPort_part p q (·.peerChain) _ fun _ => rfl
@[simp] theorem State.countUp_port_peerDigest (c : PCount) : ((s.countUp p c).port q).peerDigest = (s.port q).peerDigest :=
  s.port_updPort_part p q (·.peerDigest) _ fun _ => rfl

@[simp] theorem State.vconnOff_ports_length : (s.vconnOff p).ports.length = s.ports.length := by
  unfold State.vconnOff; dsimp only; split <;> simp
@[simp] theorem State.vconnOff_port_cc : ((s.vconnOff p).port q).cc = (s.port q).cc := by
  unfold State.vconnOff; dsimp only; split <;> simp
@[simp] theorem State.vconnOff_port_pd : ((s.vconnOff p).port q).pd = (s.port q).pd := by
  unfold State.vconnOff; dsimp only; split <;> simp
@[simp] theorem State.vconnOff_port_dc : ((s.vconnOff p).port q).dc = (s.port q).dc := by
  unfold State.vconnOff; dsimp only; split <;> simp
@[simp] theorem State.vconnOff_port_path : ((s.vconnOff p).port q).path = (s.port q).path := by
  unfold State.vconnOff; dsimp only; split <;> simp
@[simp] theorem State.vconnOff_port_inService : ((s.vconnOff p).port q).inService = (s.port q).inService := by
  unfold State.vconnOff; dsimp only; split <;> simp
@[simp] theorem State.vconnOff_port_attachFrame : ((s.vconnOff p).port q).attachFrame = (s.port q).attachFrame := by
  unfold State.vconnOff; dsimp only; split <;> simp
@[simp] theorem State.vconnOff_port_counters : ((s.vconnOff p).port q).counters = (s.port q).counters := by
  unfold State.vconnOff; dsimp only; split <;> simp
@[simp] theorem State.vconnOff_port_peerChain : ((s.vconnOff p).port q).peerChain = (s.port q).peerChain := by
  unfold State.vconnOff; dsimp only; split <;> simp
@[simp] theorem State.vconnOff_port_peerDigest : ((s.vconnOff p).port q).peerDigest = (s.port q).peerDigest := by
  unfold State.vconnOff; dsimp only; split <;> simp

@[simp] theorem State.vconnOff_port_sw_kind : ((s.vconnOff p).port q).sw.kind = (s.port q).sw.kind := by
  unfold State.vconnOff; dsimp only; split <;> (try rw [State.updVc_port_sw]) <;> exact s.port_updPort_part p q (fun x => x.sw.kind) _ fun _ => rfl
@[simp] theorem State.vconnOff_port_sw_mine : ((s.vconnOff p).port q).sw.mine = (s.port q).sw.mine := by
  unfold State.vconnOff; dsimp only; split <;> (try rw [State.updVc_port_sw]) <;> exact s.port_updPort_part p q (fun x => x.sw.mine) _ fun _ => rfl
@[simp] theorem State.vconnOff_port_sw_frame : ((s.vconnOff p).port q).sw.frame = (s.port q).sw.frame := by
  unfold State.vconnOff; dsimp only; split <;> (try rw [State.updVc_port_sw]) <;> exact s.port_updPort_part p q (fun x => x.sw.frame) _ fun _ => rfl
@[simp] theorem State.vconnOff_port_sw_step : ((s.vconnOff p).port q).sw.step = (s.port q).sw.step := by
  unfold State.vconnOff; dsimp only; split <;> (try rw [State.updVc_port_sw]) <;> exact s.port_updPort_part p q (fun x => x.sw.step) _ fun _ => rfl
@[simp] theorem State.vconnOff_port_sw_lastKind : ((s.vconnOff p).port q).sw.lastKind = (s.port q).sw.lastKind := by
  unfold State.vconnOff; dsimp only; split <;> (try rw [State.updVc_port_sw]) <;> exact s.port_updPort_part p q (fun x => x.sw.lastKind) _ fun _ => rfl
@[simp] theorem State.vconnOff_port_sw_lastResult : ((s.vconnOff p).port q).sw.lastResult = (s.port q).sw.lastResult := by
  unfold State.vconnOff; dsimp only; split <;> (try rw [State.updVc_port_sw]) <;> exact s.port_updPort_part p q (fun x => x.sw.lastResult) _ fun _ => rfl
@[simp] theorem State.vconnOff_port_sw_prSupp : ((s.vconnOff p).port q).sw.prSupp = (s.port q).sw.prSupp := by
  unfold State.vconnOff; dsimp only; split <;> (try rw [State.updVc_port_sw]) <;> exact s.port_updPort_part p q (fun x => x.sw.prSupp) _ fun _ => rfl
@[simp] theorem State.vconnOff_port_sw_drSupp : ((s.vconnOff p).port q).sw.drSupp = (s.port q).sw.drSupp := by
  unfold State.vconnOff; dsimp only; split <;> (try rw [State.updVc_port_sw]) <;> exact s.port_updPort_part p q (fun x => x.sw.drSupp) _ fun _ => rfl
@[simp] theorem State.vconnOff_port_sw_vcSupp : ((s.vconnOff p).port q).sw.vcSupp = (s.port q).sw.vcSupp := by
  unfold State.vconnOff; dsimp only; split <;> (try rw [State.updVc_port_sw]) <;> exact s.port_updPort_part p q (fun x => x.sw.vcSupp) _ fun _ => rfl
@[simp] theorem State.vconnOff_port_sw_failed : ((s.vconnOff p).port q).sw.failed = (s.port q).sw.failed := by
  unfold State.vconnOff; dsimp only; split <;> (try rw [State.updVc_port_sw]) <;> exact s.port_updPort_part p q (fun x => x.sw.failed) _ fun _ => rfl
@[simp] theorem State.vconnOff_port_sw_source : ((s.vconnOff p).port q).sw.source = (s.port q).sw.source := by
  unfold State.vconnOff; dsimp only; split <;> (try rw [State.updVc_port_sw]) <;> exact s.port_updPort_part p q (fun x => x.sw.source) _ fun _ => rfl
@[simp] theorem State.vconnOff_port_sw_dfp : ((s.vconnOff p).port q).sw.dfp = (s.port q).sw.dfp := by
  unfold State.vconnOff; dsimp only; split <;> (try rw [State.updVc_port_sw]) <;> exact s.port_updPort_part p q (fun x => x.sw.dfp) _ fun _ => rfl
@[simp] theorem State.vconnOff_port_sw_attSource : ((s.vconnOff p).port q).sw.attSource = (s.port q).sw.attSource := by
  unfold State.vconnOff; dsimp only; split <;> (try rw [State.updVc_port_sw]) <;> exact s.port_updPort_part p q (fun x => x.sw.attSource) _ fun _ => rfl
@[simp] theorem State.vconnOff_port_sw_attDfp : ((s.vconnOff p).port q).sw.attDfp = (s.port q).sw.attDfp := by
  unfold State.vconnOff; dsimp only; split <;> (try rw [State.updVc_port_sw]) <;> exact s.port_updPort_part p q (fun x => x.sw.attDfp) _ fun _ => rfl
@[simp] theorem State.vconnOff_port_sw_attVconn : ((s.vconnOff p).port q).sw.attVconn = (s.port q).sw.attVconn := by
  unfold State.vconnOff; dsimp only; split <;> (try rw [State.updVc_port_sw]) <;> exact s.port_updPort_part p q (fun x => x.sw.attVconn) _ fun _ => rfl
@[simp] theorem State.vconnOff_port_sw_prFails : ((s.vconnOff p).port q).sw.prFails = (s.port q).sw.prFails := by
  unfold State.vconnOff; dsimp only; split <;> (try rw [State.updVc_port_sw]) <;> exact s.port_updPort_part p q (fun x => x.sw.prFails) _ fun _ => rfl
@[simp] theorem State.vconnOff_port_sw_vcSent : ((s.vconnOff p).port q).sw.vcSent = (s.port q).sw.vcSent := by
  unfold State.vconnOff; dsimp only; split <;> (try rw [State.updVc_port_sw]) <;> exact s.port_updPort_part p q (fun x => x.sw.vcSent) _ fun _ => rfl
@[simp] theorem State.vconnOff_port_sw_drExit : ((s.vconnOff p).port q).sw.drExit = (s.port q).sw.drExit := by
  unfold State.vconnOff; dsimp only; split <;> (try rw [State.updVc_port_sw]) <;> exact s.port_updPort_part p q (fun x => x.sw.drExit) _ fun _ => rfl
@[simp] theorem State.vconnOff_port_sw_drDue : ((s.vconnOff p).port q).sw.drDue = (s.port q).sw.drDue := by
  unfold State.vconnOff; dsimp only; split <;> (try rw [State.updVc_port_sw]) <;> exact s.port_updPort_part p q (fun x => x.sw.drDue) _ fun _ => rfl
@[simp] theorem State.vconnOff_port_sw_vconnBack : ((s.vconnOff p).port q).sw.vconnBack = (s.port q).sw.vconnBack := by
  unfold State.vconnOff; dsimp only; split <;> (try rw [State.updVc_port_sw]) <;> exact s.port_updPort_part p q (fun x => x.sw.vconnBack) _ fun _ => rfl
@[simp] theorem State.vconnOn_ports_length : (s.vconnOn p).ports.length = s.ports.length := by
  unfold State.vconnOn; split <;> simp
@[simp] theorem State.vconnOn_port_cc : ((s.vconnOn p).port q).cc = (s.port q).cc := by
  unfold State.vconnOn; split <;> simp
@[simp] theorem State.vconnOn_port_pd : ((s.vconnOn p).port q).pd = (s.port q).pd := by
  unfold State.vconnOn; split <;> simp
@[simp] theorem State.vconnOn_port_sw : ((s.vconnOn p).port q).sw = (s.port q).sw := by
  unfold State.vconnOn; split <;> simp
@[simp] theorem State.vconnOn_port_dc : ((s.vconnOn p).port q).dc = (s.port q).dc := by
  unfold State.vconnOn; split <;> simp
@[simp] theorem State.vconnOn_port_path : ((s.vconnOn p).port q).path = (s.port q).path := by
  unfold State.vconnOn; split <;> simp
@[simp] theorem State.vconnOn_port_inService : ((s.vconnOn p).port q).inService = (s.port q).inService := by
  unfold State.vconnOn; split <;> simp
@[simp] theorem State.vconnOn_port_attachFrame : ((s.vconnOn p).port q).attachFrame = (s.port q).attachFrame := by
  unfold State.vconnOn; split <;> simp
@[simp] theorem State.vconnOn_port_counters : ((s.vconnOn p).port q).counters = (s.port q).counters := by
  unfold State.vconnOn; split <;> simp
@[simp] theorem State.vconnOn_port_peerChain : ((s.vconnOn p).port q).peerChain = (s.port q).peerChain := by
  unfold State.vconnOn; split <;> simp
@[simp] theorem State.vconnOn_port_peerDigest : ((s.vconnOn p).port q).peerDigest = (s.port q).peerDigest := by
  unfold State.vconnOn; split <;> simp

@[simp] theorem State.returnNode_ports_length (k v : Nat) : (s.returnNode p k v).ports.length = s.ports.length := by
  unfold State.returnNode; split <;> simp
@[simp] theorem State.returnNode_port_cc (k v : Nat) : ((s.returnNode p k v).port q).cc = (s.port q).cc := by
  unfold State.returnNode; split <;> simp
@[simp] theorem State.returnNode_port_vc (k v : Nat) : ((s.returnNode p k v).port q).vc = (s.port q).vc := by
  unfold State.returnNode; split <;> simp
@[simp] theorem State.returnNode_port_pd (k v : Nat) : ((s.returnNode p k v).port q).pd = (s.port q).pd := by
  unfold State.returnNode; split <;> simp
@[simp] theorem State.returnNode_port_sw (k v : Nat) : ((s.returnNode p k v).port q).sw = (s.port q).sw := by
  unfold State.returnNode; split <;> simp
@[simp] theorem State.returnNode_port_dc (k v : Nat) : ((s.returnNode p k v).port q).dc = (s.port q).dc := by
  unfold State.returnNode; split <;> simp
@[simp] theorem State.returnNode_port_inService (k v : Nat) : ((s.returnNode p k v).port q).inService = (s.port q).inService := by
  unfold State.returnNode; split <;> simp
@[simp] theorem State.returnNode_port_attachFrame (k v : Nat) : ((s.returnNode p k v).port q).attachFrame = (s.port q).attachFrame := by
  unfold State.returnNode; split <;> simp
@[simp] theorem State.returnNode_port_counters (k v : Nat) : ((s.returnNode p k v).port q).counters = (s.port q).counters := by
  unfold State.returnNode; split <;> simp
@[simp] theorem State.returnNode_port_peerChain (k v : Nat) : ((s.returnNode p k v).port q).peerChain = (s.port q).peerChain := by
  unfold State.returnNode; split <;> simp
@[simp] theorem State.returnNode_port_peerDigest (k v : Nat) : ((s.returnNode p k v).port q).peerDigest = (s.port q).peerDigest := by
  unfold State.returnNode; split <;> simp

@[simp] theorem State.returnNode_port_path_swOn (k v : Nat) : ((s.returnNode p k v).port q).path.swOn = (s.port q).path.swOn := by
  unfold State.returnNode; split
  · exact s.port_updPath_part p q Path.swOn _ fun _ => rfl
  · rfl
@[simp] theorem State.returnNode_port_path_closing (k v : Nat) : ((s.returnNode p k v).port q).path.closing = (s.port q).path.closing := by
  unfold State.returnNode; split
  · exact s.port_updPath_part p q Path.closing _ fun _ => rfl
  · rfl
@[simp] theorem State.returnNode_port_path_closePaces (k v : Nat) : ((s.returnNode p k v).port q).path.closePaces = (s.port q).path.closePaces := by
  unfold State.returnNode; split
  · exact s.port_updPath_part p q Path.closePaces _ fun _ => rfl
  · rfl
@[simp] theorem State.returnNode_port_path_fullyOn (k v : Nat) : ((s.returnNode p k v).port q).path.fullyOn = (s.port q).path.fullyOn := by
  unfold State.returnNode; split
  · exact s.port_updPath_part p q Path.fullyOn _ fun _ => rfl
  · rfl
@[simp] theorem State.returnNode_port_path_ppg (k v : Nat) : ((s.returnNode p k v).port q).path.ppg = (s.port q).path.ppg := by
  unfold State.returnNode; split
  · exact s.port_updPath_part p q Path.ppg _ fun _ => rfl
  · rfl
@[simp] theorem State.returnNode_port_path_ppgFrom (k v : Nat) : ((s.returnNode p k v).port q).path.ppgFrom = (s.port q).path.ppgFrom := by
  unfold State.returnNode; split
  · exact s.port_updPath_part p q Path.ppgFrom _ fun _ => rfl
  · rfl
@[simp] theorem State.returnNode_port_path_ilimAct (k v : Nat) : ((s.returnNode p k v).port q).path.ilimAct = (s.port q).path.ilimAct := by
  unfold State.returnNode; split
  · exact s.port_updPath_part p q Path.ilimAct _ fun _ => rfl
  · rfl
@[simp] theorem State.returnNode_port_path_timer (k v : Nat) : ((s.returnNode p k v).port q).path.timer = (s.port q).path.timer := by
  unfold State.returnNode; split
  · exact s.port_updPath_part p q Path.timer _ fun _ => rfl
  · rfl
@[simp] theorem State.returnNode_port_path_timerOff (k v : Nat) : ((s.returnNode p k v).port q).path.timerOff = (s.port q).path.timerOff := by
  unfold State.returnNode; split
  · exact s.port_updPath_part p q Path.timerOff _ fun _ => rfl
  · rfl
@[simp] theorem State.returnNode_port_path_ovRun (k v : Nat) : ((s.returnNode p k v).port q).path.ovRun = (s.port q).path.ovRun := by
  unfold State.returnNode; split
  · exact s.port_updPath_part p q Path.ovRun _ fun _ => rfl
  · rfl
@[simp] theorem State.returnNode_port_path_trips (k v : Nat) : ((s.returnNode p k v).port q).path.trips = (s.port q).path.trips := by
  unfold State.returnNode; split
  · exact s.port_updPath_part p q Path.trips _ fun _ => rfl
  · rfl
@[simp] theorem State.returnNode_port_path_lastTrip (k v : Nat) : ((s.returnNode p k v).port q).path.lastTrip = (s.port q).path.lastTrip := by
  unfold State.returnNode; split
  · exact s.port_updPath_part p q Path.lastTrip _ fun _ => rfl
  · rfl
@[simp] theorem State.returnNode_port_path_latched (k v : Nat) : ((s.returnNode p k v).port q).path.latched = (s.port q).path.latched := by
  unfold State.returnNode; split
  · exact s.port_updPath_part p q Path.latched _ fun _ => rfl
  · rfl
@[simp] theorem State.returnNode_port_path_calx (k v : Nat) : ((s.returnNode p k v).port q).path.calx = (s.port q).path.calx := by
  unfold State.returnNode; split
  · exact s.port_updPath_part p q Path.calx _ fun _ => rfl
  · rfl
@[simp] theorem State.returnNode_port_path_calxI (k v : Nat) : ((s.returnNode p k v).port q).path.calxI = (s.port q).path.calxI := by
  unfold State.returnNode; split
  · exact s.port_updPath_part p q Path.calxI _ fun _ => rfl
  · rfl
@[simp] theorem State.returnNode_port_path_calxV (k v : Nat) : ((s.returnNode p k v).port q).path.calxV = (s.port q).path.calxV := by
  unfold State.returnNode; split
  · exact s.port_updPath_part p q Path.calxV _ fun _ => rfl
  · rfl
@[simp] theorem State.returnNode_port_path_vsrc (k v : Nat) : ((s.returnNode p k v).port q).path.vsrc = (s.port q).path.vsrc := by
  unfold State.returnNode; split
  · exact s.port_updPath_part p q Path.vsrc _ fun _ => rfl
  · rfl
@[simp] theorem State.returnNode_port_path_swThis (k v : Nat) : ((s.returnNode p k v).port q).path.swThis = (s.port q).path.swThis := by
  unfold State.returnNode; split
  · exact s.port_updPath_part p q Path.swThis _ fun _ => rfl
  · rfl
@[simp] theorem State.returnNode_port_path_detach (k v : Nat) : ((s.returnNode p k v).port q).path.detach = (s.port q).path.detach := by
  unfold State.returnNode; split
  · exact s.port_updPath_part p q Path.detach _ fun _ => rfl
  · rfl
@[simp] theorem State.returnNode_port_path_itgt (k v : Nat) : ((s.returnNode p k v).port q).path.itgt = (s.port q).path.itgt := by
  unfold State.returnNode; split
  · exact s.port_updPath_part p q Path.itgt _ fun _ => rfl
  · rfl
@[simp] theorem State.returnNode_port_path_ref (k v : Nat) : ((s.returnNode p k v).port q).path.ref = (s.port q).path.ref := by
  unfold State.returnNode; split
  · exact s.port_updPath_part p q Path.ref _ fun _ => rfl
  · rfl
@[simp] theorem State.returnNode_port_path_iref (k v : Nat) : ((s.returnNode p k v).port q).path.iref = (s.port q).path.iref := by
  unfold State.returnNode; split
  · exact s.port_updPath_part p q Path.iref _ fun _ => rfl
  · rfl
@[simp] theorem State.returnNode_port_path_shed (k v : Nat) : ((s.returnNode p k v).port q).path.shed = (s.port q).path.shed := by
  unfold State.returnNode; split
  · exact s.port_updPath_part p q Path.shed _ fun _ => rfl
  · rfl
@[simp] theorem State.returnNode_port_path_backstop (k v : Nat) : ((s.returnNode p k v).port q).path.backstop = (s.port q).path.backstop := by
  unfold State.returnNode; split
  · exact s.port_updPath_part p q Path.backstop _ fun _ => rfl
  · rfl
@[simp] theorem State.returnNode_port_path_flt (k v : Nat) : ((s.returnNode p k v).port q).path.flt = (s.port q).path.flt := by
  unfold State.returnNode; split
  · exact s.port_updPath_part p q Path.flt _ fun _ => rfl
  · rfl
@[simp] theorem State.returnNode_port_path_vAvg (k v : Nat) : ((s.returnNode p k v).port q).path.vAvg = (s.port q).path.vAvg := by
  unfold State.returnNode; split
  · exact s.port_updPath_part p q Path.vAvg _ fun _ => rfl
  · rfl
@[simp] theorem State.returnNode_port_path_vMin (k v : Nat) : ((s.returnNode p k v).port q).path.vMin = (s.port q).path.vMin := by
  unfold State.returnNode; split
  · exact s.port_updPath_part p q Path.vMin _ fun _ => rfl
  · rfl
@[simp] theorem State.returnNode_port_path_vMax (k v : Nat) : ((s.returnNode p k v).port q).path.vMax = (s.port q).path.vMax := by
  unfold State.returnNode; split
  · exact s.port_updPath_part p q Path.vMax _ fun _ => rfl
  · rfl
@[simp] theorem State.returnNode_port_path_iAvg (k v : Nat) : ((s.returnNode p k v).port q).path.iAvg = (s.port q).path.iAvg := by
  unfold State.returnNode; split
  · exact s.port_updPath_part p q Path.iAvg _ fun _ => rfl
  · rfl
@[simp] theorem State.returnNode_port_path_iPeak (k v : Nat) : ((s.returnNode p k v).port q).path.iPeak = (s.port q).path.iPeak := by
  unfold State.returnNode; split
  · exact s.port_updPath_part p q Path.iPeak _ fun _ => rfl
  · rfl
@[simp] theorem State.returnNode_port_path_n (k v : Nat) : ((s.returnNode p k v).port q).path.n = (s.port q).path.n := by
  unfold State.returnNode; split
  · exact s.port_updPath_part p q Path.n _ fun _ => rfl
  · rfl
@[simp] theorem State.returnNode_port_path_vSum (k v : Nat) : ((s.returnNode p k v).port q).path.vSum = (s.port q).path.vSum := by
  unfold State.returnNode; split
  · exact s.port_updPath_part p q Path.vSum _ fun _ => rfl
  · rfl
@[simp] theorem State.returnNode_port_path_vLo (k v : Nat) : ((s.returnNode p k v).port q).path.vLo = (s.port q).path.vLo := by
  unfold State.returnNode; split
  · exact s.port_updPath_part p q Path.vLo _ fun _ => rfl
  · rfl
@[simp] theorem State.returnNode_port_path_vHi (k v : Nat) : ((s.returnNode p k v).port q).path.vHi = (s.port q).path.vHi := by
  unfold State.returnNode; split
  · exact s.port_updPath_part p q Path.vHi _ fun _ => rfl
  · rfl
@[simp] theorem State.returnNode_port_path_iSum (k v : Nat) : ((s.returnNode p k v).port q).path.iSum = (s.port q).path.iSum := by
  unfold State.returnNode; split
  · exact s.port_updPath_part p q Path.iSum _ fun _ => rfl
  · rfl
@[simp] theorem State.returnNode_port_path_iExt (k v : Nat) : ((s.returnNode p k v).port q).path.iExt = (s.port q).path.iExt := by
  unfold State.returnNode; split
  · exact s.port_updPath_part p q Path.iExt _ fun _ => rfl
  · rfl
@[simp] theorem State.returnNode_port_path_pSum (k v : Nat) : ((s.returnNode p k v).port q).path.pSum = (s.port q).path.pSum := by
  unfold State.returnNode; split
  · exact s.port_updPath_part p q Path.pSum _ fun _ => rfl
  · rfl
@[simp] theorem State.returnNode_port_path_fvAvg (k v : Nat) : ((s.returnNode p k v).port q).path.fvAvg = (s.port q).path.fvAvg := by
  unfold State.returnNode; split
  · exact s.port_updPath_part p q Path.fvAvg _ fun _ => rfl
  · rfl
@[simp] theorem State.returnNode_port_path_fvMin (k v : Nat) : ((s.returnNode p k v).port q).path.fvMin = (s.port q).path.fvMin := by
  unfold State.returnNode; split
  · exact s.port_updPath_part p q Path.fvMin _ fun _ => rfl
  · rfl
@[simp] theorem State.returnNode_port_path_fvMax (k v : Nat) : ((s.returnNode p k v).port q).path.fvMax = (s.port q).path.fvMax := by
  unfold State.returnNode; split
  · exact s.port_updPath_part p q Path.fvMax _ fun _ => rfl
  · rfl
@[simp] theorem State.returnNode_port_path_fiAvg (k v : Nat) : ((s.returnNode p k v).port q).path.fiAvg = (s.port q).path.fiAvg := by
  unfold State.returnNode; split
  · exact s.port_updPath_part p q Path.fiAvg _ fun _ => rfl
  · rfl
@[simp] theorem State.returnNode_port_path_fiPeak (k v : Nat) : ((s.returnNode p k v).port q).path.fiPeak = (s.port q).path.fiPeak := by
  unfold State.returnNode; split
  · exact s.port_updPath_part p q Path.fiPeak _ fun _ => rfl
  · rfl
@[simp] theorem State.returnNode_port_path_fpAvg (k v : Nat) : ((s.returnNode p k v).port q).path.fpAvg = (s.port q).path.fpAvg := by
  unfold State.returnNode; split
  · exact s.port_updPath_part p q Path.fpAvg _ fun _ => rfl
  · rfl
@[simp] theorem State.returnNode_port_path_eOut8 (k v : Nat) : ((s.returnNode p k v).port q).path.eOut8 = (s.port q).path.eOut8 := by
  unfold State.returnNode; split
  · exact s.port_updPath_part p q Path.eOut8 _ fun _ => rfl
  · rfl
@[simp] theorem State.returnNode_port_path_retSum (k v : Nat) : ((s.returnNode p k v).port q).path.retSum = (s.port q).path.retSum := by
  unfold State.returnNode; split
  · exact s.port_updPath_part p q Path.retSum _ fun _ => rfl
  · rfl
@[simp] theorem State.returnNode_port_path_eRet (k v : Nat) : ((s.returnNode p k v).port q).path.eRet = (s.port q).path.eRet := by
  unfold State.returnNode; split
  · exact s.port_updPath_part p q Path.eRet _ fun _ => rfl
  · rfl
@[simp] theorem State.returnNode_port_path_vRunOfs (k v : Nat) : ((s.returnNode p k v).port q).path.vRunOfs = (s.port q).path.vRunOfs := by
  unfold State.returnNode; split
  · exact s.port_updPath_part p q Path.vRunOfs _ fun _ => rfl
  · rfl
@[simp] theorem State.returnNode_port_path_iRunOfs (k v : Nat) : ((s.returnNode p k v).port q).path.iRunOfs = (s.port q).path.iRunOfs := by
  unfold State.returnNode; split
  · exact s.port_updPath_part p q Path.iRunOfs _ fun _ => rfl
  · rfl
@[simp] theorem State.returnNode_port_path_vOfsSum (k v : Nat) : ((s.returnNode p k v).port q).path.vOfsSum = (s.port q).path.vOfsSum := by
  unfold State.returnNode; split
  · exact s.port_updPath_part p q Path.vOfsSum _ fun _ => rfl
  · rfl
@[simp] theorem State.returnNode_port_path_iOfsSum (k v : Nat) : ((s.returnNode p k v).port q).path.iOfsSum = (s.port q).path.iOfsSum := by
  unfold State.returnNode; split
  · exact s.port_updPath_part p q Path.iOfsSum _ fun _ => rfl
  · rfl
@[simp] theorem State.returnNode_port_path_ofsN (k v : Nat) : ((s.returnNode p k v).port q).path.ofsN = (s.port q).path.ofsN := by
  unfold State.returnNode; split
  · exact s.port_updPath_part p q Path.ofsN _ fun _ => rfl
  · rfl
@[simp] theorem State.returnNode_port_path_est (k v : Nat) : ((s.returnNode p k v).port q).path.est = (s.port q).path.est := by
  unfold State.returnNode; split
  · exact s.port_updPath_part p q Path.est _ fun _ => rfl
  · rfl
@[simp] theorem State.returnNode_port_path_recalPaces (k v : Nat) : ((s.returnNode p k v).port q).path.recalPaces = (s.port q).path.recalPaces := by
  unfold State.returnNode; split
  · exact s.port_updPath_part p q Path.recalPaces _ fun _ => rfl
  · rfl
@[simp] theorem State.returnNode_port_path_recalV (k v : Nat) : ((s.returnNode p k v).port q).path.recalV = (s.port q).path.recalV := by
  unfold State.returnNode; split
  · exact s.port_updPath_part p q Path.recalV _ fun _ => rfl
  · rfl
@[simp] theorem State.returnNode_port_path_recalVn (k v : Nat) : ((s.returnNode p k v).port q).path.recalVn = (s.port q).path.recalVn := by
  unfold State.returnNode; split
  · exact s.port_updPath_part p q Path.recalVn _ fun _ => rfl
  · rfl
@[simp] theorem State.returnNode_port_path_recalI (k v : Nat) : ((s.returnNode p k v).port q).path.recalI = (s.port q).path.recalI := by
  unfold State.returnNode; split
  · exact s.port_updPath_part p q Path.recalI _ fun _ => rfl
  · rfl
@[simp] theorem State.returnNode_port_path_recalIn (k v : Nat) : ((s.returnNode p k v).port q).path.recalIn = (s.port q).path.recalIn := by
  unfold State.returnNode; split
  · exact s.port_updPath_part p q Path.recalIn _ fun _ => rfl
  · rfl
@[simp] theorem State.modeEnd_ports_length (c : Nat) : (s.modeEnd p c).ports.length = s.ports.length := by
  unfold State.modeEnd; split <;> simp
@[simp] theorem State.modeEnd_port_cc (c : Nat) : ((s.modeEnd p c).port q).cc = (s.port q).cc := by
  unfold State.modeEnd; split <;> simp
@[simp] theorem State.modeEnd_port_vc (c : Nat) : ((s.modeEnd p c).port q).vc = (s.port q).vc := by
  unfold State.modeEnd; split <;> simp
@[simp] theorem State.modeEnd_port_pd (c : Nat) : ((s.modeEnd p c).port q).pd = (s.port q).pd := by
  unfold State.modeEnd; split <;> simp
@[simp] theorem State.modeEnd_port_sw (c : Nat) : ((s.modeEnd p c).port q).sw = (s.port q).sw := by
  unfold State.modeEnd; split <;> simp
@[simp] theorem State.modeEnd_port_path (c : Nat) : ((s.modeEnd p c).port q).path = (s.port q).path := by
  unfold State.modeEnd; split <;> simp
@[simp] theorem State.modeEnd_port_inService (c : Nat) : ((s.modeEnd p c).port q).inService = (s.port q).inService := by
  unfold State.modeEnd; split <;> simp
@[simp] theorem State.modeEnd_port_attachFrame (c : Nat) : ((s.modeEnd p c).port q).attachFrame = (s.port q).attachFrame := by
  unfold State.modeEnd; split <;> simp
@[simp] theorem State.modeEnd_port_counters (c : Nat) : ((s.modeEnd p c).port q).counters = (s.port q).counters := by
  unfold State.modeEnd; split <;> simp
@[simp] theorem State.modeEnd_port_peerChain (c : Nat) : ((s.modeEnd p c).port q).peerChain = (s.port q).peerChain := by
  unfold State.modeEnd; split <;> simp
@[simp] theorem State.modeEnd_port_peerDigest (c : Nat) : ((s.modeEnd p c).port q).peerDigest = (s.port q).peerDigest := by
  unfold State.modeEnd; split <;> simp

@[simp] theorem State.discEnd_ports_length (c : Nat) : (s.discEnd p c).ports.length = s.ports.length := by
  unfold State.discEnd; split <;> simp
@[simp] theorem State.discEnd_port_cc (c : Nat) : ((s.discEnd p c).port q).cc = (s.port q).cc := by
  unfold State.discEnd; split <;> simp
@[simp] theorem State.discEnd_port_vc (c : Nat) : ((s.discEnd p c).port q).vc = (s.port q).vc := by
  unfold State.discEnd; split <;> simp
@[simp] theorem State.discEnd_port_pd (c : Nat) : ((s.discEnd p c).port q).pd = (s.port q).pd := by
  unfold State.discEnd; split <;> simp
@[simp] theorem State.discEnd_port_sw (c : Nat) : ((s.discEnd p c).port q).sw = (s.port q).sw := by
  unfold State.discEnd; split <;> simp
@[simp] theorem State.discEnd_port_path (c : Nat) : ((s.discEnd p c).port q).path = (s.port q).path := by
  unfold State.discEnd; split <;> simp
@[simp] theorem State.discEnd_port_inService (c : Nat) : ((s.discEnd p c).port q).inService = (s.port q).inService := by
  unfold State.discEnd; split <;> simp
@[simp] theorem State.discEnd_port_attachFrame (c : Nat) : ((s.discEnd p c).port q).attachFrame = (s.port q).attachFrame := by
  unfold State.discEnd; split <;> simp
@[simp] theorem State.discEnd_port_counters (c : Nat) : ((s.discEnd p c).port q).counters = (s.port q).counters := by
  unfold State.discEnd; split <;> simp
@[simp] theorem State.discEnd_port_peerChain (c : Nat) : ((s.discEnd p c).port q).peerChain = (s.port q).peerChain := by
  unfold State.discEnd; split <;> simp
@[simp] theorem State.discEnd_port_peerDigest (c : Nat) : ((s.discEnd p c).port q).peerDigest = (s.port q).peerDigest := by
  unfold State.discEnd; split <;> simp

@[simp] theorem State.sessionEnd_port (c : Nat) : (s.sessionEnd c).port q = s.port q := by
  unfold State.sessionEnd; dsimp only; (repeat' split) <;> rfl
@[simp] theorem State.sessionEndOn_port (c : Nat) : (s.sessionEndOn p c).port q = s.port q := by
  unfold State.sessionEndOn; split <;> simp
@[simp] theorem State.sessionEnd_ports_length (c : Nat) : (s.sessionEnd c).ports.length = s.ports.length := by
  unfold State.sessionEnd; dsimp only; (repeat' split) <;> rfl
@[simp] theorem State.sessionEndOn_ports_length (c : Nat) : (s.sessionEndOn p c).ports.length = s.ports.length := by
  unfold State.sessionEndOn; split <;> simp
@[simp] theorem State.failWaits_port : (s.failWaits p).port q = s.port q := by
  unfold State.failWaits; dsimp only; split
  · exact (by simp : (((((s.finishWait _ _ _).finishWait _ _ _).finishWait _ _ _).finishWait _ _ _).finishWait _ _ _).port q = s.port q)
  · simp
@[simp] theorem State.failWaits_ports_length : (s.failWaits p).ports.length = s.ports.length := by
  unfold State.failWaits; dsimp only; split <;> simp

@[simp] theorem State.setDfp_ports_length (b : Bool) : (s.setDfp p b).ports.length = s.ports.length := by
  unfold State.setDfp; dsimp only; split <;> simp
@[simp] theorem State.setDfp_port_cc (b : Bool) : ((s.setDfp p b).port q).cc = (s.port q).cc := by
  unfold State.setDfp; dsimp only; split <;> simp
@[simp] theorem State.setDfp_port_vc (b : Bool) : ((s.setDfp p b).port q).vc = (s.port q).vc := by
  unfold State.setDfp; dsimp only; split <;> simp
@[simp] theorem State.setDfp_port_pd (b : Bool) : ((s.setDfp p b).port q).pd = (s.port q).pd := by
  unfold State.setDfp; dsimp only; split <;> simp
@[simp] theorem State.setDfp_port_dc (b : Bool) : ((s.setDfp p b).port q).dc = (s.port q).dc := by
  unfold State.setDfp; dsimp only; split <;> simp
@[simp] theorem State.setDfp_port_path (b : Bool) : ((s.setDfp p b).port q).path = (s.port q).path := by
  unfold State.setDfp; dsimp only; split <;> simp
@[simp] theorem State.setDfp_port_inService (b : Bool) : ((s.setDfp p b).port q).inService = (s.port q).inService := by
  unfold State.setDfp; dsimp only; split <;> simp
@[simp] theorem State.setDfp_port_attachFrame (b : Bool) : ((s.setDfp p b).port q).attachFrame = (s.port q).attachFrame := by
  unfold State.setDfp; dsimp only; split <;> simp
@[simp] theorem State.setDfp_port_counters (b : Bool) : ((s.setDfp p b).port q).counters = (s.port q).counters := by
  unfold State.setDfp; dsimp only; split <;> simp
@[simp] theorem State.setDfp_port_peerChain (b : Bool) : ((s.setDfp p b).port q).peerChain = (s.port q).peerChain := by
  unfold State.setDfp; dsimp only; split <;> simp
@[simp] theorem State.setDfp_port_peerDigest (b : Bool) : ((s.setDfp p b).port q).peerDigest = (s.port q).peerDigest := by
  unfold State.setDfp; dsimp only; split <;> simp

@[simp] theorem State.swapDone_ports_length : (s.swapDone p).ports.length = s.ports.length := by
  unfold State.swapDone; dsimp only; split <;> simp
@[simp] theorem State.swapDone_port_cc : ((s.swapDone p).port q).cc = (s.port q).cc := by
  unfold State.swapDone; dsimp only; split <;> simp
@[simp] theorem State.swapDone_port_vc : ((s.swapDone p).port q).vc = (s.port q).vc := by
  unfold State.swapDone; dsimp only; split <;> simp
@[simp] theorem State.swapDone_port_pd : ((s.swapDone p).port q).pd = (s.port q).pd := by
  unfold State.swapDone; dsimp only; split <;> simp
@[simp] theorem State.swapDone_port_dc : ((s.swapDone p).port q).dc = (s.port q).dc := by
  unfold State.swapDone; dsimp only; split <;> simp
@[simp] theorem State.swapDone_port_path : ((s.swapDone p).port q).path = (s.port q).path := by
  unfold State.swapDone; dsimp only; split <;> simp
@[simp] theorem State.swapDone_port_inService : ((s.swapDone p).port q).inService = (s.port q).inService := by
  unfold State.swapDone; dsimp only; split <;> simp
@[simp] theorem State.swapDone_port_attachFrame : ((s.swapDone p).port q).attachFrame = (s.port q).attachFrame := by
  unfold State.swapDone; dsimp only; split <;> simp
@[simp] theorem State.swapDone_port_counters : ((s.swapDone p).port q).counters = (s.port q).counters := by
  unfold State.swapDone; dsimp only; split <;> simp
@[simp] theorem State.swapDone_port_peerChain : ((s.swapDone p).port q).peerChain = (s.port q).peerChain := by
  unfold State.swapDone; dsimp only; split <;> simp
@[simp] theorem State.swapDone_port_peerDigest : ((s.swapDone p).port q).peerDigest = (s.port q).peerDigest := by
  unfold State.swapDone; dsimp only; split <;> simp

@[simp] theorem State.swapEnds_ports_length (r : Nat) (b : Bool) : (s.swapEnds p r b).ports.length = s.ports.length := by
  unfold State.swapEnds; dsimp only; cases b <;> split <;> simp
@[simp] theorem State.swapEnds_port_vc (r : Nat) (b : Bool) : ((s.swapEnds p r b).port q).vc = (s.port q).vc := by
  unfold State.swapEnds; dsimp only; cases b <;> split <;> simp
@[simp] theorem State.swapEnds_port_pd (r : Nat) (b : Bool) : ((s.swapEnds p r b).port q).pd = (s.port q).pd := by
  unfold State.swapEnds; dsimp only; cases b <;> split <;> simp
@[simp] theorem State.swapEnds_port_dc (r : Nat) (b : Bool) : ((s.swapEnds p r b).port q).dc = (s.port q).dc := by
  unfold State.swapEnds; dsimp only; cases b <;> split <;> simp
@[simp] theorem State.swapEnds_port_path (r : Nat) (b : Bool) : ((s.swapEnds p r b).port q).path = (s.port q).path := by
  unfold State.swapEnds; dsimp only; cases b <;> split <;> simp
@[simp] theorem State.swapEnds_port_inService (r : Nat) (b : Bool) : ((s.swapEnds p r b).port q).inService = (s.port q).inService := by
  unfold State.swapEnds; dsimp only; cases b <;> split <;> simp
@[simp] theorem State.swapEnds_port_attachFrame (r : Nat) (b : Bool) : ((s.swapEnds p r b).port q).attachFrame = (s.port q).attachFrame := by
  unfold State.swapEnds; dsimp only; cases b <;> split <;> simp
@[simp] theorem State.swapEnds_port_peerChain (r : Nat) (b : Bool) : ((s.swapEnds p r b).port q).peerChain = (s.port q).peerChain := by
  unfold State.swapEnds; dsimp only; cases b <;> split <;> simp
@[simp] theorem State.swapEnds_port_peerDigest (r : Nat) (b : Bool) : ((s.swapEnds p r b).port q).peerDigest = (s.port q).peerDigest := by
  unfold State.swapEnds; dsimp only; cases b <;> split <;> simp

@[simp] theorem State.swapEnds_port_cc_st (r : Nat) (b : Bool) : ((s.swapEnds p r b).port q).cc.st = (s.port q).cc.st := by
  unfold State.swapEnds; dsimp only; split
  · rw [State.updSw_port_cc]
  · cases b <;> simp only [State.finishWait_port, State.pushEvent_port, State.countUp_port_cc, if_true, Bool.false_eq_true, if_false] <;>
      (refine (State.port_updCc_part _ p q CcLayer.st _ ?_).trans ?_ <;> [(intro _; rfl); rw [State.updSw_port_cc]])
@[simp] theorem State.swapEnds_port_cc_disabledBy (r : Nat) (b : Bool) : ((s.swapEnds p r b).port q).cc.disabledBy = (s.port q).cc.disabledBy := by
  unfold State.swapEnds; dsimp only; split
  · rw [State.updSw_port_cc]
  · cases b <;> simp only [State.finishWait_port, State.pushEvent_port, State.countUp_port_cc, if_true, Bool.false_eq_true, if_false] <;>
      (refine (State.port_updCc_part _ p q CcLayer.disabledBy _ ?_).trans ?_ <;> [(intro _; rfl); rw [State.updSw_port_cc]])
@[simp] theorem State.swapEnds_port_cc_cc1 (r : Nat) (b : Bool) : ((s.swapEnds p r b).port q).cc.cc1 = (s.port q).cc.cc1 := by
  unfold State.swapEnds; dsimp only; split
  · rw [State.updSw_port_cc]
  · cases b <;> simp only [State.finishWait_port, State.pushEvent_port, State.countUp_port_cc, if_true, Bool.false_eq_true, if_false] <;>
      (refine (State.port_updCc_part _ p q CcLayer.cc1 _ ?_).trans ?_ <;> [(intro _; rfl); rw [State.updSw_port_cc]])
@[simp] theorem State.swapEnds_port_cc_cc2 (r : Nat) (b : Bool) : ((s.swapEnds p r b).port q).cc.cc2 = (s.port q).cc.cc2 := by
  unfold State.swapEnds; dsimp only; split
  · rw [State.updSw_port_cc]
  · cases b <;> simp only [State.finishWait_port, State.pushEvent_port, State.countUp_port_cc, if_true, Bool.false_eq_true, if_false] <;>
      (refine (State.port_updCc_part _ p q CcLayer.cc2 _ ?_).trans ?_ <;> [(intro _; rfl); rw [State.updSw_port_cc]])
@[simp] theorem State.swapEnds_port_cc_rp (r : Nat) (b : Bool) : ((s.swapEnds p r b).port q).cc.rp = (s.port q).cc.rp := by
  unfold State.swapEnds; dsimp only; split
  · rw [State.updSw_port_cc]
  · cases b <;> simp only [State.finishWait_port, State.pushEvent_port, State.countUp_port_cc, if_true, Bool.false_eq_true, if_false] <;>
      (refine (State.port_updCc_part _ p q CcLayer.rp _ ?_).trans ?_ <;> [(intro _; rfl); rw [State.updSw_port_cc]])
@[simp] theorem State.swapEnds_port_cc_rpNext (r : Nat) (b : Bool) : ((s.swapEnds p r b).port q).cc.rpNext = (s.port q).cc.rpNext := by
  unfold State.swapEnds; dsimp only; split
  · rw [State.updSw_port_cc]
  · cases b <;> simp only [State.finishWait_port, State.pushEvent_port, State.countUp_port_cc, if_true, Bool.false_eq_true, if_false] <;>
      (refine (State.port_updCc_part _ p q CcLayer.rpNext _ ?_).trans ?_ <;> [(intro _; rfl); rw [State.updSw_port_cc]])
@[simp] theorem State.swapEnds_port_cc_onCc2 (r : Nat) (b : Bool) : ((s.swapEnds p r b).port q).cc.onCc2 = (s.port q).cc.onCc2 := by
  unfold State.swapEnds; dsimp only; split
  · rw [State.updSw_port_cc]
  · cases b <;> simp only [State.finishWait_port, State.pushEvent_port, State.countUp_port_cc, if_true, Bool.false_eq_true, if_false] <;>
      (refine (State.port_updCc_part _ p q CcLayer.onCc2 _ ?_).trans ?_ <;> [(intro _; rfl); rw [State.updSw_port_cc]])
@[simp] theorem State.swapEnds_port_cc_raLatched (r : Nat) (b : Bool) : ((s.swapEnds p r b).port q).cc.raLatched = (s.port q).cc.raLatched := by
  unfold State.swapEnds; dsimp only; split
  · rw [State.updSw_port_cc]
  · cases b <;> simp only [State.finishWait_port, State.pushEvent_port, State.countUp_port_cc, if_true, Bool.false_eq_true, if_false] <;>
      (refine (State.port_updCc_part _ p q CcLayer.raLatched _ ?_).trans ?_ <;> [(intro _; rfl); rw [State.updSw_port_cc]])
@[simp] theorem State.swapEnds_port_cc_accessory (r : Nat) (b : Bool) : ((s.swapEnds p r b).port q).cc.accessory = (s.port q).cc.accessory := by
  unfold State.swapEnds; dsimp only; split
  · rw [State.updSw_port_cc]
  · cases b <;> simp only [State.finishWait_port, State.pushEvent_port, State.countUp_port_cc, if_true, Bool.false_eq_true, if_false] <;>
      (refine (State.port_updCc_part _ p q CcLayer.accessory _ ?_).trans ?_ <;> [(intro _; rfl); rw [State.updSw_port_cc]])
@[simp] theorem State.swapEnds_port_cc_passiveRd (r : Nat) (b : Bool) : ((s.swapEnds p r b).port q).cc.passiveRd = (s.port q).cc.passiveRd := by
  unfold State.swapEnds; dsimp only; split
  · rw [State.updSw_port_cc]
  · cases b <;> simp only [State.finishWait_port, State.pushEvent_port, State.countUp_port_cc, if_true, Bool.false_eq_true, if_false] <;>
      (refine (State.port_updCc_part _ p q CcLayer.passiveRd _ ?_).trans ?_ <;> [(intro _; rfl); rw [State.updSw_port_cc]])
@[simp] theorem State.swapEnds_port_cc_activeRd (r : Nat) (b : Bool) : ((s.swapEnds p r b).port q).cc.activeRd = (s.port q).cc.activeRd := by
  unfold State.swapEnds; dsimp only; split
  · rw [State.updSw_port_cc]
  · cases b <;> simp only [State.finishWait_port, State.pushEvent_port, State.countUp_port_cc, if_true, Bool.false_eq_true, if_false] <;>
      (refine (State.port_updCc_part _ p q CcLayer.activeRd _ ?_).trans ?_ <;> [(intro _; rfl); rw [State.updSw_port_cc]])
@[simp] theorem State.swapEnds_port_cc_takeoverFrame (r : Nat) (b : Bool) : ((s.swapEnds p r b).port q).cc.takeoverFrame = (s.port q).cc.takeoverFrame := by
  unfold State.swapEnds; dsimp only; split
  · rw [State.updSw_port_cc]
  · cases b <;> simp only [State.finishWait_port, State.pushEvent_port, State.countUp_port_cc, if_true, Bool.false_eq_true, if_false] <;>
      (refine (State.port_updCc_part _ p q CcLayer.takeoverFrame _ ?_).trans ?_ <;> [(intro _; rfl); rw [State.updSw_port_cc]])
@[simp] theorem State.swapEnds_port_cc_mode (r : Nat) (b : Bool) : ((s.swapEnds p r b).port q).cc.mode = (s.port q).cc.mode := by
  unfold State.swapEnds; dsimp only; split
  · rw [State.updSw_port_cc]
  · cases b <;> simp only [State.finishWait_port, State.pushEvent_port, State.countUp_port_cc, if_true, Bool.false_eq_true, if_false] <;>
      (refine (State.port_updCc_part _ p q CcLayer.mode _ ?_).trans ?_ <;> [(intro _; rfl); rw [State.updSw_port_cc]])
@[simp] theorem State.swapEnds_port_cc_debLine (r : Nat) (b : Bool) : ((s.swapEnds p r b).port q).cc.debLine = (s.port q).cc.debLine := by
  unfold State.swapEnds; dsimp only; split
  · rw [State.updSw_port_cc]
  · cases b <;> simp only [State.finishWait_port, State.pushEvent_port, State.countUp_port_cc, if_true, Bool.false_eq_true, if_false] <;>
      (refine (State.port_updCc_part _ p q CcLayer.debLine _ ?_).trans ?_ <;> [(intro _; rfl); rw [State.updSw_port_cc]])
@[simp] theorem State.swapEnds_port_cc_debFrom (r : Nat) (b : Bool) : ((s.swapEnds p r b).port q).cc.debFrom = (s.port q).cc.debFrom := by
  unfold State.swapEnds; dsimp only; split
  · rw [State.updSw_port_cc]
  · cases b <;> simp only [State.finishWait_port, State.pushEvent_port, State.countUp_port_cc, if_true, Bool.false_eq_true, if_false] <;>
      (refine (State.port_updCc_part _ p q CcLayer.debFrom _ ?_).trans ?_ <;> [(intro _; rfl); rw [State.updSw_port_cc]])
@[simp] theorem State.swapEnds_port_cc_goneFrom (r : Nat) (b : Bool) : ((s.swapEnds p r b).port q).cc.goneFrom = (s.port q).cc.goneFrom := by
  unfold State.swapEnds; dsimp only; split
  · rw [State.updSw_port_cc]
  · cases b <;> simp only [State.finishWait_port, State.pushEvent_port, State.countUp_port_cc, if_true, Bool.false_eq_true, if_false] <;>
      (refine (State.port_updCc_part _ p q CcLayer.goneFrom _ ?_).trans ?_ <;> [(intro _; rfl); rw [State.updSw_port_cc]])
@[simp] theorem State.swapEnds_port_cc_vbusHighFrom (r : Nat) (b : Bool) : ((s.swapEnds p r b).port q).cc.vbusHighFrom = (s.port q).cc.vbusHighFrom := by
  unfold State.swapEnds; dsimp only; split
  · rw [State.updSw_port_cc]
  · cases b <;> simp only [State.finishWait_port, State.pushEvent_port, State.countUp_port_cc, if_true, Bool.false_eq_true, if_false] <;>
      (refine (State.port_updCc_part _ p q CcLayer.vbusHighFrom _ ?_).trans ?_ <;> [(intro _; rfl); rw [State.updSw_port_cc]])
@[simp] theorem State.swapEnds_port_cc_unexpSet (r : Nat) (b : Bool) : ((s.swapEnds p r b).port q).cc.unexpSet = (s.port q).cc.unexpSet := by
  unfold State.swapEnds; dsimp only; split
  · rw [State.updSw_port_cc]
  · cases b <;> simp only [State.finishWait_port, State.pushEvent_port, State.countUp_port_cc, if_true, Bool.false_eq_true, if_false] <;>
      (refine (State.port_updCc_part _ p q CcLayer.unexpSet _ ?_).trans ?_ <;> [(intro _; rfl); rw [State.updSw_port_cc]])
@[simp] theorem State.swapEnds_port_cc_since (r : Nat) (b : Bool) : ((s.swapEnds p r b).port q).cc.since = (s.port q).cc.since := by
  unfold State.swapEnds; dsimp only; split
  · rw [State.updSw_port_cc]
  · cases b <;> simp only [State.finishWait_port, State.pushEvent_port, State.countUp_port_cc, if_true, Bool.false_eq_true, if_false] <;>
      (refine (State.port_updCc_part _ p q CcLayer.since _ ?_).trans ?_ <;> [(intro _; rfl); rw [State.updSw_port_cc]])
@[simp] theorem State.swapEnds_port_cc_toOutOfService (r : Nat) (b : Bool) : ((s.swapEnds p r b).port q).cc.toOutOfService = (s.port q).cc.toOutOfService := by
  unfold State.swapEnds; dsimp only; split
  · rw [State.updSw_port_cc]
  · cases b <;> simp only [State.finishWait_port, State.pushEvent_port, State.countUp_port_cc, if_true, Bool.false_eq_true, if_false] <;>
      (refine (State.port_updCc_part _ p q CcLayer.toOutOfService _ ?_).trans ?_ <;> [(intro _; rfl); rw [State.updSw_port_cc]])
@[simp] theorem State.swapEnds_port_cc_openFrom (r : Nat) (b : Bool) : ((s.swapEnds p r b).port q).cc.openFrom = (s.port q).cc.openFrom := by
  unfold State.swapEnds; dsimp only; split
  · rw [State.updSw_port_cc]
  · cases b <;> simp only [State.finishWait_port, State.pushEvent_port, State.countUp_port_cc, if_true, Bool.false_eq_true, if_false] <;>
      (refine (State.port_updCc_part _ p q CcLayer.openFrom _ ?_).trans ?_ <;> [(intro _; rfl); rw [State.updSw_port_cc]])
@[simp] theorem State.swapEnds_port_cc_openLowRun (r : Nat) (b : Bool) : ((s.swapEnds p r b).port q).cc.openLowRun = (s.port q).cc.openLowRun := by
  unfold State.swapEnds; dsimp only; split
  · rw [State.updSw_port_cc]
  · cases b <;> simp only [State.finishWait_port, State.pushEvent_port, State.countUp_port_cc, if_true, Bool.false_eq_true, if_false] <;>
      (refine (State.port_updCc_part _ p q CcLayer.openLowRun _ ?_).trans ?_ <;> [(intro _; rfl); rw [State.updSw_port_cc]])
@[simp] theorem State.swapEnds_port_cc_detach (r : Nat) (b : Bool) : ((s.swapEnds p r b).port q).cc.detach = (s.port q).cc.detach := by
  unfold State.swapEnds; dsimp only; split
  · rw [State.updSw_port_cc]
  · cases b <;> simp only [State.finishWait_port, State.pushEvent_port, State.countUp_port_cc, if_true, Bool.false_eq_true, if_false] <;>
      (refine (State.port_updCc_part _ p q CcLayer.detach _ ?_).trans ?_ <;> [(intro _; rfl); rw [State.updSw_port_cc]])
@[simp] theorem State.swapEnds_port_cc_detachFrame (r : Nat) (b : Bool) : ((s.swapEnds p r b).port q).cc.detachFrame = (s.port q).cc.detachFrame := by
  unfold State.swapEnds; dsimp only; split
  · rw [State.updSw_port_cc]
  · cases b <;> simp only [State.finishWait_port, State.pushEvent_port, State.countUp_port_cc, if_true, Bool.false_eq_true, if_false] <;>
      (refine (State.port_updCc_part _ p q CcLayer.detachFrame _ ?_).trans ?_ <;> [(intro _; rfl); rw [State.updSw_port_cc]])
@[simp] theorem State.swapEnds_port_cc_disch (r : Nat) (b : Bool) : ((s.swapEnds p r b).port q).cc.disch = (s.port q).cc.disch := by
  unfold State.swapEnds; dsimp only; split
  · rw [State.updSw_port_cc]
  · cases b <;> simp only [State.finishWait_port, State.pushEvent_port, State.countUp_port_cc, if_true, Bool.false_eq_true, if_false] <;>
      (refine (State.port_updCc_part _ p q CcLayer.disch _ ?_).trans ?_ <;> [(intro _; rfl); rw [State.updSw_port_cc]])
@[simp] theorem State.swapEnds_port_cc_dischFrame (r : Nat) (b : Bool) : ((s.swapEnds p r b).port q).cc.dischFrame = (s.port q).cc.dischFrame := by
  unfold State.swapEnds; dsimp only; split
  · rw [State.updSw_port_cc]
  · cases b <;> simp only [State.finishWait_port, State.pushEvent_port, State.countUp_port_cc, if_true, Bool.false_eq_true, if_false] <;>
      (refine (State.port_updCc_part _ p q CcLayer.dischFrame _ ?_).trans ?_ <;> [(intro _; rfl); rw [State.updSw_port_cc]])
@[simp] theorem State.swapEnds_port_cc_dischDetach (r : Nat) (b : Bool) : ((s.swapEnds p r b).port q).cc.dischDetach = (s.port q).cc.dischDetach := by
  unfold State.swapEnds; dsimp only; split
  · rw [State.updSw_port_cc]
  · cases b <;> simp only [State.finishWait_port, State.pushEvent_port, State.countUp_port_cc, if_true, Bool.false_eq_true, if_false] <;>
      (refine (State.port_updCc_part _ p q CcLayer.dischDetach _ ?_).trans ?_ <;> [(intro _; rfl); rw [State.updSw_port_cc]])
@[simp] theorem State.swapEnds_port_cc_dischTick (r : Nat) (b : Bool) : ((s.swapEnds p r b).port q).cc.dischTick = (s.port q).cc.dischTick := by
  unfold State.swapEnds; dsimp only; split
  · rw [State.updSw_port_cc]
  · cases b <;> simp only [State.finishWait_port, State.pushEvent_port, State.countUp_port_cc, if_true, Bool.false_eq_true, if_false] <;>
      (refine (State.port_updCc_part _ p q CcLayer.dischTick _ ?_).trans ?_ <;> [(intro _; rfl); rw [State.updSw_port_cc]])
@[simp] theorem State.swapEnds_port_cc_lfsr (r : Nat) (b : Bool) : ((s.swapEnds p r b).port q).cc.lfsr = (s.port q).cc.lfsr := by
  unfold State.swapEnds; dsimp only; split
  · rw [State.updSw_port_cc]
  · cases b <;> simp only [State.finishWait_port, State.pushEvent_port, State.countUp_port_cc, if_true, Bool.false_eq_true, if_false] <;>
      (refine (State.port_updCc_part _ p q CcLayer.lfsr _ ?_).trans ?_ <;> [(intro _; rfl); rw [State.updSw_port_cc]])
@[simp] theorem State.swapEnds_port_cc_togglePeriod (r : Nat) (b : Bool) : ((s.swapEnds p r b).port q).cc.togglePeriod = (s.port q).cc.togglePeriod := by
  unfold State.swapEnds; dsimp only; split
  · rw [State.updSw_port_cc]
  · cases b <;> simp only [State.finishWait_port, State.pushEvent_port, State.countUp_port_cc, if_true, Bool.false_eq_true, if_false] <;>
      (refine (State.port_updCc_part _ p q CcLayer.togglePeriod _ ?_).trans ?_ <;> [(intro _; rfl); rw [State.updSw_port_cc]])
@[simp] theorem State.swapEnds_port_cc_toggleFrame (r : Nat) (b : Bool) : ((s.swapEnds p r b).port q).cc.toggleFrame = (s.port q).cc.toggleFrame := by
  unfold State.swapEnds; dsimp only; split
  · rw [State.updSw_port_cc]
  · cases b <;> simp only [State.finishWait_port, State.pushEvent_port, State.countUp_port_cc, if_true, Bool.false_eq_true, if_false] <;>
      (refine (State.port_updCc_part _ p q CcLayer.toggleFrame _ ?_).trans ?_ <;> [(intro _; rfl); rw [State.updSw_port_cc]])
@[simp] theorem State.swapEnds_port_cc_vbusMv (r : Nat) (b : Bool) : ((s.swapEnds p r b).port q).cc.vbusMv = (s.port q).cc.vbusMv := by
  unfold State.swapEnds; dsimp only; split
  · rw [State.updSw_port_cc]
  · cases b <;> simp only [State.finishWait_port, State.pushEvent_port, State.countUp_port_cc, if_true, Bool.false_eq_true, if_false] <;>
      (refine (State.port_updCc_part _ p q CcLayer.vbusMv _ ?_).trans ?_ <;> [(intro _; rfl); rw [State.updSw_port_cc]])
@[simp] theorem State.swapEnds_port_cc_lowRun (r : Nat) (b : Bool) : ((s.swapEnds p r b).port q).cc.lowRun = (s.port q).cc.lowRun := by
  unfold State.swapEnds; dsimp only; split
  · rw [State.updSw_port_cc]
  · cases b <;> simp only [State.finishWait_port, State.pushEvent_port, State.countUp_port_cc, if_true, Bool.false_eq_true, if_false] <;>
      (refine (State.port_updCc_part _ p q CcLayer.lowRun _ ?_).trans ?_ <;> [(intro _; rfl); rw [State.updSw_port_cc]])
@[simp] theorem State.swapEnds_port_cc_vbusChecked (r : Nat) (b : Bool) : ((s.swapEnds p r b).port q).cc.vbusChecked = (s.port q).cc.vbusChecked := by
  unfold State.swapEnds; dsimp only; split
  · rw [State.updSw_port_cc]
  · cases b <;> simp only [State.finishWait_port, State.pushEvent_port, State.countUp_port_cc, if_true, Bool.false_eq_true, if_false] <;>
      (refine (State.port_updCc_part _ p q CcLayer.vbusChecked _ ?_).trans ?_ <;> [(intro _; rfl); rw [State.updSw_port_cc]])
@[simp] theorem State.swapEnds_port_cc_flt (r : Nat) (b : Bool) : ((s.swapEnds p r b).port q).cc.flt = (s.port q).cc.flt := by
  unfold State.swapEnds; dsimp only; split
  · rw [State.updSw_port_cc]
  · cases b <;> simp only [State.finishWait_port, State.pushEvent_port, State.countUp_port_cc, if_true, Bool.false_eq_true, if_false] <;>
      (refine (State.port_updCc_part _ p q CcLayer.flt _ ?_).trans ?_ <;> [(intro _; rfl); rw [State.updSw_port_cc]])
@[simp] theorem State.swapFail_ports_length (r : Nat) : (s.swapFail p r).ports.length = s.ports.length := s.swapEnds_ports_length p r true
@[simp] theorem State.swapFail_port_vc (r : Nat) : ((s.swapFail p r).port q).vc = (s.port q).vc := s.swapEnds_port_vc p q r true
@[simp] theorem State.swapFail_port_pd (r : Nat) : ((s.swapFail p r).port q).pd = (s.port q).pd := s.swapEnds_port_pd p q r true
@[simp] theorem State.swapFail_port_dc (r : Nat) : ((s.swapFail p r).port q).dc = (s.port q).dc := s.swapEnds_port_dc p q r true
@[simp] theorem State.swapFail_port_path (r : Nat) : ((s.swapFail p r).port q).path = (s.port q).path := s.swapEnds_port_path p q r true
@[simp] theorem State.swapFail_port_inService (r : Nat) : ((s.swapFail p r).port q).inService = (s.port q).inService := s.swapEnds_port_inService p q r true
@[simp] theorem State.swapFail_port_attachFrame (r : Nat) : ((s.swapFail p r).port q).attachFrame = (s.port q).attachFrame := s.swapEnds_port_attachFrame p q r true
@[simp] theorem State.swapFail_port_peerChain (r : Nat) : ((s.swapFail p r).port q).peerChain = (s.port q).peerChain := s.swapEnds_port_peerChain p q r true
@[simp] theorem State.swapFail_port_peerDigest (r : Nat) : ((s.swapFail p r).port q).peerDigest = (s.port q).peerDigest := s.swapEnds_port_peerDigest p q r true
@[simp] theorem State.swapFail_port_cc_st (r : Nat) : ((s.swapFail p r).port q).cc.st = (s.port q).cc.st := s.swapEnds_port_cc_st p q r true
@[simp] theorem State.swapFail_port_cc_disabledBy (r : Nat) : ((s.swapFail p r).port q).cc.disabledBy = (s.port q).cc.disabledBy := s.swapEnds_port_cc_disabledBy p q r true
@[simp] theorem State.swapFail_port_cc_cc1 (r : Nat) : ((s.swapFail p r).port q).cc.cc1 = (s.port q).cc.cc1 := s.swapEnds_port_cc_cc1 p q r true
@[simp] theorem State.swapFail_port_cc_cc2 (r : Nat) : ((s.swapFail p r).port q).cc.cc2 = (s.port q).cc.cc2 := s.swapEnds_port_cc_cc2 p q r true
@[simp] theorem State.swapFail_port_cc_rp (r : Nat) : ((s.swapFail p r).port q).cc.rp = (s.port q).cc.rp := s.swapEnds_port_cc_rp p q r true
@[simp] theorem State.swapFail_port_cc_rpNext (r : Nat) : ((s.swapFail p r).port q).cc.rpNext = (s.port q).cc.rpNext := s.swapEnds_port_cc_rpNext p q r true
@[simp] theorem State.swapFail_port_cc_onCc2 (r : Nat) : ((s.swapFail p r).port q).cc.onCc2 = (s.port q).cc.onCc2 := s.swapEnds_port_cc_onCc2 p q r true
@[simp] theorem State.swapFail_port_cc_raLatched (r : Nat) : ((s.swapFail p r).port q).cc.raLatched = (s.port q).cc.raLatched := s.swapEnds_port_cc_raLatched p q r true
@[simp] theorem State.swapFail_port_cc_accessory (r : Nat) : ((s.swapFail p r).port q).cc.accessory = (s.port q).cc.accessory := s.swapEnds_port_cc_accessory p q r true
@[simp] theorem State.swapFail_port_cc_passiveRd (r : Nat) : ((s.swapFail p r).port q).cc.passiveRd = (s.port q).cc.passiveRd := s.swapEnds_port_cc_passiveRd p q r true
@[simp] theorem State.swapFail_port_cc_activeRd (r : Nat) : ((s.swapFail p r).port q).cc.activeRd = (s.port q).cc.activeRd := s.swapEnds_port_cc_activeRd p q r true
@[simp] theorem State.swapFail_port_cc_takeoverFrame (r : Nat) : ((s.swapFail p r).port q).cc.takeoverFrame = (s.port q).cc.takeoverFrame := s.swapEnds_port_cc_takeoverFrame p q r true
@[simp] theorem State.swapFail_port_cc_mode (r : Nat) : ((s.swapFail p r).port q).cc.mode = (s.port q).cc.mode := s.swapEnds_port_cc_mode p q r true
@[simp] theorem State.swapFail_port_cc_debLine (r : Nat) : ((s.swapFail p r).port q).cc.debLine = (s.port q).cc.debLine := s.swapEnds_port_cc_debLine p q r true
@[simp] theorem State.swapFail_port_cc_debFrom (r : Nat) : ((s.swapFail p r).port q).cc.debFrom = (s.port q).cc.debFrom := s.swapEnds_port_cc_debFrom p q r true
@[simp] theorem State.swapFail_port_cc_goneFrom (r : Nat) : ((s.swapFail p r).port q).cc.goneFrom = (s.port q).cc.goneFrom := s.swapEnds_port_cc_goneFrom p q r true
@[simp] theorem State.swapFail_port_cc_vbusHighFrom (r : Nat) : ((s.swapFail p r).port q).cc.vbusHighFrom = (s.port q).cc.vbusHighFrom := s.swapEnds_port_cc_vbusHighFrom p q r true
@[simp] theorem State.swapFail_port_cc_unexpSet (r : Nat) : ((s.swapFail p r).port q).cc.unexpSet = (s.port q).cc.unexpSet := s.swapEnds_port_cc_unexpSet p q r true
@[simp] theorem State.swapFail_port_cc_since (r : Nat) : ((s.swapFail p r).port q).cc.since = (s.port q).cc.since := s.swapEnds_port_cc_since p q r true
@[simp] theorem State.swapFail_port_cc_toOutOfService (r : Nat) : ((s.swapFail p r).port q).cc.toOutOfService = (s.port q).cc.toOutOfService := s.swapEnds_port_cc_toOutOfService p q r true
@[simp] theorem State.swapFail_port_cc_openFrom (r : Nat) : ((s.swapFail p r).port q).cc.openFrom = (s.port q).cc.openFrom := s.swapEnds_port_cc_openFrom p q r true
@[simp] theorem State.swapFail_port_cc_openLowRun (r : Nat) : ((s.swapFail p r).port q).cc.openLowRun = (s.port q).cc.openLowRun := s.swapEnds_port_cc_openLowRun p q r true
@[simp] theorem State.swapFail_port_cc_detach (r : Nat) : ((s.swapFail p r).port q).cc.detach = (s.port q).cc.detach := s.swapEnds_port_cc_detach p q r true
@[simp] theorem State.swapFail_port_cc_detachFrame (r : Nat) : ((s.swapFail p r).port q).cc.detachFrame = (s.port q).cc.detachFrame := s.swapEnds_port_cc_detachFrame p q r true
@[simp] theorem State.swapFail_port_cc_disch (r : Nat) : ((s.swapFail p r).port q).cc.disch = (s.port q).cc.disch := s.swapEnds_port_cc_disch p q r true
@[simp] theorem State.swapFail_port_cc_dischFrame (r : Nat) : ((s.swapFail p r).port q).cc.dischFrame = (s.port q).cc.dischFrame := s.swapEnds_port_cc_dischFrame p q r true
@[simp] theorem State.swapFail_port_cc_dischDetach (r : Nat) : ((s.swapFail p r).port q).cc.dischDetach = (s.port q).cc.dischDetach := s.swapEnds_port_cc_dischDetach p q r true
@[simp] theorem State.swapFail_port_cc_dischTick (r : Nat) : ((s.swapFail p r).port q).cc.dischTick = (s.port q).cc.dischTick := s.swapEnds_port_cc_dischTick p q r true
@[simp] theorem State.swapFail_port_cc_lfsr (r : Nat) : ((s.swapFail p r).port q).cc.lfsr = (s.port q).cc.lfsr := s.swapEnds_port_cc_lfsr p q r true
@[simp] theorem State.swapFail_port_cc_togglePeriod (r : Nat) : ((s.swapFail p r).port q).cc.togglePeriod = (s.port q).cc.togglePeriod := s.swapEnds_port_cc_togglePeriod p q r true
@[simp] theorem State.swapFail_port_cc_toggleFrame (r : Nat) : ((s.swapFail p r).port q).cc.toggleFrame = (s.port q).cc.toggleFrame := s.swapEnds_port_cc_toggleFrame p q r true
@[simp] theorem State.swapFail_port_cc_vbusMv (r : Nat) : ((s.swapFail p r).port q).cc.vbusMv = (s.port q).cc.vbusMv := s.swapEnds_port_cc_vbusMv p q r true
@[simp] theorem State.swapFail_port_cc_lowRun (r : Nat) : ((s.swapFail p r).port q).cc.lowRun = (s.port q).cc.lowRun := s.swapEnds_port_cc_lowRun p q r true
@[simp] theorem State.swapFail_port_cc_vbusChecked (r : Nat) : ((s.swapFail p r).port q).cc.vbusChecked = (s.port q).cc.vbusChecked := s.swapEnds_port_cc_vbusChecked p q r true
@[simp] theorem State.swapFail_port_cc_flt (r : Nat) : ((s.swapFail p r).port q).cc.flt = (s.port q).cc.flt := s.swapEnds_port_cc_flt p q r true

@[simp] theorem State.seqOver_ports_length : (s.seqOver p).ports.length = s.ports.length := by
  unfold State.seqOver; split <;> simp
@[simp] theorem State.seqOver_port_vc : ((s.seqOver p).port q).vc = (s.port q).vc := by
  unfold State.seqOver; split <;> simp
@[simp] theorem State.seqOver_port_pd : ((s.seqOver p).port q).pd = (s.port q).pd := by
  unfold State.seqOver; split <;> simp
@[simp] theorem State.seqOver_port_sw : ((s.seqOver p).port q).sw = (s.port q).sw := by
  unfold State.seqOver; split <;> simp
@[simp] theorem State.seqOver_port_dc : ((s.seqOver p).port q).dc = (s.port q).dc := by
  unfold State.seqOver; split <;> simp
@[simp] theorem State.seqOver_port_path : ((s.seqOver p).port q).path = (s.port q).path := by
  unfold State.seqOver; split <;> simp
@[simp] theorem State.seqOver_port_inService : ((s.seqOver p).port q).inService = (s.port q).inService := by
  unfold State.seqOver; split <;> simp
@[simp] theorem State.seqOver_port_attachFrame : ((s.seqOver p).port q).attachFrame = (s.port q).attachFrame := by
  unfold State.seqOver; split <;> simp
@[simp] theorem State.seqOver_port_counters : ((s.seqOver p).port q).counters = (s.port q).counters := by
  unfold State.seqOver; split <;> simp
@[simp] theorem State.seqOver_port_peerChain : ((s.seqOver p).port q).peerChain = (s.port q).peerChain := by
  unfold State.seqOver; split <;> simp
@[simp] theorem State.seqOver_port_peerDigest : ((s.seqOver p).port q).peerDigest = (s.port q).peerDigest := by
  unfold State.seqOver; split <;> simp

@[simp] theorem State.waitTx_ports_length : (s.waitTx p).ports.length = s.ports.length := by
  unfold State.waitTx; split <;> simp
@[simp] theorem State.waitTx_port_vc : ((s.waitTx p).port q).vc = (s.port q).vc := by
  unfold State.waitTx; split <;> simp
@[simp] theorem State.waitTx_port_sw : ((s.waitTx p).port q).sw = (s.port q).sw := by
  unfold State.waitTx; split <;> simp
@[simp] theorem State.waitTx_port_dc : ((s.waitTx p).port q).dc = (s.port q).dc := by
  unfold State.waitTx; split <;> simp
@[simp] theorem State.waitTx_port_path : ((s.waitTx p).port q).path = (s.port q).path := by
  unfold State.waitTx; split <;> simp
@[simp] theorem State.waitTx_port_inService : ((s.waitTx p).port q).inService = (s.port q).inService := by
  unfold State.waitTx; split <;> simp
@[simp] theorem State.waitTx_port_attachFrame : ((s.waitTx p).port q).attachFrame = (s.port q).attachFrame := by
  unfold State.waitTx; split <;> simp
@[simp] theorem State.waitTx_port_counters : ((s.waitTx p).port q).counters = (s.port q).counters := by
  unfold State.waitTx; split <;> simp
@[simp] theorem State.waitTx_port_peerChain : ((s.waitTx p).port q).peerChain = (s.port q).peerChain := by
  unfold State.waitTx; split <;> simp
@[simp] theorem State.waitTx_port_peerDigest : ((s.waitTx p).port q).peerDigest = (s.port q).peerDigest := by
  unfold State.waitTx; split <;> simp

@[simp] theorem State.voidContract_ports_length (c : Nat) : (s.voidContract p c).ports.length = s.ports.length := by
  unfold State.voidContract; dsimp only; split <;> simp
@[simp] theorem State.voidContract_port_cc (c : Nat) : ((s.voidContract p c).port q).cc = (s.port q).cc := by
  unfold State.voidContract; dsimp only; split <;> simp
@[simp] theorem State.voidContract_port_vc (c : Nat) : ((s.voidContract p c).port q).vc = (s.port q).vc := by
  unfold State.voidContract; dsimp only; split <;> simp
@[simp] theorem State.voidContract_port_sw (c : Nat) : ((s.voidContract p c).port q).sw = (s.port q).sw := by
  unfold State.voidContract; dsimp only; split <;> simp
@[simp] theorem State.voidContract_port_dc (c : Nat) : ((s.voidContract p c).port q).dc = (s.port q).dc := by
  unfold State.voidContract; dsimp only; split <;> simp
@[simp] theorem State.voidContract_port_inService (c : Nat) : ((s.voidContract p c).port q).inService = (s.port q).inService := by
  unfold State.voidContract; dsimp only; split <;> simp
@[simp] theorem State.voidContract_port_attachFrame (c : Nat) : ((s.voidContract p c).port q).attachFrame = (s.port q).attachFrame := by
  unfold State.voidContract; dsimp only; split <;> simp
@[simp] theorem State.voidContract_port_counters (c : Nat) : ((s.voidContract p c).port q).counters = (s.port q).counters := by
  unfold State.voidContract; dsimp only; split <;> simp
@[simp] theorem State.voidContract_port_peerChain (c : Nat) : ((s.voidContract p c).port q).peerChain = (s.port q).peerChain := by
  unfold State.voidContract; dsimp only; split <;> simp
@[simp] theorem State.voidContract_port_peerDigest (c : Nat) : ((s.voidContract p c).port q).peerDigest = (s.port q).peerDigest := by
  unfold State.voidContract; dsimp only; split <;> simp

@[simp] theorem State.discharge_ports_length (b : Bool) : (s.discharge p b).ports.length = s.ports.length := by
  unfold State.discharge; simp
@[simp] theorem State.discharge_port_vc (b : Bool) : ((s.discharge p b).port q).vc = (s.port q).vc := by
  unfold State.discharge; simp
@[simp] theorem State.discharge_port_pd (b : Bool) : ((s.discharge p b).port q).pd = (s.port q).pd := by
  unfold State.discharge; simp
@[simp] theorem State.discharge_port_sw (b : Bool) : ((s.discharge p b).port q).sw = (s.port q).sw := by
  unfold State.discharge; simp
@[simp] theorem State.discharge_port_dc (b : Bool) : ((s.discharge p b).port q).dc = (s.port q).dc := by
  unfold State.discharge; simp
@[simp] theorem State.discharge_port_path (b : Bool) : ((s.discharge p b).port q).path = (s.port q).path := by
  unfold State.discharge; simp
@[simp] theorem State.discharge_port_inService (b : Bool) : ((s.discharge p b).port q).inService = (s.port q).inService := by
  unfold State.discharge; simp
@[simp] theorem State.discharge_port_attachFrame (b : Bool) : ((s.discharge p b).port q).attachFrame = (s.port q).attachFrame := by
  unfold State.discharge; simp
@[simp] theorem State.discharge_port_counters (b : Bool) : ((s.discharge p b).port q).counters = (s.port q).counters := by
  unfold State.discharge; simp
@[simp] theorem State.discharge_port_peerChain (b : Bool) : ((s.discharge p b).port q).peerChain = (s.port q).peerChain := by
  unfold State.discharge; simp
@[simp] theorem State.discharge_port_peerDigest (b : Bool) : ((s.discharge p b).port q).peerDigest = (s.port q).peerDigest := by
  unfold State.discharge; simp

@[simp] theorem State.home_ports_length : (s.home p).ports.length = s.ports.length := by
  unfold State.home; simp
@[simp] theorem State.home_port_vc : ((s.home p).port q).vc = (s.port q).vc := by
  unfold State.home; simp
@[simp] theorem State.home_port_pd : ((s.home p).port q).pd = (s.port q).pd := by
  unfold State.home; simp
@[simp] theorem State.home_port_sw : ((s.home p).port q).sw = (s.port q).sw := by
  unfold State.home; simp
@[simp] theorem State.home_port_dc : ((s.home p).port q).dc = (s.port q).dc := by
  unfold State.home; simp
@[simp] theorem State.home_port_path : ((s.home p).port q).path = (s.port q).path := by
  unfold State.home; simp
@[simp] theorem State.home_port_inService : ((s.home p).port q).inService = (s.port q).inService := by
  unfold State.home; simp
@[simp] theorem State.home_port_attachFrame : ((s.home p).port q).attachFrame = (s.port q).attachFrame := by
  unfold State.home; simp
@[simp] theorem State.home_port_counters : ((s.home p).port q).counters = (s.port q).counters := by
  unfold State.home; simp
@[simp] theorem State.home_port_peerChain : ((s.home p).port q).peerChain = (s.port q).peerChain := by
  unfold State.home; simp
@[simp] theorem State.home_port_peerDigest : ((s.home p).port q).peerDigest = (s.port q).peerDigest := by
  unfold State.home; simp

@[simp] theorem State.forgetPeer_ports_length : (s.forgetPeer p).ports.length = s.ports.length := by simp [State.forgetPeer]
@[simp] theorem State.forgetPeer_port_cc : ((s.forgetPeer p).port q).cc = (s.port q).cc :=
  s.port_updPort_part p q (·.cc) _ fun _ => rfl
@[simp] theorem State.forgetPeer_port_vc : ((s.forgetPeer p).port q).vc = (s.port q).vc :=
  s.port_updPort_part p q (·.vc) _ fun _ => rfl
@[simp] theorem State.forgetPeer_port_pd : ((s.forgetPeer p).port q).pd = (s.port q).pd :=
  s.port_updPort_part p q (·.pd) _ fun _ => rfl
@[simp] theorem State.forgetPeer_port_sw : ((s.forgetPeer p).port q).sw = (s.port q).sw :=
  s.port_updPort_part p q (·.sw) _ fun _ => rfl
@[simp] theorem State.forgetPeer_port_dc : ((s.forgetPeer p).port q).dc = (s.port q).dc :=
  s.port_updPort_part p q (·.dc) _ fun _ => rfl
@[simp] theorem State.forgetPeer_port_path : ((s.forgetPeer p).port q).path = (s.port q).path :=
  s.port_updPort_part p q (·.path) _ fun _ => rfl
@[simp] theorem State.forgetPeer_port_inService : ((s.forgetPeer p).port q).inService = (s.port q).inService :=
  s.port_updPort_part p q (·.inService) _ fun _ => rfl
@[simp] theorem State.forgetPeer_port_attachFrame : ((s.forgetPeer p).port q).attachFrame = (s.port q).attachFrame :=
  s.port_updPort_part p q (·.attachFrame) _ fun _ => rfl
@[simp] theorem State.forgetPeer_port_counters : ((s.forgetPeer p).port q).counters = (s.port q).counters :=
  s.port_updPort_part p q (·.counters) _ fun _ => rfl

@[simp] theorem State.attachOver_ports_length (c : Nat) (b : Bool) : (s.attachOver p c b).ports.length = s.ports.length := by
  unfold State.attachOver; dsimp only; cases b <;> simp
@[simp] theorem State.attachOver_port_inService (c : Nat) (b : Bool) : ((s.attachOver p c b).port q).inService = (s.port q).inService := by
  unfold State.attachOver; dsimp only; cases b <;> simp
@[simp] theorem State.attachOver_port_attachFrame (c : Nat) (b : Bool) : ((s.attachOver p c b).port q).attachFrame = (s.port q).attachFrame := by
  unfold State.attachOver; dsimp only; cases b <;> simp

@[simp] theorem State.attachOver_port_cc_st (c : Nat) (b : Bool) : ((s.attachOver p c b).port q).cc.st = (s.port q).cc.st := by
  unfold State.attachOver; cases b <;> simp
@[simp] theorem State.attachOver_port_cc_disabledBy (c : Nat) (b : Bool) : ((s.attachOver p c b).port q).cc.disabledBy = (s.port q).cc.disabledBy := by
  unfold State.attachOver; cases b <;> simp
@[simp] theorem State.attachOver_port_cc_cc1 (c : Nat) (b : Bool) : ((s.attachOver p c b).port q).cc.cc1 = (s.port q).cc.cc1 := by
  unfold State.attachOver; cases b <;> simp
@[simp] theorem State.attachOver_port_cc_cc2 (c : Nat) (b : Bool) : ((s.attachOver p c b).port q).cc.cc2 = (s.port q).cc.cc2 := by
  unfold State.attachOver; cases b <;> simp
@[simp] theorem State.attachOver_port_cc_rp (c : Nat) (b : Bool) : ((s.attachOver p c b).port q).cc.rp = (s.port q).cc.rp := by
  unfold State.attachOver; cases b <;> simp
@[simp] theorem State.attachOver_port_cc_rpNext (c : Nat) (b : Bool) : ((s.attachOver p c b).port q).cc.rpNext = (s.port q).cc.rpNext := by
  unfold State.attachOver; cases b <;> simp
@[simp] theorem State.attachOver_port_cc_onCc2 (c : Nat) (b : Bool) : ((s.attachOver p c b).port q).cc.onCc2 = (s.port q).cc.onCc2 := by
  unfold State.attachOver; cases b <;> simp
@[simp] theorem State.attachOver_port_cc_raLatched (c : Nat) (b : Bool) : ((s.attachOver p c b).port q).cc.raLatched = (s.port q).cc.raLatched := by
  unfold State.attachOver; cases b <;> simp
@[simp] theorem State.attachOver_port_cc_accessory (c : Nat) (b : Bool) : ((s.attachOver p c b).port q).cc.accessory = (s.port q).cc.accessory := by
  unfold State.attachOver; cases b <;> simp
@[simp] theorem State.attachOver_port_cc_passiveRd (c : Nat) (b : Bool) : ((s.attachOver p c b).port q).cc.passiveRd = (s.port q).cc.passiveRd := by
  unfold State.attachOver; cases b <;> simp
@[simp] theorem State.attachOver_port_cc_activeRd (c : Nat) (b : Bool) : ((s.attachOver p c b).port q).cc.activeRd = (s.port q).cc.activeRd := by
  unfold State.attachOver; cases b <;> simp
@[simp] theorem State.attachOver_port_cc_takeoverFrame (c : Nat) (b : Bool) : ((s.attachOver p c b).port q).cc.takeoverFrame = (s.port q).cc.takeoverFrame := by
  unfold State.attachOver; cases b <;> simp
@[simp] theorem State.attachOver_port_cc_mode (c : Nat) (b : Bool) : ((s.attachOver p c b).port q).cc.mode = (s.port q).cc.mode := by
  unfold State.attachOver; cases b <;> simp
@[simp] theorem State.attachOver_port_cc_debLine (c : Nat) (b : Bool) : ((s.attachOver p c b).port q).cc.debLine = (s.port q).cc.debLine := by
  unfold State.attachOver; cases b <;> simp
@[simp] theorem State.attachOver_port_cc_debFrom (c : Nat) (b : Bool) : ((s.attachOver p c b).port q).cc.debFrom = (s.port q).cc.debFrom := by
  unfold State.attachOver; cases b <;> simp
@[simp] theorem State.attachOver_port_cc_goneFrom (c : Nat) (b : Bool) : ((s.attachOver p c b).port q).cc.goneFrom = (s.port q).cc.goneFrom := by
  unfold State.attachOver; cases b <;> simp
@[simp] theorem State.attachOver_port_cc_vbusHighFrom (c : Nat) (b : Bool) : ((s.attachOver p c b).port q).cc.vbusHighFrom = (s.port q).cc.vbusHighFrom := by
  unfold State.attachOver; cases b <;> simp
@[simp] theorem State.attachOver_port_cc_unexpSet (c : Nat) (b : Bool) : ((s.attachOver p c b).port q).cc.unexpSet = (s.port q).cc.unexpSet := by
  unfold State.attachOver; cases b <;> simp
@[simp] theorem State.attachOver_port_cc_since (c : Nat) (b : Bool) : ((s.attachOver p c b).port q).cc.since = (s.port q).cc.since := by
  unfold State.attachOver; cases b <;> simp
@[simp] theorem State.attachOver_port_cc_toOutOfService (c : Nat) (b : Bool) : ((s.attachOver p c b).port q).cc.toOutOfService = (s.port q).cc.toOutOfService := by
  unfold State.attachOver; cases b <;> simp
@[simp] theorem State.attachOver_port_cc_openFrom (c : Nat) (b : Bool) : ((s.attachOver p c b).port q).cc.openFrom = (s.port q).cc.openFrom := by
  unfold State.attachOver; cases b <;> simp
@[simp] theorem State.attachOver_port_cc_openLowRun (c : Nat) (b : Bool) : ((s.attachOver p c b).port q).cc.openLowRun = (s.port q).cc.openLowRun := by
  unfold State.attachOver; cases b <;> simp
@[simp] theorem State.attachOver_port_cc_detach (c : Nat) (b : Bool) : ((s.attachOver p c b).port q).cc.detach = (s.port q).cc.detach := by
  unfold State.attachOver; cases b <;> simp
@[simp] theorem State.attachOver_port_cc_detachFrame (c : Nat) (b : Bool) : ((s.attachOver p c b).port q).cc.detachFrame = (s.port q).cc.detachFrame := by
  unfold State.attachOver; cases b <;> simp
@[simp] theorem State.attachOver_port_cc_disch (c : Nat) (b : Bool) : ((s.attachOver p c b).port q).cc.disch = (s.port q).cc.disch := by
  unfold State.attachOver; cases b <;> simp
@[simp] theorem State.attachOver_port_cc_dischFrame (c : Nat) (b : Bool) : ((s.attachOver p c b).port q).cc.dischFrame = (s.port q).cc.dischFrame := by
  unfold State.attachOver; cases b <;> simp
@[simp] theorem State.attachOver_port_cc_dischDetach (c : Nat) (b : Bool) : ((s.attachOver p c b).port q).cc.dischDetach = (s.port q).cc.dischDetach := by
  unfold State.attachOver; cases b <;> simp
@[simp] theorem State.attachOver_port_cc_dischTick (c : Nat) (b : Bool) : ((s.attachOver p c b).port q).cc.dischTick = (s.port q).cc.dischTick := by
  unfold State.attachOver; cases b <;> simp
@[simp] theorem State.attachOver_port_cc_lfsr (c : Nat) (b : Bool) : ((s.attachOver p c b).port q).cc.lfsr = (s.port q).cc.lfsr := by
  unfold State.attachOver; cases b <;> simp
@[simp] theorem State.attachOver_port_cc_togglePeriod (c : Nat) (b : Bool) : ((s.attachOver p c b).port q).cc.togglePeriod = (s.port q).cc.togglePeriod := by
  unfold State.attachOver; cases b <;> simp
@[simp] theorem State.attachOver_port_cc_toggleFrame (c : Nat) (b : Bool) : ((s.attachOver p c b).port q).cc.toggleFrame = (s.port q).cc.toggleFrame := by
  unfold State.attachOver; cases b <;> simp
@[simp] theorem State.attachOver_port_cc_vbusMv (c : Nat) (b : Bool) : ((s.attachOver p c b).port q).cc.vbusMv = (s.port q).cc.vbusMv := by
  unfold State.attachOver; cases b <;> simp
@[simp] theorem State.attachOver_port_cc_lowRun (c : Nat) (b : Bool) : ((s.attachOver p c b).port q).cc.lowRun = (s.port q).cc.lowRun := by
  unfold State.attachOver; cases b <;> simp
@[simp] theorem State.attachOver_port_cc_vbusChecked (c : Nat) (b : Bool) : ((s.attachOver p c b).port q).cc.vbusChecked = (s.port q).cc.vbusChecked := by
  unfold State.attachOver; cases b <;> simp
@[simp] theorem State.attachOver_port_cc_flt (c : Nat) (b : Bool) : ((s.attachOver p c b).port q).cc.flt = (s.port q).cc.flt := by
  unfold State.attachOver; cases b <;> simp

/-! ### What the operations leave behind -/

variable (h : p < s.ports.length)
include h

theorem State.vconnOff_on : ((s.vconnOff p).port p).vc.on = false := by
  unfold State.vconnOff
  dsimp only
  split
  · rw [State.vc_updVc _ p _ (by simpa using h)]
  · simp_all [State.vc]

theorem State.voidContract_pd (c : Nat) :
    ((s.voidContract p c).port p).pd.contract = {} ∧ ((s.voidContract p c).port p).pd.next = none ∧
      ((s.voidContract p c).port p).pd.lastEnd = c ∧ ((s.voidContract p c).port p).pd.epr = false := by
  unfold State.voidContract
  dsimp only
  split <;> simp [State.pd_updPd, h]

theorem State.swapEnds_kind (r : Nat) (b : Bool) : ((s.swapEnds p r b).port p).sw.kind = none := by
  unfold State.swapEnds
  split
  · next e => simp only [State.sw_updSw, h]; exact e
  · cases b <;> simp [State.sw_updSw, h]

theorem State.swapFail_kind (r : Nat) : ((s.swapFail p r).port p).sw.kind = none := s.swapEnds_kind p h r true

theorem State.modeEnd_entered (c : Nat) : ((s.modeEnd p c).port p).dc.entered = false := by
  unfold State.modeEnd
  split
  · simp [State.dc_updDc, h]
  · simp_all [State.dc]

theorem State.discEnd_step (c : Nat) : ((s.discEnd p c).port p).dc.step = none := by
  unfold State.discEnd
  split
  · simp [State.dc_updDc, h]
  · simp_all [State.dc_updDc, State.dc]

theorem State.discEnd_entered (c : Nat) : ((s.discEnd p c).port p).dc.entered = (s.port p).dc.entered := by
  unfold State.discEnd
  split <;> simp [State.dc_updDc, h]

/-- The attach is over (R108): contract void with its code, no transition, swap, discovery or mode. -/
theorem State.attachOver_spec (c : Nat) (b : Bool) :
    ((s.attachOver p c b).port p).pd.contract = {} ∧ ((s.attachOver p c b).port p).pd.next = none ∧
      ((s.attachOver p c b).port p).pd.lastEnd = c ∧ ((s.attachOver p c b).port p).pd.started = false ∧
      ((s.attachOver p c b).port p).sw.kind = none ∧ ((s.attachOver p c b).port p).dc.step = none ∧
      ((s.attachOver p c b).port p).dc.entered = false := by
  unfold State.attachOver
  dsimp only
  generalize e : (if b = true then s.swapFail p 2 else s.swapEnds p 3 false) = x
  have k : x.ports.length = s.ports.length := by subst e; cases b <;> simp
  have m : (x.port p).sw.kind = none := by
    subst e
    cases b
    · exact s.swapEnds_kind p h 3 false
    · exact s.swapEnds_kind p h 2 true
  have l : p < x.ports.length := by omega
  have v := ((((x.modeEnd p 1).discEnd p 5).sessionEndOn p 1)).voidContract_pd p (by simpa using l) c
  have d := x.modeEnd_entered p l 1
  have f := (x.modeEnd p 1).discEnd_step p (by simpa using l) 5
  have g := (x.modeEnd p 1).discEnd_entered p (by simpa using l) 5
  simp [State.pd_updPd, State.dc_updDc, l, v, m, d, f, g]

/-- R59, R108: what ErrorRecovery leaves. -/
theorem State.errorRecovery_spec (c : Nat) :
    ((s.errorRecovery p c).port p).cc.st = .errorRecovery ∧ ((s.errorRecovery p c).port p).cc.disch = true ∧
      ((s.errorRecovery p c).port p).path.swOn = false ∧ ((s.errorRecovery p c).port p).path.ppg = false ∧
      ((s.errorRecovery p c).port p).vc.on = false ∧ ((s.errorRecovery p c).port p).pd.contract = {} ∧
      ((s.errorRecovery p c).port p).pd.lastEnd = c ∧ ((s.errorRecovery p c).port p).sw.kind = none ∧
      ((s.errorRecovery p c).port p).cc.toOutOfService = (s.port p).cc.toOutOfService ∧
      ((s.errorRecovery p c).port p).cc.since = s.now ∧ ((s.errorRecovery p c).port p).attachFrame = none := by
  have v := s.attachOver_spec p h c true
  have o := ((s.attachOver p c true).updPath p Path.opened).vconnOff_on p (by simpa using h)
  have n := (((((OnlyPort.refl p s).attachOver c true).updPath Path.opened).vconnOff).discharge false).now_eq
  unfold State.discharge at n
  simp only [Bool.false_or] at n
  unfold State.errorRecovery State.openPort
  simp [State.port_updPort, State.cc_updCc, State.path_updPath, h, v, o, n, State.discharge, CcLayer.entered, Path.opened]

/-- R59, R73, R180: what Disabled leaves. -/
theorem State.disablePort_spec (c : Nat) (w : DisabledBy) :
    ((s.disablePort p c w).port p).cc.st = .disabled ∧ ((s.disablePort p c w).port p).cc.disabledBy = w ∧
      ((s.disablePort p c w).port p).path.swOn = false ∧ ((s.disablePort p c w).port p).path.ppg = false ∧
      ((s.disablePort p c w).port p).vc.on = false ∧ ((s.disablePort p c w).port p).pd.contract = {} ∧
      ((s.disablePort p c w).port p).pd.lastEnd = c := by
  have v := s.attachOver_spec p h c false
  have o := ((s.attachOver p c false).updPath p Path.opened).vconnOff_on p (by simpa using h)
  unfold State.disablePort State.openPort
  simp [State.port_updPort, State.cc_updCc, State.path_updPath, h, v, o, State.discharge, CcLayer.entered, Path.opened]

end Sys2Proof.Machine
end

