-- ==== Sys2Proof/Laws/Frames.lean ====
section
/-! SUPPORT. The narrow frames: what changes one port, phase or feed alone, and what follows for the wider frame. -/

namespace Sys2Proof.Machine

variable {p k x : Nat} {s t : State}

theorem PortAlone.refl (p : Nat) (s : State) : PortAlone p s s := ⟨rfl, rfl, fun _ _ => rfl⟩

theorem PortAlone.only (h : PortAlone p s t) : OnlyPort p s t := ⟨by rw [h.1], h.2.1, h.2.2⟩

theorem PortAlone.updPort (h : PortAlone p s t) (f : Port → Port) : PortAlone p s (t.updPort p f) := by
  obtain ⟨a, b, c⟩ := h
  refine ⟨?_, by simpa using b, fun q hq => by simp [hq, c]⟩
  rw [a]; rfl

theorem PortAlone.updCc (h : PortAlone p s t) (f : CcLayer → CcLayer) : PortAlone p s (t.updCc p f) := h.updPort _
theorem PortAlone.updVc (h : PortAlone p s t) (f : Vconn → Vconn) : PortAlone p s (t.updVc p f) := h.updPort _
theorem PortAlone.updPd (h : PortAlone p s t) (f : Pd → Pd) : PortAlone p s (t.updPd p f) := h.updPort _
theorem PortAlone.updSw (h : PortAlone p s t) (f : Swap → Swap) : PortAlone p s (t.updSw p f) := h.updPort _
theorem PortAlone.updDc (h : PortAlone p s t) (f : Disc → Disc) : PortAlone p s (t.updDc p f) := h.updPort _
theorem PortAlone.updPath (h : PortAlone p s t) (f : Path → Path) : PortAlone p s (t.updPath p f) := h.updPort _
theorem PortAlone.send (h : PortAlone p s t) (m : List PdTx) : PortAlone p s (t.send p m) := h.updPd _

theorem PortAlone.returnNode (h : PortAlone p s t) (a b : Nat) : PortAlone p s (t.returnNode p a b) := by
  unfold State.returnNode; split
  · exact h.updPath _
  · exact h

theorem PortAlone.home (h : PortAlone p s t) : PortAlone p s (t.home p) := h.updCc _

theorem PortAlone.vconnOff (h : PortAlone p s t) : PortAlone p s (t.vconnOff p) := by
  unfold State.vconnOff; dsimp only; split
  · exact (h.updSw _).updVc _
  · exact h.updSw _

theorem PortAlone.vconnOn (h : PortAlone p s t) : PortAlone p s (t.vconnOn p) := by
  unfold State.vconnOn; split
  · exact h.updVc _
  · exact h

theorem PortAlone.discharge (h : PortAlone p s t) (b : Bool) : PortAlone p s (t.discharge p b) := h.updCc _

theorem PortAlone.openPort (h : PortAlone p s t) (b : Bool) : PortAlone p s (t.openPort p b) := ((h.updPath _).vconnOff).discharge b

theorem PortAlone.sinkSpoke (h : PortAlone p s t) : PortAlone p s (t.sinkSpoke p) := h.updPd _

theorem PortAlone.seqOver (h : PortAlone p s t) : PortAlone p s (t.seqOver p) := by
  unfold State.seqOver; split
  · exact h.updCc _
  · exact h

theorem PhaseAlone.updPhase (h : PhaseAlone k s t) (f : Phase → Phase) : PhaseAlone k s (t.updPhase k f) := by
  obtain ⟨a, c⟩ := h
  refine ⟨?_, fun j hj => by simp [hj, c]⟩
  rw [a]; rfl

theorem FeedAlone.updFeed (h : FeedAlone x s t) (f : Feed → Feed) : FeedAlone x s (t.updFeed x f) := by
  obtain ⟨a, b, c⟩ := h
  refine ⟨?_, by simpa [State.updFeed] using b, fun y hy => by simp [hy, c]⟩
  rw [a]; rfl

/-- A served port is one the state holds. -/
theorem State.Shaped.port_lt (h : s.Shaped) (k : s.serves p = true) : p < s.ports.length := by
  have := h.1; simp [State.serves] at k; omega

end Sys2Proof.Machine
end

