-- ==== Sys2Proof/Laws/Memory.lean ====
section
/-! SUPPORT. The sparse memories: reads after writes, and that every write keeps the canonical form (data memories, OTP, the patch
buffer; program banks and decode tables). -/

namespace Sys2Proof.Machine

variable {w : Nat} {c : List (Nat × BitVec w)} {a b lo : Nat} {v : BitVec w}

theorem cellsWf_mono (h : cellsWf lo c = true) (hl : a ≤ lo) : cellsWf a c = true := by
  cases c with
  | nil => rfl
  | cons p rest => simp only [cellsWf, Bool.and_eq_true, decide_eq_true_eq] at h ⊢; exact ⟨⟨by omega, h.1.2⟩, h.2⟩

/-- Below the first listed address every word reads zero. -/
theorem cellsRead_low (h : cellsWf lo c = true) (ha : a < lo) : cellsRead c a = 0 := by
  cases c with
  | nil => rfl
  | cons p rest =>
    simp only [cellsWf, Bool.and_eq_true, decide_eq_true_eq] at h
    simp only [cellsRead]; rw [if_neg (by omega), if_pos (by omega)]

/-- A write keeps the form: addresses rising, no zero listed. -/
theorem cellsWf_write (h : cellsWf lo c = true) (ha : lo ≤ a) : cellsWf lo (cellsWrite c a v) = true := by
  induction c generalizing lo with
  | nil => by_cases hv : v = 0#w <;> simp [cellsWrite, cellsWf, hv, ha]
  | cons p rest ih =>
    obtain ⟨b, u⟩ := p
    have h0 := h
    simp only [cellsWf, Bool.and_eq_true, decide_eq_true_eq, bne_iff_ne, ne_eq] at h
    obtain ⟨⟨hb, hu⟩, hr⟩ := h
    simp only [cellsWrite]
    split
    · split
      · exact h0
      · rename_i hab hv
        simp only [cellsWf, Bool.and_eq_true, decide_eq_true_eq, bne_iff_ne, ne_eq]
        exact ⟨⟨ha, hv⟩, ⟨by omega, hu⟩, hr⟩
    · split
      · split
        · exact cellsWf_mono hr (by omega)
        · rename_i hab hv
          simp only [cellsWf, Bool.and_eq_true, decide_eq_true_eq, bne_iff_ne, ne_eq]
          exact ⟨⟨ha, hv⟩, cellsWf_mono hr (by omega)⟩
      · simp only [cellsWf, Bool.and_eq_true, decide_eq_true_eq, bne_iff_ne, ne_eq]
        exact ⟨⟨hb, hu⟩, ih hr (by omega)⟩

/-- A read of the word just written gives it. -/
theorem cellsRead_write_same (h : cellsWf lo c = true) : cellsRead (cellsWrite c a v) a = v := by
  induction c generalizing lo with
  | nil => by_cases hv : v = 0#w <;> simp [cellsWrite, cellsRead, hv]
  | cons p rest ih =>
    obtain ⟨b, u⟩ := p
    simp only [cellsWf, Bool.and_eq_true, decide_eq_true_eq] at h
    by_cases h1 : a < b
    · by_cases hv : v = 0#w <;> simp [cellsWrite, cellsRead, h1, hv, Nat.ne_of_lt h1]
    · by_cases h2 : a = b
      · subst h2
        by_cases hv : v = 0#w
        · simp [cellsWrite, hv, cellsRead_low h.2 (Nat.lt_succ_self a)]
        · simp [cellsWrite, cellsRead, hv]
      · simp only [cellsWrite, if_neg h1, if_neg h2, cellsRead]; exact ih h.2

/-- A write leaves every other word alone. -/
theorem cellsRead_write_other (h : cellsWf lo c = true) (hne : b ≠ a) : cellsRead (cellsWrite c a v) b = cellsRead c b := by
  induction c generalizing lo with
  | nil =>
    by_cases hv : v = 0#w <;> simp [cellsWrite, cellsRead, hv, hne]
  | cons p rest ih =>
    obtain ⟨d, u⟩ := p
    simp only [cellsWf, Bool.and_eq_true, decide_eq_true_eq] at h
    by_cases h1 : a < d
    · by_cases hv : v = 0#w
      · simp [cellsWrite, h1, hv]
      · simp only [cellsWrite, if_pos h1]
        by_cases hba : b < a
        · simp [cellsRead, hv, hne, hba, Nat.lt_trans hba h1, Nat.ne_of_lt (Nat.lt_trans hba h1)]
        · simp [cellsRead, hv, hne, hba]
    · by_cases h2 : a = d
      · subst h2
        by_cases hv : v = 0#w
        · subst hv
          by_cases hba : b < a
          · simpa [cellsWrite, cellsRead, hne, hba] using cellsRead_low h.2 (by omega)
          · simp [cellsWrite, cellsRead, hne, hba]
        · simp [cellsWrite, hv, cellsRead, hne]
      · simp only [cellsWrite, if_neg h1, if_neg h2, cellsRead]
        by_cases hbd : b = d
        · simp [hbd]
        · by_cases hb2 : b < d
          · simp [hbd, hb2]
          · simp only [if_neg hbd, if_neg hb2]; exact ih h.2

theorem cellsWf_store (vs : List (BitVec w)) (h : cellsWf 0 c = true) : cellsWf 0 (cellsStore c a vs) = true := by
  induction vs generalizing c a with
  | nil => exact h
  | cons v vs ih => exact ih (cellsWf_write h (Nat.zero_le _))

/-- A store leaves every word outside it alone. -/
theorem cellsRead_store_other (vs : List (BitVec w)) (h : cellsWf 0 c = true) (hb : b < a ∨ a + vs.length ≤ b) :
    cellsRead (cellsStore c a vs) b = cellsRead c b := by
  induction vs generalizing c a with
  | nil => rfl
  | cons v vs ih =>
    simp only [List.length_cons] at hb
    simp only [cellsStore]
    rw [ih (cellsWf_write h (Nat.zero_le _)) (by omega), cellsRead_write_other h (by omega)]

/-- A store's own words read back. -/
theorem cellsRead_store_same (vs : List (BitVec w)) (h : cellsWf 0 c = true) (i : Nat) (hi : i < vs.length) :
    cellsRead (cellsStore c a vs) (a + i) = vs.getD i 0 := by
  induction vs generalizing c a i with
  | nil => exact absurd hi (Nat.not_lt_zero _)
  | cons v vs ih =>
    simp only [cellsStore]
    have hw : cellsWf 0 (cellsWrite c a v) = true := cellsWf_write h (Nat.zero_le _)
    cases i with
    | zero => rw [cellsRead_store_other vs hw (by omega)]; simpa using cellsRead_write_same h
    | succ i =>
      have := ih (a := a + 1) hw i (by simpa using hi)
      simpa [Nat.add_assoc, Nat.add_comm 1 i] using this

/-! ### Maps of words: program banks and decode tables -/

/-- Addresses rising from `lo`; over a base of zeros no zero listed. -/
def wordsWf (base : Nat) : Nat → List (Nat × Word32) → Bool
  | _, [] => true
  | lo, (b, v) :: rest => decide (lo ≤ b) && (base != 0 || v != 0) && wordsWf base (b + 1) rest

variable {α : Type} {m : List (Nat × α)} {k j : Nat} {x : α}

theorem mapGet_mapSet_same : mapGet (mapSet m k x) k = some x := by
  induction m with
  | nil => simp [mapSet, mapGet]
  | cons p rest ih =>
    obtain ⟨i, u⟩ := p
    by_cases h1 : k < i
    · simp [mapSet, mapGet, h1]
    · by_cases h2 : k = i <;> simp [mapSet, mapGet, h1, h2, ih]

theorem mapGet_mapSet_other (h : j ≠ k) : mapGet (mapSet m k x) j = mapGet m j := by
  induction m with
  | nil => simp [mapSet, mapGet, h]
  | cons p rest ih =>
    obtain ⟨i, u⟩ := p
    by_cases h1 : k < i
    · simp [mapSet, mapGet, h1, h]
    · by_cases h2 : k = i
      · subst h2; simp [mapSet, mapGet, h]
      · by_cases h3 : j = i <;> simp [mapSet, mapGet, h1, h2, h3, ih]

theorem mapGet_mapErase_same : mapGet (mapErase m k) k = none := by
  induction m with
  | nil => rfl
  | cons p rest ih =>
    by_cases h : p.1 = k
    · simpa [mapErase, h] using ih
    · have : mapErase (p :: rest) k = p :: mapErase rest k := by simp [mapErase, h]
      rw [this]; simp [mapGet, Ne.symm h, ih]

theorem mapGet_mapErase_other (h : j ≠ k) : mapGet (mapErase m k) j = mapGet m j := by
  induction m with
  | nil => rfl
  | cons p rest ih =>
    by_cases hp : p.1 = k
    · have : mapErase (p :: rest) k = mapErase rest k := by simp [mapErase, hp]
      rw [this, ih]; simp [mapGet, hp, h]
    · have : mapErase (p :: rest) k = p :: mapErase rest k := by simp [mapErase, hp]
      rw [this]; simp [mapGet, ih]

variable {base : Nat} {ws : List (Nat × Word32)} {y : Word32}

theorem wordsWf_mono (h : wordsWf base lo ws = true) (hl : a ≤ lo) : wordsWf base a ws = true := by
  cases ws with
  | nil => rfl
  | cons p rest => simp only [wordsWf, Bool.and_eq_true, decide_eq_true_eq] at h ⊢; exact ⟨⟨by omega, h.1.2⟩, h.2⟩

theorem wordsWf_filter (p : Nat × Word32 → Bool) (h : wordsWf base lo ws = true) : wordsWf base lo (ws.filter p) = true := by
  induction ws generalizing lo with
  | nil => rfl
  | cons q rest ih =>
    simp only [wordsWf, Bool.and_eq_true, decide_eq_true_eq] at h
    by_cases hq : p q = true
    · simp only [List.filter_cons, hq, if_true, wordsWf, Bool.and_eq_true, decide_eq_true_eq]; exact ⟨h.1, ih h.2⟩
    · simp only [List.filter_cons, hq]; exact wordsWf_mono (ih h.2) (by omega)

theorem wordsWf_set (h : wordsWf base lo ws = true) (ha : lo ≤ a) (hy : base ≠ 0 ∨ y ≠ 0) : wordsWf base lo (mapSet ws a y) = true := by
  have hv : (base != 0 || y != 0) = true := by simpa using hy
  induction ws generalizing lo with
  | nil => simpa [mapSet, wordsWf, ha] using hy
  | cons q rest ih =>
    obtain ⟨b, u⟩ := q
    simp only [wordsWf, Bool.and_eq_true, decide_eq_true_eq] at h
    simp only [mapSet]
    split
    · simp only [wordsWf, Bool.and_eq_true, decide_eq_true_eq]; exact ⟨⟨ha, hv⟩, ⟨by omega, h.1.2⟩, h.2⟩
    · split
      · simp only [wordsWf, Bool.and_eq_true, decide_eq_true_eq]; exact ⟨⟨ha, hv⟩, wordsWf_mono h.2 (by omega)⟩
      · simp only [wordsWf, Bool.and_eq_true, decide_eq_true_eq]; exact ⟨h.1, ih h.2 (by omega)⟩

/-- A written bank word keeps the form. -/
theorem wordsWf_putWord (h : wordsWf base 0 ws = true) : wordsWf base 0 (putWord base ws a y) = true := by
  simp only [putWord]
  split
  · exact wordsWf_filter _ h
  · rename_i hc
    refine wordsWf_set h (Nat.zero_le _) ?_
    by_cases hb : base = 0
    · right; intro hy; simp [hb, hy] at hc
    · exact .inl hb

theorem wordsWf_putWords (vs : List Word32) (h : wordsWf base 0 ws = true) : wordsWf base 0 (putWords base ws a vs) = true := by
  induction vs generalizing ws a with
  | nil => exact h
  | cons v vs ih => exact ih (wordsWf_putWord h)

/-- Words listed over a base of zeros, zeros left out. -/
theorem wordsWf_zip (vs : List Word32) : wordsWf 0 lo (((List.range' lo vs.length).zip vs).filter fun p => p.2 != 0) = true := by
  induction vs generalizing lo with
  | nil => rfl
  | cons v vs ih =>
    simp only [List.length_cons, List.range'_succ, List.zip_cons_cons, List.filter_cons]
    split
    · rename_i hv; simp only [wordsWf, Bool.and_eq_true, decide_eq_true_eq]; exact ⟨⟨Nat.le_refl _, by simpa using hv⟩, ih⟩
    · exact wordsWf_mono ih (by omega)

theorem wordsWf_listWords (vs : List Word32) : wordsWf 0 0 (listWords vs) = true := by
  simpa [listWords, List.range_eq_range'] using wordsWf_zip (lo := 0) vs

end Sys2Proof.Machine
end

