-- ==== Sys2Proof/Laws/Schedule.lean ====
section
/-! SUPPORT. The frame's schedule and the bus between its two front ends: what each shared operation does, said once (R43, R47 to R50,
R274, R277). -/

namespace Sys2Proof.Machine

variable {s : State} {p r : Nat} {i : Instr} {go : State → State}

/-- A row of a policy engine acts, or waits in the engine of its port; nothing else. -/
theorem policyRow_cases (s : State) (p : Nat) (i : Instr) (go : State → State) :
    s.policyRow p i go = go s ∨
      s.policyHeld = true ∧ s.policyRow p i go = s.updPd p fun d => { d with inbox := d.inbox ++ [i] } := by
  unfold State.policyRow
  split
  · next h => simp only [Bool.and_eq_true] at h; exact .inr ⟨h.2, rfl⟩
  · exact .inl rfl

theorem policyRow_ready (h : s.policyHeld = false) : s.policyRow p i go = go s := by
  rcases policyRow_cases s p i go with e | ⟨e, _⟩
  · exact e
  · rw [h] at e; cases e

theorem policyRow_held (h1 : s.serves p = true) (h2 : s.policyUp = true) (h3 : s.policyHeld = true) :
    s.policyRow p i go = s.updPd p fun d => { d with inbox := d.inbox ++ [i] } := by
  simp [State.policyRow, h1, h2, h3]

theorem restRow_ready (h : s.sup.schedDue = false) : s.restRow p i go = go s := by simp [State.restRow, h]

/-- The engines run only while no schedule waits for class 0 work and their task is below its cap. -/
theorem policyRuns_ready (h : s.policyRuns = true) : s.policyHeld = false ∧ s.policyUp = true := by
  simp only [State.policyRuns, Bool.and_eq_true, Bool.not_eq_true'] at h
  exact ⟨h.2, h.1⟩

/-- A ridge without duties to check has an empty publish window. -/
theorem publishWindow_idle (h : (s.ridge r).checkDue = false) : publishWindow r s = s := by simp [publishWindow, h]

/-- A schedule that has started is not started again. -/
theorem scheduleLate_idle (h : s.sup.schedDue = false) : scheduleLate s = s := by simp [scheduleLate, h]
theorem scheduleNow_idle (h : s.sup.schedDue = false) : scheduleNow s = s := by simp [scheduleNow, h]

/-- Control of the bus changes hands only while it is idle, and nothing else changes with it. -/
theorem handOver_busy (h : s.bus.idle = false) : s.handOver = s := by simp [State.handOver, h]
theorem handOver_idle (h : s.bus.idle = true) : s.handOver = { s with bus := { s.bus with vcoreFe := s.locked } } := by
  simp [State.handOver, h]

/-- After a STOP the bus is idle and the front end that has its supply is in charge. -/
theorem busStop_bus (s : State) : s.busStop.bus.idle = true ∧ s.busStop.bus.vcoreFe = s.locked := by
  simp [State.busStop, State.handOver]

end Sys2Proof.Machine
end

