-- ==== Sys2Proof/Laws/Tester.lean ====
section
/-! SUPPORT. The header VDO of a tunnel segment: packing it and reading it back (R140). -/

namespace Sys2Proof.Machine

/-- A segment whose fields fit the header VDO comes back from it whole. -/
theorem segOf_segHeader (g : Segment) (ht : g.msgType < 256) (hs : g.seq < 256) (hi : g.index < 16) (hl : g.last < 16) (hn : g.len < 256) :
    segOf (segHeader g) g.data = g := by
  obtain ⟨t, q, i, l, n, d⟩ := g
  simp only [segOf, segHeader, fld, BitVec.toNat_ofNat, Segment.mk.injEq, and_true] at *
  omega

/-- A SEG_GET's header names its SEQ and SEG_INDEX (R139). -/
theorem segOf_segGetHeader (seq : BitVec 8) (index : BitVec 4) :
    segOf (segGetHeader seq index) [] = { seq := seq.toNat, index := index.toNat } :=
  segOf_segHeader { seq := seq.toNat, index := index.toNat } Nat.ofNat_pos seq.isLt index.isLt Nat.ofNat_pos Nat.ofNat_pos

end Sys2Proof.Machine
end

