-- ==== Sys2Proof/Machine/Pins.lean ====
section
/-! DEFINITION. The balls of the array (R449 to R453) and what each shows in a state (R13, R456, R457, R466). No command reads these: they
are the part's face, computed from the state. -/

namespace Sys2Proof.Machine

/-- What stands at a ball (R451, R453). -/
inductive Ball where
  | vbus (p : Nat) | isp (p : Nat) | isn (p : Nat) | gate (p : Nat) | src (p : Nat) | cc (p : Nat) (two : Bool)
  | pwma (k : Nat) | pwmb (k : Nat) | steer (k : Nat) | imon (k : Nat)
  | vconnIn (r : Nat) | ntc (r : Nat) | iref (r : Nat) | stgen (r : Nat) | stgfltN (r : Nat)
  | fSns (x : Nat) | fIsp (x : Nat) | fIsn (x : Nat) | fHsg (x : Nat) | fOdg (x : Nat) | foutSns
  | seq (n : Nat) | pg (n : Nat) | vdrvSns | vboot | vbatAon | ign | xin | xout
  | scl | sda | addr (n : Nat) | resetN | faultN | testN
  | vio | vana | vcore | vaux5 | agnd | gnd
deriving DecidableEq, Repr, Inhabited

/-- R451: place e (1 to 13) along the edge and depth d (1 to 6) of the block of ridge r. -/
def ridgeBall (r e d : Nat) : Ball :=
  let q := (e - 1) / 3
  let p := 4 * r + q
  let k := 8 * r + 2 * q
  let line : List Ball :=
    if e = 13 then [.vconnIn r, .ntc r, .iref r, .stgen r, .stgfltN r]
    else if (e - 1) % 3 = 0 then [.vbus p, .isp p, .cc p false, .pwma k, .steer k, .imon (k + 1)]
    else if (e - 1) % 3 = 1 then [.gate p, .gnd, .gnd, .pwmb k, .pwma (k + 1)]
    else [.src p, .isn p, .cc p true, .imon k, .pwmb (k + 1), .steer (k + 1)]
  line.getD (d - 1) .gnd

/-- R453: the core, by row index 7 to 20 and column 7 to 20. -/
def coreBall (row col : Nat) : Ball :=
  if row = 7 then
    [.seq 0, .pg 0, .seq 1, .pg 1, .seq 2, .pg 2, .seq 3, .pg 3, .vdrvSns, .vboot, .vbatAon, .ign, .xin, .xout].getD (col - 7) .gnd
  else if row = 8 || row = 19 then (if col ≤ 14 then .vio else .vana)
  else if row = 9 || row = 18 then .agnd
  else if row = 20 then [.scl, .sda, .addr 0, .addr 1, .addr 2, .resetN, .faultN, .testN].getD (col - 7) .vaux5
  else if (row + col) % 2 = 0 then .vcore
  else .gnd

/-- R449, R450, R452: the ball at a row index and a column, both 1 to 26. -/
def ballAt (row col : Nat) : Ball :=
  if col ≤ 6 then (if row ≤ 13 then ridgeBall 0 row col else ridgeBall 1 (row - 13) col)
  else if 21 ≤ col then (if row ≤ 13 then ridgeBall 4 (14 - row) (27 - col) else ridgeBall 3 (27 - row) (27 - col))
  else if row ≤ 6 then
    (if col = 20 then [.fSns 0, .fIsp 0, .fIsn 0, .fHsg 0, .fOdg 0].getD (row - 1) .gnd else ridgeBall 5 (20 - col) row)
  else if 21 ≤ row then
    (if col = 20 then [.foutSns, .fOdg 1, .fHsg 1, .fIsn 1, .fIsp 1, .fSns 1].getD (row - 21) .gnd else ridgeBall 2 (col - 6) (27 - row))
  else coreBall row col

/-- The conditions of R456. -/
inductive Condition where
  | unpowered | alwaysOn | sequencing | serviceBoot | running
deriving DecidableEq, Repr, Inhabited

/-- R456: the column of the state; none in a shutdown or a shut-off, whose pins follow the steps undone (R245, R247). Until `VIO` qualifies
in step 1 a sequence shows the always-on column. -/
def State.condition (s : State) : Option Condition :=
  match s.seq.mode with
  | .unpowered => some .unpowered
  | .retention => some .alwaysOn
  | .holdoff => some .alwaysOn
  | .seqFailure => some .alwaysOn
  | .integrityHold => some .alwaysOn
  | .sequencing => some (if s.seq.step ≤ 1 then .alwaysOn else .sequencing)
  | .serviceBoot => some .serviceBoot
  | .running => some (if s.seq.step7 then .running else .sequencing)
  | .shutdown => none
  | .shutoff => none

/-- What a ball shows: undriven; sensed; an input, pulled up or not; driven; held by a resistor; a line's termination; a PWM carrier with
its high side on for so many of 800 engine cycles and at mid level for the rest (R466). -/
inductive Shown where
  | undriven | sensed | input | pulledUp | low | high | mid | weakLow | heldOff | on | line (t : LineTerm) | carrier (high : Nat) | discharge
  | supply
deriving DecidableEq, Repr, Inhabited

/-- R13: `STEER_xx` driven high closes the home pair, low the neighbour pair; released it stands at mid-bias. -/
def steerLevel (f : Phase) : Shown := if f.steer = 1 then .high else if f.steer = 2 then .low else .mid

/-- R466: the level of a leg that conducts: high while its high side is on. -/
def legLevel (f : Phase) (b : Bool) : Shown :=
  match f.legs with
  | none => .low
  | some (hi, lo) => .carrier (if b then 800 - lo else hi)

/-- R456 for one ball in one column. -/
def shownIn (s : State) (c : Condition) (b : Ball) : Shown :=
  let powered := c == .sequencing || c == .serviceBoot || c == .running
  match b with
  | .cc p two => .line (s.line p two)
  | .vbus p =>
    if (s.cc p).disch && c != .unpowered then .discharge
    else if c == .sequencing || c == .running || (c == .serviceBoot && s.seq.bootPort == some p) then .sensed else .undriven
  | .isp _ => if c == .sequencing || c == .running then .sensed else .undriven
  | .isn _ => if c == .sequencing || c == .running then .sensed else .undriven
  | .fSns _ => if c == .sequencing || c == .running then .sensed else .undriven
  | .fIsp _ => if c == .sequencing || c == .running then .sensed else .undriven
  | .fIsn _ => if c == .sequencing || c == .running then .sensed else .undriven
  | .foutSns => if c == .sequencing || c == .running then .sensed else .undriven
  | .gate p => if !powered then .weakLow else if (s.path p).swOn || (s.path p).closing then .on else .heldOff
  | .fHsg x =>
    if c == .sequencing || c == .running then (if (s.feed x).st == .ramp || (s.feed x).st == .on then .on else .heldOff) else .weakLow
  | .fOdg x => if c == .sequencing || c == .running then (if (s.feed x).odg then .on else .heldOff) else .weakLow
  | .pwma k => if !powered then .undriven else if c == .running then legLevel (s.phase k) false else .low
  | .pwmb k => if !powered then .undriven else if c == .running then legLevel (s.phase k) true else .low
  | .steer k => if c == .running then steerLevel (s.phase k) else .mid
  | .stgen r => if !powered then .weakLow else if (s.ridge r).stgen && decide ((s.ridge r).stgenTick ≤ s.tick) then .high else .low
  | .stgfltN _ => if powered then .pulledUp else .undriven
  | .imon _ => if c == .sequencing || c == .running then .input else .undriven
  | .ntc _ => if c == .sequencing || c == .running then .input else .undriven
  | .iref _ => if c == .sequencing || c == .running then .input else .undriven
  | .vconnIn _ => if c == .running then .sensed else .undriven
  | .seq n => if c == .unpowered then .weakLow else if seqPin s n then .high else .low
  | .pg _ => if c == .unpowered then .undriven else .input
  | .vdrvSns => if c == .unpowered then .undriven else .input
  | .ign => if c == .unpowered then .undriven else .input
  | .addr _ => if c == .unpowered then .undriven else .pulledUp
  | .testN => if c == .unpowered then .undriven else .pulledUp
  | .resetN => if c == .unpowered then .undriven else .pulledUp
  | .faultN => if c != .unpowered && faultPinLow s then .low else .undriven
  | .scl => .undriven
  | .sda => .undriven
  | .xin => if s.locked then .input else .undriven
  | .xout => if s.locked then .on else .undriven
  | _ => .supply

/-- R456: what a ball shows. -/
def State.shown (s : State) (b : Ball) : Option Shown := s.condition.map fun c => shownIn s c b

end Sys2Proof.Machine
end

