-- ==== Sys2Proof/Tests/Slice0.lean ====
section
/-! SUPPORT. The package's own tests: for every statement that has hypotheses, states and operands that meet them, clause by clause at
a boundary of its range (port 23, phase 47, ridge 5, feed 1, a timer in the frame it expires); ill-formed commands that the check refuses;
a few single steps with values taken from the spec. -/

section Witnesses

open Sys2Proof Sys2Proof.Machine

set_option Elab.async false

namespace Sys2Proof.Tests

/-- A running part with its bring-up behind it, in frame 100,000. -/
def full : State :=
  { State.reset with
    locked := true, frame := 100000, tick := 1000000
    seq := { mode := .running, step := 7, complete := true, step7 := true, milestone := 6, full := true, interpreter := true, vbatOk := true }
    bus := { vcoreFe := true }
    inn := { started := true } }

/-- The last port in service, otherwise fresh; as an attached source; as an attached sink. -/
def pt (f : Port → Port) : State := full.updPort 23 fun q => f { q with inService := true }
def srcPort : Port :=
  { inService := true, cc := { st := .attachedSrc, rp := 2 }, pd := { started := true }, sw := { source := true, dfp := true, attSource := true, attDfp := true } }
def snkPort : Port := { inService := true, cc := { st := .attachedSnk, rp := 2 }, pd := { started := true } }
def sp (f : Port → Port) : State := full.updPort 23 fun _ => f srcPort
def snk (f : Port → Port) : State := full.updPort 23 fun _ => f snkPort

/-- The last phase, ridge and feed. -/
def ph (f : Phase → Phase) : State := full.updPhase 47 f
def rg (f : Ridge → Ridge) : State := full.updRidge 5 f
def fd (f : Feed → Feed) : State := full.updFeed 1 f

/-- An accepted command, and a state that holds it in the host's class 1 and 2 place once the frame's solve is behind it. -/
def cm (bs : List Byte) : Cmd := { bytes := bs, accepted := true }
def cmdOn (s : State) (c : Cmd) : State := { s with inn := { s.inn with capped := true } }.setCmdAt .host12 (some c)

/-- The last ridge's engine in its window, and a word of one move with an immediate source for it. -/
def kn (f : Engine → Engine) : State := rg fun q => { q with run := .running, eng := f { q.eng with running := true } }
def ka (v : Word) : KArg := { eng := 5, op := { src := .imm v } }

/-- The part while it powers up, and while it shuts down. -/
def starting (step sub : Nat) : State := { State.reset with tick := 1000000, seq := { mode := .sequencing, step := step, sub := sub, subTick := 999997, vbatOk := true } }
def stopping (f : Seq → Seq) : State := { full with seq := f { full.seq with mode := .shutdown } }
def waiting (f : Seq → Seq) : State := { State.reset with tick := 1000000, seq := f { mode := .holdoff, holdEnd := 1000000, vbatOk := true } }


/-- Every interrupt source has a bit, so a mask of all bits enables the tick. -/
theorem tick_enabled : ({ full with irq := [.tick], sup := { eng := { irqEn := 0xFFFF } } } : State).enabledIrqs ≠ [] := by
  have h : ∀ i : Fin 16, (BitVec.ofNat 16 (2 ^ i.val) &&& 0xFFFF != 0) = true := by decide
  have k := h ⟨Config.irqIndex 0 % 16, Nat.mod_lt _ (by decide)⟩
  simp only [State.enabledIrqs, IrqSource.bit, IrqSource.code, List.filter, k]
  decide
theorem witness_StepRunsFrontCommand :
    (∃ (s : State) (c : Instr) (rest : List Instr), (s.pending = c :: rest)) :=
  ⟨{ full with pending := [.dieHot] }, .dieHot, [], by decide +kernel⟩

theorem witness_StepKeepsShape :
    (∃ s t : State, (s.Shaped) ∧ (Sys2Proof.Machine.step s = .next t)) :=
  ⟨{ full with pending := [.dieWarn] }, _, by unfold State.Shaped Engine.Shaped; decide +kernel, rfl⟩

theorem witness_StepKeepsMemories :
    (∃ s t : State, (s.Inv) ∧ (Sys2Proof.Machine.step s = .next t)) :=
  ⟨{ full with pending := [.dieWarn] }, _, by unfold State.Inv State.Shaped State.MemOk Engine.Shaped Engine.MemOk; decide +kernel, rfl⟩

theorem witness_KnahaWordsRoundTrip :
    (∃ (w : KWord), (wordOk w = true)) ∧
    (∃ (a : KArg) (d : Nat), (wordOk (argWord a d) = true) ∧ (reservedFit (argWord a d) a.reserved = true)) :=
  ⟨⟨(argWord { eng := 5, op := { guard := 15, src := .imm 0xFFFF } } 0x19), by decide +kernel⟩,
    ⟨{ op := { guard := 15, src := .sock 255 }, reserved := 1023 }, 255, by decide +kernel⟩⟩

theorem witness_CmdPutClaimsOrRefuses :
    (∃ (s : State) (count : Nat) (data : List Byte) (pec : Option Byte), (s.served = true) ∧ (4 ≤ count) ∧ (count ≤ data.length) ∧ (s.host.classHeld (rdB data 2 % 4) = false) ∧ (putPasses s count data pec)) ∧
    (∃ (s : State) (_count : Nat) (_data : List Byte) (_pec : Option Byte), ∃ _c : Cmd, (s.served = true)) ∧
    (∃ (s : State) (_count : Nat) (_data : List Byte) (_pec : Option Byte), ∃ c : Cmd, (s.served = true) ∧ (c.cls = 0)) ∧
    (∃ (s : State) (_count : Nat) (_data : List Byte) (_pec : Option Byte), ∃ c : Cmd, (s.served = true) ∧ (c.cls = 1 ∨ c.cls = 2)) ∧
    (∃ (s : State) (count : Nat) (data : List Byte) (_pec : Option Byte), (s.served = true) ∧ (4 ≤ count) ∧ (3 ≤ data.length) ∧ (s.host.classHeld (rdB data 2 % 4) = true)) ∧
    (∃ (s : State) (count : Nat) (data : List Byte) (_pec : Option Byte), (s.served = true) ∧ (4 ≤ count) ∧ (data.length < count) ∧ ((data.length < 3 ∨ s.host.classHeld (rdB data 2 % 4) = false))) ∧
    (∃ (s : State) (count : Nat) (_data : List Byte) (_pec : Option Byte), (s.served = true) ∧ (count < 4)) ∧
    (∃ (s : State) (count : Nat) (data : List Byte) (pec : Option Byte), (s.served = true) ∧ (4 ≤ count) ∧ (count ≤ data.length) ∧ (s.host.classHeld (rdB data 2 % 4) = false) ∧ (¬ putPasses s count data pec)) :=
  ⟨⟨full, 4, [0x01, 0, 1, 0], some (crc8 (full.addrByte false :: 0x10 :: byteOf 4 :: [0x01, 0, 1, 0])), by decide +kernel, by decide +kernel, by decide +kernel, by decide +kernel, Or.inl (by decide +kernel)⟩,
    ⟨full, 4, [0x01, 0, 1, 0], none, { bytes := [1, 0, 1, 0] }, by decide +kernel⟩,
    ⟨full, 4, [0x01, 0, 1, 0], none, { bytes := [0x60, 0, 0, 0] }, by decide +kernel⟩,
    ⟨full, 4, [0x01, 0, 1, 0], none, { bytes := [1, 0, 2, 0] }, by decide +kernel⟩,
    ⟨{ full with host := { place12 := some {} } }, 4, [1, 0, 2], none, by decide +kernel⟩,
    ⟨full, 4, [1, 0, 1], none, by decide +kernel⟩,
    ⟨full, 3, [0x01, 0, 1, 0], none, by decide +kernel⟩,
    ⟨full, 4, [0x01, 0, 1, 0], some (crc8 (full.addrByte false :: 0x10 :: byteOf 4 :: [0x01, 0, 1, 0]) ^^^ 1), by decide +kernel, by decide +kernel, by decide +kernel, by decide +kernel, by unfold putPasses; decide +kernel⟩⟩

theorem witness_AttnAckClearsWhatWasSeen :
    (∃ (s : State) (a b : Byte) (more : List Byte) (pec : Option Byte) (mask : Word) (seen : Option Byte), (s.served = true) ∧ (mask = BitVec.ofNat 16 (rdLe [a, b] 0 2)) ∧ (seen = (if more = [] then pec else some (more.getD 0 0))) ∧ (seen = some (crc8 [s.addrByte false, 0x13, a, b]) ∨ (seen = none ∧ s.inf 0 0 0x3C ≠ 1))) ∧
    (∃ (s : State) (a b : Byte) (more : List Byte) (pec : Option Byte) (mask : Word) (seen : Option Byte), (s.served = true) ∧ (mask = BitVec.ofNat 16 (rdLe [a, b] 0 2)) ∧ (seen = (if more = [] then pec else some (more.getD 0 0))) ∧ (seen ≠ some (crc8 [s.addrByte false, 0x13, a, b])) ∧ ((seen = none → s.inf 0 0 0x3C = 1))) ∧
    (∃ (s : State) (a b : Byte) (more : List Byte) (pec : Option Byte) (mask : Word) (seen : Option Byte), (s.served = true) ∧ (mask = BitVec.ofNat 16 (rdLe [a, b] 0 2)) ∧ (seen = (if more = [] then pec else some (more.getD 0 0)))) :=
  ⟨⟨full, 0xFF, 0xFF, [], none, 0xFFFF, none, by decide +kernel, by decide +kernel, by decide +kernel, Or.inr ⟨rfl, by decide +kernel⟩⟩,
    ⟨full, 0xFF, 0xFF, [0], none, 0xFFFF, some 0, by decide +kernel⟩,
    ⟨full, 0xFF, 0xFF, [], none, 0xFFFF, none, by decide +kernel⟩⟩

theorem witness_BusReadsAndEvents :
    (∃ (s : State) (bs : List Byte) (rd : Bool), (s.served = true) ∧ (s.host.slot = .ready rd bs) ∧ (isRestartReply bs = false)) ∧
    (∃ (s : State) (tag op : Byte), (s.served = true) ∧ (s.host.slot = .pending tag op)) ∧
    (∃ s : State, (s.served = true) ∧ (s.host.slot = .empty)) ∧
    (∃ (s : State) (b : Byte), (s.served = true) ∧ (b = byteOf s.busStatus)) ∧
    (∃ s : State, (s.answers = true)) ∧
    (∃ (s : State) (c : AttnTry → Instr) (o : AttnTry) (lost : Bool), (s.notifies = true) ∧ (s.bus.idle = true) ∧ (s.attn.pending ≠ 0) ∧ (((c = .attentionWrite ∧ s.bus.attnDue = true) ∨ (c = .attentionBackoffExpiry ∧ s.bus.attnWait = true ∧ ∃ p, s.bus.stopAt = some p ∧ p + 50 * (s.bus.addrPins + 1) ≤ s.paceCount))) ∧ (lost = (o.rival.map (lostTo (attnBytes s))).getD false)) ∧
    (∃ (s : State) (_o : AttnTry) (p : Nat), (s.notifies = true) ∧ (s.bus.idle = false) ∧ (s.bus.attnWait = true) ∧ (s.bus.stopAt = some p) ∧ (p + 50 * (s.bus.addrPins + 1) ≤ s.paceCount)) ∧
    (∃ (_s : State) (a : Byte) (_rest : List Byte), (0xC0 ≤ a.toNat)) ∧
    (∃ (s : State) (_code : Option Nat) (_stop : Bool), (s.answers = true) ∧ (s.seq.mode = .retention) ∧ (s.seq.resetLow = false) ∧ (s.seq.boot = false)) ∧
    (∃ (s : State) (n : Nat) (_code : Option Nat) (_stop : Bool), (s.answers = true) ∧ (n ≠ s.busAddr)) :=
  ⟨⟨{ full with host := { slot := .ready false [0, 7, 0x01, 0] } }, [0, 7, 0x01, 0], false, by decide +kernel⟩,
    ⟨{ full with host := { slot := .pending 7 1 } }, 7, 1, by decide +kernel⟩,
    ⟨full, by decide +kernel⟩,
    ⟨full, byteOf full.busStatus, by decide +kernel⟩,
    ⟨full, by decide +kernel⟩,
    ⟨{ full with attn := { pending := 0x8000 }, bus := { vcoreFe := true, attnDue := true } }, .attentionWrite, {}, false, by decide +kernel, by decide +kernel, by decide +kernel, Or.inl ⟨rfl, by decide +kernel⟩, by decide +kernel⟩,
    ⟨{ full with attn := { pending := 0x8000 }, paceCount := 500, bus := { vcoreFe := true, idle := false, attnWait := true, addrPins := 7, stopAt := some 100 } }, {}, 100, by decide +kernel⟩,
    ⟨{ full with attn := { pending := 0x8000 } }, 0xC0, [], by decide +kernel⟩,
    ⟨{ State.reset with seq := { mode := .retention, vbatOk := true } }, some 0x12, true, by decide +kernel⟩,
    ⟨full, 0, none, true, by decide +kernel⟩⟩

theorem witness_PacketsAreJudged :
    (∃ (s : State) (ch : Chan) (zero : Bool) (c : Cmd), ∃ code, (s.interprets = true) ∧ (fresh ((s.chan ch).cmd zero) = some c) ∧ ((zero = true ∨ fresh (s.chan ch).place0 = none)) ∧ (packetFault s ch c = some code)) ∧
    (∃ (s : State) (ch : Chan) (zero : Bool) (c : Cmd), (s.interprets = true) ∧ (fresh ((s.chan ch).cmd zero) = some c) ∧ ((zero = true ∨ fresh (s.chan ch).place0 = none)) ∧ (packetFault s ch c = none)) :=
  ⟨⟨{ full with host := { place0 := some { bytes := [0xFF, 0, 0, 0] } } }, .host, true, { bytes := [0xFF, 0, 0, 0] }, stBadOpcode, by decide +kernel⟩,
    ⟨{ full with host := { place12 := some { bytes := [0x01, 0, 1, 0] } } }, .host, false, { bytes := [0x01, 0, 1, 0] }, by decide +kernel⟩⟩

theorem witness_ReadingOpcodes :
    (∃ (pl : Place) (s : State) (c : Cmd), (Turn pl 0x01 c s)) ∧
    (∃ (pl : Place) (s : State) (c : Cmd), (Turn pl 0x02 c s)) ∧
    (∃ (pl : Place) (s : State) (c : Cmd), (Turn pl 0x20 c s)) ∧
    (∃ (pl : Place) (s : State) (c : Cmd), (Turn pl 0x35 c s)) ∧
    (∃ (pl : Place) (s : State) (c : Cmd), (Turn pl 0x36 c s) ∧ (c.plen = 0)) ∧
    (∃ (pl : Place) (s : State) (c : Cmd), (Turn pl 0x40 c s)) ∧
    (∃ (pl : Place) (s : State) (c : Cmd), ∃ b, (Turn pl 0x62 c s) ∧ (blkOf (c.p8 0) (c.p8 1) = some b)) ∧
    (∃ (pl : Place) (s : State) (c : Cmd), (Turn pl 0x70 c s)) ∧
    (∃ (pl : Place) (s : State) (c : Cmd), ∃ ch g, (Turn pl 0x76 c s) ∧ (chanOf s (c.p16 0) = some ch) ∧ (s.otp.calUse = some g)) ∧
    (∃ (pl : Place) (s : State) (c : Cmd), (Turn pl 0x91 c s)) ∧
    (∃ (pl : Place) (s : State) (c : Cmd), (Turn pl 0xB1 c s) ∧ (s.otp.idUsable = true)) ∧
    (∃ (pl : Place) (s : State) (c : Cmd), (Turn pl 0xB4 c s) ∧ ((s.port (c.p8 0)).peerChain ≠ [])) ∧
    (∃ (pl : Place) (s : State) (c : Cmd), (Turn pl 0xC1 c s) ∧ (s.svc.capDone = true)) :=
  ⟨⟨.host12, cmdOn (full) (cm [1, 0, 1, 0]), cm [1, 0, 1, 0], by unfold Turn; decide +kernel⟩,
    ⟨.host12, cmdOn (full) (cm [2, 0, 1, 8, 1, 2, 3, 4, 5, 6, 7, 8]), cm [2, 0, 1, 8, 1, 2, 3, 4, 5, 6, 7, 8], by unfold Turn; decide +kernel⟩,
    ⟨.host12, cmdOn (full) (cm [32, 0, 1, 2, 48, 0]), cm [32, 0, 1, 2, 48, 0], by unfold Turn; decide +kernel⟩,
    ⟨.host12, cmdOn (full) (cm [53, 0, 1, 1, 23]), cm [53, 0, 1, 1, 23], by unfold Turn; decide +kernel⟩,
    ⟨.host12, cmdOn (full) (cm [54, 0, 1, 0]), cm [54, 0, 1, 0], by unfold Turn; decide +kernel⟩,
    ⟨.host12, cmdOn (full) (cm [64, 0, 1, 2, 0, 0]), cm [64, 0, 1, 2, 0, 0], by unfold Turn; decide +kernel⟩,
    ⟨.host12, cmdOn (full) (cm [98, 0, 1, 2, 20, 5]), cm [98, 0, 1, 2, 20, 5], .ridge 5, by unfold Turn; decide +kernel⟩,
    ⟨.host12, cmdOn (full) (cm [112, 0, 1, 3, 255, 3, 1]), cm [112, 0, 1, 3, 255, 3, 1], by unfold Turn; decide +kernel⟩,
    ⟨.host12, cmdOn ({ pt id with otp := { full.otp with calUse := some 5 } }) (cm [118, 0, 1, 2, 23, 16]), cm [118, 0, 1, 2, 23, 16], 71, 5, by unfold Turn; decide +kernel⟩,
    ⟨.host12, cmdOn (full) (cm [145, 0, 1, 5, 5, 0, 255, 31, 1]), cm [145, 0, 1, 5, 5, 0, 255, 31, 1], by unfold Turn; decide +kernel⟩,
    ⟨.host12, cmdOn ({ full with otp := { full.otp with low := [(200, 1), (208, BitVec.ofNat 32 (crc32 (Otp.octets { low := [(200, 1)] } 192 16)))] } }) (cm [177, 0, 1, 0]), cm [177, 0, 1, 0], by unfold Turn; decide +kernel⟩,
    ⟨.host12, cmdOn (pt fun q => { q with peerChain := [0] }) (cm [180, 0, 1, 3, 23, 0, 0]), cm [180, 0, 1, 3, 23, 0, 0], by unfold Turn; decide +kernel⟩,
    ⟨.host12, cmdOn ({ full with svc := { capDone := true } }) (cm [193, 0, 1, 2, 0, 0]), cm [193, 0, 1, 2, 0, 0], by unfold Turn; decide +kernel⟩⟩

theorem witness_SettingParameters :
    (∃ (pl : Place) (s : State) (c : Cmd) (id v : Nat) (r : ItemRow), (Turn pl 0x21 c s) ∧ (setEntries c = [(id, v)]) ∧ (noAccess s id = false) ∧ (s.older c id = false) ∧ (itemRow (pidScope id) (pidItem id) = some r) ∧ (r.acc ≠ .rz) ∧ (pidFlt id = none)) ∧
    (∃ (pl : Place) (s : State) (c : Cmd), (Turn pl 0x21 c s) ∧ (((setEntries c).any fun e => noAccess s e.1) = true)) ∧
    (∃ s : State, (s.locked = true) ∧ (s.takeUp = true) ∧ (s.atBoundary = true)) :=
  ⟨⟨.host12, cmdOn (full) (cm [33, 0, 1, 6, 48, 0, 128, 22, 0, 0]), cm [33, 0, 1, 6, 48, 0, 128, 22, 0, 0], 0x30, 5760, { item := 0x30, acc := .rw, lo := 0, hi := 5760, dflt := 360 }, by unfold Turn; decide +kernel⟩,
    ⟨.host12, cmdOn (full) (cm [33, 0, 1, 6, 0, 0, 128, 22, 0, 0]), cm [33, 0, 1, 6, 0, 0, 128, 22, 0, 0], by unfold Turn; decide +kernel⟩,
    ⟨{ full with takeUp := true }, by decide +kernel⟩⟩

theorem witness_EventsFaultsAndSleep :
    (∃ (pl : Place) (s : State) (c : Cmd), (Turn pl 0x37 c s)) ∧
    (∃ (pl : Place) (s : State) (c : Cmd) (b : Blk) (m : Word), (s.cmdAt pl = some c) ∧ (s.clearDue c = true) ∧ (c.clearOf = some (b, m)) ∧ (b = .seq ∨ b = .aon ∨ b = .bus ∨ (b = .supv ∧ s.inn.degradedFrom = none))) ∧
    (∃ (pl : Place) (s : State) (c : Cmd) (b : Blk) (m : Word), (s.cmdAt pl = some c) ∧ (s.clearDue c = true) ∧ (c.clearOf = some (b, m)) ∧ (b = .supv) ∧ (s.inn.degradedFrom ≠ none)) ∧
    (∃ (pl : Place) (s : State) (c : Cmd), (Turn pl 0x61 c s) ∧ (c.p8 0 = 0)) ∧
    (∃ (pl : Place) (s : State) (c : Cmd), (Turn pl 0x61 c s) ∧ (c.p8 0 = 1)) ∧
    (∃ s : State, (s.faultN.pulse = true) ∧ (s.faultN.byTicks = false) ∧ (s.faultN.pulseAt + 12 ≤ s.now) ∧ (s.inf 0 0 0x3A = 1)) ∧
    (∃ s : State, (s.faultN.pulse = true) ∧ (s.faultN.byTicks = false) ∧ (s.faultN.pulseAt + 12 ≤ s.now) ∧ (s.inf 0 0 0x3A = 0) ∧ (s.locked = true)) ∧
    (∃ (pl : Place) (s : State) (c : Cmd), (Turn pl 0x50 c s)) ∧
    (∃ (s : State) (f : Nat), (s.Shaped) ∧ (s.seq.sleepAt = some f) ∧ (s.seq.mode = .running) ∧ (s.locked = true) ∧ (s.atBoundary = true) ∧ (f ≤ s.frame) ∧ (s.burnPending = false)) ∧
    (∃ s : State, (s.atBoundary = true) ∧ (testerPolicy s = 0) ∧ (s.tester.st ≠ .closed)) :=
  ⟨⟨.host12, cmdOn (full) (cm [55, 0, 1, 1, 0]), cm [55, 0, 1, 1, 0], by unfold Turn; decide +kernel⟩,
    ⟨.host12, { full with host := { place12 := some { bytes := [0x60, 0, 1, 4, 4, 0, 0xFF, 0xFF], accepted := true, frame := 99999 } } }, { bytes := [0x60, 0, 1, 4, 4, 0, 0xFF, 0xFF], accepted := true, frame := 99999 }, .bus, 0xFFFF, by decide +kernel, by decide +kernel, by decide +kernel, by decide⟩,
    ⟨.host12, { full with inn := { degradedFrom := some 0 }, host := { place12 := some { bytes := [0x60, 0, 1, 4, 2, 0, 0xFF, 0xFF], accepted := true, frame := 99999 } } }, { bytes := [0x60, 0, 1, 4, 2, 0, 0xFF, 0xFF], accepted := true, frame := 99999 }, .supv, 0xFFFF, by decide +kernel⟩,
    ⟨.host12, cmdOn (full) (cm [97, 0, 1, 1, 0]), cm [97, 0, 1, 1, 0], by unfold Turn; decide +kernel⟩,
    ⟨.host12, cmdOn (full) (cm [97, 0, 1, 1, 1]), cm [97, 0, 1, 1, 1], by unfold Turn; decide +kernel⟩,
    ⟨{ full with faultN := { pulse := true, pulseAt := 49999988 } }, by decide +kernel⟩,
    ⟨{ full with faultN := { pulse := true, pulseAt := 49999988 }, inForce := [(0x3A, 0)] }, by decide +kernel⟩,
    ⟨.host12, cmdOn (full) (cm [80, 0, 1, 2, 0, 0]), cm [80, 0, 1, 2, 0, 0], by unfold Turn; decide +kernel⟩,
    ⟨{ full with seq := { full.seq with sleepAt := some 100000 } }, 100000, by unfold State.Shaped Engine.Shaped; decide +kernel⟩,
    ⟨{ full with inForce := [(0x3B, 0)], tester := { st := .entered } }, by decide +kernel⟩⟩

theorem witness_ProgramBanks :
    (∃ (pl : Place) (s : State) (c : Cmd), (Turn pl 0x90 c s) ∧ (s.Shaped) ∧ (c.p8 0 < 6) ∧ ((s.ridge (c.p8 0)).switchPending = false)) ∧
    (∃ (pl : Place) (s : State) (c : Cmd), (Turn pl 0x90 c s) ∧ ((s.ridge (c.p8 0)).switchPending = true)) ∧
    (∃ (pl : Place) (s : State) (c : Cmd), (Turn pl 0x94 c s) ∧ (s.Shaped) ∧ (c.p8 0 < 6) ∧ ((s.ridge (c.p8 0)).switchPending = false)) ∧
    (∃ (pl : Place) (s : State) (c : Cmd), (Turn pl 0x94 c s) ∧ (s.Shaped) ∧ (c.p8 0 = 0xFF) ∧ ((∀ r, r < 6 → ridgeHere s r = true → (s.ridge r).switchPending = false))) ∧
    (∃ (pl : Place) (s : State) (c : Cmd), ∃ n, (Turn pl 0x92 c s) ∧ ((s.ridge (c.p8 0)).switchPending = false) ∧ (switchRefused s (c.p8 0) = false) ∧ (c.p8 1 = 0) ∧ ((s.ridge (c.p8 0)).staging.isLaw = false) ∧ (imageFault (s.ridge (c.p8 0)).staging = some n)) ∧
    (∃ (pl : Place) (s : State) (c : Cmd), (Turn pl 0x92 c s) ∧ ((s.ridge (c.p8 0)).switchPending = false) ∧ (switchRefused s (c.p8 0) = false) ∧ (c.p8 1 = 0) ∧ ((s.ridge (c.p8 0)).staging.isLaw = false) ∧ (imageFault (s.ridge (c.p8 0)).staging = none)) ∧
    (∃ (pl : Place) (s : State) (c : Cmd), (Turn pl 0x92 c s) ∧ ((s.ridge (c.p8 0)).switchPending = false) ∧ (switchRefused s (c.p8 0) = false) ∧ (c.p8 1 = 1)) ∧
    (∃ (s : State) (r : Nat), (s.Shaped) ∧ (r < 6) ∧ (s.locked = true) ∧ (s.atBoundary = true) ∧ (s.sup.st ≠ .hold) ∧ (s.mayBankSwitch r = true)) ∧
    (∃ (s : State) (r : Nat), (s.Shaped) ∧ (r < 6) ∧ (s.locked = true) ∧ ((s.ridge r).copying = true) ∧ (r < s.ret.banks.length)) :=
  ⟨⟨.host12, cmdOn (full) (cm [144, 0, 1, 8, 5, 0, 0, 0, 1, 2, 3, 4]), cm [144, 0, 1, 8, 5, 0, 0, 0, 1, 2, 3, 4], by unfold Turn State.Shaped Engine.Shaped; decide +kernel⟩,
    ⟨.host12, cmdOn (rg fun q => { q with switchPending := true }) (cm [144, 0, 1, 8, 5, 0, 0, 0, 1, 2, 3, 4]), cm [144, 0, 1, 8, 5, 0, 0, 0, 1, 2, 3, 4], by unfold Turn; decide +kernel⟩,
    ⟨.host12, cmdOn (full) (cm [148, 0, 1, 6, 5, 0, 1, 2, 3, 4]), cm [148, 0, 1, 6, 5, 0, 1, 2, 3, 4], by unfold Turn State.Shaped Engine.Shaped; decide +kernel⟩,
    ⟨.host12, cmdOn (full) (cm [148, 0, 1, 6, 255, 0, 1, 2, 3, 4]), cm [148, 0, 1, 6, 255, 0, 1, 2, 3, 4], by unfold Turn; decide +kernel, by unfold State.Shaped Engine.Shaped; decide +kernel, by decide +kernel, by decide +kernel⟩,
    ⟨.host12, cmdOn (full) (cm [146, 0, 1, 2, 5, 0]), cm [146, 0, 1, 2, 5, 0], 1, by unfold Turn; decide +kernel⟩,
    ⟨.host12, cmdOn (rg fun q => { q with staging := { words := [(0, 0x50524E4B), (1, 1), (2, 17), (3, 16), (5, 704), (8, BitVec.ofNat 32 (Bank.crc { words := [(0, 0x50524E4B), (1, 1), (2, 17), (3, 16), (5, 704)] }))] } }) (cm [146, 0, 1, 2, 5, 0]), cm [146, 0, 1, 2, 5, 0], by unfold Turn; decide +kernel⟩,
    ⟨.host12, cmdOn (full) (cm [146, 0, 1, 2, 5, 1]), cm [146, 0, 1, 2, 5, 1], by unfold Turn; decide +kernel⟩,
    ⟨rg fun q => { q with switchPending := true }, 5, by unfold State.Shaped Engine.Shaped; decide +kernel⟩,
    ⟨rg fun q => { q with copying := true }, 5, by unfold State.Shaped Engine.Shaped; decide +kernel⟩⟩

theorem witness_PatchesAndCaptures :
    (∃ (pl : Place) (s : State) (c : Cmd), (Turn pl 0x98 c s) ∧ (cellsWf 0 s.svc.patchBuf = true)) ∧
    (∃ (pl : Place) (s : State) (c : Cmd) (img : List Byte), (Turn pl 0x99 c s) ∧ (img = cellsLoad s.svc.patchBuf 0 s.svc.patchHigh)) ∧
    (∃ (pl : Place) (s : State) (c : Cmd), (Turn pl 0x9A c s)) ∧
    (∃ (pl : Place) (s : State) (c : Cmd), (Turn pl 0xC0 c s)) ∧
    (∃ (s : State) (r trigger due since : Nat), (s.svc.capArmed = some (r, trigger, due, since)) ∧ (s.locked = true) ∧ (captureTriggered s r trigger since = true)) ∧
    (∃ (s : State) (r trigger due since : Nat), (s.svc.capArmed = some (r, trigger, due, since)) ∧ (s.locked = true) ∧ (due ≤ s.frame)) :=
  ⟨⟨.host12, cmdOn (full) (cm [152, 0, 1, 4, 0, 0, 1, 2]), cm [152, 0, 1, 4, 0, 0, 1, 2], by unfold Turn; decide +kernel⟩,
    ⟨.host12, cmdOn (full) (cm [153, 0, 1, 0]), cm [153, 0, 1, 0], [], by unfold Turn; decide +kernel⟩,
    ⟨.host12, cmdOn (full) (cm [154, 0, 1, 0]), cm [154, 0, 1, 0], by unfold Turn; decide +kernel⟩,
    ⟨.host12, cmdOn (full) (cm [192, 0, 1, 4, 5, 2, 100, 0]), cm [192, 0, 1, 4, 5, 2, 100, 0], by unfold Turn; decide +kernel⟩,
    ⟨{ ph fun q => { q with pklim := true } with svc := { capArmed := some (5, 2, 100000, 0) } }, 5, 2, 100000, 0, by decide +kernel⟩,
    ⟨{ full with svc := { capArmed := some (5, 2, 100000, 0) } }, 5, 2, 100000, 0, by decide +kernel⟩⟩

theorem witness_PortControlOpcodes :
    (∃ (pl : Place) (s : State) (c : Cmd), (s.Shaped) ∧ (c.p8 0 < 24) ∧ (Turn pl 0x30 c s) ∧ (c.p8 1 = 1) ∧ ((s.cc (c.p8 0)).st = .disabled ∨ (s.cc (c.p8 0)).st = .errorRecovery)) ∧
    (∃ (pl : Place) (s : State) (c : Cmd), (s.Shaped) ∧ (c.p8 0 < 24) ∧ (Turn pl 0x30 c s) ∧ (c.p8 1 = 1) ∧ ((s.cc (c.p8 0)).st ≠ .disabled) ∧ ((s.cc (c.p8 0)).st ≠ .errorRecovery)) ∧
    (∃ (pl : Place) (s : State) (c : Cmd), (s.Shaped) ∧ (c.p8 0 < 24) ∧ (Turn pl 0x30 c s) ∧ (c.p8 1 = 2) ∧ ((s.vc (c.p8 0)).attempt = none) ∧ ((s.sw (c.p8 0)).vconnSrc = false)) ∧
    (∃ (pl : Place) (s : State) (c : Cmd), (s.Shaped) ∧ (c.p8 0 < 24) ∧ (Turn pl 0x30 c s) ∧ (c.p8 1 = 2) ∧ ((s.vc (c.p8 0)).attempt = none) ∧ ((s.sw (c.p8 0)).vconnSrc = true) ∧ ((s.vc (c.p8 0)).good = true) ∧ (sourcing s (c.p8 0) = true) ∧ (s.quiet (c.p8 0) = true)) ∧
    (∃ (pl : Place) (s : State) (c : Cmd), (s.Shaped) ∧ (c.p8 0 < 24) ∧ (Turn pl 0x30 c s) ∧ (c.p8 1 = 3) ∧ (attachedPd s (c.p8 0) = true) ∧ ((s.pd (c.p8 0)).contract.explicit = true) ∧ ((s.sw (c.p8 0)).dfp = false)) ∧
    (∃ (pl : Place) (s : State) (c : Cmd), (s.Shaped) ∧ (c.p8 0 < 24) ∧ (Turn pl 0x30 c s) ∧ (c.p8 1 = 3) ∧ (attachedPd s (c.p8 0) = true) ∧ ((s.pd (c.p8 0)).contract.explicit = true) ∧ ((s.sw (c.p8 0)).dfp = true) ∧ ((s.dc (c.p8 0)).step = none) ∧ (s.mayStart (c.p8 0) = true)) :=
  ⟨⟨.host12, cmdOn (pt fun q => { q with cc.st := .disabled }) (cm [48, 0, 1, 2, 23, 1]), cm [48, 0, 1, 2, 23, 1], by unfold Turn State.Shaped Engine.Shaped; decide +kernel⟩,
    ⟨.host12, cmdOn (sp id) (cm [48, 0, 1, 2, 23, 1]), cm [48, 0, 1, 2, 23, 1], by unfold Turn State.Shaped Engine.Shaped; decide +kernel⟩,
    ⟨.host12, cmdOn (sp id) (cm [48, 0, 1, 2, 23, 2]), cm [48, 0, 1, 2, 23, 2], by unfold Turn State.Shaped Engine.Shaped; decide +kernel⟩,
    ⟨.host12, cmdOn (sp fun q => { q with sw.vconnSrc := true, vc.good := true }) (cm [48, 0, 1, 2, 23, 2]), cm [48, 0, 1, 2, 23, 2], by unfold Turn State.Shaped Engine.Shaped; decide +kernel⟩,
    ⟨.host12, cmdOn (snk fun q => { q with pd.contract := { kind := 2 } }) (cm [48, 0, 1, 2, 23, 3]), cm [48, 0, 1, 2, 23, 3], by unfold Turn State.Shaped Engine.Shaped; decide +kernel⟩,
    ⟨.host12, cmdOn (sp fun q => { q with pd.contract := { kind := 2 }, pd.clear := true }) (cm [48, 0, 1, 2, 23, 3]), cm [48, 0, 1, 2, 23, 3], by unfold Turn State.Shaped Engine.Shaped; decide +kernel⟩⟩

theorem witness_ModeOpcodes :
    (∃ (pl : Place) (s : State) (c : Cmd), (s.Shaped) ∧ (c.p8 0 < 24) ∧ (s.mayStart (c.p8 0) = true) ∧ (attachedPd s (c.p8 0) = true) ∧ (Turn pl 0x31 c s) ∧ ((s.pd (c.p8 0)).contract.explicit = false)) ∧
    (∃ (pl : Place) (s : State) (c : Cmd), (s.Shaped) ∧ (c.p8 0 < 24) ∧ (s.mayStart (c.p8 0) = true) ∧ (attachedPd s (c.p8 0) = true) ∧ (Turn pl 0x31 c s) ∧ ((s.pd (c.p8 0)).contract.explicit = true) ∧ ((s.sw (c.p8 0)).drSupp = none) ∧ ((s.dc (c.p8 0)).entered = false)) ∧
    (∃ (pl : Place) (s : State) (c : Cmd), (s.Shaped) ∧ (c.p8 0 < 24) ∧ (s.mayStart (c.p8 0) = true) ∧ (attachedPd s (c.p8 0) = true) ∧ (Turn pl 0x32 c s) ∧ ((s.sw (c.p8 0)).dfp = true) ∧ ((s.dc (c.p8 0)).attempt = none) ∧ ((s.dc (c.p8 0)).entered = true)) ∧
    (∃ (pl : Place) (s : State) (c : Cmd), ∃ r, (s.Shaped) ∧ (c.p8 0 < 24) ∧ (s.mayStart (c.p8 0) = true) ∧ (attachedPd s (c.p8 0) = true) ∧ (Turn pl 0x32 c s) ∧ ((s.sw (c.p8 0)).dfp = true) ∧ ((s.dc (c.p8 0)).attempt = none) ∧ ((s.dc (c.p8 0)).entered = false) ∧ (((s.dc (c.p8 0)).status = 2 ∨ (s.dc (c.p8 0)).status = 6)) ∧ ((s.dc (c.p8 0)).svids.find? (fun r => r.svid == c.p16 1) = some r) ∧ (c.p8 3 ≤ r.modes.length)) ∧
    (∃ (pl : Place) (s : State) (c : Cmd), (s.Shaped) ∧ (c.p8 0 < 24) ∧ (s.mayStart (c.p8 0) = true) ∧ (attachedPd s (c.p8 0) = true) ∧ (Turn pl 0x33 c s) ∧ ((s.dc (c.p8 0)).entered = false)) ∧
    (∃ (pl : Place) (s : State) (c : Cmd), (s.Shaped) ∧ (c.p8 0 < 24) ∧ (s.mayStart (c.p8 0) = true) ∧ (attachedPd s (c.p8 0) = true) ∧ (Turn pl 0x33 c s) ∧ ((s.dc (c.p8 0)).entered = true)) ∧
    (∃ (pl : Place) (s : State) (c : Cmd), (s.Shaped) ∧ (c.p8 0 < 24) ∧ (s.mayStart (c.p8 0) = true) ∧ (attachedPd s (c.p8 0) = true) ∧ (Turn pl 0x34 c s) ∧ ((s.dc (c.p8 0)).entered = false)) ∧
    (∃ (pl : Place) (s : State) (c : Cmd), (s.Shaped) ∧ (c.p8 0 < 24) ∧ (s.mayStart (c.p8 0) = true) ∧ (attachedPd s (c.p8 0) = true) ∧ (Turn pl 0x34 c s) ∧ ((s.dc (c.p8 0)).entered = true) ∧ ((s.dc (c.p8 0)).vdmFrame = none)) ∧
    (∃ (pl : Place) (s : State) (c : Cmd), (Turn pl 0x36 c s) ∧ (c.plen = 128) ∧ (s.svc.modeTable.length = 128) ∧ (c.par.length = 128) ∧ (s.Shaped) ∧ ((∀ i, i < 8 → s.older c (0xE6C0 + i) = false))) :=
  ⟨⟨.host12, cmdOn (sp id) (cm [49, 0, 1, 1, 23]), cm [49, 0, 1, 1, 23], by unfold Turn State.Shaped Engine.Shaped; decide +kernel⟩,
    ⟨.host12, cmdOn (sp fun q => { q with pd.contract := { kind := 2 }, pd.clear := true }) (cm [49, 0, 1, 1, 23]), cm [49, 0, 1, 1, 23], by unfold Turn State.Shaped Engine.Shaped; decide +kernel⟩,
    ⟨.host12, cmdOn (sp fun q => { q with pd.contract := { kind := 2 }, pd.clear := true, dc.entered := true }) (cm [50, 0, 1, 4, 23, 1, 255, 5]), cm [50, 0, 1, 4, 23, 1, 255, 5], by unfold Turn State.Shaped Engine.Shaped; decide +kernel⟩,
    ⟨.host12, cmdOn (sp fun q => { q with pd.contract := { kind := 2 }, pd.clear := true, dc.status := 2, dc.svids := [{ svid := 0xFF01, modes := [1, 2, 3, 4, 5] }] }) (cm [50, 0, 1, 4, 23, 1, 255, 5]), cm [50, 0, 1, 4, 23, 1, 255, 5], { svid := 0xFF01, modes := [1, 2, 3, 4, 5] }, by unfold Turn State.Shaped Engine.Shaped; decide +kernel⟩,
    ⟨.host12, cmdOn (sp fun q => { q with pd.contract := { kind := 2 }, pd.clear := true }) (cm [51, 0, 1, 1, 23]), cm [51, 0, 1, 1, 23], by unfold Turn State.Shaped Engine.Shaped; decide +kernel⟩,
    ⟨.host12, cmdOn (sp fun q => { q with pd.contract := { kind := 2 }, pd.clear := true, dc.entered := true }) (cm [51, 0, 1, 1, 23]), cm [51, 0, 1, 1, 23], by unfold Turn State.Shaped Engine.Shaped; decide +kernel⟩,
    ⟨.host12, cmdOn (sp fun q => { q with pd.contract := { kind := 2 }, pd.clear := true }) (cm [52, 0, 1, 2, 23, 16]), cm [52, 0, 1, 2, 23, 16], by unfold Turn State.Shaped Engine.Shaped; decide +kernel⟩,
    ⟨.host12, cmdOn (sp fun q => { q with pd.contract := { kind := 2 }, pd.clear := true, dc.entered := true }) (cm [52, 0, 1, 2, 23, 16]), cm [52, 0, 1, 2, 23, 16], by unfold Turn State.Shaped Engine.Shaped; decide +kernel⟩,
    ⟨.host12, cmdOn (full) (cm [54, 0, 1, 128, 255, 255, 255, 255, 255, 255, 255, 255, 255, 255, 255, 255, 255, 255, 255, 255, 255, 255, 255, 255, 255, 255, 255, 255, 255, 255, 255, 255, 255, 255, 255, 255, 255, 255, 255, 255, 255, 255, 255, 255, 255, 255, 255, 255, 255, 255, 255, 255, 255, 255, 255, 255, 255, 255, 255, 255, 255, 255, 255, 255, 255, 255, 255, 255, 255, 255, 255, 255, 255, 255, 255, 255, 255, 255, 255, 255, 255, 255, 255, 255, 255, 255, 255, 255, 255, 255, 255, 255, 255, 255, 255, 255, 255, 255, 255, 255, 255, 255, 255, 255, 255, 255, 255, 255, 255, 255, 255, 255, 255, 255, 255, 255, 255, 255, 255, 255, 255, 255, 255, 255, 255, 255, 255, 255, 255, 255, 255, 255]), cm [54, 0, 1, 128, 255, 255, 255, 255, 255, 255, 255, 255, 255, 255, 255, 255, 255, 255, 255, 255, 255, 255, 255, 255, 255, 255, 255, 255, 255, 255, 255, 255, 255, 255, 255, 255, 255, 255, 255, 255, 255, 255, 255, 255, 255, 255, 255, 255, 255, 255, 255, 255, 255, 255, 255, 255, 255, 255, 255, 255, 255, 255, 255, 255, 255, 255, 255, 255, 255, 255, 255, 255, 255, 255, 255, 255, 255, 255, 255, 255, 255, 255, 255, 255, 255, 255, 255, 255, 255, 255, 255, 255, 255, 255, 255, 255, 255, 255, 255, 255, 255, 255, 255, 255, 255, 255, 255, 255, 255, 255, 255, 255, 255, 255, 255, 255, 255, 255, 255, 255, 255, 255, 255, 255, 255, 255, 255, 255, 255, 255, 255, 255], by unfold Turn State.Shaped Engine.Shaped; decide +kernel⟩⟩

theorem witness_BurningOpcodes :
    (∃ (pl : Place) (s : State) (c : Cmd), ∃ _r : BurnResult, (s.MemOk) ∧ (Turn pl 0x71 c s) ∧ (s.otp.locked (regionOf (c.p16 0)) = true)) ∧
    (∃ (pl : Place) (s : State) (c : Cmd), ∃ _r : BurnResult, ∃ i, (s.MemOk) ∧ (Turn pl 0x71 c s) ∧ (s.otp.locked (regionOf (c.p16 0)) = false) ∧ (firstClash s.otp (c.p16 0) (wordsOf (c.p8 2) (c.par.drop 4)) = some i)) ∧
    (∃ (pl : Place) (s : State) (c : Cmd), ∃ r : BurnResult, ∃ l, (s.MemOk) ∧ (Turn pl 0x71 c s) ∧ (s.otp.locked (regionOf (c.p16 0)) = false) ∧ (firstClash s.otp (c.p16 0) (wordsOf (c.p8 2) (c.par.drop 4)) = none) ∧ (burnShort r (runOf (c.p16 0) (wordsOf (c.p8 2) (c.par.drop 4))) = some l)) ∧
    (∃ (pl : Place) (s : State) (c : Cmd), ∃ r : BurnResult, (s.MemOk) ∧ (Turn pl 0x71 c s) ∧ (s.otp.locked (regionOf (c.p16 0)) = false) ∧ (firstClash s.otp (c.p16 0) (wordsOf (c.p8 2) (c.par.drop 4)) = none) ∧ (burnShort r (runOf (c.p16 0) (wordsOf (c.p8 2) (c.par.drop 4))) = none)) ∧
    (∃ (pl : Place) (s : State) (c : Cmd), ∃ _r : BurnResult, (s.MemOk) ∧ (Turn pl 0x72 c s) ∧ (s.otp.locked (c.p8 0) = true)) ∧
    (∃ (pl : Place) (s : State) (c : Cmd), ∃ _r : BurnResult, (s.MemOk) ∧ (Turn pl 0x72 c s) ∧ (s.otp.locked (c.p8 0) = false) ∧ (s.otp.spent (2 * c.p8 0) = true) ∧ (s.otp.spent (2 * c.p8 0 + 1) = true)) ∧
    (∃ (pl : Place) (s : State) (c : Cmd), ∃ _r : BurnResult, (s.MemOk) ∧ (Turn pl 0x72 c s) ∧ (s.otp.locked (c.p8 0) = false) ∧ (s.otp.spent (2 * c.p8 0) = false) ∧ (s.otp.fillOf (c.p8 0) ≠ c.p16 2)) ∧
    (∃ (pl : Place) (s : State) (c : Cmd), ∃ r : BurnResult, (s.MemOk) ∧ (Turn pl 0x72 c s) ∧ (s.otp.locked (c.p8 0) = false) ∧ (s.otp.spent (2 * c.p8 0) = false) ∧ (s.otp.fillOf (c.p8 0) = c.p16 2) ∧ (burnShort r (lockSteps s.otp r.weak (c.p8 0) (c.p16 2) 0) = none) ∧ ((lockRegion s.otp r.weak (c.p8 0) (c.p16 2) 0).2 = true) ∧ (c.p8 0 < 5)) ∧
    (∃ (pl : Place) (s : State) (c : Cmd), ∃ _r : BurnResult, (s.MemOk) ∧ (Turn pl 0xB0 c s) ∧ (s.otp.anyBit 192 16 = true)) ∧
    (∃ (pl : Place) (s : State) (c : Cmd), ∃ _r : BurnResult, (s.MemOk) ∧ (Turn pl 0xB0 c s) ∧ (s.otp.anyBit 192 16 = false) ∧ (s.otp.locked 2 = true)) ∧
    (∃ (pl : Place) (s : State) (c : Cmd), ∃ r : BurnResult, (s.MemOk) ∧ (Turn pl 0xB0 c s) ∧ (s.otp.anyBit 192 16 = false) ∧ (s.otp.locked 2 = false) ∧ (r.weak = []) ∧ (r.cut = none)) :=
  ⟨⟨.host12, cmdOn (full) (cm [113, 0, 1, 8, 0, 0, 1, 0, 0, 0, 0, 0]), cm [113, 0, 1, 8, 0, 0, 1, 0, 0, 0, 0, 0], {}, by unfold Turn State.MemOk Engine.MemOk; decide +kernel⟩,
    ⟨.host12, cmdOn ({ full with otp := { full.otp with low := [(127, 1)], high := [(127, 1)] } }) (cm [113, 0, 1, 8, 127, 0, 1, 0, 0, 0, 0, 0]), cm [113, 0, 1, 8, 127, 0, 1, 0, 0, 0, 0, 0], {}, 0, by unfold Turn State.MemOk Engine.MemOk; decide +kernel⟩,
    ⟨.host12, cmdOn (full) (cm [113, 0, 1, 8, 127, 0, 1, 0, 1, 0, 0, 128]), cm [113, 0, 1, 8, 127, 0, 1, 0, 1, 0, 0, 128], { cut := some 0 }, [], by unfold Turn State.MemOk Engine.MemOk; decide +kernel⟩,
    ⟨.host12, cmdOn (full) (cm [113, 0, 1, 8, 127, 0, 1, 0, 1, 0, 0, 128]), cm [113, 0, 1, 8, 127, 0, 1, 0, 1, 0, 0, 128], {}, by unfold Turn State.MemOk Engine.MemOk; decide +kernel⟩,
    ⟨.host12, cmdOn (full) (cm [114, 0, 1, 4, 0, 0, 0, 0]), cm [114, 0, 1, 4, 0, 0, 0, 0], {}, by unfold Turn State.MemOk Engine.MemOk; decide +kernel⟩,
    ⟨.host12, cmdOn ({ full with otp := { full.otp with low := [(1023, 0x60000)], high := [(1023, 0x60000)] } }) (cm [114, 0, 1, 4, 1, 0, 0, 0]), cm [114, 0, 1, 4, 1, 0, 0, 0], {}, by unfold Turn State.MemOk Engine.MemOk; decide +kernel⟩,
    ⟨.host12, cmdOn (full) (cm [114, 0, 1, 4, 1, 0, 1, 0]), cm [114, 0, 1, 4, 1, 0, 1, 0], {}, by unfold Turn State.MemOk Engine.MemOk; decide +kernel⟩,
    ⟨.host12, cmdOn (full) (cm [114, 0, 1, 4, 4, 0, 0, 0]), cm [114, 0, 1, 4, 4, 0, 0, 0], {}, by unfold Turn State.MemOk Engine.MemOk; decide +kernel⟩,
    ⟨.host12, cmdOn ({ full with otp := { full.otp with low := [(207, 1)], high := [(207, 1)] } }) (cm [176, 0, 1, 0]), cm [176, 0, 1, 0], {}, by unfold Turn State.MemOk Engine.MemOk; decide +kernel⟩,
    ⟨.host12, cmdOn ({ full with otp := { full.otp with low := [(1023, 0x84)], high := [(1023, 0x84)] } }) (cm [176, 0, 1, 0]), cm [176, 0, 1, 0], {}, by unfold Turn State.MemOk Engine.MemOk; decide +kernel⟩,
    ⟨.host12, cmdOn (full) (cm [176, 0, 1, 0]), cm [176, 0, 1, 0], {}, by unfold Turn State.MemOk Engine.MemOk; decide +kernel⟩⟩

theorem witness_CalibrationOpcodes :
    (∃ (pl : Place) (s : State) (c : Cmd), ∃ (load gain : Bool) (ch : Nat), (Turn pl 0x74 c s) ∧ (chanOf s (c.p16 0) = some ch) ∧ (gain = (rdS16 c.par 2 != 0)) ∧ (captureOk s ch gain load = false)) ∧
    (∃ (pl : Place) (s : State) (c : Cmd), ∃ (load gain : Bool) (ch : Nat), (Turn pl 0x74 c s) ∧ (chanOf s (c.p16 0) = some ch) ∧ (gain = (rdS16 c.par 2 != 0)) ∧ (captureOk s ch gain load = true)) ∧
    (∃ (s : State) (m : PaceSense) (x : CalCapture), (s.captures = [x]) ∧ (chanCodes m x.chan ≠ []) ∧ (x.paces < 499)) ∧
    (∃ (s : State) (m : PaceSense) (x : CalCapture), (s.captures = [x]) ∧ (chanCodes m x.chan ≠ []) ∧ (x.paces = 499)) ∧
    (∃ (s : State) (m : PaceSense) (x : CalCapture), (s.captures = [x]) ∧ (x.paces < 500) ∧ (chanCodes m x.chan = [])) ∧
    (∃ (s : State) (x : CalCapture) (mean : Nat) (d : Int), (x.codes ≠ 0) ∧ (mean = roundDivNat x.sum x.codes) ∧ (d = (mean : Int) - zNom x.chan - offsetNow s.otp x.chan) ∧ (x.gain = false)) ∧
    (∃ (s : State) (x : CalCapture) (mean : Nat) (d : Int), (x.codes ≠ 0) ∧ (mean = roundDivNat x.sum x.codes) ∧ (d = (mean : Int) - zNom x.chan - offsetNow s.otp x.chan) ∧ (x.gain = true) ∧ (d.natAbs ≤ 256)) ∧
    (∃ (s : State) (x : CalCapture) (mean : Nat) (d : Int), (x.codes ≠ 0) ∧ (mean = roundDivNat x.sum x.codes) ∧ (d = (mean : Int) - zNom x.chan - offsetNow s.otp x.chan) ∧ (x.gain = true) ∧ (256 < d.natAbs)) ∧
    (∃ (pl : Place) (s : State) (c : Cmd), ∃ _r : BurnResult, (Turn pl 0x75 c s) ∧ (s.otp.staged = [])) ∧
    (∃ (pl : Place) (s : State) (c : Cmd), ∃ _r : BurnResult, (Turn pl 0x75 c s) ∧ (s.otp.staged ≠ []) ∧ (nextGen s.otp = none)) ∧
    (∃ (pl : Place) (s : State) (c : Cmd), ∃ _r : BurnResult, ∃ g, (Turn pl 0x75 c s) ∧ (s.otp.staged ≠ []) ∧ (nextGen s.otp = some g) ∧ (s.otp.locked 3 = true)) ∧
    (∃ (pl : Place) (s : State) (c : Cmd), ∃ r : BurnResult, ∃ g, (Turn pl 0x75 c s) ∧ (s.otp.staged ≠ []) ∧ (nextGen s.otp = some g) ∧ (s.otp.locked 3 = false) ∧ (r.weak = []) ∧ (r.cut = none) ∧ (s.MemOk)) :=
  ⟨⟨.host12, cmdOn (pt id) (cm [116, 0, 1, 5, 23, 16, 1, 0, 0]), cm [116, 0, 1, 5, 23, 16, 1, 0, 0], false, true, 71, by unfold Turn; decide +kernel⟩,
    ⟨.host12, cmdOn (pt id) (cm [116, 0, 1, 5, 23, 16, 0, 0, 0]), cm [116, 0, 1, 5, 23, 16, 0, 0, 0], false, false, 71, by unfold Turn; decide +kernel⟩,
    ⟨{ pt id with captures := [{ chan := 71, paces := 498 }] }, { ports := List.replicate 24 { vCodes := List.replicate 10 2304, iCodes := List.replicate 10 2048 } }, { chan := 71, paces := 498 }, by decide +kernel⟩,
    ⟨{ pt id with captures := [{ chan := 71, paces := 499 }] }, { ports := List.replicate 24 { vCodes := List.replicate 10 2304, iCodes := List.replicate 10 2048 } }, { chan := 71, paces := 499 }, by decide +kernel⟩,
    ⟨{ pt id with captures := [{ chan := 71, paces := 499 }] }, {}, { chan := 71, paces := 499 }, by decide +kernel⟩,
    ⟨{ full with otp := { full.otp with staged := [(71, false, 0, 0)] } }, { chan := 71, gain := false, truth := -32768, paces := 500, sum := 20480, codes := 10 }, 2048, 0, by decide +kernel⟩,
    ⟨{ full with otp := { full.otp with staged := [(71, false, 0, 0)] } }, { chan := 71, gain := true, truth := -32768, paces := 500, sum := 23040, codes := 10 }, 2304, 256, by decide +kernel⟩,
    ⟨{ full with otp := { full.otp with staged := [(71, false, 0, 0)] } }, { chan := 71, gain := true, truth := -32768, paces := 500, sum := 23050, codes := 10 }, 2305, 257, by decide +kernel⟩,
    ⟨.host12, cmdOn (full) (cm [117, 0, 1, 0]), cm [117, 0, 1, 0], {}, by unfold Turn; decide +kernel⟩,
    ⟨.host12, cmdOn ({ full with otp := { full.otp with staged := [(0, false, 1, 1)], low := [(261, 1)] } }) (cm [117, 0, 1, 0]), cm [117, 0, 1, 0], {}, by unfold Turn; decide +kernel⟩,
    ⟨.host12, cmdOn ({ full with otp := { full.otp with staged := [(0, false, 1, 1)], low := [(1023, 0x0108)] } }) (cm [117, 0, 1, 0]), cm [117, 0, 1, 0], {}, 1, by unfold Turn; decide +kernel⟩,
    ⟨.host12, cmdOn ({ full with otp := { full.otp with staged := [(0, false, 1, 1)] } }) (cm [117, 0, 1, 0]), cm [117, 0, 1, 0], {}, 1, by unfold Turn State.MemOk Engine.MemOk; decide +kernel⟩⟩

theorem witness_Authentication :
    (∃ (pl : Place) (s : State) (c : Cmd), (Turn pl 0xB2 c s) ∧ (c.p16 0 = 0) ∧ ((c.par.drop 4).length = c.p16 2)) ∧
    (∃ (pl : Place) (s : State) (c : Cmd), (Turn pl 0xB2 c s) ∧ ((c.par.drop 4).length < c.p16 2) ∧ (c.p16 0 = 0)) ∧
    (∃ (pl : Place) (s : State) (c : Cmd), (s.Shaped) ∧ (Turn pl 0xB3 c s) ∧ (c.p8 0 < 24) ∧ (attachedPd s (c.p8 0) = true) ∧ ((s.pd (c.p8 0)).contract.explicit = true) ∧ ((s.pd (c.p8 0)).rev20 = false) ∧ (s.svc.initPort = none) ∧ (s.mayStart (c.p8 0) = true)) ∧
    (∃ (s : State) (p : Nat), (s.Shaped) ∧ (p < 24) ∧ (attachedPd s p = true) ∧ ((s.pd p).rev20 = true)) ∧
    (∃ (s : State) (p : Nat), (s.Shaped) ∧ (p < 24) ∧ (attachedPd s p = true) ∧ ((s.pd p).rev20 = false) ∧ (s.svc.chain = []) ∧ (s.quiet p = true)) ∧
    (∃ (s : State) (p : Nat), (s.Shaped) ∧ (p < 24) ∧ (attachedPd s p = true) ∧ ((s.pd p).rev20 = false) ∧ (s.svc.chain ≠ []) ∧ (s.otp.idUsable = true) ∧ (s.quiet p = true)) ∧
    (∃ (s : State) (p : Nat), (s.Shaped) ∧ (p < 24) ∧ (attachedPd s p = true) ∧ (s.svc.initPort = some p) ∧ (s.svc.initStep = 1)) ∧
    (∃ (s : State) (p : Nat), ∃ r : SecResp, (s.Shaped) ∧ (p < 24) ∧ (attachedPd s p = true) ∧ (s.svc.initPort = some p) ∧ ((r = .none ∨ r = .error))) :=
  ⟨⟨.host12, cmdOn (full) (cm [178, 0, 1, 5, 0, 0, 1, 0, 9]), cm [178, 0, 1, 5, 0, 0, 1, 0, 9], by unfold Turn; decide +kernel⟩,
    ⟨.host12, cmdOn (full) (cm [178, 0, 1, 5, 0, 0, 2, 0, 9]), cm [178, 0, 1, 5, 0, 0, 2, 0, 9], by unfold Turn; decide +kernel⟩,
    ⟨.host12, cmdOn (sp fun q => { q with pd.contract := { kind := 2 }, pd.clear := true }) (cm [179, 0, 1, 1, 23]), cm [179, 0, 1, 1, 23], by unfold Turn State.Shaped Engine.Shaped; decide +kernel⟩,
    ⟨sp fun q => { q with pd.rev20 := true }, 23, by unfold State.Shaped Engine.Shaped; decide +kernel⟩,
    ⟨sp id, 23, by unfold State.Shaped Engine.Shaped; decide +kernel⟩,
    ⟨{ sp id with svc := { chain := [1] }, otp := { full.otp with low := [(200, 1), (208, BitVec.ofNat 32 (crc32 (Otp.octets { low := [(200, 1)] } 192 16)))] } }, 23, by unfold State.Shaped Engine.Shaped; decide +kernel⟩,
    ⟨{ sp id with svc := { initPort := some 23, initStep := 1 } }, 23, by unfold State.Shaped Engine.Shaped; decide +kernel⟩,
    ⟨{ sp id with svc := { initPort := some 23 } }, 23, .error, by unfold State.Shaped Engine.Shaped; decide +kernel⟩⟩

theorem witness_LiveServiceOpcodes :
    (∃ (pl : Place) (s : State) (c : Cmd), (Turn pl 0xA0 c s) ∧ (liveInOtp s = false)) ∧
    (∃ (pl : Place) (s : State) (c : Cmd), (Turn pl 0xA0 c s) ∧ (liveInOtp s = true) ∧ (s.liveOn = false)) ∧
    (∃ (pl : Place) (s : State) (c : Cmd), (Turn pl 0xA0 c s) ∧ (liveInOtp s = true) ∧ (s.liveOn = true) ∧ ((s.phase (c.p8 0)).stopped = false) ∧ ((s.phase (c.p8 0)).retired = false) ∧ (inLiveAction s (c.p8 0) = false) ∧ (c.p8 1 = 1)) ∧
    (∃ (pl : Place) (s : State) (c : Cmd), (Turn pl 0xA1 c s) ∧ (liveInOtp s = false)) ∧
    (∃ (pl : Place) (s : State) (c : Cmd), ∃ mv, (Turn pl 0xA1 c s) ∧ (liveInOtp s = true) ∧ (s.liveOn = true) ∧ ((s.phase (c.p8 0)).retired = true) ∧ (inLiveAction s (c.p8 0) = false) ∧ (mv < 700)) ∧
    (∃ (pl : Place) (s : State) (c : Cmd), ∃ mv, (Turn pl 0xA1 c s) ∧ (liveInOtp s = true) ∧ (s.liveOn = true) ∧ ((s.phase (c.p8 0)).retired = true) ∧ (inLiveAction s (c.p8 0) = false) ∧ (700 ≤ mv)) ∧
    (∃ (pl : Place) (s : State) (c : Cmd), (Turn pl 0xA2 c s) ∧ (liveInOtp s = true) ∧ (s.liveOn = true) ∧ ((s.path (c.p8 0)).recalPaces = 0) ∧ (offsetOk s (c.p8 0) = false)) ∧
    (∃ (pl : Place) (s : State) (c : Cmd), (Turn pl 0xA2 c s) ∧ (liveInOtp s = true) ∧ (s.liveOn = true) ∧ ((s.path (c.p8 0)).recalPaces = 0) ∧ (offsetOk s (c.p8 0) = true)) ∧
    (∃ (_pl : Place) (s : State) (_c : Cmd), ∃ (_m : PaceSense) (p _v _i : Nat), (s.Shaped) ∧ (p < 24) ∧ (offsetOk s p = false ∨ (s.path p).recalPaces = 0)) ∧
    (∃ (_pl : Place) (s : State) (_c : Cmd), ∃ (_m : PaceSense) (p _v _i : Nat), (s.Shaped) ∧ (p < 24) ∧ (offsetOk s p = true) ∧ (1 < (s.path p).recalPaces)) ∧
    (∃ (_pl : Place) (s : State) (_c : Cmd), ∃ (m : PaceSense) (p v i : Nat), (s.Shaped) ∧ (p < 24) ∧ (offsetOk s p = true) ∧ ((s.path p).recalPaces = 1) ∧ (v = roundDivNat ((s.path p).recalV + (chanCodes m (72 + p)).sum) (max 1 ((s.path p).recalVn + (chanCodes m (72 + p)).length))) ∧ (i = roundDivNat ((s.path p).recalI + (chanCodes m (48 + p)).sum) (max 1 ((s.path p).recalIn + (chanCodes m (48 + p)).length)))) ∧
    (∃ (pl : Place) (s : State) (c : Cmd), (Turn pl 0xA4 c s) ∧ (marginInOtp s = false)) ∧
    (∃ (pl : Place) (s : State) (c : Cmd), (Turn pl 0xA4 c s) ∧ (marginInOtp s = true) ∧ (s.marginOn = true) ∧ (exclCode s (c.p8 0) = 0) ∧ (s.ageQueue.contains (c.p8 0) = false)) ∧
    (∃ (pl : Place) (s : State) (c : Cmd), (Turn pl 0xA3 c s) ∧ (c.p8 0 ≤ 1) ∧ (liveInOtp s = false) ∧ (c.p8 0 = 0)) ∧
    (∃ (pl : Place) (s : State) (c : Cmd), (Turn pl 0xA3 c s) ∧ (c.p8 0 ≤ 1) ∧ (liveInOtp s = false) ∧ (c.p8 0 = 1)) ∧
    (∃ (pl : Place) (s : State) (c : Cmd), (Turn pl 0xA3 c s) ∧ (c.p8 0 ≤ 1) ∧ (liveInOtp s = true) ∧ (s.liveOn = true) ∧ (s.burnPending = false) ∧ ((s.ridges.any fun q => q.switchPending) = false) ∧ (c.p8 0 = 0)) ∧
    (∃ (pl : Place) (s : State) (c : Cmd), (Turn pl 0xA3 c s) ∧ (c.p8 0 ≤ 1) ∧ (liveInOtp s = true) ∧ (s.liveOn = true) ∧ (s.burnPending = false) ∧ ((s.ridges.any fun q => q.switchPending) = false) ∧ (c.p8 0 = 1)) :=
  ⟨⟨.host12, cmdOn (full) (cm [160, 0, 1, 2, 47, 1]), cm [160, 0, 1, 2, 47, 1], by unfold Turn; decide +kernel⟩,
    ⟨.host12, cmdOn ({ full with otp := { full.otp with modes := 2 }, inForce := [(0x40, 0)] }) (cm [160, 0, 1, 2, 47, 1]), cm [160, 0, 1, 2, 47, 1], by unfold Turn; decide +kernel⟩,
    ⟨.host12, cmdOn ({ full with otp := { full.otp with modes := 2 } }) (cm [160, 0, 1, 2, 47, 1]), cm [160, 0, 1, 2, 47, 1], by unfold Turn; decide +kernel⟩,
    ⟨.host12, cmdOn (full) (cm [161, 0, 1, 1, 47]), cm [161, 0, 1, 1, 47], by unfold Turn; decide +kernel⟩,
    ⟨.host12, cmdOn ({ ph fun q => { q with retired := true } with otp := { full.otp with modes := 2 } }) (cm [161, 0, 1, 1, 47]), cm [161, 0, 1, 1, 47], 699, by unfold Turn; decide +kernel⟩,
    ⟨.host12, cmdOn ({ ph fun q => { q with retired := true } with otp := { full.otp with modes := 2 } }) (cm [161, 0, 1, 1, 47]), cm [161, 0, 1, 1, 47], 700, by unfold Turn; decide +kernel⟩,
    ⟨.host12, cmdOn ({ sp id with otp := { full.otp with modes := 2 } }) (cm [162, 0, 1, 1, 23]), cm [162, 0, 1, 1, 23], by unfold Turn; decide +kernel⟩,
    ⟨.host12, cmdOn ({ pt id with otp := { full.otp with modes := 2 } }) (cm [162, 0, 1, 1, 23]), cm [162, 0, 1, 1, 23], by unfold Turn; decide +kernel⟩,
    ⟨.host12, pt id, {}, { ports := List.replicate 24 { vCodes := List.replicate 10 2304, iCodes := List.replicate 10 2048 } }, 23, 0, 0, by unfold State.Shaped Engine.Shaped; decide +kernel⟩,
    ⟨.host12, { pt fun q => { q with path.recalPaces := 2 } with otp := { full.otp with modes := 2 } }, {}, { ports := List.replicate 24 { vCodes := List.replicate 10 2304, iCodes := List.replicate 10 2048 } }, 23, 0, 0, by unfold State.Shaped Engine.Shaped; decide +kernel⟩,
    ⟨.host12, { pt fun q => { q with path.recalPaces := 1 } with otp := { full.otp with modes := 2 } }, {}, { ports := List.replicate 24 { vCodes := List.replicate 10 2304, iCodes := List.replicate 10 2048 } }, 23, 2304, 2048, by unfold State.Shaped Engine.Shaped; decide +kernel⟩,
    ⟨.host12, cmdOn (full) (cm [164, 0, 1, 1, 47]), cm [164, 0, 1, 1, 47], by unfold Turn; decide +kernel⟩,
    ⟨.host12, cmdOn ({ ph fun q => { q with fitted := true } with otp := { full.otp with modes := 1 } }) (cm [164, 0, 1, 1, 47]), cm [164, 0, 1, 1, 47], by unfold Turn; decide +kernel⟩,
    ⟨.host12, cmdOn (full) (cm [163, 0, 1, 1, 0]), cm [163, 0, 1, 1, 0], by unfold Turn; decide +kernel⟩,
    ⟨.host12, cmdOn (full) (cm [163, 0, 1, 1, 1]), cm [163, 0, 1, 1, 1], by unfold Turn; decide +kernel⟩,
    ⟨.host12, cmdOn ({ full with otp := { full.otp with modes := 2 } }) (cm [163, 0, 1, 1, 0]), cm [163, 0, 1, 1, 0], by unfold Turn; decide +kernel⟩,
    ⟨.host12, cmdOn ({ full with otp := { full.otp with modes := 2 } }) (cm [163, 0, 1, 1, 1]), cm [163, 0, 1, 1, 1], by unfold Turn; decide +kernel⟩⟩

theorem witness_Cairns :
    (∃ (pl : Place) (s : State) (c : Cmd), (s.Shaped) ∧ (Turn pl 0x80 c s)) ∧
    (∃ (pl : Place) (s : State) (c : Cmd), (s.Shaped) ∧ (Turn pl 0x81 c s) ∧ (s.ret.writing.isSome = true)) ∧
    (∃ (pl : Place) (s : State) (c : Cmd), (s.Shaped) ∧ (Turn pl 0x81 c s) ∧ (s.ret.writing = none)) ∧
    (∃ (s : State) (n : Nat), (s.Shaped) ∧ (writesCairns s = true) ∧ (s.firstDirty = some n)) ∧
    (∃ (s : State) (n : Nat), (s.Shaped) ∧ (n < 25) ∧ (s.ret.writing = some n) ∧ (s.locked = true)) :=
  ⟨⟨.host12, cmdOn (full) (cm [128, 0, 1, 0]), cm [128, 0, 1, 0], by unfold Turn State.Shaped Engine.Shaped; decide +kernel⟩,
    ⟨.host12, cmdOn ({ full with ret := { full.ret with writing := some 24 } }) (cm [129, 0, 1, 8, 255, 255, 255, 255, 255, 255, 255, 255]), cm [129, 0, 1, 8, 255, 255, 255, 255, 255, 255, 255, 255], by unfold Turn State.Shaped Engine.Shaped; decide +kernel⟩,
    ⟨.host12, cmdOn (full) (cm [129, 0, 1, 8, 255, 255, 255, 255, 255, 255, 255, 255]), cm [129, 0, 1, 8, 255, 255, 255, 255, 255, 255, 255, 255], by unfold Turn State.Shaped Engine.Shaped; decide +kernel⟩,
    ⟨full.markDirty 24, 24, by unfold State.Shaped Engine.Shaped; decide +kernel⟩,
    ⟨{ full with ret := { full.ret with writing := some 24 } }, 24, by unfold State.Shaped Engine.Shaped; decide +kernel⟩⟩

theorem witness_TypeCEventsTouchOnlyTheirPort :
    (∃ (p : Nat) (_s : State) (c : Instr), (TypeCEvent p c)) :=
  ⟨23, full, .overdrawTypecEnd 23, by unfold TypeCEvent; exact Or.inl (by decide +kernel)⟩

theorem witness_TogglesAndHomes :
    (∃ (s : State) (p : Nat) (seen : List (List Nat × List Nat)), (s.Shaped) ∧ (s.serves p = true) ∧ ((s.cc p).st = .unattachedSrc) ∧ (s.frameCount % 4 = 0) ∧ (s.pace = 107) ∧ (seen.length = 8) ∧ (sniffClass (seen.map fun x => (s.cc p).held x.1) (s.cc p).cc1 = .rd) ∧ ((sniffClass (seen.map fun x => (s.cc p).held x.2) (s.cc p).cc2 = .opn ∨ sniffClass (seen.map fun x => (s.cc p).held x.2) (s.cc p).cc2 = .ra))) ∧
    (∃ (s : State) (p : Nat), (s.Shaped) ∧ (toggles s p = true) ∧ ((s.cc p).st = .unattachedSrc) ∧ ((s.cc p).toggleFrame + 28 ≤ s.frame)) ∧
    (∃ (s : State) (p : Nat), (s.Shaped) ∧ (toggles s p = true) ∧ ((s.cc p).st = .unattachedSnk) ∧ ((s.cc p).toggleFrame + (s.cc p).togglePeriod ≤ s.frame)) ∧
    (∃ (s : State) (p : Nat), (s.Shaped) ∧ (s.serves p = true) ∧ (((s.cc p).st = .attachWaitSrc ∨ (s.cc p).st = .attachWaitSnk)) ∧ ((s.cc p).debLine = 0) ∧ ((s.cc p).goneFrom + 7500 ≤ s.now)) ∧
    (∃ (s : State) (p : Nat), (s.Shaped) ∧ (s.serves p = true) ∧ ((s.cc p).st = .errorRecovery) ∧ ((s.cc p).since + 15000 ≤ s.now) ∧ ((s.cc p).vbusMv < 800)) ∧
    (∃ (s : State) (p : Nat), (s.Shaped) ∧ (s.serves p = true) ∧ (s.atBoundary = true) ∧ (s.seq.mode ≠ .serviceBoot) ∧ (s.seq.full = true) ∧ ((s.cc p).mode ≠ portParam s p 0x20) ∧ (portParam s p 0x20 = 2) ∧ ((s.cc p).st ≠ .disabled)) ∧
    (∃ (s : State) (p : Nat), (s.Shaped) ∧ (s.serves p = true) ∧ (s.atBoundary = true) ∧ (s.seq.mode ≠ .serviceBoot) ∧ (s.seq.full = true) ∧ ((s.cc p).mode ≠ portParam s p 0x20) ∧ (portParam s p 0x20 ≠ 2) ∧ (((s.cc p).st = .unattachedSrc ∨ (s.cc p).st = .unattachedSnk ∨ (s.cc p).st = .attachWaitSrc ∨ (s.cc p).st = .attachWaitSnk))) :=
  ⟨⟨{ pt fun q => { q with cc.st := .unattachedSrc } with pace := 107 }, 23, List.replicate 4 ([1000], [100]) ++ List.replicate 4 ([], [100]), by unfold State.Shaped Engine.Shaped; decide +kernel⟩,
    ⟨pt fun q => { q with cc.st := .unattachedSrc, cc.mode := 1, cc.toggleFrame := 99972 }, 23, by unfold State.Shaped Engine.Shaped; decide +kernel⟩,
    ⟨pt fun q => { q with cc.st := .unattachedSnk, cc.mode := 1, cc.toggleFrame := 99920 }, 23, by unfold State.Shaped Engine.Shaped; decide +kernel⟩,
    ⟨pt fun q => { q with cc.st := .attachWaitSnk, cc.goneFrom := 49992500 }, 23, by unfold State.Shaped Engine.Shaped; decide +kernel⟩,
    ⟨pt fun q => { q with cc.st := .errorRecovery, cc.since := 49985000, cc.vbusMv := 799 }, 23, by unfold State.Shaped Engine.Shaped; decide +kernel⟩,
    ⟨{ pt fun q => { q with cc.st := .attachedSrc } with inForce := [(pid 3 23 0x20, 2)] }, 23, by unfold State.Shaped Engine.Shaped; decide +kernel⟩,
    ⟨{ pt fun q => { q with cc.st := .attachWaitSnk } with inForce := [(pid 3 23 0x20, 1)] }, 23, by unfold State.Shaped Engine.Shaped; decide +kernel⟩⟩

theorem witness_AttachAndClose :
    (∃ (s : State) (p : Nat), (s.Shaped) ∧ (s.serves p = true) ∧ ((s.cc p).st = .attachWaitSrc) ∧ ((s.cc p).debLine ≠ 0) ∧ ((s.cc p).debFrom + 75000 ≤ s.now) ∧ ((s.cc p).vbusMv < 800) ∧ (¬((s.cc p).cc1 = .rd ∧ (s.cc p).cc2 = .rd))) ∧
    (∃ (s : State) (p : Nat), (s.Shaped) ∧ (s.serves p = true) ∧ (s.seq.mode ≠ .serviceBoot) ∧ ((s.cc p).st = .attachWaitSnk) ∧ ((s.cc p).debLine ≠ 0) ∧ ((s.cc p).debFrom + 75000 ≤ s.now) ∧ (4000 ≤ (s.cc p).vbusMv)) ∧
    (∃ (s : State) (p : Nat), (s.Shaped) ∧ (s.serves p = true) ∧ ((s.cc p).st = .attachedSrc) ∧ ((s.cc p).detach = 0) ∧ ((s.path p).swOn = false) ∧ ((s.pd p).hrFrame = none) ∧ (2375 ≤ (s.path p).vAvg) ∧ ((s.path p).vAvg ≤ 2750) ∧ (((s.vc p).on = false ∨ (s.vc p).good = true))) ∧
    (∃ (s : State) (p : Nat), (s.Shaped) ∧ (s.serves p = true) ∧ ((s.cc p).st = .attachedSrc) ∧ ((s.cc p).vbusChecked = false) ∧ ((s.cc p).detach = 0) ∧ ((s.pd p).hrFrame = none) ∧ ((s.cc p).since + 10000 ≤ s.now) ∧ (4750 ≤ s.vbus p) ∧ (s.vbus p ≤ 5500)) ∧
    (∃ (s : State) (p : Nat), (s.Shaped) ∧ (s.serves p = true) ∧ ((s.cc p).st = .attachedSrc) ∧ ((s.cc p).vbusChecked = false) ∧ ((s.cc p).detach = 0) ∧ ((s.pd p).hrFrame = none) ∧ ((s.cc p).since + 10000 ≤ s.now) ∧ ((s.vbus p < 4750 ∨ 5500 < s.vbus p))) ∧
    (∃ (s : State) (p f : Nat), (s.Shaped) ∧ (s.serves p = true) ∧ ((s.cc p).st = .attachWaitSrc) ∧ ((s.cc p).unexpSet = false) ∧ ((s.cc p).vbusHighFrom = some f) ∧ (f + 325000 ≤ s.now)) :=
  ⟨⟨pt fun q => { q with cc.st := .attachWaitSrc, cc.debLine := 1, cc.cc1 := .rd, cc.debFrom := 49925000, cc.vbusMv := 799 }, 23, by unfold State.Shaped Engine.Shaped; decide +kernel⟩,
    ⟨pt fun q => { q with cc.st := .attachWaitSnk, cc.debLine := 1, cc.cc1 := .rp, cc.debFrom := 49925000, cc.vbusMv := 4000 }, 23, by unfold State.Shaped Engine.Shaped; decide +kernel⟩,
    ⟨sp fun q => { q with path.vAvg := 2750 }, 23, by unfold State.Shaped Engine.Shaped; decide +kernel⟩,
    ⟨sp fun q => { q with cc.since := 49990000, cc.vbusMv := 5500 }, 23, by unfold State.Shaped Engine.Shaped; decide +kernel⟩,
    ⟨sp fun q => { q with cc.since := 49990000, cc.vbusMv := 5501 }, 23, by unfold State.Shaped Engine.Shaped; decide +kernel⟩,
    ⟨pt fun q => { q with cc.st := .attachWaitSrc, cc.vbusHighFrom := some 49675000 }, 23, 49675000, by unfold State.Shaped Engine.Shaped; decide +kernel⟩⟩

theorem witness_DetachOfAPort :
    (∃ (s : State) (p f : Nat), (s.Shaped) ∧ (s.serves p = true) ∧ ((s.cc p).st = .attachedSrc) ∧ ((s.cc p).detach = 0) ∧ ((s.cc p).openFrom = some f) ∧ (f + 7500 ≤ s.now)) ∧
    (∃ (s : State) (p : Nat), (s.Shaped) ∧ (s.serves p = true) ∧ ((s.cc p).st = .attachedSrc) ∧ ((s.cc p).detach = 0) ∧ ((s.sw p).kind = none) ∧ (4 ≤ (s.cc p).openLowRun)) ∧
    (∃ (s : State) (p : Nat), (s.Shaped) ∧ (s.serves p = true) ∧ (s.atBoundary = true) ∧ ((s.cc p).detach ≠ 0) ∧ ((s.cc p).detachFrame < s.frame)) ∧
    (∃ (s : State) (p : Nat), (s.Shaped) ∧ (p < 24) ∧ ((s.cc p).disch = true) ∧ ((s.cc p).vbusMv < 800)) ∧
    (∃ (s : State) (p : Nat), (s.Shaped) ∧ (s.serves p = true) ∧ ((s.cc p).disch = true) ∧ ((s.cc p).dischDetach = true) ∧ (800 ≤ s.vbus p) ∧ ((s.cc p).detachFrame + 650 ≤ s.frame)) ∧
    (∃ (s : State) (p : Nat), (s.Shaped) ∧ (s.serves p = true) ∧ ((s.cc p).st = .attachedSnk) ∧ (4 ≤ (s.cc p).lowRun) ∧ ((s.pd p).next = none) ∧ ((s.sw p).kind = none) ∧ ((s.pd p).snkRestore = none)) :=
  ⟨⟨sp fun q => { q with cc.openFrom := some 49992500 }, 23, 49992500, by unfold State.Shaped Engine.Shaped; decide +kernel⟩,
    ⟨sp fun q => { q with cc.openLowRun := 4 }, 23, by unfold State.Shaped Engine.Shaped; decide +kernel⟩,
    ⟨sp fun q => { q with cc.detach := 2, cc.detachFrame := 99999 }, 23, by unfold State.Shaped Engine.Shaped; decide +kernel⟩,
    ⟨pt fun q => { q with cc.disch := true, cc.vbusMv := 799 }, 23, by unfold State.Shaped Engine.Shaped; decide +kernel⟩,
    ⟨pt fun q => { q with cc.disch := true, cc.dischDetach := true, cc.detachFrame := 99350, path.vsrc := true, cc.vbusMv := 800 }, 23, by unfold State.Shaped Engine.Shaped; decide +kernel⟩,
    ⟨snk fun q => { q with cc.lowRun := 4 }, 23, by unfold State.Shaped Engine.Shaped; decide +kernel⟩⟩

theorem witness_VconnOfAPort :
    (∃ (s : State) (p f : Nat) (_b : Bool), (s.Shaped) ∧ (s.serves p = true) ∧ ((s.vc p).on = true) ∧ ((s.vc p).good = false) ∧ ((s.vc p).goodFrom = some f) ∧ (f + 500 ≤ s.now) ∧ ((s.sw p).kind = none)) ∧
    (∃ (s : State) (p : Nat) (c : Instr) (b : Nat), (s.Shaped) ∧ (s.serves p = true) ∧ ((s.vc p).on = true) ∧ (((c = .vconnFaultTimerTrip p ∧ b = 2 ∧ ∃ f, (s.vc p).limitFrom = some f ∧ f + 1000 ≤ s.now) ∨ (c = .vconnHardTrip p ∧ b = 3) ∨ (c = .vconnReverseBlock p ∧ b = 4)))) ∧
    (∃ (s : State) (p : Nat), (s.Shaped) ∧ (s.serves p = true) ∧ ((s.vc p).on = true) ∧ ((s.ridge (ridgeOfPort p)).vconnInGood = false)) ∧
    (∃ (s : State) (p : Nat), (s.Shaped) ∧ (s.serves p = true) ∧ ((s.vc p).pulldown.isSome = true) ∧ ((s.vc p).mv < 300)) :=
  ⟨⟨sp fun q => { q with vc.on := true, vc.goodFrom := some 49999500 }, 23, 49999500, true, by unfold State.Shaped Engine.Shaped; decide +kernel⟩,
    ⟨sp fun q => { q with vc.on := true, vc.limitFrom := some 49999000 }, 23, .vconnFaultTimerTrip 23, 2, by unfold State.Shaped Engine.Shaped; decide +kernel, by decide +kernel, by decide +kernel, Or.inl ⟨rfl, rfl, 49999000, by decide +kernel, by decide +kernel⟩⟩,
    ⟨sp fun q => { q with vc.on := true }, 23, by unfold State.Shaped Engine.Shaped; decide +kernel⟩,
    ⟨sp fun q => { q with vc.pulldown := some 0, vc.mv := 299 }, 23, by unfold State.Shaped Engine.Shaped; decide +kernel⟩⟩

theorem witness_HardResetCauses :
    (∃ (s : State) (p : Nat), (s.Shaped) ∧ (p < 24) ∧ (attachedPd s p = true) ∧ ((s.pd p).tx ≠ [])) ∧
    (∃ (s : State) (p : Nat), (s.Shaped) ∧ (p < 24) ∧ (attachedPd s p = true) ∧ (s.ran (s.pd p).awaiting 27 = true)) ∧
    (∃ (s : State) (p : Nat), (s.Shaped) ∧ (p < 24) ∧ (attachedPd s p = true) ∧ (s.ran (s.pd p).softReset 27 = true)) ∧
    (∃ (s : State) (p : Nat), ∃ c, (s.Shaped) ∧ (p < 24) ∧ (sourcing s p = true) ∧ ((s.pd p).next = some c) ∧ ((s.pd p).slewing = false) ∧ (placedFor s p = false) ∧ ((s.pd p).acceptFrame + (if 4 ≤ c.kind then 400 else 200) ≤ s.frame)) ∧
    (∃ (s : State) (p : Nat), (s.Shaped) ∧ (p < 24) ∧ (sourcing s p = true) ∧ ((s.pd p).contract.kind = 3) ∧ ((s.pd p).lastReq + 14000 ≤ s.frame)) ∧
    (∃ (s : State) (p : Nat), (s.Shaped) ∧ (p < 24) ∧ (sourcing s p = true) ∧ ((s.pd p).epr = true) ∧ ((s.pd p).lastMsg + 875 ≤ s.frame)) ∧
    (∃ (s : State) (p : Nat), (s.Shaped) ∧ (p < 24) ∧ (sourcing s p = true) ∧ (s.ran (s.pd p).lowered 30 = true)) ∧
    (∃ (s : State) (p : Nat), (s.Shaped) ∧ (p < 24) ∧ (s.serves p = true) ∧ (s.policyRuns = true) ∧ ((s.cc p).st.attached = true) ∧ ((s.cc p).detach = 0)) ∧
    (∃ (s : State) (p : Nat), ∃ c, (s.Shaped) ∧ (p < 24) ∧ (sinking s p = true) ∧ (s.ran (s.pd p).snkAccept 500 = true) ∧ ((s.pd p).next = some c) ∧ (c.mv < ((s.vbus p : Int) - c.mv).natAbs * 20)) ∧
    (∃ (s : State) (p : Nat), ∃ c, (s.Shaped) ∧ (p < 24) ∧ (sinking s p = true) ∧ (s.ran (s.pd p).snkAccept 500 = true) ∧ ((s.pd p).next = some c) ∧ (((s.vbus p : Int) - c.mv).natAbs * 20 ≤ c.mv)) :=
  ⟨⟨sp fun q => { q with pd.tx := [.accept] }, 23, by unfold State.Shaped Engine.Shaped; decide +kernel⟩,
    ⟨sp fun q => { q with pd.awaiting := some 99973 }, 23, by unfold State.Shaped Engine.Shaped; decide +kernel⟩,
    ⟨sp fun q => { q with pd.softReset := some 99973 }, 23, by unfold State.Shaped Engine.Shaped; decide +kernel⟩,
    ⟨sp fun q => { q with pd.next := some { kind := 4 }, pd.acceptFrame := 99600 }, 23, { kind := 4 }, by unfold State.Shaped Engine.Shaped; decide +kernel⟩,
    ⟨sp fun q => { q with pd.contract := { kind := 3 }, pd.lastReq := 86000 }, 23, by unfold State.Shaped Engine.Shaped; decide +kernel⟩,
    ⟨sp fun q => { q with pd.epr := true, pd.lastMsg := 99125 }, 23, by unfold State.Shaped Engine.Shaped; decide +kernel⟩,
    ⟨sp fun q => { q with pd.lowered := some 99970 }, 23, by unfold State.Shaped Engine.Shaped; decide +kernel⟩,
    ⟨sp id, 23, by unfold State.Shaped Engine.Shaped; decide +kernel⟩,
    ⟨snk fun q => { q with pd.snkAccept := some 99500, pd.next := some { mv := 20000 }, cc.vbusMv := 18999 }, 23, { mv := 20000 }, by unfold State.Shaped Engine.Shaped; decide +kernel⟩,
    ⟨snk fun q => { q with pd.snkAccept := some 99500, pd.next := some { mv := 20000 }, cc.vbusMv := 20000 }, 23, { mv := 20000 }, by unfold State.Shaped Engine.Shaped; decide +kernel⟩⟩

theorem witness_CapabilitiesAndCable :
    (∃ (s : State) (p : Nat), ∃ c : Bool → Instr, (s.Shaped) ∧ (p < 24) ∧ (sourcing s p = true) ∧ ((s.pd p).noPd = false) ∧ (s.mayBegin = true) ∧ ((c = .sourceCapSend p ∧ (s.pd p).capsDue = true ∧ s.mayStart p = true) ∨ (c = .sourceCapRepeat p ∧ s.ran (s.pd p).repeatFrame 150 = true))) ∧
    (∃ (s : State) (p : Nat), ∃ c : Bool → Instr, (s.Shaped) ∧ (p < 24) ∧ (sourcing s p = true) ∧ ((s.pd p).noPd = false) ∧ (s.mayBegin = true) ∧ ((c = .sourceCapSend p ∧ (s.pd p).capsDue = true ∧ s.mayStart p = true) ∨ (c = .sourceCapRepeat p ∧ s.ran (s.pd p).repeatFrame 150 = true)) ∧ ((s.pd p).contract.explicit = false)) ∧
    (∃ (s : State) (p : Nat), ∃ c : Bool → Instr, (s.Shaped) ∧ (p < 24) ∧ (sourcing s p = true) ∧ ((s.pd p).noPd = false) ∧ (s.mayBegin = true) ∧ ((c = .sourceCapSend p ∧ (s.pd p).capsDue = true ∧ s.mayStart p = true) ∨ (c = .sourceCapRepeat p ∧ s.ran (s.pd p).repeatFrame 150 = true)) ∧ ((s.pd p).contract.explicit = true)) ∧
    (∃ (s : State) (p : Nat), (s.Shaped) ∧ (p < 24) ∧ (sourcing s p = true) ∧ ((s.pd p).noPd = false) ∧ (s.mayBegin = true) ∧ (s.ran (s.pd p).collision 18 = true)) ∧
    (∃ (s : State) (p : Nat), (s.Shaped) ∧ (p < 24) ∧ (sourcing s p = true) ∧ ((s.vc p).on = true) ∧ ((s.vc p).good = true) ∧ ((s.vc p).attempt = none) ∧ (s.ran (s.vc p).attemptsDue 0 = true)) ∧
    (∃ (s : State) (p : Nat), ∃ _i : CableId, (s.Shaped) ∧ (p < 24) ∧ (sourcing s p = true) ∧ ((s.vc p).on = true) ∧ ((s.vc p).attempt.isSome = true) ∧ ((s.vc p).forEpr = false)) ∧
    (∃ (s : State) (p : Nat), ∃ c : Instr, (s.Shaped) ∧ (p < 24) ∧ (sourcing s p = true) ∧ ((s.vc p).attempt.isSome = true) ∧ ((s.vc p).forEpr = false) ∧ ((c = .goodcrcRetryFail p true ∨ (c = .senderResponseTimeout p true ∧ s.ran (s.vc p).attempt 27 = true)))) :=
  ⟨⟨sp fun q => { q with pd.capsDue := true }, 23, .sourceCapSend 23, by unfold State.Shaped Engine.Shaped; decide +kernel, by decide +kernel, by decide +kernel, by decide +kernel, by decide +kernel, Or.inl ⟨rfl, by decide +kernel, by decide +kernel⟩⟩,
    ⟨sp fun q => { q with pd.repeatFrame := some 99850 }, 23, .sourceCapRepeat 23, by unfold State.Shaped Engine.Shaped; decide +kernel, by decide +kernel, by decide +kernel, by decide +kernel, by decide +kernel, Or.inr ⟨rfl, by decide +kernel⟩, by decide +kernel⟩,
    ⟨sp fun q => { q with pd.capsDue := true, pd.contract := { kind := 2 }, pd.clear := true }, 23, .sourceCapSend 23, by unfold State.Shaped Engine.Shaped; decide +kernel, by decide +kernel, by decide +kernel, by decide +kernel, by decide +kernel, Or.inl ⟨rfl, by decide +kernel, by decide +kernel⟩, by decide +kernel⟩,
    ⟨sp fun q => { q with pd.collision := some 99982 }, 23, by unfold State.Shaped Engine.Shaped; decide +kernel⟩,
    ⟨sp fun q => { q with vc.on := true, vc.good := true, vc.attemptsDue := some 100000 }, 23, by unfold State.Shaped Engine.Shaped; decide +kernel⟩,
    ⟨sp fun q => { q with vc.on := true, vc.attempt := some 100000 }, 23, { fiveA := true, vMax := 3, epr := true }, by unfold State.Shaped Engine.Shaped; decide +kernel⟩,
    ⟨sp fun q => { q with vc.attempt := some 99973 }, 23, .senderResponseTimeout 23 true, by unfold State.Shaped Engine.Shaped; decide +kernel⟩⟩

theorem witness_RequestsAndTransitions :
    (∃ (s : State) (p : Nat) (q : PdRequest), ∃ c, (s.Shaped) ∧ (p < 24) ∧ (sourcing s p = true) ∧ (s.sup.st = .up) ∧ (s.quiet p = true) ∧ ((s.pd p).everSent = true) ∧ ((q.epr = true → (s.pd p).epr = true)) ∧ (judge s p q = .inl c)) ∧
    (∃ (s : State) (p : Nat) (q : PdRequest), ∃ n, (s.Shaped) ∧ (p < 24) ∧ (sourcing s p = true) ∧ (s.sup.st = .up) ∧ (s.quiet p = true) ∧ ((s.pd p).everSent = true) ∧ ((q.epr = true → (s.pd p).epr = true)) ∧ (judge s p q = .inr n) ∧ ((s.pd p).low = true) ∧ (2 ≤ (s.pd p).rejects)) ∧
    (∃ (s : State) (p : Nat) (q : PdRequest), ∃ n, (s.Shaped) ∧ (p < 24) ∧ (sourcing s p = true) ∧ (s.sup.st = .up) ∧ (s.quiet p = true) ∧ ((s.pd p).everSent = true) ∧ ((q.epr = true → (s.pd p).epr = true)) ∧ (judge s p q = .inr n) ∧ (((s.pd p).low = false ∨ (s.pd p).rejects < 2))) ∧
    (∃ (s : State) (p : Nat) (_q : PdRequest), (s.Shaped) ∧ (p < 24) ∧ (sourcing s p = true) ∧ ((s.pd p).softReset = none) ∧ (s.sup.st = .readied)) ∧
    (∃ (s : State) (p : Nat) (c : Contract), (s.Shaped) ∧ (s.serves p = true) ∧ ((s.cc p).st = .attachedSrc) ∧ ((s.cc p).detach = 0) ∧ (s.policyRuns = true) ∧ ((s.pd p).next = some c) ∧ (s.atBoundary = true) ∧ ((s.pd p).slewing = false) ∧ (placedFor s p = true) ∧ ((s.pd p).acceptFrame + (if c.kind = 3 ∨ c.kind = 5 then 1 else 25) ≤ s.frame)) ∧
    (∃ (s : State) (p : Nat) (c : Contract), (s.Shaped) ∧ (s.serves p = true) ∧ ((s.cc p).st = .attachedSrc) ∧ ((s.cc p).detach = 0) ∧ (s.policyRuns = true) ∧ ((s.pd p).next = some c) ∧ ((s.pd p).slewing = true) ∧ (4 ≤ (s.pd p).settled)) :=
  ⟨⟨{ sp fun q => { q with pd.everSent := true, pd.sent := [{ mv := 20000, mvMin := 20000, cur := 500 }] } with ledger := { full.ledger with ports := full.ledger.ports.set 23 { ceil := 800 } } }, 23, { opCur := 500, maxCur := 500 }, { kind := 2, pos := 1, mv := 20000, cur := 500, maxCur := 500 }, by unfold State.Shaped Engine.Shaped; decide +kernel⟩,
    ⟨{ sp fun q => { q with pd.everSent := true, pd.sent := [{ mv := 20000, mvMin := 20000, cur := 500 }], pd.low := true, pd.rejects := 2 } with ledger := { full.ledger with ports := full.ledger.ports.set 23 { ceil := 799 } } }, 23, { opCur := 500, maxCur := 500 }, 5, by unfold State.Shaped Engine.Shaped; decide +kernel⟩,
    ⟨{ sp fun q => { q with pd.everSent := true, pd.sent := [{ mv := 20000, mvMin := 20000, cur := 500 }] } with ledger := { full.ledger with ports := full.ledger.ports.set 23 { ceil := 799 } } }, 23, { opCur := 500, maxCur := 500 }, 5, by unfold State.Shaped Engine.Shaped; decide +kernel⟩,
    ⟨{ sp id with sup := { st := .readied } }, 23, {}, by unfold State.Shaped Engine.Shaped; decide +kernel⟩,
    ⟨{ sp fun q => { q with pd.next := some { kind := 2 }, pd.nextIn := 2, pd.acceptFrame := 99975 } with ledger := { full.ledger with ports := full.ledger.ports.set 23 { inplace := true } } }, 23, { kind := 2 }, by unfold State.Shaped Engine.Shaped; decide +kernel⟩,
    ⟨sp fun q => { q with pd.next := some { kind := 2 }, pd.slewing := true, pd.settled := 4 }, 23, { kind := 2 }, by unfold State.Shaped Engine.Shaped; decide +kernel⟩⟩

theorem witness_EprMode :
    (∃ (s : State) (p : Nat), ∃ r, (s.Shaped) ∧ (p < 24) ∧ (sourcing s p = true) ∧ ((s.pd p).epr = false) ∧ (s.quiet p = true) ∧ (((s.pd p).contract.kind = 2 ∨ (s.pd p).contract.kind = 3)) ∧ (eprRefusal s p = some r)) ∧
    (∃ (s : State) (p : Nat), (s.Shaped) ∧ (p < 24) ∧ (sourcing s p = true) ∧ ((s.pd p).epr = false) ∧ (s.quiet p = true) ∧ (((s.pd p).contract.kind = 2 ∨ (s.pd p).contract.kind = 3)) ∧ (eprRefusal s p = none)) ∧
    (∃ (s : State) (p : Nat), (s.Shaped) ∧ (p < 24) ∧ (sourcing s p = true) ∧ ((s.pd p).epr = true)) ∧
    (∃ (s : State) (p : Nat), (s.Shaped) ∧ (p < 24) ∧ (sourcing s p = true) ∧ ((s.pd p).epr = true) ∧ ((s.pd p).next = none) ∧ ((s.sw p).kind = none)) ∧
    (∃ (s : State) (p : Nat), (s.Shaped) ∧ (p < 24) ∧ (sourcing s p = true) ∧ ((s.pd p).epr = true) ∧ (s.mayBegin = true) ∧ (s.mayStart p = true) ∧ ((s.pd p).eprExit = 2)) ∧
    (∃ (s : State) (p : Nat), ∃ c : Instr, (s.Shaped) ∧ (p < 24) ∧ (sourcing s p = true) ∧ ((s.pd p).epr = true) ∧ (s.mayBegin = true) ∧ (s.mayStart p = true) ∧ ((s.pd p).eprExit = 0) ∧ (((c = .eprPartExit p ∧ eprDisallowed s p = true) ∨ (c = .eprEnClear p ∧ portParam s p 0x26 = 0)))) :=
  ⟨⟨sp fun q => { q with pd.contract := { kind := 2 } }, 23, 3, by unfold State.Shaped Engine.Shaped; decide +kernel⟩,
    ⟨{ sp fun q => { q with pd.contract := { kind := 3 }, pd.eprCap := true, pd.sentFlags.eprCapable := true, vc.on := true, vc.good := true, vc.disc := 3, vc.iMax := 2, vc.vMax := 3, vc.epr := true } with ledger := { full.ledger with ports := full.ledger.ports.set 23 { ceil := 808 } } }, 23, by unfold State.Shaped Engine.Shaped; decide +kernel⟩,
    ⟨sp fun q => { q with pd.epr := true }, 23, by unfold State.Shaped Engine.Shaped; decide +kernel⟩,
    ⟨sp fun q => { q with pd.epr := true }, 23, by unfold State.Shaped Engine.Shaped; decide +kernel⟩,
    ⟨sp fun q => { q with pd.epr := true, pd.eprExit := 2, pd.clear := true }, 23, by unfold State.Shaped Engine.Shaped; decide +kernel⟩,
    ⟨sp fun q => { q with pd.epr := true, pd.clear := true }, 23, .eprPartExit 23, by unfold State.Shaped Engine.Shaped; decide +kernel⟩⟩

theorem witness_MessagesAreAnswered :
    (∃ (s : State) (p : Nat), (s.Shaped) ∧ (p < 24) ∧ (sourcing s p = true) ∧ (s.quiet p = true)) ∧
    (∃ (s : State) (p : Nat), ∃ (c : Instr) (m : PdTx), (s.Shaped) ∧ (p < 24) ∧ (attachedPd s p = true) ∧ (s.quiet p = true) ∧ (((c = .getSourceCap p ∧ sourcing s p = false ∧ m = .sourceCaps (capFlags s p) (deriveSet s p)) ∨ (c = .getSourceCapExtended p ∧ m = (if (s.pd p).rev20 then .notSupported else .capsExtended s.otp.svid 0x2448 0 0x04 0xB1 3 0x03 (min (s.pd p).sentP 100) (if (s.pd p).epr then (s.pd p).sentP else 0))) ∨ (c = .getPpsStatus p ∧ m = (if (s.pd p).rev20 then .notSupported else .ppsStatus (s.path p).fvAvg (s.path p).fiAvg (s.pd p).ppsLimitPrev)) ∨ (c = .getSourceInfo p ∧ m = .sourceInfo true (maxPdp s p) (s.ledger.port p).ceil (s.pd p).sentP) ∨ (c = .getSinkCap p ∧ m = (if s.otp.dualRole.testBit p then .sinkCaps sinkObjs else .notSupported)) ∨ (c = .getStatus p ∧ m = (if (s.pd p).rev20 then .notSupported else .status (s.ridge (ridgeOfPort p)).tRidge true)) ∨ (c = .getRevision p ∧ m = .revision 3 2 1 0) ∨ (c = .unsupportedRequest p ∧ m = .notSupported)))) ∧
    (∃ (s : State) (p : Nat), ∃ _ado : Word32, (s.Shaped) ∧ (p < 24) ∧ (attachedPd s p = true)) ∧
    (∃ (s : State) (p : Nat), ∃ c : Instr, (s.Shaped) ∧ (p < 24) ∧ (attachedPd s p = true) ∧ ((c = .protocolError p ∨ ((∃ q, c = .getSourceCap p ∧ (s.pd p).next = some q) ∧ sourcing s p = true))) ∧ ((s.sw p).kind = none) ∧ ((s.pd p).softReset = none)) ∧
    (∃ (s : State) (p : Nat), (s.Shaped) ∧ (p < 24) ∧ (attachedPd s p = true) ∧ ((s.sw p).kind = none)) :=
  ⟨⟨sp id, 23, by unfold State.Shaped Engine.Shaped; decide +kernel⟩,
    ⟨snk id, 23, .getSourceCap 23, .sourceCaps (capFlags (snk id) 23) (deriveSet (snk id) 23), by unfold State.Shaped Engine.Shaped; decide +kernel⟩,
    ⟨snk id, 23, 0xFFFFFFFF, by unfold State.Shaped Engine.Shaped; decide +kernel⟩,
    ⟨sp fun q => { q with pd.next := some { kind := 2 } }, 23, .getSourceCap 23, by unfold State.Shaped Engine.Shaped; decide +kernel, by decide +kernel, by decide +kernel, Or.inr ⟨⟨{ kind := 2 }, rfl, by decide +kernel⟩, by decide +kernel⟩, by decide +kernel, by decide +kernel⟩,
    ⟨snk id, 23, by unfold State.Shaped Engine.Shaped; decide +kernel⟩⟩

theorem witness_RecoveryHoldAndSink :
    (∃ (s : State) (p : Nat), (s.Shaped) ∧ (s.serves p = true) ∧ (s.policyRuns = true) ∧ ((s.cc p).st = .attachedSrc) ∧ (s.ran (s.pd p).hrFrame 30 = true) ∧ ((s.pd p).takedown = false)) ∧
    (∃ (s : State) (p : Nat), (s.Shaped) ∧ (s.serves p = true) ∧ (s.policyRuns = true) ∧ ((s.cc p).st = .attachedSrc) ∧ ((s.pd p).takedown = true) ∧ (s.ran (s.pd p).takenDown 800 = true)) ∧
    (∃ (s : State) (p : Nat), (s.Shaped) ∧ (s.serves p = true) ∧ (conversionLost s p = true) ∧ ((s.cc p).st ≠ .disabled) ∧ ((s.cc p).st ≠ .outOfService) ∧ ((s.cc p).st ≠ .errorRecovery)) ∧
    (∃ (s : State) (p : Nat), (s.Shaped) ∧ (s.serves p = true) ∧ ((s.cc p).st = .outOfService) ∧ ((s.cc p).toOutOfService = true) ∧ (s.atBoundary = true) ∧ (s.ledger.hdr.feedless = false) ∧ (noneUsable s p = false) ∧ ((s.cc p).mode = 0) ∧ (s.seq.mode = .running) ∧ (s.preService = false)) ∧
    (∃ (s : State) (p : Nat), (s.Shaped) ∧ (s.serves p = true) ∧ (s.sup.st = .hold) ∧ ((s.cc p).st = .attachedSrc)) ∧
    (∃ (s : State) (p : Nat), (s.Shaped) ∧ (s.serves p = true) ∧ (s.sup.st = .hold) ∧ ((s.cc p).st = .attachedSrc) ∧ ((s.pd p).epr = true)) ∧
    (∃ (s : State) (p : Nat), (s.Shaped) ∧ (s.serves p = true) ∧ (s.sup.st = .hold) ∧ ((s.cc p).st.attached = true)) ∧
    (∃ (s : State) (p : Nat), ∃ objs o, (s.Shaped) ∧ (s.serves p = true) ∧ (sinking s p = true) ∧ ((s.sw p).kind = none) ∧ (s.seq.mode = .running) ∧ (bestObj objs = some o)) ∧
    (∃ (s : State) (p : Nat), ∃ c, (s.Shaped) ∧ (s.serves p = true) ∧ (sinking s p = true) ∧ ((s.sw p).kind = none) ∧ ((s.pd p).want = some c)) ∧
    (∃ (s : State) (p : Nat), ∃ c, (s.Shaped) ∧ (s.serves p = true) ∧ (sinking s p = true) ∧ ((s.sw p).kind = none) ∧ ((s.pd p).next = some c)) :=
  ⟨⟨sp fun q => { q with pd.hrFrame := some 99970 }, 23, by unfold State.Shaped Engine.Shaped; decide +kernel⟩,
    ⟨sp fun q => { q with pd.takedown := true, pd.takenDown := some 99200 }, 23, by unfold State.Shaped Engine.Shaped; decide +kernel⟩,
    ⟨(sp id).updRidge 5 fun q => { q with run := .stopped }, 23, by unfold State.Shaped Engine.Shaped; decide +kernel⟩,
    ⟨{ pt fun q => { q with cc.st := .outOfService, cc.toOutOfService := true } with ledger := { full.ledger with phases := full.ledger.phases.set 46 { excl := 0 } } }, 23, by unfold State.Shaped Engine.Shaped; decide +kernel⟩,
    ⟨{ sp id with sup := { st := .hold } }, 23, by unfold State.Shaped Engine.Shaped; decide +kernel⟩,
    ⟨{ sp fun q => { q with pd.epr := true } with sup := { st := .hold } }, 23, by unfold State.Shaped Engine.Shaped; decide +kernel⟩,
    ⟨{ snk id with sup := { st := .hold } }, 23, by unfold State.Shaped Engine.Shaped; decide +kernel⟩,
    ⟨snk id, 23, [{ pos := 7, mv := 20000, cur := 500 }], { pos := 7, mv := 20000, cur := 500 }, by unfold State.Shaped Engine.Shaped; decide +kernel⟩,
    ⟨snk fun q => { q with pd.want := some { kind := 6, mv := 20000 } }, 23, { kind := 6, mv := 20000 }, by unfold State.Shaped Engine.Shaped; decide +kernel⟩,
    ⟨snk fun q => { q with pd.next := some { kind := 6, mv := 20000 } }, 23, { kind := 6, mv := 20000 }, by unfold State.Shaped Engine.Shaped; decide +kernel⟩⟩

theorem witness_PowerRoleSwaps :
    (∃ (s : State) (p : Nat), (s.Shaped) ∧ (p < 24) ∧ (sinking s p = true) ∧ (s.otp.dualRole.testBit p = true) ∧ (s.seq.mode = .running) ∧ (portParam s p 0x2A = 1) ∧ (s.mayBegin = true) ∧ (s.quiet p = true) ∧ (s.ran (s.pd p).firstContract 50 = true) ∧ ((s.cc p).rp = 2) ∧ ((s.sw p).prSupp = none) ∧ ((s.sw p).prFails < 3) ∧ (s.placed p = true)) ∧
    (∃ (s : State) (p : Nat), (s.Shaped) ∧ (p < 24) ∧ (sinking s p = true) ∧ ((s.sw p).kind = some .pr) ∧ ((s.sw p).mine = true) ∧ ((s.sw p).step = 0)) ∧
    (∃ (s : State) (p : Nat), (s.Shaped) ∧ (p < 24) ∧ (sinking s p = true) ∧ ((s.sw p).kind = some .pr) ∧ ((s.sw p).step = 1)) ∧
    (∃ (s : State) (p : Nat), ∃ c : Instr, (s.Shaped) ∧ (p < 24) ∧ (s.serves p = true) ∧ (s.policyRuns = true) ∧ ((s.sw p).kind = some .pr) ∧ (((c = .prSwapSourceOffTimeout p ∧ (s.sw p).step = 1 ∧ (s.sw p).frame + 835 ≤ s.frame) ∨ (c = .prSwapVbusConfirmTimeout p ∧ (s.sw p).step = 2 ∧ (s.sw p).frame + 5 ≤ s.frame ∧ 800 ≤ (s.cc p).vbusMv)))) ∧
    (∃ (s : State) (p : Nat), (s.Shaped) ∧ (p < 24) ∧ (attachedPd s p = true) ∧ ((s.pd p).next = none) ∧ ((s.sw p).kind = none) ∧ ((s.cc p).st = .attachedSrc)) ∧
    (∃ (s : State) (p : Nat), (s.Shaped) ∧ (p < 24) ∧ (attachedPd s p = true) ∧ ((s.pd p).next = none) ∧ ((s.sw p).kind = none) ∧ ((s.cc p).st = .attachedSnk) ∧ ((s.sw p).prSupp = none) ∧ (s.seq.mode = .running) ∧ (portParam s p 0x2A = 0)) ∧
    (∃ (s : State) (p : Nat), (s.Shaped) ∧ (p < 24) ∧ (attachedPd s p = true) ∧ ((s.pd p).next = none) ∧ ((s.sw p).kind = none) ∧ ((s.cc p).st = .attachedSnk) ∧ ((s.sw p).prSupp = none) ∧ (s.seq.mode = .running) ∧ (portParam s p 0x2A = 1) ∧ (s.placed p = false)) ∧
    (∃ (s : State) (p : Nat), (s.Shaped) ∧ (p < 24) ∧ (attachedPd s p = true) ∧ ((s.pd p).next = none) ∧ ((s.sw p).kind = none) ∧ ((s.cc p).st = .attachedSnk) ∧ ((s.sw p).prSupp = none) ∧ (s.seq.mode = .running) ∧ (portParam s p 0x2A = 1) ∧ (s.placed p = true)) ∧
    (∃ (s : State) (p : Nat), ∃ (c : Instr) (b : Bool), (s.Shaped) ∧ (p < 24) ∧ ((s.sw p).kind ≠ none ∨ (s.pd p).next ≠ none) ∧ (attachedPd s p = true) ∧ ((s.pd p).softReset = none) ∧ ((c = .prSwapReceived p ∨ c = .drSwapReceived ⟨p, b⟩ ∨ c = .vconnSwapReceived p))) :=
  ⟨⟨{ snk fun q => { q with pd.firstContract := some 99950, sw.prFails := 2 } with otp := { full.otp with dualRole := 0x800000 }, ledger := { full.ledger with phases := full.ledger.phases.set 46 { st := 1, pair := 1 } } }, 23, by unfold State.Shaped Engine.Shaped; decide +kernel⟩,
    ⟨snk fun q => { q with sw.kind := some .pr, sw.mine := true }, 23, by unfold State.Shaped Engine.Shaped; decide +kernel⟩,
    ⟨snk fun q => { q with sw.kind := some .pr, sw.step := 1 }, 23, by unfold State.Shaped Engine.Shaped; decide +kernel⟩,
    ⟨snk fun q => { q with sw.kind := some .pr, sw.step := 1, sw.frame := 99165 }, 23, .prSwapSourceOffTimeout 23, by unfold State.Shaped Engine.Shaped; decide +kernel⟩,
    ⟨sp id, 23, by unfold State.Shaped Engine.Shaped; decide +kernel⟩,
    ⟨{ snk id with inForce := [(pid 3 23 0x2A, 0)] }, 23, by unfold State.Shaped Engine.Shaped; decide +kernel⟩,
    ⟨snk id, 23, by unfold State.Shaped Engine.Shaped; decide +kernel⟩,
    ⟨{ snk id with ledger := { full.ledger with phases := full.ledger.phases.set 46 { st := 1, pair := 1 } } }, 23, by unfold State.Shaped Engine.Shaped; decide +kernel⟩,
    ⟨sp fun q => { q with sw.kind := some .vconn }, 23, .drSwapReceived ⟨23, false⟩, false, by unfold State.Shaped Engine.Shaped; decide +kernel⟩⟩

theorem witness_DataAndVconnSwaps :
    (∃ (s : State) (p : Nat), (s.Shaped) ∧ (p < 24) ∧ (attachedPd s p = true) ∧ ((s.pd p).next = none) ∧ ((s.sw p).kind = none) ∧ ((s.sw p).drSupp.isSome = true)) ∧
    (∃ (s : State) (p : Nat), (s.Shaped) ∧ (p < 24) ∧ (attachedPd s p = true) ∧ ((s.pd p).next = none) ∧ ((s.sw p).kind = none) ∧ ((s.sw p).drSupp = none) ∧ (modeOn s p = true)) ∧
    (∃ (s : State) (p : Nat), (s.Shaped) ∧ (p < 24) ∧ (attachedPd s p = true) ∧ ((s.pd p).next = none) ∧ ((s.sw p).kind = none) ∧ ((s.sw p).drSupp = none) ∧ (modeOn s p = false) ∧ (s.seq.mode = .running) ∧ (drAccepts s p = false)) ∧
    (∃ (s : State) (p : Nat), (s.Shaped) ∧ (p < 24) ∧ (attachedPd s p = true) ∧ ((s.pd p).next = none) ∧ ((s.sw p).kind = none) ∧ ((s.sw p).drSupp = none) ∧ (modeOn s p = false) ∧ (s.seq.mode = .running) ∧ (drAccepts s p = true)) ∧
    (∃ (s : State) (p : Nat), (s.Shaped) ∧ (p < 24) ∧ (sourcing s p = true) ∧ ((s.pd p).next = none) ∧ ((s.sw p).kind = none) ∧ ((s.sw p).vcSupp = none) ∧ (portParam s p 0x2C = 0)) ∧
    (∃ (s : State) (p : Nat), (s.Shaped) ∧ (p < 24) ∧ (sourcing s p = true) ∧ ((s.pd p).next = none) ∧ ((s.sw p).kind = none) ∧ ((s.sw p).vcSupp = none) ∧ ((s.sw p).vconnSrc = true) ∧ (portParam s p 0x2C = 2) ∧ (vconnNeeded (s.pd p) = false)) ∧
    (∃ (s : State) (p : Nat), (s.Shaped) ∧ (p < 24) ∧ (sourcing s p = true) ∧ ((s.pd p).next = none) ∧ ((s.sw p).kind = none) ∧ ((s.sw p).vcSupp = none) ∧ ((s.sw p).vconnSrc = false) ∧ (portParam s p 0x2C ≠ 0) ∧ ((s.ridge (ridgeOfPort p)).vconnInGood = true)) ∧
    (∃ (s : State) (p : Nat), (s.Shaped) ∧ (p < 24) ∧ (sourcing s p = true) ∧ ((s.sw p).vconnSrc = false) ∧ (portParam s p 0x2C ≠ 0) ∧ ((s.ridge (ridgeOfPort p)).vconnInGood = true) ∧ ((s.sw p).vcSent = false) ∧ (s.ran (s.pd p).firstContract 10 = true) ∧ ((s.sw p).vcSupp = none) ∧ (s.mayBegin = true) ∧ (s.mayStart p = true)) ∧
    (∃ (s : State) (p : Nat), (s.Shaped) ∧ (p < 24) ∧ (sourcing s p = true) ∧ ((s.sw p).kind = some .vconn) ∧ ((s.sw p).step = 2)) ∧
    (∃ (s : State) (p : Nat), (s.Shaped) ∧ (p < 24) ∧ (sourcing s p = true) ∧ ((s.sw p).kind = some .vconn) ∧ ((s.sw p).step = 1 ∨ (s.sw p).step = 2) ∧ ((s.sw p).frame + 150 ≤ s.frame)) ∧
    (∃ (s : State) (p : Nat), ∃ kd, (s.Shaped) ∧ (p < 24) ∧ (attachedPd s p = true) ∧ ((s.sw p).kind = some kd) ∧ ((s.sw p).mine = true) ∧ ((s.sw p).step = 0) ∧ ((s.sw p).frame + 27 ≤ s.frame)) ∧
    (∃ (s : State) (p : Nat), ∃ kd, ∃ r, (s.Shaped) ∧ (p < 24) ∧ (attachedPd s p = true) ∧ ((s.sw p).kind = some kd) ∧ ((s.sw p).mine = true) ∧ ((s.sw p).step = 0) ∧ ((s.pd p).softReset = none) ∧ (r ≠ SwapReply.accept)) ∧
    (∃ (s : State) (p : Nat), ∃ kd, (s.Shaped) ∧ (p < 24) ∧ (attachedPd s p = true) ∧ ((s.sw p).kind = some kd) ∧ ((s.sw p).mine = true) ∧ ((s.sw p).step = 0) ∧ ((s.pd p).softReset = none) ∧ (kd = .dr)) ∧
    (∃ (s : State) (p : Nat), (s.Shaped) ∧ (p < 24) ∧ (s.ran (s.sw p).prSupp 1000 = true)) ∧
    (∃ (s : State) (p : Nat), (s.Shaped) ∧ (p < 24) ∧ (s.ran (s.sw p).drSupp 1000 = true)) ∧
    (∃ (s : State) (p : Nat), (s.Shaped) ∧ (p < 24) ∧ (s.ran (s.sw p).vcSupp 1000 = true)) ∧
    (∃ (s : State) (p : Nat), (s.Shaped) ∧ (p < 24) ∧ (s.serves p = true) ∧ ((s.cc p).st = .attachedSnk) ∧ (s.ran (s.pd p).snkRestore 1100 = true) ∧ (s.vbus p < 4000)) :=
  ⟨⟨sp fun q => { q with sw.drSupp := some 99999 }, 23, by unfold State.Shaped Engine.Shaped; decide +kernel⟩,
    ⟨sp fun q => { q with dc.entered := true }, 23, by unfold State.Shaped Engine.Shaped; decide +kernel⟩,
    ⟨{ sp id with inForce := [(pid 3 23 0x2B, 0)] }, 23, by unfold State.Shaped Engine.Shaped; decide +kernel⟩,
    ⟨{ sp id with inForce := [(pid 3 23 0x2B, 1)] }, 23, by unfold State.Shaped Engine.Shaped; decide +kernel⟩,
    ⟨{ sp id with inForce := [(pid 3 23 0x2C, 0)] }, 23, by unfold State.Shaped Engine.Shaped; decide +kernel⟩,
    ⟨{ sp fun q => { q with sw.vconnSrc := true, pd.contract := { kind := 2, cur := 300 } } with inForce := [(pid 3 23 0x2C, 2)] }, 23, by unfold State.Shaped Engine.Shaped; decide +kernel⟩,
    ⟨(sp id).updRidge 5 fun q => { q with vconnInGood := true }, 23, by unfold State.Shaped Engine.Shaped; decide +kernel⟩,
    ⟨(sp fun q => { q with pd.firstContract := some 99990 }).updRidge 5 fun q => { q with vconnInGood := true }, 23, by unfold State.Shaped Engine.Shaped; decide +kernel⟩,
    ⟨sp fun q => { q with sw.kind := some .vconn, sw.step := 2 }, 23, by unfold State.Shaped Engine.Shaped; decide +kernel⟩,
    ⟨sp fun q => { q with sw.kind := some .vconn, sw.step := 2, sw.frame := 99850 }, 23, by unfold State.Shaped Engine.Shaped; decide +kernel⟩,
    ⟨sp fun q => { q with sw.kind := some .vconn, sw.mine := true, sw.frame := 99973 }, 23, .vconn, by unfold State.Shaped Engine.Shaped; decide +kernel⟩,
    ⟨sp fun q => { q with sw.kind := some .vconn, sw.mine := true }, 23, .vconn, .wait, by unfold State.Shaped Engine.Shaped; decide +kernel⟩,
    ⟨sp fun q => { q with sw.kind := some .dr, sw.mine := true }, 23, .dr, by unfold State.Shaped Engine.Shaped; decide +kernel⟩,
    ⟨pt fun q => { q with sw.prSupp := some 99000 }, 23, by unfold State.Shaped Engine.Shaped; decide +kernel⟩,
    ⟨pt fun q => { q with sw.drSupp := some 99000 }, 23, by unfold State.Shaped Engine.Shaped; decide +kernel⟩,
    ⟨pt fun q => { q with sw.vcSupp := some 99000 }, 23, by unfold State.Shaped Engine.Shaped; decide +kernel⟩,
    ⟨snk fun q => { q with pd.snkRestore := some 98900, path.vsrc := true, cc.vbusMv := 3999 }, 23, by unfold State.Shaped Engine.Shaped; decide +kernel⟩⟩

theorem witness_DiscoveryAndModes :
    (∃ (s : State) (p : Nat), (s.Shaped) ∧ (p < 24) ∧ (attachedPd s p = true) ∧ ((s.sw p).dfp = true) ∧ (s.mayBegin = true) ∧ (s.mayStart p = true) ∧ ((s.dc p).attempt = none) ∧ ((s.dc p).step = none) ∧ (s.ran (s.dc p).startDue 0 = true) ∧ ((s.pd p).contract.explicit = true)) ∧
    (∃ (s : State) (p : Nat), ∃ st, (s.Shaped) ∧ (p < 24) ∧ (attachedPd s p = true) ∧ ((s.sw p).dfp = true) ∧ (s.mayBegin = true) ∧ (s.mayStart p = true) ∧ ((s.dc p).attempt = none) ∧ ((s.dc p).step = some st) ∧ (s.ran (s.dc p).busyFrame 55 = true)) ∧
    (∃ (s : State) (p : Nat), (s.Shaped) ∧ (p < 24) ∧ (attachedPd s p = true) ∧ ((s.dc p).step = some .identity) ∧ ((s.dc p).waiting = true)) ∧
    (∃ (s : State) (p : Nat), (s.Shaped) ∧ (p < 24) ∧ (attachedPd s p = true) ∧ ((s.dc p).step = some .identity) ∧ ((s.dc p).waiting = true) ∧ ((s.dc p).busyCount < 3)) ∧
    (∃ (s : State) (p : Nat), (s.Shaped) ∧ (p < 24) ∧ (attachedPd s p = true) ∧ ((s.dc p).step.isSome = true) ∧ ((s.dc p).waiting = true) ∧ ((s.dc p).sentFrame + 27 ≤ s.frame)) ∧
    (∃ (s : State) (p : Nat), ∃ m, (s.Shaped) ∧ (p < 24) ∧ (attachedPd s p = true) ∧ ((s.dc p).step = none) ∧ ((s.dc p).attempt = some m) ∧ (m.sent = true) ∧ (m.byTable = false) ∧ ((s.sw p).dfp = true)) ∧
    (∃ (s : State) (p : Nat), ∃ m, (s.Shaped) ∧ (p < 24) ∧ (attachedPd s p = true) ∧ ((s.dc p).step = none) ∧ ((s.dc p).attempt = some m) ∧ (m.sent = true) ∧ (m.byTable = false) ∧ ((s.sw p).dfp = true) ∧ (m.frame + 45 ≤ s.frame)) ∧
    (∃ (s : State) (p : Nat), ∃ m, (s.Shaped) ∧ (p < 24) ∧ (attachedPd s p = true) ∧ ((s.dc p).step = none) ∧ ((s.dc p).attempt = some m) ∧ (m.sent = true) ∧ ((s.sw p).dfp = true)) ∧
    (∃ (s : State) (p : Nat), (s.Shaped) ∧ (p < 24) ∧ (attachedPd s p = true) ∧ ((s.dc p).step = none) ∧ ((s.dc p).attempt = none) ∧ ((s.dc p).exitFrame.isSome = true) ∧ ((s.dc p).entered = true) ∧ ((s.sw p).drExit = false)) ∧
    (∃ (s : State) (p : Nat), (s.Shaped) ∧ (p < 24) ∧ (attachedPd s p = true)) :=
  ⟨⟨sp fun q => { q with pd.contract := { kind := 2 }, pd.clear := true, dc.startDue := some 100000 }, 23, by unfold State.Shaped Engine.Shaped; decide +kernel⟩,
    ⟨sp fun q => { q with pd.contract := { kind := 2 }, pd.clear := true, dc.step := some .svids, dc.busyFrame := some 99945 }, 23, .svids, by unfold State.Shaped Engine.Shaped; decide +kernel⟩,
    ⟨sp fun q => { q with dc.step := some .identity, dc.waiting := true }, 23, by unfold State.Shaped Engine.Shaped; decide +kernel⟩,
    ⟨sp fun q => { q with dc.step := some .identity, dc.waiting := true, dc.busyCount := 2 }, 23, by unfold State.Shaped Engine.Shaped; decide +kernel⟩,
    ⟨sp fun q => { q with dc.step := some .svids, dc.waiting := true, dc.sentFrame := 99973 }, 23, by unfold State.Shaped Engine.Shaped; decide +kernel⟩,
    ⟨sp fun q => { q with dc.attempt := some { svid := 0xFF01, pos := 1, sent := true, frame := 99955 } }, 23, { svid := 0xFF01, pos := 1, sent := true, frame := 99955 }, by unfold State.Shaped Engine.Shaped; decide +kernel⟩,
    ⟨sp fun q => { q with dc.attempt := some { svid := 0xFF01, pos := 1, sent := true, frame := 99955 } }, 23, { svid := 0xFF01, pos := 1, sent := true, frame := 99955 }, by unfold State.Shaped Engine.Shaped; decide +kernel⟩,
    ⟨sp fun q => { q with dc.attempt := some { svid := 0xFF01, pos := 1, sent := true, byTable := true, frame := 99955 } }, 23, { svid := 0xFF01, pos := 1, sent := true, byTable := true, frame := 99955 }, by unfold State.Shaped Engine.Shaped; decide +kernel⟩,
    ⟨sp fun q => { q with dc.exitFrame := some 99999, dc.entered := true }, 23, by unfold State.Shaped Engine.Shaped; decide +kernel⟩,
    ⟨sp id, 23, by unfold State.Shaped Engine.Shaped; decide +kernel⟩⟩

theorem witness_VdmRequests :
    (∃ (s : State) (p : Nat), (s.Shaped) ∧ (p < 24) ∧ (attachedPd s p = true)) ∧
    (∃ (s : State) (p : Nat), ∃ v : VdmReq, (s.Shaped) ∧ (p < 24) ∧ (attachedPd s p = true) ∧ ((s.sw p).dfp = true) ∧ (v.cmd ≠ 6)) ∧
    (∃ (s : State) (p : Nat), (s.Shaped) ∧ (p < 24) ∧ (attachedPd s p = true) ∧ ((s.sw p).dfp = false)) ∧
    (∃ (s : State) (p : Nat), (s.Shaped) ∧ (p < 24) ∧ (attachedPd s p = true) ∧ ((s.sw p).dfp = false) ∧ (tunnelExists s = true)) ∧
    (∃ (s : State) (p : Nat), ∃ v : VdmReq, (s.Shaped) ∧ (p < 24) ∧ (attachedPd s p = true) ∧ ((s.sw p).dfp = false) ∧ (tunnelExists s = false) ∧ (v.cmd = 2 ∨ v.cmd = 3)) :=
  ⟨⟨snk id, 23, by unfold State.Shaped Engine.Shaped; decide +kernel⟩,
    ⟨sp id, 23, { cmd := 5 }, by unfold State.Shaped Engine.Shaped; decide +kernel⟩,
    ⟨snk id, 23, by unfold State.Shaped Engine.Shaped; decide +kernel⟩,
    ⟨{ snk id with otp := { full.otp with svid := 0xFF02 } }, 23, by unfold State.Shaped Engine.Shaped; decide +kernel⟩,
    ⟨snk id, 23, { cmd := 3 }, by unfold State.Shaped Engine.Shaped; decide +kernel⟩⟩

theorem witness_TesterSessions :
    (∃ (s : State) (p : Nat), (s.Shaped) ∧ (p < 24) ∧ (attachedPd s p = true) ∧ ((s.sw p).dfp = false) ∧ (tunnelExists s = true) ∧ (s.tester.st = .closed) ∧ ((s.dc p).authFails < 3)) ∧
    (∃ (s : State) (p : Nat), (s.Shaped) ∧ (p < 24) ∧ (attachedPd s p = true) ∧ ((s.sw p).dfp = false) ∧ (tunnelExists s = true) ∧ (s.tester.st = .closed) ∧ (3 ≤ (s.dc p).authFails)) ∧
    (∃ (s : State) (p : Nat), ∃ pos, (s.Shaped) ∧ (p < 24) ∧ (attachedPd s p = true) ∧ ((s.sw p).dfp = false) ∧ (tunnelExists s = false ∨ pos ≠ 1 ∨ s.tester.st ≠ .closed)) ∧
    (∃ (s : State) (p : Nat), (s.Shaped) ∧ (p < 24) ∧ (attachedPd s p = true) ∧ ((s.sw p).dfp = false) ∧ (s.tester.st = .opened) ∧ (s.tester.port = p)) ∧
    (∃ s : State, (s.tester.st ≠ .closed) ∧ (s.tester.lastVdm + 60000 ≤ s.frame)) ∧
    (∃ (s : State) (d : Nat), (s.tester.delayUntil = some d) ∧ (d ≤ s.frame)) :=
  ⟨⟨{ snk fun q => { q with dc.authFails := 2 } with otp := { full.otp with svid := 0xFF02 } }, 23, by unfold State.Shaped Engine.Shaped; decide +kernel⟩,
    ⟨{ snk fun q => { q with dc.authFails := 3 } with otp := { full.otp with svid := 0xFF02 } }, 23, by unfold State.Shaped Engine.Shaped; decide +kernel⟩,
    ⟨{ snk id with otp := { full.otp with svid := 0xFF02 } }, 23, 2, by unfold State.Shaped Engine.Shaped; decide +kernel⟩,
    ⟨{ snk id with otp := { full.otp with svid := 0xFF02 }, tester := { st := .opened, port := 23 } }, 23, by unfold State.Shaped Engine.Shaped; decide +kernel⟩,
    ⟨{ full with tester := { st := .entered, lastVdm := 40000 } }, by decide +kernel⟩,
    ⟨{ full with tester := { delayUntil := some 100000 } }, 100000, by decide +kernel⟩⟩

theorem witness_TesterMessages :
    (∃ (s : State) (p : Nat), ∃ (hdr : Word32) (data : List Word32), (s.Shaped) ∧ (p < 24) ∧ (sessionAt s p = true) ∧ (segmentOk (segOf hdr data) = false)) ∧
    (∃ (s : State) (p : Nat), ∃ (hdr : Word32) (data : List Word32) (g : Segment), (s.Shaped) ∧ (p < 24) ∧ (sessionAt s p = true) ∧ (g = segOf hdr data) ∧ (segmentOk g = true) ∧ (g.index = 0) ∧ (0 < g.last) ∧ (g.msgType ≠ 0x10) ∧ (s.tester.inNext = 0)) ∧
    (∃ (s : State) (p : Nat), ∃ (sb : BitVec 8) (ib : BitVec 4) (sq ix : Nat), (s.Shaped) ∧ (p < 24) ∧ (sessionAt s p = true) ∧ (sq = sb.toNat) ∧ (ix = ib.toNat) ∧ (outMessage s sq = none)) ∧
    (∃ (s : State) (p : Nat), ∃ (sb : BitVec 8) (ib : BitVec 4) (sq ix : Nat), (s.Shaped) ∧ (p < 24) ∧ (sessionAt s p = true) ∧ (sq = sb.toNat) ∧ (ix = ib.toNat) ∧ (outMessage s sq = some none)) ∧
    (∃ (s : State) (p : Nat), ∃ (sb : BitVec 8) (ib : BitVec 4) (sq ix : Nat), ∃ bs, (s.Shaped) ∧ (p < 24) ∧ (sessionAt s p = true) ∧ (sq = sb.toNat) ∧ (ix = ib.toNat) ∧ (outMessage s sq = some (some bs)) ∧ (ix ≤ segLast bs.length)) ∧
    (∃ (s : State) (p : Nat), (s.Shaped) ∧ (p < 24) ∧ (sessionAt s p = true) ∧ (wholeAt s p 0x01 = true) ∧ (s.tester.st = .entered) ∧ (s.tester.delayUntil = none) ∧ (helloOk s.tester.inBytes = true)) ∧
    (∃ (s : State) (p : Nat), (s.Shaped) ∧ (p < 24) ∧ (sessionAt s p = true) ∧ (wholeAt s p 0x03 = true) ∧ (s.tester.st = .authenticating)) ∧
    (∃ (s : State) (p : Nat), (s.Shaped) ∧ (p < 24) ∧ (sessionAt s p = true) ∧ (s.tester.outExists = true) ∧ (s.tester.outType = 0x04) ∧ (s.tester.st = .opened)) ∧
    (∃ (s : State) (p : Nat), (s.Shaped) ∧ (p < 24) ∧ (sessionAt s p = true) ∧ (wholeAt s p 0x10 = true) ∧ (s.tester.st = .opened) ∧ (s.tun.classHeld (rdB s.tester.inBytes 2 % 4) = false)) :=
  ⟨⟨{ snk id with tester := { port := 23, st := .opened } }, 23, 0x01000105, [1], by unfold State.Shaped Engine.Shaped; decide +kernel⟩,
    ⟨{ snk id with tester := { port := 23, st := .opened } }, 23, 0x01000115, [1, 2, 3, 4, 5], (segOf 0x01000115 [1, 2, 3, 4, 5]), by unfold State.Shaped Engine.Shaped; decide +kernel⟩,
    ⟨{ snk id with tester := { port := 23, st := .opened, outExists := true, outSeq := 1 } }, 23, 2, 0, 2, 0, by unfold State.Shaped Engine.Shaped; decide +kernel⟩,
    ⟨{ snk id with tester := { port := 23, st := .opened, outExists := true, outSeq := 2, outType := 4 } }, 23, 2, 0, 2, 0, by unfold State.Shaped Engine.Shaped; decide +kernel⟩,
    ⟨{ snk id with tester := { port := 23, st := .opened, outExists := true, outSeq := 2, outReady := true, outBytes := List.replicate 21 7 } }, 23, 2, 1, 2, 1, List.replicate 21 7, by unfold State.Shaped Engine.Shaped; decide +kernel⟩,
    ⟨{ snk id with tester := { port := 23, st := .entered, inWhole := true, inType := 1, inBytes := 1 :: 1 :: List.replicate 34 0 } }, 23, by unfold State.Shaped Engine.Shaped; decide +kernel⟩,
    ⟨{ snk id with tester := { port := 23, st := .authenticating, inWhole := true, inType := 3 } }, 23, by unfold State.Shaped Engine.Shaped; decide +kernel⟩,
    ⟨{ snk id with tester := { port := 23, st := .opened, outExists := true, outType := 4 } }, 23, by unfold State.Shaped Engine.Shaped; decide +kernel⟩,
    ⟨{ snk id with tester := { port := 23, st := .opened, inWhole := true, inType := 0x10, inBytes := [1, 0, 1, 0] } }, 23, by unfold State.Shaped Engine.Shaped; decide +kernel⟩⟩

theorem witness_PortTrips :
    (∃ (s : State) (p : Nat) (c : Instr) (k : Nat), (s.Shaped) ∧ (s.serves p = true) ∧ (((∃ n, c = .portFastTrip ⟨p, n⟩ ∧ k = 1 ∧ (s.path p).swOn = true ∧ 10 * fastTrip s p < n) ∨ (c = .portFaultTimerTrip p ∧ k = 2 ∧ (s.path p).swOn = true ∧ portParam s p 0x2E ≤ (s.path p).timer) ∨ (c = .portCloseTimeout p ∧ k = 3 ∧ (s.path p).closing = true ∧ 2500 ≤ (s.path p).closePaces) ∨ (∃ n, c = .portReverseBlock ⟨p, n⟩ ∧ k = 4 ∧ (s.path p).swOn = true ∧ revLimit s p < n) ∨ (c = .portOvervoltage p ∧ k = 5 ∧ 2 ≤ (s.path p).ovRun)))) :=
  ⟨sp fun q => { q with path.closing := true, path.closePaces := 2500 }, 23, .portCloseTimeout 23, 3, by unfold State.Shaped Engine.Shaped; decide +kernel, by decide +kernel, Or.inr (Or.inr (Or.inl (by decide +kernel)))⟩

theorem witness_PathTimersAndTakeover :
    (∃ (s : State) (p : Nat), (s.Shaped) ∧ (s.serves p = true) ∧ ((s.path p).closing = true) ∧ (4 ≤ (s.path p).fullyOn) ∧ ((s.sw p).kind ≠ some .pr)) ∧
    (∃ (s : State) (p : Nat), (s.Shaped) ∧ (s.serves p = true) ∧ ((s.path p).closing = true) ∧ (4 ≤ (s.path p).fullyOn) ∧ (s.vbus p < 4750 ∨ 5500 < s.vbus p)) ∧
    (∃ (s : State) (p : Nat), (s.Shaped) ∧ (s.serves p = true) ∧ ((s.path p).closing = true) ∧ (4 ≤ (s.path p).fullyOn) ∧ ((s.sw p).kind = some .pr) ∧ ((s.sw p).step = 3) ∧ (s.policyRuns = true) ∧ (4750 ≤ s.vbus p) ∧ (s.vbus p ≤ 5500)) ∧
    (∃ (s : State) (p : Nat), (s.Shaped) ∧ (s.serves p = true) ∧ ((s.path p).timer ≠ 0) ∧ (50 ≤ (s.path p).timerOff)) ∧
    (∃ (s : State) (p f : Nat), (s.Shaped) ∧ (s.serves p = true) ∧ ((s.path p).ppg = true) ∧ ((s.path p).ppgFrom = some f) ∧ (f + 1000 ≤ s.frame)) ∧
    (∃ (s : State) (p f : Nat), (s.Shaped) ∧ (p < 24) ∧ ((s.pd p).typecOver = true) ∧ ((s.pd p).typecFrom = some f) ∧ (f + 60 ≤ s.frame)) ∧
    (∃ (s : State) (p : Nat), (s.Shaped) ∧ (p < 24) ∧ (s.locked = true) ∧ (s.seq.mode ≠ .serviceBoot) ∧ ((s.cc p).passiveRd = true) ∧ ((s.cc p).st ≠ .outOfService) ∧ ((((s.cc p).cc1 = .rp ∧ (s.cc p).cc2 ≠ .rp) ∨ ((s.cc p).cc1 ≠ .rp ∧ (s.cc p).cc2 = .rp))) ∧ ((s.cc p).activeRd = false)) ∧
    (∃ (s : State) (p : Nat), ∃ f, (s.Shaped) ∧ (p < 24) ∧ (s.locked = true) ∧ (s.seq.mode ≠ .serviceBoot) ∧ ((s.cc p).passiveRd = true) ∧ ((s.cc p).st ≠ .outOfService) ∧ ((((s.cc p).cc1 = .rp ∧ (s.cc p).cc2 ≠ .rp) ∨ ((s.cc p).cc1 ≠ .rp ∧ (s.cc p).cc2 = .rp))) ∧ ((s.cc p).activeRd = true) ∧ ((s.cc p).takeoverFrame = some f) ∧ (f + 1 ≤ s.frame)) ∧
    (∃ (s : State) (p : Nat), (s.Shaped) ∧ (p < 24) ∧ (s.locked = false) ∧ ((s.cc p).disch = true) ∧ ((s.cc p).dischTick + 6400 ≤ s.tick)) :=
  ⟨⟨sp fun q => { q with path.closing := true, path.fullyOn := 4 }, 23, by unfold State.Shaped Engine.Shaped; decide +kernel⟩,
    ⟨sp fun q => { q with path.closing := true, path.fullyOn := 4, path.vsrc := true, cc.vbusMv := 4749 }, 23, by unfold State.Shaped Engine.Shaped; decide +kernel⟩,
    ⟨sp fun q => { q with path.closing := true, path.fullyOn := 4, path.vsrc := true, cc.vbusMv := 5500, sw.kind := some .pr, sw.step := 3 }, 23, by unfold State.Shaped Engine.Shaped; decide +kernel⟩,
    ⟨sp fun q => { q with path.timer := 1, path.timerOff := 50 }, 23, by unfold State.Shaped Engine.Shaped; decide +kernel⟩,
    ⟨sp fun q => { q with path.ppg := true, path.ppgFrom := some 99000 }, 23, 99000, by unfold State.Shaped Engine.Shaped; decide +kernel⟩,
    ⟨sp fun q => { q with pd.typecOver := true, pd.typecFrom := some 99940 }, 23, 99940, by unfold State.Shaped Engine.Shaped; decide +kernel⟩,
    ⟨pt fun q => { q with cc.passiveRd := true, cc.cc1 := .rp }, 23, by unfold State.Shaped Engine.Shaped; decide +kernel⟩,
    ⟨pt fun q => { q with cc.passiveRd := true, cc.cc2 := .rp, cc.activeRd := true, cc.takeoverFrame := some 99999 }, 23, 99999, by unfold State.Shaped Engine.Shaped; decide +kernel⟩,
    ⟨{ pt fun q => { q with cc.disch := true, cc.dischTick := 993600 } with locked := false }, 23, by unfold State.Shaped Engine.Shaped; decide +kernel⟩⟩

theorem witness_SteeringGuard :
    (∃ (s : State) (k r : Nat), (s.Inv) ∧ (s.hasPhase k = true) ∧ (r = ridgeOfPhase k) ∧ ((s.phase k).guard = .drain) ∧ (1 ≤ (s.phase k).gAge) ∧ ((s.phase k).zeroPrev = true)) ∧
    (∃ (s : State) (k r : Nat), (s.Inv) ∧ (s.hasPhase k = true) ∧ (r = ridgeOfPhase k) ∧ ((s.phase k).guard = .count) ∧ (4 ≤ (s.phase k).gZc)) ∧
    (∃ (s : State) (k r : Nat), (s.Inv) ∧ (s.hasPhase k = true) ∧ (r = ridgeOfPhase k) ∧ ((s.phase k).guard = .brk) ∧ (10 ≤ (s.phase k).gBt) ∧ (((s.phase k).gTarget = 3 ∨ 2 ≤ (s.phase k).gSettled))) ∧
    (∃ (s : State) (k r : Nat), ∃ (c : Instr) (n : Nat), (s.Inv) ∧ (s.hasPhase k = true) ∧ (r = ridgeOfPhase k) ∧ (((c = .guardDrainTimeout k ∧ n = 1 ∧ (s.phase k).guard = .drain ∧ 16 < (s.phase k).gAge ∧ (s.phase k).zeroPrev = false) ∨ (c = .guardCountTimeout k ∧ n = 2 ∧ (s.phase k).guard = .count ∧ 40 ≤ (s.phase k).gAge ∧ (s.phase k).gZc < 4) ∨ (c = .guardPrebiasTimeout k ∧ n = 3 ∧ (s.phase k).guard = .brk ∧ 40 ≤ (s.phase k).gBt ∧ (s.phase k).gTarget ≠ 3 ∧ (s.phase k).gSettled < 2)))) :=
  ⟨⟨ph fun q => { q with guard := .drain, gAge := 1, zeroPrev := true }, 47, 5, by unfold State.Inv State.Shaped State.MemOk Engine.Shaped Engine.MemOk; decide +kernel⟩,
    ⟨ph fun q => { q with guard := .count, gZc := 4 }, 47, 5, by unfold State.Inv State.Shaped State.MemOk Engine.Shaped Engine.MemOk; decide +kernel⟩,
    ⟨ph fun q => { q with guard := .brk, gBt := 10, gTarget := 1, gSettled := 2 }, 47, 5, by unfold State.Inv State.Shaped State.MemOk Engine.Shaped Engine.MemOk; decide +kernel⟩,
    ⟨ph fun q => { q with guard := .drain, gAge := 17 }, 47, 5, .guardDrainTimeout 47, 1, by unfold State.Inv State.Shaped State.MemOk Engine.Shaped Engine.MemOk; decide +kernel⟩⟩

theorem witness_PhaseAndRidgeStops :
    (∃ (s : State) (k : Nat), (s.Shaped) ∧ (s.hasPhase k = true)) ∧
    (∃ (s : State) (k : Nat) (ma : Int) (_cyc : Nat), (s.Shaped) ∧ (s.hasPhase k = true) ∧ ((s.phase k).fitted = true) ∧ ((ipk s k : Int) ≤ ma ∨ ma ≤ -(ipk s k : Int))) ∧
    (∃ (s : State) (k : Nat) (ma : Int) (_cyc : Nat), (s.Shaped) ∧ (s.hasPhase k = true) ∧ ((s.phase k).fitted = true) ∧ (ma < (ipk s k : Int)) ∧ (-(ipk s k : Int) < ma)) ∧
    (∃ (s : State) (k : Nat) (c : Instr) (b : Nat), (s.Shaped) ∧ (s.phaseLive k = true) ∧ (((c = .pklimStop k ∧ b = 1 ∧ 50 ≤ (s.phase k).pklimRun) ∨ (c = .phaseAbsentRun k ∧ b = 2)))) ∧
    (∃ (s : State) (k : Nat), (s.Shaped) ∧ (s.phaseLive k = true) ∧ (4 ≤ (s.phase k).invRun)) ∧
    (∃ (s : State) (r : Nat) (c : Instr) (b : Nat), (s.Shaped) ∧ (s.ridgeLive r = true) ∧ (((c = .stageFault r ∧ b = 4 ∧ 2 ≤ (s.ridge r).stgfltRun) ∨ (c = .ridgeHot r ∧ b = 6 ∧ ridgeIsHot s r = true)))) ∧
    (∃ (s : State) (r : Nat) (c : Instr) (b : Nat), (s.Shaped) ∧ (r < 6) ∧ (s.locked = true) ∧ ((s.ridge r).run = .stopped) ∧ (((c = .stageFault r ∧ b = 4 ∧ 2 ≤ (s.ridge r).stgfltRun) ∨ (c = .ridgeHot r ∧ b = 6 ∧ ridgeIsHot s r = true)))) ∧
    (∃ (s : State) (r : Nat), (r < 6) ∧ (s.locked = true) ∧ ((s.ridge r).run ≠ .depopulated) ∧ (((s.ridge r).tRidge < -800 ∨ 2800 < (s.ridge r).tRidge))) :=
  ⟨⟨ph fun q => { q with pwmOff := true }, 47, by unfold State.Shaped Engine.Shaped; decide +kernel⟩,
    ⟨ph fun q => { q with fitted := true }, 47, -(ipk (ph fun q => { q with fitted := true }) 47 : Int), 799, by unfold State.Shaped Engine.Shaped; decide +kernel⟩,
    ⟨ph fun q => { q with fitted := true }, 47, 0, 0, by unfold State.Shaped Engine.Shaped; decide +kernel⟩,
    ⟨ph fun q => { q with fitted := true, pklimRun := 50 }, 47, .pklimStop 47, 1, by unfold State.Shaped Engine.Shaped; decide +kernel⟩,
    ⟨ph fun q => { q with fitted := true, invRun := 4 }, 47, by unfold State.Shaped Engine.Shaped; decide +kernel⟩,
    ⟨rg fun q => { q with run := .running, tRidge := 2081 }, 5, .ridgeHot 5, 6, by unfold State.Shaped Engine.Shaped; decide +kernel⟩,
    ⟨rg fun q => { q with run := .stopped, stgfltRun := 2 }, 5, .stageFault 5, 4, by unfold State.Shaped Engine.Shaped; decide +kernel⟩,
    ⟨rg fun q => { q with run := .running, tRidge := 2801 }, 5, by decide +kernel⟩⟩

theorem witness_PaceBoundary :
    (∃ (s : State) (_m : PaceSense), (s.locked = true) ∧ (499 ≤ s.pace) ∧ (s.paceZero = false)) ∧
    (∃ (s u : State) (_m : PaceSense), (s.Inv) ∧ (s.locked = true) ∧ ((s.pace < 499 ∨ s.paceZero = true)) ∧ (u = publishWindows s) ∧ ((s.sup.schedDue = false ∨ s.pace ≠ 0 ∨ s.paceZero = true))) ∧
    (∃ (s : State) (_m : PaceSense), (s.sup.schedDue = true) ∧ (s.pace = 0) ∧ (s.paceZero = false)) :=
  ⟨⟨{ full with pace := 499, paceZero := false }, {}, by decide +kernel⟩,
    ⟨{ full with pace := 498, paceZero := false }, _, {}, by unfold State.Inv State.Shaped State.MemOk Engine.Shaped Engine.MemOk; decide +kernel, by decide +kernel, by decide +kernel, rfl, Or.inl (by decide +kernel)⟩,
    ⟨{ full with sup := { schedDue := true }, pace := 0, paceZero := false }, {}, by decide +kernel⟩⟩

theorem witness_ProgramsAndOverruns :
    (∃ (s : State) (r : Nat), (s.Shaped) ∧ (s.ridgeLive r = true) ∧ ((s.ridge r).started = true) ∧ ((s.ridge r).dmaLate = false) ∧ ((s.ridge r).published = false) ∧ ((s.ridge r).overrun = false)) ∧
    (∃ (s : State) (r : Nat), (s.Shaped) ∧ (s.ridgeLive r = true) ∧ ((s.ridge r).started = true) ∧ ((s.ridge r).published = false) ∧ ((s.ridge r).overrun = false)) :=
  ⟨⟨rg fun q => { q with run := .running, started := true }, 5, by unfold State.Shaped Engine.Shaped; decide +kernel⟩,
    ⟨rg fun q => { q with run := .held, started := true }, 5, by unfold State.Shaped Engine.Shaped; decide +kernel⟩⟩

theorem witness_FrameBoundary :
    (∃ (s : State), (s.Shaped) ∧ (s.locked = true) ∧ (s.pace = 499) ∧ (s.paceZero = false)) :=
  ⟨{ full with pace := 499, paceZero := false }, by unfold State.Shaped Engine.Shaped; decide +kernel⟩

theorem witness_InnkeeperEvents :
    (∃ (s : State), (s.inn.started = true) ∧ (s.locked = true) ∧ (s.sup.st ≠ .hold) ∧ (s.inn.next = none) ∧ (s.inn.capped = false) ∧ (s.sup.schedDue = false) ∧ ((s.zeroWaits = false ∨ s.sup.cmdCapped = true))) ∧
    (∃ (s : State), (s.locked = true) ∧ (s.sup.st ≠ .hold) ∧ (s.inn.started = true) ∧ (s.inn.next = none)) ∧
    (∃ (s : State), ∃ k : Sys2Proof.Task, (s.locked = true) ∧ (s.sup.st ≠ .hold) ∧ (k ≠ .innkeeper)) ∧
    (∃ (s : State) (f : Nat), (s.inn.degradedFrom = some f) ∧ (f + 1000 ≤ s.frame)) ∧
    (∃ (s : State), (s.inn.dip = true) ∧ (s.inn.dipHoldOver = false) ∧ ((s.inn.dipFrom + s.inf 0 0 0x35 ≤ s.frame ∨ feedStrained s 0 = true ∨ feedStrained s 1 = true))) ∧
    (∃ (s : State), (s.inn.dip = true) ∧ (100 ≤ s.inn.dipClear)) ∧
    (∃ (s : State), (s.inn.started = true) ∧ (noFeed s = true) ∧ (500 ≤ s.inn.feedless)) ∧
    (∃ (s : State) (p : Nat), (s.Shaped) ∧ (p < 24) ∧ (s.locked = true) ∧ ((s.ledger.port p).tier ≠ 0) ∧ ((s.path p).shed = false) ∧ (s.placed p = true) ∧ (3 ≤ (s.ridge (ridgeOfPort p)).shedRun.getD (s.ledger.port p).tier 0)) :=
  ⟨⟨full, by decide +kernel⟩,
    ⟨full, by decide +kernel⟩,
    ⟨full, .policy, by decide +kernel⟩,
    ⟨{ full with inn := { degradedFrom := some 99000 } }, 99000, by decide +kernel⟩,
    ⟨{ full with inn := { dip := true, dipFrom := 99950 } }, by decide +kernel⟩,
    ⟨{ full with inn := { dip := true, dipClear := 100 } }, by decide +kernel⟩,
    ⟨{ full with inn := { started := true, feedless := 500 } }, by decide +kernel⟩,
    ⟨{ (rg fun q => { q with shedRun := [0, 0, 3, 0] }) with ledger := { full.ledger with phases := full.ledger.phases.set 46 { st := 1, pair := 1 } } }, 23, by unfold State.Shaped Engine.Shaped; decide +kernel⟩⟩

theorem witness_FeedRamps :
    (∃ (s : State) (x : Nat) (c : Instr), (s.Shaped) ∧ (s.mayRamp x = true) ∧ (((c = .feedQualifyComplete x ∧ (s.feed x).st = .qualify) ∨ (c = .feedHoldoffReturn x ∧ (s.feed x).st = .holdOff) ∨ (c = .feedRetryDelayEnd x ∧ (s.feed x).st = .retryWait) ∨ c = .feedRampTurnTake x))) ∧
    (∃ (s : State) (x : Nat), (s.Shaped) ∧ (x < 2) ∧ (s.atBoundary = true) ∧ ((s.feed x).st = .retryWait) ∧ ((s.feed x).tripFrame + feedParam s x 0x17 ≤ s.frame) ∧ ((s.feed x).window = false)) ∧
    (∃ (s : State) (x : Nat), (s.Shaped) ∧ (x < 2) ∧ (((s.feed x).st = .qualify ∨ (s.feed x).st = .holdOff)) ∧ ((s.feed x).window = false)) ∧
    (∃ (s : State) (m : FeedOn) (x : Nat), (s.Shaped) ∧ (m.feed = x) ∧ (x < 2) ∧ ((s.feed x).st = .ramp) ∧ (4 ≤ (s.feed x).onRun) ∧ ((s.feed x).withheld = false) ∧ (m.nv < fastTripNv s x) ∧ ((s.feed x).timer < feedParam s x 0x16) ∧ (m.sns ≤ (s.feed x).ov) ∧ ((s.feed x).sns ≤ (s.feed x).ov) ∧ ((s.feed x).uvRun < 4)) ∧
    (∃ (s : State) (m : FeedOn) (x : Nat), (s.Shaped) ∧ (m.feed = x) ∧ (x < 2) ∧ ((s.feed x).st = .ramp) ∧ (4 ≤ (s.feed x).onRun) ∧ ((s.feed x).withheld = false) ∧ (fastTripNv s x ≤ m.nv ∨ feedParam s x 0x16 ≤ (s.feed x).timer ∨ (s.feed x).ov < max m.sns (s.feed x).sns ∨ 4 ≤ (s.feed x).uvRun)) :=
  ⟨⟨fd fun q => { q with st := .qualify, window := true, count := 200 }, 1, .feedQualifyComplete 1, by unfold State.Shaped Engine.Shaped; decide +kernel⟩,
    ⟨fd fun q => { q with st := .retryWait, tripFrame := 99900 }, 1, by unfold State.Shaped Engine.Shaped; decide +kernel⟩,
    ⟨fd fun q => { q with st := .holdOff }, 1, by unfold State.Shaped Engine.Shaped; decide +kernel⟩,
    ⟨fd fun q => { q with st := .ramp, onRun := 4, sns := 4000, ov := 4000 }, { feed := 1, sns := 4000 }, 1, by unfold State.Shaped Engine.Shaped; decide +kernel⟩,
    ⟨fd fun q => { q with st := .ramp, onRun := 4, sns := 4000, ov := 4000 }, { feed := 1, sns := 4001 }, 1, by unfold State.Shaped Engine.Shaped; decide +kernel⟩⟩

theorem witness_FeedTripsAndHoldOffs :
    (∃ (s : State) (x : Nat) (c : Instr) (k : Nat), (s.Shaped) ∧ (x < 2) ∧ (((∃ n, c = .feedFastTrip ⟨x, n⟩ ∧ k = 1 ∧ (s.feed x).conducting = true ∧ fastTripNv s x ≤ n) ∨ (c = .feedFaultTimerTrip x ∧ k = 2 ∧ (s.feed x).conducting = true ∧ feedParam s x 0x16 ≤ (s.feed x).timer) ∨ (c = .feedRampTimeout x ∧ k = 3 ∧ (s.feed x).st = .ramp ∧ (s.feed x).rampFrame + feedParam s x 0x14 ≤ s.frame)))) ∧
    (∃ (s : State) (x : Nat), (s.Shaped) ∧ (x < 2) ∧ ((s.feed x).st = .holdOff) ∧ ((s.feed x).offAt = some s.now) ∧ ((s.feed x).offTurn = true) ∧ ((s.feed x).rampFrame + feedParam s x 0x14 ≤ s.frame)) ∧
    (∃ (s : State) (x : Nat) (c : Instr) (ov : Bool), (s.Shaped) ∧ (x < 2) ∧ ((s.feed x).conducting = true) ∧ (((∃ v, c = .feedOvTurnoff ⟨x, v⟩ ∧ ov = true ∧ (s.feed x).ov < v) ∨ (c = .feedUvRun x ∧ ov = false ∧ 4 ≤ (s.feed x).uvRun)))) :=
  ⟨⟨fd fun q => { q with st := .ramp, rampFrame := 99900 }, 1, .feedRampTimeout 1, 3, by unfold State.Shaped Engine.Shaped; decide +kernel, by decide +kernel, Or.inr (Or.inr (by decide +kernel))⟩,
    ⟨fd fun q => { q with st := .holdOff, offAt := some 50000000, offTurn := true, rampFrame := 99900 }, 1, by unfold State.Shaped Engine.Shaped; decide +kernel⟩,
    ⟨fd fun q => { q with st := .on, uvRun := 4 }, 1, .feedUvRun 1, false, by unfold State.Shaped Engine.Shaped; decide +kernel, by decide +kernel, by decide +kernel, Or.inr (by decide +kernel)⟩⟩

theorem witness_FeedGatesAndTimers :
    (∃ (s : State) (x : Nat), (s.Shaped) ∧ (x < 2) ∧ (50 ≤ (s.feed x).timerOff)) ∧
    (∃ (s : State) (x : Nat) (d : Int), (s.Shaped) ∧ (x < 2) ∧ ((s.feed x).conducting = true) ∧ (d < -10)) ∧
    (∃ (s : State) (x : Nat), (s.Shaped) ∧ (x < 2) ∧ ((s.feed x).conducting = true) ∧ ((s.feed x).revNow = true) ∧ (2 ≤ (s.feed x).dropRun)) ∧
    (∃ (s : State) (x : Nat), (s.Shaped) ∧ (x < 2) ∧ (2 ≤ (s.feed x).revRun)) ∧
    (∃ (s : State) (x f : Nat), (s.Shaped) ∧ (x < 2) ∧ ((s.feed x).pg = true) ∧ ((s.feed x).pgFrame = some f) ∧ (f + 1000 ≤ s.frame)) :=
  ⟨⟨fd fun q => { q with timerOff := 50 }, 1, by unfold State.Shaped Engine.Shaped; decide +kernel⟩,
    ⟨fd fun q => { q with st := .on }, 1, -11, by unfold State.Shaped Engine.Shaped; decide +kernel⟩,
    ⟨fd fun q => { q with st := .on, revNow := true, dropRun := 2 }, 1, by unfold State.Shaped Engine.Shaped; decide +kernel⟩,
    ⟨fd fun q => { q with revRun := 2 }, 1, by unfold State.Shaped Engine.Shaped; decide +kernel⟩,
    ⟨fd fun q => { q with pg := true, pgFrame := some 99000 }, 1, 99000, by unfold State.Shaped Engine.Shaped; decide +kernel⟩⟩

theorem witness_WakesAndSupplies :
    (∃ (s : State) (c : Instr) (b : Nat), (s.seq.boot = false) ∧ (((c = .ignWake ∧ b = 0 ∧ s.seq.resetLow = false ∧ (s.seq.mode = .retention ∨ s.seq.mode = .seqFailure)) ∨ (c = .vbootQualify ∧ b = 2 ∧ s.seq.resetLow = false ∧ s.seq.vbatOk = true ∧ s.seq.mode = .retention) ∨ ((∃ a, c = .resetNRelease a) ∧ b = 3 ∧ (s.seq.mode = .retention ∨ s.seq.mode = .seqFailure ∨ s.seq.mode = .integrityHold))))) ∧
    (∃ (s : State) (c : Instr) (b : Nat), ((s.seq.mode = .shutdown ∨ s.seq.mode = .shutoff ∨ s.seq.mode = .holdoff)) ∧ (((c = .ignWake ∧ b = 0) ∨ (c = .vbootQualify ∧ b = 2 ∧ s.seq.vbatOk = true) ∨ ((∃ a, c = .resetNRelease a) ∧ b = 3)))) ∧
    (∃ (s : State) (c : Instr) (b : Nat), (s.seq.mode = .sequencing) ∧ (((c = .ignWake ∧ b = 0) ∨ (c = .vbootQualify ∧ b = 2) ∨ ((∃ a, c = .resetNRelease a) ∧ b = 3)))) ∧
    (∃ (s : State) (_high : Bool) (_a : Nat), (s.seq.vbatOk = false) ∧ (s.seq.resetLow = false) ∧ ((s.seq.mode = .seqFailure ∨ s.seq.mode = .integrityHold))) ∧
    (∃ (s : State), (s.seq.mode = .integrityHold)) ∧
    (∃ (s : State) (_high : Bool) (_a : Nat), (s.seq.vbatOk = false) ∧ (s.seq.mode = .unpowered)) ∧
    (∃ (s : State), (s.seq.vbatOk = true) ∧ (s.seq.boot = false)) ∧
    (∃ (s : State), (s.seq.vbatOk = true) ∧ (s.seq.boot = true)) ∧
    (∃ (s : State), ((s.powered = true ∨ s.seq.mode = .shutdown))) ∧
    (∃ (s : State) (_high : Bool), (s.seq.mode ≠ .unpowered)) ∧
    (∃ (s : State) (p : Nat), (s.seq.mode = .serviceBoot) ∧ (s.locked = true) ∧ (s.atBoundary = true) ∧ (s.seq.bootPort = none) ∧ (s.Shaped) ∧ (bootCandidate s = some p)) ∧
    (∃ (s : State), (s.seq.boot = true) ∧ (s.seq.vbatOk = false)) ∧
    (∃ (s : State), (s.seq.boot = true) ∧ (s.seq.vbatOk = true) ∧ (s.seq.mode = .serviceBoot)) ∧
    (∃ (s : State), ((s.seq.boot = false ∨ s.seq.vbatOk = true)) ∧ (s.seq.mode ≠ .serviceBoot)) :=
  ⟨⟨{ State.reset with seq := { mode := .integrityHold, resetLow := true } }, .resetNRelease 7, 3, by decide +kernel, Or.inr (Or.inr ⟨⟨7, rfl⟩, rfl, Or.inr (Or.inr rfl)⟩)⟩,
    ⟨stopping id, .ignWake, 0, by decide +kernel, Or.inl ⟨rfl, rfl⟩⟩,
    ⟨starting 3 0, .vbootQualify, 2, by decide +kernel, Or.inr (Or.inl ⟨rfl, rfl⟩)⟩,
    ⟨{ State.reset with seq := { mode := .seqFailure } }, false, 7, by decide +kernel⟩,
    ⟨{ State.reset with seq := { mode := .integrityHold } }, by decide +kernel⟩,
    ⟨State.reset, false, 7, by decide +kernel⟩,
    ⟨full, by decide +kernel⟩,
    ⟨{ full with seq := { full.seq with boot := true } }, by decide +kernel⟩,
    ⟨stopping id, by decide +kernel⟩,
    ⟨full, false, by decide +kernel⟩,
    ⟨{ pt fun q => { q with cc.vbusMv := 4300, cc.cc2 := .rp } with seq := { mode := .serviceBoot }, otp := { full.otp with low := [(64, 0x800000)], high := [(64, 0x800000)] } }, 23, by unfold State.Shaped Engine.Shaped; decide +kernel⟩,
    ⟨{ full with seq := { mode := .holdoff, boot := true } }, by decide +kernel⟩,
    ⟨{ full with seq := { mode := .serviceBoot, boot := true, vbatOk := true } }, by decide +kernel⟩,
    ⟨full, by decide +kernel⟩⟩

theorem witness_SequenceSteps :
    (∃ (s : State) (_m : StepSense) (_r n : Nat), (s.seq.mode = .sequencing) ∧ (s.seq.step = n) ∧ ((n = 0 ∨ n = 1 ∨ n = 2 ∨ n = 4)) ∧ (s.seq.subTick + 3 ≤ s.tick) ∧ (s.tick ≤ s.seq.subTick + s.otp.seqTmo)) ∧
    (∃ (s : State) (_m : StepSense) (_r : Nat), (s.seq.mode = .sequencing) ∧ (s.seq.step = 3) ∧ (s.seq.sub = 0) ∧ (s.seq.subTick + 3 ≤ s.tick) ∧ (s.tick ≤ s.seq.subTick + s.otp.seqTmo)) ∧
    (∃ (s : State) (_m : StepSense) (_r : Nat), (s.Shaped) ∧ (s.seq.mode = .sequencing) ∧ (s.seq.step = 5) ∧ (s.seq.subTick + 3 ≤ s.tick) ∧ (s.tick ≤ s.seq.subTick + s.otp.seqTmo) ∧ (s.otp.modes.testBit 2 = true) ∧ (s.seq.sub = 0)) ∧
    (∃ (s : State) (_m : StepSense) (_r : Nat), (s.Shaped) ∧ (s.seq.mode = .sequencing) ∧ (s.seq.step = 5) ∧ (s.seq.subTick + 3 ≤ s.tick) ∧ (s.tick ≤ s.seq.subTick + s.otp.seqTmo) ∧ ((s.otp.modes.testBit 2 = false ∨ s.seq.sub ≠ 0))) ∧
    (∃ (s : State) (m : StepSense) (l : List Nat) (_r f : Nat), (s.Shaped) ∧ (l = m.imonMv) ∧ (s.seq.mode = .sequencing) ∧ (s.seq.step = 6) ∧ (s.seq.step6Good = true) ∧ (s.seq.step7Frame = some f) ∧ (f ≤ s.frame)) ∧
    (∃ (s : State) (_m : StepSense) (r : Nat), (s.Shaped) ∧ (s.seq.mode = .sequencing) ∧ (s.seq.step = 7) ∧ (r < 6) ∧ (s.locked = true) ∧ ((s.ridge r).stgen = true) ∧ ((s.ridge r).stgenQual = false) ∧ ((s.ridge r).stgenTick + 3 ≤ s.tick) ∧ (s.tick ≤ (s.ridge r).stgenTick + s.otp.seqTmo)) ∧
    (∃ (s : State) (_m : StepSense) (r : Nat), (s.Shaped) ∧ (s.seq.mode = .sequencing) ∧ (s.seq.step = 7) ∧ (r < 6) ∧ (s.locked = true) ∧ ((s.ridge r).stgen = true) ∧ ((s.ridge r).stgenQual = false) ∧ ((s.ridge r).stgenTick + s.otp.seqTmo ≤ s.tick)) ∧
    (∃ (s : State), (s.inStep3 1 = true) ∧ (s.tick ≤ s.seq.subTick + 64)) ∧
    (∃ (s : State), (s.inStep3 2 = true) ∧ (s.otp.integrityFails = true)) ∧
    (∃ (s : State), (s.Shaped) ∧ (s.inStep3 2 = true) ∧ (s.otp.integrityFails = false) ∧ (s.seq.boot = false)) ∧
    (∃ (s : State), (s.inStep3 2 = true) ∧ (s.otp.integrityFails = false) ∧ (s.seq.boot = true)) ∧
    (∃ (s : State), (s.seq.mode = .sequencing) ∧ (s.seq.step = 6) ∧ (s.seq.step6Good = false) ∧ (s.seq.stepFrame + 2000 ≤ s.frame)) ∧
    (∃ (s : State) (c : Instr), (s.Shaped) ∧ (s.seq.mode = .sequencing) ∧ (((c = .seqStepTimeout ∧ s.railStep = true ∧ s.seq.subTick + s.otp.seqTmo ≤ s.tick) ∨ (c = .pllLockTimeout ∧ s.inStep3 1 = true ∧ s.seq.subTick + 64 < s.tick)))) :=
  ⟨⟨starting 4 0, {}, 0, 4, by decide +kernel⟩,
    ⟨starting 3 0, {}, 0, by decide +kernel⟩,
    ⟨{ starting 5 0 with otp := { State.reset.otp with modes := 4 } }, {}, 0, by unfold State.Shaped Engine.Shaped; decide +kernel⟩,
    ⟨starting 5 0, {}, 0, by unfold State.Shaped Engine.Shaped; decide +kernel⟩,
    ⟨{ full with seq := { mode := .sequencing, step := 6, step6Good := true, step7Frame := some 100000 } }, {}, [], 0, 100000, by unfold State.Shaped Engine.Shaped; decide +kernel⟩,
    ⟨{ (rg fun q => { q with stgen := true, stgenTick := 999997 }) with seq := { mode := .sequencing, step := 7 } }, {}, 5, by unfold State.Shaped Engine.Shaped; decide +kernel⟩,
    ⟨{ (rg fun q => { q with stgen := true, stgenTick := 999680 }) with seq := { mode := .sequencing, step := 7 } }, {}, 5, by unfold State.Shaped Engine.Shaped; decide +kernel⟩,
    ⟨{ starting 3 1 with tick := 1000061 }, by decide +kernel⟩,
    ⟨{ starting 3 2 with otp := { State.reset.otp with low := [(1023, 0x8421)], high := [(1023, 0x8421)] } }, by decide +kernel⟩,
    ⟨starting 3 2, by unfold State.Shaped Engine.Shaped; decide +kernel⟩,
    ⟨{ starting 3 2 with seq := { (starting 3 2).seq with boot := true } }, by decide +kernel⟩,
    ⟨{ full with seq := { mode := .sequencing, step := 6, stepFrame := 98000 } }, by decide +kernel⟩,
    ⟨{ starting 3 1 with tick := 1000062 }, .pllLockTimeout, by unfold State.Shaped Engine.Shaped; decide +kernel⟩⟩

theorem witness_ShutdownAndHoldoff :
    (∃ (s : State) (c : Instr) (b : Nat), (s.powered = true) ∧ (((c = .runningRailFault ∧ b = 2) ∨ (c = .clockFault ∧ b = 3 ∧ s.locked = true)))) ∧
    (∃ (s : State), (s.powered = true)) ∧
    (∃ (s : State), (s.locked = true) ∧ (2240 ≤ s.dev.dieTemp)) ∧
    (∃ (s : State) (f : Nat), (s.Shaped) ∧ (s.seq.mode = .running) ∧ (s.inf 0 0 0x38 = 1) ∧ (s.seq.ignLowFrom = some f) ∧ (f + s.inf 0 0 0x39 ≤ s.frame)) ∧
    (∃ (s : State) (f : Nat), (s.seq.mode = .serviceBoot) ∧ (s.seq.complete = true) ∧ (s.inf 0 0 0x38 = 1) ∧ (s.seq.ignLowFrom = some f) ∧ (f + s.inf 0 0 0x39 ≤ s.frame)) ∧
    (∃ (s : State) (n : Nat), (s.seq.mode = .shutdown) ∧ (s.seq.boot = false) ∧ (s.seq.downStep = n + 1) ∧ ((n + 1 = 7 → step7Off s = true)) ∧ (¬(n + 1 = 5 ∧ s.seq.sub = 1))) ∧
    (∃ (s : State), (s.seq.mode = .shutdown) ∧ (s.seq.downStep = 5) ∧ (s.seq.sub = 1)) ∧
    (∃ (s : State), (s.seq.mode = .shutdown) ∧ (s.seq.downStep = 0) ∧ (s.seq.sub = 0)) ∧
    (∃ (s : State), (s.seq.mode = .shutdown) ∧ (s.seq.downStep ≠ 7) ∧ (s.seq.downTick + 640 ≤ s.tick)) ∧
    (∃ (s : State) (off : Bool), (s.seq.mode = .shutoff) ∧ ((off = true ∨ s.seq.tsoTick + 640 ≤ s.tick))) ∧
    (∃ (s : State), (s.seq.mode = .holdoff) ∧ (s.seq.holdEnd ≤ s.tick) ∧ (s.seq.boot = false) ∧ (s.seq.resetLow = true) ∧ ((s.seq.after = .rest ∨ s.seq.after = .retry ∨ s.seq.after = .restart ∨ (s.seq.after = .failure ∧ s.seq.wakeNoted &&& 0x0019 ≠ 0) ∨ (s.seq.after = .integrity ∧ s.seq.wakeNoted &&& 0x0018 ≠ 0)))) ∧
    (∃ (s : State), (s.seq.mode = .holdoff) ∧ (s.seq.holdEnd ≤ s.tick) ∧ (s.seq.boot = false) ∧ (s.seq.resetLow = false) ∧ (s.seq.wakeNoted = 0) ∧ (s.seq.after = .rest)) ∧
    (∃ (s : State), (s.seq.mode = .holdoff) ∧ (s.seq.holdEnd ≤ s.tick) ∧ (s.seq.boot = false) ∧ (s.seq.resetLow = false) ∧ (s.seq.wakeNoted = 0) ∧ (s.seq.after = .retry)) ∧
    (∃ (s : State), (s.seq.mode = .holdoff) ∧ (s.seq.holdEnd ≤ s.tick) ∧ (s.seq.boot = false) ∧ (s.seq.resetLow = false) ∧ (s.seq.wakeNoted = 0) ∧ (s.seq.after = .restart)) ∧
    (∃ (s : State), (s.seq.mode = .holdoff) ∧ (s.seq.holdEnd ≤ s.tick) ∧ (s.seq.boot = false) ∧ (s.seq.after = .integrity) ∧ (s.seq.wakeNoted &&& 0x0018 = 0)) ∧
    (∃ (s : State), (s.seq.mode = .holdoff) ∧ (s.seq.holdEnd ≤ s.tick) ∧ (s.seq.boot = false) ∧ (s.seq.after = .failure) ∧ (s.seq.wakeNoted &&& 0x0019 = 0)) ∧
    (∃ (s : State), (s.seq.mode = .holdoff) ∧ (s.seq.holdEnd ≤ s.tick) ∧ (s.seq.boot = false) ∧ (s.seq.resetLow = false) ∧ (s.seq.after = .rest) ∧ (s.seq.wakeNoted ≠ 0)) :=
  ⟨⟨full, .clockFault, 3, by decide +kernel⟩,
    ⟨full, by decide +kernel⟩,
    ⟨{ full with dev := { dieTemp := 2240 } }, by decide +kernel⟩,
    ⟨{ full with inForce := [(0x38, 1)], seq := { full.seq with ignLowFrom := some 40000 } }, 40000, by unfold State.Shaped Engine.Shaped; decide +kernel⟩,
    ⟨{ full with inForce := [(0x38, 1)], seq := { full.seq with mode := .serviceBoot, ignLowFrom := some 40000 } }, 40000, by decide +kernel⟩,
    ⟨stopping fun q => { q with downStep := 7, downTick := 999999 }, 6, by decide +kernel⟩,
    ⟨stopping fun q => { q with downStep := 5, sub := 1 }, by decide +kernel⟩,
    ⟨stopping fun q => { q with downStep := 0, sub := 0 }, by decide +kernel⟩,
    ⟨stopping fun q => { q with downStep := 6, downTick := 999360 }, by decide +kernel⟩,
    ⟨{ State.reset with tick := 640, seq := { mode := .shutoff } }, false, by decide +kernel⟩,
    ⟨waiting fun q => { q with resetLow := true }, by decide +kernel⟩,
    ⟨waiting id, by decide +kernel⟩,
    ⟨waiting fun q => { q with after := .retry }, by decide +kernel⟩,
    ⟨waiting fun q => { q with after := .restart }, by decide +kernel⟩,
    ⟨waiting fun q => { q with after := .integrity, wakeNoted := 7 }, by decide +kernel⟩,
    ⟨waiting fun q => { q with after := .failure, wakeNoted := 6 }, by decide +kernel⟩,
    ⟨waiting fun q => { q with wakeNoted := 1 }, by decide +kernel⟩⟩

theorem witness_BringUp :
    (∃ s : State, (s.bringup 0 = true)) ∧
    (∃ s : State, (s.Shaped) ∧ (s.seq.mode = .running) ∧ (s.locked = true) ∧ (1 ≤ s.seq.milestone) ∧ (s.seq.milestone < 6) ∧ (s.seq.reduced = false) ∧ (reducedDue s = true)) ∧
    (∃ s : State, (s.Shaped) ∧ (s.seq.mode = .running) ∧ (s.locked = true) ∧ (1 ≤ s.seq.milestone) ∧ (s.seq.milestone < 6) ∧ (s.seq.reduced = false) ∧ (s.seq.step7 = false) ∧ (s.seq.milestone = 1)) ∧
    (∃ s : State, (s.Shaped) ∧ (s.bringup 2 = true) ∧ (s.atBoundary = true)) ∧
    (∃ s : State, (s.bringup 3 = true) ∧ ((s.cairn 18).valid = true) ∧ ((s.cairn 18).record ≠ [])) ∧
    (∃ s : State, (s.bringup 3 = true) ∧ (((s.cairn 18).valid = false ∨ (s.cairn 18).record = []))) ∧
    (∃ s : State, (s.Shaped) ∧ (s.bringup 4 = true) ∧ (s.atBoundary = true)) ∧
    (∃ s : State, (s.Shaped) ∧ (s.bringup 5 = true)) ∧
    (∃ s : State, (s.Shaped) ∧ (s.bringup 6 = true) ∧ (s.seq.step7 = true) ∧ (s.seq.full = false) ∧ (s.seq.stepFrame < s.frame) ∧ (s.seq.endFrame < s.frame)) ∧
    (∃ s : State, (s.Shaped) ∧ (s.seq.mode = .running) ∧ (s.locked = true) ∧ (s.seq.interpreter = false) ∧ (s.seq.sFrame + 60 ≤ s.frame)) :=
  ⟨⟨{ full with seq := { full.seq with milestone := 0 } }, by decide +kernel⟩,
    ⟨{ full with seq := { full.seq with milestone := 5 } }, by unfold State.Shaped Engine.Shaped; decide +kernel⟩,
    ⟨{ full with seq := { full.seq with milestone := 1, step7 := false } }, by unfold State.Shaped Engine.Shaped; decide +kernel⟩,
    ⟨{ full with seq := { full.seq with milestone := 2 } }, by unfold State.Shaped Engine.Shaped; decide +kernel⟩,
    ⟨{ { full with seq := { full.seq with milestone := 3 } } with ret := { full.ret with cairns := full.ret.cairns.set 18 { state := 1, record := [1], crc := crc32 [1] } } }, by decide +kernel⟩,
    ⟨{ full with seq := { full.seq with milestone := 3 } }, by decide +kernel⟩,
    ⟨{ full with seq := { full.seq with milestone := 4 } }, by unfold State.Shaped Engine.Shaped; decide +kernel⟩,
    ⟨{ full with seq := { full.seq with milestone := 5, full := false } }, by unfold State.Shaped Engine.Shaped; decide +kernel⟩,
    ⟨{ full with seq := { full.seq with full := false } }, by unfold State.Shaped Engine.Shaped; decide +kernel⟩,
    ⟨{ full with seq := { full.seq with interpreter := false, sFrame := 99940 } }, by unfold State.Shaped Engine.Shaped; decide +kernel⟩⟩

theorem witness_MarginMode :
    (∃ (s : State) (r : Nat) (b : Probe), (s.Shaped) ∧ (r < 6) ∧ (s.locked = true) ∧ ((s.ridge r).probe = some b) ∧ (b.paces = 1024) ∧ (b.records < 8)) ∧
    (∃ (s : State) (r : Nat) (b : Probe), (s.Shaped) ∧ (r < 6) ∧ (s.locked = true) ∧ ((s.ridge r).probe = some b) ∧ (b.records = 8) ∧ (b.readmit = false) ∧ (b.phase < 48)) ∧
    (∃ (s : State) (r : Nat) (b : Probe), (s.Shaped) ∧ (r < 6) ∧ (s.locked = true) ∧ ((s.ridge r).probe = some b) ∧ (b.records = 8) ∧ (b.readmit = true) ∧ (b.phase < 48)) ∧
    (∃ (s : State) (r k : Nat), (s.Shaped) ∧ (r < 6) ∧ (s.locked = true) ∧ (s.atBoundary = true) ∧ (s.sup.st ≠ .hold) ∧ ((s.ridge r).replanDue = some k) ∧ (s.marginOn = false)) ∧
    (∃ (s : State) (r k : Nat), (s.Shaped) ∧ (r < 6) ∧ (s.locked = true) ∧ (s.atBoundary = true) ∧ (s.sup.st ≠ .hold) ∧ ((s.ridge r).replanDue = some k) ∧ (s.marginOn = true)) ∧
    (∃ s : State, (s.Shaped) ∧ (s.locked = true) ∧ (s.marginOn = true) ∧ (s.atBoundary = true) ∧ (s.sup.st ≠ .hold) ∧ (s.dev.lossFitFrame + 10000 ≤ s.frame)) ∧
    (∃ (s : State) (r k : Nat), (s.Shaped) ∧ ((s.ageQueue.find? fun k => ridgeOfPhase k == r && s.ran (waitFrame s (.ageing k)) 1000) = some k)) ∧
    (∃ (s : State) (r : Nat) (b : Probe), (s.Shaped) ∧ (r < 6) ∧ (s.locked = true) ∧ ((s.ridge r).probe = some b) ∧ (b.readmit = true) ∧ (b.startFrame + 1000 ≤ s.frame)) :=
  ⟨⟨rg fun q => { q with probe := some { phase := 47, paces := 1024, records := 7 } }, 5, { phase := 47, paces := 1024, records := 7 }, by unfold State.Shaped Engine.Shaped; decide +kernel⟩,
    ⟨rg fun q => { q with probe := some { phase := 47, records := 8 } }, 5, { phase := 47, records := 8 }, by unfold State.Shaped Engine.Shaped; decide +kernel⟩,
    ⟨rg fun q => { q with probe := some { phase := 47, records := 8, readmit := true } }, 5, { phase := 47, records := 8, readmit := true }, by unfold State.Shaped Engine.Shaped; decide +kernel⟩,
    ⟨rg fun q => { q with replanDue := some 47 }, 5, 47, by unfold State.Shaped Engine.Shaped; decide +kernel⟩,
    ⟨{ (rg fun q => { q with replanDue := some 47 }) with otp := { full.otp with modes := 1 } }, 5, 47, by unfold State.Shaped Engine.Shaped; decide +kernel⟩,
    ⟨{ full with otp := { full.otp with modes := 1 }, dev := { lossFitFrame := 90000 } }, by unfold State.Shaped Engine.Shaped; decide +kernel⟩,
    ⟨{ full with ageQueue := [47], otp := { full.otp with modes := 1 }, host := { place12 := some { bytes := [0xA4, 0, 1, 1, 47], accepted := true, frame := 99000, wait := some (.ageing 47) } } }, 5, 47, by unfold State.Shaped Engine.Shaped; decide +kernel⟩,
    ⟨rg fun q => { q with probe := some { phase := 47, readmit := true, startFrame := 99000 } }, 5, { phase := 47, readmit := true, startFrame := 99000 }, by unfold State.Shaped Engine.Shaped; decide +kernel⟩⟩

theorem witness_SupervisorRestart :
    (∃ s : State, (s.Shaped) ∧ (s.locked = true) ∧ (s.sup.st = .readied) ∧ (s.atBoundary = true) ∧ (s.retClean = true) ∧ ((s.sup.replyRead = true ∨ s.sup.readyFrame + 100 ≤ s.frame))) ∧
    (∃ s : State, (s.Shaped) ∧ (s.locked = true) ∧ (s.sup.st = .hold) ∧ (s.atBoundary = true) ∧ (s.sup.hFrame < s.frame)) ∧
    (∃ s : State, (s.Shaped) ∧ (s.locked = true) ∧ (s.sup.st = .hold) ∧ (s.sup.hFrame + 500 ≤ s.frame) ∧ (s.sup.expired = false)) :=
  ⟨⟨{ full with sup := { st := .readied, readyFrame := 99900 } }, by unfold State.Shaped Engine.Shaped; decide +kernel⟩,
    ⟨{ full with sup := { st := .hold, hFrame := 99999 } }, by unfold State.Shaped Engine.Shaped; decide +kernel⟩,
    ⟨{ full with sup := { st := .hold, hFrame := 99500 } }, by unfold State.Shaped Engine.Shaped; decide +kernel⟩⟩

theorem witness_KnahaWordsComplete :
    (∃ (s : State) (c : Instr) (a : KArg) (d : Nat), (s.Shaped) ∧ (KnahaCommand c a d) ∧ (a.eng < 6) ∧ (s.engineRuns a.eng = true)) ∧
    (∃ (s : State) (c : Instr) (a : KArg) (d : Nat), (KnahaCommand c a d) ∧ (a.eng < 6) ∧ (s.engineRuns a.eng = false)) ∧
    (∃ (s : State) (c : Instr) (a : KArg) (d : Nat), (KnahaCommand c a d) ∧ (a.eng = 6) ∧ (s.supRuns = true)) ∧
    (∃ (s : State) (c : Instr) (a : KArg) (d : Nat), (KnahaCommand c a d) ∧ (a.eng = 6) ∧ (s.supRuns = false)) ∧
    (∃ (s : State) (a : KArg) (v : Word), (s.Shaped) ∧ (a.eng = 6) ∧ (s.supRuns = true) ∧ (OneMove a) ∧ (a.op.src = .imm v) ∧ (Quiet s.sup.eng) ∧ (guardHolds s.sup.eng.preds a.op.guard = true)) :=
  ⟨⟨kn id, .aluAdd (ka 0x8000), ka 0x8000, 0x1A, by unfold State.Shaped Engine.Shaped; decide +kernel, Or.inl (by decide +kernel), by decide +kernel, by decide +kernel⟩,
    ⟨rg fun q => { q with run := .running, eng.cyc := 768, eng.running := true }, .aluAdd (ka 0x8000), ka 0x8000, 0x1A, Or.inl (by decide +kernel), by decide +kernel, by decide +kernel⟩,
    ⟨full, .move { eng := 6 } 0xA3, { eng := 6 }, 0xA3, Or.inr (Or.inl rfl), by decide +kernel, by decide +kernel⟩,
    ⟨State.reset, .move { eng := 6 } 0xA3, { eng := 6 }, 0xA3, Or.inr (Or.inl rfl), by decide +kernel, by decide +kernel⟩,
    ⟨full, { eng := 6, op := { src := .imm 0xFFFF } }, 0xFFFF, by unfold OneMove State.Shaped Quiet Engine.Shaped; decide +kernel⟩⟩

theorem witness_KnahaArithmetic :
    (∃ (s : State) (a : KArg) (v x : Word) (c : Instr) (e : Engine), (RunsOn s a v) ∧ (e = (s.ridge a.eng).eng) ∧ ((c, x) ∈ [(.aluPass a, v), (.aluAdd a, e.aluA + v), (.aluSub a, e.aluA - v), (.aluAdds a, wordOfInt (sat16 (e.aluA.toInt + v.toInt))), (.aluSubs a, wordOfInt (sat16 (e.aluA.toInt - v.toInt))), (.aluAnd a, e.aluA &&& v), (.aluOr a, e.aluA ||| v), (.aluXor a, e.aluA ^^^ v), (.aluShl a, e.aluA <<< (v.toNat % 16)), (.aluSar a, e.aluA.sshiftRight (v.toNat % 16)), (.aluShr a, e.aluA >>> (v.toNat % 16)), (.aluMin a, if e.aluA.toInt ≤ v.toInt then e.aluA else v), (.aluMax a, if e.aluA.toInt ≤ v.toInt then v else e.aluA), (.aluAbs a, if v = 0x8000 then 0x7FFF else if v.toInt < 0 then 0 - v else v), (.aluNeg a, if v = 0x8000 then 0x7FFF else 0 - v)])) ∧
    (∃ (s : State) (a : KArg) (v : Word) (b : Bool) (c : Instr) (e : Engine), (RunsOn s a v) ∧ (e = (s.ridge a.eng).eng) ∧ ((c, b) ∈ [(.cmpLt a, decide (e.cmpA.toInt < v.toInt)), (.cmpLe a, decide (e.cmpA.toInt ≤ v.toInt)), (.cmpEq a, decide (e.cmpA = v)), (.cmpNe a, decide (e.cmpA ≠ v)), (.cmpGe a, decide (v.toInt ≤ e.cmpA.toInt)), (.cmpGt a, decide (v.toInt < e.cmpA.toInt)), (.cmpLtu a, decide (e.cmpA.toNat < v.toNat)), (.cmpGeu a, decide (v.toNat ≤ e.cmpA.toNat)), (.cmpTst a, decide (v ≠ 0))])) ∧
    (∃ (s : State) (a : KArg) (v : Word) (e : Engine), (RunsOn s a v) ∧ (e = (s.ridge a.eng).eng)) ∧
    (∃ (s : State) (a : KArg) (v : Word) (w : MacDo) (c : Instr) (e : Engine), (RunsOn s a v) ∧ (e = (s.ridge a.eng).eng) ∧ ((c, w) ∈ [(.macMul a, .set (e.macA.toInt * v.toInt)), (.macMac a, .add (e.macA.toInt * v.toInt)), (.macMsu a, .add (-(e.macA.toInt * v.toInt))), (.macLd a, .set (v.toInt * 32768)), (.macClr a, .set 0)])) ∧
    (∃ (s : State) (a : KArg) (v : Word) (e : Engine) (i j : Nat) (q : Int), (RunsOn s a v) ∧ (e = (s.ridge a.eng).eng) ∧ (i = v.toNat % 4) ∧ (j = 4 + v.toNat / 4 % 4) ∧ (q = (e.peek (ridgeKind (s.ridge a.eng).bank) i).toInt * (e.peek (ridgeKind (s.ridge a.eng).bank) j).toInt)) ∧
    (∃ (s : State) (a : KArg) (v : Word) (e : Engine), (RunsOn s a v) ∧ (e = (s.ridge a.eng).eng)) ∧
    (∃ (s : State) (a : KArg) (v : Word) (e e' : Engine) (d : Nat), (RunsOn s a v) ∧ (e = (s.ridge a.eng).eng) ∧ (((d = 0 ∧ e' = e) ∨ (∃ i, i < 16 ∧ d = 0x08 + i ∧ e' = { e with gp := e.gp.set i v }) ∨ (d = 0x18 ∧ e' = { e with aluA := v }) ∨ (d = 0x28 ∧ e' = { e with cmpA := v }) ∨ (d = 0x29 ∧ e' = { e with cmpP := v }) ∨ (d = 0x34 ∧ e' = { e with macA := v }) ∨ (d = 0x60 ∧ e' = { e with cstB := v }) ∨ (∃ u, u < 8 ∧ ((d = 0x48 + u ∧ e' = { e with units := e.units.modify u fun x => { x with ptr := v } }) ∨ (d = 0x80 + 4 * u ∧ e' = { e with units := e.units.modify u fun x => { x with step := v } }) ∨ (d = 0x81 + 4 * u ∧ e' = { e with units := e.units.modify u fun x => { x with base := v } }) ∨ (d = 0x82 + 4 * u ∧ e' = { e with units := e.units.modify u fun x => { x with len := v } }) ∨ (d = 0x83 + 4 * u ∧ e' = { e with units := e.units.modify u fun x => { x with mode := v } })))))) ∧
    (∃ (s : State) (a : KArg) (m : KMove) (e : Engine) (i j x y : Nat), (s.Shaped) ∧ (a.eng < 6) ∧ (s.engineRuns a.eng = true) ∧ (e = (s.ridge a.eng).eng) ∧ (Quiet e) ∧ (a.other = some m) ∧ (a.selfIsB = false) ∧ (shortOk { a.op with dst := 0 } = true) ∧ (shortOk m = true) ∧ (a.reserved < 2) ∧ (guardHolds e.preds a.op.guard = true) ∧ (guardHolds e.preds m.guard = true) ∧ (a.op.src = .sock (0x08 + x)) ∧ (m.src = .sock (0x08 + y)) ∧ (m.dst = 0x08 + j) ∧ (i < 16) ∧ (j < 16) ∧ (x < 16) ∧ (y < 16)) :=
  ⟨⟨kn id, ka 0x8000, 0x8000, 0x7FFF, .aluNeg (ka 0x8000), ((kn id).ridge 5).eng, ⟨by unfold State.Shaped Engine.Shaped; decide +kernel, by decide, by decide +kernel, by unfold OneMove; decide +kernel, by unfold Quiet; decide +kernel, by decide +kernel, Or.inl rfl⟩, rfl, by decide +kernel⟩,
    ⟨kn id, ka 0x8000, 0x8000, false, .cmpGeu (ka 0x8000), ((kn id).ridge 5).eng, ⟨by unfold State.Shaped Engine.Shaped; decide +kernel, by decide, by decide +kernel, by unfold OneMove; decide +kernel, by unfold Quiet; decide +kernel, by decide +kernel, Or.inl rfl⟩, rfl, by decide +kernel⟩,
    ⟨kn id, ka 0x8000, 0x8000, ((kn id).ridge 5).eng, ⟨by unfold State.Shaped Engine.Shaped; decide +kernel, by decide, by decide +kernel, by unfold OneMove; decide +kernel, by unfold Quiet; decide +kernel, by decide +kernel, Or.inl rfl⟩, rfl⟩,
    ⟨kn id, ka 0x8000, 0x8000, .set (-1073741824), .macLd (ka 0x8000), ((kn id).ridge 5).eng, ⟨by unfold State.Shaped Engine.Shaped; decide +kernel, by decide, by decide +kernel, by unfold OneMove; decide +kernel, by unfold Quiet; decide +kernel, by decide +kernel, Or.inl rfl⟩, rfl, by decide +kernel⟩,
    ⟨kn id, ka 0xFFFF, 0xFFFF, ((kn id).ridge 5).eng, 3, 7, 0, ⟨by unfold State.Shaped Engine.Shaped; decide +kernel, by decide, by decide +kernel, by unfold OneMove; decide +kernel, by unfold Quiet; decide +kernel, by decide +kernel, Or.inl rfl⟩, rfl, by decide +kernel, by decide +kernel, by decide +kernel⟩,
    ⟨kn id, ka 0x8000, 0x8000, ((kn id).ridge 5).eng, ⟨by unfold State.Shaped Engine.Shaped; decide +kernel, by decide, by decide +kernel, by unfold OneMove; decide +kernel, by unfold Quiet; decide +kernel, by decide +kernel, Or.inl rfl⟩, rfl⟩,
    ⟨kn id, ka 0x8000, 0x8000, ((kn id).ridge 5).eng, { ((kn id).ridge 5).eng with units := ((kn id).ridge 5).eng.units.modify 7 fun x => { x with mode := 0x8000 } }, 0x9F, ⟨by unfold State.Shaped Engine.Shaped; decide +kernel, by decide, by decide +kernel, by unfold OneMove; decide +kernel, by unfold Quiet; decide +kernel, by decide +kernel, Or.inl rfl⟩, rfl, by refine Or.inr (Or.inr (Or.inr (Or.inr (Or.inr (Or.inr (Or.inr ⟨7, by decide, Or.inr (Or.inr (Or.inr (Or.inr ⟨rfl, rfl⟩)))⟩))))))⟩,
    ⟨kn id, { eng := 5, op := { src := .sock 0x17 }, other := some { src := .sock 0x08, dst := 0x17 } }, { src := .sock 0x08, dst := 0x17 }, ((kn id).ridge 5).eng, 0, 15, 15, 0, by unfold State.Shaped Quiet Engine.Shaped; decide +kernel⟩⟩

theorem witness_KnahaMemoryAndControl :
    (∃ (s : State) (a : KArg) (v : Word) (e : Engine) (u : Nat), (RunsOn s a v) ∧ (e = (s.ridge a.eng).eng) ∧ (u < 8)) ∧
    (∃ (s : State) (a : KArg) (e : Engine) (u i : Nat), (s.Shaped) ∧ (a.eng < 6) ∧ (s.engineRuns a.eng = true) ∧ (OneMove (reading a u)) ∧ (e = (s.ridge a.eng).eng) ∧ (Quiet e) ∧ (guardHolds e.preds a.op.guard = true) ∧ (u < 8) ∧ (i < 16)) ∧
    (∃ (s : State) (a : KArg) (v : Word) (e : Engine) (c : Instr) (h : Bool), (RunsOn s a v) ∧ (e = (s.ridge a.eng).eng) ∧ (((c = .lpRep a ∧ h = false) ∨ (c = .lpRepH a ∧ h = true))) ∧ (v ≠ 0)) ∧
    (∃ (s : State) (a : KArg) (v : Word) (e : Engine) (c : Instr) (h : Bool), (RunsOn s a v) ∧ (e = (s.ridge a.eng).eng) ∧ (((c = .lpRep a ∧ h = false) ∨ (c = .lpRepH a ∧ h = true))) ∧ (v = 0)) ∧
    (∃ (s : State) (a : KArg) (v : Word) (e : Engine), (RunsOn s a v) ∧ (e = (s.ridge a.eng).eng)) ∧
    (∃ (s : State) (a : KArg) (v : Word) (e : Engine) (n : Nat), (RunsOn s a v) ∧ (e = (s.ridge a.eng).eng) ∧ (n < 16)) ∧
    (∃ (s : State) (r : Nat) (e : Engine) (o : MacOp), ∃ x, (s.Shaped) ∧ (r < 6) ∧ (e = (s.ridge r).eng) ∧ (e.macPipe = [o]) ∧ (o.due ≤ e.cyc) ∧ (o.what = .set x)) ∧
    (∃ (s : State) (r : Nat) (e : Engine) (o : MacOp), ∃ x, (s.Shaped) ∧ (r < 6) ∧ (e = (s.ridge r).eng) ∧ (e.macPipe = [o]) ∧ (o.due ≤ e.cyc) ∧ (o.what = .add x) ∧ (-(2 ^ 39) ≤ e.acc + x) ∧ (e.acc + x ≤ 2 ^ 39 - 1)) ∧
    (∃ (s : State) (r : Nat) (e : Engine) (o : MacOp), ∃ x, (s.Shaped) ∧ (r < 6) ∧ (e = (s.ridge r).eng) ∧ (e.macPipe = [o]) ∧ (o.due ≤ e.cyc) ∧ (o.what = .add x) ∧ (2 ^ 39 - 1 < e.acc + x)) ∧
    (∃ (s : State) (r : Nat) (e : Engine), (s.Shaped) ∧ (r < 6) ∧ (e = (s.ridge r).eng) ∧ (e.rep = some 0)) ∧
    (∃ (s : State) (_vec : Word) (e : Engine), (s.supRuns = true) ∧ (e = s.sup.eng) ∧ (e.shadow = none) ∧ (e.resume = none) ∧ ((e.repHold = false ∨ e.rep = none ∨ e.rep = some 0)) ∧ (s.enabledIrqs = [])) ∧
    (∃ (s : State) (_vec : Word) (e : Engine), (s.supRuns = true) ∧ (e = s.sup.eng) ∧ (e.shadow = none) ∧ (e.resume = none) ∧ ((e.repHold = false ∨ e.rep = none ∨ e.rep = some 0)) ∧ (s.enabledIrqs ≠ [])) ∧
    (∃ (s : State) (_vec : Word), (s.sup.eng.mayInterrupt = false)) ∧
    (∃ (s : State) (a : KArg) (e : Engine) (w : Word), ∃ sh, (e = s.sup.eng) ∧ (s.supRuns = true) ∧ (s.Shaped) ∧ (a.eng = 6) ∧ (OneMove a) ∧ (a.op.src = .imm w) ∧ (Quiet e) ∧ (guardHolds e.preds a.op.guard = true) ∧ (e.shadow = some sh)) :=
  ⟨⟨kn id, ka 0x8000, 0x8000, ((kn id).ridge 5).eng, 7, ⟨by unfold State.Shaped Engine.Shaped; decide +kernel, by decide, by decide +kernel, by unfold OneMove; decide +kernel, by unfold Quiet; decide +kernel, by decide +kernel, Or.inl rfl⟩, rfl, by decide +kernel⟩,
    ⟨kn id, { eng := 5 }, ((kn id).ridge 5).eng, 7, 15, by unfold OneMove State.Shaped Quiet Engine.Shaped; decide +kernel⟩,
    ⟨kn id, ka 0x8000, 0x8000, ((kn id).ridge 5).eng, .lpRepH (ka 0x8000), true, ⟨by unfold State.Shaped Engine.Shaped; decide +kernel, by decide, by decide +kernel, by unfold OneMove; decide +kernel, by unfold Quiet; decide +kernel, by decide +kernel, Or.inl rfl⟩, rfl, Or.inr ⟨rfl, rfl⟩, by decide +kernel⟩,
    ⟨kn id, ka 0, 0, ((kn id).ridge 5).eng, .lpRep (ka 0), false, ⟨by unfold State.Shaped Engine.Shaped; decide +kernel, by decide, by decide +kernel, by unfold OneMove; decide +kernel, by unfold Quiet; decide +kernel, by decide +kernel, Or.inl rfl⟩, rfl, Or.inl ⟨rfl, rfl⟩, by decide +kernel⟩,
    ⟨kn id, ka 0x8000, 0x8000, ((kn id).ridge 5).eng, ⟨by unfold State.Shaped Engine.Shaped; decide +kernel, by decide, by decide +kernel, by unfold OneMove; decide +kernel, by unfold Quiet; decide +kernel, by decide +kernel, Or.inl rfl⟩, rfl⟩,
    ⟨kn id, ka 0x8000, 0x8000, ((kn id).ridge 5).eng, 15, ⟨by unfold State.Shaped Engine.Shaped; decide +kernel, by decide, by decide +kernel, by unfold OneMove; decide +kernel, by unfold Quiet; decide +kernel, by decide +kernel, Or.inl rfl⟩, rfl, by decide +kernel⟩,
    ⟨kn fun e => { e with macPipe := [{ due := 0, what := .set 5 }] }, 5, ((kn fun e => { e with macPipe := [{ due := 0, what := .set 5 }] }).ridge 5).eng, { due := 0, what := .set 5 }, 5, by unfold State.Shaped Engine.Shaped; decide +kernel⟩,
    ⟨kn fun e => { e with acc := 2 ^ 39 - 2, macPipe := [{ what := .add 1 }] }, 5, ((kn fun e => { e with acc := 2 ^ 39 - 2, macPipe := [{ what := .add 1 }] }).ridge 5).eng, { what := .add 1 }, 1, by unfold State.Shaped Engine.Shaped; decide +kernel⟩,
    ⟨kn fun e => { e with acc := 2 ^ 39 - 1, macPipe := [{ what := .add 1 }] }, 5, ((kn fun e => { e with acc := 2 ^ 39 - 1, macPipe := [{ what := .add 1 }] }).ridge 5).eng, { what := .add 1 }, 1, by unfold State.Shaped Engine.Shaped; decide +kernel⟩,
    ⟨kn fun e => { e with rep := some 0 }, 5, ((kn fun e => { e with rep := some 0 }).ridge 5).eng, by unfold State.Shaped Engine.Shaped; decide +kernel⟩,
    ⟨full, 0xFFFF, {}, by decide +kernel⟩,
    ⟨{ full with irq := [.tick], sup := { eng := { irqEn := 0xFFFF } } }, 0xFFFF, { irqEn := 0xFFFF }, by decide +kernel, by decide +kernel, by decide +kernel, by decide +kernel, by decide +kernel, tick_enabled⟩,
    ⟨{ full with sup := { eng := { repHold := true, rep := some 1 } } }, 0, by decide +kernel⟩,
    ⟨{ full with sup := { eng := { shadow := some { pc := 7 } } } }, { eng := 6, op := { src := .imm 0 } }, { shadow := some { pc := 7 } }, 0, { pc := 7 }, by unfold OneMove State.Shaped Quiet Engine.Shaped; decide +kernel⟩⟩

theorem witness_DutiesAndPublish :
    (∃ (s : State) (a : KArg) (v : Word) (e : Engine) (k : Nat), (RunsOn s a v) ∧ (e = (s.ridge a.eng).eng) ∧ (k < 8)) ∧
    (∃ (s : State) (a : KArg) (v : Word) (e : Engine), (RunsOn s a v) ∧ (e = (s.ridge a.eng).eng)) ∧
    (∃ (s : State) (a : KArg) (v : Word) (e : Engine) (n : Nat), (RunsOn s a v) ∧ (e = (s.ridge a.eng).eng) ∧ (n = s.deadline - 1 - e.cyc)) ∧
    (∃ (s u : State) (r j k : Nat), (s.Shaped) ∧ (s.ridgeLive r = true) ∧ ((s.ridge r).checkDue = true) ∧ (u = publishWindow r s) ∧ (j < 8) ∧ (k = 8 * r + j) ∧ (unchecked (s.phase k) = true)) ∧
    (∃ (s u : State) (r j k : Nat), (s.Shaped) ∧ (s.ridgeLive r = true) ∧ ((s.ridge r).checkDue = true) ∧ (u = publishWindow r s) ∧ (j < 8) ∧ (k = 8 * r + j) ∧ (unchecked (s.phase k) = false) ∧ (dutyFails s k = false)) ∧
    (∃ (s u : State) (r j k : Nat), (s.Shaped) ∧ (s.ridgeLive r = true) ∧ ((s.ridge r).checkDue = true) ∧ (u = publishWindow r s) ∧ (j < 8) ∧ (k = 8 * r + j) ∧ (unchecked (s.phase k) = false) ∧ (dutyFails s k = true) ∧ ((s.phase k).missed = false)) ∧
    (∃ (s u : State) (r j k : Nat), (s.Shaped) ∧ (s.ridgeLive r = true) ∧ ((s.ridge r).checkDue = true) ∧ (u = publishWindow r s) ∧ (j < 8) ∧ (k = 8 * r + j) ∧ (unchecked (s.phase k) = false) ∧ (dutyFails s k = true) ∧ ((s.phase k).missed = true)) :=
  ⟨⟨kn id, ka 0x8000, 0x8000, ((kn id).ridge 5).eng, 7, ⟨by unfold State.Shaped Engine.Shaped; decide +kernel, by decide, by decide +kernel, by unfold OneMove; decide +kernel, by unfold Quiet; decide +kernel, by decide +kernel, Or.inl rfl⟩, rfl, by decide +kernel⟩,
    ⟨kn id, ka 0x8000, 0x8000, ((kn id).ridge 5).eng, ⟨by unfold State.Shaped Engine.Shaped; decide +kernel, by decide, by decide +kernel, by unfold OneMove; decide +kernel, by unfold Quiet; decide +kernel, by decide +kernel, Or.inl rfl⟩, rfl⟩,
    ⟨kn id, ka 0x8000, 0x8000, ((kn id).ridge 5).eng, 767, ⟨by unfold State.Shaped Engine.Shaped; decide +kernel, by decide, by decide +kernel, by unfold OneMove; decide +kernel, by unfold Quiet; decide +kernel, by decide +kernel, Or.inl rfl⟩, rfl, by decide +kernel⟩,
    ⟨(rg fun q => { q with run := .running, checkDue := true }).updPhase 47 fun q => { q with stopped := true }, _, 5, 7, 47, by unfold State.Shaped Engine.Shaped; decide +kernel, by decide +kernel, by decide +kernel, rfl, by decide +kernel, by decide +kernel, by decide +kernel⟩,
    ⟨(rg fun q => { q with run := .running, checkDue := true }).updPhase 47 fun q => { q with fitted := false }, _, 5, 7, 47, by unfold State.Shaped Engine.Shaped; decide +kernel, by decide +kernel, by decide +kernel, rfl, by decide +kernel, by decide +kernel, by decide +kernel, by decide +kernel⟩,
    ⟨(rg fun q => { q with run := .running, checkDue := true }).updPhase 47 fun q => { q with shadow := 1 }, _, 5, 7, 47, by unfold State.Shaped Engine.Shaped; decide +kernel, by decide +kernel, by decide +kernel, rfl, by decide +kernel, by decide +kernel, by decide +kernel, by decide +kernel, by decide +kernel⟩,
    ⟨(rg fun q => { q with run := .running, checkDue := true }).updPhase 47 fun q => { q with shadow := 1, missed := true }, _, 5, 7, 47, by unfold State.Shaped Engine.Shaped; decide +kernel, by decide +kernel, by decide +kernel, rfl, by decide +kernel, by decide +kernel, by decide +kernel, by decide +kernel, by decide +kernel⟩⟩

/-! ### What the check of commands refuses: an instance or a field one past its range, and words without an encoding -/

theorem smoke_instances :
    ([.detachByDebounce 24, .carrierStart 48, .bankSwitch 6, .feedFastTrip ⟨2, 0⟩, .addressMatchWake { addr := some 128 }, .resetNRelease 8,
      .vbatAonPowerOn true 8, .macTriggerComplete 7, .repeatEnd 7, .seqStepQualify {} 6, .sourceCapSend 24 true,
      .attentionVdmReceived 24 0 none, .ridgeHot 6, .guardDrainZero 48, .feedIdealDiodeFault 2, .portFastTrip ⟨24, 0⟩, .feedFullyOn { feed := 2 }] : List Instr).all (fun c => !wellFormed c) = true := by
  decide +kernel

theorem smoke_fields :
    ([.cmdPut 256 [] none, .cmdPut 4 (List.replicate 256 0) none, .seqStepQualify { imonMv := List.replicate 49 0 } 0,
      .phaseReadmit .host12 4096, .ccSniff 0 [], .paceBoundary {},
      .cableIdentityResponse 0 { vMax := 4 }, .requestReceived 0 { pos := 0 }, .requestReceived 0 { pos := 12 },
      .sinkSourceCapReceived 0 (List.replicate 8 {}), .vdmResponse 0 .ack false (List.replicate 7 0)] : List Instr).all
        (fun c => !wellFormed c) = true := by
  decide +kernel

theorem smoke_messages :
    ([.vdmRequestAsUfp 0 { cmd := 32 }, .vdmRequestAsDfp 0 { pos := 8 }, .serviceEnterMode 0 8, .segPut 24 ⟨0, []⟩,
      .segPut 0 ⟨0, List.replicate 6 0⟩, .segGet 24 0 0] : List Instr).all
        (fun c => !wellFormed c) = true := by
  decide +kernel

theorem smoke_words :
    ([.move { eng := 7 } 0x08, .move {} 256, .move { op := { guard := 16 } } 0x08, .pwmDutyWrite {} 8, .memWrite {} 8, .memRead {} 8 0x08,
      .cstTrigger {} 16, .irqRet { reserved := 1024 }, .aluAdd { op := { src := .sock 256 } }] : List Instr).all (fun c => !wellFormed c) = true := by
  decide +kernel

/-- Samples for 47 phases only, and 26 codes of one phase. -/
theorem smoke_sense :
    okSense { phases := List.replicate 47 {}, ports := List.replicate 24 {}, feeds := [{}, {}], ntc := List.replicate 6 2048 } = false ∧
    okSense { phases := { codes := List.replicate 26 0 } :: List.replicate 47 {}, ports := List.replicate 24 {}, feeds := [{}, {}], ntc := List.replicate 6 2048 } = false ∧
    okSense { phases := List.replicate 48 {}, ports := List.replicate 24 {}, feeds := [{}, {}], ntc := List.replicate 6 2048 } = true := by
  decide +kernel

/-! ### Words written out from R359 to R361 -/

/-- A long immediate to `alu.add`, a guarded long move to `pwm.pub`, and a pair: fields from the top bit down. -/
theorem test_words_read :
    decodeWord 0b0_0000_1_0001001000110100_00011010_00#32 = { a := { guard := 0, src := .imm 0x1234, dst := 0x1A } } ∧
    decodeWord 0b0_1001_0_00100000_01110000_0000000000#32 = { a := { guard := 9, src := .sock 0x20, dst := 0x70 } } ∧
    decodeWord 0b1_01_100000_0011000_11_001000_0111000_0#32 =
      { a := { guard := 1, src := .sock 0x20, dst := 0x18 }, b := some { guard := 9, src := .sock 0x08, dst := 0x38 } } := by
  decide +kernel

/-! ### Single steps -/

/-- What a step leaves, or the state before it. -/
def after (c : Instr) (s : State) : State :=
  match Sys2Proof.Machine.step { s with pending := [c] } with
  | .next t => t
  | _ => s

/-- R456: supply on the always-on domain ends in retention, the strapped address in use (R266). -/
theorem test_power_on :
    (after (.vbatAonPowerOn false 5) State.reset).seq.mode = .retention ∧ (after (.vbatAonPowerOn false 5) State.reset).busAddr = 0x65 := by
  decide +kernel

/-- R368: a saturating add stops at 0x7FFF. -/
theorem test_adds_saturates :
    ((after (.aluAdds (ka 1)) (kn fun e => { e with aluA := 0x7FFF })).ridge 5).eng.aluRes = 0x7FFF := by
  decide +kernel

/-- R366: a shift right by 20 shifts by the count's low four bits. -/
theorem test_shift_count :
    ((after (.aluShr (ka 20)) (kn fun e => { e with aluA := 0xFF00 })).ridge 5).eng.aluRes = 0x0FF0 := by
  decide +kernel

/-- R255: the lowest of two sources of one pace is named. -/
theorem test_first_source :
    firstSrc ((full.raise .bus 3).raise .bus 1).fltBus.first = 1 ∧ ((full.raise .bus 3).raise .bus 1).fltBus.sticky = 0x000A := by
  decide +kernel

/-- R180: the third trip beyond the limit of 3 retries latches; the port is Disabled. -/
theorem test_trip_latches :
    let t := after (.portFastTrip ⟨23, 15001⟩) (sp fun q => { q with path.swOn := true, path.trips := 3 })
    (t.path 23).latched = true ∧ (t.cc 23).st = .disabled ∧ (t.path 23).lastTrip = 1 := by
  decide +kernel

/-- R285: an unknown opcode is answered BAD_OPCODE. -/
theorem test_bad_opcode :
    (after (.commandAccept .host) { full with host := { place0 := some { bytes := [0xFF, 7, 0, 0] } } }).host.slot = .ready false [0x03, 7, 0xFF, 0] := by
  decide +kernel

/-- R222: a fast trip of a feed waits for its retry with power-good dropped. -/
theorem test_feed_trip :
    let t := after (.feedFastTrip ⟨1, 60000000⟩) (fd fun f => { f with st := .on, pg := true })
    (t.feed 1).st = .retryWait ∧ (t.feed 1).pg = false ∧ (t.feed 1).trips = 1 ∧ (t.feed 1).lastTrip = 1 := by
  decide +kernel

/-- R453: balls of the three kinds: a CC line, a power-stage output and a saddle gate, at their row and column. -/
theorem test_balls :
    ballAt 23 3 = .cc 7 false ∧ ballAt 16 22 = .pwma 31 ∧ ballAt 19 26 = .gate 14 := by
  decide +kernel

/-- FIPS 180-4: the first word of the hash of no bytes and the digest's length. -/
theorem test_hash_of_nothing :
    (sha256 []).take 4 = [0xE3, 0xB0, 0xC4, 0x42] ∧ (sha256 []).length = 32 := by
  decide +kernel

/-- R10: an empty queue advances the always-on clock by one tick. -/
theorem test_idle : (match Sys2Proof.Machine.step full with | .next t => t.tick | _ => 0) = 1000001 := by decide +kernel

end Sys2Proof.Tests

end Witnesses
end

section
/-! PROOF. The opcodes that read (R302, R303, R310, R311, R315, R318, R319, R323, R325, R331, R332): what each answers, and that it
touches no more than its place and reply slot. -/

namespace Sys2Proof.Machine

variable {s t : State} {pl : Place} {c : Cmd} {code : Nat} {d : List Byte}

/-! ### An opcode whose turn has come and that ends at once -/

/-- An opcode whose body ends with a reply answers it and touches its channel alone. -/
theorem ends_of_runOp {cmd : Instr} {op : Nat} {act : Cmd → Bool} {go : Cmd → State} (hx : exec cmd s = .next (s.runOp pl op act go))
    (h : Turn pl op c s) (ha : act c = true) (hg : go c = s.finish pl code d) : Ends cmd pl c s s code d := by
  refine ⟨s.finish pl code d, ?_, State.finish_spec h.1 code d⟩
  rw [hx, State.runOp_turn go h ha, hg]

/-! ### The opcodes that read -/

theorem identify_ends (h : Turn pl 0x01 c s) : Ends (.identify pl) pl c s s stOk (identifyData s) :=
  ends_of_runOp rfl h rfl rfl

theorem echo_ends (h : Turn pl 0x02 c s) : Ends (.echo pl) pl c s s stOk c.par :=
  ends_of_runOp rfl h rfl rfl

theorem discRead_ends (h : Turn pl 0x35 c s) : Ends (.discRead pl) pl c s s stOk
    (if (s.port (c.p8 0)).attachFrame.isSome then discRecord s (c.p8 0) else List.replicate 28 0) :=
  ends_of_runOp rfl h rfl rfl

theorem modeTableRead_ends (h : Turn pl 0x36 c s) (hl : c.plen = 0) : Ends (.modeTableRead pl) pl c s s stOk s.svc.modeTable :=
  ends_of_runOp rfl h (by simp [hl]) rfl

theorem ledgerRead_ends (h : Turn pl 0x40 c s) : Ends (.ledgerRead pl) pl c s s stOk
    (leBytes 4 s.ledger.hdr.frame ++ ((ledgerBytes s.ledger).drop (c.p16 0)).take (c.p8 2)) :=
  ends_of_runOp rfl h rfl rfl

theorem faultRead_ends {b : Blk} (h : Turn pl 0x62 c s) (hb : blkOf (c.p8 0) (c.p8 1) = some b) : Ends (.faultRead pl) pl c s s stOk
    (leBytes 2 (s.flt b).sticky.toNat ++ leBytes 4 (s.flt b).first.toNat ++ leBytes 2 (s.maskOf b 2) ++ leBytes 2 (s.maskOf b 3)) :=
  ends_of_runOp rfl h rfl (by simp only [hb])

/-- R319: the words of the device secret and the identity key read as zero. -/
theorem otpShown_eq (o : Otp) (a : Nat) : otpShown o a = if 192 ≤ a ∧ a ≤ 207 then 0 else (o.lo a).toNat := by
  simp [otpShown]

theorem otpRead_ends (h : Turn pl 0x70 c s) : Ends (.otpRead pl) pl c s s stOk
    (bitmap8 ((List.range (c.p8 2)).filter fun i => s.otp.weak (c.p16 0 + i)) ++
      (List.range (c.p8 2)).flatMap fun i => leBytes 4 (otpShown s.otp (c.p16 0 + i))) :=
  ends_of_runOp rfl h rfl rfl

theorem calRead_ends {ch g : Nat} (h : Turn pl 0x76 c s) (hch : chanOf s (c.p16 0) = some ch) (hg : s.otp.calUse = some g) :
    Ends (.calRead pl) pl c s s stOk
      ([byteOf s.otp.calGen, byteOf (bitAt 0 (stagedOf s.otp ch false).isSome + bitAt 1 (stagedOf s.otp ch true).isSome)] ++
        leBytes 3 (s.otp.recBits g ch)) :=
  ends_of_runOp rfl h rfl (by simp only [hch, hg])

theorem progRead_ends (h : Turn pl 0x91 c s) : Ends (.progRead pl) pl c s s stOk
    ((List.range (c.p8 4)).flatMap fun i =>
      leBytes 4 ((if c.p8 1 = 0 then (s.ridge (c.p8 0)).staging else (s.ridge (c.p8 0)).bank).word (c.p16 2 + i)).toNat) :=
  ends_of_runOp rfl h rfl rfl

theorem authPubkey_ends (h : Turn pl 0xB1 c s) (hk : s.otp.idUsable = true) : Ends (.authPubkey pl) pl c s s stOk (idPublic s) :=
  ends_of_runOp rfl h rfl (if_pos hk)

theorem authPeerRead_ends (h : Turn pl 0xB4 c s) (hc : (s.port (c.p8 0)).peerChain ≠ []) :
    Ends (.authPeerRead pl) pl c s s stOk (((s.port (c.p8 0)).peerChain.drop (c.p16 2)).take 240) :=
  ends_of_runOp rfl h rfl (if_neg (by simpa using hc))

theorem diagDump_ends (h : Turn pl 0xC1 c s) (hd : s.svc.capDone = true) : Ends (.diagDump pl) pl c s s stOk
    (leBytes 4 s.svc.capFrame ++ (s.svc.capBuf.drop (c.p16 0)).take (c.p8 2)) :=
  ends_of_runOp rfl h rfl (if_pos hd)

/-! ### The length of a discovery record (R131, R310) -/

@[simp] theorem leBytes_length (k n : Nat) : (leBytes k n).length = k := by
  induction k generalizing n with
  | zero => rfl
  | succ k ih => simp [leBytes, ih]

/-- A SVID group holds the SVID, its count of modes, a reserved byte and five mode VDOs. -/
theorem svidBytes_length (r : SvidRec) : (svidBytes r).length = 24 := by
  simp [svidBytes, List.length_flatMap]

theorem discRecord_length (s : State) (p : Nat) : (discRecord s p).length = 28 + 24 * (s.dc p).svids.length := by
  simp [discRecord, List.length_flatMap, svidBytes_length]
  omega

/-! ### A sweep over the ports -/

theorem overN_succ (n : Nat) (f : Nat → State → State) (s : State) : overN (n + 1) f s = f n (overN n f s) := by
  simp [overN, List.range_succ]

/-- Each port below `n` that `b` names is updated. -/
def sweepPorts (n : Nat) (b : Nat → Bool) (g : Port → Port) (s : State) : State :=
  overN n (fun p t => if b p then t.updPort p g else t) s

variable {n : Nat} {b : Nat → Bool} {g : Port → Port}

theorem sweepPorts_succ : sweepPorts (n + 1) b g s =
    if b n then (sweepPorts n b g s).updPort n g else sweepPorts n b g s :=
  overN_succ n _ s

theorem sweepPorts_only (n : Nat) (b : Nat → Bool) (g : Port → Port) (s : State) :
    sweepPorts n b g s = { s with ports := (sweepPorts n b g s).ports } := by
  induction n with
  | zero => rfl
  | succ n ih =>
    rw [sweepPorts_succ]
    split
    · rw [ih]; rfl
    · exact ih

theorem sweepPorts_length (n : Nat) (b : Nat → Bool) (g : Port → Port) (s : State) :
    (sweepPorts n b g s).ports.length = s.ports.length := by
  induction n with
  | zero => rfl
  | succ n ih => rw [sweepPorts_succ]; split <;> simp [ih]

/-- A port that the sweep has not reached is as it was; one that it has passed is updated where `b` names it. -/
theorem port_sweepPorts (n : Nat) (b : Nat → Bool) (g : Port → Port) {p : Nat} (hp : p < s.ports.length) :
    (sweepPorts n b g s).port p = if p < n ∧ b p = true then g (s.port p) else s.port p := by
  induction n with
  | zero => simp [sweepPorts, overN]
  | succ n ih =>
    rw [sweepPorts_succ]
    by_cases hpn : p = n
    · subst hpn
      by_cases hb : b p = true
      · simp [hb, State.port_updPort, sweepPorts_length, hp, ih]
      · simp [hb, ih]
    · have hlt : p < n + 1 ↔ p < n := by omega
      by_cases hb : b n = true <;> simp [hb, hpn, hlt, ih]

/-! ### `GET_PARAM` (R66, R263, R303) -/

theorem readAccessory_eq_sweep (s : State) (ids : List Nat) : readAccessory s ids =
    sweepPorts 24 (fun p => ids.contains (pid 3 p 0)) (fun q => { q with cc := { q.cc with accessory := false } }) s := rfl

/-- Reading `CC_STATUS` writes the ports alone. -/
theorem readAccessory_only (s : State) (ids : List Nat) : readAccessory s ids = { s with ports := (readAccessory s ids).ports } :=
  sweepPorts_only ..

/-- R66: of the ports, those whose `CC_STATUS` is read lose ACCESSORY_SEEN. -/
theorem port_readAccessory (ids : List Nat) {p : Nat} (hp : p < s.ports.length) (h24 : p < 24) :
    (readAccessory s ids).port p = if ids.contains (pid 3 p 0) then { s.port p with cc := { s.cc p with accessory := false } } else s.port p := by
  rw [readAccessory_eq_sweep, port_sweepPorts _ _ _ hp]
  simp only [h24, true_and]
  rfl

theorem cmdAt_readAccessory (ids : List Nat) : (readAccessory s ids).cmdAt pl = s.cmdAt pl :=
  State.cmdAt_congr (by rw [readAccessory_only]) (by rw [readAccessory_only]) pl

@[simp] theorem sampleAttn_ports : (sampleAttn s pl c).ports = s.ports := by
  unfold sampleAttn; split <;> rfl

@[simp] theorem sampleAttn_port (p : Nat) : (sampleAttn s pl c).port p = s.port p := by
  simp [State.port]

@[simp] theorem sampleAttn_pending : (sampleAttn s pl c).attn.pending = s.attn.pending := by
  unfold sampleAttn; split <;> rfl

/-- R263: what is noted is noted in the host's channel and the attention record. -/
theorem sampleAttn_only (s : State) (pl : Place) (c : Cmd) :
    sampleAttn s pl c = { s with attn := (sampleAttn s pl c).attn, host := (sampleAttn s pl c).host } := by
  unfold sampleAttn; split <;> rfl

theorem sampleAttn_tunnel (h : placeChan pl = .tunnel) : sampleAttn s pl c = s := by
  simp [sampleAttn, h]

theorem OnlyReply.sampleAttn (h : OnlyReply pl s t) : OnlyReply pl { s with attn := (sampleAttn t pl c).attn } (sampleAttn t pl c) := by
  unfold OnlyReply at *
  cases hch : placeChan pl <;> simp only [hch] at h ⊢
  case host => rw [sampleAttn_only, h]
  case tunnel => rw [sampleAttn_tunnel hch, h]

theorem Answered.sampleAttn (h : Answered pl c code d t) : Answered pl c code d (sampleAttn t pl c) := by
  unfold Machine.sampleAttn
  split
  · cases pl <;> exact h
  · exact h

/-- What `GET_PARAM` leaves: the reply, ACCESSORY_SEEN of the ports whose status it read, and the note of what it reported. -/
theorem getParam_goes (h : Turn pl 0x20 c s) : Goes (.getParam pl) s fun t =>
    OnlyReply pl { s with attn := t.attn, ports := t.ports } t ∧ t.attn.pending = s.attn.pending ∧
    (∀ p, p < s.ports.length → p < 24 → t.port p = (if (getIds c).contains (pid 3 p 0) then
      { s.port p with cc := { s.cc p with accessory := false } } else s.port p)) ∧ Answered pl c stOk (paramData s (getIds c)) t := by
  let u := readAccessory s (getIds c)
  let v := u.finish pl stOk (paramData s (getIds c))
  have hu : u = { s with ports := u.ports } := readAccessory_only s _
  obtain ⟨hreply, hans⟩ : OnlyReply pl u v ∧ Answered pl c stOk (paramData s (getIds c)) v :=
    State.finish_spec ((cmdAt_readAccessory _).trans h.1) _ _
  have hports : v.ports = u.ports := State.finish_ports ..
  have hattn : v.attn = u.attn := State.finish_attn ..
  have hport (p : Nat) : v.port p = u.port p := State.finish_port ..
  refine ⟨sampleAttn v pl c, congrArg _ (State.runOp_turn _ h rfl), ?_, ?_, fun p hp h24 => ?_, hans.sampleAttn⟩
  · rw [sampleAttn_ports, hports]
    have hsampled := hreply.sampleAttn (c := c)
    rwa [hu] at hsampled
  · rw [sampleAttn_pending, hattn, hu]
  · rw [sampleAttn_port, hport, port_readAccessory _ hp h24]

end Sys2Proof.Machine

namespace Sys2Proof.Machine

/-- Settles O11: each opcode that reads ends at once with its data; `GET_PARAM` sweeps the ports whose status it read. -/
theorem readingOpcodes : Obligations.ReadingOpcodes := by
  unfold Obligations.ReadingOpcodes
  intro pl s c
  refine ⟨identify_ends, echo_ends, getParam_goes, discRead_ends, discRecord_length s _, modeTableRead_ends, ledgerRead_ends,
    fun _ => faultRead_ends, fun h => ?_, fun _ _ => calRead_ends, progRead_ends, authPubkey_ends, authPeerRead_ends, diagDump_ends⟩
  simpa only [otpShown_eq] using otpRead_ends h

end Sys2Proof.Machine
end

section
/-! PROOF. Words of a ridge engine on its registers and its function units (R356 to R368): a word decodes to its moves, a cycle of a quiet
engine runs them and goes on to the next word, and each kind of socket acts alone. -/

namespace Sys2Proof.Machine

/-! ### The bits of a word (R359, R360) -/

theorem guard4_guard2 {g : Nat} (h : [0x0, 0x1, 0x2, 0x9].contains g = true) : guard4 (guard2 g) = g := by
  simp only [List.contains_eq_mem, List.mem_cons, List.not_mem_nil, or_false, decide_eq_true_eq] at h
  obtain rfl | rfl | rfl | rfl := h <;> rfl

theorem guard2_lt (g : Nat) : guard2 g < 4 := by
  unfold guard2
  split <;> decide

/-- The fields of a word and its reserved bits, read as one number. -/
theorem toNat_fields_add {n r : Nat} (h : n + r < 2 ^ 32) : (BitVec.ofNat 32 n + BitVec.ofNat 32 r).toNat = n + r := by
  rw [← BitVec.ofNat_add, BitVec.toNat_ofNat, Nat.mod_eq_of_lt h]

/-- R359: a move from a socket. -/
theorem decodeWord_long_socket {g n d r : Nat} (hg : g < 16) (hn : n < 256) (hd : d < 256) (hr : r < 1024) :
    decodeWord (BitVec.ofNat 32 (g * 2 ^ 27 + n * 2 ^ 18 + d * 2 ^ 10) + BitVec.ofNat 32 r) = { a := ⟨g, .sock n, d⟩ } := by
  simp only [decodeWord, toNat_fields_add (show g * 2 ^ 27 + n * 2 ^ 18 + d * 2 ^ 10 + r < 2 ^ 32 by omega), fld]
  rw [if_neg (by omega), if_neg (by omega)]
  simp only [KWord.mk.injEq, KMove.mk.injEq, KSrc.sock.injEq, and_true]
  omega

/-- R359: a move of an immediate. -/
theorem decodeWord_long_immediate {g d r : Nat} (v : Word) (hg : g < 16) (hd : d < 256) (hr : r < 4) :
    decodeWord (BitVec.ofNat 32 (g * 2 ^ 27 + 2 ^ 26 + v.toNat * 2 ^ 10 + d * 2 ^ 2) + BitVec.ofNat 32 r) = { a := ⟨g, .imm v, d⟩ } := by
  have hv := v.isLt
  simp only [decodeWord, toNat_fields_add (show g * 2 ^ 27 + 2 ^ 26 + v.toNat * 2 ^ 10 + d * 2 ^ 2 + r < 2 ^ 32 by omega), fld]
  have himm : (g * 2 ^ 27 + 2 ^ 26 + v.toNat * 2 ^ 10 + d * 2 ^ 2 + r) / 2 ^ 10 % 2 ^ 16 = v.toNat := by omega
  rw [if_neg (by omega), if_pos (by omega), himm, BitVec.ofNat_toNat, BitVec.setWidth_eq]
  simp only [KWord.mk.injEq, KMove.mk.injEq, and_true, true_and]
  omega

/-- R360: two short moves, whose guards are given by their 2-bit codes. -/
theorem decodeWord_paired {g g' n n' d d' r : Nat} (hg : g < 4) (hn : n < 64) (hd : d < 128) (hg' : g' < 4) (hn' : n' < 64) (hd' : d' < 128)
    (hr : r < 2) :
    decodeWord (BitVec.ofNat 32 (2 ^ 31 + g * 2 ^ 29 + n * 2 ^ 23 + d * 2 ^ 16 + g' * 2 ^ 14 + n' * 2 ^ 8 + d' * 2) + BitVec.ofNat 32 r) =
      { a := ⟨guard4 g, .sock n, d⟩, b := some ⟨guard4 g', .sock n', d'⟩ } := by
  obtain ⟨w, hw⟩ : ∃ w, w = 2 ^ 31 + g * 2 ^ 29 + n * 2 ^ 23 + d * 2 ^ 16 + g' * 2 ^ 14 + n' * 2 ^ 8 + d' * 2 + r := ⟨_, rfl⟩
  have hlt : w < 2 ^ 32 := by omega
  rw [hw] at hlt
  simp only [decodeWord, toNat_fields_add hlt, fld, ← hw]
  have hg0 : w / 2 ^ 29 % 2 ^ 2 = g := by omega
  have hg1 : w / 2 ^ 14 % 2 ^ 2 = g' := by omega
  rw [if_pos (by omega), hg0, hg1]
  simp only [KWord.mk.injEq, KMove.mk.injEq, KSrc.sock.injEq, Option.some.injEq, true_and]
  omega

theorem shortOk_socket {g n d : Nat} :
    shortOk ⟨g, .sock n, d⟩ = true ↔ [0x0, 0x1, 0x2, 0x9].contains g = true ∧ d < 128 ∧ n < 64 := by
  simp only [shortOk, Bool.and_eq_true, decide_eq_true_eq, and_assoc]

/-- A move of the paired form is between sockets. -/
theorem shortOk_inv {m : KMove} (h : shortOk m = true) :
    ∃ n, m.src = .sock n ∧ n < 64 ∧ m.dst < 128 ∧ [0x0, 0x1, 0x2, 0x9].contains m.guard = true := by
  obtain ⟨g, n | v, d⟩ := m
  · obtain ⟨hg, hd, hn⟩ := shortOk_socket.1 h
    exact ⟨n, rfl, hn, hd, hg⟩
  · simp [shortOk] at h

/-- A word that has an encoding decodes to itself, whatever its reserved bits hold. -/
theorem decodeWord_encodeWord_add {w : KWord} {r : Nat} (hw : wordOk w = true) (hr : reservedFit w r = true) :
    decodeWord (encodeWord w + BitVec.ofNat 32 r) = w := by
  obtain ⟨⟨g, src, d⟩, _ | ⟨g', src', d'⟩⟩ := w
  case none =>
    cases src with simp only [wordOk, longOk, reservedFit, Bool.and_eq_true, decide_eq_true_eq] at hw hr
    | sock n => exact decodeWord_long_socket hw.1.1 hw.2 hw.1.2 hr
    | imm v => exact decodeWord_long_immediate v hw.1.1 hw.1.2 hr
  case some =>
    simp only [wordOk, reservedFit, Bool.and_eq_true, decide_eq_true_eq] at hw hr
    obtain ⟨n, rfl, hn, hd, hg⟩ := shortOk_inv hw.1
    obtain ⟨n', rfl, hn', hd', hg'⟩ := shortOk_inv hw.2
    exact (decodeWord_paired (guard2_lt g) hn hd (guard2_lt g') hn' hd' hr).trans (by rw [guard4_guard2 hg, guard4_guard2 hg'])

theorem decodeWord_argBits {a : KArg} {d : Nat} (hw : wordOk (argWord a d) = true) (hr : reservedFit (argWord a d) a.reserved = true) :
    decodeWord (argBits a d) = argWord a d :=
  decodeWord_encodeWord_add hw hr

/-- R359: the one move of a command's word is its own. -/
theorem decodeWord_oneMove {a : KArg} {d : Nat} (h : OneMove a) (hd : d < 256) :
    decodeWord (argBits a d) = { a := ⟨a.op.guard, a.op.src, d⟩ } := by
  obtain ⟨hother, hlong, hres⟩ := h
  have harg (d : Nat) : argWord a d = { a := ⟨a.op.guard, a.op.src, d⟩ } := by simp only [argWord, hother]
  rw [← harg]
  refine decodeWord_argBits ?_ ?_
  · rw [harg]
    simp only [wordOk, longOk, Bool.and_eq_true, decide_eq_true_eq] at hlong ⊢
    exact ⟨⟨hlong.1.1, hd⟩, hlong.2⟩
  · rw [harg] at hres ⊢
    exact hres

/-- R360: a paired word whose move A is the command's own. -/
theorem decodeWord_twoMoves {a : KArg} {m : KMove} {d : Nat} (hother : a.other = some m) (hself : a.selfIsB = false)
    (hok : shortOk ⟨a.op.guard, a.op.src, 0⟩ = true) (hok' : shortOk m = true) (hd : d < 128) (hres : a.reserved < 2) :
    decodeWord (argBits a d) = { a := ⟨a.op.guard, a.op.src, d⟩, b := some m } := by
  have harg : argWord a d = { a := ⟨a.op.guard, a.op.src, d⟩, b := some m } := by
    simp only [argWord, hother, hself, Bool.false_eq_true, if_false]
  obtain ⟨n, hsrc : a.op.src = .sock n, hn, -, hg⟩ := shortOk_inv hok
  rw [← harg]
  refine decodeWord_argBits ?_ ?_
  · rw [harg]
    exact Bool.and_eq_true_iff.2 ⟨by rw [hsrc]; exact shortOk_socket.2 ⟨hg, hd, hn⟩, hok'⟩
  · rw [harg]
    exact decide_eq_true hres

end Sys2Proof.Machine

namespace Sys2Proof.Machine
variable {e : Engine} {k : KKind} {l : List KAct} {fx fy : Word}

/-! ### A quiet engine before its word -/

theorem repOver_of_quiet (h : Quiet e) : e.repOver k = e := by
  simp only [Engine.repOver, h.1]

theorem land_of_quiet (h : Quiet e) : e.land = e := by
  obtain ⟨-, -, hpipe, -, -⟩ := h
  simp only [Engine.land, hpipe, List.filter_nil, List.foldl_nil]
  rw [← hpipe]

theorem ready_of_quiet (h : Quiet e) : e.ready = true := by
  obtain ⟨-, -, hpipe, -, -⟩ := h
  simp [Engine.ready, hpipe]

/-- R368: with no trigger in flight the multiplier takes one, in either mode. -/
theorem macTakes_of_quiet (h : Quiet e) : e.macTakes = true := by
  simp [Engine.macTakes, ready_of_quiet h]

/-! ### The address units of a word (R370) -/

/-- The units of `l` are post-modified. -/
def Engine.postUnits (e : Engine) (l : List Nat) : Engine :=
  { e with units := (List.range 8).map fun u => if l.contains u then (e.unit u).post else e.unit u }

theorem Engine.postUnits_nil (h : e.units.length = 8) : e.postUnits [] = e := by
  have hunits : (List.range 8).map e.unit = e.units :=
    List.ext_getElem (by simp [h]) fun n _ hn => by simp [Engine.unit, hn]
  simp only [Engine.postUnits, List.contains_nil, Bool.false_eq_true, if_false]
  rw [hunits]

theorem Engine.postUnits_pair {i j : Nat} (h : e.units.length = 8) (hij : i ≠ j) :
    e.postUnits [i, j] = { e with units := (e.units.modify i AddrUnit.post).modify j AddrUnit.post } := by
  have hunits : ((List.range 8).map fun u => if [i, j].contains u then (e.unit u).post else e.unit u) =
      (e.units.modify i AddrUnit.post).modify j AddrUnit.post := by
    refine List.ext_getElem (by simp [h]) fun n h8 hn => ?_
    have hlen : n < e.units.length := by simpa using hn
    grind [Engine.unit]
  rw [Engine.postUnits, hunits]

/-! ### What the moves of a word do in the registers and function units -/

/-- The moves of a word on the registers and function units, in the engine's order. The memories, the custom unit and the sequencing are
left out: `cycle_plain` is about words that do not reach them. -/
def Engine.effects (e : Engine) (k : KKind) (l : List KAct) (fx fy : Word) : Engine :=
  modeCycle l (macCycle l fx fy (l.foldl trigCompare (l.foldl trigArith (l.foldl (fun e m => e.writeReg k m.dst m.val) e))))

/-- What of an engine's state sequences its words. -/
def Engine.seqPart (e : Engine) : Word × Option Word × Option Nat × Option Nat × Nat := (e.pc, e.jump, e.rep, e.cstAt, e.cyc)

theorem seqPart_inj {e e' : Engine} : e.seqPart = e'.seqPart ↔
    e.pc = e'.pc ∧ e.jump = e'.jump ∧ e.rep = e'.rep ∧ e.cstAt = e'.cstAt ∧ e.cyc = e'.cyc := by
  simp only [Engine.seqPart, Prod.mk.injEq]

theorem seqPart_foldl {f : Engine → KAct → Engine} (hf : ∀ e m, (f e m).seqPart = e.seqPart) (l : List KAct) (e : Engine) :
    (l.foldl f e).seqPart = e.seqPart := by
  induction l generalizing e with
  | nil => rfl
  | cons m l ih => rw [List.foldl_cons, ih, hf]

theorem seqPart_writeReg (e : Engine) (d : Nat) (v : Word) : (e.writeReg k d v).seqPart = e.seqPart := by
  unfold Engine.writeReg
  repeat' split
  all_goals rfl

theorem seqPart_trigArith (e : Engine) (m : KAct) : (trigArith e m).seqPart = e.seqPart := by
  unfold trigArith; split <;> rfl

theorem seqPart_trigCompare (e : Engine) (m : KAct) : (trigCompare e m).seqPart = e.seqPart := by
  unfold trigCompare Engine.compare
  split
  · split <;> rfl
  · rfl

theorem seqPart_macCycle (e : Engine) : (macCycle l fx fy e).seqPart = e.seqPart := by
  unfold macCycle Engine.macTrig
  split
  · split <;> rfl
  · rfl

theorem seqPart_modeCycle (e : Engine) : (modeCycle l e).seqPart = e.seqPart := by
  unfold modeCycle; split <;> rfl

/-! ### A word of plain moves -/

/-- A destination outside the data memories, the custom unit, the sequencing, the duties, the publish and the steering requests. -/
def PlainDst (d : Nat) : Prop := trigUnit d < 4 ∧ ¬(0x40 ≤ d ∧ d ≤ 0x47) ∧ ¬(0x68 ≤ d ∧ d ≤ 0x71)

/-- R357: where the trigger sockets stand. -/
theorem trigUnit_ne_zero {d : Nat} (h : trigUnit d ≠ 0) :
    (0x19 ≤ d ∧ d ≤ 0x27) ∨ (0x2A ≤ d ∧ d ≤ 0x33) ∨ (0x35 ≤ d ∧ d ≤ 0x3A) ∨ (0x50 ≤ d ∧ d ≤ 0x5F) ∨ (0x61 ≤ d ∧ d ≤ 0x65) := by
  unfold trigUnit at h
  simp only [Bool.and_eq_true, decide_eq_true_eq] at h
  grind

theorem plainDst_of_trigger {d : Nat} (h0 : trigUnit d ≠ 0) (h4 : trigUnit d < 4) : PlainDst d := by
  have := trigUnit_ne_zero h0
  exact ⟨h4, by omega, by omega⟩

/-- What a source that reads no memory shows on a ridge engine. -/
def Engine.shows (e : Engine) (k : KKind) : KSrc → Word
  | .imm v => v
  | .sock n => e.source k 0 n

theorem moveVal_eq_shows {free : Nat} {reads : List Nat} {m : KMove} (hk : k.sup = false) (h : memSrc m.src = none) :
    moveVal e k free reads m = e.shows k m.src := by
  obtain ⟨g, n | v, d⟩ := m
  · simp only [moveVal, h, Engine.shows, Engine.source, hk, Bool.false_eq_true, if_false]
  · rfl

/-- The moves that write or trigger, with their values. -/
def Engine.acts (e : Engine) (k : KKind) (w : KWord) : List KAct :=
  (effective (activeMoves e w)).map fun m => ⟨m.src, m.dst, e.shows k m.src⟩

theorem mem_effective {m : KMove} {ms : List KMove} (h : m ∈ effective ms) : m ∈ ms := by
  unfold effective at h
  split at h
  · split at h
    · simp_all
    · exact h
  · exact h

/-- No memory is stored to and the custom unit stands still in a word of plain moves. -/
theorem storeSide_plain {e0 : Engine} {isX : Bool} (h : ∀ m ∈ l, PlainDst m.dst) : storeSide e0 k l isX e = e := by
  have hnone : storeOf l isX = none := by
    rw [storeOf, List.getLast?_eq_none_iff, List.filter_eq_nil_iff]
    intro m hm hstore
    obtain ⟨-, hmem, -⟩ := h m hm
    simp only [Bool.and_eq_true, decide_eq_true_eq] at hstore
    exact hmem hstore.1
  rw [storeSide, hnone]

theorem find?_trigUnit_plain {n : Nat} (h : ∀ m ∈ l, PlainDst m.dst) (hn : 4 ≤ n) :
    (l.find? fun m => trigUnit m.dst == n) = none := by
  rw [List.find?_eq_none]
  intro m hm hunit
  obtain ⟨hlt, -, -⟩ := h m hm
  simp only [beq_iff_eq] at hunit
  omega

theorem customCycle_plain (h : ∀ m ∈ l, PlainDst m.dst) (hc : e.cstAt = none) : customCycle k l e = e := by
  rw [customCycle, find?_trigUnit_plain h (by decide), hc]

/-- A word of plain moves goes on to the word after it. -/
theorem advance_plain (h : ∀ m ∈ l, PlainDst m.dst) (hr : e.rep = none) (hj : e.jump = none) (hk : k.sup = false) :
    e.advance k l = { e with pc := BitVec.ofNat 16 ((e.pc.toNat + 1) % 8192) } := by
  simp only [Engine.advance, find?_trigUnit_plain h (show 4 ≤ 5 by decide), find?_trigUnit_plain h (show 4 ≤ 6 by decide), hr, Engine.after, hj,
    KKind.progSize, hk, Bool.false_eq_true, if_false]

theorem modeCycle_withPc (e : Engine) (p : Word) : modeCycle l { e with pc := p } = { modeCycle l e with pc := p } := by
  unfold modeCycle
  split <;> rfl

theorem irqCycle_ridge (hk : k.sup = false) : irqCycle k l e = e := by
  simp [irqCycle, hk]

/-- A word of plain moves publishes nothing, requests no steering and writes no duty. -/
theorem noOutput_plain (h : ∀ m ∈ l, PlainDst m.dst) :
    (l.any fun m => m.dst == 0x70) = false ∧ (l.find? fun m => m.dst == 0x71) = none ∧
      (l.filter fun m => 0x68 ≤ m.dst && m.dst ≤ 0x6F) = [] := by
  have hout (m) (hm : m ∈ l) : ¬(0x68 ≤ m.dst ∧ m.dst ≤ 0x71) := (h m hm).2.2
  simp only [List.any_eq_false, List.find?_eq_none, List.filter_eq_nil_iff, beq_iff_eq, Bool.and_eq_true, decide_eq_true_eq]
  exact ⟨fun m hm _ => hout m hm (by omega), fun m hm _ => hout m hm (by omega), fun m hm _ => hout m hm (by omega)⟩

/-- No source of a ridge engine is a peripheral of the supervisor. -/
theorem any_freeSrc_ridge (hk : k.sup = false) (ms : List KMove) : (ms.any fun m => freeSrc k m.src) = false := by
  rw [List.any_eq_false]
  intro m _
  cases m.src <;> simp [freeSrc, hk]

theorem filter_stores_plain {ms : List KMove} (h : ∀ m ∈ ms, PlainDst m.dst) :
    (ms.filter fun m => 0x40 ≤ m.dst && m.dst ≤ 0x47) = [] := by
  rw [List.filter_eq_nil_iff]
  intro m hm
  simpa only [Bool.and_eq_true, decide_eq_true_eq] using (h m hm).2.1

/-- R356: what a word of plain moves does in a quiet ridge engine. -/
theorem cycle_plain {w : KWord} {free : Nat} {ds : List Nat} (hq : Quiet e) (hk : k.sup = false)
    (hsrc : ∀ m ∈ activeMoves e w, memSrc m.src = none) (hdst : ∀ m ∈ activeMoves e w, PlainDst m.dst)
    (hds : dualOf e k free [] (effective (activeMoves e w)) = ds) :
    e.cycle k free w =
      { eng := nextWord ((e.postUnits ds).effects k (e.acts k w) (ds[0]?.elim 0 (e.peek k)) (ds[1]?.elim 0 (e.peek k))) } := by
  have ⟨hrep0, hresume, _, hcst0, hjump0⟩ := hq
  generalize hx : (e.postUnits ds).effects k (e.acts k w) (ds[0]?.elim 0 (e.peek k)) (ds[1]?.elim 0 (e.peek k)) = x
  unfold Engine.cycle
  extract_lets e' act eff dual reads vals fx fy touched e1 e2 e3 e4 e5 e6 e7 pub
  have he : e' = e := (congrArg _ (repOver_of_quiet hq)).trans (land_of_quiet hq)
  have hact : act = activeMoves e w := by rw [← he]
  have hreads : readUnits act = [] := by rw [hact]; exact List.filterMap_eq_nil_iff.2 hsrc
  have hdual : dual = ds := by rw [← hds, ← hact, ← hreads, ← he]
  have hvals : vals = e.acts k w := by
    simp only [vals, eff, hact, he]
    exact List.map_congr_left fun m hm => by rw [moveVal_eq_shows hk (hsrc m (mem_effective hm))]
  have hplain : ∀ m ∈ vals, PlainDst m.dst := by
    rw [hvals]
    simpa [Engine.acts] using fun m hm => hdst m (mem_effective hm)
  have htouched : touched = ds := by
    have hstores := filter_stores_plain (ms := act) (by rwa [hact])
    simp only [touched, reads, hreads, hdual, hstores, List.map_nil, List.append_nil]
  have hfx : fx = ds[0]?.elim 0 (e.peek k) := by
    simp only [fx, hdual, he]
    cases ds <;> rfl
  have hfy : fy = ds[1]?.elim 0 (e.peek k) := by
    simp only [fy, hdual, he]
    rcases ds with _ | ⟨_, _ | _⟩ <;> rfl
  have h1 : e1 = e.postUnits ds := by
    simp only [e1, htouched, he, Engine.postUnits]
  have h2 : e2 = e1 := by simp only [e2, storeSide_plain hplain]
  have h3 : (vals.foldl trigArith e3).seqPart = e.seqPart := by
    rw [seqPart_foldl seqPart_trigArith, seqPart_foldl fun e m => seqPart_writeReg e m.dst m.val, h2, h1, Engine.postUnits]
    rfl
  obtain ⟨-, -, -, hcst, -⟩ := seqPart_inj.1 h3
  have h4 : e4 = vals.foldl trigCompare (vals.foldl trigArith e3) := by
    simp only [e4, customCycle_plain hplain (hcst.trans hcst0)]
  have h5 : e5.seqPart = e.seqPart := by
    rw [← h3, seqPart_macCycle, h4, seqPart_foldl seqPart_trigCompare]
  obtain ⟨hpc, hjump, hrep, -, hcyc⟩ := seqPart_inj.1 h5
  have h6 : e6 = { e5 with pc := BitVec.ofNat 16 ((e.pc.toNat + 1) % 8192) } := by
    simp only [e6, hresume, Option.isSome_none, Bool.false_eq_true, if_false]
    rw [advance_plain hplain (hrep.trans hrep0) (hjump.trans hjump0) hk, hpc]
  have hmode : modeCycle vals e5 = x := by
    simp only [← hx, e5, h4, e3, h2, h1, hfx, hfy, hvals, Engine.effects]
  obtain ⟨hxpc, -, -, -, hxcyc⟩ := seqPart_inj.1 ((hmode ▸ seqPart_modeCycle e5).trans h5)
  have h7 : e7 = { x with pc := BitVec.ofNat 16 ((e.pc.toNat + 1) % 8192) } := by
    simp only [e7, irqCycle_ridge hk, h6, modeCycle_withPc, hmode]
  obtain ⟨hpublish, hsteer, hduty⟩ := noOutput_plain hplain
  have hpub : pub = false := by simp only [pub, hpublish, Bool.and_false]
  simp only [hpub, hsteer, hduty, any_freeSrc_ridge hk, h7, he, nextWord, hxpc, hxcyc, Bool.not_false, Bool.and_true, List.map_nil, Option.map_none, ite_self,
    Bool.false_eq_true, if_false]

end Sys2Proof.Machine

namespace Sys2Proof.Machine
variable {e : Engine} {k : KKind} {l : List KAct} {src : KSrc} {d : Nat} {v fx fy : Word}

/-! ### The ALU, the compare unit and the multiplier on one move (R365 to R368) -/

theorem sat16_of_mem {x : Int} (hlo : -32768 ≤ x) (hhi : x ≤ 32767) : sat16 x = x := by
  unfold sat16
  omega

/-- Of the words of the ALU only 0x8000 has no negative. -/
theorem toInt_bounds (h : v ≠ 0x8000) : -32767 ≤ v.toInt ∧ v.toInt ≤ 32767 := by
  have hlo := v.le_toInt
  have hhi := v.toInt_lt
  have hne : v.toInt ≠ -32768 := fun hv => h (BitVec.eq_of_toInt_eq hv)
  omega

theorem wordOfInt_neg (v : Word) : wordOfInt (-v.toInt) = 0 - v := by
  rw [wordOfInt, BitVec.ofInt_neg, BitVec.ofInt_toInt]
  exact (BitVec.zero_sub v).symm

theorem wordOfInt_toInt (v : Word) : wordOfInt v.toInt = v := BitVec.ofInt_toInt

/-- `alu.neg` saturates at the word without a negative. -/
theorem wordOfInt_sat16_neg (v : Word) : wordOfInt (sat16 (-v.toInt)) = if v = 0x8000 then 0x7FFF else 0 - v := by
  split
  case isTrue h => subst h; rfl
  case isFalse h =>
    have := toInt_bounds h
    rw [sat16_of_mem (by omega) (by omega), wordOfInt_neg]

/-- `alu.abs` saturates at the word without a negative. -/
theorem wordOfInt_sat16_abs (v : Word) :
    wordOfInt (sat16 (v.toInt.natAbs : Int)) = if v = 0x8000 then 0x7FFF else if v.toInt < 0 then 0 - v else v := by
  split
  case isTrue h => subst h; rfl
  case isFalse h =>
    have := toInt_bounds h
    rw [sat16_of_mem (by omega) (by omega)]
    split
    · rw [Int.ofNat_natAbs_of_nonpos (by omega), wordOfInt_neg]
    · rw [Int.natAbs_of_nonneg (by omega), wordOfInt_toInt]

/-- R362: a predicate write sets its predicate, but for g3 in latched mode, and keeps the others. -/
theorem getLsbD_setPred (latched b : Bool) (g : BitVec 4) {i j : Nat} (hi : i < 4) (hj : j < 4) :
    (setPred latched g i b).getLsbD j = if j = i ∧ ¬(latched = true ∧ i = 3) then b else g.getLsbD j := by
  have hbit : (BitVec.ofNat 4 (2 ^ i)).getLsbD j = decide (j = i) := by
    rw [BitVec.getLsbD_ofNat, Nat.testBit_two_pow]
    simp [hj, eq_comm]
  unfold setPred
  split
  case isTrue h =>
    rw [if_neg (by simp_all)]
  case isFalse h =>
    simp only [Bool.and_eq_true, beq_iff_eq] at h
    cases b
    · simp only [Bool.false_eq_true, if_false, BitVec.getLsbD_and, BitVec.getLsbD_not, hbit, h, not_false_eq_true, and_true]
      by_cases hji : j = i <;> simp [hji, hj, hi]
    · simp only [if_true, BitVec.getLsbD_or, hbit, h, not_false_eq_true, and_true]
      by_cases hji : j = i <;> simp [hji]

/-- R366: `cmp.pset` writes the predicates from the low bits of its value. -/
theorem getLsbD_pset (latched : Bool) (g : BitVec 4) (v : Word) {j : Nat} (hj : j < 4) :
    ((List.range 4).foldl (fun g i => setPred latched g i (v.getLsbD i)) g).getLsbD j =
      if latched = true ∧ j = 3 then g.getLsbD 3 else v.getLsbD j := by
  have hfold : (List.range 4).foldl (fun g i => setPred latched g i (v.getLsbD i)) g =
      setPred latched (setPred latched (setPred latched (setPred latched g 0 (v.getLsbD 0)) 1 (v.getLsbD 1)) 2 (v.getLsbD 2)) 3 (v.getLsbD 3) := rfl
  have hbit (g : BitVec 4) (i : Nat) (hi : i < 4) (b : Bool) := getLsbD_setPred latched b g hi hj
  rw [hfold, hbit _ 3 (by decide), hbit _ 2 (by decide), hbit _ 1 (by decide), hbit _ 0 (by decide)]
  interval_cases j <;> cases latched <;> simp

/-! ### The sockets of the trigger units and of the registers -/

/-- A trigger socket holds no register. -/
theorem writeReg_of_trigger (h : trigUnit d ≠ 0) : e.writeReg k d v = e := by
  have hd := trigUnit_ne_zero h
  unfold Engine.writeReg
  simp only [Bool.and_eq_true, decide_eq_true_eq]
  rw [if_neg (by omega), if_neg (by omega), if_neg (by omega)]
  split
  case h_8 => rfl
  all_goals omega

/-- The sockets of R364 that hold an operand, a general register or a field of an address unit, and the sink that holds nothing. -/
def RegisterDst (d : Nat) : Prop :=
  d = 0 ∨ (0x08 ≤ d ∧ d ≤ 0x18) ∨ d = 0x28 ∨ d = 0x29 ∨ d = 0x34 ∨ (0x48 ≤ d ∧ d ≤ 0x4F) ∨ d = 0x60 ∨ (0x80 ≤ d ∧ d ≤ 0x9F)

theorem trigUnit_of_registerDst (h : RegisterDst d) : trigUnit d = 0 := by
  by_contra hne
  have := trigUnit_ne_zero hne
  unfold RegisterDst at h
  omega

theorem plainDst_of_registerDst (h : RegisterDst d) : PlainDst d := by
  refine ⟨by rw [trigUnit_of_registerDst h]; decide, ?_⟩
  unfold RegisterDst at h
  omega

theorem ne_dmac_of_registerDst (h : RegisterDst d) : d ≠ 0x38 := by
  rintro rfl
  exact absurd (trigUnit_of_registerDst h) (by decide)

/-- The fields of an address unit in the order of their sockets. -/
def AddrUnit.withField (u : AddrUnit) (f : Nat) (v : Word) : AddrUnit :=
  match f with
  | 0 => { u with step := v }
  | 1 => { u with base := v }
  | 2 => { u with len := v }
  | _ => { u with mode := v }

theorem writeReg_gp {i : Nat} (hi : i < 16) : e.writeReg k (0x08 + i) v = { e with gp := e.gp.set i v } := by
  unfold Engine.writeReg
  simp only [Bool.and_eq_true, decide_eq_true_eq]
  rw [if_pos (by omega), Nat.add_sub_cancel_left]

theorem writeReg_ptr {u : Nat} (hu : u < 8) :
    e.writeReg k (0x48 + u) v = { e with units := e.units.modify u fun x => { x with ptr := v } } := by
  unfold Engine.writeReg
  simp only [Bool.and_eq_true, decide_eq_true_eq]
  rw [if_neg (by omega), if_pos (by omega), Nat.add_sub_cancel_left]

theorem writeReg_field {u f : Nat} (hu : u < 8) (hf : f < 4) (hd : d = 0x80 + 4 * u + f) :
    e.writeReg k d v = { e with units := e.units.modify u fun x => x.withField f v } := by
  have hunit : (d - 0x80) / 4 = u := by omega
  have hfield : (d - 0x80) % 4 = f := by omega
  unfold Engine.writeReg
  simp only [Bool.and_eq_true, decide_eq_true_eq]
  rw [if_neg (by omega), if_neg (by omega), if_pos (by omega), hunit, hfield]
  rfl

theorem ne_mode_of_trigger (h : trigUnit d ≠ 0) : d ≠ 0x3B := by
  rintro rfl
  exact h rfl

/-! ### The effects of each kind of socket -/

theorem effects_alu (h : trigUnit d = 1) : e.effects k [⟨src, d, v⟩] fx fy = { e with aluRes := aluOp d e.aluA v } := by
  simp [Engine.effects, writeReg_of_trigger, trigArith, trigCompare, macCycle, modeCycle, h, ne_mode_of_trigger]

theorem effects_compare (h : trigUnit d = 2) : e.effects k [⟨src, d, v⟩] fx fy = e.compare d v := by
  simp [Engine.effects, writeReg_of_trigger, trigArith, trigCompare, macCycle, modeCycle, h, ne_mode_of_trigger]

theorem effects_mac (hq : Quiet e) (h : trigUnit d = 3) :
    e.effects k [⟨src, d, v⟩] fx fy = { e with macPipe := [{ due := e.cyc + 3, what := macDo e d v fx fy }] } := by
  have ⟨_, _, hpipe, _, _⟩ := hq
  simp [Engine.effects, writeReg_of_trigger, trigArith, trigCompare, macCycle, modeCycle, h, ne_mode_of_trigger, Engine.macTrig, macTakes_of_quiet hq, hpipe]

theorem effects_mode (hq : Quiet e) : e.effects k [⟨src, 0x3B, v⟩] fx fy =
    { e with macLatched := v == 1, pred := if e.macLatched = true ∨ v = 1 then (e.pred &&& 7) ||| 8 else e.pred } := by
  have hwrite : e.writeReg k 0x3B v = e := rfl
  have hunit : trigUnit 0x3B = 0 := rfl
  simp [Engine.effects, hwrite, trigArith, trigCompare, macCycle, modeCycle, hunit, Engine.readyPred, ready_of_quiet hq]

theorem foldl_of_fixes {f : Engine → KAct → Engine} (h : ∀ e, ∀ m ∈ l, f e m = e) (e : Engine) : l.foldl f e = e := by
  induction l with
  | nil => rfl
  | cons m l ih =>
    rw [List.foldl_cons, h e m List.mem_cons_self]
    exact ih fun e m hm => h e m (List.mem_cons_of_mem _ hm)

/-- A word that writes registers alone. -/
theorem effects_registers (h : ∀ m ∈ l, RegisterDst m.dst) : e.effects k l fx fy = l.foldl (fun e m => e.writeReg k m.dst m.val) e := by
  have hunit : ∀ m ∈ l, trigUnit m.dst = 0 := fun m hm => trigUnit_of_registerDst (h m hm)
  have harith (e : Engine) : l.foldl trigArith e = e :=
    foldl_of_fixes (fun e m hm => by simp [trigArith, hunit m hm]) e
  have hcompare (e : Engine) : l.foldl trigCompare e = e :=
    foldl_of_fixes (fun e m hm => by simp [trigCompare, hunit m hm]) e
  have hmac : (l.find? fun m => trigUnit m.dst == 3) = none := by
    simpa [List.find?_eq_none] using fun m hm => by simp [hunit m hm]
  have hmode : (l.find? fun m => m.dst == 0x3B) = none := by
    simpa [List.find?_eq_none] using fun m hm h3B => absurd (h m hm) (by rw [h3B]; unfold RegisterDst; decide)
  simp only [Engine.effects, harith, hcompare, macCycle, hmac, modeCycle, hmode]

end Sys2Proof.Machine

namespace Sys2Proof.Machine
variable {e e' : Engine} {k : KKind} {s : State} {a : KArg} {c : Instr} {src : KSrc} {g d : Nat} {v : Word} {w : KWord}

/-! ### A word of one move -/

theorem activeMoves_oneMove (hg : guardHolds e.preds g = true) : activeMoves e { a := ⟨g, src, d⟩ } = [⟨g, src, d⟩] := by
  simp [activeMoves, hg]

theorem acts_oneMove (hg : guardHolds e.preds g = true) : e.acts k { a := ⟨g, src, d⟩ } = [⟨src, d, e.shows k src⟩] := by
  rw [Engine.acts, activeMoves_oneMove hg]
  rfl

/-- R367: only the dual multiply reads memory through the units of its operand. -/
theorem dualOf_eq_nil {free : Nat} {ms : List KMove} (h : ∀ m ∈ ms, m.dst ≠ 0x38) : dualOf e k free [] ms = [] := by
  have hnone : (ms.find? fun m => m.dst == 0x38) = none := by simpa [List.find?_eq_none] using h
  rw [dualOf, hnone]

theorem dualOf_dmac {free : Nat} (hq : Quiet e) (hk : k.sup = false) (hs : memSrc src = none) :
    dualOf e k free [] [⟨g, src, 0x38⟩] = dualUnits (e.shows k src) := by
  simp [dualOf, macTakes_of_quiet hq, moveVal_eq_shows hk, hs]

/-! ### A word on a ridge engine -/

theorem State.Shaped.units_length {r : Nat} (h : s.Shaped) (hr : r < 6) : (s.ridge r).eng.units.length = 8 := by
  obtain ⟨-, -, hridges, -, -, hengines, -⟩ := h
  have hlt : r < s.ridges.length := by omega
  have hmem : s.ridge r ∈ s.ridges := by simp [State.ridge, hlt]
  obtain ⟨-, hunits, -⟩ := hengines _ hmem
  exact hunits

/-- A word whose cycle has no effect outside its engine leaves the engine of that cycle. -/
theorem leaves_of_cycle (hr : a.eng < 6) (hrun : s.engineRuns a.eng = true) (hc : exec c s = runWord a.eng (argBits a d) s)
    (hw : decodeWord (argBits a d) = w) (hcycle : (s.ridge a.eng).eng.cycle (ridgeKind (s.ridge a.eng).bank) s.freeN w = { eng := e' }) :
    Leaves c s a.eng e' := by
  unfold Leaves GoesTo
  rw [hc, runWord, hw, if_neg (by omega), ridgeWord, if_pos hrun]
  simp only [hcycle, List.foldl_nil, Bool.false_eq_true, if_false]

theorem quiet_of_runsOn (h : RunsOn s a v) (he : e = (s.ridge a.eng).eng) : Quiet e := by
  obtain ⟨-, -, -, -, hq, -⟩ := h
  exact he ▸ hq

theorem units_length_of_runsOn (h : RunsOn s a v) (he : e = (s.ridge a.eng).eng) : e.units.length = 8 := by
  obtain ⟨hshaped, hr, -⟩ := h
  exact he ▸ hshaped.units_length hr

/-- A source that shows `v` and reads no memory. -/
theorem shows_of_runsOn (h : RunsOn s a v) :
    memSrc a.op.src = none ∧ (s.ridge a.eng).eng.shows (ridgeKind (s.ridge a.eng).bank) a.op.src = v := by
  obtain ⟨-, -, -, -, -, -, himm | ⟨n, hsock, hmem, hv⟩⟩ := h
  · rw [himm]; exact ⟨rfl, rfl⟩
  · rw [hsock]; exact ⟨hmem, hv⟩

/-- A word of one move to a plain socket; `ds` are the units that its dual multiply reads memory through, if it triggers one. -/
theorem leaves_oneMove {ds : List Nat} (h : RunsOn s a v) (he : e = (s.ridge a.eng).eng) (hk : k = ridgeKind (s.ridge a.eng).bank)
    (hc : exec c s = runWord a.eng (argBits a d) s) (hd : PlainDst d) (hlt : d < 256)
    (hds : dualOf e k s.freeN [] [⟨a.op.guard, a.op.src, d⟩] = ds) :
    Leaves c s a.eng (nextWord ((e.postUnits ds).effects k [⟨a.op.src, d, v⟩] (ds[0]?.elim 0 (e.peek k)) (ds[1]?.elim 0 (e.peek k)))) := by
  obtain ⟨hmem, hshows⟩ := shows_of_runsOn h
  obtain ⟨-, hr, hrun, hone, hq, hg, -⟩ := h
  subst he hk
  have hact := activeMoves_oneMove (src := a.op.src) (d := d) hg
  have hdual : dualOf _ _ s.freeN [] (effective (activeMoves _ _)) = ds := (congrArg _ (congrArg _ hact)).trans hds
  refine leaves_of_cycle hr hrun hc (decodeWord_oneMove hone hlt) ?_
  rw [cycle_plain hq rfl (by simpa [hact] using hmem) (by simpa [hact] using hd) hdual, acts_oneMove hg, hshows]

/-- A word of one move to a plain socket other than the dual multiply. -/
theorem leaves_plain (h : RunsOn s a v) (he : e = (s.ridge a.eng).eng) (hc : exec c s = runWord a.eng (argBits a d) s) (hd : PlainDst d)
    (hlt : d < 256) (hne : d ≠ 0x38) :
    Leaves c s a.eng (nextWord (e.effects (ridgeKind (s.ridge a.eng).bank) [⟨a.op.src, d, v⟩] 0 0)) := by
  have hlen : e.units.length = 8 := units_length_of_runsOn h he
  have hword := leaves_oneMove h he rfl hc hd hlt (dualOf_eq_nil (by simpa using hne))
  rwa [Engine.postUnits_nil hlen] at hword

theorem trigger_lt (h : trigUnit d ≠ 0) : d < 256 := by
  have := trigUnit_ne_zero h
  omega

/-- A trigger of the ALU, the compare unit or the multiplier other than the dual multiply. -/
theorem leaves_trigger (h : RunsOn s a v) (he : e = (s.ridge a.eng).eng) (hc : exec c s = runWord a.eng (argBits a d) s)
    (h0 : trigUnit d ≠ 0) (h4 : trigUnit d < 4) (hne : d ≠ 0x38) :
    Leaves c s a.eng (nextWord (e.effects (ridgeKind (s.ridge a.eng).bank) [⟨a.op.src, d, v⟩] 0 0)) :=
  leaves_plain h he hc (plainDst_of_trigger h0 h4) (trigger_lt h0) hne

/-- R365, R366: a trigger of the ALU. -/
theorem leaves_alu (h : RunsOn s a v) (he : e = (s.ridge a.eng).eng) (hc : exec c s = runWord a.eng (argBits a d) s) (hu : trigUnit d = 1) :
    Leaves c s a.eng { nextWord e with aluRes := aluOp d e.aluA v } := by
  have hne : d ≠ 0x38 := by rintro rfl; exact absurd hu (by decide)
  have hword := leaves_trigger h he hc (by omega) (by omega) hne
  rwa [effects_alu hu] at hword

/-- R366: a trigger of the compare unit. -/
theorem leaves_compare (h : RunsOn s a v) (he : e = (s.ridge a.eng).eng) (hc : exec c s = runWord a.eng (argBits a d) s)
    (hu : trigUnit d = 2) : Leaves c s a.eng (nextWord (e.compare d v)) := by
  have hne : d ≠ 0x38 := by rintro rfl; exact absurd hu (by decide)
  have hword := leaves_trigger h he hc (by omega) (by omega) hne
  rwa [effects_compare hu] at hword

/-- R366: a compare trigger that writes the predicate which `cmp.p` names. -/
theorem leaves_predicate (h : RunsOn s a v) (he : e = (s.ridge a.eng).eng) (hc : exec c s = runWord a.eng (argBits a d) s)
    (hu : trigUnit d = 2) (hne : d ≠ 0x33) :
    Leaves c s a.eng { nextWord e with pred := setPred e.macLatched e.pred (e.cmpP.toNat % 4) (cmpOp d e.cmpA v) } := by
  have hword := leaves_compare h he hc hu
  rwa [Engine.compare, if_neg hne] at hword

/-- R366: `cmp.pset` writes the predicates one after another. -/
theorem leaves_pset (h : RunsOn s a v) (he : e = (s.ridge a.eng).eng) :
    Leaves (.cmpPset a) s a.eng
      { nextWord e with pred := (List.range 4).foldl (fun g i => setPred e.macLatched g i (v.getLsbD i)) e.pred } := by
  have hword := leaves_compare h he (c := .cmpPset a) (d := 0x33) rfl rfl
  rwa [Engine.compare, if_pos rfl] at hword

/-- R367: a trigger of the multiplier but the dual multiply. -/
theorem leaves_mac (h : RunsOn s a v) (he : e = (s.ridge a.eng).eng) (hc : exec c s = runWord a.eng (argBits a d) s)
    (hu : trigUnit d = 3) (hne : d ≠ 0x38) :
    Leaves c s a.eng { nextWord e with macPipe := [{ due := e.cyc + 3, what := macDo e d v 0 0 }] } := by
  have hq : Quiet e := quiet_of_runsOn h he
  have hword := leaves_trigger h he hc (by omega) (by omega) hne
  rwa [effects_mac hq hu] at hword

/-- R367: the dual multiply reads memory through the two units that its operand names, and post-modifies both. -/
theorem leaves_dmac {i j : Nat} (h : RunsOn s a v) (he : e = (s.ridge a.eng).eng) (hk : k = ridgeKind (s.ridge a.eng).bank)
    (hi : i = v.toNat % 4) (hj : j = 4 + v.toNat / 4 % 4) :
    Leaves (.macDmac a) s a.eng
      { nextWord e with
        units := (e.units.modify i AddrUnit.post).modify j AddrUnit.post
        macPipe := [{ due := e.cyc + 3, what := macDo e 0x38 v (e.peek k i) (e.peek k j) }] } := by
  obtain ⟨hmem, hshows⟩ := shows_of_runsOn h
  have hlen : e.units.length = 8 := units_length_of_runsOn h he
  have hq : Quiet e := quiet_of_runsOn h he
  have hds : dualOf e k s.freeN [] [⟨a.op.guard, a.op.src, 0x38⟩] = [i, j] := by
    rw [dualOf_dmac hq (hk ▸ rfl) hmem, he, hk, hshows, dualUnits, hi, hj]
  have hword := leaves_oneMove (c := .macDmac a) h he hk rfl (plainDst_of_trigger (by decide) (by decide)) (by decide) hds
  have hq' : Quiet (e.postUnits [i, j]) := hq
  rw [effects_mac hq' rfl, Engine.postUnits_pair hlen (by omega)] at hword
  exact hword

/-- R368: a write of the multiplier's mode. -/
theorem leaves_mode (h : RunsOn s a v) (he : e = (s.ridge a.eng).eng) :
    Leaves (.macMode a) s a.eng
      { nextWord e with macLatched := v == 1, pred := if e.macLatched = true ∨ v = 1 then (e.pred &&& 7) ||| 8 else e.pred } := by
  have hq : Quiet e := quiet_of_runsOn h he
  have hword := leaves_plain h he (c := .macMode a) rfl (d := 0x3B) ⟨by decide, by decide, by decide⟩ (by decide) (by decide)
  rwa [effects_mode hq] at hword

/-- R364: a write of a register. -/
theorem leaves_register (h : RunsOn s a v) (he : e = (s.ridge a.eng).eng) (hd : RegisterDst d)
    (hwrite : e.writeReg (ridgeKind (s.ridge a.eng).bank) d v = e') : Leaves (.move a d) s a.eng (nextWord e') := by
  have hlt : d < 256 := by unfold RegisterDst at hd; omega
  have hword := leaves_plain h he (c := .move a d) rfl (plainDst_of_registerDst hd) hlt (ne_dmac_of_registerDst hd)
  rwa [effects_registers (by simpa using hd), List.foldl_cons, List.foldl_nil, hwrite] at hword

/-! ### A word of two moves between general registers (R357, R360) -/

theorem source_gp {free x : Nat} (hx : x < 16) : e.source k free (0x08 + x) = e.gp.getD x 0 := by
  unfold Engine.source
  simp only [Bool.and_eq_true, decide_eq_true_eq]
  rw [if_pos (by omega), Nat.add_sub_cancel_left]

theorem registerDst_gp {i : Nat} (hi : i < 16) : RegisterDst (0x08 + i) := by
  unfold RegisterDst
  omega

theorem memSrc_gp {x : Nat} (hx : x < 16) : memSrc (.sock (0x08 + x)) = none := by
  simp only [memSrc, Bool.and_eq_true, decide_eq_true_eq]
  exact if_neg (by omega)

theorem acts_twoMoves {m m' : KMove} (hg : guardHolds e.preds m.guard = true) (hg' : guardHolds e.preds m'.guard = true) :
    e.acts k { a := m, b := some m' } =
      if loses m m' = true then [⟨m'.src, m'.dst, e.shows k m'.src⟩]
      else [⟨m.src, m.dst, e.shows k m.src⟩, ⟨m'.src, m'.dst, e.shows k m'.src⟩] := by
  by_cases h : loses m m' = true <;> simp [Engine.acts, activeMoves, hg, hg', effective, h]

/-- R357: moves to general registers collide where they write the same one. -/
theorem loses_gp {src' : KSrc} {g' i j : Nat} (hi : i < 16) : loses ⟨g, src, 0x08 + i⟩ ⟨g', src', 0x08 + j⟩ = true ↔ i = j := by
  simp [loses, trigUnit_of_registerDst (registerDst_gp hi)]

/-- R357: of two moves to one register move B is made; otherwise both are, and both read the registers as they stood. -/
theorem effects_twoMoves {g' i j x y : Nat} {fx fy : Word} (hg : guardHolds e.preds g = true) (hg' : guardHolds e.preds g' = true)
    (hi : i < 16) (hj : j < 16) (hx : x < 16) (hy : y < 16) :
    e.effects k (e.acts k { a := ⟨g, .sock (0x08 + x), 0x08 + i⟩, b := some ⟨g', .sock (0x08 + y), 0x08 + j⟩ }) fx fy =
      { e with gp := if i = j then e.gp.set j (e.gp.getD y 0) else (e.gp.set i (e.gp.getD x 0)).set j (e.gp.getD y 0) } := by
  have hx' : e.shows k (.sock (0x08 + x)) = e.gp.getD x 0 := source_gp hx
  have hy' : e.shows k (.sock (0x08 + y)) = e.gp.getD y 0 := source_gp hy
  rw [acts_twoMoves hg hg', hx', hy']
  simp only [loses_gp hi]
  split
  · rw [effects_registers (by simpa using registerDst_gp hj), List.foldl_cons, List.foldl_nil, writeReg_gp hj]
  · rw [effects_registers (by simpa using ⟨registerDst_gp hi, registerDst_gp hj⟩), List.foldl_cons, List.foldl_cons, List.foldl_nil,
      writeReg_gp hi, writeReg_gp hj]

/-- R360: a paired word of two moves between general registers. -/
theorem leaves_twoMoves {m : KMove} {i j x y : Nat} (h : s.Shaped) (hr : a.eng < 6) (hrun : s.engineRuns a.eng = true)
    (he : e = (s.ridge a.eng).eng) (hq : Quiet e) (hother : a.other = some m) (hself : a.selfIsB = false)
    (hok : shortOk ⟨a.op.guard, a.op.src, 0⟩ = true) (hok' : shortOk m = true) (hres : a.reserved < 2)
    (hg : guardHolds e.preds a.op.guard = true) (hg' : guardHolds e.preds m.guard = true) (hsrc : a.op.src = .sock (0x08 + x))
    (hsrc' : m.src = .sock (0x08 + y)) (hdst' : m.dst = 0x08 + j) (hi : i < 16) (hj : j < 16) (hx : x < 16) (hy : y < 16) :
    Leaves (.move a (0x08 + i)) s a.eng (nextWord
      { e with gp := if i = j then e.gp.set j (e.gp.getD y 0) else (e.gp.set i (e.gp.getD x 0)).set j (e.gp.getD y 0) }) := by
  obtain ⟨g', src', d'⟩ := m
  obtain rfl : src' = .sock (0x08 + y) := hsrc'
  obtain rfl : d' = 0x08 + j := hdst'
  obtain ⟨w, hw⟩ : ∃ w : KWord,
      w = { a := ⟨a.op.guard, .sock (0x08 + x), 0x08 + i⟩, b := some ⟨g', .sock (0x08 + y), 0x08 + j⟩ } := ⟨_, rfl⟩
  have hdec : decodeWord (argBits a (0x08 + i)) = w := by
    rw [hw, ← hsrc]
    exact decodeWord_twoMoves hother hself hok hok' (by omega) hres
  have hmoves : ∀ m ∈ activeMoves e w, memSrc m.src = none ∧ RegisterDst m.dst := by
    simpa [hw, activeMoves, hg, hg'] using ⟨⟨memSrc_gp hx, registerDst_gp hi⟩, memSrc_gp hy, registerDst_gp hj⟩
  have hdual : dualOf e (ridgeKind (s.ridge a.eng).bank) s.freeN [] (effective (activeMoves e w)) = [] :=
    dualOf_eq_nil fun m hm => ne_dmac_of_registerDst (hmoves m (mem_effective hm)).2
  refine leaves_of_cycle hr hrun rfl hdec ?_
  subst he
  rw [cycle_plain hq rfl (fun m hm => (hmoves m hm).1) (fun m hm => plainDst_of_registerDst (hmoves m hm).2) hdual,
    Engine.postUnits_nil (h.units_length hr), hw, effects_twoMoves hg hg' hi hj hx hy]

end Sys2Proof.Machine

namespace Sys2Proof.Machine

/-- Settles O58: a word of one move is one cycle of its engine (`cycle_plain`), in which its socket acts alone. -/
theorem knahaArithmetic : Obligations.KnahaArithmetic := by
  unfold Obligations.KnahaArithmetic
  refine ⟨?alu, ?predicate, ?pset, ?mac, ?dmac, fun s a v e h he => leaves_mode h he, ?register, ?pair⟩
  case alu =>
    intro s a v x c e h he hmem
    have halu (d : Nat) (hu : trigUnit d = 1) (hc : exec c s = runWord a.eng (argBits a d) s) (hx : aluOp d e.aluA v = x) :
        Leaves c s a.eng { nextWord e with aluRes := x } := hx ▸ leaves_alu h he hc hu
    simp only [List.mem_cons, Prod.mk.injEq, List.not_mem_nil, or_false] at hmem
    obtain ⟨rfl, rfl⟩ | ⟨rfl, rfl⟩ | ⟨rfl, rfl⟩ | ⟨rfl, rfl⟩ | ⟨rfl, rfl⟩ | ⟨rfl, rfl⟩ | ⟨rfl, rfl⟩ | ⟨rfl, rfl⟩ | ⟨rfl, rfl⟩ | ⟨rfl, rfl⟩ |
      ⟨rfl, rfl⟩ | ⟨rfl, rfl⟩ | ⟨rfl, rfl⟩ | ⟨rfl, rfl⟩ | ⟨rfl, rfl⟩ := hmem
    · exact halu 0x19 rfl rfl rfl
    · exact halu 0x1A rfl rfl rfl
    · exact halu 0x1B rfl rfl rfl
    · exact halu 0x1C rfl rfl rfl
    · exact halu 0x1D rfl rfl rfl
    · exact halu 0x1E rfl rfl rfl
    · exact halu 0x1F rfl rfl rfl
    · exact halu 0x20 rfl rfl rfl
    · exact halu 0x21 rfl rfl rfl
    · exact halu 0x22 rfl rfl rfl
    · exact halu 0x23 rfl rfl rfl
    · exact halu 0x24 rfl rfl rfl
    · exact halu 0x25 rfl rfl rfl
    · exact halu 0x26 rfl rfl (wordOfInt_sat16_abs v)
    · exact halu 0x27 rfl rfl (wordOfInt_sat16_neg v)
  case predicate =>
    intro s a v b c e h he hmem
    have hcmp (d : Nat) (hd : trigUnit d = 2 ∧ d ≠ 0x33) (hc : exec c s = runWord a.eng (argBits a d) s) (hb : cmpOp d e.cmpA v = b) :
        Leaves c s a.eng { nextWord e with pred := setPred e.macLatched e.pred (e.cmpP.toNat % 4) b } :=
      hb ▸ leaves_predicate h he hc hd.1 hd.2
    simp only [List.mem_cons, Prod.mk.injEq, List.not_mem_nil, or_false] at hmem
    obtain ⟨rfl, rfl⟩ | ⟨rfl, rfl⟩ | ⟨rfl, rfl⟩ | ⟨rfl, rfl⟩ | ⟨rfl, rfl⟩ | ⟨rfl, rfl⟩ | ⟨rfl, rfl⟩ | ⟨rfl, rfl⟩ | ⟨rfl, rfl⟩ := hmem
    · exact hcmp 0x2A (by decide) rfl rfl
    · exact hcmp 0x2B (by decide) rfl rfl
    · exact hcmp 0x2C (by decide) rfl rfl
    · exact hcmp 0x2D (by decide) rfl decide_not.symm
    · exact hcmp 0x2E (by decide) rfl rfl
    · exact hcmp 0x2F (by decide) rfl rfl
    · exact hcmp 0x30 (by decide) rfl rfl
    · exact hcmp 0x31 (by decide) rfl rfl
    · exact hcmp 0x32 (by decide) rfl decide_not.symm
  case pset =>
    intro s a v e h he
    refine ⟨_, leaves_pset h he, fun i hi => ?_, ?_⟩
    · rw [getLsbD_pset _ _ _ (by omega), if_neg (by omega)]
    · rw [getLsbD_pset _ _ _ (by decide)]
      simp only [and_true]
  case mac =>
    intro s a v w c e h he hmem
    have hmac (d : Nat) (hd : trigUnit d = 3 ∧ d ≠ 0x38) (hc : exec c s = runWord a.eng (argBits a d) s) (hw : macDo e d v 0 0 = w) :
        Leaves c s a.eng { nextWord e with macPipe := [{ due := e.cyc + 3, what := w }] } := hw ▸ leaves_mac h he hc hd.1 hd.2
    simp only [List.mem_cons, Prod.mk.injEq, List.not_mem_nil, or_false] at hmem
    obtain ⟨rfl, rfl⟩ | ⟨rfl, rfl⟩ | ⟨rfl, rfl⟩ | ⟨rfl, rfl⟩ | ⟨rfl, rfl⟩ := hmem
    · exact hmac 0x35 (by decide) rfl rfl
    · exact hmac 0x36 (by decide) rfl rfl
    · exact hmac 0x37 (by decide) rfl rfl
    · exact hmac 0x39 (by decide) rfl rfl
    · exact hmac 0x3A (by decide) rfl rfl
  case dmac =>
    intro s a v e i j q h he hi hj hq
    rw [hq]
    exact leaves_dmac h he rfl hi hj
  case register =>
    intro s a v e e' d h he hd
    obtain ⟨rfl, rfl⟩ | ⟨i, hi, rfl, rfl⟩ | ⟨rfl, rfl⟩ | ⟨rfl, rfl⟩ | ⟨rfl, rfl⟩ | ⟨rfl, rfl⟩ | ⟨rfl, rfl⟩ | ⟨u, hu, hunit⟩ := hd
    · exact leaves_register h he (by simp [RegisterDst]) rfl
    · exact leaves_register h he (registerDst_gp hi) (writeReg_gp hi)
    · exact leaves_register h he (by simp [RegisterDst]) rfl
    · exact leaves_register h he (by simp [RegisterDst]) rfl
    · exact leaves_register h he (by simp [RegisterDst]) rfl
    · exact leaves_register h he (by simp [RegisterDst]) rfl
    · exact leaves_register h he (by simp [RegisterDst]) rfl
    · have hd : RegisterDst d := by
        unfold RegisterDst
        omega
      refine leaves_register h he hd ?_
      obtain ⟨rfl, rfl⟩ | ⟨hd, rfl⟩ | ⟨hd, rfl⟩ | ⟨hd, rfl⟩ | ⟨hd, rfl⟩ := hunit
      · exact writeReg_ptr hu
      · exact writeReg_field (f := 0) hu (by decide) hd
      · exact writeReg_field (f := 1) hu (by decide) (by omega)
      · exact writeReg_field (f := 2) hu (by decide) (by omega)
      · exact writeReg_field (f := 3) hu (by decide) (by omega)
  case pair =>
    intro s a m e i j x y h hr hrun he hq hother hself hok hok' hres hg hg' hsrc hsrc' hdst' hi hj hx hy
    exact leaves_twoMoves h hr hrun he hq hother hself hok hok' hres hg hg' hsrc hsrc' hdst' hi hj hx hy

end Sys2Proof.Machine
end

section
/-! PROOF. What a cycle of an engine keeps of its register files and data memories. -/
namespace Sys2Proof.Machine

/-- What a part of an engine cycle may do to the register files and the data memories: their sizes and their form are kept. -/
def Engine.Kept (e e' : Engine) : Prop := (e.Shaped → e'.Shaped) ∧ (e.MemOk → e'.MemOk)

variable {e e' d : Engine} {k : KKind} {l : List KAct}

theorem Engine.Kept.refl (e : Engine) : e.Kept e := ⟨id, id⟩

theorem Engine.Kept.trans (h : d.Kept e) (h' : e.Kept e') : d.Kept e' := ⟨h'.1 ∘ h.1, h'.2 ∘ h.2⟩

/-- An engine with the same register files and data memories. -/
theorem Engine.Kept.set (h : d.Kept e) (hx : (e'.gp, e'.units, e'.u, e'.x, e'.y) = (e.gp, e.units, e.u, e.x, e.y)) : d.Kept e' := by
  simp only [Prod.mk.injEq] at hx
  obtain ⟨hg, hn, hu, hx, hy⟩ := hx
  refine h.trans ⟨fun hs => ?_, fun hm => ?_⟩
  · unfold Engine.Shaped
    rw [hg, hn, hu]
    exact hs
  · unfold Engine.MemOk
    rw [hx, hy]
    exact hm

/-- Register files of the old sizes, and the same memories. -/
theorem Engine.Kept.files (h : d.Kept e) (hg : e'.gp.length = e.gp.length) (hn : e.units.length = 8 → e'.units.length = 8)
    (hu : e'.u.length = e.u.length) (hx : (e'.x, e'.y) = (e.x, e.y)) : d.Kept e' := by
  simp only [Prod.mk.injEq] at hx
  obtain ⟨hx, hy⟩ := hx
  refine h.trans ⟨fun ⟨a, b, c⟩ => ⟨hg.trans a, hn b, hu.trans c⟩, fun hm => ?_⟩
  unfold Engine.MemOk
  rw [hx, hy]
  exact hm

/-- The data memories rewritten, from canonical form to canonical form. -/
theorem Engine.Kept.setMem {x y : Cells 16} (hx : cellsWf 0 e.x = true → cellsWf 0 x = true) (hy : cellsWf 0 e.y = true → cellsWf 0 y = true) :
    e.Kept { e with x := x, y := y } :=
  ⟨id, fun ⟨a, b⟩ => ⟨hx a, hy b⟩⟩

theorem Engine.Kept.foldl {α : Type} {f : Engine → α → Engine} {l : List α} (h : d.Kept e) (hf : ∀ e a, Engine.Kept e (f e a)) :
    d.Kept (l.foldl f e) := by
  induction l generalizing e with
  | nil => exact h
  | cons a l ih => exact ih (h.trans (hf e a))

theorem Engine.Kept.land (h : d.Kept e) : d.Kept e.land := by
  have hl : d.Kept ((e.macPipe.filter fun o => decide (o.due ≤ e.cyc)).foldl Engine.landOne e) :=
    h.foldl fun e _ => (Engine.Kept.refl e).set rfl
  exact hl.set rfl

theorem Engine.Kept.repOver (h : d.Kept e) : d.Kept (e.repOver k) := by
  unfold Engine.repOver
  split
  · exact h.set rfl
  · exact h

theorem Engine.Kept.micro {i : Nat} (h : d.Kept e) : d.Kept (e.micro k i) := by
  refine h.files rfl id ?_ rfl
  simp only [Engine.micro]
  split
  · simp
  · rfl

theorem Engine.Kept.custom {n : Nat} {v : Word} (h : d.Kept e) : d.Kept (e.custom k n v) :=
  Engine.Kept.micro (h.files rfl id (by simp) rfl)

theorem Engine.Kept.writeReg {n : Nat} {v : Word} (h : d.Kept e) : d.Kept (e.writeReg k n v) := by
  unfold Engine.writeReg
  split
  · exact h.files (by simp) id rfl rfl
  split
  · exact h.files rfl (fun hn => by simpa using hn) rfl rfl
  split
  · exact h.files rfl (fun hn => by simpa using hn) rfl rfl
  split
  case h_6 | h_7 =>
    split
    · exact h.set rfl
    · exact h
  case h_8 => exact h
  all_goals exact h.set rfl

theorem Engine.Kept.storeSide {e0 : Engine} {b : Bool} (h : d.Kept e) : d.Kept (storeSide e0 k l b e) := by
  unfold Machine.storeSide
  split
  · refine h.trans ⟨fun hs => ?_, fun ⟨hx, hy⟩ => ?_⟩ <;> unfold Machine.storeMem <;> dsimp only <;> split
    · exact hs
    · exact hs
    · exact ⟨cellsWf_write hx (Nat.zero_le _), hy⟩
    · exact ⟨hx, cellsWf_write hy (Nat.zero_le _)⟩
  · exact h

theorem Engine.Kept.compare {t : Nat} {v : Word} (h : d.Kept e) : d.Kept (e.compare t v) := by
  unfold Engine.compare
  split <;> exact h.set rfl

theorem Engine.Kept.trigArith {m : KAct} (h : d.Kept e) : d.Kept (trigArith e m) := by
  unfold Machine.trigArith
  split
  · exact h.set rfl
  · exact h

theorem Engine.Kept.trigCompare {m : KAct} (h : d.Kept e) : d.Kept (trigCompare e m) := by
  unfold Machine.trigCompare
  split
  · exact h.compare
  · exact h

theorem Engine.Kept.customCycle (h : d.Kept e) : d.Kept (customCycle k l e) := by
  unfold Machine.customCycle
  split
  · exact h.custom
  split
  · exact h.micro
  · exact h

theorem Engine.Kept.macCycle {fx fy : Word} (h : d.Kept e) : d.Kept (macCycle l fx fy e) := by
  unfold Machine.macCycle Engine.macTrig
  split
  · split <;> exact h.set rfl
  · exact h

theorem Engine.Kept.modeCycle (h : d.Kept e) : d.Kept (modeCycle l e) := by
  unfold Machine.modeCycle
  split
  · exact h.set rfl
  · exact h

theorem Engine.Kept.irqCycle (h : d.Kept e) : d.Kept (irqCycle k l e) := by
  unfold Machine.irqCycle
  split
  · split
    · exact h.set rfl
    · exact h
  · exact h

theorem Engine.Kept.resumeNow (h : d.Kept e) : d.Kept e.resumeNow := by
  unfold Engine.resumeNow
  split
  · exact h.set rfl
  · exact h

theorem Engine.Kept.slotRep {rep : Option KAct} (h : d.Kept e) : d.Kept (e.slotRep rep) := by
  unfold Engine.slotRep
  split
  · split
    · exact h.set rfl
    · exact h
  · exact h

theorem Engine.Kept.advance (h : d.Kept e) : d.Kept (e.advance k l) := by
  unfold Engine.advance
  dsimp only
  split
  · split <;> exact h.set rfl
  · have hs := Engine.Kept.slotRep (rep := if e.rep.isSome then none else l.find? fun m => trigUnit m.dst == 5)
      (h.set (e' := { e with rep := none, repHold := false, pc := BitVec.ofNat 16 (e.after k) }) rfl)
    split
    · exact hs.set rfl
    split
    · exact hs.set rfl
    split
    · exact hs.set rfl
    split <;> exact hs.set rfl
  · split
    · split <;> exact h.set rfl
    · exact h.set rfl

/-- One word of an engine keeps its register files' sizes and its memories' form. -/
theorem Engine.Kept.cycle {free : Nat} {w : KWord} (h : d.Kept e) : d.Kept (e.cycle k free w).eng := by
  unfold Engine.cycle
  extract_lets a act eff dual reads vals fx fy touched e1 e2 e3 e4 e5 e6 e7
  have ha : d.Kept a := h.repOver.land
  have h1 : d.Kept e1 := ha.files rfl (fun _ => by simp [e1]) rfl rfl
  have h3 : d.Kept e3 := h1.storeSide.storeSide.foldl fun e _ => (Engine.Kept.refl e).writeReg
  have h4 : d.Kept e4 := (h3.foldl fun e _ => (Engine.Kept.refl e).trigArith).customCycle.foldl fun e _ => (Engine.Kept.refl e).trigCompare
  have h5 : d.Kept e5 := h4.macCycle
  have h6 : d.Kept e6 := by
    simp only [e6]
    split
    · exact Engine.Kept.resumeNow (h5.set rfl)
    · exact h5.advance
  exact h6.modeCycle.irqCycle.set rfl

theorem Engine.Kept.idleCycle (h : d.Kept e) : d.Kept (e.idleCycle k) := by
  unfold Engine.idleCycle
  dsimp only
  split
  · exact h.land.micro.set rfl
  · exact h.land.set rfl

theorem Engine.Kept.interrupt {srcs : List IrqSource} {v : Word} (h : d.Kept e) : d.Kept (e.interrupt k srcs v) :=
  h.idleCycle.idleCycle.set rfl

end Sys2Proof.Machine
end
section
/-! PROOF. Each command and operation of a port touches that port and what the ports share. -/
namespace Sys2Proof.Machine

section
variable {p : Nat} {s t u : State}

theorem OnlyPort.ifThen {c : Prop} [Decidable c] {a b : State} (h : OnlyPort p s b) (k : OnlyPort p s b → OnlyPort p s a) :
    OnlyPort p s (if c then a else b) :=
  (k h).ite h

theorem OnlyPort.ifElse {c : Prop} [Decidable c] {a b : State} (h : OnlyPort p s a) (k : OnlyPort p s a → OnlyPort p s b) :
    OnlyPort p s (if c then a else b) :=
  h.ite (k h)

/-- The parts of the state that all blocks share, written by a port's command. -/
theorem OnlyPort.shared (h : OnlyPort p s t)
    (e : u = { t with faultN := u.faultN, attn := u.attn, irq := u.irq, events := u.events, host := u.host, tun := u.tun, tester := u.tester }) :
    OnlyPort p s u := by
  refine h.trans ⟨?_, by rw [e], fun q _ => by rw [e]; rfl⟩
  rw [e]

theorem OnlyPort.policyRow {i : Instr} {go : State → State} (h : OnlyPort p s t) (k : OnlyPort p s (go t)) : OnlyPort p s (t.policyRow p i go) :=
  (h.updPd _).ite k

theorem OnlyPort.restRow {i : Instr} {go : State → State} (h : OnlyPort p s t) (k : OnlyPort p s (go t)) : OnlyPort p s (t.restRow p i go) :=
  (h.updPd _).ite k

end

section
variable {p : Nat} {s t u : State}

theorem OnlyPort.forgetPeer (h : OnlyPort p s t) : OnlyPort p s (t.forgetPeer p) :=
  h.updPort _

theorem OnlyPort.enablePort (h : OnlyPort p s t) : OnlyPort p s (t.enablePort p) :=
  OnlyPort.ite h.home h

theorem OnlyPort.ccSniff {seen} (h : OnlyPort p s t) : OnlyPort p s (ccSniff p seen t) :=
  OnlyPort.ite (h.updCc _) h

theorem OnlyPort.toggleSourceEnd (h : OnlyPort p s t) : OnlyPort p s (toggleSourceEnd p t) :=
  OnlyPort.ite (h.updCc _) h

theorem OnlyPort.toggleSinkEnd (h : OnlyPort p s t) : OnlyPort p s (toggleSinkEnd p t) :=
  OnlyPort.ite (h.updCc _) h

theorem OnlyPort.freshAttach (h : OnlyPort p s t) : OnlyPort p s (freshAttach t p) :=
  (h.updPort _).updPath _

theorem OnlyPort.startPd (h : OnlyPort p s t) : OnlyPort p s (startPd t p) := by
  unfold Machine.startPd
  exact (h.updPd _).updVc _

theorem OnlyPort.attachSource (h : OnlyPort p s t) : OnlyPort p s (attachSource t p) :=
  ((((((h.freshAttach.updCc _).ifThen fun k0 => k0.vconnOn).updSw _).updPd _).ifThen fun k0 => k0.startPd).countUp _).pushEvent _ _ _

theorem OnlyPort.attachDebounceSrc (h : OnlyPort p s t) : OnlyPort p s (attachDebounceSrc p t) :=
  OnlyPort.ite (OnlyPort.ite (h.updCc _) h.attachSource) h

theorem OnlyPort.attachDebounceSnk (h : OnlyPort p s t) : OnlyPort p s (attachDebounceSnk p t) :=
  OnlyPort.ite (((((h.freshAttach.updCc _).updPd _).ifElse fun k0 => k0.updPath _).countUp _).pushEvent _ _ _) h

theorem OnlyPort.attachwaitTimeout (h : OnlyPort p s t) : OnlyPort p s (attachwaitTimeout p t) :=
  OnlyPort.ite h.home h

theorem OnlyPort.unexpectedVbus (h : OnlyPort p s t) : OnlyPort p s (unexpectedVbus p t) := by
  unfold Machine.unexpectedVbus
  dsimp only
  split
  · exact OnlyPort.ite ((h.updCc _).raiseCc _) h
  · exact h

theorem OnlyPort.portSwitchClose (h : OnlyPort p s t) : OnlyPort p s (portSwitchClose p t) :=
  OnlyPort.ite (h.updPath _) h

theorem OnlyPort.vbusStartCheck (h : OnlyPort p s t) : OnlyPort p s (vbusStartCheck p t) :=
  OnlyPort.ite (OnlyPort.ite (h.updCc _) ((h.raiseCc _).errorRecovery _)) h

theorem OnlyPort.errorRecoveryEnd (h : OnlyPort p s t) : OnlyPort p s (errorRecoveryEnd p t) :=
  OnlyPort.ite h.home h

theorem OnlyPort.goHome (h : OnlyPort p s t) : OnlyPort p s (goHome t p) :=
  ((h.updPort _).returnNode _ _).home

theorem OnlyPort.leaveAttached (h : OnlyPort p s t) : OnlyPort p s (leaveAttached t p) :=
  (h.openPort _).goHome

theorem OnlyPort.leaveSink (h : OnlyPort p s t) : OnlyPort p s (leaveSink t p) :=
  ((((h.attachOver _ _).updPd _).updPath _).vconnOff).goHome

theorem OnlyPort.sinkVbusLoss (h : OnlyPort p s t) : OnlyPort p s (sinkVbusLoss p t) :=
  OnlyPort.ite h.leaveSink h

theorem OnlyPort.detachQualified {route : _} (h : OnlyPort p s t) : OnlyPort p s (detachQualified t p route) := by
  unfold Machine.detachQualified
  exact ((h.attachOver _ _).updCc _).updPath _

theorem OnlyPort.detachByDebounce (h : OnlyPort p s t) : OnlyPort p s (detachByDebounce p t) := by
  unfold Machine.detachByDebounce
  dsimp only
  split
  · exact OnlyPort.ite h.detachQualified h
  · exact h

theorem OnlyPort.detachByCurrent (h : OnlyPort p s t) : OnlyPort p s (detachByCurrent p t) :=
  OnlyPort.ite (h.detachQualified.countUp _) h

theorem OnlyPort.detachSwitchOpen (h : OnlyPort p s t) : OnlyPort p s (detachSwitchOpen p t) :=
  OnlyPort.ite h.leaveAttached h

theorem OnlyPort.vbusDischargeComplete (h : OnlyPort p s t) : OnlyPort p s (vbusDischargeComplete p t) :=
  OnlyPort.ite (h.updCc _) h

theorem OnlyPort.vbusDischargeTimeout (h : OnlyPort p s t) : OnlyPort p s (vbusDischargeTimeout p t) :=
  OnlyPort.ite (OnlyPort.raiseCc (OnlyPort.updCc (OnlyPort.ite (h.disablePort _ _) h) _) _) h

theorem OnlyPort.vconnSwapGood {goodCrc} (h : OnlyPort p s t) : OnlyPort p s (vconnSwapGood t p goodCrc) :=
  OnlyPort.ite h (OnlyPort.ite (h.updPd _) (OnlyPort.ite (OnlyPort.ite (((((h.updSw _).send _).swapDone).seqOver).rewait)
    (((h.updSw _).send _).hardReset _ _)) h))

theorem OnlyPort.vconnGood {goodCrc} (h : OnlyPort p s t) : OnlyPort p s (vconnGood p goodCrc t) := by
  unfold Machine.vconnGood
  dsimp only
  split
  · exact OnlyPort.ite (OnlyPort.vconnSwapGood (OnlyPort.ite h (h.updVc _))) h
  · exact h

theorem OnlyPort.vconnTrip {bit} (h : OnlyPort p s t) : OnlyPort p s (vconnTrip t p bit) :=
  (h.vconnLose _).countUp _

theorem OnlyPort.vconnFaultTimerTrip (h : OnlyPort p s t) : OnlyPort p s (vconnFaultTimerTrip p t) := by
  unfold Machine.vconnFaultTimerTrip
  split
  · exact OnlyPort.ite h.vconnTrip h
  · exact h

theorem OnlyPort.vconnHardTrip (h : OnlyPort p s t) : OnlyPort p s (vconnHardTrip p t) :=
  OnlyPort.ite h.vconnTrip h

theorem OnlyPort.vconnReverseBlock (h : OnlyPort p s t) : OnlyPort p s (vconnReverseBlock p t) :=
  OnlyPort.ite h.vconnTrip h

theorem OnlyPort.vconnSupplyLoss (h : OnlyPort p s t) : OnlyPort p s (vconnSupplyLoss p t) :=
  OnlyPort.ite (h.vconnLose _) h

theorem OnlyPort.vconnDischargeEnd (h : OnlyPort p s t) : OnlyPort p s (vconnDischargeEnd p t) :=
  OnlyPort.ite (h.updVc _) h

theorem OnlyPort.passiveRdTakeover (h : OnlyPort p s t) : OnlyPort p s (passiveRdTakeover p t) :=
  OnlyPort.ite (OnlyPort.ite (h.updCc _) (OnlyPort.ite ((h.updPort _).updCc _) h)) h

theorem OnlyPort.attachModeChange (h : OnlyPort p s t) : OnlyPort p s (attachModeChange p t) :=
  OnlyPort.ite (OnlyPort.ite ((h.updCc _).ifElse fun k0 => k0.disablePort _ _)
    (by split; exacts [(h.updCc _).ifThen fun k0 => k0.home, (h.updCc _).home, (h.updCc _).home, (h.updCc _).home, (h.updCc _).home, h.updCc _])) h

theorem OnlyPort.prSwapDone {goodCrc} (h : OnlyPort p s t) : OnlyPort p s (prSwapDone t p goodCrc) :=
  OnlyPort.ite h (OnlyPort.ite (h.updPd _) (OnlyPort.ite (OnlyPort.ite (((h.updSw _).send _).hardReset _ _)
    ((((h.updSw _).send _).swapDone).updPd _)) h))

theorem OnlyPort.portCloseComplete {goodCrc} (h : OnlyPort p s t) : OnlyPort p s (portCloseComplete p goodCrc t) :=
  OnlyPort.ite ((h.updPath _).prSwapDone) (OnlyPort.ite h.prSwapDone h)

theorem OnlyPort.portCloseTimeout (h : OnlyPort p s t) : OnlyPort p s (portCloseTimeout p t) :=
  OnlyPort.ite (h.portTrip _) h

theorem OnlyPort.portFaultTimerTrip (h : OnlyPort p s t) : OnlyPort p s (portFaultTimerTrip p t) :=
  OnlyPort.ite (h.portTrip _) h

theorem OnlyPort.portFaultTimerReset (h : OnlyPort p s t) : OnlyPort p s (portFaultTimerReset p t) :=
  OnlyPort.ite (h.updPath _) h

theorem OnlyPort.portFastTrip {ma} (h : OnlyPort p s t) : OnlyPort p s (portFastTrip p ma t) :=
  OnlyPort.ite (h.portTrip _) h

theorem OnlyPort.portReverseBlock {ma} (h : OnlyPort p s t) : OnlyPort p s (portReverseBlock p ma t) :=
  OnlyPort.ite (h.portTrip _) h

theorem OnlyPort.portOvervoltage (h : OnlyPort p s t) : OnlyPort p s (portOvervoltage p t) :=
  OnlyPort.ite (h.portTrip _) h

theorem OnlyPort.portTripCountClear (h : OnlyPort p s t) : OnlyPort p s (portTripCountClear p t) :=
  OnlyPort.ite (h.updPath _) h

theorem OnlyPort.derive (h : OnlyPort p s t) : OnlyPort p s (t.derive p) := by
  unfold State.derive
  exact h.updPd _

theorem OnlyPort.offerDerive (h : OnlyPort p s t) : OnlyPort p s (offerDerive t p) :=
  OnlyPort.ite (OnlyPort.ifThen (OnlyPort.derive (OnlyPort.ite h ((h.updCc _).updPd _))) fun k0 => k0.rewait.ifElse fun k1 =>
    (k1.updPd _).ifThen fun k2 => k2.waitTx) h

theorem OnlyPort.ppsFrame (h : OnlyPort p s t) : OnlyPort p s (ppsFrame t p) :=
  (h.updPd _).ifThen fun k0 => k0.countUp _

theorem OnlyPort.capsSent (h : OnlyPort p s t) : OnlyPort p s (capsSent t p) := by
  unfold Machine.capsSent
  exact h.updPd _

theorem OnlyPort.capsSend {goodCrc} (h : OnlyPort p s t) : OnlyPort p s (capsSend t p goodCrc) :=
  OnlyPort.ite (((h.send _).countUp _).capsSent) (OnlyPort.ite (((h.send _).countUp _).hardReset _ _)
    (OnlyPort.ite (((h.send _).countUp _).updPd _) (((h.send _).countUp _).updPd _)))

theorem OnlyPort.sourceCapSend {goodCrc} (h : OnlyPort p s t) : OnlyPort p s (sourceCapSend p goodCrc t) :=
  OnlyPort.ite (h.startSeq _ fun _ => (OnlyPort.refl p _).capsSend) h

theorem OnlyPort.sourceCapRepeat {goodCrc} (h : OnlyPort p s t) : OnlyPort p s (sourceCapRepeat p goodCrc t) :=
  OnlyPort.ite h.capsSend h

theorem OnlyPort.collisionWaitExpiry (h : OnlyPort p s t) : OnlyPort p s (collisionWaitExpiry p t) :=
  OnlyPort.ite (h.updPd _) h

theorem OnlyPort.cableDiscoverAttempt (h : OnlyPort p s t) : OnlyPort p s (cableDiscoverAttempt p t) :=
  OnlyPort.ite ((h.updVc _).send _) h

theorem OnlyPort.eprDecide (h : OnlyPort p s t) : OnlyPort p s (eprDecide t p) :=
  OnlyPort.ite (OnlyPort.ite (((((h.updVc _).updPd _).derive).send _).countUp _) (((h.updVc _).updPd _).send _)) h

theorem OnlyPort.cableRecord {g : _} (h : OnlyPort p s t) : OnlyPort p s (cableRecord t p g) := by
  unfold Machine.cableRecord
  exact (h.updVc _).updPd _

theorem OnlyPort.cableIdentityResponse {c} (h : OnlyPort p s t) : OnlyPort p s (cableIdentityResponse p c t) :=
  OnlyPort.ite (h.cableRecord.eprDecide.finishWait _ _ _) h

theorem OnlyPort.attemptFailed (h : OnlyPort p s t) : OnlyPort p s (attemptFailed t p) :=
  h.cableRecord.eprDecide.finishWait _ _ _

theorem OnlyPort.swapUnsent (h : OnlyPort p s t) : OnlyPort p s (swapUnsent t p) :=
  OnlyPort.ite (((h.updSw _).updCc _).finishWait _ _ _) h

theorem OnlyPort.goodcrcRetryFail {sopPrime} (h : OnlyPort p s t) : OnlyPort p s (goodcrcRetryFail p sopPrime t) :=
  OnlyPort.ite (OnlyPort.ite h.attemptFailed h) (OnlyPort.ite (h.swapUnsent.hardReset _ _) h)

theorem OnlyPort.senderResponseTimeout {sopPrime} (h : OnlyPort p s t) : OnlyPort p s (senderResponseTimeout p sopPrime t) :=
  OnlyPort.ite (OnlyPort.ite h.attemptFailed h) (OnlyPort.ite (h.hardReset _ _) h)

theorem OnlyPort.protoError (h : OnlyPort p s t) : OnlyPort p s (protoError t p) :=
  OnlyPort.ite h (((((h.swapFail _).countUp _).updVc _).updPd _).send _)

theorem OnlyPort.protocolError (h : OnlyPort p s t) : OnlyPort p s (protocolError p t) :=
  OnlyPort.ite h.heard.protoError h

theorem OnlyPort.softResetTimeout (h : OnlyPort p s t) : OnlyPort p s (softResetTimeout p t) :=
  OnlyPort.ite (h.hardReset _ _) h

theorem OnlyPort.softResetReceived (h : OnlyPort p s t) : OnlyPort p s (softResetReceived p t) :=
  OnlyPort.ite ((((h.swapFail _).countUp _).updPd _).send _) h

theorem OnlyPort.acceptRequest {q c} (h : OnlyPort p s t) : OnlyPort p s (acceptRequest t p q c) :=
  ((h.updPd _).ifThen fun k0 => k0.updPath _).send _

theorem OnlyPort.rejectRequest {check} (h : OnlyPort p s t) : OnlyPort p s (rejectRequest t p check) :=
  OnlyPort.ite (((((h.countUp _).send _).seqOver).updPd _).hardReset _ _) (((((h.countUp _).send _).seqOver).updPd _).ifThen fun k0 => k0.waitTx)

theorem OnlyPort.requestReceived {q} (h : OnlyPort p s t) : OnlyPort p s (requestReceived p q t) :=
  OnlyPort.ite ((h.sinkSpoke.updPd _).ifElse fun k0 => OnlyPort.ite (k0.send _)
    (OnlyPort.ite k0.protoError (by split; exacts [k0.acceptRequest, k0.rejectRequest]))) h

theorem OnlyPort.transitionStart (h : OnlyPort p s t) : OnlyPort p s (transitionStart p t) := by
  unfold Machine.transitionStart
  dsimp only
  split
  · exact OnlyPort.ite ((h.updPd _).updPath _) h
  · exact h

theorem OnlyPort.firstContractDone (h : OnlyPort p s t) : OnlyPort p s (firstContractDone t p) :=
  OnlyPort.ite h (((h.updPd _).ifThen fun k0 => k0.updDc _).updVc _)

theorem OnlyPort.transitionSettled (h : OnlyPort p s t) : OnlyPort p s (transitionSettled p t) := by
  unfold Machine.transitionSettled
  dsimp only
  split
  · exact OnlyPort.ite (((((((h.updPd _).updPath _).send _).seqOver).rewait).firstContractDone).pushEvent _ _ _) h
  · exact h

theorem OnlyPort.phasesNotPlacedTimeout (h : OnlyPort p s t) : OnlyPort p s (phasesNotPlacedTimeout p t) := by
  unfold Machine.phasesNotPlacedTimeout
  dsimp only
  split
  · exact OnlyPort.ite (h.hardReset _ _) h
  · exact h

theorem OnlyPort.ppsTimeout (h : OnlyPort p s t) : OnlyPort p s (ppsTimeout p t) :=
  OnlyPort.ite (h.hardReset _ _) h

theorem OnlyPort.eprModeEnter (h : OnlyPort p s t) : OnlyPort p s (eprModeEnter p t) :=
  OnlyPort.ite (OnlyPort.ite h.sinkSpoke.protoError (by split; exacts [h.sinkSpoke.send _, ((h.sinkSpoke.updPd _).updVc _).send _])) h

theorem OnlyPort.eprKeepalive (h : OnlyPort p s t) : OnlyPort p s (eprKeepalive p t) :=
  OnlyPort.ite (OnlyPort.ite (h.sinkSpoke.send _) h.sinkSpoke.protoError) h

theorem OnlyPort.eprKeepaliveTimeout (h : OnlyPort p s t) : OnlyPort p s (eprKeepaliveTimeout p t) :=
  OnlyPort.ite (h.hardReset _ _) h

theorem OnlyPort.leaveEpr (h : OnlyPort p s t) : OnlyPort p s (leaveEpr t p) :=
  (h.updPd _).derive

theorem OnlyPort.eprModeExit (h : OnlyPort p s t) : OnlyPort p s (eprModeExit p t) :=
  OnlyPort.ite (OnlyPort.ite h.sinkSpoke.leaveEpr h.sinkSpoke.protoError) h

theorem OnlyPort.eprExitCaps (h : OnlyPort p s t) : OnlyPort p s (eprExitCaps t p) :=
  ((h.derive.send _).countUp _).capsSent

theorem OnlyPort.eprPartExit (h : OnlyPort p s t) : OnlyPort p s (eprPartExit p t) :=
  OnlyPort.ite (OnlyPort.ite (h.startSeq _ fun _ => (((OnlyPort.refl p _).updPd _).send _).seqOver)
    (OnlyPort.ite (h.startSeq _ fun _ => (OnlyPort.refl p _).eprExitCaps) h)) h

theorem OnlyPort.eprEnClear (h : OnlyPort p s t) : OnlyPort p s (eprEnClear p t) :=
  OnlyPort.ite (h.startSeq _ fun _ => (OnlyPort.refl p _).eprExitCaps) h

theorem OnlyPort.loweredCapsTimeout (h : OnlyPort p s t) : OnlyPort p s (loweredCapsTimeout p t) :=
  OnlyPort.ite (h.hardReset _ _) h

theorem OnlyPort.answer {m} (h : OnlyPort p s t) : OnlyPort p s (answer t p m) :=
  OnlyPort.ite (h.sinkSpoke.send _) h.sinkSpoke.protoError

theorem OnlyPort.getSourceCap (h : OnlyPort p s t) : OnlyPort p s (getSourceCap p t) :=
  OnlyPort.ite (OnlyPort.ite (h.answer.capsSent.countUp _) h.answer) (OnlyPort.ite h.answer h)

theorem OnlyPort.getSinkCap (h : OnlyPort p s t) : OnlyPort p s (getSinkCap p t) :=
  OnlyPort.ite h.answer h

theorem OnlyPort.getSourceCapExtended (h : OnlyPort p s t) : OnlyPort p s (getSourceCapExtended p t) :=
  OnlyPort.ite h.answer h

theorem OnlyPort.getStatus (h : OnlyPort p s t) : OnlyPort p s (getStatus p t) :=
  OnlyPort.ite h.answer h

theorem OnlyPort.getPpsStatus (h : OnlyPort p s t) : OnlyPort p s (getPpsStatus p t) :=
  OnlyPort.ite h.answer h

theorem OnlyPort.getSourceInfo (h : OnlyPort p s t) : OnlyPort p s (getSourceInfo p t) :=
  OnlyPort.ite h.answer h

theorem OnlyPort.getRevision (h : OnlyPort p s t) : OnlyPort p s (getRevision p t) :=
  OnlyPort.ite h.answer h

theorem OnlyPort.alertReceived {ado} (h : OnlyPort p s t) : OnlyPort p s (alertReceived p ado t) :=
  OnlyPort.ite (h.sinkSpoke.pushEvent _ _ _) h

theorem OnlyPort.unsupportedRequest (h : OnlyPort p s t) : OnlyPort p s (unsupportedRequest p t) :=
  OnlyPort.ite h.answer h

theorem OnlyPort.hardResetReceived (h : OnlyPort p s t) : OnlyPort p s (hardResetReceived p t) :=
  OnlyPort.ite (h.hardReset _ _) h

theorem OnlyPort.hardResetTakedown (h : OnlyPort p s t) : OnlyPort p s (hardResetTakedown p t) :=
  OnlyPort.ite ((h.updPd _).updPath _) h

theorem OnlyPort.hardResetRecover (h : OnlyPort p s t) : OnlyPort p s (hardResetRecover p t) :=
  OnlyPort.ite ((((((h.updPath _).updPd _).updCc _).ifThen fun k0 => k0.vconnOn).updSw _).startPd) h

theorem OnlyPort.lossOfConversion (h : OnlyPort p s t) : OnlyPort p s (lossOfConversion p t) :=
  OnlyPort.ite (by split; exacts [h, h, h.updCc _, h.loseConversion]) h

theorem OnlyPort.outOfServiceReturn (h : OnlyPort p s t) : OnlyPort p s (outOfServiceReturn p t) :=
  OnlyPort.ite ((h.updCc _).home) h

theorem OnlyPort.holdMessageAnswer {keepAlive} (h : OnlyPort p s t) : OnlyPort p s (holdMessageAnswer p keepAlive t) :=
  OnlyPort.ite (OnlyPort.ite (OnlyPort.ite ((h.updPd _).send _) h) ((h.updPd _).send _)) h

theorem OnlyPort.holdHardReset (h : OnlyPort p s t) : OnlyPort p s (holdHardReset p t) :=
  OnlyPort.ite ((((h.updPath _).discharge _).countUp _).updPd _) h

theorem OnlyPort.sinkSourceCapReceived {objs} (h : OnlyPort p s t) : OnlyPort p s (sinkSourceCapReceived p objs t) :=
  OnlyPort.ite (OnlyPort.ite ((h.updPd _).send _) (by split; exacts [(h.updPd _).send _, h])) h

theorem OnlyPort.sinkAcceptReceived {psRdy} (h : OnlyPort p s t) : OnlyPort p s (sinkAcceptReceived p psRdy t) :=
  OnlyPort.ite (OnlyPort.ite (OnlyPort.ite h.heard (h.updPd _)) (OnlyPort.ite
    (by split; exacts [((h.updPd _).firstContractDone).pushEvent _ _ _, h]) (by split; exacts [h.updPd _, h]))) h

theorem OnlyPort.sinkVbusCheckTimeout (h : OnlyPort p s t) : OnlyPort p s (sinkVbusCheckTimeout p t) :=
  OnlyPort.ite (OnlyPort.ite (h.updPd _) (h.hardReset _ _)) h

theorem OnlyPort.overdrawTypecEnd (h : OnlyPort p s t) : OnlyPort p s (overdrawTypecEnd p t) :=
  OnlyPort.ite (h.updPd _) h

theorem OnlyPort.shedPort (h : OnlyPort p s t) : OnlyPort p s (t.shedPort p) :=
  h.updPath _

theorem OnlyPort.returnEnds (h : OnlyPort p s t) : OnlyPort p s (returnEnds t p) :=
  (h.updPath _).ifElse fun k0 => OnlyPort.ite (k0.updPd _) h

theorem OnlyPort.portPace {m} (h : OnlyPort p s t) : OnlyPort p s (portPace m p t) :=
  ((((((h.updPath _).ifThen fun k0 => k0.countUp _).ifThen fun k0 => k0.updPath _).updCc _).updVc _).updPd _).returnEnds

theorem OnlyPort.beginSwap {kd mine step} (h : OnlyPort p s t) : OnlyPort p s (beginSwap t p kd mine step) :=
  (h.updSw _).updPd _

theorem OnlyPort.prSwapSend (h : OnlyPort p s t) : OnlyPort p s (prSwapSend p t) :=
  OnlyPort.ite ((h.beginSwap.updCc _).send _) h

theorem OnlyPort.prSwapOff (h : OnlyPort p s t) : OnlyPort p s (prSwapOff t p) := by
  unfold Machine.prSwapOff
  exact ((h.updSw _).updPd _).updPath _

theorem OnlyPort.prSwapAccept (h : OnlyPort p s t) : OnlyPort p s (prSwapAccept p t) :=
  OnlyPort.ite h.heard.prSwapOff h

theorem OnlyPort.prSwapPsRdy (h : OnlyPort p s t) : OnlyPort p s (prSwapPsRdy p t) :=
  OnlyPort.ite (h.heard.updSw _) h

theorem OnlyPort.prSwapConfirm (h : OnlyPort p s t) : OnlyPort p s (prSwapConfirm t p) :=
  OnlyPort.ite (((h.updSw _).updCc _).updPd _) h

theorem OnlyPort.swapToRecovery (h : OnlyPort p s t) : OnlyPort p s (swapToRecovery t p) :=
  (h.swapFail _).errorRecovery _

theorem OnlyPort.prSwapSourceOffTimeout (h : OnlyPort p s t) : OnlyPort p s (prSwapSourceOffTimeout p t) :=
  OnlyPort.ite h.swapToRecovery h

theorem OnlyPort.prSwapVbusConfirmTimeout (h : OnlyPort p s t) : OnlyPort p s (prSwapVbusConfirmTimeout p t) :=
  OnlyPort.ite h.swapToRecovery h

theorem OnlyPort.prSwapReceived (h : OnlyPort p s t) : OnlyPort p s (prSwapReceived p t) :=
  OnlyPort.ite (OnlyPort.ite h.sinkSpoke.protoError (OnlyPort.ite (h.sinkSpoke.send _)
    (OnlyPort.ite (h.sinkSpoke.send _) (OnlyPort.ite (h.sinkSpoke.send _)
    (OnlyPort.ite ((h.sinkSpoke.updCc _).send _) (h.sinkSpoke.beginSwap.prSwapOff.send _)))))) h

theorem OnlyPort.drComplete (h : OnlyPort p s t) : OnlyPort p s (drComplete t p) :=
  OnlyPort.ite (((((h.setDfp _).swapDone).updDc _).finishWait _ _ _).ifThen fun k0 => k0.updDc _)
    (((((h.setDfp _).swapDone).updDc _).finishWait _ _ _).discEnd _)

theorem OnlyPort.drSwapReceived {goodCrc} (h : OnlyPort p s t) : OnlyPort p s (drSwapReceived p goodCrc t) :=
  OnlyPort.ite (OnlyPort.ite h.sinkSpoke.protoError (OnlyPort.ite (h.sinkSpoke.send _)
    (OnlyPort.ite (h.sinkSpoke.beginSwap.hardReset _ _) (OnlyPort.ite (h.sinkSpoke.send _)
    (OnlyPort.ite (((h.sinkSpoke.beginSwap.send _).drComplete).rewait) ((h.sinkSpoke.beginSwap.send _).hardReset _ _)))))) h

theorem OnlyPort.drSwapStart (h : OnlyPort p s t) : OnlyPort p s (drSwapStart t p) :=
  (h.beginSwap.updSw _).send _

theorem OnlyPort.drSwapFrame (h : OnlyPort p s t) : OnlyPort p s (drSwapFrame t p) :=
  OnlyPort.ite (h.startSeq _ fun _ => (OnlyPort.refl p _).drSwapStart) h

theorem OnlyPort.vconnSwapSend (h : OnlyPort p s t) : OnlyPort p s (vconnSwapSend p t) :=
  OnlyPort.ite (h.startSeq _ fun _ => (((OnlyPort.refl p _).beginSwap).updSw _).send _) h

theorem OnlyPort.vconnSwapTake (h : OnlyPort p s t) : OnlyPort p s (vconnSwapTake t p) :=
  h.vconnOn.updSw _

theorem OnlyPort.vconnSwapReceived (h : OnlyPort p s t) : OnlyPort p s (vconnSwapReceived p t) :=
  OnlyPort.ite (OnlyPort.ite h.sinkSpoke.protoError ((h.sinkSpoke.send _).ifElse fun k0 => (h.sinkSpoke.send _).ifElse fun k1 =>
    OnlyPort.ite (OnlyPort.ite k1 (h.sinkSpoke.beginSwap.send _)) (OnlyPort.ite k0 (h.sinkSpoke.beginSwap.vconnSwapTake.send _)))) h

theorem OnlyPort.vconnSwapPartnerPsRdy (h : OnlyPort p s t) : OnlyPort p s (vconnSwapPartnerPsRdy p t) :=
  OnlyPort.ite h.heard.vconnOff.swapDone.rewait h

theorem OnlyPort.vconnSourceTimeout (h : OnlyPort p s t) : OnlyPort p s (vconnSourceTimeout p t) :=
  OnlyPort.ite (OnlyPort.hardReset (OnlyPort.ite h.vconnOff h) _ _) h

theorem OnlyPort.swapResponseTimeout (h : OnlyPort p s t) : OnlyPort p s (swapResponseTimeout p t) :=
  OnlyPort.ite ((h.swapFail _).seqOver) h

theorem OnlyPort.swapReplyReceived {r} (h : OnlyPort p s t) : OnlyPort p s (swapReplyReceived p r t) :=
  OnlyPort.ite (OnlyPort.ite ((h.heard.updPd _).seqOver) (h.heard.ifThen fun k0 =>
    by split; exacts [by split; exacts [k0.drComplete.seqOver, k0.vconnSwapTake, k0], (k0.swapFail _).seqOver])) h

theorem OnlyPort.swapSuppressionEnd {kd} (h : OnlyPort p s t) : OnlyPort p s (swapSuppressionEnd p kd t) := by
  unfold Machine.swapSuppressionEnd
  dsimp only
  split <;> exact OnlyPort.ite (h.updSw _) h

theorem OnlyPort.sinkVbusRestoreTimeout (h : OnlyPort p s t) : OnlyPort p s (sinkVbusRestoreTimeout p t) :=
  OnlyPort.ite (OnlyPort.ite h.leaveSink (h.updPd _)) h

theorem OnlyPort.sendStep {st} (h : OnlyPort p s t) : OnlyPort p s (sendStep t p st) :=
  (h.updDc _).send _

theorem OnlyPort.sendEnter {t'} (h : OnlyPort p s t) : OnlyPort p s (sendEnter t p t') :=
  (h.updDc _).send _

theorem OnlyPort.tableWalk (h : OnlyPort p s t) : OnlyPort p s (tableWalk t p) :=
  OnlyPort.ite h (by split; exacts [OnlyPort.ite ((h.updDc _).sendEnter) ((h.updDc _).waitTx), h.updDc _])

theorem OnlyPort.discComplete (h : OnlyPort p s t) : OnlyPort p s (discComplete t p) :=
  ((h.discEnd _).updDc _).tableWalk

theorem OnlyPort.nextStep {st} (h : OnlyPort p s t) : OnlyPort p s (nextStep t p st) :=
  OnlyPort.ite ((h.updDc _).sendStep) ((h.updDc _).waitTx)

theorem OnlyPort.modesOrEnd {i} (h : OnlyPort p s t) : OnlyPort p s (modesOrEnd t p i) :=
  OnlyPort.ite h.nextStep h.discComplete

theorem OnlyPort.discAck {st vdos} (h : OnlyPort p s t) : OnlyPort p s (discAck t p st vdos) := by
  unfold Machine.discAck
  split
  · exact (h.updDc _).nextStep
  · exact OnlyPort.ite ((h.updDc _).nextStep) ((h.updDc _).modesOrEnd)
  · exact (h.updDc _).modesOrEnd

theorem OnlyPort.discNak {st} (h : OnlyPort p s t) : OnlyPort p s (discNak t p st) := by
  unfold Machine.discNak
  split
  · exact h.discEnd _
  · exact (h.updDc _).discComplete
  · exact (h.updDc _).modesOrEnd

theorem OnlyPort.discBusy (h : OnlyPort p s t) : OnlyPort p s (discBusy t p) :=
  OnlyPort.ite (h.updDc _) (h.discEnd _)

theorem OnlyPort.enterAck {t'} (h : OnlyPort p s t) : OnlyPort p s (enterAck t p t') :=
  ((h.updDc _).pushEvent _ _ _).finishWait _ _ _

theorem OnlyPort.enterFail {t' why} (h : OnlyPort p s t) : OnlyPort p s (enterFail t p t' why) :=
  OnlyPort.ite ((h.updDc _).tableWalk) ((h.updDc _).finishWait _ _ _)

theorem OnlyPort.exitDone (h : OnlyPort p s t) : OnlyPort p s (exitDone t p) :=
  (((h.modeEnd _).updDc _).finishWait _ _ _).ifThen fun k0 => (k0.updSw _).drSwapFrame

theorem OnlyPort.vdmResult {res hdr vdos} (h : OnlyPort p s t) : OnlyPort p s (vdmResult t p res hdr vdos) :=
  (h.updDc _).pushEvent _ _ _

theorem OnlyPort.vdmResponse {k : VdmAck} {v10 : Bool} {vdos : List Word32} (h : OnlyPort p s t) :
    OnlyPort p s (vdmResponse p k v10 vdos t) := by
  unfold Machine.vdmResponse
  extract_lets a d b
  have ka : OnlyPort p s a := h.heard.seqOver
  have kb : OnlyPort p s b := ka.updDc _
  refine OnlyPort.ite ?_ h
  split
  · refine OnlyPort.ite ?_ ka
    split
    · exact kb.discAck
    · exact kb.discNak
    · exact kb.discBusy
  · refine OnlyPort.ite ?_ ka
    split
    · exact ka.enterAck
    · exact ka.enterFail
    · exact ka
  · exact OnlyPort.ite (OnlyPort.ite ka.exitDone ka) (OnlyPort.ite ka.vdmResult ka)

theorem OnlyPort.discoveryStart (h : OnlyPort p s t) : OnlyPort p s (discoveryStart p t) :=
  OnlyPort.ite (by
    split
    · exact OnlyPort.ite h (h.startSeq _ fun _ => (OnlyPort.refl p _).sendEnter)
    · exact OnlyPort.ite h (h.startSeq _ fun _ => (OnlyPort.refl p _).sendStep)
    · exact OnlyPort.ite (h.startSeq _ fun _ => ((OnlyPort.refl p _).updDc _).sendStep) h) h

theorem OnlyPort.vdmBusyRetry (h : OnlyPort p s t) : OnlyPort p s (vdmBusyRetry p t) :=
  OnlyPort.ite (by split; exacts [h.startSeq _ fun _ => (OnlyPort.refl p _).sendStep, h]) h

theorem OnlyPort.vdmResponseTimeout (h : OnlyPort p s t) : OnlyPort p s (vdmResponseTimeout p t) :=
  OnlyPort.ite (OnlyPort.ite ((h.discEnd _).seqOver) (OnlyPort.ite h.seqOver.exitDone (OnlyPort.ite h.vdmResult.seqOver h))) h

theorem OnlyPort.modeEntryTimeout (h : OnlyPort p s t) : OnlyPort p s (modeEntryTimeout p t) := by
  unfold Machine.modeEntryTimeout
  split
  · exact OnlyPort.ite h.seqOver.enterFail h
  · exact h

theorem OnlyPort.attentionVdmReceived {hdr vdo} (h : OnlyPort p s t) : OnlyPort p s (attentionVdmReceived p hdr vdo t) :=
  OnlyPort.ite (h.sinkSpoke.pushEvent _ _ _) h

theorem OnlyPort.unstructuredVdm (h : OnlyPort p s t) : OnlyPort p s (unstructuredVdm p t) :=
  OnlyPort.ite (h.sinkSpoke.send _) h

theorem OnlyPort.vdmRequestAsUfp {v} (h : OnlyPort p s t) : OnlyPort p s (vdmRequestAsUfp p v t) :=
  OnlyPort.ite (h.sinkSpoke.send _) h

theorem OnlyPort.vdmRequestAsDfp {v} (h : OnlyPort p s t) : OnlyPort p s (vdmRequestAsDfp p v t) :=
  OnlyPort.ite (h.sinkSpoke.send _) h

theorem OnlyPort.segAnswer {cmd k vdos} (h : OnlyPort p s t) : OnlyPort p s (segAnswer t p cmd k vdos) :=
  h.send _

theorem OnlyPort.serviceEnterMode {pos} (h : OnlyPort p s t) : OnlyPort p s (serviceEnterMode p pos t) :=
  OnlyPort.ite (OnlyPort.ite (OnlyPort.send (h.sinkSpoke.shared rfl) _) (h.sinkSpoke.send _)) h

theorem OnlyPort.serviceExitMode (h : OnlyPort p s t) : OnlyPort p s (serviceExitMode p t) :=
  OnlyPort.ite ((h.sinkSpoke.send _).sessionEnd _) h

theorem OnlyPort.portOff (h : OnlyPort p s t) : OnlyPort p s (t.portOff p) :=
  ((h.updPath _).vconnOff).ifThen fun k0 => k0.discharge _

theorem OnlyPort.reducedPort (h : OnlyPort p s t) : OnlyPort p s (reducedPort p t) :=
  (h.updCc _).ifThen fun k0 => k0.home

theorem OnlyPort.fullPort (h : OnlyPort p s t) : OnlyPort p s (fullPort p t) :=
  OnlyPort.ite h (OnlyPort.ite ((h.updCc _).disablePort _ _) (by
    split
    · exact (h.updCc _).ifThen fun k0 => k0.home
    · exact (h.updCc _).home
    · exact (h.updCc _).ifElse fun k0 => k0.home
    · exact (h.updCc _).startPd
    · exact (h.updCc _).ifElse fun k0 => k0.startPd
    · exact h.updCc _))

theorem OnlyPort.takenOverPd (h : OnlyPort p s t) : OnlyPort p s (takenOverPd p t) :=
  OnlyPort.ite h.startPd h

theorem OnlyPort.dropPort (h : OnlyPort p s t) : OnlyPort p s (dropPort p t) :=
  OnlyPort.ite (by split; exacts [h, h, h.updCc _, h.loseConversion]) h

theorem OnlyPort.portFitting {here} (h : OnlyPort p s t) : OnlyPort p s (portFitting here p t) :=
  OnlyPort.ite (h.updPort _) (OnlyPort.updCc (OnlyPort.updPort (OnlyPort.ite (h.disablePort _ _) h) _) _)

theorem OnlyPort.aonDischargeTimeout (h : OnlyPort p s t) : OnlyPort p s (aonDischargeTimeout p t) :=
  OnlyPort.ite (h.updCc _) h

end

end Sys2Proof.Machine
end
section
/-! PROOF. Every operation of the model keeps the sizes and the canonical memories of the invariant. -/
namespace Sys2Proof.Machine

section

/-- What a step may do to the sizes and the memories that the invariant speaks of: the shape is kept, and a state that meets
the invariant goes to one whose memories are in canonical form. -/
def Keeps (s t : State) : Prop := (s.Shaped → t.Shaped) ∧ (s.Inv → t.MemOk)

variable {s t u : State}

theorem Keeps.refl (s : State) : Keeps s s := ⟨id, And.right⟩

theorem Keeps.trans (h : Keeps s t) (k : Keeps t u) : Keeps s u :=
  ⟨fun a => k.1 (h.1 a), fun a => k.2 ⟨h.1 a.1, h.2 a⟩⟩

/-- The parts of the state that the invariant speaks of, as a command that writes no memory leaves them. -/
structure SameFooting (t u : State) : Prop where
  ports : u.ports.length = t.ports.length
  phases : u.phases.length = t.phases.length
  ridges : u.ridges.length = t.ridges.length
  feeds : u.feeds.length = t.feeds.length
  cairns : u.ret.cairns.length = t.ret.cairns.length
  low : u.otp.low = t.otp.low
  high : u.otp.high = t.otp.high
  patchBuf : u.svc.patchBuf = t.svc.patchBuf
  engines : ∀ q ∈ u.ridges, ∃ q' ∈ t.ridges, q.eng = q'.eng
  sup : u.sup.eng = t.sup.eng

theorem SameFooting.keeps (k : SameFooting t u) : Keeps t u := by
  obtain ⟨hp, hph, hr, hf, hc, hl, hh, hb, he, hs⟩ := k
  have hall : ∀ P : Engine → Prop, (∀ q ∈ t.ridges, P q.eng) → ∀ q ∈ u.ridges, P q.eng := fun P h q hq => by
    obtain ⟨q', hq', e⟩ := he q hq
    exact e ▸ h q' hq'
  refine ⟨?_, ?_⟩
  · rintro ⟨a, b, c, d, e, f, g⟩
    exact ⟨hp.trans a, hph.trans b, hr.trans c, hf.trans d, hc.trans e, hall _ f, hs ▸ g⟩
  · rintro ⟨-, a, b, c, d, e⟩
    exact ⟨hl ▸ a, hh ▸ b, hb ▸ c, hall _ d, hs ▸ e⟩

theorem Keeps.set (h : Keeps s t)
    (e : (u.ports, u.phases, u.ridges, u.feeds, u.ret.cairns, u.otp.low, u.otp.high, u.svc.patchBuf, u.sup.eng) =
      (t.ports, t.phases, t.ridges, t.feeds, t.ret.cairns, t.otp.low, t.otp.high, t.svc.patchBuf, t.sup.eng)) : Keeps s u := by
  simp only [Prod.mk.injEq] at e
  obtain ⟨hp, hph, hr, hf, hc, hl, hh, hb, hs⟩ := e
  exact h.trans (SameFooting.keeps ⟨by rw [hp], by rw [hph], by rw [hr], by rw [hf], by rw [hc], hl, hh, hb,
    fun q hq => ⟨q, hr ▸ hq, rfl⟩, hs⟩)

theorem Keeps.ite {c : Prop} [Decidable c] {a b : State} (h : Keeps s a) (k : Keeps s b) : Keeps s (if c then a else b) := by
  split
  · exact h
  · exact k

theorem Keeps.ifThen {c : Prop} [Decidable c] {a b : State} (h : Keeps s b) (k : Keeps s b → Keeps s a) : Keeps s (if c then a else b) :=
  (k h).ite h

theorem Keeps.ifElse {c : Prop} [Decidable c] {a b : State} (h : Keeps s a) (k : Keeps s a → Keeps s b) : Keeps s (if c then a else b) :=
  h.ite (k h)

theorem Keeps.foldl {α : Type} {l : List α} {f : State → α → State} (h : Keeps s t) (k : ∀ u i, Keeps s u → Keeps s (f u i)) :
    Keeps s (l.foldl f t) := by
  induction l generalizing t with
  | nil => exact h
  | cons a l ih => exact ih (k t a h)

theorem Keeps.overN {n : Nat} {f : Nat → State → State} (h : Keeps s t) (k : ∀ i u, Keeps s u → Keeps s (f i u)) : Keeps s (overN n f t) :=
  h.foldl fun u i => k i u

theorem Keeps.overList {l : List Nat} {f : Nat → State → State} (h : Keeps s t) (k : ∀ i u, Keeps s u → Keeps s (f i u)) :
    Keeps s (overList l f t) :=
  h.foldl fun u i => k i u

theorem Keeps.updPort (h : Keeps s t) (p : Nat) (f : Port → Port) : Keeps s (t.updPort p f) :=
  h.trans (SameFooting.keeps ⟨t.updPort_length p f, rfl, rfl, rfl, rfl, rfl, rfl, rfl, fun q hq => ⟨q, hq, rfl⟩, rfl⟩)

theorem Keeps.updPhase (h : Keeps s t) (k : Nat) (f : Phase → Phase) : Keeps s (t.updPhase k f) :=
  h.trans (SameFooting.keeps ⟨rfl, by simp [State.updPhase], rfl, rfl, rfl, rfl, rfl, rfl, fun q hq => ⟨q, hq, rfl⟩, rfl⟩)

theorem Keeps.updFeed (h : Keeps s t) (x : Nat) (f : Feed → Feed) : Keeps s (t.updFeed x f) :=
  h.trans (SameFooting.keeps ⟨rfl, rfl, rfl, by simp [State.updFeed], rfl, rfl, rfl, rfl, fun q hq => ⟨q, hq, rfl⟩, rfl⟩)

theorem mem_modify {α : Type} {l : List α} {i : Nat} {f : α → α} {x : α} (h : x ∈ l.modify i f) : x ∈ l ∨ ∃ y ∈ l, x = f y := by
  obtain ⟨j, hj⟩ := List.mem_iff_getElem?.1 h
  rw [List.getElem?_modify] at hj
  obtain ⟨y, hy, rfl⟩ := Option.map_eq_some_iff.1 hj
  have hm := List.mem_of_getElem? hy
  split
  · exact .inr ⟨y, hm, rfl⟩
  · exact .inl hm

theorem Keeps.updRidge (h : Keeps s t) (r : Nat) (f : Ridge → Ridge) (hf : ∀ q, (f q).eng = q.eng) : Keeps s (t.updRidge r f) :=
  h.trans (SameFooting.keeps ⟨rfl, rfl, by simp [State.updRidge], rfl, rfl, rfl, rfl, rfl, fun q hq => by
    obtain hq | ⟨q', hq', rfl⟩ := mem_modify hq
    · exact ⟨q, hq, rfl⟩
    · exact ⟨q', hq', hf q'⟩, rfl⟩)

/-- A ridge takes an engine that has its registers, and canonical memories where the state had them. -/
theorem Keeps.updRidgeOf (h : Keeps s t) (r : Nat) (f : Ridge → Ridge) (hs : t.Shaped → ∀ q : Ridge, q.eng.Shaped → (f q).eng.Shaped)
    (hm : t.Inv → ∀ q : Ridge, q.eng.MemOk → (f q).eng.MemOk) : Keeps s (t.updRidge r f) := by
  have hall : ∀ P : Engine → Prop, (∀ q : Ridge, P q.eng → P (f q).eng) → (∀ q ∈ t.ridges, P q.eng) →
      ∀ q ∈ (t.updRidge r f).ridges, P q.eng := fun P hP a q hq => by
    obtain hq | ⟨q', hq', rfl⟩ := mem_modify hq
    · exact a q hq
    · exact hP q' (a q' hq')
  refine h.trans ⟨fun hsh => ?_, fun hi => ?_⟩
  · obtain ⟨a, b, c, d, e, f, g⟩ := id hsh
    exact ⟨a, b, by simpa [State.updRidge] using c, d, e, hall Engine.Shaped (hs hsh) f, g⟩
  · obtain ⟨-, a, b, c, d, e⟩ := id hi
    exact ⟨a, b, c, hall Engine.MemOk (hm hi) d, e⟩

theorem Keeps.updRidgeEng (h : Keeps s t) (r : Nat) (f : Ridge → Ridge) (hf : ∀ q : Ridge, q.eng.Kept (f q).eng) : Keeps s (t.updRidge r f) :=
  h.updRidgeOf r f (fun _ q => (hf q).1) fun _ q => (hf q).2

theorem State.Shaped.eng (h : s.Shaped) (r : Nat) : (s.ridge r).eng.Shaped := by
  obtain ⟨-, -, -, -, -, he, -⟩ := h
  unfold State.ridge
  rw [List.getD_eq_getElem?_getD]
  cases hr : s.ridges[r]? with
  | none => exact ⟨rfl, rfl, rfl⟩
  | some q => exact he q (List.mem_of_getElem? hr)

theorem State.MemOk.eng (h : s.MemOk) (r : Nat) : (s.ridge r).eng.MemOk := by
  obtain ⟨-, -, -, he, -⟩ := h
  unfold State.ridge
  rw [List.getD_eq_getElem?_getD]
  cases hr : s.ridges[r]? with
  | none => exact ⟨rfl, rfl⟩
  | some q => exact he q (List.mem_of_getElem? hr)

/-- The supervisor takes an engine of the same shape and with memories of the same form. -/
theorem Keeps.supEng {v : Sup} (h : Keeps s t) (hf : t.sup.eng.Kept v.eng) : Keeps s { t with sup := v } :=
  h.trans ⟨fun ⟨a, b, c, d, e, f, g⟩ => ⟨a, b, c, d, e, f, hf.1 g⟩, fun ⟨_, a, b, c, d, e⟩ => ⟨a, b, c, d, hf.2 e⟩⟩

/-- The array takes canonical memories where it had them. -/
theorem Keeps.setOtp {o : Otp} (h : Keeps s t)
    (ho : t.MemOk → cellsWf 0 o.low = true ∧ cellsWf 0 o.high = true) : Keeps s { t with otp := o } :=
  h.trans ⟨id, fun ⟨_, hm⟩ => by
    obtain ⟨-, -, c, d, e⟩ := id hm
    exact ⟨(ho hm).1, (ho hm).2, c, d, e⟩⟩

theorem Keeps.setPatchBuf {v : Service} (h : Keeps s t) (hv : cellsWf 0 t.svc.patchBuf = true → cellsWf 0 v.patchBuf = true) :
    Keeps s { t with svc := v } :=
  h.trans ⟨id, fun ⟨_, a, b, c, d, e⟩ => ⟨a, b, hv c, d, e⟩⟩

theorem Keeps.updCc (h : Keeps s t) (p : Nat) (f : CcLayer → CcLayer) : Keeps s (t.updCc p f) := h.updPort _ _
theorem Keeps.updVc (h : Keeps s t) (p : Nat) (f : Vconn → Vconn) : Keeps s (t.updVc p f) := h.updPort _ _
theorem Keeps.updPd (h : Keeps s t) (p : Nat) (f : Pd → Pd) : Keeps s (t.updPd p f) := h.updPort _ _
theorem Keeps.updSw (h : Keeps s t) (p : Nat) (f : Swap → Swap) : Keeps s (t.updSw p f) := h.updPort _ _
theorem Keeps.updDc (h : Keeps s t) (p : Nat) (f : Disc → Disc) : Keeps s (t.updDc p f) := h.updPort _ _
theorem Keeps.updPath (h : Keeps s t) (p : Nat) (f : Path → Path) : Keeps s (t.updPath p f) := h.updPort _ _

theorem Keeps.updCairn (h : Keeps s t) (n : Nat) (f : Cairn → Cairn) : Keeps s (t.updCairn n f) :=
  h.trans (SameFooting.keeps ⟨rfl, rfl, rfl, rfl, by simp [State.updCairn], rfl, rfl, rfl, fun q hq => ⟨q, hq, rfl⟩, rfl⟩)

theorem OnlyPort.keeps {p : Nat} (h : OnlyPort p s t) : Keeps s t := by
  obtain ⟨e, hl, -⟩ := h
  refine SameFooting.keeps ⟨hl, ?_, ?_, ?_, ?_, ?_, ?_, ?_, fun q hq => ⟨q, ?_, rfl⟩, ?_⟩ <;> rw [e] at *
  exact hq

theorem Keeps.policyRow {p : Nat} {i : Instr} {go : State → State} (h : Keeps s t) (k : ∀ u, Keeps s u → Keeps s (go u)) :
    Keeps s (t.policyRow p i go) :=
  (h.updPd _ _).ite (k t h)

theorem Keeps.restRow {p : Nat} {i : Instr} {go : State → State} (h : Keeps s t) (k : ∀ u, Keeps s u → Keeps s (go u)) :
    Keeps s (t.restRow p i go) :=
  (h.updPd _ _).ite (k t h)

/-! ### Memories -/

theorem State.MemOk.otp (h : s.MemOk) : cellsWf 0 s.otp.low = true ∧ cellsWf 0 s.otp.high = true := by
  obtain ⟨hl, hh, -⟩ := h
  exact ⟨hl, hh⟩

theorem cellsWf_foldl {α : Type} {w : Nat} (l : List α) (f : Cells w → α → Cells w)
    (hf : ∀ c a, cellsWf 0 c = true → cellsWf 0 (f c a) = true)
    {c : Cells w} (h : cellsWf 0 c = true) : cellsWf 0 (l.foldl f c) = true := by
  induction l generalizing c with
  | nil => exact h
  | cons x l ih => exact ih (hf c x h)

theorem cellsWf_dmaIn {r : Nat} {codes : Nat → List Nat} {x : Cells 16} (h : cellsWf 0 x = true) : cellsWf 0 (dmaIn s r codes x) = true := by
  unfold dmaIn
  dsimp only
  refine cellsWf_foldl _ _ (fun _ _ hc => cellsWf_store _ hc) ?_
  split
  · exact cellsWf_store _ (cellsWf_store _ (cellsWf_store _ (cellsWf_store _ (cellsWf_store _ h))))
  · exact cellsWf_store _ (cellsWf_store _ (cellsWf_store _ (cellsWf_store _ h)))

theorem cellsWf_burn1 {o : Otp} {weak : List Nat} {a : Nat} {w : Word32}
    (h : cellsWf 0 o.low = true ∧ cellsWf 0 o.high = true) :
    cellsWf 0 (o.burn1 weak a w).low = true ∧ cellsWf 0 (o.burn1 weak a w).high = true := by
  refine ⟨cellsWf_write h.1 (Nat.zero_le _), ?_⟩
  simp only [Otp.burn1]
  split
  · exact h.2
  · exact cellsWf_write h.2 (Nat.zero_le _)

theorem cellsWf_burnFrom {o : Otp} {weak : List Nat} {a : Nat} {ws : List Word32}
    (h : cellsWf 0 o.low = true ∧ cellsWf 0 o.high = true) :
    cellsWf 0 (o.burnFrom weak a ws).low = true ∧ cellsWf 0 (o.burnFrom weak a ws).high = true := by
  induction ws generalizing o a with
  | nil => exact h
  | cons w ws ih => exact ih (cellsWf_burn1 h)

theorem cellsWf_burnList {o : Otp} {weak : List Nat} {l : List (Nat × Word32)}
    (h : cellsWf 0 o.low = true ∧ cellsWf 0 o.high = true) :
    cellsWf 0 (o.burnList weak l).low = true ∧ cellsWf 0 (o.burnList weak l).high = true := by
  unfold Otp.burnList
  induction l generalizing o with
  | nil => exact h
  | cons w ws ih => exact ih (cellsWf_burn1 h)

theorem cellsWf_lockRegion {o : Otp} {weak : List Nat} {r len k : Nat}
    (h : cellsWf 0 o.low = true ∧ cellsWf 0 o.high = true) :
    cellsWf 0 (lockRegion o weak r len k).1.low = true ∧ cellsWf 0 (lockRegion o weak r len k).1.high = true := by
  unfold lockRegion
  dsimp only
  split
  · exact cellsWf_burn1 (cellsWf_burnFrom (cellsWf_burn1 h))
  · exact cellsWf_burnFrom (cellsWf_burn1 h)

/-! ### Reset -/

theorem State.shaped_reset : State.reset.Shaped :=
  ⟨rfl, rfl, rfl, rfl, rfl, fun _ hq => by rw [List.eq_of_mem_replicate hq]; exact ⟨rfl, rfl, rfl⟩, rfl, rfl, rfl⟩

theorem State.memOk_reset : State.reset.MemOk :=
  ⟨by decide, by decide, rfl, fun _ hq => by rw [List.eq_of_mem_replicate hq]; exact ⟨rfl, rfl⟩, rfl, rfl⟩

end

section
variable {s t u : State}

theorem Keeps.freeNext (h : Keeps s t) : Keeps s (t.freeNext) :=
  h.set rfl

theorem Keeps.setAttn {b} (h : Keeps s t) : Keeps s (t.setAttn b) :=
  h.set rfl

theorem Keeps.pushEvent {kind inst data} (h : Keeps s t) : Keeps s (t.pushEvent kind inst data) :=
  Keeps.setAttn (h.set rfl)

theorem Keeps.pinOccur (h : Keeps s t) : Keeps s (t.pinOccur) :=
  Keeps.ite h (Keeps.ite (h.set rfl) (h.set rfl))

theorem Keeps.setFlt {b f} (h : Keeps s t) : Keeps s (t.setFlt b f) := by
  unfold Machine.State.setFlt
  split
  · exact h.set rfl
  · exact h.set rfl
  · exact h.set rfl
  · exact h.set rfl
  · exact h.set rfl
  · exact h.set rfl
  · exact h.set rfl
  · exact h.updFeed _ _
  · exact h.updCc _ _
  · exact h.updPath _ _
  · exact h.updPhase _ _
  · exact h.updRidge _ _ (fun _ => rfl)

theorem Keeps.interrupt {x} (h : Keeps s t) : Keeps s (t.interrupt x) :=
  Keeps.ite (h.set rfl) h

theorem Keeps.raise {b i} (h : Keeps s t) : Keeps s (t.raise b i) :=
  Keeps.ite h (((h.setFlt.ifThen fun k0 => k0.interrupt).ifThen fun k0 => k0.pinOccur).ifThen fun k0 => Keeps.setAttn (k0.set rfl))

theorem Keeps.countUp {p c} (h : Keeps s t) : Keeps s (t.countUp p c) :=
  h.updPort _ _

theorem Keeps.setChan {c x} (h : Keeps s t) : Keeps s (t.setChan c x) := by
  unfold Machine.State.setChan
  split <;> exact h.set rfl

theorem Keeps.setCmdAt {pl c} (h : Keeps s t) : Keeps s (t.setCmdAt pl c) :=
  h.setChan

theorem Keeps.finish {pl code data} (h : Keeps s t) : Keeps s (t.finish pl code data) := by
  unfold Machine.State.finish
  split
  · exact h
  · exact h.setChan

theorem Keeps.ok {pl} (h : Keeps s t) : Keeps s (t.ok pl) :=
  h.finish

theorem Keeps.hold {pl w} (h : Keeps s t) : Keeps s (t.hold pl w) := by
  unfold Machine.State.hold
  split
  · exact h
  · exact h.setCmdAt

theorem Keeps.finishWait {w code data} (h : Keeps s t) : Keeps s (t.finishWait w code data) :=
  h.foldl fun _ _ k0 => Keeps.ite k0.finish k0

theorem Keeps.otpStickies (h : Keeps s t) : Keeps s (otpStickies t) :=
  Keeps.ifThen (Keeps.ifThen (Keeps.ifThen (Keeps.ifThen (Keeps.ifThen (Keeps.ite h.raise h) fun k0 => k0.raise) fun k0 => k0.raise)
    fun k0 => k0.raise) fun k0 => k0.raise) fun k0 => k0.raise

theorem Keeps.rangeFlags {o} (h : Keeps s t) : Keeps s (Otp.rangeFlags o t) :=
  Keeps.overN (h.overN fun _ _ k0 => k0.updPhase _ _) fun _ _ k0 => k0.updPath _ _

theorem Keeps.takeCal {g} (h : Keeps s t) : Keeps s (t.takeCal g) :=
  Keeps.ifElse (Keeps.rangeFlags (h.set rfl)) fun k0 => k0.raise

theorem Keeps.setItem {id v} (h : Keeps s t) : Keeps s (t.setItem id v) :=
  h.set rfl

theorem Keeps.write {v x} (h : Keeps s t) : Keeps s (CField.write v t x) := by
  unfold Machine.CField.write
  split
  · exact h.setItem
  · exact h.setFlt
  · exact h.setFlt
  · exact h.updRidge _ _ (fun _ => rfl)
  · exact h.updRidge _ _ (fun _ => rfl)
  · exact h.updRidge _ _ (fun _ => rfl)
  · exact h.overN fun _ _ k0 => k0.updPhase _ _
  · exact h.updPhase _ _
  · exact h.updPhase _ _
  · exact h.updPhase _ _
  · exact h.updPath _ _
  · exact h.updPath _ _
  · exact h.updPath _ _
  · exact h.updRidge _ _ (fun _ => rfl)

theorem Keeps.fieldsTake {l : List CField} {bs : List Byte} (h : Keeps s t) : Keeps s (fieldsTake l bs t) := by
  induction l generalizing bs t with
  | nil => exact h
  | cons f fs ih => exact ih h.write

theorem Keeps.fieldsDefault {l : List CField} (h : Keeps s t) : Keeps s (fieldsDefault l t) := by
  induction l generalizing t with
  | nil => exact h
  | cons f fs ih => exact ih h.write

theorem Keeps.markDirty {n} (h : Keeps s t) : Keeps s (t.markDirty n) :=
  h.updCairn _ _

theorem Keeps.markItem {id} (h : Keeps s t) : Keeps s (t.markItem id) := by
  unfold Machine.State.markItem
  split
  · exact h.markDirty
  · exact h

theorem Keeps.checkCairn {n} (h : Keeps s t) : Keeps s (t.checkCairn n) :=
  Keeps.ite ((h.updCairn _ _).raise) h

theorem Keeps.takeFields {n l off} (h : Keeps s t) : Keeps s (t.takeFields n l off) :=
  Keeps.ite h.checkCairn.fieldsTake h.checkCairn.fieldsDefault

theorem Keeps.takeCairn {n} (h : Keeps s t) : Keeps s (t.takeCairn n) :=
  h.takeFields

theorem Keeps.cairnBegin {n} (h : Keeps s t) : Keeps s (t.cairnBegin n) :=
  Keeps.updCairn (h.set rfl) _ _

theorem Keeps.cairnClose {n} (h : Keeps s t) : Keeps s (t.cairnClose n) :=
  Keeps.updCairn (h.set rfl) _ _

theorem Keeps.cairnAbandon (h : Keeps s t) : Keeps s (t.cairnAbandon) := by
  unfold Machine.State.cairnAbandon
  split
  · exact h
  · exact Keeps.raise (Keeps.updCairn (h.set rfl) _ _)

theorem Keeps.vconnOff {p} (h : Keeps s t) : Keeps s (t.vconnOff p) :=
  (h.updSw _ _).ifThen fun k0 => k0.updVc _ _

theorem Keeps.vconnOn {p} (h : Keeps s t) : Keeps s (t.vconnOn p) :=
  Keeps.ite (h.updVc _ _) h

theorem Keeps.discharge {p detach} (h : Keeps s t) : Keeps s (t.discharge p detach) :=
  h.updCc _ _

theorem Keeps.returnNode {p kind vtgt} (h : Keeps s t) : Keeps s (t.returnNode p kind vtgt) :=
  Keeps.ite (h.updPath _ _) h

theorem Keeps.home {p} (h : Keeps s t) : Keeps s (t.home p) :=
  h.updCc _ _

theorem Keeps.modeEnd {p cause} (h : Keeps s t) : Keeps s (t.modeEnd p cause) :=
  Keeps.ite ((h.updDc _ _).pushEvent) h

theorem Keeps.discEnd {p status} (h : Keeps s t) : Keeps s (t.discEnd p status) :=
  Keeps.ite (((h.updDc _ _).pushEvent).finishWait) (h.updDc _ _)

theorem Keeps.sessionEnd {cause} (h : Keeps s t) : Keeps s (t.sessionEnd cause) :=
  Keeps.ite h (Keeps.ifElse (h.set rfl) fun k0 => k0.pushEvent)

theorem Keeps.sessionEndOn {p cause} (h : Keeps s t) : Keeps s (t.sessionEndOn p cause) :=
  Keeps.ite h.sessionEnd h

theorem Keeps.failWaits {p} (h : Keeps s t) : Keeps s (t.failWaits p) :=
  h.finishWait.finishWait.finishWait.finishWait.finishWait.ifThen fun k0 => k0.set rfl

theorem Keeps.swapEnds {p result counted} (h : Keeps s t) : Keeps s (t.swapEnds p result counted) := by
  unfold Machine.State.swapEnds
  split
  · exact h.updSw _ _
  · exact ((((h.updSw _ _).updCc _ _).ifThen fun k0 => k0.countUp).pushEvent).finishWait

theorem Keeps.swapFail {p result} (h : Keeps s t) : Keeps s (t.swapFail p result) :=
  h.swapEnds

theorem Keeps.swapDone {p} (h : Keeps s t) : Keeps s (t.swapDone p) := by
  unfold Machine.State.swapDone
  split
  · exact h
  · exact ((h.updSw _ _).pushEvent).finishWait

theorem Keeps.setDfp {p b} (h : Keeps s t) : Keeps s (t.setDfp p b) :=
  Keeps.ite h ((h.updSw _ _).pushEvent)

theorem Keeps.voidContract {p code} (h : Keeps s t) : Keeps s (t.voidContract p code) :=
  ((h.updPd _ _).updPath _ _).ifThen fun k0 => k0.pushEvent

theorem Keeps.forgetPeer {p} (h : Keeps s t) : Keeps s (t.forgetPeer p) :=
  h.trans (OnlyPort.keeps (OnlyPort.forgetPeer (.refl _ _)))

theorem Keeps.attachOver {p code : Nat} {b : Bool} (h : Keeps s t) : Keeps s (t.attachOver p code b) :=
  h.trans ((OnlyPort.refl p t).attachOver code b).keeps

theorem Keeps.openPort {p detach} (h : Keeps s t) : Keeps s (t.openPort p detach) :=
  ((h.updPath _ _).vconnOff).discharge

theorem Keeps.errorRecovery {p code} (h : Keeps s t) : Keeps s (t.errorRecovery p code) :=
  (((h.attachOver.openPort.updCc _ _).updPort _ _).returnNode).finishWait

theorem Keeps.disablePort {p code why} (h : Keeps s t) : Keeps s (t.disablePort p code why) :=
  ((h.attachOver.openPort.updCc _ _).updPort _ _).returnNode

theorem Keeps.enablePort {p} (h : Keeps s t) : Keeps s (t.enablePort p) :=
  h.trans (OnlyPort.keeps (OnlyPort.enablePort (.refl _ _)))

theorem Keeps.loseConversion {p} (h : Keeps s t) : Keeps s (t.loseConversion p) :=
  h.errorRecovery.updCc _ _

theorem Keeps.portTrip {p cause} (h : Keeps s t) : Keeps s (t.portTrip p cause) :=
  Keeps.ite ((h.raise.countUp.updPath _ _).errorRecovery) (((h.raise.countUp.updPath _ _).disablePort).raise)

theorem Keeps.waitTx {p} (h : Keeps s t) : Keeps s (t.waitTx p) :=
  Keeps.ite ((h.updPd _ _).updCc _ _) h

theorem Keeps.rewait {p} (h : Keeps s t) : Keeps s (t.rewait p) :=
  Keeps.ite h.waitTx h

theorem Keeps.startSeq {p : Nat} {go : State → State} (h : Keeps s t) (k : ∀ u, Keeps s u → Keeps s (go u)) : Keeps s (t.startSeq p go) :=
  ((k t h).updPd _ _).ite (h.waitTx.ite h)

theorem Keeps.seqOver {p} (h : Keeps s t) : Keeps s (t.seqOver p) :=
  Keeps.ite (h.updCc _ _) h

theorem Keeps.heard {p} (h : Keeps s t) : Keeps s (t.heard p) :=
  h.updPd _ _

theorem Keeps.sinkSpoke {p} (h : Keeps s t) : Keeps s (t.sinkSpoke p) :=
  h.updPd _ _

theorem Keeps.send {p m} (h : Keeps s t) : Keeps s (t.send p m) :=
  h.updPd _ _

theorem Keeps.vconnLose {p bit} (h : Keeps s t) : Keeps s (t.vconnLose p bit) :=
  (((h.vconnOff.raise.updVc _ _).updPd _ _).ifThen fun k0 => k0.send).finishWait

theorem Keeps.resetRoles {p} (h : Keeps s t) : Keeps s (t.resetRoles p) :=
  Keeps.ite (Keeps.ite (((h.swapFail.updSw _ _).updCc _ _).setDfp) ((((((h.swapFail.updPath _ _).discharge).updSw _ _).updCc _ _).updPd _
    _).setDfp)) (Keeps.setDfp (Keeps.ite h (h.updPd _ _)))

theorem Keeps.hardReset {p code sent} (h : Keeps s t) : Keeps s (t.hardReset p code sent) :=
  (((((((h.countUp.modeEnd.discEnd.sessionEndOn.resetRoles.voidContract.failWaits.updPd _ _).send).updVc _ _).updDc _ _).vconnOff).updSw _
    _).ifThen fun k0 => (k0.updPath _ _).updCc _ _).ifThen fun k0 => k0.raise.errorRecovery

theorem Keeps.stagePoint {c gain v l} (h : Keeps s t) : Keeps s (stagePoint t c gain v l) :=
  h.set rfl

theorem Keeps.captureDone {x} (h : Keeps s t) : Keeps s (captureDone t x) :=
  Keeps.ite h.stagePoint.finishWait (Keeps.ite h.finishWait h.stagePoint.finishWait)

theorem Keeps.capturePaces {m} (h : Keeps s t) : Keeps s (capturePaces m t) :=
  Keeps.foldl (h.set rfl) fun _ _ k0 => k0.captureDone

theorem Keeps.recalDone {p} (h : Keeps s t) : Keeps s (recalDone t p) :=
  (h.stagePoint.stagePoint.ifThen fun k0 => (k0.updPath _ _).markDirty).finishWait

theorem Keeps.recalPace {m p} (h : Keeps s t) : Keeps s (recalPace m p t) :=
  Keeps.ite ((h.updPath _ _).ifThen fun k0 => k0.recalDone) h

theorem Keeps.ccSniff {p seen} (h : Keeps s t) : Keeps s (ccSniff p seen t) :=
  h.trans (OnlyPort.keeps (OnlyPort.ccSniff (.refl _ _)))

theorem Keeps.toggleSourceEnd {p} (h : Keeps s t) : Keeps s (toggleSourceEnd p t) :=
  h.trans (OnlyPort.keeps (OnlyPort.toggleSourceEnd (.refl _ _)))

theorem Keeps.toggleSinkEnd {p} (h : Keeps s t) : Keeps s (toggleSinkEnd p t) :=
  h.trans (OnlyPort.keeps (OnlyPort.toggleSinkEnd (.refl _ _)))

theorem Keeps.freshAttach {p} (h : Keeps s t) : Keeps s (freshAttach t p) :=
  h.trans (OnlyPort.keeps (OnlyPort.freshAttach (.refl _ _)))

theorem Keeps.startPd {p} (h : Keeps s t) : Keeps s (startPd t p) :=
  h.trans (OnlyPort.keeps (OnlyPort.startPd (.refl _ _)))

theorem Keeps.attachSource {p} (h : Keeps s t) : Keeps s (attachSource t p) :=
  h.trans (OnlyPort.keeps (OnlyPort.attachSource (.refl _ _)))

theorem Keeps.attachDebounceSrc {p} (h : Keeps s t) : Keeps s (attachDebounceSrc p t) :=
  h.trans (OnlyPort.keeps (OnlyPort.attachDebounceSrc (.refl _ _)))

theorem Keeps.attachDebounceSnk {p} (h : Keeps s t) : Keeps s (attachDebounceSnk p t) :=
  h.trans (OnlyPort.keeps (OnlyPort.attachDebounceSnk (.refl _ _)))

theorem Keeps.attachwaitTimeout {p} (h : Keeps s t) : Keeps s (attachwaitTimeout p t) :=
  h.trans (OnlyPort.keeps (OnlyPort.attachwaitTimeout (.refl _ _)))

theorem Keeps.unexpectedVbus {p} (h : Keeps s t) : Keeps s (unexpectedVbus p t) :=
  h.trans (OnlyPort.keeps (OnlyPort.unexpectedVbus (.refl _ _)))

theorem Keeps.portSwitchClose {p} (h : Keeps s t) : Keeps s (portSwitchClose p t) :=
  h.trans (OnlyPort.keeps (OnlyPort.portSwitchClose (.refl _ _)))

theorem Keeps.vbusStartCheck {p} (h : Keeps s t) : Keeps s (vbusStartCheck p t) :=
  h.trans (OnlyPort.keeps (OnlyPort.vbusStartCheck (.refl _ _)))

theorem Keeps.errorRecoveryEnd {p} (h : Keeps s t) : Keeps s (errorRecoveryEnd p t) :=
  h.trans (OnlyPort.keeps (OnlyPort.errorRecoveryEnd (.refl _ _)))

theorem Keeps.goHome {p} (h : Keeps s t) : Keeps s (goHome t p) :=
  h.trans (OnlyPort.keeps (OnlyPort.goHome (.refl _ _)))

theorem Keeps.leaveAttached {p} (h : Keeps s t) : Keeps s (leaveAttached t p) :=
  h.trans (OnlyPort.keeps (OnlyPort.leaveAttached (.refl _ _)))

theorem Keeps.leaveSink {p} (h : Keeps s t) : Keeps s (leaveSink t p) :=
  h.trans (OnlyPort.keeps (OnlyPort.leaveSink (.refl _ _)))

theorem Keeps.sinkVbusLoss {p} (h : Keeps s t) : Keeps s (sinkVbusLoss p t) :=
  h.trans (OnlyPort.keeps (OnlyPort.sinkVbusLoss (.refl _ _)))

theorem Keeps.detachQualified {p route} (h : Keeps s t) : Keeps s (detachQualified t p route) :=
  h.trans (OnlyPort.keeps (OnlyPort.detachQualified (.refl _ _)))

theorem Keeps.detachByDebounce {p} (h : Keeps s t) : Keeps s (detachByDebounce p t) :=
  h.trans (OnlyPort.keeps (OnlyPort.detachByDebounce (.refl _ _)))

theorem Keeps.detachByCurrent {p} (h : Keeps s t) : Keeps s (detachByCurrent p t) :=
  h.trans (OnlyPort.keeps (OnlyPort.detachByCurrent (.refl _ _)))

theorem Keeps.detachSwitchOpen {p} (h : Keeps s t) : Keeps s (detachSwitchOpen p t) :=
  h.trans (OnlyPort.keeps (OnlyPort.detachSwitchOpen (.refl _ _)))

theorem Keeps.vbusDischargeComplete {p} (h : Keeps s t) : Keeps s (vbusDischargeComplete p t) :=
  h.trans (OnlyPort.keeps (OnlyPort.vbusDischargeComplete (.refl _ _)))

theorem Keeps.vbusDischargeTimeout {p} (h : Keeps s t) : Keeps s (vbusDischargeTimeout p t) :=
  h.trans (OnlyPort.keeps (OnlyPort.vbusDischargeTimeout (.refl _ _)))

theorem Keeps.vconnSwapGood {p goodCrc} (h : Keeps s t) : Keeps s (vconnSwapGood t p goodCrc) :=
  h.trans (OnlyPort.keeps (OnlyPort.vconnSwapGood (.refl _ _)))

theorem Keeps.vconnGood {p goodCrc} (h : Keeps s t) : Keeps s (vconnGood p goodCrc t) :=
  h.trans (OnlyPort.keeps (OnlyPort.vconnGood (.refl _ _)))

theorem Keeps.vconnTrip {p bit} (h : Keeps s t) : Keeps s (vconnTrip t p bit) :=
  h.trans (OnlyPort.keeps (OnlyPort.vconnTrip (.refl _ _)))

theorem Keeps.vconnFaultTimerTrip {p} (h : Keeps s t) : Keeps s (vconnFaultTimerTrip p t) :=
  h.trans (OnlyPort.keeps (OnlyPort.vconnFaultTimerTrip (.refl _ _)))

theorem Keeps.vconnHardTrip {p} (h : Keeps s t) : Keeps s (vconnHardTrip p t) :=
  h.trans (OnlyPort.keeps (OnlyPort.vconnHardTrip (.refl _ _)))

theorem Keeps.vconnReverseBlock {p} (h : Keeps s t) : Keeps s (vconnReverseBlock p t) :=
  h.trans (OnlyPort.keeps (OnlyPort.vconnReverseBlock (.refl _ _)))

theorem Keeps.vconnSupplyLoss {p} (h : Keeps s t) : Keeps s (vconnSupplyLoss p t) :=
  h.trans (OnlyPort.keeps (OnlyPort.vconnSupplyLoss (.refl _ _)))

theorem Keeps.vconnDischargeEnd {p} (h : Keeps s t) : Keeps s (vconnDischargeEnd p t) :=
  h.trans (OnlyPort.keeps (OnlyPort.vconnDischargeEnd (.refl _ _)))

theorem Keeps.passiveRdTakeover {p} (h : Keeps s t) : Keeps s (passiveRdTakeover p t) :=
  h.trans (OnlyPort.keeps (OnlyPort.passiveRdTakeover (.refl _ _)))

theorem Keeps.attachModeChange {p} (h : Keeps s t) : Keeps s (attachModeChange p t) :=
  h.trans (OnlyPort.keeps (OnlyPort.attachModeChange (.refl _ _)))

theorem Keeps.prSwapDone {p goodCrc} (h : Keeps s t) : Keeps s (prSwapDone t p goodCrc) :=
  h.trans (OnlyPort.keeps (OnlyPort.prSwapDone (.refl _ _)))

theorem Keeps.portCloseComplete {p goodCrc} (h : Keeps s t) : Keeps s (portCloseComplete p goodCrc t) :=
  h.trans (OnlyPort.keeps (OnlyPort.portCloseComplete (.refl _ _)))

theorem Keeps.portCloseTimeout {p} (h : Keeps s t) : Keeps s (portCloseTimeout p t) :=
  h.trans (OnlyPort.keeps (OnlyPort.portCloseTimeout (.refl _ _)))

theorem Keeps.portFaultTimerTrip {p} (h : Keeps s t) : Keeps s (portFaultTimerTrip p t) :=
  h.trans (OnlyPort.keeps (OnlyPort.portFaultTimerTrip (.refl _ _)))

theorem Keeps.portFaultTimerReset {p} (h : Keeps s t) : Keeps s (portFaultTimerReset p t) :=
  h.trans (OnlyPort.keeps (OnlyPort.portFaultTimerReset (.refl _ _)))

theorem Keeps.portFastTrip {p ma} (h : Keeps s t) : Keeps s (portFastTrip p ma t) :=
  h.trans (OnlyPort.keeps (OnlyPort.portFastTrip (.refl _ _)))

theorem Keeps.portReverseBlock {p ma} (h : Keeps s t) : Keeps s (portReverseBlock p ma t) :=
  h.trans (OnlyPort.keeps (OnlyPort.portReverseBlock (.refl _ _)))

theorem Keeps.portOvervoltage {p} (h : Keeps s t) : Keeps s (portOvervoltage p t) :=
  h.trans (OnlyPort.keeps (OnlyPort.portOvervoltage (.refl _ _)))

theorem Keeps.portTripCountClear {p} (h : Keeps s t) : Keeps s (portTripCountClear p t) :=
  h.trans (OnlyPort.keeps (OnlyPort.portTripCountClear (.refl _ _)))

theorem Keeps.derive {p} (h : Keeps s t) : Keeps s (t.derive p) :=
  h.trans (OnlyPort.keeps (OnlyPort.derive (.refl _ _)))

theorem Keeps.offerDerive {p} (h : Keeps s t) : Keeps s (offerDerive t p) :=
  h.trans (OnlyPort.keeps (OnlyPort.offerDerive (.refl _ _)))

theorem Keeps.ppsFrame {p} (h : Keeps s t) : Keeps s (ppsFrame t p) :=
  h.trans (OnlyPort.keeps (OnlyPort.ppsFrame (.refl _ _)))

theorem Keeps.capsSent {p} (h : Keeps s t) : Keeps s (capsSent t p) :=
  h.trans (OnlyPort.keeps (OnlyPort.capsSent (.refl _ _)))

theorem Keeps.capsSend {p goodCrc} (h : Keeps s t) : Keeps s (capsSend t p goodCrc) :=
  h.trans (OnlyPort.keeps (OnlyPort.capsSend (.refl _ _)))

theorem Keeps.sourceCapSend {p goodCrc} (h : Keeps s t) : Keeps s (sourceCapSend p goodCrc t) :=
  h.trans (OnlyPort.keeps (OnlyPort.sourceCapSend (.refl _ _)))

theorem Keeps.sourceCapRepeat {p goodCrc} (h : Keeps s t) : Keeps s (sourceCapRepeat p goodCrc t) :=
  h.trans (OnlyPort.keeps (OnlyPort.sourceCapRepeat (.refl _ _)))

theorem Keeps.collisionWaitExpiry {p} (h : Keeps s t) : Keeps s (collisionWaitExpiry p t) :=
  h.trans (OnlyPort.keeps (OnlyPort.collisionWaitExpiry (.refl _ _)))

theorem Keeps.cableDiscoverAttempt {p} (h : Keeps s t) : Keeps s (cableDiscoverAttempt p t) :=
  h.trans (OnlyPort.keeps (OnlyPort.cableDiscoverAttempt (.refl _ _)))

theorem Keeps.eprDecide {p} (h : Keeps s t) : Keeps s (eprDecide t p) :=
  h.trans (OnlyPort.keeps (OnlyPort.eprDecide (.refl _ _)))

theorem Keeps.cableRecord {p g} (h : Keeps s t) : Keeps s (cableRecord t p g) :=
  h.trans (OnlyPort.keeps (OnlyPort.cableRecord (.refl _ _)))

theorem Keeps.cableIdentityResponse {p c} (h : Keeps s t) : Keeps s (cableIdentityResponse p c t) :=
  h.trans (OnlyPort.keeps (OnlyPort.cableIdentityResponse (.refl _ _)))

theorem Keeps.attemptFailed {p} (h : Keeps s t) : Keeps s (attemptFailed t p) :=
  h.trans (OnlyPort.keeps (OnlyPort.attemptFailed (.refl _ _)))

theorem Keeps.swapUnsent {p} (h : Keeps s t) : Keeps s (swapUnsent t p) :=
  h.trans (OnlyPort.keeps (OnlyPort.swapUnsent (.refl _ _)))

theorem Keeps.goodcrcRetryFail {p sopPrime} (h : Keeps s t) : Keeps s (goodcrcRetryFail p sopPrime t) :=
  h.trans (OnlyPort.keeps (OnlyPort.goodcrcRetryFail (.refl _ _)))

theorem Keeps.senderResponseTimeout {p sopPrime} (h : Keeps s t) : Keeps s (senderResponseTimeout p sopPrime t) :=
  h.trans (OnlyPort.keeps (OnlyPort.senderResponseTimeout (.refl _ _)))

theorem Keeps.protoError {p} (h : Keeps s t) : Keeps s (protoError t p) :=
  h.trans (OnlyPort.keeps (OnlyPort.protoError (.refl _ _)))

theorem Keeps.protocolError {p} (h : Keeps s t) : Keeps s (protocolError p t) :=
  h.trans (OnlyPort.keeps (OnlyPort.protocolError (.refl _ _)))

theorem Keeps.softResetTimeout {p} (h : Keeps s t) : Keeps s (softResetTimeout p t) :=
  h.trans (OnlyPort.keeps (OnlyPort.softResetTimeout (.refl _ _)))

theorem Keeps.softResetReceived {p} (h : Keeps s t) : Keeps s (softResetReceived p t) :=
  h.trans (OnlyPort.keeps (OnlyPort.softResetReceived (.refl _ _)))

theorem Keeps.acceptRequest {p q c} (h : Keeps s t) : Keeps s (acceptRequest t p q c) :=
  h.trans (OnlyPort.keeps (OnlyPort.acceptRequest (.refl _ _)))

theorem Keeps.rejectRequest {p check} (h : Keeps s t) : Keeps s (rejectRequest t p check) :=
  h.trans (OnlyPort.keeps (OnlyPort.rejectRequest (.refl _ _)))

theorem Keeps.requestReceived {p q} (h : Keeps s t) : Keeps s (requestReceived p q t) :=
  h.trans (OnlyPort.keeps (OnlyPort.requestReceived (.refl _ _)))

theorem Keeps.transitionStart {p} (h : Keeps s t) : Keeps s (transitionStart p t) :=
  h.trans (OnlyPort.keeps (OnlyPort.transitionStart (.refl _ _)))

theorem Keeps.firstContractDone {p} (h : Keeps s t) : Keeps s (firstContractDone t p) :=
  h.trans (OnlyPort.keeps (OnlyPort.firstContractDone (.refl _ _)))

theorem Keeps.transitionSettled {p} (h : Keeps s t) : Keeps s (transitionSettled p t) :=
  h.trans (OnlyPort.keeps (OnlyPort.transitionSettled (.refl _ _)))

theorem Keeps.phasesNotPlacedTimeout {p} (h : Keeps s t) : Keeps s (phasesNotPlacedTimeout p t) :=
  h.trans (OnlyPort.keeps (OnlyPort.phasesNotPlacedTimeout (.refl _ _)))

theorem Keeps.ppsTimeout {p} (h : Keeps s t) : Keeps s (ppsTimeout p t) :=
  h.trans (OnlyPort.keeps (OnlyPort.ppsTimeout (.refl _ _)))

theorem Keeps.eprModeEnter {p} (h : Keeps s t) : Keeps s (eprModeEnter p t) :=
  h.trans (OnlyPort.keeps (OnlyPort.eprModeEnter (.refl _ _)))

theorem Keeps.eprKeepalive {p} (h : Keeps s t) : Keeps s (eprKeepalive p t) :=
  h.trans (OnlyPort.keeps (OnlyPort.eprKeepalive (.refl _ _)))

theorem Keeps.eprKeepaliveTimeout {p} (h : Keeps s t) : Keeps s (eprKeepaliveTimeout p t) :=
  h.trans (OnlyPort.keeps (OnlyPort.eprKeepaliveTimeout (.refl _ _)))

theorem Keeps.leaveEpr {p} (h : Keeps s t) : Keeps s (leaveEpr t p) :=
  h.trans (OnlyPort.keeps (OnlyPort.leaveEpr (.refl _ _)))

theorem Keeps.eprModeExit {p} (h : Keeps s t) : Keeps s (eprModeExit p t) :=
  h.trans (OnlyPort.keeps (OnlyPort.eprModeExit (.refl _ _)))

theorem Keeps.eprExitCaps {p} (h : Keeps s t) : Keeps s (eprExitCaps t p) :=
  h.trans (OnlyPort.keeps (OnlyPort.eprExitCaps (.refl _ _)))

theorem Keeps.eprPartExit {p} (h : Keeps s t) : Keeps s (eprPartExit p t) :=
  h.trans (OnlyPort.keeps (OnlyPort.eprPartExit (.refl _ _)))

theorem Keeps.eprEnClear {p} (h : Keeps s t) : Keeps s (eprEnClear p t) :=
  h.trans (OnlyPort.keeps (OnlyPort.eprEnClear (.refl _ _)))

theorem Keeps.loweredCapsTimeout {p} (h : Keeps s t) : Keeps s (loweredCapsTimeout p t) :=
  h.trans (OnlyPort.keeps (OnlyPort.loweredCapsTimeout (.refl _ _)))

theorem Keeps.answer {p m} (h : Keeps s t) : Keeps s (answer t p m) :=
  h.trans (OnlyPort.keeps (OnlyPort.answer (.refl _ _)))

theorem Keeps.getSourceCap {p} (h : Keeps s t) : Keeps s (getSourceCap p t) :=
  h.trans (OnlyPort.keeps (OnlyPort.getSourceCap (.refl _ _)))

theorem Keeps.getSinkCap {p} (h : Keeps s t) : Keeps s (getSinkCap p t) :=
  h.trans (OnlyPort.keeps (OnlyPort.getSinkCap (.refl _ _)))

theorem Keeps.getSourceCapExtended {p} (h : Keeps s t) : Keeps s (getSourceCapExtended p t) :=
  h.trans (OnlyPort.keeps (OnlyPort.getSourceCapExtended (.refl _ _)))

theorem Keeps.getStatus {p} (h : Keeps s t) : Keeps s (getStatus p t) :=
  h.trans (OnlyPort.keeps (OnlyPort.getStatus (.refl _ _)))

theorem Keeps.getPpsStatus {p} (h : Keeps s t) : Keeps s (getPpsStatus p t) :=
  h.trans (OnlyPort.keeps (OnlyPort.getPpsStatus (.refl _ _)))

theorem Keeps.getSourceInfo {p} (h : Keeps s t) : Keeps s (getSourceInfo p t) :=
  h.trans (OnlyPort.keeps (OnlyPort.getSourceInfo (.refl _ _)))

theorem Keeps.getRevision {p} (h : Keeps s t) : Keeps s (getRevision p t) :=
  h.trans (OnlyPort.keeps (OnlyPort.getRevision (.refl _ _)))

theorem Keeps.alertReceived {p ado} (h : Keeps s t) : Keeps s (alertReceived p ado t) :=
  h.trans (OnlyPort.keeps (OnlyPort.alertReceived (.refl _ _)))

theorem Keeps.unsupportedRequest {p} (h : Keeps s t) : Keeps s (unsupportedRequest p t) :=
  h.trans (OnlyPort.keeps (OnlyPort.unsupportedRequest (.refl _ _)))

theorem Keeps.hardResetReceived {p} (h : Keeps s t) : Keeps s (hardResetReceived p t) :=
  h.trans (OnlyPort.keeps (OnlyPort.hardResetReceived (.refl _ _)))

theorem Keeps.hardResetTakedown {p} (h : Keeps s t) : Keeps s (hardResetTakedown p t) :=
  h.trans (OnlyPort.keeps (OnlyPort.hardResetTakedown (.refl _ _)))

theorem Keeps.hardResetRecover {p} (h : Keeps s t) : Keeps s (hardResetRecover p t) :=
  h.trans (OnlyPort.keeps (OnlyPort.hardResetRecover (.refl _ _)))

theorem Keeps.lossOfConversion {p} (h : Keeps s t) : Keeps s (lossOfConversion p t) :=
  h.trans (OnlyPort.keeps (OnlyPort.lossOfConversion (.refl _ _)))

theorem Keeps.outOfServiceReturn {p} (h : Keeps s t) : Keeps s (outOfServiceReturn p t) :=
  h.trans (OnlyPort.keeps (OnlyPort.outOfServiceReturn (.refl _ _)))

theorem Keeps.holdMessageAnswer {p keepAlive} (h : Keeps s t) : Keeps s (holdMessageAnswer p keepAlive t) :=
  h.trans (OnlyPort.keeps (OnlyPort.holdMessageAnswer (.refl _ _)))

theorem Keeps.holdHardReset {p} (h : Keeps s t) : Keeps s (holdHardReset p t) :=
  h.trans (OnlyPort.keeps (OnlyPort.holdHardReset (.refl _ _)))

theorem Keeps.sinkSourceCapReceived {p objs} (h : Keeps s t) : Keeps s (sinkSourceCapReceived p objs t) :=
  h.trans (OnlyPort.keeps (OnlyPort.sinkSourceCapReceived (.refl _ _)))

theorem Keeps.sinkAcceptReceived {p psRdy} (h : Keeps s t) : Keeps s (sinkAcceptReceived p psRdy t) :=
  h.trans (OnlyPort.keeps (OnlyPort.sinkAcceptReceived (.refl _ _)))

theorem Keeps.sinkVbusCheckTimeout {p} (h : Keeps s t) : Keeps s (sinkVbusCheckTimeout p t) :=
  h.trans (OnlyPort.keeps (OnlyPort.sinkVbusCheckTimeout (.refl _ _)))

theorem Keeps.setPg {x b} (h : Keeps s t) : Keeps s (t.setPg x b) :=
  Keeps.ite h (Keeps.pushEvent ((h.updFeed _ _).ifThen fun k0 => k0.set rfl))

theorem Keeps.giveTurn {x} (h : Keeps s t) : Keeps s (t.giveTurn x) :=
  Keeps.ite (h.set rfl) h

theorem Keeps.startRamp {x} (h : Keeps s t) : Keeps s (t.startRamp x) :=
  Keeps.updFeed (h.set rfl) _ _

theorem Keeps.gatesOff {x st} (h : Keeps s t) : Keeps s (t.gatesOff x st) :=
  (h.updFeed _ _).setPg

theorem Keeps.feedTrip {x cause : Nat} (h : Keeps s t) : Keeps s (t.feedTrip x cause) := by
  unfold State.feedTrip
  extract_lets f s1 s2
  have k1 : Keeps s s1 := h.raise.updFeed _ _
  have k2 : Keeps s s2 := Keeps.ite (k1.set rfl) k1
  exact (k2.gatesOff.updFeed _ _).ite (k2.gatesOff.updFeed _ _).giveTurn.raise

theorem Keeps.timerToFast {x} (h : Keeps s t) : Keeps s (t.timerToFast x) :=
  (h.updFeed _ _).raise

theorem Keeps.feedHoldOff {x ov} (h : Keeps s t) : Keeps s (t.feedHoldOff x ov) :=
  ((h.gatesOff.updFeed _ _).giveTurn).raise

theorem Keeps.feedOff {x} (h : Keeps s t) : Keeps s (t.feedOff x) :=
  h.gatesOff.giveTurn

theorem Keeps.feedQualify {x} (h : Keeps s t) : Keeps s (t.feedQualify x) :=
  h.updFeed _ _

theorem Keeps.feedEnable {x} (h : Keeps s t) : Keeps s (t.feedEnable x) :=
  Keeps.ite ((h.updFeed _ _).ifElse fun k0 => k0.feedOff) ((h.updFeed _ _).ifThen fun k0 => k0.feedQualify)

theorem Keeps.feedQualifyComplete {x} (h : Keeps s t) : Keeps s (feedQualifyComplete x t) :=
  Keeps.ite h.startRamp h

theorem Keeps.feedWindowLoss {x} (h : Keeps s t) : Keeps s (feedWindowLoss x t) :=
  Keeps.ite (h.updFeed _ _) h

theorem Keeps.feedRampTurnTake {x} (h : Keeps s t) : Keeps s (feedRampTurnTake x t) :=
  Keeps.ite h.startRamp h

theorem Keeps.feedRampTimeout {x} (h : Keeps s t) : Keeps s (feedRampTimeout x t) :=
  Keeps.ite h.feedTrip h

theorem Keeps.feedFastTrip {x nv} (h : Keeps s t) : Keeps s (feedFastTrip x nv t) :=
  Keeps.ite (Keeps.ite h.feedTrip (Keeps.ite h.timerToFast h)) h

theorem Keeps.feedFaultTimerTrip {x} (h : Keeps s t) : Keeps s (feedFaultTimerTrip x t) :=
  Keeps.ite h.feedTrip h

theorem Keeps.feedFaultTimerReset {x} (h : Keeps s t) : Keeps s (feedFaultTimerReset x t) :=
  Keeps.ite (h.updFeed _ _) h

theorem Keeps.feedOvTurnoff {x sns} (h : Keeps s t) : Keeps s (feedOvTurnoff x sns t) :=
  Keeps.ite h.feedHoldOff h

theorem Keeps.feedUvRun {x} (h : Keeps s t) : Keeps s (feedUvRun x t) :=
  Keeps.ite h.feedHoldOff h

theorem Keeps.feedGood {x} (h : Keeps s t) : Keeps s (t.feedGood x) :=
  (((h.updFeed _ _).giveTurn).setPg).ifThen fun k0 => k0.set rfl

theorem Keeps.feedFullyOn {m} (h : Keeps s t) : Keeps s (feedFullyOn m t) :=
  Keeps.ite (h.feedFastTrip.feedFaultTimerTrip.feedOvTurnoff.feedUvRun.ifThen fun k0 => k0.feedGood) h

theorem Keeps.feedHoldoffReturn {x} (h : Keeps s t) : Keeps s (feedHoldoffReturn x t) :=
  Keeps.ite h.startRamp h

theorem Keeps.feedRetryDelayEnd {x} (h : Keeps s t) : Keeps s (feedRetryDelayEnd x t) :=
  Keeps.ite (Keeps.ite (Keeps.ite h.startRamp h) ((h.updFeed _ _).giveTurn)) h

theorem Keeps.feedReverseTurnoff {x drop} (h : Keeps s t) : Keeps s (feedReverseTurnoff x drop t) :=
  Keeps.ite (h.updFeed _ _) h

theorem Keeps.feedOdgTurnOn {x} (h : Keeps s t) : Keeps s (feedOdgTurnOn x t) :=
  Keeps.ite (h.updFeed _ _) h

theorem Keeps.feedIdealDiodeFault {x} (h : Keeps s t) : Keeps s (feedIdealDiodeFault x t) :=
  Keeps.ite h.raise h

theorem Keeps.feedTripCountClear {x} (h : Keeps s t) : Keeps s (feedTripCountClear x t) :=
  Keeps.ite (h.updFeed _ _) h

theorem Keeps.runOp {pl : Place} {op : Nat} {act : Cmd → Bool} {go : Cmd → State} (h : Keeps s t) (k : ∀ c, Keeps s (go c)) :
    Keeps s (t.runOp pl op act go) := by
  unfold State.runOp
  split
  · exact (h.finish.ite (k _)).ite h
  · exact h

theorem Keeps.stopPhase {k bit} (h : Keeps s t) : Keeps s (t.stopPhase k bit) :=
  (h.updPhase _ _).raise

theorem Keeps.stopRidge {r bit : Nat} (h : Keeps s t) : Keeps s (t.stopRidge r bit) := by
  unfold State.stopRidge
  extract_lets a b c
  have ka : Keeps s a := h.overN fun _ _ k => k.updPhase _ _
  have kb : Keeps s b := ka.overN fun _ _ k => k.updPath _ _
  have kc : Keeps s c := kb.updRidgeEng _ _ fun _ => (Engine.Kept.refl _).set rfl
  exact kc.raise

theorem Keeps.statPace {k} (h : Keeps s t) : Keeps s (statPace k t) :=
  h.updPhase _ _

theorem Keeps.restat {k : Nat} (h : Keeps s t) : Keeps s (restat k t) := by
  unfold Machine.restat
  extract_lets r q a
  exact h.ite (h.statPace.updRidgeEng _ _ fun _ => ⟨id, fun ⟨hx, hy⟩ => ⟨cellsWf_write hx (Nat.zero_le _), hy⟩⟩)

theorem Keeps.refuse {k reason} (h : Keeps s t) : Keeps s (t.refuse k reason) :=
  Keeps.raise ((h.updPhase _ _).updRidge _ _ (fun _ => rfl))

theorem Keeps.guardRequest {k r} (h : Keeps s t) : Keeps s (guardRequest t k r) :=
  Keeps.ite h (Keeps.ite h.refuse (Keeps.ite h.refuse (h.updPhase _ _)))

theorem Keeps.guardDrainZero {k} (h : Keeps s t) : Keeps s (guardDrainZero k t) :=
  Keeps.ite ((h.updPhase _ _).restat) h

theorem Keeps.guardDrainTimeout {k} (h : Keeps s t) : Keeps s (guardDrainTimeout k t) :=
  Keeps.ite h.refuse.restat h

theorem Keeps.guardZeroCountDone {k} (h : Keeps s t) : Keeps s (guardZeroCountDone k t) :=
  Keeps.ite ((h.updPhase _ _).restat) h

theorem Keeps.guardCountTimeout {k} (h : Keeps s t) : Keeps s (guardCountTimeout k t) :=
  Keeps.ite h.refuse.restat h

theorem Keeps.guardBreakDone {k} (h : Keeps s t) : Keeps s (guardBreakDone k t) :=
  Keeps.ite (Keeps.restat ((h.updPhase _ _).ifThen fun k0 => k0.updRidge _ _ (fun _ => rfl))) h

theorem Keeps.guardPrebiasTimeout {k} (h : Keeps s t) : Keeps s (guardPrebiasTimeout k t) :=
  Keeps.ite h.refuse.restat h

theorem Keeps.carrierStart {k} (h : Keeps s t) : Keeps s (carrierStart k t) :=
  Keeps.ite (h.updPhase _ _) h

theorem Keeps.peakValleyLimit {k ma cyc} (h : Keeps s t) : Keeps s (peakValleyLimit k ma cyc t) :=
  Keeps.ite (h.updPhase _ _) h

theorem Keeps.pklimStop {k} (h : Keeps s t) : Keeps s (pklimStop k t) :=
  Keeps.ite h.stopPhase h

theorem Keeps.phaseAbsentRun {k} (h : Keeps s t) : Keeps s (phaseAbsentRun k t) :=
  Keeps.ite ((h.updPhase _ _).stopPhase) h

theorem Keeps.phaseInvStop {k} (h : Keeps s t) : Keeps s (phaseInvStop k t) :=
  Keeps.ite (Keeps.raise (Keeps.ite h (h.updPhase _ _))) h

theorem Keeps.stopBy {r bit} (h : Keeps s t) : Keeps s (t.stopBy r bit) :=
  Keeps.ite h.stopRidge (Keeps.ite h.raise h)

theorem Keeps.stageFault {r} (h : Keeps s t) : Keeps s (stageFault r t) :=
  Keeps.ite h.stopBy h

theorem Keeps.ridgeHot {r} (h : Keeps s t) : Keeps s (ridgeHot r t) :=
  Keeps.ite h.stopBy h

theorem Keeps.ntcOutOfRange {r} (h : Keeps s t) : Keeps s (ntcOutOfRange r t) :=
  Keeps.ite h.raise h

theorem Keeps.takeProbes (h : Keeps s t) : Keeps s (takeProbes t) :=
  h.overN fun _ _ k0 => k0.updRidge _ _ (fun _ => rfl)

theorem Keeps.solveNow (h : Keeps s t) : Keeps s (solveNow t) :=
  Keeps.overN (h.takeProbes.set rfl) fun _ _ k0 => k0.updPd _ _

theorem Keeps.innkeeperSolveComplete (h : Keeps s t) : Keeps s (innkeeperSolveComplete t) :=
  Keeps.ite h.solveNow h

theorem Keeps.taskCapReached {t'} (h : Keeps s t) : Keeps s (taskCapReached t' t) :=
  Keeps.ite (by split; exacts [Keeps.ite (h.set rfl) h, Keeps.raise (h.set rfl), Keeps.raise (h.set rfl)]) h

theorem Keeps.degradedEnd (h : Keeps s t) : Keeps s (degradedEnd t) :=
  Keeps.ite (h.set rfl) h

theorem Keeps.dipHoldEnd (h : Keeps s t) : Keeps s (dipHoldEnd t) :=
  Keeps.ite (h.set rfl) h

theorem Keeps.dipExit (h : Keeps s t) : Keeps s (dipExit t) :=
  Keeps.ite (h.set rfl) h

theorem Keeps.feedlessExpiry (h : Keeps s t) : Keeps s (feedlessExpiry t) :=
  Keeps.ite (h.set rfl) h

theorem Keeps.overdrawTypecEnd {p} (h : Keeps s t) : Keeps s (overdrawTypecEnd p t) :=
  h.trans (OnlyPort.keeps (OnlyPort.overdrawTypecEnd (.refl _ _)))

theorem Keeps.shedPort {p} (h : Keeps s t) : Keeps s (t.shedPort p) :=
  h.trans (OnlyPort.keeps (OnlyPort.shedPort (.refl _ _)))

theorem Keeps.shedBackstop {p} (h : Keeps s t) : Keeps s (shedBackstop p t) :=
  Keeps.ite (Keeps.updRidge (Keeps.shedPort (h.overList fun _ _ k0 => k0.updPhase _ _)) _ _ (fun _ => rfl)) h

theorem Keeps.checkPhase {k} (h : Keeps s t) : Keeps s (checkPhase t k) :=
  Keeps.ite h (Keeps.ite (Keeps.ite ((h.updPhase _ _).stopPhase) (h.updPhase _ _)) (h.updPhase _ _))

theorem Keeps.publish {r cyc} (h : Keeps s t) : Keeps s (t.publish r cyc) :=
  h.updRidge _ _ (fun _ => rfl)

theorem Keeps.publishWindow {r} (h : Keeps s t) : Keeps s (publishWindow r t) :=
  Keeps.ite (Keeps.ifElse (Keeps.updRidge (h.overN fun _ _ k0 => k0.checkPhase) _ _ (fun _ => rfl)) fun k0 => k0.raise) h

theorem Keeps.publishWindows (h : Keeps s t) : Keeps s (publishWindows t) :=
  h.overN fun _ _ k0 => k0.publishWindow

theorem Keeps.paceOverrun {r : Nat} (h : Keeps s t) : Keeps s (paceOverrun r t) := by
  unfold Machine.paceOverrun
  extract_lets q a b
  have ka : Keeps s a := h.raise.updRidgeEng _ _ fun _ => (Engine.Kept.refl _).set rfl
  have kb : Keeps s b := ka.overN fun _ _ k => k.updPhase _ _
  exact Keeps.ite (Keeps.ite kb.stopRidge (kb.updRidge _ _ fun _ => rfl)) h

theorem Keeps.passRequests {r} (h : Keeps s t) : Keeps s (passRequests r t) :=
  Keeps.overN (h.updRidge _ _ (fun _ => rfl)) fun _ _ k0 => k0.guardRequest

theorem Keeps.guardRidge {r} (h : Keeps s t) : Keeps s (guardRidge r t) :=
  Keeps.ite h (Keeps.passRequests (h.overN fun _ _ k0 => k0.updPhase _ _))

theorem Keeps.probePace {r} (h : Keeps s t) : Keeps s (probePace r t) := by
  unfold Machine.probePace
  split
  · exact h
  · exact h.updRidge _ _ (fun _ => rfl)

theorem Keeps.takeOutput {r} (h : Keeps s t) : Keeps s (takeOutput r t) :=
  Keeps.overN (h.overN fun _ _ k0 => Keeps.ite ((k0.updPhase _ _).raise) k0) fun _ _ k0 => (k0.updPath _ _).ifThen fun k1 => k1.shedPort

theorem Keeps.outShed {r} (h : Keeps s t) : Keeps s (outShed t r) :=
  h.overN fun _ _ k0 => Keeps.ite (k0.updRidge _ _ (fun _ => rfl)) k0

theorem Keeps.returnEnds {p} (h : Keeps s t) : Keeps s (returnEnds t p) :=
  h.trans (OnlyPort.keeps (OnlyPort.returnEnds (.refl _ _)))

theorem Keeps.portPace {m p} (h : Keeps s t) : Keeps s (portPace m p t) :=
  h.trans (OnlyPort.keeps (OnlyPort.portPace (.refl _ _)))

theorem Keeps.senseFaults {m} (h : Keeps s t) : Keeps s (senseFaults m t) :=
  Keeps.ifElse (Keeps.ifThen (Keeps.ite h.raise h) fun k0 => k0.raise) fun k0 => k0.raise

theorem Keeps.takeMasks (h : Keeps s t) : Keeps s (takeMasks t) :=
  Keeps.foldl (h.set rfl) fun _ _ k0 => by split; exacts [k0.setFlt, k0]

theorem Keeps.takePin (h : Keeps s t) : Keeps s (takePin t) := by
  unfold Machine.takePin
  split
  · exact h
  · exact h.set rfl

theorem Keeps.newPace (h : Keeps s t) : Keeps s (t.newPace) :=
  h.takeMasks.takePin

theorem Keeps.nextPace (h : Keeps s t) (e : nextPace t = some u) : Keeps s u := by
  unfold Machine.nextPace at e
  split at e
  · obtain rfl := Option.some.inj e
    exact h.set rfl
  split at e
  · obtain rfl := Option.some.inj e
    exact h.set rfl
  · cases e

theorem Keeps.paceBoundary {m : PaceSense} (h : Keeps s t) : Keeps s (paceBoundary m t) := by
  unfold Machine.paceBoundary
  refine Keeps.ite ?_ h
  split
  · exact h
  · next u e =>
    extract_lets _ a b c d e' f g i j k l m' n o
    have ka : Keeps s a := (h.publishWindows.nextPace e).supEng ((Engine.Kept.refl _).set rfl)
    have kb : Keeps s b := Keeps.senseFaults (Keeps.ite ka ka.newPace)
    have kc : Keeps s c := kb.overN fun _ _ k => k.updPhase _ _
    have kd : Keeps s d := kc.overN fun _ _ k => Keeps.ite (k.updPhase _ _) k
    clear_value d
    have ke : Keeps s e' := kd.set rfl
    have kf : Keeps s f := ke.overN fun _ _ k => k.probePace
    have kg : Keeps s g := kf.overN fun _ _ k => k.portPace
    have ki : Keeps s i := kg.overN fun _ _ k => k.guardRidge
    have kj : Keeps s j := ki.overN fun _ _ k => k.updPhase _ _
    have kk : Keeps s k := kj.overN fun _ _ k => k.recalPace
    have kl : Keeps s l := kk.capturePaces
    have km : Keeps s m' := kl.overN fun _ _ k => k.updFeed _ _
    have kn : Keeps s n := Keeps.overN km fun _ _ k => Keeps.outShed (Keeps.takeOutput (k.updRidge _ _ fun _ => rfl))
    have ko : Keeps s o := kn.overN fun _ _ k => k.statPace
    clear_value o
    exact Keeps.overN ko fun _ _ k => Keeps.ite k (k.updRidgeEng _ _ fun _ => Engine.Kept.setMem cellsWf_dmaIn id)

theorem Keeps.lawPhase {r parts j} (h : Keeps s t) : Keeps s (lawPhase r parts j t) :=
  (h.freeNext.updPhase _ _).ifThen fun k0 => k0.updRidge _ _ (fun _ => rfl)

theorem Keeps.lawPort {r j : Nat} (h : Keeps s t) : Keeps s (lawPort r j t) := by
  unfold Machine.lawPort
  extract_lets p ref g i a b
  have kb : Keeps s b := (h.freeNext.updPath _ _).updPd _ _
  exact h.ite (kb.updRidgeEng _ _ fun _ => ⟨id, fun ⟨hx, hy⟩ =>
    ⟨cellsWf_store _ hx, cellsWf_write (cellsWf_write hy (Nat.zero_le _)) (Nat.zero_le _)⟩⟩)

theorem Keeps.lawShed {r j} (h : Keeps s t) : Keeps s (lawShed r j t) :=
  Keeps.ite h.shedPort h

theorem Keeps.lawWords {r : Nat} (h : Keeps s t) : Keeps s (lawWords r t) := by
  unfold Machine.lawWords
  extract_lets sets x0 x1 x2 x3
  have h1 : t.Inv → cellsWf 0 x1 = true := fun hi =>
    cellsWf_foldl _ _ (fun _ _ hc => cellsWf_write hc (Nat.zero_le _)) (State.MemOk.eng hi.2 r).1
  have h2 : t.Inv → cellsWf 0 x2 = true := by
    clear_value x1
    exact fun hi => cellsWf_store _ (h1 hi)
  have h3 : t.Inv → cellsWf 0 x3 = true := by
    clear_value x2
    exact fun hi => cellsWf_store _ (h2 hi)
  clear_value x3
  have ka : Keeps s { t with freeN := t.freeN + 8 } := h.set rfl
  exact ka.updRidgeOf _ _ (fun _ _ => id) fun hi _ ⟨_, hy⟩ => ⟨h3 hi, hy⟩

theorem Keeps.lawPace {r : Nat} (h : Keeps s t) : Keeps s (lawPace r t) := by
  unfold Machine.lawPace
  extract_lets a b c d
  have ka : Keeps s a := h.overN fun _ _ k => k.lawPort
  have kb : Keeps s b := ka.overN fun _ _ k => k.lawShed
  have kc : Keeps s c := kb.overN fun _ _ k => k.lawPhase
  have kd : Keeps s d := kc.lawWords
  clear_value d
  exact kd.updRidgeEng _ _ fun _ => Engine.Kept.setMem id fun hy => cellsWf_write (cellsWf_store _ hy) (Nat.zero_le _)

theorem Keeps.ridgeProgramStart {r : Nat} (h : Keeps s t) : Keeps s (ridgeProgramStart r t) := by
  unfold Machine.ridgeProgramStart
  extract_lets q a
  have ka : Keeps s a := h.updRidgeEng _ _ fun _ => ⟨fun ⟨_, hn, _⟩ => ⟨rfl, hn, rfl⟩, id⟩
  exact (ka.ite ka.lawPace).ite h

theorem Keeps.clearItem {id : Nat} (h : Keeps s t) : Keeps s (clearItem t id) :=
  (h.updPort _ _).ite (h.updRidge _ _ fun q => by split <;> rfl)

theorem Keeps.noteEarly {id v} (h : Keeps s t) : Keeps s (noteEarly t id v) :=
  Keeps.ite (h.set rfl) h

theorem Keeps.applyItem {id v} (h : Keeps s t) : Keeps s (applyItem t id v) := by
  unfold Machine.applyItem
  split
  · exact h
  · exact Keeps.ite h.clearItem (Keeps.markItem (Keeps.noteEarly (by split <;> exact h.set rfl)))

theorem Keeps.sampleAttn {pl c} (h : Keeps s t) : Keeps s (sampleAttn t pl c) :=
  Keeps.ite (h.set rfl) h

theorem Keeps.readAccessory {ids} (h : Keeps s t) : Keeps s (readAccessory t ids) :=
  h.overN fun _ _ k0 => Keeps.ite (k0.updCc _ _) k0

theorem Keeps.getParam {pl} (h : Keeps s t) : Keeps s (getParam pl t) :=
  h.runOp fun _ => h.readAccessory.finish.sampleAttn

theorem Keeps.applyEntries {c : Cmd} {es : List (Nat × Nat)} (h : Keeps s t) : Keeps s (applyEntries c es t).1 := by
  induction es generalizing t with
  | nil => exact h
  | cons e es ih =>
    unfold Machine.applyEntries
    split
    · exact ih h
    · exact ih (Keeps.applyItem (h.set rfl))

theorem Keeps.setParam {pl : Place} (h : Keeps s t) : Keeps s (setParam pl t) := by
  refine h.runOp fun c => h.finish.ite ?_
  exact Keeps.ite (Keeps.ok h.applyEntries) (Keeps.finish h.applyEntries)

theorem Keeps.beginSwap {p kd mine step} (h : Keeps s t) : Keeps s (beginSwap t p kd mine step) :=
  h.trans (OnlyPort.keeps (OnlyPort.beginSwap (.refl _ _)))

theorem Keeps.prSwapSend {p} (h : Keeps s t) : Keeps s (prSwapSend p t) :=
  h.trans (OnlyPort.keeps (OnlyPort.prSwapSend (.refl _ _)))

theorem Keeps.prSwapOff {p} (h : Keeps s t) : Keeps s (prSwapOff t p) :=
  h.trans (OnlyPort.keeps (OnlyPort.prSwapOff (.refl _ _)))

theorem Keeps.prSwapAccept {p} (h : Keeps s t) : Keeps s (prSwapAccept p t) :=
  h.trans (OnlyPort.keeps (OnlyPort.prSwapAccept (.refl _ _)))

theorem Keeps.prSwapPsRdy {p} (h : Keeps s t) : Keeps s (prSwapPsRdy p t) :=
  h.trans (OnlyPort.keeps (OnlyPort.prSwapPsRdy (.refl _ _)))

theorem Keeps.prSwapConfirm {p} (h : Keeps s t) : Keeps s (prSwapConfirm t p) :=
  h.trans (OnlyPort.keeps (OnlyPort.prSwapConfirm (.refl _ _)))

theorem Keeps.swapToRecovery {p} (h : Keeps s t) : Keeps s (swapToRecovery t p) :=
  h.trans (OnlyPort.keeps (OnlyPort.swapToRecovery (.refl _ _)))

theorem Keeps.prSwapSourceOffTimeout {p} (h : Keeps s t) : Keeps s (prSwapSourceOffTimeout p t) :=
  h.trans (OnlyPort.keeps (OnlyPort.prSwapSourceOffTimeout (.refl _ _)))

theorem Keeps.prSwapVbusConfirmTimeout {p} (h : Keeps s t) : Keeps s (prSwapVbusConfirmTimeout p t) :=
  h.trans (OnlyPort.keeps (OnlyPort.prSwapVbusConfirmTimeout (.refl _ _)))

theorem Keeps.prSwapReceived {p} (h : Keeps s t) : Keeps s (prSwapReceived p t) :=
  h.trans (OnlyPort.keeps (OnlyPort.prSwapReceived (.refl _ _)))

theorem Keeps.drComplete {p} (h : Keeps s t) : Keeps s (drComplete t p) :=
  h.trans (OnlyPort.keeps (OnlyPort.drComplete (.refl _ _)))

theorem Keeps.drSwapReceived {p goodCrc} (h : Keeps s t) : Keeps s (drSwapReceived p goodCrc t) :=
  h.trans (OnlyPort.keeps (OnlyPort.drSwapReceived (.refl _ _)))

theorem Keeps.drSwapStart {p} (h : Keeps s t) : Keeps s (drSwapStart t p) :=
  h.trans (OnlyPort.keeps (OnlyPort.drSwapStart (.refl _ _)))

theorem Keeps.drSwapFrame {p} (h : Keeps s t) : Keeps s (drSwapFrame t p) :=
  h.trans (OnlyPort.keeps (OnlyPort.drSwapFrame (.refl _ _)))

theorem Keeps.portDrSwap {pl} (h : Keeps s t) : Keeps s (portDrSwap pl t) :=
  h.runOp fun _ => Keeps.ite h.finish (Keeps.ite (h.startSeq fun _ k1 => (((k1.updDc _ _).updSw _ _).send).hold)
    (h.startSeq fun _ k1 => k1.drSwapStart.hold))

theorem Keeps.vconnSwapSend {p} (h : Keeps s t) : Keeps s (vconnSwapSend p t) :=
  h.trans (OnlyPort.keeps (OnlyPort.vconnSwapSend (.refl _ _)))

theorem Keeps.vconnSwapTake {p} (h : Keeps s t) : Keeps s (vconnSwapTake t p) :=
  h.trans (OnlyPort.keeps (OnlyPort.vconnSwapTake (.refl _ _)))

theorem Keeps.vconnSwapReceived {p} (h : Keeps s t) : Keeps s (vconnSwapReceived p t) :=
  h.trans (OnlyPort.keeps (OnlyPort.vconnSwapReceived (.refl _ _)))

theorem Keeps.vconnSwapPartnerPsRdy {p} (h : Keeps s t) : Keeps s (vconnSwapPartnerPsRdy p t) :=
  h.trans (OnlyPort.keeps (OnlyPort.vconnSwapPartnerPsRdy (.refl _ _)))

theorem Keeps.vconnSourceTimeout {p} (h : Keeps s t) : Keeps s (vconnSourceTimeout p t) :=
  h.trans (OnlyPort.keeps (OnlyPort.vconnSourceTimeout (.refl _ _)))

theorem Keeps.swapResponseTimeout {p} (h : Keeps s t) : Keeps s (swapResponseTimeout p t) :=
  h.trans (OnlyPort.keeps (OnlyPort.swapResponseTimeout (.refl _ _)))

theorem Keeps.swapReplyReceived {p r} (h : Keeps s t) : Keeps s (swapReplyReceived p r t) :=
  h.trans (OnlyPort.keeps (OnlyPort.swapReplyReceived (.refl _ _)))

theorem Keeps.swapSuppressionEnd {p kd} (h : Keeps s t) : Keeps s (swapSuppressionEnd p kd t) :=
  h.trans (OnlyPort.keeps (OnlyPort.swapSuppressionEnd (.refl _ _)))

theorem Keeps.sinkVbusRestoreTimeout {p} (h : Keeps s t) : Keeps s (sinkVbusRestoreTimeout p t) :=
  h.trans (OnlyPort.keeps (OnlyPort.sinkVbusRestoreTimeout (.refl _ _)))

theorem Keeps.switchBank {r : Nat} (h : Keeps s t) : Keeps s (t.switchBank r) := by
  unfold State.switchBank
  extract_lets a _ b
  have ka : Keeps s a := h.updRidgeEng _ _ fun _ => (Engine.Kept.refl _).files rfl (fun _ => rfl) rfl rfl
  have kb : Keeps s b := Keeps.ite (ka.set rfl) ka.markDirty
  exact kb.finishWait

theorem Keeps.bankSwitch {r} (h : Keeps s t) : Keeps s (bankSwitch r t) :=
  Keeps.ite h.switchBank h

theorem Keeps.restartRidge {r : Nat} (h : Keeps s t) : Keeps s (t.restartRidge r) := by
  unfold State.restartRidge
  extract_lets a b
  have ka : Keeps s a := h.switchBank.ite h
  have kb : Keeps s b := ka.overN fun _ _ k => k.updPhase _ _
  exact kb.updRidgeEng _ _ fun _ => (Engine.Kept.refl _).files rfl (fun _ => rfl) rfl rfl

theorem Keeps.release {b w} (h : Keeps s t) : Keeps s (t.release b w) := by
  unfold Machine.State.release
  split
  · exact Keeps.ite ((h.updFeed _ _).ifThen fun k0 => k0.feedQualify) h
  · exact Keeps.ite h.enablePort h
  · exact Keeps.ite ((h.updPath _ _).ifThen fun k0 => k0.enablePort) h
  · exact h.updPhase _ _
  · exact Keeps.ifThen (h.updRidge _ _ (fun _ => rfl)) fun k0 => k0.restartRidge
  · exact h

theorem Keeps.clearFault {b mask} (h : Keeps s t) : Keeps s (t.clearFault b mask) :=
  Keeps.release (h.setFlt.overN fun _ _ k0 => Keeps.ite k0.raise k0)

theorem Keeps.clearAt {pl} (h : Keeps s t) : Keeps s (clearAt pl t) := by
  unfold Machine.clearAt
  split; exacts [Keeps.ite (by split; exacts [h.clearFault.hold, h]) h, h]

theorem Keeps.dueClears (h : Keeps s t) : Keeps s (dueClears t) :=
  h.clearAt.clearAt.clearAt.clearAt

theorem Keeps.heldLedger (h : Keeps s t) : Keeps s (heldLedger t) := by
  unfold Machine.heldLedger
  extract_lets a full frames b _ c d _
  have ka : Keeps s a := h.set rfl
  have kb : Keeps s b := ka.raise
  have kc : Keeps s c := kb.set rfl
  have kd : Keeps s d := kc.raise
  exact Keeps.ite (kd.set rfl) kc

theorem Keeps.retireFrame (h : Keeps s t) : Keeps s (retireFrame t) :=
  h.foldl fun _ _ k0 => Keeps.ite (Keeps.finishWait (Keeps.markDirty ((k0.updPhase _ _).set rfl))) k0

theorem Keeps.readmitFrame (h : Keeps s t) : Keeps s (readmitFrame t) :=
  h.overN fun _ _ k0 => Keeps.ite k0.finishWait k0

theorem Keeps.ledgerFrame (h : Keeps s t) : Keeps s (ledgerFrame t) :=
  Keeps.ite (h.set rfl) (Keeps.ite h (by split; exacts [h.heldLedger, Keeps.overN (h.set rfl) fun _ _ k0 => k0.updPd _ _]))

theorem Keeps.placeFrame (h : Keeps s t) : Keeps s (placeFrame t) :=
  Keeps.overN (Keeps.overN (Keeps.overN (h.overN fun _ _ k0 => k0.updPhase _ _) fun _ _ k0 => k0.updPath _ _) fun _ _ k0 => k0.updCc _ _)
    fun _ _ k0 => Keeps.ite k0.countUp k0

theorem Keeps.measureFrame (h : Keeps s t) : Keeps s (measureFrame t) :=
  Keeps.overN (Keeps.overN (Keeps.overN (Keeps.overN (h.set rfl) fun _ _ k0 => k0.updFeed _ _) fun _ _ k0 => k0.updPhase _ _) fun _ _ k0 =>
    k0.updPath _ _) fun _ _ k0 => k0.updRidge _ _ (fun _ => rfl)

theorem Keeps.takeParams (h : Keeps s t) : Keeps s (t.takeParams) :=
  Keeps.ifElse (Keeps.overN (h.set rfl) fun _ _ k0 => k0.feedEnable) fun k0 => k0.overN fun _ _ k1 => k1.updRidge _ _ (fun _ => rfl)

theorem Keeps.takeNow (h : Keeps s t) : Keeps s (t.takeNow) :=
  Keeps.overN (h.takeParams.set rfl) fun _ _ k0 => k0.updFeed _ _

theorem Keeps.paramTakeEffect (h : Keeps s t) : Keeps s (paramTakeEffect t) :=
  Keeps.ite h.takeNow h

theorem Keeps.attnFrame (h : Keeps s t) : Keeps s (attnFrame t) :=
  Keeps.ite (h.set rfl) h

theorem Keeps.frameBoundary (h : Keeps s t) : Keeps s (frameBoundary t) := by
  unfold Machine.frameBoundary
  extract_lets a b _ c d e f g i j rps k l m n
  have ka : Keeps s a := h.publishWindows
  clear_value a
  have kb : Keeps s b := ka.set rfl
  have kc : Keeps s c := Keeps.interrupt (Keeps.newPace (kb.set rfl))
  clear_value c
  have kf : Keeps s f := kc.dueClears.takeParams.measureFrame
  clear_value f
  have kg : Keeps s g := kf.set rfl
  clear_value g
  have ki : Keeps s i := by
    simp only [i]
    split
    · exact kg.takeCal
    · exact kg
  clear_value i
  have kk : Keeps s k := ki.ledgerFrame.placeFrame.retireFrame.readmitFrame
  have kl : Keeps s l := kk.overN fun _ _ k => k.updPd _ _
  have km : Keeps s m := kl.overN fun _ _ k => Keeps.ite k.ppsFrame k
  have kn : Keeps s n := km.overN fun _ _ k => k.updPd _ _
  exact kn.attnFrame.ite h

theorem Keeps.sendStep {p st} (h : Keeps s t) : Keeps s (sendStep t p st) :=
  h.trans (OnlyPort.keeps (OnlyPort.sendStep (.refl _ _)))

theorem Keeps.sendEnter {p t'} (h : Keeps s t) : Keeps s (sendEnter t p t') :=
  h.trans (OnlyPort.keeps (OnlyPort.sendEnter (.refl _ _)))

theorem Keeps.tableWalk {p} (h : Keeps s t) : Keeps s (tableWalk t p) :=
  h.trans (OnlyPort.keeps (OnlyPort.tableWalk (.refl _ _)))

theorem Keeps.discComplete {p} (h : Keeps s t) : Keeps s (discComplete t p) :=
  h.trans (OnlyPort.keeps (OnlyPort.discComplete (.refl _ _)))

theorem Keeps.nextStep {p st} (h : Keeps s t) : Keeps s (nextStep t p st) :=
  h.trans (OnlyPort.keeps (OnlyPort.nextStep (.refl _ _)))

theorem Keeps.modesOrEnd {p i} (h : Keeps s t) : Keeps s (modesOrEnd t p i) :=
  h.trans (OnlyPort.keeps (OnlyPort.modesOrEnd (.refl _ _)))

theorem Keeps.discAck {p st vdos} (h : Keeps s t) : Keeps s (discAck t p st vdos) :=
  h.trans (OnlyPort.keeps (OnlyPort.discAck (.refl _ _)))

theorem Keeps.discNak {p st} (h : Keeps s t) : Keeps s (discNak t p st) :=
  h.trans (OnlyPort.keeps (OnlyPort.discNak (.refl _ _)))

theorem Keeps.discBusy {p} (h : Keeps s t) : Keeps s (discBusy t p) :=
  h.trans (OnlyPort.keeps (OnlyPort.discBusy (.refl _ _)))

theorem Keeps.enterAck {p t'} (h : Keeps s t) : Keeps s (enterAck t p t') :=
  h.trans (OnlyPort.keeps (OnlyPort.enterAck (.refl _ _)))

theorem Keeps.enterFail {p t' why} (h : Keeps s t) : Keeps s (enterFail t p t' why) :=
  h.trans (OnlyPort.keeps (OnlyPort.enterFail (.refl _ _)))

theorem Keeps.exitDone {p} (h : Keeps s t) : Keeps s (exitDone t p) :=
  h.trans (OnlyPort.keeps (OnlyPort.exitDone (.refl _ _)))

theorem Keeps.vdmResult {p res hdr vdos} (h : Keeps s t) : Keeps s (vdmResult t p res hdr vdos) :=
  h.trans (OnlyPort.keeps (OnlyPort.vdmResult (.refl _ _)))

theorem Keeps.vdmResponse {p : Nat} {k : VdmAck} {v10 : Bool} {vdos : List Word32} (h : Keeps s t) :
    Keeps s (vdmResponse p k v10 vdos t) :=
  h.trans (OnlyPort.keeps (OnlyPort.vdmResponse (.refl _ _)))

theorem Keeps.discoveryStart {p} (h : Keeps s t) : Keeps s (discoveryStart p t) :=
  h.trans (OnlyPort.keeps (OnlyPort.discoveryStart (.refl _ _)))

theorem Keeps.vdmBusyRetry {p} (h : Keeps s t) : Keeps s (vdmBusyRetry p t) :=
  h.trans (OnlyPort.keeps (OnlyPort.vdmBusyRetry (.refl _ _)))

theorem Keeps.vdmResponseTimeout {p} (h : Keeps s t) : Keeps s (vdmResponseTimeout p t) :=
  h.trans (OnlyPort.keeps (OnlyPort.vdmResponseTimeout (.refl _ _)))

theorem Keeps.modeEntryTimeout {p} (h : Keeps s t) : Keeps s (modeEntryTimeout p t) :=
  h.trans (OnlyPort.keeps (OnlyPort.modeEntryTimeout (.refl _ _)))

theorem Keeps.attentionVdmReceived {p hdr vdo} (h : Keeps s t) : Keeps s (attentionVdmReceived p hdr vdo t) :=
  h.trans (OnlyPort.keeps (OnlyPort.attentionVdmReceived (.refl _ _)))

theorem Keeps.unstructuredVdm {p} (h : Keeps s t) : Keeps s (unstructuredVdm p t) :=
  h.trans (OnlyPort.keeps (OnlyPort.unstructuredVdm (.refl _ _)))

theorem Keeps.vdmRequestAsUfp {p v} (h : Keeps s t) : Keeps s (vdmRequestAsUfp p v t) :=
  h.trans (OnlyPort.keeps (OnlyPort.vdmRequestAsUfp (.refl _ _)))

theorem Keeps.vdmRequestAsDfp {p v} (h : Keeps s t) : Keeps s (vdmRequestAsDfp p v t) :=
  h.trans (OnlyPort.keeps (OnlyPort.vdmRequestAsDfp (.refl _ _)))

theorem Keeps.portErrorRecovery {pl} (h : Keeps s t) : Keeps s (portErrorRecovery pl t) :=
  h.runOp fun _ => Keeps.ite h.finish h.errorRecovery.finish

theorem Keeps.portCableDiscover {pl} (h : Keeps s t) : Keeps s (portCableDiscover pl t) :=
  h.runOp fun _ => Keeps.ite h.finish (Keeps.ite h.finish (Keeps.ite (((h.updVc _ _).send).hold) h))

theorem Keeps.portRediscover {pl} (h : Keeps s t) : Keeps s (portRediscover pl t) :=
  h.runOp fun _ => Keeps.ite h.finish (Keeps.ite h.finish (h.startSeq fun _ k1 => ((k1.updDc _ _).sendStep).hold))

theorem Keeps.modeEnter {pl} (h : Keeps s t) : Keeps s (modeEnter pl t) :=
  h.runOp fun _ => Keeps.ite h.finish (Keeps.ite h (h.startSeq fun _ k1 => k1.sendEnter.hold))

theorem Keeps.modeExit {pl} (h : Keeps s t) : Keeps s (modeExit pl t) :=
  h.runOp fun _ => Keeps.ite h.finish (h.startSeq fun _ k1 => ((k1.updDc _ _).send).hold)

theorem Keeps.vdmSend {pl goodCrc} (h : Keeps s t) : Keeps s (vdmSend pl goodCrc t) :=
  h.runOp fun _ => Keeps.ite h.finish (Keeps.ite h.finish (h.startSeq fun _ k1 => Keeps.ite ((k1.send.updDc _ _).finish) k1.send.finish.hardReset))

theorem Keeps.discRead {pl} (h : Keeps s t) : Keeps s (discRead pl t) :=
  h.runOp fun _ => h.finish

theorem Keeps.modeTableRead {pl} (h : Keeps s t) : Keeps s (modeTableRead pl t) :=
  h.runOp fun _ => h.finish

theorem Keeps.writeEntry {c i} (h : Keeps s t) : Keeps s (writeEntry c i t) :=
  Keeps.ite h (h.set rfl)

theorem Keeps.modeTableWrite {pl} (h : Keeps s t) : Keeps s (modeTableWrite pl t) :=
  h.runOp fun _ => Keeps.finish (Keeps.markDirty (h.overN fun _ _ k1 => k1.writeEntry))

theorem Keeps.updTester {f} (h : Keeps s t) : Keeps s (t.updTester f) :=
  h.set rfl

theorem Keeps.segAnswer {p cmd k vdos} (h : Keeps s t) : Keeps s (segAnswer t p cmd k vdos) :=
  h.trans (OnlyPort.keeps (OnlyPort.segAnswer (.refl _ _)))

theorem Keeps.segPut {p hdr data} (h : Keeps s t) : Keeps s (segPut p hdr data t) :=
  Keeps.ite (Keeps.ite (Keeps.ite h.sinkSpoke.updTester.segAnswer ((h.sinkSpoke.updTester.updTester.ifThen fun k0 => Keeps.ite k0.updTester
    (Keeps.ite k0 k0.updTester)).segAnswer)) h.sinkSpoke.updTester.updTester.segAnswer) h

theorem Keeps.authFailure {p code} (h : Keeps s t) : Keeps s (authFailure t p code) :=
  (h.updDc _ _).updTester

theorem Keeps.serviceEnterMode {p pos} (h : Keeps s t) : Keeps s (serviceEnterMode p pos t) :=
  h.trans (OnlyPort.keeps (OnlyPort.serviceEnterMode (.refl _ _)))

theorem Keeps.hello {p} (h : Keeps s t) : Keeps s (hello p t) :=
  Keeps.ite (by split; exacts [Keeps.ite h.freeNext.updTester h.updTester, h.authFailure, h.updTester]) h

theorem Keeps.tAuth {p} (h : Keeps s t) : Keeps s (tAuth p t) :=
  Keeps.ite (by split; exacts [by split; exacts [h.authFailure, h.freeNext.updTester.pushEvent], h.updTester]) h

theorem Keeps.pAuthReady (h : Keeps s t) : Keeps s (pAuthReady t) :=
  Keeps.ite h.updTester h

theorem Keeps.tunnelCmd {p} (h : Keeps s t) : Keeps s (tunnelCmd p t) :=
  Keeps.ite (Keeps.ite (Keeps.ite h.updTester (Keeps.updTester (h.set rfl))) h.updTester) h

theorem Keeps.markRead {seq bs i} (h : Keeps s t) : Keeps s (markRead t seq bs i) :=
  Keeps.ite (h.updTester.ifThen fun k0 => by split; exacts [k0.set rfl, k0]) h.updTester

theorem Keeps.segGet {p : Nat} {hdr : Word32} (h : Keeps s t) : Keeps s (segGet p hdr t) := by
  unfold Machine.segGet
  refine Keeps.ite ?_ h
  extract_lets g a
  have ka : Keeps s a := h.sinkSpoke.updTester
  split
  · exact ka.segAnswer
  · exact ka.segAnswer
  · exact ka.markRead.segAnswer.ite ka.segAnswer

theorem Keeps.sessionIdleTimeout (h : Keeps s t) : Keeps s (sessionIdleTimeout t) :=
  Keeps.ite h.sessionEnd h

theorem Keeps.serviceExitMode {p} (h : Keeps s t) : Keeps s (serviceExitMode p t) :=
  h.trans (OnlyPort.keeps (OnlyPort.serviceExitMode (.refl _ _)))

theorem Keeps.authFailureDelayEnd (h : Keeps s t) : Keeps s (authFailureDelayEnd t) := by
  unfold Machine.authFailureDelayEnd
  split
  · exact Keeps.ite h.updTester h
  · exact h

theorem Keeps.testerPolicyZero (h : Keeps s t) : Keeps s (testerPolicyZero t) :=
  Keeps.ite h.sessionEnd h

theorem Keeps.securityRequest {p q} (h : Keeps s t) : Keeps s (securityRequest p q t) :=
  Keeps.ite (Keeps.ite h.send (Keeps.ite h.answer h.answer.freeNext)) h

theorem Keeps.authVerdict {p v} (h : Keeps s t) : Keeps s (authVerdict t p v) :=
  Keeps.finishWait (Keeps.seqOver (h.set rfl))

theorem Keeps.initStepTo {p n} (h : Keeps s t) : Keeps s (initStepTo t p n) :=
  Keeps.send (h.set rfl)

theorem Keeps.securityResponse {p : Nat} {r : SecResp} (h : Keeps s t) : Keeps s (securityResponse p r t) := by
  unfold Machine.securityResponse
  extract_lets a c
  have ka : Keeps s a := by
    simp only [a]
    split
    · exact h
    · exact h.heard
  refine Keeps.ite ?_ h
  split
  · exact ka.authVerdict
  · exact ka.authVerdict
  · exact Keeps.ite (Keeps.initStepTo (ka.updPort _ _)) ka
  · exact Keeps.ite (Keeps.ite (Keeps.initStepTo (ka.updPort _ _)) (Keeps.authVerdict (ka.updPort _ _))) ka
  · exact Keeps.ite ka.authVerdict ka

theorem Keeps.authInitiate {pl} (h : Keeps s t) : Keeps s (authInitiate pl t) :=
  h.runOp fun _ => Keeps.ite h.finish (Keeps.ite h.finish (h.startSeq fun _ k1 => Keeps.hold
    (Keeps.initStepTo (((k1.updPort _ _).freeNext).set rfl))))

theorem Keeps.authPeerRead {pl} (h : Keeps s t) : Keeps s (authPeerRead pl t) :=
  h.runOp fun _ => Keeps.ite h.finish h.finish

theorem Keeps.authPubkey {pl} (h : Keeps s t) : Keeps s (authPubkey pl t) :=
  h.runOp fun _ => Keeps.ite h.finish h.finish

theorem Keeps.authChainLoad {pl} (h : Keeps s t) : Keeps s (authChainLoad pl t) :=
  h.runOp fun _ => Keeps.ite (Keeps.finish (h.set rfl)) (Keeps.ite (Keeps.finish (Keeps.markDirty (h.set rfl))) (Keeps.finish (h.set rfl)))

theorem Keeps.judgePacket {ch zero c} (h : Keeps s t) : Keeps s (judgePacket t ch zero c) := by
  unfold Machine.judgePacket
  dsimp only
  split
  · exact h.setChan
  · exact Keeps.setChan (h.set rfl)

theorem Keeps.commandAccept {ch : Chan} (h : Keeps s t) : Keeps s (commandAccept ch t) := by
  unfold Machine.commandAccept
  refine Keeps.ite ?_ h
  dsimp only
  split
  · exact h.judgePacket
  split
  · exact h.judgePacket
  split
  · exact h.setChan
  · exact h

theorem Keeps.loadBank {r : Nat} (h : Keeps s t) : Keeps s (t.loadBank r) := by
  unfold State.loadBank
  extract_lets a l b c
  have kb : Keeps s b := h.checkCairn.updRidgeEng _ _ fun _ => (Engine.Kept.refl _).files rfl (fun _ => rfl) rfl rfl
  exact (kb.raise.markDirty.ite kb.raise).ite kb

theorem Keeps.verifyRetained (h : Keeps s t) : Keeps s (t.verifyRetained) :=
  Keeps.ifElse (h.checkCairn.set rfl) fun k0 => by split; exacts [h.checkCairn.set rfl, k0.raise.pushEvent.markDirty]

theorem Keeps.updSeq {f} (h : Keeps s t) : Keeps s (t.updSeq f) :=
  h.set rfl

theorem Keeps.vcoreReset (h : Keeps s t) : Keeps s t.vcoreReset := by
  refine h.trans ⟨?_, ?_⟩
  · rintro ⟨-, -, -, -, hc, -, -⟩
    obtain ⟨-, b, c, d, -, f, g⟩ := State.shaped_reset
    exact ⟨by simp [State.vcoreReset], b, by simpa [State.vcoreReset] using c, d, by simpa [State.vcoreReset] using hc, f, g⟩
  · rintro ⟨-, a, b, -, -, -⟩
    obtain ⟨-, -, c, d, e⟩ := State.memOk_reset
    exact ⟨a, b, c, d, e⟩

theorem Keeps.keepTrips {u : State} (h : Keeps s t) : Keeps s (t.keepTrips u) :=
  h.overN fun _ _ k => k.updFeed _ _

theorem Keeps.startSequence {causes : Nat} {fresh : Bool} (h : Keeps s t) : Keeps s (t.startSequence causes fresh) := by
  unfold State.startSequence
  extract_lets a b
  have kb : Keeps s b := Keeps.vcoreReset ((h.set rfl : Keeps s a).set rfl)
  exact kb.ite kb.keepTrips

theorem Keeps.startBoot {causes fresh} (h : Keeps s t) : Keeps s (t.startBoot causes fresh) :=
  Keeps.vcoreReset ((h.set rfl).set rfl)

theorem Keeps.startAgain {causes fresh} (h : Keeps s t) : Keeps s (t.startAgain causes fresh) :=
  Keeps.ite h.startBoot h.startSequence

theorem Keeps.wake {bit} (h : Keeps s t) : Keeps s (t.wake bit) := by
  unfold Machine.State.wake
  dsimp only
  split
  · exact Keeps.ite h (Keeps.ite h h.startAgain)
  · exact h.updSeq
  · exact h.updSeq
  · exact h.updSeq
  · exact h.updSeq
  · exact Keeps.ite h (Keeps.ite h h.startAgain)
  · exact Keeps.ite h (Keeps.ite h h.startAgain)
  · exact Keeps.ite h h.updSeq
  · exact h

theorem Keeps.portOff {p} (h : Keeps s t) : Keeps s (t.portOff p) :=
  h.trans (OnlyPort.keeps (OnlyPort.portOff (.refl _ _)))

theorem Keeps.outputsOff (h : Keeps s t) : Keeps s t.outputsOff := by
  unfold State.outputsOff
  extract_lets a b c
  have kb : Keeps s b := (h.overN fun _ _ k => k.portOff).overN fun _ _ k => (k.updCc _ _).updPort _ _
  have kc : Keeps s c := kb.overN fun _ _ k => k.updPhase _ _
  exact kc.overN fun _ _ k => k.updRidgeEng _ _ fun _ => (Engine.Kept.refl _).set rfl

theorem Keeps.feedsDown (h : Keeps s t) : Keeps s (t.feedsDown) :=
  h.overN fun _ _ k0 => Keeps.updFeed (Keeps.ite k0 k0.feedOff) _ _

theorem Keeps.handOver (h : Keeps s t) : Keeps s (t.handOver) :=
  Keeps.ite (h.set rfl) h

theorem Keeps.busLost (h : Keeps s t) : Keeps s (t.busLost) :=
  Keeps.ite (h.set rfl) h

theorem Keeps.vcoreDown (h : Keeps s t) : Keeps s (t.vcoreDown) :=
  Keeps.handOver (Keeps.busLost (h.cairnAbandon.set rfl))

theorem Keeps.vioDown (h : Keeps s t) : Keeps s (t.vioDown) :=
  h.overN fun _ _ k0 => k0.updCc _ _

theorem Keeps.undo {n} (h : Keeps s t) : Keeps s (t.undo n) := by
  unfold Machine.State.undo
  split
  · exact h.outputsOff
  · exact h.feedsDown
  · exact h.vcoreDown
  · exact h.vioDown
  · exact h

theorem Keeps.downTo {n} (h : Keeps s t) : Keeps s (t.downTo n) :=
  h.updSeq.undo

theorem Keeps.orderedShutdown {after} (h : Keeps s t) : Keeps s (t.orderedShutdown after) :=
  Keeps.downTo (Keeps.updSeq (h.set rfl))

theorem Keeps.countFailure {step : Nat} (h : Keeps s t) : Keeps s (t.countFailure step).1 :=
  h.raise.updSeq

theorem Keeps.railFailure {step : Nat} (h : Keeps s t) : Keeps s (t.railFailure step) :=
  Keeps.orderedShutdown h.countFailure

theorem Keeps.totalShutOff {after : After} {hold : Nat} (h : Keeps s t) : Keeps s (t.totalShutOff after hold) := by
  unfold State.totalShutOff
  extract_lets a b
  have ka : Keeps s a := h.set rfl
  exact ka.outputsOff.feedsDown.vcoreDown.vioDown.updSeq

theorem Keeps.faultShutOff {bit : Nat} (h : Keeps s t) : Keeps s (t.faultShutOff bit) :=
  h.raise.totalShutOff.ite (Keeps.ite (Keeps.totalShutOff h.raise.countFailure) h.raise.totalShutOff)

theorem Keeps.reach {m} (h : Keeps s t) : Keeps s (t.reach m) :=
  h.updSeq

theorem Keeps.calibrationTakeup (h : Keeps s t) : Keeps s (calibrationTakeup t) :=
  Keeps.ite h.takeCal.reach h

theorem Keeps.reducedPort {p} (h : Keeps s t) : Keeps s (reducedPort p t) :=
  h.trans (OnlyPort.keeps (OnlyPort.reducedPort (.refl _ _)))

theorem Keeps.reducedServiceStart (h : Keeps s t) : Keeps s (reducedServiceStart t) := by
  unfold Machine.reducedServiceStart
  extract_lets a b c d
  have ka : Keeps s a := h.overN fun _ _ k =>
    Keeps.ite (k.updRidgeEng _ _ fun _ => (Engine.Kept.refl _).files rfl (fun _ => rfl) rfl rfl) k
  have kc : Keeps s c := ka.reach.updSeq
  clear_value c
  have kd : Keeps s d := Keeps.placeFrame (kc.set rfl)
  exact Keeps.ite (Keeps.ite (Keeps.pushEvent (kd.overN fun _ _ k => k.reducedPort)) (Keeps.ite h.reach h)) h

theorem Keeps.reapply {id v} (h : Keeps s t) : Keeps s (t.reapply id v) := by
  unfold Machine.State.reapply
  split
  · exact h.setFlt
  · exact h.setItem

theorem Keeps.takeRidgeCairn {runs r} (h : Keeps s t) : Keeps s (takeRidgeCairn runs r t) :=
  h.takeCairn.ifThen fun k0 => k0.updRidge _ _ (fun _ => rfl)

theorem Keeps.takeTables (h : Keeps s t) : Keeps s (takeTables t) := by
  unfold Machine.takeTables
  extract_lets a b c
  have ka : Keeps s a := h.checkCairn.checkCairn
  clear_value a
  exact ka.set rfl

theorem Keeps.restoreCairns {runs} (h : Keeps s t) : Keeps s (restoreCairns runs t) :=
  Keeps.takeTables (Keeps.overN (h.takeCairn.overN fun _ _ k0 => k0.takeRidgeCairn) fun _ _ k0 => k0.takeCairn)

theorem Keeps.cairnRestore (h : Keeps s t) : Keeps s (cairnRestore t) := by
  unfold Machine.cairnRestore
  extract_lets a b c d
  have kc : Keeps s c := h.restoreCairns.takeFields.overN fun _ _ k => k.takeFields
  have kd : Keeps s d := kc.foldl fun _ _ k => k.reapply
  clear_value d
  have ke : Keeps s { d with early := [] } := kd.set rfl
  exact ke.reach.ite h

theorem Keeps.patchVerification (h : Keeps s t) : Keeps s (patchVerification t) :=
  Keeps.ite h.verifyRetained.reach h

theorem Keeps.loadBanks (h : Keeps s t) : Keeps s (loadBanks t) :=
  h.overN fun _ _ k0 => Keeps.ite k0.loadBank k0

theorem Keeps.ridgeBankLoad (h : Keeps s t) : Keeps s (ridgeBankLoad t) :=
  Keeps.ite h.loadBanks.reach h

theorem Keeps.fullPort {p} (h : Keeps s t) : Keeps s (fullPort p t) :=
  h.trans (OnlyPort.keeps (OnlyPort.fullPort (.refl _ _)))

theorem Keeps.fullService (h : Keeps s t) : Keeps s (fullService t) :=
  h.updSeq.overN fun _ _ k0 => k0.fullPort

theorem Keeps.takenOverPd {p} (h : Keeps s t) : Keeps s (takenOverPd p t) :=
  h.trans (OnlyPort.keeps (OnlyPort.takenOverPd (.refl _ _)))

theorem Keeps.endOfBringup (h : Keeps s t) : Keeps s (endOfBringup t) := by
  unfold Machine.endOfBringup
  extract_lets a _ b c
  have ka : Keeps s a := h.loadBanks.reach
  clear_value a
  have kb : Keeps s b := Keeps.updSeq (ka.set rfl)
  have kc : Keeps s c := kb.overN fun _ _ k => k.updCc _ _
  exact Keeps.ite (Keeps.pushEvent (Keeps.ite kc.fullService (kc.overN fun _ _ k => k.takenOverPd))) (Keeps.ite h.loadBanks.fullService h)

theorem Keeps.commandInterpreterStart (h : Keeps s t) : Keeps s (commandInterpreterStart t) := by
  unfold Machine.commandInterpreterStart
  extract_lets a _ b
  have ka : Keeps s a := h.takeFields.updSeq
  clear_value a
  have kb : Keeps s b := Keeps.ite (Keeps.setAttn (ka.set rfl)) ka
  exact kb.attnFrame.ite h

theorem Keeps.matched (h : Keeps s t) : Keeps s (t.matched) :=
  h.wake

theorem Keeps.busStop (h : Keeps s t) : Keeps s (t.busStop) :=
  Keeps.handOver (h.set rfl)

theorem Keeps.busEnd {ack out} (h : Keeps s t) : Keeps s (t.busEnd ack out) :=
  Keeps.busStop (h.set rfl)

theorem Keeps.cmdPut {count data pec} (h : Keeps s t) : Keeps s (cmdPut count data pec t) :=
  Keeps.ite h (h.matched.busEnd.ifElse fun k0 => Keeps.ite k0 (Keeps.ite h.matched.busEnd
    (Keeps.ite (Keeps.busEnd (h.matched.set rfl)) h.matched.raise.busEnd)))

theorem Keeps.resRead (h : Keeps s t) : Keeps s (resRead t) := by
  unfold Machine.resRead
  split
  · exact Keeps.ifThen (Keeps.ifThen (h.set rfl) fun k0 => k0.set rfl) fun k0 => k0.set rfl
  · exact h

theorem Keeps.resGet {clocked withPec} (h : Keeps s t) : Keeps s (resGet clocked withPec t) :=
  Keeps.ite h (Keeps.ite h.matched.busEnd (Keeps.ite h.matched.busEnd h.matched.resRead.busEnd))

theorem Keeps.busStatus (h : Keeps s t) : Keeps s (busStatus t) :=
  Keeps.ite h.matched.busEnd h

theorem Keeps.ackAttn {mask} (h : Keeps s t) : Keeps s (t.ackAttn mask) :=
  h.set rfl

theorem Keeps.attnAck {data pec} (h : Keeps s t) : Keeps s (attnAck data pec t) :=
  Keeps.ite h (Keeps.ite h.matched.busEnd (Keeps.ite h.matched.busEnd (Keeps.ite h.matched.ackAttn.busEnd h.matched.raise.busEnd)))

theorem Keeps.addressMatchWake {a} (h : Keeps s t) : Keeps s (addressMatchWake a t) :=
  Keeps.ite h (Keeps.ifThen (by split; exacts [h, Keeps.ite (h.matched.set rfl) (h.set rfl)]) fun k0 => k0.busStop)

theorem Keeps.busFault {i} (h : Keeps s t) : Keeps s (t.busFault i) :=
  Keeps.ite h.raise h

theorem Keeps.abandon (h : Keeps s t) : Keeps s (t.abandon) :=
  h.set rfl

theorem Keeps.busSclTimeout (h : Keeps s t) : Keeps s (busSclTimeout t) :=
  Keeps.ite h.busFault.abandon h

theorem Keeps.busEdgeTimeout (h : Keeps s t) : Keeps s (busEdgeTimeout t) :=
  Keeps.ite h.abandon h

theorem Keeps.stuckRelease (h : Keeps s t) : Keeps s (stuckRelease t) :=
  Keeps.ite h.busFault.abandon h

theorem Keeps.busIdleDetect (h : Keeps s t) : Keeps s (busIdleDetect t) :=
  Keeps.handOver (h.set rfl)

theorem Keeps.attnCancel (h : Keeps s t) : Keeps s (attnCancel t) :=
  h.set rfl

theorem Keeps.attnFailed (h : Keeps s t) : Keeps s (attnFailed t) :=
  Keeps.ite (Keeps.raise (h.set rfl)) (h.set rfl)

theorem Keeps.attnAttempt {o} (h : Keeps s t) : Keeps s (attnAttempt t o) :=
  Keeps.ite (Keeps.attnFailed ((h.set rfl).set rfl)) (Keeps.ite (Keeps.busStop ((h.set rfl).set rfl))
    (Keeps.busStop (Keeps.attnFailed (h.set rfl))))

theorem Keeps.attnDueNow {o} (h : Keeps s t) : Keeps s (attnDueNow o t) :=
  Keeps.ite h.attnCancel h.attnAttempt

theorem Keeps.attentionWrite {o} (h : Keeps s t) : Keeps s (attentionWrite o t) :=
  Keeps.ite h.attnDueNow h

theorem Keeps.attentionBackoffExpiry {o} (h : Keeps s t) : Keeps s (attentionBackoffExpiry o t) := by
  unfold Machine.attentionBackoffExpiry
  split
  · exact Keeps.ite (Keeps.ite h.attnDueNow (h.set rfl)) h
  · exact h

theorem Keeps.ridgeWord {r : Nat} {w : KWord} (h : Keeps s t) : Keeps s (ridgeWord r w t) := by
  unfold Machine.ridgeWord
  extract_lets q o a b
  have hc : q.eng.Kept o.eng := (Engine.Kept.refl _).cycle
  have ka : Keeps s a := h.updRidgeOf _ _ (fun hs _ _ => hc.1 (hs.eng r)) fun hi _ _ => hc.2 (hi.2.eng r)
  have kb : Keeps s b := ka.foldl fun _ _ k => k.updPhase _ _
  exact (kb.publish.ite kb).ite h

theorem Keeps.supWord {w : KWord} (h : Keeps s t) : Keeps s (supWord w t) :=
  Keeps.ite ((h.supEng (v := { t.sup with eng := (t.sup.eng.cycle t.supKind t.freeN w).eng }) (Engine.Kept.refl _).cycle).set rfl) h

theorem Keeps.macLand {e : Nat} (h : Keeps s t) : Keeps s (macLand e t) :=
  (h.supEng (Engine.Kept.refl _).land).ite (h.updRidgeEng _ _ fun _ => (Engine.Kept.refl _).land)

theorem Keeps.repeatDone {e : Nat} (h : Keeps s t) : Keeps s (repeatDone e t) :=
  (h.supEng (Engine.Kept.refl _).repOver).ite (h.updRidgeEng _ _ fun _ => (Engine.Kept.refl _).repOver)

theorem Keeps.interruptTaken {v : Word} (h : Keeps s t) : Keeps s (interruptTaken v t) :=
  Keeps.ite ((h.supEng (v := { t.sup with eng := t.sup.eng.interrupt t.supKind t.enabledIrqs v }) (Engine.Kept.refl _).interrupt).set rfl) h

theorem Keeps.identify {pl} (h : Keeps s t) : Keeps s (identify pl t) :=
  h.runOp fun _ => h.finish

theorem Keeps.echo {pl} (h : Keeps s t) : Keeps s (echo pl t) :=
  h.runOp fun _ => h.finish

theorem Keeps.eventRead {pl} (h : Keeps s t) : Keeps s (eventRead pl t) :=
  h.runOp fun _ => Keeps.finish (h.set rfl)

theorem Keeps.ledgerRead {pl} (h : Keeps s t) : Keeps s (ledgerRead pl t) :=
  h.runOp fun _ => h.finish

theorem Keeps.sleep {pl} (h : Keeps s t) : Keeps s (sleep pl t) :=
  h.runOp fun _ => h.updSeq.ok

theorem Keeps.sleepDelayExpiry (h : Keeps s t) : Keeps s (sleepDelayExpiry t) := by
  unfold Machine.sleepDelayExpiry
  split
  · exact Keeps.ite h.orderedShutdown h
  · exact h

theorem Keeps.faultClear {pl} (h : Keeps s t) : Keeps s (faultClear pl t) := by
  unfold Machine.faultClear
  split; exacts [by split; exacts [Keeps.ite h.finish (Keeps.ite h.clearFault.finish h), h], h]

theorem Keeps.faultPinRelease {pl} (h : Keeps s t) : Keeps s (faultPinRelease pl t) :=
  h.runOp fun _ => Keeps.finish (h.set rfl)

theorem Keeps.faultPinHold {pl} (h : Keeps s t) : Keeps s (faultPinHold pl t) :=
  h.runOp fun _ => Keeps.finish (h.set rfl)

theorem Keeps.faultRead {pl} (h : Keeps s t) : Keeps s (faultRead pl t) :=
  h.runOp fun _ => by split; exacts [h.finish, h]

theorem Keeps.faultNPulseEnd (h : Keeps s t) : Keeps s (faultNPulseEnd t) :=
  Keeps.ite (Keeps.ite (h.set rfl) (h.set rfl)) h

theorem Keeps.progLoad {pl} (h : Keeps s t) : Keeps s (progLoad pl t) :=
  h.runOp fun _ => Keeps.ite h.finish (Keeps.ok (h.updRidge _ _ (fun _ => rfl)))

theorem Keeps.progRead {pl} (h : Keeps s t) : Keeps s (progRead pl t) :=
  h.runOp fun _ => h.finish

theorem Keeps.ucodeLoad {pl} (h : Keeps s t) : Keeps s (ucodeLoad pl t) :=
  h.runOp fun _ => Keeps.ite h.finish (Keeps.ok (h.overList fun _ _ k1 => k1.updRidge _ _ (fun _ => rfl)))

theorem Keeps.pendSwitch {pl r b src id} (h : Keeps s t) : Keeps s (pendSwitch t pl r b src id) :=
  Keeps.hold (h.updRidge _ _ (fun _ => rfl))

theorem Keeps.progSwitchStaging {pl} (h : Keeps s t) : Keeps s (progSwitchStaging pl t) :=
  h.runOp fun _ => Keeps.ite h.finish (Keeps.ite h.finish (Keeps.ite h.pendSwitch (by split; exacts [h.finish, h.pendSwitch])))

theorem Keeps.progSwitchRomLaw {pl} (h : Keeps s t) : Keeps s (progSwitchRomLaw pl t) :=
  h.runOp fun _ => Keeps.ite h.finish (Keeps.ite h.finish h.pendSwitch)

theorem Keeps.patchLoad {pl : Place} (h : Keeps s t) : Keeps s (patchLoad pl t) :=
  h.runOp fun _ => Keeps.ok (h.setPatchBuf (cellsWf_store _))

theorem Keeps.patchVerify {pl : Place} (h : Keeps s t) : Keeps s (patchVerify pl t) := by
  refine h.runOp fun _ => ?_
  dsimp only
  split
  · exact h.finish
  · exact Keeps.finish (Keeps.markDirty (h.set rfl))

theorem Keeps.patchDrop {pl} (h : Keeps s t) : Keeps s (patchDrop pl t) :=
  h.runOp fun _ => Keeps.ok (Keeps.markDirty (h.set rfl))

theorem Keeps.diagCapture {pl} (h : Keeps s t) : Keeps s (diagCapture pl t) :=
  h.runOp fun _ => Keeps.hold (h.set rfl)

theorem Keeps.diagCaptureTrigger (h : Keeps s t) : Keeps s (diagCaptureTrigger t) := by
  unfold Machine.diagCaptureTrigger
  split
  · exact Keeps.ite (Keeps.finishWait (h.set rfl)) h
  · exact h

theorem Keeps.diagCaptureTimeout (h : Keeps s t) : Keeps s (diagCaptureTimeout t) := by
  unfold Machine.diagCaptureTimeout
  split
  · exact Keeps.ite (Keeps.finishWait (h.set rfl)) h
  · exact h

theorem Keeps.diagDump {pl} (h : Keeps s t) : Keeps s (diagDump pl t) :=
  h.runOp fun _ => Keeps.ite h.finish h.finish

theorem Keeps.otpRead {pl} (h : Keeps s t) : Keeps s (otpRead pl t) :=
  h.runOp fun _ => h.finish

theorem Keeps.cutBurn {pl : Place} {weak : List Nat} {l : List (Nat × Word32)} (h : Keeps s t) : Keeps s (t.cutBurn pl weak l) :=
  Keeps.hold (h.setOtp fun hm => cellsWf_burnList hm.otp)

theorem Keeps.afterBurn {o : Otp} {a n : Nat} {b : Bool} (h : Keeps s t)
    (ho : t.MemOk → cellsWf 0 o.low = true ∧ cellsWf 0 o.high = true) : Keeps s (t.afterBurn o a n b) := by
  unfold State.afterBurn
  extract_lets c d
  have kc : Keeps s c := h.setOtp ho
  have kd : Keeps s d := kc.raise.ite kc
  exact kd.raise.ite kd

theorem Keeps.otpBurn {pl : Place} {r : BurnResult} (h : Keeps s t) : Keeps s (otpBurn pl r t) := by
  refine h.runOp fun c => h.finish.ite ?_
  dsimp only
  split
  · exact h.finish
  split
  · exact h.cutBurn
  · have k : ∀ a n b, Keeps s (t.afterBurn (t.otp.burnFrom r.weak (c.p16 0) (wordsOf (c.p8 2) (c.par.drop 4))) a n b) :=
      fun _ _ _ => h.afterBurn fun hm => cellsWf_burnFrom hm.otp
    exact (k _ _ _).ok.ite (k _ _ _).finish

theorem Keeps.spentStickies {r} (h : Keeps s t) : Keeps s (t.spentStickies r) :=
  Keeps.ite h (Keeps.ifThen (Keeps.ite h.raise h) fun k0 => k0.raise)

theorem Keeps.finalise {pl : Place} {b : BurnResult} (h : Keeps s t) : Keeps s (finalise pl b t) := by
  refine h.runOp fun c => ?_
  dsimp only
  refine h.finish.ite (h.finish.ite (h.finish.ite ?_))
  split
  · exact h.cutBurn
  · have k : ∀ x, Keeps s ((t.afterBurn (lockRegion t.otp b.weak (c.p8 0) (c.p16 2) (b1 (t.otp.spent (2 * c.p8 0)))).1 1008 16
    x).spentStickies (c.p8 0)) :=
      fun _ => Keeps.spentStickies (h.afterBurn fun hm => cellsWf_lockRegion hm.otp)
    exact (k _).finish.ite (k _).finish

theorem Keeps.calCapture {pl load} (h : Keeps s t) : Keeps s (calCapture pl load t) :=
  h.runOp fun _ => by split; exacts [h, Keeps.ite h.finish (Keeps.hold (h.set rfl))]

theorem Keeps.calBurn {pl : Place} {b : BurnResult} (h : Keeps s t) : Keeps s (calBurn pl b t) := by
  refine h.runOp fun c => h.finish.ite ?_
  split
  · exact h.finish
  · next g _ =>
    refine h.finish.ite ?_
    extract_lets ws o steps w o' good a _ d _
    have ka : Keeps s a := h.afterBurn fun hm => cellsWf_burn1 (cellsWf_burnFrom hm.otp)
    have kd : Keeps s d := ka.set rfl
    have kb : Keeps s (t.afterBurn o (genBase g) 80 true) := h.afterBurn fun hm => cellsWf_burnFrom hm.otp
    split
    · exact h.cutBurn
    · exact Keeps.ite (Keeps.ite (Keeps.ok (kd.set rfl)) kd.finish) kb.finish

theorem Keeps.calRead {pl} (h : Keeps s t) : Keeps s (calRead pl t) :=
  h.runOp fun _ => by split; exacts [h, h.finish]

theorem Keeps.authKeygen {pl : Place} {b : BurnResult} (h : Keeps s t) : Keeps s (authKeygen pl b t) := by
  refine h.runOp fun c => h.finish.ite (h.finish.ite ?_)
  extract_lets ws a o bad d
  have ka : Keeps s a := h.set rfl
  split
  · exact ka.cutBurn
  · have kd : Keeps s d := ka.afterBurn fun hm => cellsWf_burnFrom hm.otp
    exact kd.finish.ite kd.finish

theorem Keeps.cairnSync {pl} (h : Keeps s t) : Keeps s (cairnSync pl t) :=
  h.runOp fun _ => Keeps.hold (h.overN fun _ _ k1 => k1.markDirty)

theorem Keeps.cairnDrop {pl} (h : Keeps s t) : Keeps s (cairnDrop pl t) :=
  h.runOp fun _ => Keeps.ite h.finish (Keeps.ok (h.overN fun _ _ k1 => Keeps.ite (k1.updCairn _ _) k1))

theorem Keeps.cairnWriteBegin (h : Keeps s t) : Keeps s (cairnWriteBegin t) :=
  Keeps.ite (by split; exacts [h.cairnBegin, h]) h

theorem Keeps.cairnWriteComplete (h : Keeps s t) : Keeps s (cairnWriteComplete t) := by
  unfold Machine.cairnWriteComplete
  split
  · exact Keeps.ite (h.cairnClose.ifThen fun k0 => k0.finishWait) h
  · exact h

theorem Keeps.bankCopyComplete {r} (h : Keeps s t) : Keeps s (bankCopyComplete r t) :=
  Keeps.ite (Keeps.markDirty (Keeps.markDirty (Keeps.updRidge (h.set rfl) _ _ (fun _ => rfl)))) h

theorem Keeps.probeRecordComplete {r} (h : Keeps s t) : Keeps s (probeRecordComplete r t) := by
  unfold Machine.probeRecordComplete
  split
  · exact Keeps.ite (h.updRidge _ _ (fun _ => rfl)) h
  · exact h

theorem Keeps.takeEstimates {r b} (h : Keeps s t) : Keeps s (takeEstimates t r b) :=
  Keeps.markDirty (Keeps.updRidge (by split; exacts [(h.updPhase _ _).updPath _ _, h.updPhase _ _]) _ _ (fun _ => rfl))

theorem Keeps.admitPhase {k} (h : Keeps s t) : Keeps s (admitPhase t k) :=
  ((h.setItem.setItem.setItem.setItem.setItem.setItem.updPhase _ _).markDirty).markDirty

theorem Keeps.readmitEnd {k code data} (h : Keeps s t) : Keeps s (readmitEnd t k code data) :=
  Keeps.finishWait (h.set rfl)

theorem Keeps.measurementComplete {r : Nat} (h : Keeps s t) : Keeps s (measurementComplete r t) := by
  unfold Machine.measurementComplete
  split
  · extract_lets k a b c d
    have ka : Keeps s a := h.takeEstimates
    clear_value a
    have kb : Keeps s b := ka.admitPhase
    have kc : Keeps s c := ka.set rfl
    have kd : Keeps s d := kc.updRidge _ _ fun _ => rfl
    clear_value b
    exact Keeps.ite (Keeps.ite (Keeps.ite (kb.set rfl) ka.readmitEnd) kd.finishWait) h
  · exact h

theorem Keeps.replanApply {r : Nat} (h : Keeps s t) : Keeps s (replanApply r t) := by
  unfold Machine.replanApply
  split
  · refine Keeps.ite ?_ h
    extract_lets a f cur _
    have ka : Keeps s a := h.updRidge _ _ fun _ => rfl
    exact ((ka.setItem.setItem.setItem.setItem.updPhase _ _).markDirty).ite ka
  · exact h

theorem Keeps.lossFit (h : Keeps s t) : Keeps s (lossFit t) := by
  unfold Machine.lossFit
  extract_lets inputs a b _
  have ka : Keeps s a := h.overN fun _ _ k => Keeps.ite k.setItem.setItem k
  have kb : Keeps s b := ka.overN fun _ _ k => Keeps.ite k k.markDirty
  clear_value b
  exact Keeps.ite (kb.set rfl) h

theorem Keeps.ageingMeasureTimeout {r : Nat} (h : Keeps s t) : Keeps s (ageingMeasureTimeout r t) := by
  unfold Machine.ageingMeasureTimeout
  split
  · extract_lets a b
    have ka : Keeps s a := h.set rfl
    have kb : Keeps s b := ka.updRidge _ _ fun q => by
      split
      · split <;> rfl
      · rfl
    exact kb.finishWait
  · exact h

theorem Keeps.readmitTimeout {r} (h : Keeps s t) : Keeps s (readmitTimeout r t) := by
  unfold Machine.readmitTimeout
  split
  · exact Keeps.ite (Keeps.readmitEnd (h.updRidge _ _ (fun _ => rfl))) h
  · exact h

theorem Keeps.phaseRetire {pl : Place} (h : Keeps s t) : Keeps s (phaseRetire pl t) := by
  refine h.runOp fun c => ?_
  extract_lets k f a
  have ka : Keeps s a := h.updRidge _ _ fun q => by
    split
    · split <;> rfl
    · rfl
  exact h.finish.ite (h.finish.ite (Keeps.hold (ka.set rfl)))

theorem Keeps.phaseReadmit {pl imonMv} (h : Keeps s t) : Keeps s (phaseReadmit pl imonMv t) :=
  h.runOp fun _ => Keeps.ite h.finish (Keeps.ite h.finish (Keeps.ite h.finish (Keeps.hold (h.set rfl))))

theorem Keeps.portRecal {pl v i} (h : Keeps s t) : Keeps s (portRecal pl v i t) :=
  h.runOp fun _ => Keeps.ite h.finish (Keeps.ite h.finish ((h.updPath _ _).hold))

theorem Keeps.ageingMeasure {pl} (h : Keeps s t) : Keeps s (ageingMeasure pl t) :=
  h.runOp fun _ => Keeps.ite h.finish (Keeps.ite h.finish (Keeps.hold (h.set rfl)))

theorem Keeps.readyRestart {pl romOnly} (h : Keeps s t) : Keeps s (readyRestart t pl romOnly) :=
  Keeps.ite h.finish (Keeps.ite h.finish (Keeps.ite h.finish (Keeps.ok (h.set rfl))))

theorem Keeps.supRestartPatch {pl} (h : Keeps s t) : Keeps s (supRestartPatch pl t) :=
  h.runOp fun _ => h.readyRestart

theorem Keeps.supRestartRom {pl} (h : Keeps s t) : Keeps s (supRestartRom pl t) :=
  h.runOp fun _ => h.readyRestart

theorem Keeps.supRestartHoldBegin (h : Keeps s t) : Keeps s (supRestartHoldBegin t) := by
  unfold Machine.supRestartHoldBegin
  extract_lets _ _ _ _ _ a b
  have ka : Keeps s a := h.trans
    ⟨fun ⟨a, b, c, d, e, f, _⟩ => ⟨a, b, c, d, e, f, rfl, rfl, rfl⟩, fun ⟨_, a, b, _, d, _⟩ => ⟨a, b, rfl, d, rfl, rfl⟩⟩
  have kb : Keeps s b := ka.overN fun _ _ k => (k.updPath _ _).updPd _ _
  exact Keeps.ite (Keeps.sessionEnd (Keeps.updSeq (kb.overN fun _ _ k => k.updRidge _ _ fun _ => rfl))) h

theorem Keeps.countersAnew (h : Keeps s t) : Keeps s (countersAnew t) := by
  unfold Machine.countersAnew
  extract_lets a b c _
  have ka : Keeps s a := h.overN fun _ _ k => k.updPort _ _
  have kb : Keeps s b := ka.overN fun _ _ k => k.updFeed _ _
  have kc : Keeps s c := Keeps.overN kb fun _ _ k => k.updRidge _ _ fun _ => rfl
  clear_value c
  exact kc.set rfl

theorem Keeps.restartPatch (h : Keeps s t) : Keeps s (restartPatch t) :=
  Keeps.ite (h.set rfl) h.verifyRetained

theorem Keeps.ledgerTakes (h : Keeps s t) {l : Ledger} {i : Innkeeper} :
    Keeps s (Machine.overN 24 (fun p t => t.updPd p Pd.ledgerTakes) { t with ledger := l, inn := i }) := by
  have k : Keeps s { t with ledger := l, inn := i } := h.set rfl
  generalize ({ t with ledger := l, inn := i } : State) = u at k
  exact k.overN fun _ _ k => k.updPd _ _

theorem Keeps.supervisorReturn (h : Keeps s t) : Keeps s (supervisorReturn t) := by
  unfold Machine.supervisorReturn
  extract_lets a held b _ c d' d _ e f g
  have ka : Keeps s a := h.restoreCairns.restartPatch.countersAnew
  have kb : Keeps s b := ka.overN fun _ _ k => k.updPd _ _
  clear_value b
  have kc : Keeps s c := kb.set rfl
  clear_value c
  have kd' : Keeps s d' := Keeps.solveNow (kc.set rfl)
  clear_value d'
  have kd : Keeps s d := kd'.set rfl
  have ke : Keeps s e := kd.ledgerTakes
  clear_value e
  have kg : Keeps s g := ke.placeFrame.overN fun _ _ k => Keeps.ite (k.updPd _ _).errorRecovery k
  exact kg.attnFrame.ite h

theorem Keeps.dropPort {p} (h : Keeps s t) : Keeps s (dropPort p t) :=
  h.trans (OnlyPort.keeps (OnlyPort.dropPort (.refl _ _)))

theorem Keeps.holdExpiry (h : Keeps s t) : Keeps s (holdExpiry t) := by
  unfold Machine.holdExpiry
  extract_lets l a b _ _ c
  have ka : Keeps s a := Keeps.placeFrame (h.set rfl)
  have kb : Keeps s b := ka.overN fun _ _ k => k.dropPort
  clear_value b
  have kc : Keeps s c := kb.set rfl
  exact kc.raise.markDirty.ite h

theorem Keeps.policyMeaning {i} (h : Keeps s t) : Keeps s (policyMeaning i t) := by
  unfold Machine.policyMeaning
  split
  · exact h.sourceCapSend
  · exact h.collisionWaitExpiry
  · exact h.cableDiscoverAttempt
  · exact h.cableIdentityResponse
  · exact h.goodcrcRetryFail
  · exact h.senderResponseTimeout
  · exact h.requestReceived
  · exact h.transitionStart
  · exact h.transitionSettled
  · exact h.phasesNotPlacedTimeout
  · exact h.ppsTimeout
  · exact h.eprModeEnter
  · exact h.eprKeepalive
  · exact h.eprKeepaliveTimeout
  · exact h.eprModeExit
  · exact h.eprPartExit
  · exact h.eprEnClear
  · exact h.loweredCapsTimeout
  · exact h.getSourceCap
  · exact h.getSinkCap
  · exact h.getSourceCapExtended
  · exact h.getStatus
  · exact h.getPpsStatus
  · exact h.getSourceInfo
  · exact h.getRevision
  · exact h.alertReceived
  · exact h.unsupportedRequest
  · exact h.protocolError
  · exact h.softResetTimeout
  · exact h.softResetReceived
  · exact h.sourceCapRepeat
  · exact h.hardResetReceived
  · exact h.hardResetTakedown
  · exact h.hardResetRecover
  · exact h.sinkSourceCapReceived
  · exact h.sinkAcceptReceived
  · exact h.sinkVbusCheckTimeout
  · exact h.prSwapSend
  · exact h.prSwapAccept
  · exact h.prSwapPsRdy
  · exact h.prSwapSourceOffTimeout
  · exact h.prSwapVbusConfirmTimeout
  · exact h.prSwapReceived
  · exact h.drSwapReceived
  · exact h.vconnSwapSend
  · exact h.vconnSwapReceived
  · exact h.vconnSwapPartnerPsRdy
  · exact h.vconnSourceTimeout
  · exact h.swapResponseTimeout
  · exact h.swapReplyReceived
  · exact h.discoveryStart
  · exact h.vdmResponse
  · exact h.vdmBusyRetry
  · exact h.vdmResponseTimeout
  · exact h.modeEntryTimeout
  · exact h.attentionVdmReceived
  · exact h.unstructuredVdm
  · exact h.vdmRequestAsUfp
  · exact h.vdmRequestAsDfp
  · exact h.serviceEnterMode
  · exact h.segPut
  · exact h.segGet
  · exact h.serviceExitMode
  · exact h.securityRequest
  · exact h.securityResponse
  · exact h.portCloseComplete
  · exact h.vconnGood
  · exact h

theorem Keeps.resumeInbox {p} (h : Keeps s t) : Keeps s (resumeInbox p t) :=
  (h.updPd _ _).foldl fun _ _ k0 => k0.policyMeaning

theorem Keeps.policyTask (h : Keeps s t) : Keeps s (policyTask t) :=
  Keeps.ite (Keeps.overN (h.overN fun _ _ k0 => k0.offerDerive.prSwapConfirm.drSwapFrame) fun _ _ k0 => k0.resumeInbox) h

theorem Keeps.startSchedule (h : Keeps s t) : Keeps s (startSchedule t) :=
  Keeps.policyTask ((Keeps.ite h.takeNow h).set rfl)

theorem Keeps.scheduleNow (h : Keeps s t) : Keeps s (scheduleNow t) :=
  Keeps.ite h.startSchedule h

theorem Keeps.scheduleLate (h : Keeps s t) : Keeps s (scheduleLate t) :=
  Keeps.ite h.startSchedule h

theorem Keeps.ignWake (h : Keeps s t) : Keeps s (ignWake t) :=
  h.updSeq.wake

theorem Keeps.resetNRelease {n : Nat} (h : Keeps s t) : Keeps s (resetNRelease n t) := by
  unfold Machine.resetNRelease
  extract_lets a _
  have ka : Keeps s a := h.updSeq
  exact h.ite (Keeps.wake (ka.set rfl))

theorem Keeps.resetNAssert (h : Keeps s t) : Keeps s (resetNAssert t) :=
  Keeps.ite h (h.updSeq.ifThen fun k0 => k0.raise.totalShutOff)

theorem Keeps.aonReset (h : Keeps s t) : Keeps s t.aonReset := by
  refine h.trans ⟨fun _ => ?_, ?_⟩
  · obtain ⟨-, b, c, d, e, f, g⟩ := State.shaped_reset
    exact ⟨by simp [State.aonReset], b, c, d, e, f, g⟩
  · rintro ⟨-, a, b, -, -, -⟩
    obtain ⟨-, -, c, d, e⟩ := State.memOk_reset
    exact ⟨a, b, c, d, e⟩

theorem Keeps.vbatFresh {addrPins} (h : Keeps s t) : Keeps s (t.vbatFresh addrPins) :=
  h.set rfl

theorem Keeps.vbatInBoot {ignHigh addrPins} (h : Keeps s t) : Keeps s (t.vbatInBoot ignHigh addrPins) := by
  unfold Machine.State.vbatInBoot
  dsimp only
  split
  · exact h.updSeq.vbatFresh.raise.wake
  · exact h.updSeq.vbatFresh.raise.wake
  · exact h.updSeq.vbatFresh.raise.ifThen fun k0 => k0.wake
  · exact h.updSeq.vbatFresh.raise.ifThen fun k0 => k0.wake
  · exact h.updSeq.vbatFresh.raise.ifThen fun k0 => k0.wake
  · exact h.updSeq.vbatFresh.raise.updSeq.ifThen fun k0 => k0.wake
  · exact h.updSeq.vbatFresh.raise

theorem Keeps.vbatAonPowerOn {ignHigh addrPins} (h : Keeps s t) : Keeps s (vbatAonPowerOn ignHigh addrPins t) :=
  Keeps.ite h (Keeps.ite h.vbatInBoot (Keeps.ifThen (Keeps.raise (Keeps.updSeq (h.aonReset.set rfl))) fun k0 => k0.wake))

theorem Keeps.vbatAonDrop (h : Keeps s t) : Keeps s (vbatAonDrop t) :=
  Keeps.ite h (Keeps.ite h.updSeq h.aonReset)

theorem Keeps.vbootQualify (h : Keeps s t) : Keeps s (vbootQualify t) := by
  unfold Machine.vbootQualify
  dsimp only
  split
  · exact Keeps.startBoot (Keeps.updSeq (h.aonReset.set rfl))
  · exact Keeps.ite h.updSeq.wake (h.updSeq.ifElse fun k0 => k0.startBoot)
  · exact h.updSeq.wake
  · exact h.updSeq.ifThen fun k0 => k0.wake
  · exact h.updSeq.ifThen fun k0 => k0.wake
  · exact h.updSeq.ifThen fun k0 => k0.wake
  · exact h

theorem Keeps.bootLost (h : Keeps s t) : Keeps s t.bootLost := by
  have k : Keeps s (t.totalShutOff .rest 640) := h.totalShutOff
  unfold State.bootLost
  generalize t.totalShutOff .rest 640 = u at k
  exact Keeps.updSeq (k.set rfl)

theorem Keeps.vbootDisqualify (h : Keeps s t) : Keeps s (vbootDisqualify t) :=
  Keeps.ite h.aonReset (Keeps.ite h.bootLost h.updSeq)

theorem Keeps.bootPortSelect (h : Keeps s t) : Keeps s (bootPortSelect t) := by
  unfold Machine.bootPortSelect
  refine Keeps.ite ?_ h
  split
  · exact h
  · exact Keeps.updRidgeEng h.updSeq _ _ fun _ => (Engine.Kept.refl _).files rfl (fun _ => rfl) rfl rfl

theorem Keeps.clockFault (h : Keeps s t) : Keeps s (clockFault t) :=
  Keeps.ite h.faultShutOff h

theorem Keeps.runningRailFault (h : Keeps s t) : Keeps s (runningRailFault t) :=
  Keeps.ite h.faultShutOff h

theorem Keeps.dieHot (h : Keeps s t) : Keeps s (dieHot t) :=
  Keeps.ite h.raise.totalShutOff h

theorem Keeps.dieWarn (h : Keeps s t) : Keeps s (dieWarn t) :=
  Keeps.ite (Keeps.raise (h.set rfl)) h

theorem Keeps.pllLock (h : Keeps s t) : Keeps s (pllLock t) :=
  Keeps.ite (Keeps.updSeq (Keeps.handOver (h.set rfl))) h

theorem Keeps.pllLockTimeout (h : Keeps s t) : Keeps s (pllLockTimeout t) :=
  Keeps.ite h.railFailure h

theorem Keeps.otpReadComplete (h : Keeps s t) : Keeps s (otpReadComplete t) :=
  Keeps.ite (Keeps.ite h.orderedShutdown (Keeps.ite (Keeps.updSeq (Keeps.takeCal
    (Keeps.overN (Keeps.otpStickies (h.set rfl)) fun _ _ k0 => k0.updFeed _ _)))
    (Keeps.updSeq (Keeps.overN (Keeps.otpStickies (h.set rfl)) fun _ _ k0 => k0.updFeed _ _)))) h

theorem Keeps.takeFeedCairns (h : Keeps s t) : Keeps s (takeFeedCairns t) :=
  h.overN fun _ _ k0 => k0.takeFields

theorem Keeps.beginStep6 (h : Keeps s t) : Keeps s (beginStep6 t) :=
  h.takeFeedCairns.updSeq.overN fun _ _ k0 => (k0.updFeed _ _).feedEnable

theorem Keeps.railQualified {rp} (h : Keeps s t) : Keeps s (railQualified rp t) := by
  unfold Machine.railQualified
  dsimp only
  split
  · exact h.updSeq
  · exact Keeps.updSeq (h.overN fun _ _ k0 => k0.updCc _ _)
  · exact h.updSeq
  · exact h.updSeq
  · exact h.updSeq
  · exact Keeps.ite h.updSeq h.beginStep6

theorem Keeps.seqComplete (h : Keeps s t) : Keeps s (seqComplete t) :=
  Keeps.ite (Keeps.ite h.updSeq (Keeps.ite h.updSeq h)) h

theorem Keeps.portFitting {here p} (h : Keeps s t) : Keeps s (portFitting here p t) :=
  h.trans (OnlyPort.keeps (OnlyPort.portFitting (.refl _ _)))

theorem Keeps.beginStep7 {imonMv} (h : Keeps s t) : Keeps s (beginStep7 imonMv t) :=
  Keeps.seqComplete (Keeps.updSeq (Keeps.overN (Keeps.overN (h.overN fun _ _ k0 => k0.updPhase _ _) fun _ _ k0 => k0.updRidge _ _
    (fun _ => rfl)) fun _ _ k0 => k0.portFitting))

theorem Keeps.seqStepQualify {m r} (h : Keeps s t) : Keeps s (seqStepQualify m r t) :=
  Keeps.ite (Keeps.ite h.railQualified h) (Keeps.ite h.beginStep7 (Keeps.ite (Keeps.seqComplete (h.updRidge _ _ (fun _ => rfl))) h))

theorem Keeps.seqStepTimeout (h : Keeps s t) : Keeps s (seqStepTimeout t) :=
  Keeps.ite h.railFailure h

theorem Keeps.step6FeedlessTimeout (h : Keeps s t) : Keeps s (step6FeedlessTimeout t) :=
  Keeps.ite h.updSeq h

theorem Keeps.stgenRidgeTimeout {r} (h : Keeps s t) : Keeps s (stgenRidgeTimeout r t) :=
  Keeps.ite (Keeps.seqComplete (Keeps.stopRidge (h.updRidge _ _ (fun _ => rfl)))) h

theorem Keeps.holdOff (h : Keeps s t) : Keeps s (t.holdOff) :=
  h.updSeq

theorem Keeps.downNext (h : Keeps s t) : Keeps s (t.downNext) :=
  Keeps.ite h.updSeq (Keeps.ite h.holdOff h.downTo)

theorem Keeps.shutdownStepOff (h : Keeps s t) : Keeps s (shutdownStepOff t) :=
  Keeps.ite h.downNext h

theorem Keeps.shutdownNofallTimeout (h : Keeps s t) : Keeps s (shutdownNofallTimeout t) :=
  Keeps.ite h.raise.updSeq.downNext h

theorem Keeps.shutoffRailWaitEnd {railsOff} (h : Keeps s t) : Keeps s (shutoffRailWaitEnd railsOff t) :=
  Keeps.ite h.holdOff h

theorem Keeps.rest (h : Keeps s t) : Keeps s (t.rest) :=
  Keeps.ite h.startBoot h.updSeq

theorem Keeps.startOrWait {causes fresh} (h : Keeps s t) : Keeps s (t.startOrWait causes fresh) :=
  Keeps.ite h.updSeq h.startAgain

theorem Keeps.holdoffEnd (h : Keeps s t) : Keeps s (holdoffEnd t) :=
  Keeps.ite (by
    split
    · exact Keeps.ite h.startOrWait h.updSeq.raise
    · exact Keeps.ite h.startOrWait h.updSeq
    · exact h.startOrWait
    · exact h.startOrWait
    · exact Keeps.ite h.startOrWait h.rest) h

theorem Keeps.ignChange {high} (h : Keeps s t) : Keeps s (ignChange high t) :=
  Keeps.ite h (h.updSeq.ifThen fun k0 => k0.pushEvent)

theorem Keeps.ignOffDelayExpiry (h : Keeps s t) : Keeps s (ignOffDelayExpiry t) :=
  Keeps.ite h.orderedShutdown h

theorem Keeps.aonDischargeTimeout {p} (h : Keeps s t) : Keeps s (aonDischargeTimeout p t) :=
  h.trans (OnlyPort.keeps (OnlyPort.aonDischargeTimeout (.refl _ _)))

theorem Keeps.idle (h : Keeps s t) : Keeps s (idle t) :=
  h.set rfl

theorem Keeps.withFetchWord {nbits w} (h : Keeps s t) : Keeps s (t.withFetchWord nbits w) := by
  unfold Machine.State.withFetchWord
  split
  · exact h
  · exact h.set rfl

theorem Keeps.sweepPorts {n b g} (h : Keeps s t) : Keeps s (sweepPorts n b g t) :=
  h.overN fun _ _ k0 => Keeps.ite (k0.updPort _ _) k0

end

end Sys2Proof.Machine
end
section
/-! PROOF. The step: it runs the front command, and it keeps the invariant. -/
namespace Sys2Proof.Machine

/-- Every command completes, and keeps the shape and the memories. -/
theorem exec_keeps (c : Instr) (s : State) : ∃ t, exec c s = .next t ∧ Keeps s t := by
  have h := Keeps.refl s
  cases c with
  | cmdPut => exact ⟨_, rfl, h.cmdPut⟩
  | commandAccept => exact ⟨_, rfl, h.commandAccept⟩
  | resGet => exact ⟨_, rfl, h.resGet⟩
  | busStatus => exact ⟨_, rfl, h.busStatus⟩
  | attnAck => exact ⟨_, rfl, h.attnAck⟩
  | addressMatchWake => exact ⟨_, rfl, h.addressMatchWake⟩
  | busSclTimeout => exact ⟨_, rfl, h.busSclTimeout⟩
  | busEdgeTimeout => exact ⟨_, rfl, h.busEdgeTimeout⟩
  | stuckRelease => exact ⟨_, rfl, h.stuckRelease⟩
  | busIdleDetect => exact ⟨_, rfl, h.busIdleDetect⟩
  | attentionWrite => exact ⟨_, rfl, h.attentionWrite⟩
  | attentionBackoffExpiry => exact ⟨_, rfl, h.attentionBackoffExpiry⟩
  | identify => exact ⟨_, rfl, h.identify⟩
  | echo => exact ⟨_, rfl, h.echo⟩
  | getParam => exact ⟨_, rfl, h.getParam⟩
  | setParam => exact ⟨_, rfl, h.setParam⟩
  | paramTakeEffect => exact ⟨_, rfl, h.paramTakeEffect⟩
  | attachModeChange => exact ⟨_, rfl, h.attachModeChange⟩
  | testerPolicyZero => exact ⟨_, rfl, h.testerPolicyZero⟩
  | eprEnClear => exact ⟨_, rfl, h.policyRow fun _ k0 => k0.eprEnClear⟩
  | portErrorRecovery => exact ⟨_, rfl, h.portErrorRecovery⟩
  | portCableDiscover => exact ⟨_, rfl, h.portCableDiscover⟩
  | portRediscover => exact ⟨_, rfl, h.portRediscover⟩
  | portDrSwap => exact ⟨_, rfl, h.portDrSwap⟩
  | modeEnter => exact ⟨_, rfl, h.modeEnter⟩
  | modeExit => exact ⟨_, rfl, h.modeExit⟩
  | vdmSend => exact ⟨_, rfl, h.vdmSend⟩
  | discRead => exact ⟨_, rfl, h.discRead⟩
  | modeTableRead => exact ⟨_, rfl, h.modeTableRead⟩
  | modeTableWrite => exact ⟨_, rfl, h.modeTableWrite⟩
  | eventRead => exact ⟨_, rfl, h.eventRead⟩
  | ledgerRead => exact ⟨_, rfl, h.ledgerRead⟩
  | sleep => exact ⟨_, rfl, h.sleep⟩
  | sleepDelayExpiry => exact ⟨_, rfl, h.sleepDelayExpiry⟩
  | faultClear => exact ⟨_, rfl, h.faultClear⟩
  | faultPinRelease => exact ⟨_, rfl, h.faultPinRelease⟩
  | faultPinHold => exact ⟨_, rfl, h.faultPinHold⟩
  | faultRead => exact ⟨_, rfl, h.faultRead⟩
  | otpRead => exact ⟨_, rfl, h.otpRead⟩
  | otpBurn => exact ⟨_, rfl, h.otpBurn⟩
  | finalise => exact ⟨_, rfl, h.finalise⟩
  | calCapture => exact ⟨_, rfl, h.calCapture⟩
  | calBurn => exact ⟨_, rfl, h.calBurn⟩
  | calRead => exact ⟨_, rfl, h.calRead⟩
  | cairnSync => exact ⟨_, rfl, h.cairnSync⟩
  | cairnDrop => exact ⟨_, rfl, h.cairnDrop⟩
  | progLoad => exact ⟨_, rfl, h.progLoad⟩
  | progRead => exact ⟨_, rfl, h.progRead⟩
  | ucodeLoad => exact ⟨_, rfl, h.ucodeLoad⟩
  | progSwitchStaging => exact ⟨_, rfl, h.progSwitchStaging⟩
  | progSwitchRomLaw => exact ⟨_, rfl, h.progSwitchRomLaw⟩
  | bankSwitch => exact ⟨_, rfl, h.bankSwitch⟩
  | patchLoad => exact ⟨_, rfl, h.patchLoad⟩
  | patchVerify => exact ⟨_, rfl, h.patchVerify⟩
  | patchDrop => exact ⟨_, rfl, h.patchDrop⟩
  | phaseRetire => exact ⟨_, rfl, h.phaseRetire⟩
  | phaseReadmit => exact ⟨_, rfl, h.phaseReadmit⟩
  | portRecal => exact ⟨_, rfl, h.portRecal⟩
  | supRestartPatch => exact ⟨_, rfl, h.supRestartPatch⟩
  | supRestartRom => exact ⟨_, rfl, h.supRestartRom⟩
  | ageingMeasure => exact ⟨_, rfl, h.ageingMeasure⟩
  | authKeygen => exact ⟨_, rfl, h.authKeygen⟩
  | authPubkey => exact ⟨_, rfl, h.authPubkey⟩
  | authChainLoad => exact ⟨_, rfl, h.authChainLoad⟩
  | authInitiate => exact ⟨_, rfl, h.authInitiate⟩
  | authPeerRead => exact ⟨_, rfl, h.authPeerRead⟩
  | diagCapture => exact ⟨_, rfl, h.diagCapture⟩
  | diagCaptureTrigger => exact ⟨_, rfl, h.diagCaptureTrigger⟩
  | diagCaptureTimeout => exact ⟨_, rfl, h.diagCaptureTimeout⟩
  | diagDump => exact ⟨_, rfl, h.diagDump⟩
  | paceBoundary => exact ⟨_, rfl, h.scheduleLate.paceBoundary⟩
  | carrierStart => exact ⟨_, rfl, h.carrierStart⟩
  | ridgeProgramStart => exact ⟨_, rfl, h.ridgeProgramStart⟩
  | pwmPub => exact ⟨_, rfl, Keeps.ite h.supWord h.ridgeWord⟩
  | paceOverrun => exact ⟨_, rfl, h.paceOverrun⟩
  | frameBoundary => exact ⟨_, rfl, h.frameBoundary.scheduleNow⟩
  | taskCapReached => exact ⟨_, rfl, h.taskCapReached⟩
  | innkeeperSolveComplete => exact ⟨_, rfl, h.innkeeperSolveComplete⟩
  | degradedEnd => exact ⟨_, rfl, h.degradedEnd⟩
  | dipHoldEnd => exact ⟨_, rfl, h.dipHoldEnd⟩
  | dipExit => exact ⟨_, rfl, h.dipExit⟩
  | feedlessExpiry => exact ⟨_, rfl, h.feedlessExpiry⟩
  | shedBackstop => exact ⟨_, rfl, h.shedBackstop⟩
  | overdrawTypecEnd => exact ⟨_, rfl, h.overdrawTypecEnd⟩
  | clockFault => exact ⟨_, rfl, h.clockFault⟩
  | pllLock => exact ⟨_, rfl, h.pllLock⟩
  | pllLockTimeout => exact ⟨_, rfl, h.pllLockTimeout⟩
  | ccSniff => exact ⟨_, rfl, h.ccSniff⟩
  | toggleSourceEnd => exact ⟨_, rfl, h.toggleSourceEnd⟩
  | toggleSinkEnd => exact ⟨_, rfl, h.toggleSinkEnd⟩
  | attachDebounceSrc => exact ⟨_, rfl, h.attachDebounceSrc⟩
  | attachDebounceSnk => exact ⟨_, rfl, h.attachDebounceSnk⟩
  | attachwaitTimeout => exact ⟨_, rfl, h.attachwaitTimeout⟩
  | unexpectedVbus => exact ⟨_, rfl, h.unexpectedVbus⟩
  | portSwitchClose => exact ⟨_, rfl, h.portSwitchClose⟩
  | vbusStartCheck => exact ⟨_, rfl, h.vbusStartCheck⟩
  | errorRecoveryEnd => exact ⟨_, rfl, h.errorRecoveryEnd⟩
  | sinkVbusLoss => exact ⟨_, rfl, h.sinkVbusLoss⟩
  | detachByDebounce => exact ⟨_, rfl, h.detachByDebounce⟩
  | detachByCurrent => exact ⟨_, rfl, h.detachByCurrent⟩
  | detachSwitchOpen => exact ⟨_, rfl, h.detachSwitchOpen⟩
  | vbusDischargeComplete => exact ⟨_, rfl, h.vbusDischargeComplete⟩
  | vbusDischargeTimeout => exact ⟨_, rfl, h.vbusDischargeTimeout⟩
  | vconnGood => exact ⟨_, rfl, h.vconnGood⟩
  | vconnFaultTimerTrip => exact ⟨_, rfl, h.vconnFaultTimerTrip⟩
  | vconnHardTrip => exact ⟨_, rfl, h.vconnHardTrip⟩
  | vconnReverseBlock => exact ⟨_, rfl, h.vconnReverseBlock⟩
  | vconnSupplyLoss => exact ⟨_, rfl, h.vconnSupplyLoss⟩
  | vconnDischargeEnd => exact ⟨_, rfl, h.vconnDischargeEnd⟩
  | vbootQualify => exact ⟨_, rfl, h.vbootQualify⟩
  | vbootDisqualify => exact ⟨_, rfl, h.vbootDisqualify⟩
  | bootPortSelect => exact ⟨_, rfl, h.bootPortSelect⟩
  | passiveRdTakeover => exact ⟨_, rfl, h.passiveRdTakeover⟩
  | sourceCapSend => exact ⟨_, rfl, h.policyRow fun _ k0 => k0.sourceCapSend⟩
  | collisionWaitExpiry => exact ⟨_, rfl, h.policyRow fun _ k0 => k0.collisionWaitExpiry⟩
  | cableDiscoverAttempt => exact ⟨_, rfl, h.policyRow fun _ k0 => k0.cableDiscoverAttempt⟩
  | cableIdentityResponse => exact ⟨_, rfl, h.policyRow fun _ k0 => k0.cableIdentityResponse⟩
  | goodcrcRetryFail => exact ⟨_, rfl, h.policyRow fun _ k0 => k0.goodcrcRetryFail⟩
  | senderResponseTimeout => exact ⟨_, rfl, h.policyRow fun _ k0 => k0.senderResponseTimeout⟩
  | requestReceived => exact ⟨_, rfl, h.policyRow fun _ k0 => k0.requestReceived⟩
  | transitionStart => exact ⟨_, rfl, h.policyRow fun _ k0 => k0.transitionStart⟩
  | transitionSettled => exact ⟨_, rfl, h.policyRow fun _ k0 => k0.transitionSettled⟩
  | phasesNotPlacedTimeout => exact ⟨_, rfl, h.policyRow fun _ k0 => k0.phasesNotPlacedTimeout⟩
  | ppsTimeout => exact ⟨_, rfl, h.policyRow fun _ k0 => k0.ppsTimeout⟩
  | eprModeEnter => exact ⟨_, rfl, h.policyRow fun _ k0 => k0.eprModeEnter⟩
  | eprKeepalive => exact ⟨_, rfl, h.policyRow fun _ k0 => k0.eprKeepalive⟩
  | eprKeepaliveTimeout => exact ⟨_, rfl, h.policyRow fun _ k0 => k0.eprKeepaliveTimeout⟩
  | eprModeExit => exact ⟨_, rfl, h.policyRow fun _ k0 => k0.eprModeExit⟩
  | eprPartExit => exact ⟨_, rfl, h.policyRow fun _ k0 => k0.eprPartExit⟩
  | loweredCapsTimeout => exact ⟨_, rfl, h.policyRow fun _ k0 => k0.loweredCapsTimeout⟩
  | getSourceCap => exact ⟨_, rfl, h.policyRow fun _ k0 => k0.getSourceCap⟩
  | getSinkCap => exact ⟨_, rfl, h.policyRow fun _ k0 => k0.getSinkCap⟩
  | getSourceCapExtended => exact ⟨_, rfl, h.policyRow fun _ k0 => k0.getSourceCapExtended⟩
  | getStatus => exact ⟨_, rfl, h.policyRow fun _ k0 => k0.getStatus⟩
  | getPpsStatus => exact ⟨_, rfl, h.policyRow fun _ k0 => k0.getPpsStatus⟩
  | getSourceInfo => exact ⟨_, rfl, h.policyRow fun _ k0 => k0.getSourceInfo⟩
  | getRevision => exact ⟨_, rfl, h.policyRow fun _ k0 => k0.getRevision⟩
  | alertReceived => exact ⟨_, rfl, h.policyRow fun _ k0 => k0.alertReceived⟩
  | unsupportedRequest => exact ⟨_, rfl, h.policyRow fun _ k0 => k0.unsupportedRequest⟩
  | protocolError => exact ⟨_, rfl, h.policyRow fun _ k0 => k0.protocolError⟩
  | softResetTimeout => exact ⟨_, rfl, h.policyRow fun _ k0 => k0.softResetTimeout⟩
  | sourceCapRepeat => exact ⟨_, rfl, h.policyRow fun _ k0 => k0.sourceCapRepeat⟩
  | hardResetReceived => exact ⟨_, rfl, h.policyRow fun _ k0 => k0.hardResetReceived⟩
  | hardResetTakedown => exact ⟨_, rfl, h.policyRow fun _ k0 => k0.hardResetTakedown⟩
  | hardResetRecover => exact ⟨_, rfl, h.policyRow fun _ k0 => k0.hardResetRecover⟩
  | lossOfConversion => exact ⟨_, rfl, h.lossOfConversion⟩
  | outOfServiceReturn => exact ⟨_, rfl, h.outOfServiceReturn⟩
  | holdMessageAnswer => exact ⟨_, rfl, h.holdMessageAnswer⟩
  | holdHardReset => exact ⟨_, rfl, h.holdHardReset⟩
  | sinkSourceCapReceived => exact ⟨_, rfl, h.policyRow fun _ k0 => k0.sinkSourceCapReceived⟩
  | sinkVbusCheckTimeout => exact ⟨_, rfl, h.policyRow fun _ k0 => k0.sinkVbusCheckTimeout⟩
  | prSwapSend => exact ⟨_, rfl, h.policyRow fun _ k0 => k0.prSwapSend⟩
  | prSwapAccept => exact ⟨_, rfl, h.policyRow fun _ k0 => k0.prSwapAccept⟩
  | prSwapPsRdy => exact ⟨_, rfl, h.policyRow fun _ k0 => k0.prSwapPsRdy⟩
  | prSwapSourceOffTimeout => exact ⟨_, rfl, h.policyRow fun _ k0 => k0.prSwapSourceOffTimeout⟩
  | swapResponseTimeout => exact ⟨_, rfl, h.policyRow fun _ k0 => k0.swapResponseTimeout⟩
  | prSwapReceived => exact ⟨_, rfl, h.policyRow fun _ k0 => k0.prSwapReceived⟩
  | drSwapReceived => exact ⟨_, rfl, h.policyRow fun _ k0 => k0.drSwapReceived⟩
  | vconnSwapSend => exact ⟨_, rfl, h.policyRow fun _ k0 => k0.vconnSwapSend⟩
  | vconnSwapReceived => exact ⟨_, rfl, h.policyRow fun _ k0 => k0.vconnSwapReceived⟩
  | vconnSwapPartnerPsRdy => exact ⟨_, rfl, h.policyRow fun _ k0 => k0.vconnSwapPartnerPsRdy⟩
  | vconnSourceTimeout => exact ⟨_, rfl, h.policyRow fun _ k0 => k0.vconnSourceTimeout⟩
  | swapSuppressionEnd => exact ⟨_, rfl, h.swapSuppressionEnd⟩
  | sinkVbusRestoreTimeout => exact ⟨_, rfl, h.sinkVbusRestoreTimeout⟩
  | discoveryStart => exact ⟨_, rfl, h.restRow fun _ k0 => k0.discoveryStart⟩
  | vdmResponse => exact ⟨_, rfl, h.restRow fun _ k0 => k0.vdmResponse⟩
  | vdmBusyRetry => exact ⟨_, rfl, h.restRow fun _ k0 => k0.vdmBusyRetry⟩
  | vdmResponseTimeout => exact ⟨_, rfl, h.restRow fun _ k0 => k0.vdmResponseTimeout⟩
  | modeEntryTimeout => exact ⟨_, rfl, h.restRow fun _ k0 => k0.modeEntryTimeout⟩
  | attentionVdmReceived => exact ⟨_, rfl, h.restRow fun _ k0 => k0.attentionVdmReceived⟩
  | unstructuredVdm => exact ⟨_, rfl, h.restRow fun _ k0 => k0.unstructuredVdm⟩
  | vdmRequestAsUfp => exact ⟨_, rfl, h.restRow fun _ k0 => k0.vdmRequestAsUfp⟩
  | vdmRequestAsDfp => exact ⟨_, rfl, h.restRow fun _ k0 => k0.vdmRequestAsDfp⟩
  | serviceEnterMode => exact ⟨_, rfl, h.restRow fun _ k0 => k0.serviceEnterMode⟩
  | segPut => exact ⟨_, rfl, h.restRow fun _ k0 => k0.segPut⟩
  | segGet => exact ⟨_, rfl, h.restRow fun _ k0 => k0.segGet⟩
  | hello => exact ⟨_, rfl, h.hello⟩
  | tAuth => exact ⟨_, rfl, h.tAuth⟩
  | pAuthReady => exact ⟨_, rfl, h.pAuthReady⟩
  | tunnelCmd => exact ⟨_, rfl, h.tunnelCmd⟩
  | sessionIdleTimeout => exact ⟨_, rfl, h.sessionIdleTimeout⟩
  | serviceExitMode => exact ⟨_, rfl, h.restRow fun _ k0 => k0.serviceExitMode⟩
  | authFailureDelayEnd => exact ⟨_, rfl, h.authFailureDelayEnd⟩
  | securityRequest => exact ⟨_, rfl, h.restRow fun _ k0 => k0.securityRequest⟩
  | swapReplyReceived => exact ⟨_, rfl, h.policyRow fun _ k0 => k0.swapReplyReceived⟩
  | softResetReceived => exact ⟨_, rfl, h.policyRow fun _ k0 => k0.softResetReceived⟩
  | sinkAcceptReceived => exact ⟨_, rfl, h.policyRow fun _ k0 => k0.sinkAcceptReceived⟩
  | securityResponse => exact ⟨_, rfl, h.restRow fun _ k0 => k0.securityResponse⟩
  | prSwapVbusConfirmTimeout => exact ⟨_, rfl, h.policyRow fun _ k0 => k0.prSwapVbusConfirmTimeout⟩
  | ntcOutOfRange => exact ⟨_, rfl, h.ntcOutOfRange⟩
  | aonDischargeTimeout => exact ⟨_, rfl, h.aonDischargeTimeout⟩
  | commandInterpreterStart => exact ⟨_, rfl, h.commandInterpreterStart⟩
  | guardDrainZero => exact ⟨_, rfl, h.guardDrainZero⟩
  | guardDrainTimeout => exact ⟨_, rfl, h.guardDrainTimeout⟩
  | guardZeroCountDone => exact ⟨_, rfl, h.guardZeroCountDone⟩
  | guardCountTimeout => exact ⟨_, rfl, h.guardCountTimeout⟩
  | guardBreakDone => exact ⟨_, rfl, h.guardBreakDone⟩
  | guardPrebiasTimeout => exact ⟨_, rfl, h.guardPrebiasTimeout⟩
  | peakValleyLimit => exact ⟨_, rfl, h.peakValleyLimit⟩
  | pklimStop => exact ⟨_, rfl, h.pklimStop⟩
  | phaseAbsentRun => exact ⟨_, rfl, h.phaseAbsentRun⟩
  | stageFault => exact ⟨_, rfl, h.stageFault⟩
  | phaseInvStop => exact ⟨_, rfl, h.phaseInvStop⟩
  | ridgeHot => exact ⟨_, rfl, h.ridgeHot⟩
  | portCloseComplete => exact ⟨_, rfl, h.portCloseComplete⟩
  | portCloseTimeout => exact ⟨_, rfl, h.portCloseTimeout⟩
  | portFaultTimerTrip => exact ⟨_, rfl, h.portFaultTimerTrip⟩
  | portFaultTimerReset => exact ⟨_, rfl, h.portFaultTimerReset⟩
  | portFastTrip => exact ⟨_, rfl, h.portFastTrip⟩
  | portReverseBlock => exact ⟨_, rfl, h.portReverseBlock⟩
  | portOvervoltage => exact ⟨_, rfl, h.portOvervoltage⟩
  | portTripCountClear => exact ⟨_, rfl, h.portTripCountClear⟩
  | feedQualifyComplete => exact ⟨_, rfl, h.feedQualifyComplete⟩
  | feedWindowLoss => exact ⟨_, rfl, h.feedWindowLoss⟩
  | feedRampTurnTake => exact ⟨_, rfl, h.feedRampTurnTake⟩
  | feedFullyOn => exact ⟨_, rfl, h.feedFullyOn⟩
  | feedRampTimeout => exact ⟨_, rfl, h.feedRampTimeout⟩
  | feedFastTrip => exact ⟨_, rfl, h.feedFastTrip⟩
  | feedFaultTimerTrip => exact ⟨_, rfl, h.feedFaultTimerTrip⟩
  | feedFaultTimerReset => exact ⟨_, rfl, h.feedFaultTimerReset⟩
  | feedOvTurnoff => exact ⟨_, rfl, h.feedOvTurnoff⟩
  | feedUvRun => exact ⟨_, rfl, h.feedUvRun⟩
  | feedHoldoffReturn => exact ⟨_, rfl, h.feedHoldoffReturn⟩
  | feedRetryDelayEnd => exact ⟨_, rfl, h.feedRetryDelayEnd⟩
  | feedReverseTurnoff => exact ⟨_, rfl, h.feedReverseTurnoff⟩
  | feedOdgTurnOn => exact ⟨_, rfl, h.feedOdgTurnOn⟩
  | feedIdealDiodeFault => exact ⟨_, rfl, h.feedIdealDiodeFault⟩
  | feedTripCountClear => exact ⟨_, rfl, h.feedTripCountClear⟩
  | ignWake => exact ⟨_, rfl, h.ignWake⟩
  | resetNRelease => exact ⟨_, rfl, h.resetNRelease⟩
  | resetNAssert => exact ⟨_, rfl, h.resetNAssert⟩
  | vbatAonPowerOn => exact ⟨_, rfl, h.vbatAonPowerOn⟩
  | vbatAonDrop => exact ⟨_, rfl, h.vbatAonDrop⟩
  | seqStepQualify => exact ⟨_, rfl, h.seqStepQualify⟩
  | seqStepTimeout => exact ⟨_, rfl, h.seqStepTimeout⟩
  | otpReadComplete => exact ⟨_, rfl, h.otpReadComplete⟩
  | step6FeedlessTimeout => exact ⟨_, rfl, h.step6FeedlessTimeout⟩
  | stgenRidgeTimeout => exact ⟨_, rfl, h.stgenRidgeTimeout⟩
  | runningRailFault => exact ⟨_, rfl, h.runningRailFault⟩
  | dieHot => exact ⟨_, rfl, h.dieHot⟩
  | dieWarn => exact ⟨_, rfl, h.dieWarn⟩
  | shutoffRailWaitEnd => exact ⟨_, rfl, h.shutoffRailWaitEnd⟩
  | shutdownStepOff => exact ⟨_, rfl, h.shutdownStepOff⟩
  | shutdownNofallTimeout => exact ⟨_, rfl, h.shutdownNofallTimeout⟩
  | holdoffEnd => exact ⟨_, rfl, h.holdoffEnd⟩
  | ignChange => exact ⟨_, rfl, h.ignChange⟩
  | ignOffDelayExpiry => exact ⟨_, rfl, h.ignOffDelayExpiry⟩
  | calibrationTakeup => exact ⟨_, rfl, h.calibrationTakeup⟩
  | reducedServiceStart => exact ⟨_, rfl, h.reducedServiceStart⟩
  | cairnRestore => exact ⟨_, rfl, h.cairnRestore⟩
  | patchVerification => exact ⟨_, rfl, h.patchVerification⟩
  | ridgeBankLoad => exact ⟨_, rfl, h.ridgeBankLoad⟩
  | endOfBringup => exact ⟨_, rfl, h.endOfBringup⟩
  | faultNPulseEnd => exact ⟨_, rfl, h.faultNPulseEnd⟩
  | cairnWriteBegin => exact ⟨_, rfl, h.cairnWriteBegin⟩
  | cairnWriteComplete => exact ⟨_, rfl, h.cairnWriteComplete⟩
  | bankCopyComplete => exact ⟨_, rfl, h.bankCopyComplete⟩
  | probeRecordComplete => exact ⟨_, rfl, h.probeRecordComplete⟩
  | measurementComplete => exact ⟨_, rfl, h.measurementComplete⟩
  | replanApply => exact ⟨_, rfl, h.replanApply⟩
  | lossFit => exact ⟨_, rfl, h.lossFit⟩
  | ageingMeasureTimeout => exact ⟨_, rfl, h.ageingMeasureTimeout⟩
  | readmitTimeout => exact ⟨_, rfl, h.readmitTimeout⟩
  | supRestartHoldBegin => exact ⟨_, rfl, h.supRestartHoldBegin⟩
  | supervisorReturn => exact ⟨_, rfl, h.supervisorReturn⟩
  | holdExpiry => exact ⟨_, rfl, h.holdExpiry⟩
  | interruptTaken => exact ⟨_, rfl, h.interruptTaken⟩
  | irqRet => exact ⟨_, rfl, Keeps.ite h.supWord h.ridgeWord⟩
  | move => exact ⟨_, rfl, Keeps.ite h.supWord h.ridgeWord⟩
  | memRead => exact ⟨_, rfl, Keeps.ite h.supWord h.ridgeWord⟩
  | memWrite => exact ⟨_, rfl, Keeps.ite h.supWord h.ridgeWord⟩
  | aluPass => exact ⟨_, rfl, Keeps.ite h.supWord h.ridgeWord⟩
  | aluAdd => exact ⟨_, rfl, Keeps.ite h.supWord h.ridgeWord⟩
  | aluSub => exact ⟨_, rfl, Keeps.ite h.supWord h.ridgeWord⟩
  | aluAdds => exact ⟨_, rfl, Keeps.ite h.supWord h.ridgeWord⟩
  | aluSubs => exact ⟨_, rfl, Keeps.ite h.supWord h.ridgeWord⟩
  | aluAnd => exact ⟨_, rfl, Keeps.ite h.supWord h.ridgeWord⟩
  | aluOr => exact ⟨_, rfl, Keeps.ite h.supWord h.ridgeWord⟩
  | aluXor => exact ⟨_, rfl, Keeps.ite h.supWord h.ridgeWord⟩
  | aluShl => exact ⟨_, rfl, Keeps.ite h.supWord h.ridgeWord⟩
  | aluSar => exact ⟨_, rfl, Keeps.ite h.supWord h.ridgeWord⟩
  | aluShr => exact ⟨_, rfl, Keeps.ite h.supWord h.ridgeWord⟩
  | aluMin => exact ⟨_, rfl, Keeps.ite h.supWord h.ridgeWord⟩
  | aluMax => exact ⟨_, rfl, Keeps.ite h.supWord h.ridgeWord⟩
  | aluAbs => exact ⟨_, rfl, Keeps.ite h.supWord h.ridgeWord⟩
  | aluNeg => exact ⟨_, rfl, Keeps.ite h.supWord h.ridgeWord⟩
  | cmpLt => exact ⟨_, rfl, Keeps.ite h.supWord h.ridgeWord⟩
  | cmpLe => exact ⟨_, rfl, Keeps.ite h.supWord h.ridgeWord⟩
  | cmpEq => exact ⟨_, rfl, Keeps.ite h.supWord h.ridgeWord⟩
  | cmpNe => exact ⟨_, rfl, Keeps.ite h.supWord h.ridgeWord⟩
  | cmpGe => exact ⟨_, rfl, Keeps.ite h.supWord h.ridgeWord⟩
  | cmpGt => exact ⟨_, rfl, Keeps.ite h.supWord h.ridgeWord⟩
  | cmpLtu => exact ⟨_, rfl, Keeps.ite h.supWord h.ridgeWord⟩
  | cmpGeu => exact ⟨_, rfl, Keeps.ite h.supWord h.ridgeWord⟩
  | cmpTst => exact ⟨_, rfl, Keeps.ite h.supWord h.ridgeWord⟩
  | cmpPset => exact ⟨_, rfl, Keeps.ite h.supWord h.ridgeWord⟩
  | macMul => exact ⟨_, rfl, Keeps.ite h.supWord h.ridgeWord⟩
  | macMac => exact ⟨_, rfl, Keeps.ite h.supWord h.ridgeWord⟩
  | macMsu => exact ⟨_, rfl, Keeps.ite h.supWord h.ridgeWord⟩
  | macDmac => exact ⟨_, rfl, Keeps.ite h.supWord h.ridgeWord⟩
  | macLd => exact ⟨_, rfl, Keeps.ite h.supWord h.ridgeWord⟩
  | macClr => exact ⟨_, rfl, Keeps.ite h.supWord h.ridgeWord⟩
  | macMode => exact ⟨_, rfl, Keeps.ite h.supWord h.ridgeWord⟩
  | macTriggerComplete => exact ⟨_, rfl, h.macLand⟩
  | lpRep => exact ⟨_, rfl, Keeps.ite h.supWord h.ridgeWord⟩
  | lpRepH => exact ⟨_, rfl, Keeps.ite h.supWord h.ridgeWord⟩
  | repeatEnd => exact ⟨_, rfl, h.repeatDone⟩
  | pcJmp => exact ⟨_, rfl, Keeps.ite h.supWord h.ridgeWord⟩
  | pcCall => exact ⟨_, rfl, Keeps.ite h.supWord h.ridgeWord⟩
  | pcRet => exact ⟨_, rfl, Keeps.ite h.supWord h.ridgeWord⟩
  | pwmDutyWrite => exact ⟨_, rfl, Keeps.ite h.supWord h.ridgeWord⟩
  | steerReq => exact ⟨_, rfl, Keeps.ite h.supWord h.ridgeWord⟩
  | cstTrigger => exact ⟨_, rfl, Keeps.ite h.supWord h.ridgeWord⟩

/-- A step gives a next state and keeps the shape and the memories: the queue that it shortens is no part of either. -/
theorem step_keeps {s t : State} (h : step s = .next t) : Keeps s t := by
  unfold step at h
  split at h
  · obtain rfl := Host.Outcome.next.inj h
    exact (Keeps.refl s).set rfl
  · next c rest _ =>
    obtain ⟨u, hu, k⟩ := exec_keeps c { s with pending := rest }
    obtain rfl := Host.Outcome.next.inj (hu.symm.trans h)
    exact ((Keeps.refl s).set rfl).trans k

/-- Settles O1: the branch of `step` for a queue that is not empty. -/
theorem stepRunsFrontCommand : Obligations.StepRunsFrontCommand := by
  intro s c rest h
  simp only [step, h]

/-- Settles O3: the shape and the memories of the reset state, each read off its tables. -/
theorem resetMeetsInvariant : Obligations.ResetMeetsInvariant := ⟨State.shaped_reset, State.memOk_reset⟩

/-- Settles O4: what every command keeps (`exec_keeps`), read for the shape. -/
theorem stepKeepsShape : Obligations.StepKeepsShape := fun _ _ hs h => (step_keeps h).1 hs

/-- Settles O5: what every command keeps (`exec_keeps`), read for the memories. -/
theorem stepKeepsMemories : Obligations.StepKeepsMemories := fun _ _ hi h => (step_keeps h).2 hi

end Sys2Proof.Machine
end

section
/-! PROOF. The engine words that have an encoding. -/
namespace Sys2Proof.Machine

theorem decodeWord_encodeWord {w : KWord} (h : wordOk w = true) : decodeWord (encodeWord w) = w := by
  have h0 : reservedFit w 0 = true := by
    unfold reservedFit
    split <;> rfl
  simpa using decodeWord_encodeWord_add h h0

/-- Settles O6: a word without reserved bits, and a command's word with them, are cases of `decodeWord_encodeWord_add`. -/
theorem knahaWordsRoundTrip : Obligations.KnahaWordsRoundTrip :=
  ⟨fun _ => decodeWord_encodeWord, fun _ _ => decodeWord_argBits⟩

end Sys2Proof.Machine
end

section
/-! PROOF. The frame of the Type-C and port path events. -/
namespace Sys2Proof.Machine

/-- Settles O23: the frame of each event's operation, on the state it begins from. -/
theorem typeCEventsTouchOnlyTheirPort : Obligations.TypeCEventsTouchOnlyTheirPort := by
  intro p s c hc
  have h := OnlyPort.refl p s
  obtain hc | ⟨b, rfl | rfl⟩ | ⟨n, rfl | rfl⟩ := hc
  case inr.inl.inl => exact ⟨_, rfl, h.vconnGood⟩
  case inr.inl.inr => exact ⟨_, rfl, h.portCloseComplete⟩
  case inr.inr.inl => exact ⟨_, rfl, h.portFastTrip⟩
  case inr.inr.inr => exact ⟨_, rfl, h.portReverseBlock⟩
  simp only [List.cons_append, List.nil_append, List.mem_cons, List.not_mem_nil, or_false] at hc
  obtain rfl | rfl | rfl | rfl | rfl | rfl | rfl | rfl | rfl | rfl | rfl | rfl | rfl | rfl | rfl | rfl | rfl | rfl | rfl | rfl |
    rfl | rfl | rfl | rfl | rfl | rfl | rfl | rfl | rfl := hc
  · exact ⟨_, rfl, h.toggleSourceEnd⟩
  · exact ⟨_, rfl, h.toggleSinkEnd⟩
  · exact ⟨_, rfl, h.attachDebounceSrc⟩
  · exact ⟨_, rfl, h.attachDebounceSnk⟩
  · exact ⟨_, rfl, h.attachwaitTimeout⟩
  · exact ⟨_, rfl, h.unexpectedVbus⟩
  · exact ⟨_, rfl, h.portSwitchClose⟩
  · exact ⟨_, rfl, h.vbusStartCheck⟩
  · exact ⟨_, rfl, h.errorRecoveryEnd⟩
  · exact ⟨_, rfl, h.sinkVbusLoss⟩
  · exact ⟨_, rfl, h.detachByDebounce⟩
  · exact ⟨_, rfl, h.detachByCurrent⟩
  · exact ⟨_, rfl, h.detachSwitchOpen⟩
  · exact ⟨_, rfl, h.vbusDischargeComplete⟩
  · exact ⟨_, rfl, h.vbusDischargeTimeout⟩
  · exact ⟨_, rfl, h.vconnFaultTimerTrip⟩
  · exact ⟨_, rfl, h.vconnHardTrip⟩
  · exact ⟨_, rfl, h.vconnReverseBlock⟩
  · exact ⟨_, rfl, h.vconnSupplyLoss⟩
  · exact ⟨_, rfl, h.vconnDischargeEnd⟩
  · exact ⟨_, rfl, h.passiveRdTakeover⟩
  · exact ⟨_, rfl, h.attachModeChange⟩
  · exact ⟨_, rfl, h.aonDischargeTimeout⟩
  · exact ⟨_, rfl, h.portCloseTimeout⟩
  · exact ⟨_, rfl, h.portFaultTimerTrip⟩
  · exact ⟨_, rfl, h.portFaultTimerReset⟩
  · exact ⟨_, rfl, h.portOvervoltage⟩
  · exact ⟨_, rfl, h.portTripCountClear⟩
  · exact ⟨_, rfl, h.overdrawTypecEnd⟩

end Sys2Proof.Machine
end

section
/-! PROOF. How a command is shown to complete. -/
namespace Sys2Proof.Machine

variable {p : Nat} {c : Instr} {s t u : State} {q : State → Prop}

/-- A command completes in a state that is known by a shorter name. -/
theorem Goes.intro (h : exec c s = .next t) (e : t = u) (hq : q u) : Goes c s q := ⟨t, h, e ▸ hq⟩

theorem Goes.imp {r : State → Prop} (h : Goes c s q) (k : ∀ t, q t → r t) : Goes c s r := by
  obtain ⟨t, ht, hq⟩ := h
  exact ⟨t, ht, k t hq⟩

end Sys2Proof.Machine
end

section
/-! PROOF. What a port's command cannot change; the home state and the records of a port. -/
namespace Sys2Proof.Machine

variable {p : Nat} {s t : State}

/-! ### What a port's command cannot change -/

theorem OnlyPort.seq_eq (h : OnlyPort p s t) : t.seq = s.seq := by rw [h.1]
theorem OnlyPort.sup_eq (h : OnlyPort p s t) : t.sup = s.sup := by rw [h.1]
theorem OnlyPort.ledger_eq (h : OnlyPort p s t) : t.ledger = s.ledger := by rw [h.1]
theorem OnlyPort.otp_eq (h : OnlyPort p s t) : t.otp = s.otp := by rw [h.1]
theorem OnlyPort.locked_eq (h : OnlyPort p s t) : t.locked = s.locked := by rw [h.1]

theorem OnlyPort.policyUp_eq (h : OnlyPort p s t) : t.policyUp = s.policyUp := by
  unfold State.policyUp
  rw [h.seq_eq, h.sup_eq]

theorem OnlyPort.rpOf_eq (h : OnlyPort p s t) (q : Nat) : rpOf t q = rpOf s q := by
  unfold rpOf
  rw [h.seq_eq, h.otp_eq, h.ledger_eq]

theorem OnlyPort.homeOf_eq (h : OnlyPort p s t) (ho : (t.cc p).toOutOfService = (s.cc p).toOutOfService) (m : Nat) :
    homeOf t p m = homeOf s p m := by
  unfold homeOf State.preService
  rw [h.seq_eq, ho]

/-- The home state of R59, with nothing allocated. -/
theorem State.home_cc (h : p < s.ports.length) :
    ((s.home p).cc p).st = homeOf s p (s.cc p).mode ∧ ((s.home p).cc p).alloc = false ∧
      ((s.home p).cc p).mode = (s.cc p).mode := by
  unfold State.home homeOf
  simp only [State.cc, State.cc_updCc, h]
  dsimp only [CcLayer.entered]
  by_cases h1 : (s.port p).cc.toOutOfService = true
  · simp [h1]
  by_cases h2 : s.seq.mode = .serviceBoot ∧ s.seq.bootPort = some p
  · simp [h1, h2]
  by_cases h3 : s.preService = true
  · simp [h1, h2, h3]
  cases h4 : s.seq.reduced
  case true => simp [h1, h2, h3]
  by_cases h5 : (s.port p).cc.mode = 2
  · simp [h1, h2, h3, h5]
  by_cases h6 : (s.port p).cc.mode = 1
  · simp [h1, h2, h3, h6, CcLayer.toggleFresh]
  · simp [h1, h2, h3, h5, h6]

/-- The discharge stays as it was on the way home. -/
theorem State.home_cc_disch (h : p < s.ports.length) :
    ((s.home p).cc p).disch = (s.cc p).disch ∧ ((s.home p).cc p).dischDetach = (s.cc p).dischDetach := by
  simp only [State.home, State.cc, State.cc_updCc, h, apply_ite CcLayer.disch, apply_ite CcLayer.dischDetach]
  simp [CcLayer.toggleFresh, CcLayer.entered]

/-- The record of a port that an event has set a sticky bit in. -/
theorem State.raiseCc_sticky {i : Nat} (h : p < s.ports.length) (hi : i < 16) :
    ((s.raise (.portCc p) i).port p).cc.flt.sticky.getLsbD i = true :=
  s.raise_sticky (.portCc p) i h hi

theorem State.raisePath_sticky {i : Nat} (h : p < s.ports.length) (hi : i < 16) :
    ((s.raise (.portPath p) i).port p).path.flt.sticky.getLsbD i = true :=
  s.raise_sticky (.portPath p) i h hi

/-! ### The records that ErrorRecovery and Disabled keep -/

theorem Path.stepOver_flt (x : Path) : x.stepOver.flt = x.flt := by
  unfold Path.stepOver
  split <;> rfl

@[simp] theorem State.voidContract_port_path_flt (c q : Nat) : ((s.voidContract p c).port q).path.flt = (s.port q).path.flt := by
  have h : ∀ u : State, ((u.updPath p fun x => { x.stepOver with itgt := 0x7FFF }).port q).path.flt = (u.port q).path.flt :=
    fun u => u.port_updPath_part p q Path.flt _ fun x => x.stepOver_flt
  unfold State.voidContract
  dsimp only
  split <;> simp [h]

@[simp] theorem State.attachOver_port_path_flt (c q : Nat) (b : Bool) : ((s.attachOver p c b).port q).path.flt = (s.port q).path.flt := by
  unfold State.attachOver
  cases b <;> simp

theorem State.errorRecovery_flt (c : Nat) (h : p < s.ports.length) :
    ((s.errorRecovery p c).port p).cc.flt = (s.port p).cc.flt ∧ ((s.errorRecovery p c).port p).path.flt = (s.port p).path.flt := by
  unfold State.errorRecovery State.openPort
  simp [State.port_updPort, State.cc_updCc, State.path_updPath, h, State.discharge, CcLayer.entered, Path.opened]

theorem State.disablePort_flt (c : Nat) (w : DisabledBy) (h : p < s.ports.length) :
    ((s.disablePort p c w).port p).cc.flt = (s.port p).cc.flt ∧ ((s.disablePort p c w).port p).path.flt = (s.port p).path.flt := by
  unfold State.disablePort State.openPort
  simp [State.port_updPort, State.cc_updCc, State.path_updPath, h, State.discharge, CcLayer.entered, Path.opened]

end Sys2Proof.Machine
end

section
/-! PROOF. Sniffs, toggles and homes. -/
namespace Sys2Proof.Machine

/-- Settles O24: the branch that each condition takes, and the home state (`State.home_cc`) or Disabled (`State.disablePort_spec`) it leads to. -/
theorem togglesAndHomes : Obligations.TogglesAndHomes := by
  refine ⟨⟨?sniff, ?sourceEnd, ?sinkEnd⟩, ?waitEnd, ?recoveryEnd, ?disabled, ?homeAgain⟩
  case sniff =>
    intro s p seen hs hv hst hf hpace hn ha hb
    have hp := hs.port_lt hv
    refine .intro rfl (u := s.updCc p fun _ => CcLayer.toWait { s.cc p with
      cc1 := sniffClass (seen.map fun x => (s.cc p).held x.1) (s.cc p).cc1, cc2 := sniffClass (seen.map fun x => (s.cc p).held x.2) (s.cc p).cc2 }
      .attachWaitSrc 1 s.now) ?_ ⟨(PortAlone.refl p s).updCc _, ?_⟩
    · rcases hb with hb | hb <;> simp [ccSniff, hv, hst, hf, hpace, hn, ha, hb]
    · simp [State.cc, State.cc_updCc, hp, CcLayer.toWait, CcLayer.entered]
      simpa [State.cc] using ha
  case sourceEnd =>
    intro s p hs ht hst hf
    have hp : p < s.ports.length := hs.port_lt (by simp only [toggles, Bool.and_eq_true] at ht; tauto)
    refine .intro rfl (u := s.updCc p fun c => c.entered .unattachedSnk s.now) ?_ ⟨(PortAlone.refl p s).updCc _, ?_⟩
    · simp [toggleSourceEnd, ht, hst, State.framesSince, hf]
    · simp [State.cc, State.cc_updCc, hp, CcLayer.entered]
  case sinkEnd =>
    intro s p hs ht hst hf
    have hp : p < s.ports.length := hs.port_lt (by simp only [toggles, Bool.and_eq_true] at ht; tauto)
    refine .intro rfl (u := s.updCc p fun c => (c.entered .unattachedSrc s.now).toggleFresh s.frame) ?_ ⟨(PortAlone.refl p s).updCc _, ?_⟩
    · simp [toggleSinkEnd, ht, hst, State.framesSince, hf]
    · simp [State.cc, State.cc_updCc, hp, CcLayer.entered, CcLayer.toggleFresh]
  case waitEnd =>
    intro s p hs hv hst hd hg
    refine .intro rfl (u := s.home p) ?_ ⟨(PortAlone.refl p s).home, ?_⟩
    · simp [attachwaitTimeout, hv, hst, hd, State.pacesSince, hg]
    · obtain ⟨a, b, -⟩ := State.home_cc (hs.port_lt hv)
      exact ⟨a, b⟩
  case recoveryEnd =>
    intro s p hs hv hst hg hm
    refine .intro rfl (u := s.home p) ?_ ⟨(PortAlone.refl p s).home, ?_⟩
    · simp [errorRecoveryEnd, hv, hst, hm, State.pacesSince, hg]
    · obtain ⟨a, b, -⟩ := State.home_cc (hs.port_lt hv)
      exact ⟨a, b⟩
  case disabled =>
    intro s p hs hv hb hboot hfull hm h2 hst
    have hp := hs.port_lt hv
    refine .intro rfl (u := (s.updCc p fun c => { c with mode := portParam s p 0x20 }).disablePort p 0xC .host) ?_
      ⟨((OnlyPort.refl p s).updCc _).disablePort _ _, ?_⟩
    · simp [attachModeChange, hv, hb, hboot, hfull, h2 ▸ hm, h2, hst]
    · obtain ⟨a, b, c, -, d, e, f⟩ :=
        (s.updCc p fun c => { c with mode := portParam s p 0x20 }).disablePort_spec p (by simpa using hp) 0xC .host
      exact ⟨a, b, c, d, e, f⟩
  case homeAgain =>
    intro s p hs hv hb hboot hfull hm h2 hst
    have hp := hs.port_lt hv
    refine .intro rfl (u := (s.updCc p fun c => { c with mode := portParam s p 0x20 }).home p) ?_
      ⟨((PortAlone.refl p s).updCc _).home, ?_⟩
    · rcases hst with h | h | h | h <;> simp [attachModeChange, hv, hb, hboot, hfull, hm, h2, h]
    · have hm' : ((s.updCc p fun c => { c with mode := portParam s p 0x20 }).cc p).mode = portParam s p 0x20 := by
        simp [State.cc, State.cc_updCc, hp]
      have ho : ((s.updCc p fun c => { c with mode := portParam s p 0x20 }).cc p).toOutOfService = (s.cc p).toOutOfService := by
        simp [State.cc, State.cc_updCc, hp]
      obtain ⟨a, -, b⟩ := (s.updCc p fun c => { c with mode := portParam s p 0x20 }).home_cc (p := p) (by simpa using hp)
      exact ⟨by rw [a, hm', ((OnlyPort.refl p s).updCc _).homeOf_eq ho], by rw [b, hm']⟩

end Sys2Proof.Machine
end

section
/-! PROOF. Attach and close. -/
namespace Sys2Proof.Machine
variable {p : Nat} {s : State}

theorem startPd_port (h : p < s.ports.length) :
    ((startPd s p).port p).cc = (s.port p).cc ∧ ((startPd s p).port p).sw = (s.port p).sw ∧ ((startPd s p).port p).path = (s.port p).path ∧
      ((startPd s p).port p).pd.contract = (s.port p).pd.contract ∧ ((startPd s p).port p).attachFrame = (s.port p).attachFrame ∧
      ((startPd s p).port p).counters = (s.port p).counters ∧ (startPd s p).ports.length = s.ports.length := by
  unfold startPd
  simp [State.pd_updPd, h]

/-- R65, R67: what the entry to Attached.SRC leaves. -/
theorem attachSource_spec (h : p < s.ports.length) :
    ((attachSource s p).cc p).st = .attachedSrc ∧ (((attachSource s p).cc p).onCc2 = true ↔ (s.cc p).debLine = 2) ∧
      ((attachSource s p).cc p).rp = rpOf s p ∧ ((attachSource s p).pd p).contract = typecContract (rpOf s p) ∧
      ((attachSource s p).sw p).source = true ∧ ((attachSource s p).sw p).dfp = true ∧
      ((attachSource s p).port p).attachFrame = some s.frame ∧ ((attachSource s p).path p).vtgt = 2500 ∧
      ((attachSource s p).port p).counters = (s.port p).counters.modify 0 sat1 ∧
      (((attachSource s p).cc p).alloc = true ↔ ((s.cc p).alloc = true ∧ s.placed p = false)) := by
  have hrp : rpOf (freshAttach s p) p = rpOf s p := (OnlyPort.refl p s).freshAttach.rpOf_eq p
  unfold attachSource
  simp only [hrp]
  generalize (if (s.cc p).debLine = 2 then (s.cc p).cc1 == .ra else (s.cc p).cc2 == .ra) = ra
  have hl : p < (freshAttach s p).ports.length := by simpa [freshAttach] using h
  have hc : ((freshAttach s p).port p).cc = (s.port p).cc := by simp [freshAttach, State.port_updPort, h]
  have hf : ((freshAttach s p).port p).counters = (s.port p).counters ∧ ((freshAttach s p).port p).attachFrame = some s.frame ∧
      ((freshAttach s p).port p).path.vtgt = 2500 := by simp [freshAttach, State.port_updPort, State.path_updPath, h]
  cases ra
  all_goals
    simp only [if_true, Bool.false_eq_true, if_false, State.cc, State.pd, State.sw, State.path, State.pushEvent_port]
    split
    all_goals
      simp [State.countUp, State.port_updPort, startPd_port, State.cc_updCc, State.sw_updSw, State.pd_updPd, hl, hc, hf, CcLayer.entered, PCount.idx]

/-- Settles O25: the branch that each condition takes, and what the entries to the attached states leave (`attachSource_spec`). -/
theorem attachAndClose : Obligations.AttachAndClose := by
  refine ⟨?source, ?sink, ?close, ?check, ?unexpected⟩
  case source =>
    intro s p hs hv hst hd hf hm hnacc
    have hcond : (s.serves p && (s.cc p).st == .attachWaitSrc && (s.cc p).debounced s.now 150 && decide ((s.cc p).vbusMv < 800)) = true := by
      simp [hv, hst, CcLayer.debounced, hd, hf, hm]
    refine .intro rfl (u := attachSource s p) ?_ ⟨(OnlyPort.refl p s).attachSource, attachSource_spec (hs.port_lt hv)⟩
    unfold attachDebounceSrc
    rw [if_pos hcond, if_neg (by simpa using hnacc)]
  case sink =>
    intro s p hs hv hb hst hd hf hm
    have hp := hs.port_lt hv
    refine ⟨_, rfl, (OnlyPort.refl p s).attachDebounceSnk, ?_⟩
    have hcond : (s.serves p && (s.cc p).st == .attachWaitSnk && (s.cc p).debounced s.now (snkDebounce s p) &&
        decide (4000 ≤ (s.cc p).vbusMv)) = true := by
      simp [hv, hst, CcLayer.debounced, snkDebounce, hb, hd, hf, hm]
    unfold attachDebounceSnk
    rw [if_pos hcond]
    extract_lets a b d e
    have hseq : d.seq = s.seq := (((OnlyPort.refl p s).freshAttach.updCc _).updPd _).seq_eq
    have he : e = d.updPath p Path.closed := if_neg (by simpa [hseq] using hb)
    have ha : (a.port p).cc = (s.port p).cc ∧ (a.port p).sw = {} ∧ (a.port p).attachFrame = some s.frame := by
      simp [a, freshAttach, State.port_updPort, hp]
    have hla : p < a.ports.length := by simpa [a, freshAttach] using hp
    rw [he]
    simp [State.cc, State.sw, State.path, State.port_updPort, State.cc_updCc, State.path_updPath, State.countUp, d, b, hla, ha, Path.closed,
      CcLayer.entered]
  case close =>
    intro s p hs hv hst hd hon hr hlo hhi hvc
    have hp := hs.port_lt hv
    refine .intro rfl (u := s.updPath p Path.closed) ?_ ⟨(PortAlone.refl p s).updPath _, ?_⟩
    · have hvc' : (!(s.vc p).on || (s.vc p).good) = true := by simpa using hvc
      simp [portSwitchClose, hv, hst, hd, hon, hr, vsafe5, hlo, hhi, hvc']
    · simp [State.path, State.cc, State.pd, State.path_updPath, hp, Path.closed]
  case check =>
    intro s p hs hv hst hc hd hr hn
    have hp := hs.port_lt hv
    have hcond : (s.serves p && (s.cc p).st == .attachedSrc && !(s.cc p).vbusChecked && (s.cc p).detach == 0 &&
        (s.pd p).hrFrame.isNone && s.pacesSince (s.cc p).since 20) = true := by
      simp [hv, hst, hc, hd, hr, State.pacesSince, hn]
    refine ⟨fun hlo hhi => ?_, fun hout => ?_⟩
    · refine .intro rfl (u := s.updCc p fun c => { c with vbusChecked := true }) ?_ ⟨(PortAlone.refl p s).updCc _, ?_⟩
      · unfold vbusStartCheck
        rw [if_pos hcond, if_pos (by simp [hlo, hhi])]
      · simpa [State.cc, State.path, State.cc_updCc, hp] using hst
    · refine .intro rfl (u := (s.raise (.portCc p) 1).errorRecovery p 0xE) ?_ ⟨((OnlyPort.refl p s).raiseCc _).errorRecovery _, ?_⟩
      · unfold vbusStartCheck
        rw [if_pos hcond, if_neg (by simp; omega)]
      · obtain ⟨a, -, b, -, -, -, c, -⟩ := (s.raise (.portCc p) 1).errorRecovery_spec p (by simpa using hp) 0xE
        refine ⟨a, c, ?_, b⟩
        simp only [State.cc, (State.errorRecovery_flt 0xE (show p < (s.raise (.portCc p) 1).ports.length by simpa using hp)).1]
        exact State.raiseCc_sticky hp (by decide)
  case unexpected =>
    intro s p f hs hv hst hu hf hn
    have hp := hs.port_lt hv
    refine .intro rfl (u := (s.updCc p fun c => { c with unexpSet := true }).raise (.portCc p) 0) ?_
      ⟨((OnlyPort.refl p s).updCc _).raiseCc _, ?_, State.raiseCc_sticky (by simpa using hp) (by decide), ?_⟩
    · simp [unexpectedVbus, hf, hv, hst, hu, State.pacesSince, hn]
    · simp [State.cc, State.cc_updCc, hp]
    · simpa [State.cc, State.cc_updCc, hp] using hst

end Sys2Proof.Machine
end

section
/-! PROOF. Detach and discharge. -/
namespace Sys2Proof.Machine
variable {p : Nat} {s : State}

theorem PortAlone.goHome (h : PortAlone p s t) : PortAlone p s (goHome t p) := ((h.updPort _).returnNode _ _).home

theorem PortAlone.leaveAttached (h : PortAlone p s t) : PortAlone p s (leaveAttached t p) := (h.openPort _).goHome

/-- What a port has that goes to its home state. -/
theorem goHome_spec (h : p < s.ports.length) :
    ((goHome s p).cc p).st = homeOf s p (s.cc p).mode ∧ ((goHome s p).cc p).disch = (s.cc p).disch ∧
      ((goHome s p).cc p).dischDetach = (s.cc p).dischDetach ∧ ((goHome s p).port p).attachFrame = none ∧
      ((goHome s p).path p).swOn = (s.path p).swOn ∧ ((goHome s p).path p).ppg = (s.path p).ppg ∧
      (goHome s p).vc p = s.vc p ∧ (goHome s p).pd p = s.pd p := by
  have hone := (((OnlyPort.refl p s).updPort fun q => { q with attachFrame := none }).returnNode 2 2500)
  have hcc : (((s.updPort p fun q => { q with attachFrame := none }).returnNode p 2 2500).cc p) = s.cc p := by
    simp [State.cc, State.port_updPort, h]
  have hl : p < (((s.updPort p fun q => { q with attachFrame := none }).returnNode p 2 2500)).ports.length := by simpa using h
  obtain ⟨a, -, -⟩ := State.home_cc hl
  obtain ⟨b, c⟩ := State.home_cc_disch hl
  rw [hcc, hone.homeOf_eq (by rw [hcc])] at a
  rw [hcc] at b c
  refine ⟨a, b, c, ?_⟩
  simp [goHome, State.path, State.vc, State.pd, State.port_updPort, h]

/-- R72: what a port has that has opened its switches. -/
theorem State.openPort_spec (b : Bool) (h : p < s.ports.length) :
    ((s.openPort p b).path p).swOn = false ∧ ((s.openPort p b).path p).ppg = false ∧ ((s.openPort p b).vc p).on = false ∧
      ((s.openPort p b).cc p).disch = true ∧ ((s.openPort p b).cc p).st = (s.cc p).st ∧ ((s.openPort p b).cc p).mode = (s.cc p).mode ∧
      ((s.openPort p b).cc p).toOutOfService = (s.cc p).toOutOfService ∧ (b = true → ((s.openPort p b).cc p).dischDetach = true) := by
  have o := (s.updPath p Path.opened).vconnOff_on p (by simpa using h)
  unfold State.openPort State.discharge
  simp only [State.path, State.vc, State.cc]
  simp [State.cc_updCc, State.path_updPath, h, o, Path.opened]
  intro hb
  simp [hb]

theorem State.disablePort_disch (c : Nat) (w : DisabledBy) (h : p < s.ports.length) : ((s.disablePort p c w).port p).cc.disch = true := by
  unfold State.disablePort State.openPort
  simp [State.port_updPort, State.cc_updCc, h, State.discharge, CcLayer.entered]

/-- R59, R127: what a sink that lost VBUS leaves. -/
theorem leaveSink_spec (h : p < s.ports.length) :
    ((leaveSink s p).cc p).st = homeOf s p (s.cc p).mode ∧ ((leaveSink s p).cc p).disch = (s.cc p).disch ∧
      ((leaveSink s p).pd p).lastEnd = 1 ∧ ((leaveSink s p).pd p).contract = {} ∧ ((leaveSink s p).path p).swOn = false := by
  obtain ⟨v, -, w, -⟩ := s.attachOver_spec p h 1 false
  unfold leaveSink
  extract_lets a
  have hk : OnlyPort p s ((a.updPath p Path.opened).vconnOff p) := ((((OnlyPort.refl p s).attachOver 1 false).updPd _).updPath _).vconnOff
  have hl : p < ((a.updPath p Path.opened).vconnOff p).ports.length := by
    rw [hk.length_eq]
    exact h
  obtain ⟨b, c, -, -, d, -, -, e⟩ := goHome_spec hl
  rw [b, c, d, e, hk.homeOf_eq (by simp [State.cc, a])]
  simp [State.cc, State.pd, State.path, a, State.pd_updPd, State.path_updPath, h, v, w, Path.opened]

/-- R71, R109: what a qualified detach leaves. -/
theorem detachQualified_spec (route : Nat) (h : p < s.ports.length) :
    ((detachQualified s p route).cc p).detach = route ∧ ((detachQualified s p route).cc p).detachFrame = s.frame ∧
      ((detachQualified s p route).pd p).contract = {} ∧ ((detachQualified s p route).sw p).kind = none ∧
      ((detachQualified s p route).dc p).entered = false ∧ ((detachQualified s p route).path p).detach = true ∧
      ((detachQualified s p route).pd p).lastEnd = (if (s.pd p).next.isSome then 2 else 1) := by
  have v := s.attachOver_spec p h (if (s.pd p).next.isSome then 2 else 1) false
  have hf := ((OnlyPort.refl p s).attachOver (if (s.pd p).next.isSome then 2 else 1) false).frame_eq
  unfold detachQualified
  simp [State.cc, State.pd, State.sw, State.dc, State.path, State.cc_updCc, State.path_updPath, h] at v hf ⊢
  simp [v, hf]

/-- Settles O26: the branch that each condition takes, and what a detach (`detachQualified_spec`), the way home (`goHome_spec`) and Disabled leave. -/
theorem detachOfAPort : Obligations.DetachOfAPort := by
  refine ⟨?debounce, ?current, ?opened, ?released, ?late, ?sink⟩
  case debounce =>
    intro s p f hs hv hst hd hf hn
    refine .intro rfl (u := detachQualified s p 1) ?_ ⟨(OnlyPort.refl p s).detachQualified, detachQualified_spec 1 (hs.port_lt hv)⟩
    simp [detachByDebounce, hf, hv, hst, hd, State.pacesSince, hn]
  case current =>
    intro s p hs hv hst hd hk hn
    have hp := hs.port_lt hv
    obtain ⟨a, -, b, -, -, c, d⟩ := detachQualified_spec (s := s) 2 hp
    refine .intro rfl (u := (detachQualified s p 2).countUp p .detachI) ?_ ⟨(OnlyPort.refl p s).detachQualified.countUp _, ?_⟩
    · simp [detachByCurrent, hv, hst, hd, hk, hn]
    · simp only [State.cc, State.pd, State.path] at a b c d
      simp [State.cc, State.pd, State.path, a, b, c, d]
  case opened =>
    intro s p hs hv hb hd hf
    have hp := hs.port_lt hv
    refine .intro rfl (u := leaveAttached s p) ?_ ⟨(PortAlone.refl p s).leaveAttached, ?_⟩
    · simp [detachSwitchOpen, hv, hd, hb, hf]
    · have hl : p < (s.openPort p true).ports.length := by simpa [State.openPort] using hp
      obtain ⟨a, b, c, d, e, f, g, -⟩ := goHome_spec hl
      obtain ⟨i, j, k, l, -, m, n, o⟩ := State.openPort_spec (s := s) true hp
      rw [m, ((OnlyPort.refl p s).openPort true).homeOf_eq n] at a
      unfold leaveAttached
      exact ⟨by rw [e, i], by rw [f, j], by rw [g, k], by rw [b, l], by rw [c, o rfl], a, d⟩
  case released =>
    intro s p hs hp hd hm
    have hl : p < s.ports.length := by rw [hs.1]; exact hp
    refine .intro rfl (u := s.updCc p fun c => { c with disch := false, dischDetach := false }) ?_ ⟨(PortAlone.refl p s).updCc _, ?_⟩
    · simp [vbusDischargeComplete, hd, hm]
    · simp [State.cc, State.cc_updCc, hl]
  case late =>
    intro s p hs hv hd hdd hm hf
    have hp := hs.port_lt hv
    have hcond : (s.serves p && (s.cc p).disch && (s.cc p).dischDetach && decide (800 ≤ s.vbus p) && s.framesSince (s.cc p).detachFrame 650) = true := by
      simp [hv, hd, hdd, hm, State.framesSince, hf]
    refine ⟨_, rfl, (OnlyPort.refl p s).vbusDischargeTimeout, ?_⟩
    unfold vbusDischargeTimeout
    rw [if_pos hcond]
    extract_lets a
    have ha : (a.port p).cc.disch = true := by
      simp only [a]
      split
      · exact State.disablePort_disch _ _ hp
      · exact hd
    have hla : p < a.ports.length := by
      have hk : OnlyPort p s a := ((OnlyPort.refl p s).disablePort _ _).ite (.refl p s)
      rw [hk.length_eq]
      exact hp
    refine ⟨?_, ?_, ?_, State.raiseCc_sticky (by simpa using hla) (by decide)⟩
    all_goals simp [State.cc, State.cc_updCc, hla, ha, CcLayer.entered]
  case sink =>
    intro s p hs hv hst hr hn hk hres
    have hp := hs.port_lt hv
    refine .intro rfl (u := leaveSink s p) ?_ ⟨(OnlyPort.refl p s).leaveSink, ?_⟩
    · simp [sinkVbusLoss, hv, hst, hr, sinkOwned, hn, hk, hres]
    · exact leaveSink_spec hp

end Sys2Proof.Machine
end

section
/-! PROOF. VCONN. -/
namespace Sys2Proof.Machine
variable {p : Nat} {s : State}

/-- R69, R85: what a trip, a block or a loss of supply leaves. -/
theorem State.vconnLose_spec (b : Nat) (h : p < s.ports.length) (hb : b < 16) :
    ((s.vconnLose p b).vc p).on = false ∧ ((s.vconnLose p b).vc p).blocked = true ∧ ((s.vconnLose p b).vc p).lost = true ∧
      ((s.vconnLose p b).sw p).vconnSrc = false ∧ ((s.vconnLose p b).pd p).cableChanged = true ∧
      ((s.vconnLose p b).cc p).flt.sticky.getLsbD b = true ∧ ((s.vconnLose p b).cc p).st = (s.cc p).st ∧
      ((s.vconnLose p b).port p).counters = (s.port p).counters := by
  have o := s.vconnOff_on p h
  have hsrc : ((s.vconnOff p).port p).sw.vconnSrc = false := by
    unfold State.vconnOff
    dsimp only
    split <;> simp [State.sw_updSw, h]
  have hst : (((s.vconnOff p).raise (.portCc p) b).port p).cc.flt.sticky.getLsbD b = true :=
    State.raiseCc_sticky (by simpa using h) hb
  unfold State.vconnLose
  dsimp only
  split <;> simp [State.vc, State.cc, State.pd, State.sw, State.vc_updVc, State.pd_updPd, State.send, h, o, hsrc, hst]

theorem vconnTrip_spec (b : Nat) (h : p < s.ports.length) (hb : b < 16) :
    ((vconnTrip s p b).vc p).on = false ∧ ((vconnTrip s p b).vc p).blocked = true ∧ ((vconnTrip s p b).vc p).lost = true ∧
      ((vconnTrip s p b).sw p).vconnSrc = false ∧ ((vconnTrip s p b).pd p).cableChanged = true ∧
      ((vconnTrip s p b).cc p).flt.sticky.getLsbD b = true ∧ ((vconnTrip s p b).cc p).st = (s.cc p).st ∧
      ((vconnTrip s p b).port p).counters = (s.port p).counters.modify 8 sat1 := by
  have hl : p < (s.vconnLose p b).ports.length := by
    rw [((OnlyPort.refl p s).vconnLose b).length_eq]
    exact h
  have hv := State.vconnLose_spec b h hb
  simp only [State.vc, State.sw, State.cc, State.pd] at hv
  obtain ⟨h1, h2, h3, h4, h5, h6, h7, h8⟩ := hv
  simp [vconnTrip, State.vc, State.sw, State.cc, State.pd, h1, h2, h3, h4, h5, h6, h7, State.countUp, State.port_updPort, hl, h8, PCount.idx]

/-- Settles O27: the branch that each condition takes, and what a loss of VCONN leaves (`State.vconnLose_spec`). -/
theorem vconnOfAPort : Obligations.VconnOfAPort := by
  refine ⟨?good, ?trip, ?supply, ?pulldown⟩
  case good =>
    intro s p f b hs hv hon hg hf hn hk
    have hp := hs.port_lt hv
    refine .intro rfl (u := s.updVc p fun v => { v with good := true, attemptsDue := if (s.pd p).started then some (s.frame + 1) else none }) ?_
      ⟨(PortAlone.refl p s).updVc _, ?_⟩
    · have hk' : ∀ g, ((s.updVc p g).sw p).kind = none := fun g => by simpa [State.sw] using hk
      simp [vconnGood, hf, hv, hon, hg, State.pacesSince, hn, vconnSwapGood, hk']
    · simp only [State.vc, State.pd] at *
      simp [State.vc_updVc, hp, hon]
  case trip =>
    intro s p c b hs hv hon hc
    have hp := hs.port_lt hv
    obtain ⟨rfl, rfl, f, hf, hn⟩ | ⟨rfl, rfl⟩ | ⟨rfl, rfl⟩ := hc
    · exact .intro rfl (by simp [vconnFaultTimerTrip, hf, hv, hon, State.pacesSince, hn]) ⟨((OnlyPort.refl p s).vconnTrip), vconnTrip_spec 2 hp (by decide)⟩
    · exact .intro rfl (by simp [vconnHardTrip, hv, hon]) ⟨((OnlyPort.refl p s).vconnTrip), vconnTrip_spec 3 hp (by decide)⟩
    · exact .intro rfl (by simp [vconnReverseBlock, hv, hon]) ⟨((OnlyPort.refl p s).vconnTrip), vconnTrip_spec 4 hp (by decide)⟩
  case supply =>
    intro s p hs hv hon hg
    obtain ⟨a, b, -, c, -, d, -, e⟩ := State.vconnLose_spec 7 (hs.port_lt hv) (by decide)
    refine .intro rfl (u := s.vconnLose p 7) ?_ ⟨(OnlyPort.refl p s).vconnLose _, a, b, c, d, e⟩
    simp [vconnSupplyLoss, hv, hon, hg]
  case pulldown =>
    intro s p hs hv hd hm
    have hp := hs.port_lt hv
    refine .intro rfl (u := s.updVc p fun v => { v with pulldown := none }) ?_ ⟨(PortAlone.refl p s).updVc _, ?_⟩
    · simp [vconnDischargeEnd, hv, hd, hm]
    · simp [State.vc, State.vc_updVc, hp]

end Sys2Proof.Machine
end

section
/-! PROOF. The conditions of a policy engine, and Hard Reset. -/
namespace Sys2Proof.Machine
variable {p : Nat} {s t : State}

/-! ### The conditions of a policy engine -/

theorem State.policyRow_of_runs {i : Instr} {go : State → State} (h : s.policyRuns = true) : s.policyRow p i go = go s := by
  have hh : s.policyHeld = false := by
    simp only [State.policyRuns, Bool.and_eq_true, Bool.not_eq_true'] at h
    exact h.2
  unfold State.policyRow
  rw [if_neg (by simp [hh])]

theorem sourcing_iff : sourcing s p = true ↔ s.serves p = true ∧ s.policyRuns = true ∧ (s.cc p).st = .attachedSrc ∧ (s.pd p).started = true ∧
    (s.cc p).detach = 0 ∧ (s.pd p).hrFrame = none := by
  simp [sourcing, and_assoc]

theorem sinking_iff : sinking s p = true ↔ s.serves p = true ∧ s.policyRuns = true ∧ (s.cc p).st = .attachedSnk ∧ (s.pd p).started = true := by
  simp [sinking, and_assoc]

theorem attachedPd_iff : attachedPd s p = true ↔ sourcing s p = true ∨ sinking s p = true := by simp [attachedPd]

theorem sourcing_runs (h : sourcing s p = true) : s.policyRuns = true := (sourcing_iff.1 h).2.1

theorem sourcing_serves (h : sourcing s p = true) : s.serves p = true := (sourcing_iff.1 h).1

theorem sinking_runs (h : sinking s p = true) : s.policyRuns = true := (sinking_iff.1 h).2.1

theorem sinking_serves (h : sinking s p = true) : s.serves p = true := (sinking_iff.1 h).1

theorem attachedPd_runs (h : attachedPd s p = true) : s.policyRuns = true := (attachedPd_iff.1 h).elim sourcing_runs sinking_runs

theorem attachedPd_serves (h : attachedPd s p = true) : s.serves p = true := (attachedPd_iff.1 h).elim sourcing_serves sinking_serves

theorem OnlyPort.policyRuns_eq (h : OnlyPort p s t) : t.policyRuns = s.policyRuns := by
  unfold State.policyRuns State.policyHeld
  rw [h.policyUp_eq, h.sup_eq]

/-! ### Hard Reset -/

theorem State.setDfp_port_sw (b : Bool) (h : p < s.ports.length) : ((s.setDfp p b).port p).sw = { (s.port p).sw with dfp := b } := by
  unfold State.setDfp
  split
  case isTrue hb =>
    have hb' : (s.port p).sw.dfp = b := by simpa [State.sw] using hb
    rw [← hb']
  case isFalse => simp [State.sw_updSw, h]

/-- R127: what a port has whose swap has ended and whose roles are those of its attach. -/
theorem State.resetRoles_spec (h : p < s.ports.length) :
    ((s.resetRoles p).port p).sw.kind = none ∧ ((s.resetRoles p).port p).dc = (s.port p).dc ∧ ((s.resetRoles p).port p).vc = (s.port p).vc ∧
      (((s.resetRoles p).port p).cc.st ≠ .attachedSrc → ((s.resetRoles p).port p).pd.snkRestore.isSome = true) ∧
      ((s.port p).sw.kind = none → ((s.resetRoles p).port p).cc.st = (s.port p).cc.st) := by
  have hk := s.swapFail_kind p h 3
  unfold State.resetRoles
  dsimp only
  split
  case isTrue hs =>
    have hn : (s.port p).sw.kind ≠ none := by
      intro hn
      simp [State.sw, hn] at hs
    split
    · simp [State.setDfp_port_sw, State.cc_updCc, State.sw_updSw, h, hk, hn]
    · simp [State.setDfp_port_sw, State.cc_updCc, State.sw_updSw, State.pd_updPd, State.discharge, h, hk, hn]
  case isFalse hs =>
    have hn : (s.port p).sw.kind = none := by simpa [State.sw] using hs
    by_cases hc : (s.cc p).st = .attachedSrc
    · simp only [State.cc] at hc
      simp [State.cc, State.setDfp_port_sw, h, hc, hn]
    · simp only [State.cc] at hc
      simp [State.cc, State.setDfp_port_sw, State.pd_updPd, h, hc, hn]

theorem State.attachOver_epr (c : Nat) (b : Bool) (h : p < s.ports.length) : ((s.attachOver p c b).port p).pd.epr = false := by
  unfold State.attachOver
  dsimp only
  generalize e : (if b = true then s.swapFail p 2 else s.swapEnds p 3 false) = x
  have k : x.ports.length = s.ports.length := by subst e; cases b <;> simp
  have l : p < ((((x.modeEnd p 1).discEnd p 5).sessionEndOn p 1)).ports.length := by simpa [k] using h
  obtain ⟨-, -, -, v⟩ := ((((x.modeEnd p 1).discEnd p 5).sessionEndOn p 1)).voidContract_pd p l c
  simp [State.pd_updPd, k, h, v]

/-- R59: what ErrorRecovery ends of a contract and of a mode. -/
theorem State.errorRecovery_ends (c : Nat) (h : p < s.ports.length) :
    ((s.errorRecovery p c).port p).pd.next = none ∧ ((s.errorRecovery p c).port p).pd.epr = false ∧
      ((s.errorRecovery p c).port p).dc.entered = false := by
  obtain ⟨-, a, -, -, -, -, b⟩ := s.attachOver_spec p h c true
  have e := State.attachOver_epr c true h
  unfold State.errorRecovery State.openPort
  simp [State.port_updPort, h, a, b, e]

theorem State.voidContract_snkRestore (c : Nat) (h : p < s.ports.length) :
    ((s.voidContract p c).port p).pd.snkRestore = (s.port p).pd.snkRestore := by
  unfold State.voidContract
  dsimp only
  split <;> simp [State.pd_updPd, h]

/-- R108, R110: what a Hard Reset leaves. -/
theorem State.hardReset_spec (code : Nat) (sent : Bool) (h : p < s.ports.length) : AfterHardReset p code sent s (s.hardReset p code sent) := by
  refine ⟨(OnlyPort.refl p s).hardReset _ _, ?_⟩
  unfold State.hardReset
  extract_lets a run inSwap back b c d e f x src g i j k l m o
  have hla : p < a.ports.length := by simpa [a] using h
  have hlb : p < b.ports.length := by simpa [b] using hla
  have hld : p < d.ports.length := by simpa [d, c] using hlb
  have hle : p < e.ports.length := by
    rw [show e.ports.length = d.ports.length from ((OnlyPort.refl p d).resetRoles).length_eq]
    exact hld
  have hlx : p < x.ports.length := by
    rw [show x.ports.length = e.ports.length from (((OnlyPort.refl p e).voidContract code).failWaits).length_eq]
    exact hle
  have hx : OnlyPort p s x := ((((((((OnlyPort.refl p s).countUp _).modeEnd 2).discEnd 5).sessionEndOn 2).resetRoles)).voidContract _).failWaits
  have hent : (d.port p).dc.entered = false := by
    simp only [d, c, b, State.sessionEndOn_port, State.discEnd_entered _ _ hlb]
    exact a.modeEnd_entered p hla 2
  have hdsw : (d.port p).sw = (s.port p).sw := by simp [d, c, b, a]
  have hdcc : (d.port p).cc = (s.port p).cc := by simp [d, c, b, a]
  have hdpd : (d.port p).pd = (s.port p).pd := by simp [d, c, b, a]
  have hroles := State.resetRoles_spec hld
  rw [show d.resetRoles p = e from rfl] at hroles
  obtain ⟨ek, edc, -, esnk, est⟩ := hroles
  obtain ⟨fc, fn, fl, fe⟩ := e.voidContract_pd p hle code
  have hrun : run = (s.pd p).hrRun + 1 := by simp [run, State.pd, a]
  have hin : inSwap = (s.sw p).kind.isSome := by simp [inSwap, State.sw, a]
  have hsrc : src = true ↔ (x.port p).cc.st = .attachedSrc := by simp [src, State.cc]
  have hxst : (x.port p).cc.st = (e.port p).cc.st := by simp [x, f]
  have hxpd : (x.port p).pd.snkRestore = (e.port p).pd.snkRestore := by
    simp only [x, f, State.failWaits_port, State.voidContract_snkRestore code hle]
  have hxd : (x.port p).sw.kind = none ∧ (x.port p).dc.entered = false := by simp [x, f, ek, edc, hent]
  have hxp : (x.port p).pd.contract = {} ∧ (x.port p).pd.next = none ∧ (x.port p).pd.lastEnd = code ∧ (x.port p).pd.epr = false := by
    simp only [x, f, State.failWaits_port]
    exact ⟨fc, fn, fl, fe⟩
  have hfr := hx.frame_eq
  have hpu := hx.policyUp_eq
  clear_value x
  have hlk : p < k.ports.length := by simpa [k, j, i, State.send, g] using hlx
  have hlm : p < m.ports.length := by simpa [m, l] using hlk
  have hm : (m.port p).cc = (x.port p).cc ∧ (m.port p).sw.kind = none ∧ (m.port p).dc.entered = false ∧ (m.port p).vc.on = false := by
    have hon := k.vconnOff_on p hlk
    simp [m, l, k, j, i, State.send, g, State.sw_updSw, State.dc_updDc, hlx, hxd] at hon ⊢
    exact hon
  have hmpd : (m.port p).pd.contract = {} ∧ (m.port p).pd.next = none ∧ (m.port p).pd.epr = false ∧ (m.port p).pd.lastEnd = code ∧
      (m.port p).pd.tx = (if sent then [.hardReset] else []) ∧ (m.port p).pd.hrRun = run ∧
      (m.port p).pd.hrFrame = (if src then some s.frame else none) ∧ (m.port p).pd.started = (!src && s.policyUp) ∧
      (m.port p).pd.snkRestore = (x.port p).pd.snkRestore := by
    simp [m, l, k, j, i, State.send, g, State.pd_updPd, hlx, hxp, hfr, hpu]
  have ho : (o.port p).cc.st = (x.port p).cc.st ∧ (o.port p).sw = (m.port p).sw ∧ (o.port p).dc = (m.port p).dc ∧ (o.port p).vc = (m.port p).vc ∧
      (o.port p).pd = (m.port p).pd ∧ p < o.ports.length := by
    simp only [o]
    split <;> simp [State.cc_updCc, hlm, hm]
  obtain ⟨oc, os, od, ov, op, hlo⟩ := ho
  clear_value o m src run inSwap
  subst hin hrun
  obtain ⟨mc, ms, md, mv⟩ := hm
  obtain ⟨m1, m2, m3, m4, m5, m6, m7, m8, m9⟩ := hmpd
  split
  case isTrue hc =>
    have hge : 3 ≤ (s.pd p).hrRun + 1 := by
      simp only [Bool.and_eq_true] at hc
      exact of_decide_eq_true hc.1.2
    have hlr : p < (o.raise (.portCc p) 6).ports.length := by simpa using hlo
    obtain ⟨r1, -, -, -, r2, r3, r4, r5, -⟩ := (o.raise (.portCc p) 6).errorRecovery_spec p hlr code
    obtain ⟨r6, r7, r8⟩ := State.errorRecovery_ends code hlr
    simp only [State.cc, State.pd, State.sw, State.dc, State.vc] at *
    refine ⟨r3, r6, r7, r4, r5, r8, r2, fun hlt => by omega, fun _ _ _ => ⟨r1, ?_⟩⟩
    rw [(State.errorRecovery_flt code hlr).1]
    exact State.raiseCc_sticky hlo (by decide)
  case isFalse hc =>
    simp only [State.cc, State.pd, State.sw, State.dc, State.vc, op, oc, os, od, ov]
    refine ⟨m1, m2, m3, m4, ms, md, mv, fun hlt => ⟨m5, m6, fun hst => ?_, fun hst => ?_⟩, fun hge hk hst => ?_⟩
    · have : src = true := hsrc.2 hst
      simp [m7, m8, this]
    · have hns : (x.port p).cc.st ≠ .attachedSrc := by simp [hst]
      have hf : src = false := by
        rw [← Bool.not_eq_true, hsrc]
        exact hns
      exact ⟨by simp [m7, hf], by simp [m8, hf], by rw [m9, hxpd]; exact esnk (hxst ▸ hns)⟩
    · have hsr : src = true := hsrc.2 (by rw [hxst, est (hdsw ▸ hk), hdcc]; exact hst)
      simp [hk, hsr, State.sw, State.pd] at hc
      omega
end Sys2Proof.Machine
end

section
/-! PROOF. The causes of a Hard Reset. -/
namespace Sys2Proof.Machine
variable {p : Nat} {s : State} {code : Nat} {sent : Bool}

/-- R118: a swap message that got no GoodCRC leaves what a Hard Reset looks at. -/
theorem swapUnsent_spec (h : p < s.ports.length) :
    ((swapUnsent s p).port p).pd = (s.port p).pd ∧ ((swapUnsent s p).port p).cc.st = (s.port p).cc.st ∧
      ((s.port p).sw.kind = none → ((swapUnsent s p).port p).sw.kind = none) := by
  unfold swapUnsent
  dsimp only
  split
  · simp [State.cc_updCc, State.sw_updSw, h]
  · exact ⟨rfl, rfl, id⟩

/-- A Hard Reset that an operation before it has led to. -/
theorem afterHardReset_of_before {t u : State} (hk : OnlyPort p s t) (hpd : (t.port p).pd.hrRun = (s.port p).pd.hrRun)
    (hst : (t.port p).cc.st = (s.port p).cc.st) (hsw : (s.port p).sw.kind = none → (t.port p).sw.kind = none)
    (h : AfterHardReset p code sent t u) : AfterHardReset p code sent s u := by
  obtain ⟨a, b, c, d, e, f, g, i, j, k⟩ := h
  simp only [State.pd, State.cc, State.sw, hpd, hst, hk.frame_eq, hk.policyUp_eq] at j k
  exact ⟨hk.trans a, b, c, d, e, f, g, i, j, fun h1 h2 h3 => k h1 (hsw h2) h3⟩

/-- A row of a policy engine that runs and that ends in Hard Reset. -/
theorem goes_hardReset {c : Instr} {i : Instr} {go : State → State} (hx : exec c s = .next (s.policyRow p i go)) (hr : s.policyRuns = true)
    (hv : s.serves p = true) (hs : s.Shaped) (hgo : go s = s.hardReset p code sent) : Goes c s (AfterHardReset p code sent s) :=
  .intro hx (by rw [State.policyRow_of_runs hr, hgo]) (State.hardReset_spec code sent (hs.port_lt hv))

/-- Settles O28: each cause is the condition of its row, and a Hard Reset leaves what `State.hardReset_spec` says. -/
theorem hardResetCauses : Obligations.HardResetCauses := by
  intro s p hs hp
  refine ⟨?unacked, ?response, ?softReset, ?unplaced, ?pps, ?keepalive, ?lowered, ?received, ?check⟩
  case unacked =>
    intro ha ht
    have hl := hs.port_lt (attachedPd_serves ha)
    obtain ⟨a, b, c⟩ := swapUnsent_spec hl
    refine .intro rfl (by rw [State.policyRow_of_runs (attachedPd_runs ha)])
      (afterHardReset_of_before (OnlyPort.refl p s).swapUnsent (congrArg Pd.hrRun a) b c ?_)
    have hgo : goodcrcRetryFail p false s = (swapUnsent s p).hardReset p 4 true := by simp [goodcrcRetryFail, ha, ht]
    rw [hgo]
    exact State.hardReset_spec 4 true (by rw [((OnlyPort.refl p s).swapUnsent).length_eq]; exact hl)
  case response =>
    intro ha ht
    exact goes_hardReset rfl (attachedPd_runs ha) (attachedPd_serves ha) hs (by simp [senderResponseTimeout, ha, ht])
  case softReset =>
    intro ha ht
    exact goes_hardReset rfl (attachedPd_runs ha) (attachedPd_serves ha) hs (by simp [softResetTimeout, ha, ht])
  case unplaced =>
    intro c ha hn hsl hpl hf
    refine goes_hardReset rfl (sourcing_runs ha) (sourcing_serves ha) hs ?_
    simp [phasesNotPlacedTimeout, ha, hn, hsl, hpl, State.framesSince, hf]
  case pps =>
    intro ha hk hf
    exact goes_hardReset rfl (sourcing_runs ha) (sourcing_serves ha) hs (by simp [ppsTimeout, ha, hk, State.framesSince, hf])
  case keepalive =>
    intro ha he hf
    exact goes_hardReset rfl (sourcing_runs ha) (sourcing_serves ha) hs (by simp [eprKeepaliveTimeout, ha, he, State.framesSince, hf])
  case lowered =>
    intro ha hf
    exact goes_hardReset rfl (sourcing_runs ha) (sourcing_serves ha) hs (by simp [loweredCapsTimeout, ha, hf])
  case received =>
    intro hv hr ha hd
    exact goes_hardReset rfl hr hv hs (by simp [hardResetReceived, hv, hr, ha, hd])
  case check =>
    intro c ha hr hn
    have hl := hs.port_lt (sinking_serves ha)
    refine ⟨fun hlt => ?_, fun hle => ?_⟩
    · refine goes_hardReset rfl (sinking_runs ha) (sinking_serves ha) hs ?_
      unfold sinkVbusCheckTimeout
      rw [if_pos (by simp [ha, hr])]
      simp only [hn, Option.getD_some]
      exact if_neg (by omega)
    · refine .intro rfl (u := s.updPd p fun d => { d with snkAccept := none }) ?_ ⟨(PortAlone.refl p s).updPd _, ?_⟩
      · rw [State.policyRow_of_runs (sinking_runs ha)]
        unfold sinkVbusCheckTimeout
        rw [if_pos (by simp [ha, hr])]
        simp only [hn, Option.getD_some]
        exact if_pos hle
      · simpa [State.pd, State.pd_updPd, hl] using hn

end Sys2Proof.Machine
end

section
/-! PROOF. What the offer rests on, and sequences. -/
namespace Sys2Proof.Machine
variable {p : Nat} {s t : State}

/-! ### What the offer rests on -/

theorem OnlyPort.inf_eq (h : OnlyPort p s t) (a b c : Nat) : t.inf a b c = s.inf a b c := by
  rw [h.1]
  rfl

theorem OnlyPort.offerP_eq (h : OnlyPort p s t) (q : Nat) : offerP t q = offerP s q := by
  unfold offerP
  rw [h.ledger_eq]

/-- The parts of a port that the set derived rests on (R87). -/
structure SameOffer (p : Nat) (s t : State) : Prop where
  only : OnlyPort p s t
  vc : (t.port p).vc = (s.port p).vc
  rev20 : (t.port p).pd.rev20 = (s.port p).pd.rev20
  epr : (t.port p).pd.epr = (s.port p).pd.epr
  derived : (t.port p).pd.derived = (s.port p).pd.derived
  derivedP : (t.port p).pd.derivedP = (s.port p).pd.derivedP
  contract : (t.port p).pd.contract = (s.port p).pd.contract

theorem SameOffer.eprDisallowed_eq (h : SameOffer p s t) : eprDisallowed t p = eprDisallowed s p := by
  unfold eprDisallowed portParam State.vc
  rw [h.only.offerP_eq, h.only.inf_eq, h.vc]

theorem SameOffer.sprSet_eq (h : SameOffer p s t) (P : Nat) : sprSet t p P = sprSet s p P := by
  unfold sprSet kindOn portParam State.vc State.pd
  rw [h.only.inf_eq, h.vc, h.rev20]

theorem SameOffer.deriveSet_eq (h : SameOffer p s t) : deriveSet t p = deriveSet s p := by
  have hobj : ∀ P, eprObjs t p P = eprObjs s p P := fun P => by
    unfold eprObjs kindOn portParam
    rw [h.only.inf_eq]
  unfold deriveSet State.pd
  simp only [h.only.offerP_eq, h.sprSet_eq, h.eprDisallowed_eq, hobj, h.rev20, h.epr]

theorem SameOffer.staleSet_eq (h : SameOffer p s t) : staleSet t p = staleSet s p := by
  unfold staleSet State.pd
  rw [h.deriveSet_eq, h.derived]

theorem SameOffer.unbacked_eq (h : SameOffer p s t) : unbacked t p = unbacked s p := by
  unfold unbacked
  simp only [h.eprDisallowed_eq]
  unfold State.pd State.vc
  rw [h.derivedP, h.contract, h.epr, h.vc]

/-! ### Sequences -/

theorem quiet_iff : s.quiet p = true ↔ (s.pd p).next = none ∧ (s.sw p).kind = none ∧ (s.pd p).awaiting = none ∧ (s.pd p).softReset = none ∧
    (s.pd p).hrFrame = none ∧ (s.pd p).eprEnter = none ∧ s.asks p = false := by
  simp [State.quiet, and_assoc]

theorem State.startSeq_of_mayStart {go : State → State} (h : s.mayStart p = true) :
    s.startSeq p go = (go s).updPd p fun d => { d with clear := false, collision := none } := if_pos h

theorem PortAlone.countUp (h : PortAlone p s t) (c : PCount) : PortAlone p s (t.countUp p c) := h.updPort _
theorem PortAlone.ite {c : Prop} [Decidable c] {a b : State} (h : PortAlone p s a) (k : PortAlone p s b) : PortAlone p s (if c then a else b) := by
  split
  · exact h
  · exact k
theorem PortAlone.waitTx (h : PortAlone p s t) : PortAlone p s (t.waitTx p) := PortAlone.ite ((h.updPd _).updCc _) h
theorem PortAlone.rewait (h : PortAlone p s t) : PortAlone p s (t.rewait p) := PortAlone.ite h.waitTx h
theorem PortAlone.heard (h : PortAlone p s t) : PortAlone p s (t.heard p) := h.updPd _
theorem PortAlone.capsSent (h : PortAlone p s t) : PortAlone p s (capsSent t p) := by
  unfold Machine.capsSent
  exact h.updPd _
theorem PortAlone.derive (h : PortAlone p s t) : PortAlone p s (t.derive p) := by
  unfold State.derive
  exact h.updPd _
theorem PortAlone.startPd (h : PortAlone p s t) : PortAlone p s (startPd t p) := by
  unfold Machine.startPd
  exact (h.updPd _).updVc _

/-- What follows a Hard Reset in its row and writes nothing that the Hard Reset left. -/
theorem afterHardReset_updPd {code : Nat} {sent : Bool} {f : Pd → Pd} (hs : p < s.ports.length)
    (hf : ∀ d, ((f d).contract, (f d).next, (f d).epr, (f d).lastEnd, (f d).tx, (f d).hrRun, (f d).hrFrame, (f d).started, (f d).snkRestore) =
      (d.contract, d.next, d.epr, d.lastEnd, d.tx, d.hrRun, d.hrFrame, d.started, d.snkRestore))
    (h : AfterHardReset p code sent s t) : AfterHardReset p code sent s (t.updPd p f) := by
  have hl : p < t.ports.length := by
    rw [h.1.length_eq]
    exact hs
  obtain ⟨a, b, c, d, e, g, i, j, k, l⟩ := h
  simp only [Prod.mk.injEq] at hf
  simp only [State.pd, State.sw, State.dc, State.vc, State.cc] at *
  refine ⟨a.updPd _, ?_⟩
  simp only [State.pd, State.sw, State.dc, State.vc, State.cc]
  simp only [State.pd_updPd t p f hl, State.updPd_port_cc, State.updPd_port_sw, State.updPd_port_dc, State.updPd_port_vc, hf]
  exact ⟨b, c, d, e, g, i, j, k, l⟩

end Sys2Proof.Machine
end

section
/-! PROOF. Capabilities and the cable. -/
namespace Sys2Proof.Machine
variable {p : Nat} {s t : State}

/-! ### Sending the set -/

/-- The state in which the set has gone out and waits for its GoodCRC. -/
def capsOut (s : State) (p : Nat) : State := (s.send p [capsMsg s p]).countUp p .caps

theorem capsOut_port (h : p < s.ports.length) :
    ((capsOut s p).port p) =
      { s.port p with
        pd := { (s.port p).pd with tx := [capsMsg s p], txRev20 := (s.port p).pd.rev20 }, counters := (s.port p).counters.modify 6 sat1 } := by
  simp [capsOut, State.send, State.countUp, State.updPd, State.port_updPort, h, PCount.idx]

theorem PortAlone.capsOut (h : PortAlone p s t) : PortAlone p s (capsOut t p) := (h.send _).countUp _

theorem capsOut_sameOffer (h : p < s.ports.length) : SameOffer p s (capsOut s p) := by
  have hp := capsOut_port h
  exact ⟨(PortAlone.refl p s).capsOut.only, by rw [hp], by rw [hp], by rw [hp], by rw [hp], by rw [hp], by rw [hp]⟩

theorem capsOut_length : (capsOut s p).ports.length = s.ports.length := by simp [capsOut, State.send]

/-- R83, R90, R107: what the set leaves that went out with its GoodCRC. -/
theorem capsSent_spec (h : p < s.ports.length) :
    ((capsSent (capsOut s p) p).port p).pd.tx = [capsMsg s p] ∧ ((capsSent (capsOut s p) p).port p).pd.sent = (s.pd p).derived ∧
      ((capsSent (capsOut s p) p).port p).pd.sentP = (s.pd p).derivedP ∧ ((capsSent (capsOut s p) p).port p).pd.sentFrame = some s.frame ∧
      ((capsSent (capsOut s p) p).port p).pd.everSent = true ∧ ((capsSent (capsOut s p) p).port p).pd.capsDue = false ∧
      ((capsSent (capsOut s p) p).port p).pd.repeatFrame = none ∧
      ((capsSent (capsOut s p) p).port p).pd.cableChanged = ((s.pd p).cableChanged && staleSet s p) ∧
      (staleSet s p = false → unbacked s p = true ∨ ((s.pd p).epr = true ∧ eprDisallowed s p = true) →
        ((capsSent (capsOut s p) p).port p).pd.lowered = some s.frame ∧ ((capsSent (capsOut s p) p).port p).pd.awaiting = none) ∧
      (staleSet s p = false → unbacked s p = false → ((s.pd p).epr && eprDisallowed s p) = false →
        ((capsSent (capsOut s p) p).port p).pd.awaiting = some s.frame) ∧
      (staleSet s p = true → ((capsSent (capsOut s p) p).port p).pd.eprExit = (s.pd p).eprExit) ∧
      ((capsSent (capsOut s p) p).port p).counters = (s.port p).counters.modify 6 sat1 := by
  have hp := capsOut_port h
  have hl : p < (capsOut s p).ports.length := by rw [capsOut_length]; exact h
  have ho := capsOut_sameOffer h
  have hf : (capsOut s p).frame = s.frame := ho.only.frame_eq
  unfold capsSent
  simp only [ho.staleSet_eq, ho.unbacked_eq, ho.eprDisallowed_eq, State.pd, State.pd_updPd _ _ _ hl, State.updPd_port_counters, hp, hf, true_and, and_true]
  refine ⟨?_, ?_, ?_⟩
  · rintro h1 (h2 | ⟨h2, h3⟩)
    · simp [h1, h2]
    · simp [h1, h2, h3]
  · intro h1 h2 h3
    simp only [Bool.and_eq_false_iff] at h3
    rcases h3 with h3 | h3 <;> simp [h1, h2, h3]
  · intro h1
    simp [h1]

theorem capsSend_true : capsSend s p true = capsSent (capsOut s p) p := rfl

/-- A set without GoodCRC before a contract is repeated, up to its count (R107). -/
theorem capsSend_false (h : p < s.ports.length) (he : (s.pd p).contract.explicit = false) :
    PortAlone p s (capsSend s p false) ∧ ((capsSend s p false).port p).pd.capsCount = (s.pd p).capsCount + 1 ∧
      ((capsSend s p false).port p).pd.everSent = (s.pd p).everSent ∧
      ((s.pd p).capsCount + 1 < 50 → ((capsSend s p false).port p).pd.repeatFrame = some s.frame ∧
        ((capsSend s p false).port p).pd.noPd = (s.pd p).noPd) ∧
      (50 ≤ (s.pd p).capsCount + 1 → ((capsSend s p false).port p).pd.noPd = true ∧ ((capsSend s p false).port p).pd.lastEnd = 0xD) := by
  have hp := capsOut_port h
  have hl : p < (capsOut s p).ports.length := by rw [capsOut_length]; exact h
  have he' : ((capsOut s p).pd p).contract.explicit = false := by simpa [State.pd, hp] using he
  have hn : ((capsOut s p).pd p).capsCount = (s.pd p).capsCount := by simp [State.pd, hp]
  have hf : (capsOut s p).frame = s.frame := (capsOut_sameOffer h).only.frame_eq
  by_cases h50 : 50 ≤ (s.pd p).capsCount + 1
  · have e : capsSend s p false = (capsOut s p).updPd p fun d =>
        { d with capsCount := (s.pd p).capsCount + 1, repeatFrame := none, noPd := true, capsDue := false, lastEnd := 0xD } := by
      rw [← hn]
      unfold capsSend
      rw [if_neg (by simp)]
      exact (if_neg (by simp [← capsOut.eq_1, he'])).trans (if_pos (by rw [← hn] at h50; exact h50))
    rw [e]
    refine ⟨(PortAlone.refl p s).capsOut.updPd _, ?_⟩
    simp only [State.pd_updPd _ _ _ hl, hp, State.pd, true_and, and_true, implies_true] at h50 ⊢
    exact fun hlt => by omega
  · have e : capsSend s p false = (capsOut s p).updPd p fun d =>
        { d with capsCount := (s.pd p).capsCount + 1, repeatFrame := some (capsOut s p).frame, capsDue := false } := by
      rw [← hn]
      unfold capsSend
      rw [if_neg (by simp)]
      exact (if_neg (by simp [← capsOut.eq_1, he'])).trans (if_neg (by rw [← hn] at h50; exact h50))
    rw [e, hf]
    refine ⟨(PortAlone.refl p s).capsOut.updPd _, ?_⟩
    simp only [State.pd_updPd _ _ _ hl, hp, State.pd, true_and, and_true, implies_true] at h50 ⊢
    exact fun hge => by omega

/-- A set without GoodCRC under a contract ends in Hard Reset (R107). -/
theorem capsSend_false_explicit (h : p < s.ports.length) (he : (s.pd p).contract.explicit = true) :
    AfterHardReset p 4 true s (capsSend s p false) := by
  have hp := capsOut_port h
  have hl : p < (capsOut s p).ports.length := by rw [capsOut_length]; exact h
  have he' : ((capsOut s p).pd p).contract.explicit = true := by simpa [State.pd, hp] using he
  have e : capsSend s p false = (capsOut s p).hardReset p 4 true := by
    unfold capsSend
    rw [if_neg (by simp)]
    exact if_pos he'
  rw [e]
  exact afterHardReset_of_before (PortAlone.refl p s).capsOut.only (by rw [hp]) (by rw [hp]) (fun hk => by rw [hp]; exact hk)
    (State.hardReset_spec 4 true hl)

/-- The rows in which a set goes out: at once, or after which R91's wait is over. -/
theorem goes_caps {c : Bool → Instr} {q : State → Prop} (b : Bool) (hs : sourcing s p = true) (hno : (s.pd p).noPd = false) (hm : s.mayBegin = true)
    (hc : (c = .sourceCapSend p ∧ (s.pd p).capsDue = true ∧ s.mayStart p = true) ∨ (c = .sourceCapRepeat p ∧ s.ran (s.pd p).repeatFrame 150 = true))
    (h : q (capsSend s p b)) (hq : ∀ t, q t → q (t.updPd p fun d => { d with clear := false, collision := none })) : Goes (c b) s q := by
  obtain ⟨rfl, hd, hst⟩ | ⟨rfl, hr⟩ := hc
  · refine .intro rfl ?_ (hq _ h)
    rw [State.policyRow_of_runs (sourcing_runs hs)]
    unfold sourceCapSend
    rw [if_pos (by simp [hs, hd, hno, hm]), State.startSeq_of_mayStart hst]
  · refine .intro rfl ?_ h
    rw [State.policyRow_of_runs (sourcing_runs hs)]
    unfold sourceCapRepeat
    rw [if_pos (by simp [hs, hr, hno, hm])]

/-! ### The cable -/

theorem cableRecord_port {g : Vconn → Vconn} (h : p < s.ports.length) :
    ((cableRecord s p g).port p).vc = g (s.port p).vc ∧ ((cableRecord s p g).port p).cc = (s.port p).cc ∧
      (cableRecord s p g).ports.length = s.ports.length := by
  unfold cableRecord
  simp [State.vc_updVc, State.vc, h]

theorem eprDecide_of_not_forEpr (h : (s.vc p).forEpr = false) : eprDecide s p = s := if_neg (by simp [h])

/-- Settles O29: what a set leaves that went out (`capsSent_spec`, `capsSend_false`) and what the record of the cable takes (`cableRecord_port`). -/
theorem capabilitiesAndCable : Obligations.CapabilitiesAndCable := by
  refine ⟨fun s p hs hp hsrc hno hm => ⟨?caps, ?waited⟩, fun s p hs hp hsrc => ⟨?attempt, ?answer, ?none⟩⟩
  case caps =>
    intro c hc
    have hl := hs.port_lt (sourcing_serves hsrc)
    refine ⟨?_, fun he => ?_, fun he => ?_⟩
    · refine goes_caps true hsrc hno hm hc ⟨?_, capsSent_spec hl⟩ ?_
      · exact (PortAlone.refl p s).capsOut.capsSent
      · rintro t ⟨ha, h⟩
        have hlt : p < t.ports.length := by rw [ha.2.1]; exact hl
        refine ⟨ha.updPd _, ?_⟩
        simp only [State.pd] at h ⊢
        simpa only [State.pd_updPd _ _ _ hlt, State.updPd_port_counters] using h
    · obtain ⟨ha, h⟩ := capsSend_false hl he
      rw [hno] at h
      refine goes_caps false hsrc hno hm hc ⟨ha, h⟩ ?_
      rintro t ⟨ha, h⟩
      have hlt : p < t.ports.length := by rw [ha.2.1]; exact hl
      refine ⟨ha.updPd _, ?_⟩
      simp only [State.pd] at h ⊢
      simpa only [State.pd_updPd _ _ _ hlt] using h
    · exact goes_caps false hsrc hno hm hc (capsSend_false_explicit hl he) fun t => afterHardReset_updPd hl fun _ => rfl
  case waited =>
    intro hr
    have hl := hs.port_lt (sourcing_serves hsrc)
    refine .intro rfl (u := s.updPd p fun d => { d with collision := none, clear := true }) ?_ ⟨(PortAlone.refl p s).updPd _, ?_⟩
    · rw [State.policyRow_of_runs (sourcing_runs hsrc)]
      simp [collisionWaitExpiry, hsrc, hr]
    · simp [State.pd, State.cc, State.pd_updPd, hl]
  case attempt =>
    intro hon hg ha hd
    have hl := hs.port_lt (sourcing_serves hsrc)
    refine .intro rfl (u := (s.updVc p fun v => { v with attempt := some s.frame, attempts := min 15 (v.attempts + 1), attemptsDue := none }).send p
      [.discoverIdentityPrime]) ?_ ⟨((PortAlone.refl p s).updVc _).send _, ?_⟩
    · rw [State.policyRow_of_runs (sourcing_runs hsrc)]
      simp [cableDiscoverAttempt, hsrc, hon, hg, ha, hd]
    · simp [State.vc, State.pd, State.send, State.vc_updVc, State.pd_updPd, hl]
  case answer =>
    intro i hon ha he
    have hl := hs.port_lt (sourcing_serves hsrc)
    refine ⟨_, rfl, ((OnlyPort.refl p s).policyRow (OnlyPort.refl p s).cableIdentityResponse), ?_⟩
    rw [State.policyRow_of_runs (sourcing_runs hsrc)]
    unfold cableIdentityResponse
    rw [if_pos (by simp [hsrc, hon, ha])]
    extract_lets a b
    obtain ⟨hv, -, -⟩ : (a.port p).vc = _ ∧ (a.port p).cc = (s.port p).cc ∧ a.ports.length = s.ports.length := cableRecord_port hl
    have hb : b = a := eprDecide_of_not_forEpr (by simpa only [State.vc, hv] using he)
    rw [hb]
    simp only [State.vc, State.finishWait_port, hv, and_self]
  case none =>
    intro c ha he hc
    have hl := hs.port_lt (sourcing_serves hsrc)
    have hgo : Goes c s fun t => t = attemptFailed s p := by
      obtain rfl | ⟨rfl, hr⟩ := hc
      · refine .intro rfl ?_ rfl
        rw [State.policyRow_of_runs (sourcing_runs hsrc)]
        simp [goodcrcRetryFail, hsrc, ha]
      · refine .intro rfl ?_ rfl
        rw [State.policyRow_of_runs (sourcing_runs hsrc)]
        simp [senderResponseTimeout, hsrc, hr]
    refine hgo.imp ?_
    rintro t rfl
    refine ⟨(OnlyPort.refl p s).attemptFailed, ?_⟩
    unfold attemptFailed
    extract_lets v more a b
    obtain ⟨hv, hcc, -⟩ : (a.port p).vc = _ ∧ (a.port p).cc = (s.port p).cc ∧ a.ports.length = s.ports.length := cableRecord_port hl
    have hb : b = a := eprDecide_of_not_forEpr (by simpa only [State.vc, hv] using he)
    rw [hb]
    simp only [State.vc, State.cc, State.finishWait_port, hv, hcc, and_self]

end Sys2Proof.Machine
end

section
/-! PROOF. Requests and transitions. -/
namespace Sys2Proof.Machine
variable {p : Nat} {s t : State} {q : PdRequest}

theorem PortAlone.trans {u : State} (h : PortAlone p s t) (k : PortAlone p t u) : PortAlone p s u := by
  obtain ⟨a, b, c⟩ := h
  obtain ⟨d, e, f⟩ := k
  refine ⟨?_, e.trans b, fun q hq => (f q hq).trans (c q hq)⟩
  rw [d, a]

/-- The verdict on a request rests on the set sent and the ceiling (R92). -/
theorem judge_congr (hk : OnlyPort p s t) (h1 : (t.port p).pd.sent = (s.port p).pd.sent) (h2 : (t.port p).pd.sentP = (s.port p).pd.sentP) :
    judge t p q = judge s p q := by
  have hobj : ∀ o, checkObj (t.port p).pd q o = checkObj (s.port p).pd q o := fun o => by
    unfold checkObj
    rw [h2]
  unfold judge State.pd
  simp only [h1, hobj, hk.offerP_eq]

/-- The state in which a request has been heard and is judged (R91, R101). -/
def requestHeard (s : State) (p : Nat) (q : PdRequest) : State :=
  (s.sinkSpoke p).updPd p fun d =>
    { d.asked q (s.sinkSpoke p).frame with awaiting := none, rev20 := if d.revKnown then d.rev20 else q.rev20, revKnown := true }

theorem PortAlone.requestHeard (h : PortAlone p s t) : PortAlone p s (requestHeard t p q) := h.sinkSpoke.updPd _

/-- What a request that has arrived leaves alone, and what it notes. -/
theorem requestHeard_spec (h : p < s.ports.length) :
    ∃ d : Pd, ((requestHeard s p q).port p) = { s.port p with pd := d } ∧
      (d.sent, d.sentP, d.softReset, d.next, d.eprEnter, d.everSent, d.epr, d.contract, d.low, d.rejects, d.hrRun) =
        ((s.port p).pd.sent, (s.port p).pd.sentP, (s.port p).pd.softReset, (s.port p).pd.next, (s.port p).pd.eprEnter, (s.port p).pd.everSent,
          (s.port p).pd.epr, (s.port p).pd.contract, (s.port p).pd.low, (s.port p).pd.rejects, (s.port p).pd.hrRun) ∧
      d.lastReq = s.frame := by
  unfold requestHeard
  refine ⟨_, by simp [State.updPd, State.port_updPort, State.sinkSpoke, h]; rfl, ?_⟩
  split <;> exact ⟨rfl, rfl⟩

/-- A request that is judged: heard in a state that expects one (R92, R99). -/
theorem requestReceived_eq (hsrc : sourcing s p = true) (hl : p < s.ports.length) (hup : s.sup.st = .up) (hq : s.quiet p = true)
    (hev : (s.pd p).everSent = true) (he : q.epr = true → (s.pd p).epr = true) :
    (∀ c, judge s p q = .inl c → requestReceived p q s = acceptRequest (requestHeard s p q) p q c) ∧
      (∀ n, judge s p q = .inr n → requestReceived p q s = rejectRequest (requestHeard s p q) p n) := by
  obtain ⟨d, hd, hpd, -⟩ := requestHeard_spec (q := q) hl
  simp only [Prod.mk.injEq] at hpd
  obtain ⟨h1, h2, h3, h4, h5, h6, h7, -⟩ := hpd
  obtain ⟨q1, q2, -, q4, -, q6, -⟩ := quiet_iff.1 hq
  have hu : (requestHeard s p q).sup = s.sup := (PortAlone.refl p s).requestHeard.only.sup_eq
  have hj : judge (requestHeard s p q) p q = judge s p q :=
    judge_congr (PortAlone.refl p s).requestHeard.only (by rw [hd]; exact h1) (by rw [hd]; exact h2)
  have hsr : ((requestHeard s p q).pd p).softReset.isSome = false := by
    simp only [State.pd, hd, h3]
    simp [← State.pd.eq_1, q4]
  have hcl : requestClash (requestHeard s p q) p q = false := by
    simp only [requestClash, State.pd, State.sw, hd, h4, h5, h6, h7]
    simp only [← State.pd.eq_1, ← State.sw.eq_1, q1, q2, q6, hev]
    cases hqe : q.epr
    · rfl
    · simp [he hqe]
  unfold requestReceived
  rw [if_pos hsrc]
  extract_lets a b
  rw [show b = requestHeard s p q from rfl, if_neg (by simp [hsr]), if_neg (by simp [hu, hup]), if_neg (by simp [hcl]), hj]
  exact ⟨fun c hc => by simp only [hc], fun n hn => by simp only [hn]⟩

/-- R92 row 6, R94, R170: what an accepted request leaves. -/
theorem acceptRequest_spec (c : Contract) (h : p < s.ports.length) :
    PortAlone p s (acceptRequest s p q c) ∧ ((acceptRequest s p q c).port p).pd.next = some c ∧
      ((acceptRequest s p q c).port p).pd.acceptFrame = s.frame ∧ ((acceptRequest s p q c).port p).pd.tx = [.accept] ∧
      ((acceptRequest s p q c).port p).pd.slewing = false ∧ ((acceptRequest s p q c).port p).pd.contract = (s.port p).pd.contract ∧
      ((acceptRequest s p q c).port p).pd.lastReq = (s.port p).pd.lastReq ∧ ((acceptRequest s p q c).port p).pd.mismatch = q.mismatch ∧
      (c.mv < (s.port p).pd.contract.mv → (s.port p).path.pmode ≠ 0 → ((acceptRequest s p q c).port p).path.pmode = 2) := by
  have hb : ∀ d : Pd, (d.broken.next, d.broken.acceptFrame, d.broken.slewing, d.broken.contract, d.broken.lastReq, d.broken.mismatch) =
      (d.next, d.acceptFrame, d.slewing, d.contract, d.lastReq, d.mismatch) := fun d => by
    unfold Pd.broken
    split <;> rfl
  simp only [Prod.mk.injEq] at hb
  unfold acceptRequest
  extract_lets before a b
  have hla : p < a.ports.length := by simpa [a] using h
  have ha : PortAlone p s a := (PortAlone.refl p s).updPd _
  have hb' : PortAlone p s b := PortAlone.ite (ha.updPath _) ha
  have hlb : p < b.ports.length := by rw [hb'.2.1]; exact h
  have hbpd : (b.port p).pd = (a.port p).pd := by
    simp only [b]
    split <;> simp
  refine ⟨hb'.send _, ?_⟩
  simp only [State.send, State.pd_updPd _ _ _ hlb, State.updPd_port_path, hbpd]
  simp only [a, State.pd_updPd _ _ _ h, hb, true_and]
  intro hlt hm
  have hba : b = a.updPath p fun h => { h with pmode := if h.pmode = 0 then 0 else 2, retKind := 1 } := if_pos hlt
  simp only [hba, State.path_updPath _ _ _ hla, a, State.updPd_port_path, if_neg hm]

/-- R92, R111: what a rejected request leaves, where the third rejection in a row after lowered capabilities is not reached. -/
theorem rejectRequest_spec (n : Nat) (h : p < s.ports.length) (hlow : (s.port p).pd.low = false ∨ (s.port p).pd.rejects < 2) :
    PortAlone p s (rejectRequest s p n) ∧ ((rejectRequest s p n).port p).pd.next = (s.port p).pd.next ∧
      ((rejectRequest s p n).port p).pd.tx = [.reject] ∧ ((rejectRequest s p n).port p).pd.contract = (s.port p).pd.contract ∧
      ((rejectRequest s p n).port p).counters = (s.port p).counters.modify 5 sat1 ∧
      (n = 5 → ((rejectRequest s p n).port p).pd.capsDue = true) := by
  unfold rejectRequest
  extract_lets a b d
  have ha : PortAlone p s a := (((PortAlone.refl p s).countUp _).send _).seqOver
  have hla : p < a.ports.length := by rw [ha.2.1]; exact h
  have hb : PortAlone p s b := ha.updPd _
  have hlb : p < b.ports.length := by rw [hb.2.1]; exact h
  have hapd : (a.port p).pd = { (s.port p).pd with tx := [.reject], txRev20 := (s.port p).pd.rev20 } := by
    simp [a, State.send, State.pd_updPd, h]
  have hbpd : (b.port p).pd = _ := State.pd_updPd a p _ hla
  rw [hapd] at hbpd
  have hcnt : (b.port p).counters = (s.port p).counters.modify 5 sat1 := by
    simp [b, a, State.send, State.countUp, State.port_updPort, h, PCount.idx]
  have hno : ¬(d.low && decide (3 ≤ d.rejects)) = true := by
    simp only [d, State.pd, hbpd]
    rcases hlow with hlow | hlow
    · simp [hlow]
    · simp only [Bool.and_eq_true, decide_eq_true_eq, not_and]
      omega
  rw [if_neg hno]
  have hw : PortAlone p s (if n = 5 then b.waitTx p else b) := PortAlone.ite hb.waitTx hb
  have hwait : ∀ u : State, p < u.ports.length → ((u.waitTx p).port p).pd.next = (u.port p).pd.next ∧ ((u.waitTx p).port p).pd.tx = (u.port p).pd.tx ∧
      ((u.waitTx p).port p).pd.contract = (u.port p).pd.contract ∧ ((u.waitTx p).port p).pd.capsDue = (u.port p).pd.capsDue ∧
      ((u.waitTx p).port p).counters = (u.port p).counters := fun u hu => by
    unfold State.waitTx
    split <;> simp [State.pd_updPd, hu]
  obtain ⟨w1, w2, w3, w4, w5⟩ := hwait b hlb
  refine ⟨hw, ?_⟩
  split
  case isTrue h5 =>
    rw [w1, w2, w3, w4, w5, hbpd, hcnt]
    exact ⟨rfl, rfl, rfl, rfl, fun _ => by simp [h5]⟩
  case isFalse h5 =>
    rw [hbpd, hcnt]
    exact ⟨rfl, rfl, rfl, rfl, fun h => absurd h h5⟩

/-- R111: the third rejection in a row after lowered capabilities ends in Hard Reset. -/
theorem rejectRequest_third (n : Nat) (h : p < s.ports.length) (hlow : (s.port p).pd.low = true) (hrej : 2 ≤ (s.port p).pd.rejects) :
    AfterHardReset p 7 true s (rejectRequest s p n) := by
  unfold rejectRequest
  extract_lets a b d
  have ha : PortAlone p s a := (((PortAlone.refl p s).countUp _).send _).seqOver
  have hla : p < a.ports.length := by rw [ha.2.1]; exact h
  have hb : PortAlone p s b := ha.updPd _
  have hlb : p < b.ports.length := by rw [hb.2.1]; exact h
  have hapd : (a.port p).pd = { (s.port p).pd with tx := [.reject], txRev20 := (s.port p).pd.rev20 } := by
    simp [a, State.send, State.pd_updPd, h]
  have hbpd : (b.port p).pd = _ := State.pd_updPd a p _ hla
  rw [hapd] at hbpd
  have hyes : (d.low && decide (3 ≤ d.rejects)) = true := by
    simp only [d, State.pd, hbpd]
    simp only [hlow, Bool.true_and, decide_eq_true_eq]
    omega
  have hcc : (b.port p).cc.st = (s.port p).cc.st := by
    have : (a.port p).cc.st = (s.port p).cc.st := by
      simp only [a, State.seqOver]
      split <;> simp [State.cc_updCc, State.send, h]
    simpa [b] using this
  have hsw : (b.port p).sw = (s.port p).sw := by simp [b, a, State.send]
  rw [if_pos hyes]
  exact afterHardReset_of_before hb.only (by rw [hbpd]) hcc (fun hk => by rw [hsw]; exact hk) (State.hardReset_spec 7 true hlb)

/-! ### Transitions -/

/-- What the first explicit contract of an attach starts leaves the contract and the attach alone. -/
theorem firstContractDone_spec (h : p < s.ports.length) :
    ((firstContractDone s p).port p).pd.firstContract.isSome = true ∧
      ((firstContractDone s p).port p).pd.contract = (s.port p).pd.contract ∧ ((firstContractDone s p).port p).pd.next = (s.port p).pd.next ∧
      ((firstContractDone s p).port p).pd.tx = (s.port p).pd.tx ∧ ((firstContractDone s p).port p).pd.hrRun = (s.port p).pd.hrRun ∧
      ((firstContractDone s p).port p).pd.lastEnd = (s.port p).pd.lastEnd ∧ ((firstContractDone s p).port p).cc = (s.port p).cc := by
  unfold firstContractDone
  split
  case isTrue hf => exact ⟨hf, rfl, rfl, rfl, rfl, rfl, rfl⟩
  case isFalse =>
    extract_lets a b
    have hb : (b.port p).pd = (a.port p).pd ∧ (b.port p).cc = (a.port p).cc := by
      simp only [b]
      split <;> simp
    simp [hb, a, State.pd_updPd, h]

theorem State.seqOver_st (h : p < s.ports.length) : ((s.seqOver p).port p).cc.st = (s.port p).cc.st := by
  unfold State.seqOver
  split
  · simp [State.cc_updCc, h]
  · rfl

/-- The wait of R91 writes no contract and no state. -/
theorem State.rewait_spec (h : p < s.ports.length) :
    ((s.rewait p).port p).pd.contract = (s.port p).pd.contract ∧ ((s.rewait p).port p).pd.next = (s.port p).pd.next ∧
      ((s.rewait p).port p).pd.tx = (s.port p).pd.tx ∧ ((s.rewait p).port p).pd.hrRun = (s.port p).pd.hrRun ∧
      ((s.rewait p).port p).pd.lastEnd = (s.port p).pd.lastEnd ∧ ((s.rewait p).port p).cc.st = (s.port p).cc.st := by
  unfold State.rewait State.waitTx
  split
  · split <;> simp [State.pd_updPd, State.cc_updCc, h]
  · exact ⟨rfl, rfl, rfl, rfl, rfl, rfl⟩

/-- Settles O30: how a request is judged (`requestReceived_eq`) and what each verdict leaves; how a transition starts and settles. -/
theorem requestsAndTransitions : Obligations.RequestsAndTransitions := by
  refine ⟨fun s p q hs hp hsrc hup hq hev he => ⟨?accept, ?third, ?reject⟩, ?readied, fun s p c hs hv hst hd hr hn => ⟨?start, ?settled⟩⟩
  case accept =>
    intro c hj
    have hl := hs.port_lt (sourcing_serves hsrc)
    obtain ⟨d, hd, hpd, hlr⟩ := requestHeard_spec (q := q) hl
    simp only [Prod.mk.injEq] at hpd
    obtain ⟨-, -, -, -, -, -, -, h8, -⟩ := hpd
    have hk := (PortAlone.refl p s).requestHeard (q := q)
    obtain ⟨a, b, e, f, g, i, j, k, l⟩ := acceptRequest_spec (s := requestHeard s p q) (q := q) c (by rw [hk.2.1]; exact hl)
    refine .intro rfl (u := acceptRequest (requestHeard s p q) p q c) ?_ ⟨?_, b, ?_, f, g, ?_, ?_, k, ?_⟩
    · rw [State.policyRow_of_runs (sourcing_runs hsrc), (requestReceived_eq hsrc hl hup hq hev he).1 c hj]
    · exact hk.trans a
    · rw [State.pd, e, hk.only.frame_eq]
    · rw [State.pd, i, hd, h8]; rfl
    · rw [State.pd, j, hd, hlr]
    · rw [hd, h8] at l
      exact l
  case third =>
    intro n hj hlow hrej
    have hl := hs.port_lt (sourcing_serves hsrc)
    obtain ⟨d, hd, hpd, -⟩ := requestHeard_spec (q := q) hl
    simp only [Prod.mk.injEq] at hpd
    obtain ⟨-, -, -, -, -, -, -, -, h9, h10, h11⟩ := hpd
    have hk := (PortAlone.refl p s).requestHeard (q := q)
    refine .intro rfl (u := rejectRequest (requestHeard s p q) p n) ?_ ?_
    · rw [State.policyRow_of_runs (sourcing_runs hsrc), (requestReceived_eq hsrc hl hup hq hev he).2 n hj]
    · refine afterHardReset_of_before hk.only (by rw [hd, h11]) (by rw [hd]) (fun h => by rw [hd]; exact h)
        (rejectRequest_third n (by rw [hk.2.1]; exact hl) ?_ ?_)
      · rw [hd, h9]; exact hlow
      · rw [hd, h10]; exact hrej
  case reject =>
    intro n hj hrej
    have hl := hs.port_lt (sourcing_serves hsrc)
    obtain ⟨d, hd, hpd, -⟩ := requestHeard_spec (q := q) hl
    simp only [Prod.mk.injEq] at hpd
    obtain ⟨-, -, -, h4, -, -, -, h8, h9, h10, -⟩ := hpd
    have hk := (PortAlone.refl p s).requestHeard (q := q)
    obtain ⟨a, b, e, f, g, i⟩ := rejectRequest_spec (s := requestHeard s p q) n (by rw [hk.2.1]; exact hl) (by rw [hd, h9, h10]; exact hrej)
    refine .intro rfl (u := rejectRequest (requestHeard s p q) p n) ?_ ⟨?_, ?_, e, ?_, ?_, i⟩
    · rw [State.policyRow_of_runs (sourcing_runs hsrc), (requestReceived_eq hsrc hl hup hq hev he).2 n hj]
    · exact hk.trans a
    · rw [State.pd, b, hd, h4]
      exact (quiet_iff.1 hq).1
    · rw [State.pd, f, hd, h8]; rfl
    · rw [g, hd]
  case readied =>
    intro s p q hs hp hsrc hsr hrd
    have hl := hs.port_lt (sourcing_serves hsrc)
    obtain ⟨d, hd, hpd, -⟩ := requestHeard_spec (q := q) hl
    simp only [Prod.mk.injEq] at hpd
    obtain ⟨-, -, h3, h4, -⟩ := hpd
    have hk := (PortAlone.refl p s).requestHeard (q := q)
    refine .intro rfl (u := (requestHeard s p q).send p [.wait]) ?_ ⟨hk.send _, ?_⟩
    · rw [State.policyRow_of_runs (sourcing_runs hsrc)]
      unfold requestReceived
      rw [if_pos hsrc]
      extract_lets a b
      rw [show b = requestHeard s p q from rfl, if_neg, if_pos]
      · rw [hk.only.sup_eq, hrd]; rfl
      · rw [State.pd, hd, h3, ← State.pd, hsr]; simp
    · simp only [State.pd, State.send, State.pd_updPd _ _ _ (show p < (requestHeard s p q).ports.length by rw [hk.2.1]; exact hl), hd, h4, true_and]
  case start =>
    intro hb hsl hpl hf
    have hl := hs.port_lt hv
    have hprog : c.programmable = true ↔ c.kind = 3 ∨ c.kind = 5 := by simp [Contract.programmable]
    have hf' : s.framesSince (s.pd p).acceptFrame (if c.programmable = true then 1 else 25) = true := by
      simpa [State.framesSince, hprog] using hf
    refine .intro rfl (u := (s.updPd p fun d => { d with slewing := true, settled := 0 }).updPath p fun h =>
        { h with vtgt := c.mv / 2, itgt := if c.kind = 3 then c.cur * 10 + 50 else 0x7FFF }) ?_ ⟨((PortAlone.refl p s).updPd _).updPath _, ?_⟩
    · rw [State.policyRow_of_runs hr]
      simp [transitionStart, hn, hv, hr, hst, hd, hb, hsl, hf', hpl]
    · simp [State.pd, State.path, State.pd_updPd, State.path_updPath, hl]
  case settled =>
    intro hsl hset
    have hl := hs.port_lt hv
    refine ⟨_, rfl, ((OnlyPort.refl p s).policyRow (OnlyPort.refl p s).transitionSettled), ?_⟩
    rw [State.policyRow_of_runs hr]
    unfold transitionSettled
    extract_lets d0
    have hn0 : d0.next = some c := hn
    split
    case h_2 hnone => simp [hn0] at hnone
    rename_i c' hc'
    obtain rfl : c = c' := Option.some.inj (hn0.symm.trans hc')
    rw [if_pos (by simp [hv, hr, hst, d0, hsl, hset])]
    extract_lets a b d e
    have hlb : p < b.ports.length := by simpa [b, a] using hl
    have hbs : ((b.send p [.psRdy]).port p).pd.tx = [.psRdy] ∧ ((b.send p [.psRdy]).port p).pd.contract = c ∧
        ((b.send p [.psRdy]).port p).pd.next = none ∧ ((b.send p [.psRdy]).port p).pd.hrRun = 0 ∧ ((b.send p [.psRdy]).port p).pd.lastEnd = 0 ∧
        ((b.send p [.psRdy]).port p).cc.st = .attachedSrc := by
      simp only [State.cc] at hst
      simp [State.send, b, a, State.pd_updPd, hl, hst]
    have hls : p < ((b.send p [.psRdy]).seqOver p).ports.length := by simpa [State.send] using hlb
    have hld : p < d.ports.length := by
      rw [show d.ports.length = _ from (((PortAlone.refl p ((b.send p [.psRdy]).seqOver p)).rewait).2.1)]
      exact hls
    obtain ⟨r1, r2, r3, r4, r5, r6⟩ := State.rewait_spec hls
    obtain ⟨f0, f1, f2, f3, f4, f5, f6⟩ := firstContractDone_spec hld
    have hsq : (((b.send p [.psRdy]).seqOver p).port p).pd = ((b.send p [.psRdy]).port p).pd := by simp
    have hst' := State.seqOver_st (s := b.send p [.psRdy]) (p := p) (by simpa [State.send] using hlb)
    obtain ⟨b1, b2, b3, b4, b5, b6⟩ := hbs
    simp only [State.pd, State.cc, State.pushEvent_port, e]
    rw [f1, f2, f3, f4, f5, f6]
    simp only [d]
    rw [r1, r2, r3, r4, r5, r6, hsq, hst']
    exact ⟨b2, b3, b1, b4, b5, f0, b6⟩

end Sys2Proof.Machine
end

section
/-! PROOF. Answers and Soft_Reset. -/
namespace Sys2Proof.Machine
variable {p : Nat} {s t : State}

/-! ### The clock is no part of a port -/

@[simp] theorem State.updCc_frame (f : CcLayer → CcLayer) : (s.updCc p f).frame = s.frame := rfl
@[simp] theorem State.updCc_now (f : CcLayer → CcLayer) : (s.updCc p f).now = s.now := rfl
@[simp] theorem State.updVc_frame (f : Vconn → Vconn) : (s.updVc p f).frame = s.frame := rfl
@[simp] theorem State.updVc_now (f : Vconn → Vconn) : (s.updVc p f).now = s.now := rfl
@[simp] theorem State.updPd_frame (f : Pd → Pd) : (s.updPd p f).frame = s.frame := rfl
@[simp] theorem State.updPd_now (f : Pd → Pd) : (s.updPd p f).now = s.now := rfl
@[simp] theorem State.updSw_frame (f : Swap → Swap) : (s.updSw p f).frame = s.frame := rfl
@[simp] theorem State.updSw_now (f : Swap → Swap) : (s.updSw p f).now = s.now := rfl
@[simp] theorem State.updDc_frame (f : Disc → Disc) : (s.updDc p f).frame = s.frame := rfl
@[simp] theorem State.updDc_now (f : Disc → Disc) : (s.updDc p f).now = s.now := rfl
@[simp] theorem State.updPath_frame (f : Path → Path) : (s.updPath p f).frame = s.frame := rfl
@[simp] theorem State.updPath_now (f : Path → Path) : (s.updPath p f).now = s.now := rfl
@[simp] theorem State.countUp_frame (c : PCount) : (s.countUp p c).frame = s.frame := rfl
@[simp] theorem State.send_frame (m : List PdTx) : (s.send p m).frame = s.frame := rfl

/-! ### Answers -/

/-- R91: a message of the sink leaves the port alone but for its wait and the time it arrived. -/
theorem State.sinkSpoke_spec (h : p < s.ports.length) :
    ∃ d : Pd, (s.sinkSpoke p).port p = { s.port p with pd := d } ∧ d.lastMsg = s.frame ∧
      (d.contract, d.next, d.softReset, d.eprEnter, d.rev20, d.epr, d.derived, d.derivedP, d.derivedFlags, d.sent, d.everSent, d.hrRun, d.cableChanged) =
        ((s.port p).pd.contract, (s.port p).pd.next, (s.port p).pd.softReset, (s.port p).pd.eprEnter, (s.port p).pd.rev20, (s.port p).pd.epr,
          (s.port p).pd.derived, (s.port p).pd.derivedP, (s.port p).pd.derivedFlags, (s.port p).pd.sent, (s.port p).pd.everSent, (s.port p).pd.hrRun,
          (s.port p).pd.cableChanged) := by
  refine ⟨_, by simp [State.sinkSpoke, State.updPd, State.port_updPort, h]; rfl, ?_⟩
  split <;> exact ⟨rfl, rfl⟩

/-- R106: a request of the partner that nothing makes unexpected. -/
theorem answer_of_quiet (m : List PdTx) (hl : p < s.ports.length) (hq : s.quiet p = true) : answer s p m = (s.sinkSpoke p).send p m := by
  obtain ⟨q1, q2, -, q4, -, q6, -⟩ := quiet_iff.1 hq
  obtain ⟨d, hd, -, hpd⟩ := State.sinkSpoke_spec hl
  simp only [Prod.mk.injEq] at hpd
  obtain ⟨-, h2, h3, h4, -⟩ := hpd
  have ha : answered (s.sinkSpoke p) p = true := by
    simp only [answered, State.pd, State.sw, hd, h2, h3, h4]
    simp only [State.pd, State.sw] at q1 q2 q4 q6
    simp [q1, q2, q4, q6]
  unfold answer
  exact if_pos ha

theorem answered_of_quiet (hq : s.quiet p = true) : answered s p = true := by
  obtain ⟨q1, q2, -, q4, -, q6, -⟩ := quiet_iff.1 hq
  simp [answered, q1, q2, q4, q6]

/-- What an answer leaves. -/
theorem answerSent_spec (m : List PdTx) (hl : p < s.ports.length) :
    PortAlone p s ((s.sinkSpoke p).send p m) ∧ (((s.sinkSpoke p).send p m).pd p).tx = m ∧ (((s.sinkSpoke p).send p m).pd p).lastMsg = s.frame ∧
      (((s.sinkSpoke p).send p m).pd p).contract = (s.pd p).contract := by
  obtain ⟨d, hd, hm, hpd⟩ := State.sinkSpoke_spec hl
  simp only [Prod.mk.injEq] at hpd
  have hl' : p < (s.sinkSpoke p).ports.length := by rw [(PortAlone.refl p s).sinkSpoke.2.1]; exact hl
  refine ⟨(PortAlone.refl p s).sinkSpoke.send _, ?_⟩
  simp only [State.pd, State.send, State.pd_updPd _ _ _ hl', hd, hm, hpd.1, and_self]

/-- R107: where no swap runs and no Soft_Reset waits, a protocol error sends one. -/
theorem protoError_spec (hl : p < s.ports.length) (hk : (s.sw p).kind = none) (hsr : (s.pd p).softReset = none) :
    PortAlone p s (protoError s p) ∧ ((protoError s p).pd p).tx = [.softReset] ∧ ((protoError s p).pd p).softReset = some s.frame ∧
      ((protoError s p).pd p).awaiting = none ∧ ((protoError s p).port p).counters = (s.port p).counters.modify 4 sat1 := by
  have hsw : s.swapFail p 2 = s.updSw p fun w => { w with drDue := false } := by
    unfold State.swapFail State.swapEnds
    rw [hk]
  unfold protoError
  rw [if_neg (by simp [hsr]), hsw]
  refine ⟨((((((PortAlone.refl p s).updSw _).countUp _).updVc _).updPd _).send _), ?_⟩
  simp [State.pd, State.send, State.pd_updPd, State.countUp, State.port_updPort, hl, PCount.idx]

/-- Settles O32: an answer outside a sequence (`answer_of_quiet`), and Soft_Reset (`protoError_spec`). -/
theorem messagesAreAnswered : Obligations.MessagesAreAnswered := by
  intro s p hs hp
  refine ⟨?sourceCap, ?answers, fun ha => ⟨?alert, ?protocol, ?softReset⟩⟩
  case sourceCap =>
    intro hsrc hq
    have hl := hs.port_lt (sourcing_serves hsrc)
    obtain ⟨d, hd, -, hpd⟩ := State.sinkSpoke_spec hl
    simp only [Prod.mk.injEq] at hpd
    obtain ⟨-, -, -, -, -, -, h7, -⟩ := hpd
    have hk := ((PortAlone.refl p s).sinkSpoke.send [capsMsg s p])
    have hl' : p < (s.sinkSpoke p).ports.length := by rw [(PortAlone.refl p s).sinkSpoke.2.1]; exact hl
    refine .intro rfl (u := (capsSent ((s.sinkSpoke p).send p [capsMsg s p]) p).countUp p .caps) ?_ ⟨hk.capsSent.countUp _, ?_⟩
    · rw [State.policyRow_of_runs (sourcing_runs hsrc)]
      unfold getSourceCap
      rw [if_pos hsrc, if_pos (answered_of_quiet hq), answer_of_quiet _ hl hq]
    · simp only [State.pd, State.countUp_port_pd, capsSent, State.send]
      simp [State.pd_updPd, hl', hd, h7]
  case answers =>
    intro ha hq c m hc
    have hl := hs.port_lt (attachedPd_serves ha)
    obtain ⟨a, b, d, e⟩ := answerSent_spec [m] hl
    have hgo : ∀ {i : Instr} {go : State → State}, exec c s = .next (s.policyRow p i go) → go s = answer s p [m] →
        Goes c s fun t => PortAlone p s t ∧ (t.pd p).tx = [m] ∧ (t.pd p).lastMsg = s.frame ∧ (t.pd p).contract = (s.pd p).contract :=
      fun hx hg => .intro hx (by rw [State.policyRow_of_runs (attachedPd_runs ha), hg, answer_of_quiet _ hl hq]) ⟨a, b, d, e⟩
    obtain ⟨rfl, hn, rfl⟩ | ⟨rfl, rfl⟩ | ⟨rfl, rfl⟩ | ⟨rfl, rfl⟩ | ⟨rfl, rfl⟩ | ⟨rfl, rfl⟩ | ⟨rfl, rfl⟩ | ⟨rfl, rfl⟩ := hc
    · have hsnk : sinking s p = true := by
        rcases attachedPd_iff.1 ha with h | h
        · simp [hn] at h
        · exact h
      exact hgo rfl (by simp [getSourceCap, hn, hsnk])
    · exact hgo rfl (by simp [getSourceCapExtended, ha])
    · exact hgo rfl (by simp [getPpsStatus, ha])
    · exact hgo rfl (by simp [getSourceInfo, ha])
    · exact hgo rfl (by simp [getSinkCap, ha])
    · exact hgo rfl (by simp [getStatus, ha])
    · exact hgo rfl (by simp [getRevision, ha])
    · exact hgo rfl (by simp [unsupportedRequest, ha])
  case alert =>
    intro ado
    have hl := hs.port_lt (attachedPd_serves ha)
    obtain ⟨d, hd, hm, -⟩ := State.sinkSpoke_spec hl
    refine .intro rfl (u := (s.sinkSpoke p).pushEvent 0x04 p (leBytes 4 ado.toNat)) ?_ ⟨?_, ?_, ?_, ?_⟩
    · rw [State.policyRow_of_runs (attachedPd_runs ha)]
      simp [alertReceived, ha]
    · rfl
    · unfold State.pushEvent
      dsimp only [State.setAttn]
      split <;> rfl
    · simp only [State.pd, State.pushEvent_port, hd, hm]
    · simp [State.pushEvent, State.setAttn, eventAttn]
  case protocol =>
    intro c hc hk hsr
    have hl := hs.port_lt (attachedPd_serves ha)
    have hgo : ∀ u : State, PortAlone p s u → (u.sw p).kind = none → (u.pd p).softReset = none → (u.port p).counters = (s.port p).counters →
        PortAlone p s (protoError u p) ∧ ((protoError u p).pd p).tx = [.softReset] ∧ ((protoError u p).pd p).softReset = some s.frame ∧
          ((protoError u p).pd p).awaiting = none ∧ ((protoError u p).port p).counters = (s.port p).counters.modify 4 sat1 :=
      fun u hu h1 h2 h3 => by
        obtain ⟨a, b, d, e, f⟩ := protoError_spec (by rw [hu.2.1]; exact hl) h1 h2
        exact ⟨hu.trans a, b, by rw [d, hu.only.frame_eq], e, by rw [f, h3]⟩
    obtain rfl | ⟨⟨q, rfl, hn⟩, hsrc⟩ := hc
    · refine .intro rfl (u := protoError (s.heard p) p) ?_ (hgo _ (PortAlone.refl p s).heard ?_ ?_ ?_)
      · rw [State.policyRow_of_runs (attachedPd_runs ha)]
        simp [protocolError, ha]
      · simpa [State.sw, State.heard] using hk
      · simpa [State.pd, State.heard, State.pd_updPd, hl] using hsr
      · simp [State.heard]
    · obtain ⟨d, hd, -, hpd⟩ := State.sinkSpoke_spec hl
      simp only [Prod.mk.injEq] at hpd
      obtain ⟨-, h2, h3, -⟩ := hpd
      refine .intro rfl (u := protoError (s.sinkSpoke p) p) ?_ (hgo _ (PortAlone.refl p s).sinkSpoke ?_ ?_ ?_)
      · have hna : answered s p = false := by simp [answered, hn]
        have hna' : answered (s.sinkSpoke p) p = false := by
          simp only [answered, State.pd, hd, h2]
          simp [← State.pd.eq_1, hn]
        rw [State.policyRow_of_runs (sourcing_runs hsrc)]
        unfold getSourceCap answer
        rw [if_pos hsrc, if_neg (by simp [hna]), if_neg (by simp [hna'])]
      · rw [State.sw, hd]; exact hk
      · rw [State.pd, hd, h3]; exact hsr
      · rw [hd]
  case softReset =>
    intro hk
    have hl := hs.port_lt (attachedPd_serves ha)
    have hsw : s.swapFail p 2 = s.updSw p fun w => { w with drDue := false } := by
      unfold State.swapFail State.swapEnds
      rw [hk]
    refine ⟨_, rfl, ?_⟩
    rw [State.policyRow_of_runs (attachedPd_runs ha)]
    unfold softResetReceived
    rw [if_pos ha, hsw]
    refine ⟨((((((PortAlone.refl p s).updSw _).countUp _)).updPd _).send _), ?_⟩
    simp [State.pd, State.cc, State.send, State.pd_updPd, State.countUp, State.port_updPort, hl, PCount.idx]
    intro h
    simp [h]

end Sys2Proof.Machine
end

section
/-! PROOF. Recovery, hold and sink role. -/
namespace Sys2Proof.Machine
variable {p : Nat} {s t : State}

/-- Whether a port is on its way out of service, on its way home. -/
theorem State.home_cc_toOutOfService (h : p < s.ports.length) : ((s.home p).cc p).toOutOfService = (s.cc p).toOutOfService := by
  simp only [State.home, State.cc, State.cc_updCc, h, apply_ite CcLayer.toOutOfService]
  simp [CcLayer.toggleFresh, CcLayer.entered]

/-- Settles O33: the branch that each condition takes, with what ErrorRecovery (`State.errorRecovery_spec`) and the way home leave. -/
theorem recoveryHoldAndSink : Obligations.RecoveryHoldAndSink := by
  intro s p hs hv
  have hl := hs.port_lt hv
  refine ⟨fun hr hst => ⟨?takedown, ?recover⟩, ?lost, ?back, fun hh => ⟨fun hst => ⟨?wait, ?keep⟩, ?holdReset⟩, fun hsnk hk hsr => ⟨?caps, ?accept, ?ready⟩⟩
  case takedown =>
    intro hran htd
    refine .intro rfl (u := (s.updPd p fun d => { d with takedown := true }).updPath p fun h =>
      { h with pmode := if h.pmode = 0 then 0 else 2, retKind := 3, vtgt := 250 }) ?_ ⟨((PortAlone.refl p s).updPd _).updPath _, ?_⟩
    · rw [State.policyRow_of_runs hr]
      simp [hardResetTakedown, hv, hr, hst, hran, htd]
    · simp only [State.pd, State.path]
      simp [State.pd_updPd, State.path_updPath, hl]
  case recover =>
    intro htd hran
    refine ⟨_, rfl, ?_⟩
    rw [State.policyRow_of_runs hr]
    unfold hardResetRecover
    rw [if_pos (by simp [hv, hr, hst, htd, hran])]
    extract_lets a b c d e
    have ha : PortAlone p s a := (PortAlone.refl p s).updPath _
    have hb : PortAlone p s b := ha.updPd _
    have hc : PortAlone p s c := hb.updCc _
    have hd : PortAlone p s d := PortAlone.ite hc.vconnOn hc
    have he : PortAlone p s e := hd.updSw _
    have hlc : p < c.ports.length := by rw [hc.2.1]; exact hl
    have hle : p < e.ports.length := by rw [he.2.1]; exact hl
    have hdc : (d.port p).cc = (c.port p).cc ∧ (d.port p).pd = (c.port p).pd ∧ (d.port p).path = (c.port p).path := by
      simp only [d]
      split <;> simp
    refine ⟨he.startPd, ?_⟩
    have hra : rpOf a p = rpOf s p := ha.only.rpOf_eq p
    have hrb : rpOf b p = rpOf s p := hb.only.rpOf_eq p
    have hlb : p < b.ports.length := by rw [hb.2.1]; exact hl
    have hla : p < a.ports.length := by rw [ha.2.1]; exact hl
    have hld : p < d.ports.length := by rw [hd.2.1]; exact hl
    simp only [State.pd, State.path, State.cc, startPd] at *
    simp [State.pd_updPd, State.cc_updCc, State.path_updPath, e, hld, hdc, c, b, a, hl, hst, hra]
    exact hrb
  case lost =>
    intro hlost h1 h2 h3
    obtain ⟨a, -, b, -, -, c, d, -⟩ := s.errorRecovery_spec p hl 0xA
    have hle : p < (s.errorRecovery p 0xA).ports.length := by rw [((OnlyPort.refl p s).errorRecovery 0xA).length_eq]; exact hl
    refine .intro rfl (u := s.loseConversion p) ?_ ⟨(OnlyPort.refl p s).loseConversion, ?_⟩
    · unfold lossOfConversion
      rw [if_pos (by simp [hv, hlost])]
      cases hst : (s.cc p).st <;> first | rfl | exact absurd hst ‹_›
    · simp only [State.loseConversion, State.cc, State.pd, State.path]
      simp [State.cc_updCc, hle, a, b, c, d]
  case back =>
    intro hst ho hb hf hn hm hrun hpre
    have hcc : ((s.updCc p fun c => { c with toOutOfService := false }).cc p) = { s.cc p with toOutOfService := false } := by
      simp [State.cc, State.cc_updCc, hl]
    have hl' : p < (s.updCc p fun c => { c with toOutOfService := false }).ports.length := by simpa using hl
    obtain ⟨a, -⟩ := State.home_cc hl'
    refine .intro rfl (u := (s.updCc p fun c => { c with toOutOfService := false }).home p) ?_ ⟨((PortAlone.refl p s).updCc _).home, ?_, ?_⟩
    · simp [outOfServiceReturn, hv, hst, ho, hb, hf, hn]
    · rw [a, hcc]
      simp only [homeOf, hcc, ((OnlyPort.refl p s).updCc _).seq_eq, State.preService] at hpre ⊢
      have hpre' : s.seq.reduced = false → s.seq.full = true := by simpa [hrun] using hpre
      simp only [hm, hrun]
      simpa using hpre'
    · rw [State.home_cc_toOutOfService hl', hcc]
  case wait =>
    refine .intro rfl (u := (s.updPd p fun d => { d.asked {} s.frame with lastMsg := s.frame }).send p [.wait]) ?_
      ⟨((PortAlone.refl p s).updPd _).send _, ?_⟩
    · simp [holdMessageAnswer, hv, hh, hst]
    · simp [State.pd, State.send, State.pd_updPd, hl, Pd.asked]
  case keep =>
    intro he
    refine .intro rfl (u := (s.updPd p fun d => { d with lastMsg := s.frame }).send p [.keepAliveAck]) ?_ ⟨((PortAlone.refl p s).updPd _).send _, ?_⟩
    · simp [holdMessageAnswer, hv, hh, hst, he]
    · simp [State.pd, State.send, State.pd_updPd, hl]
  case holdReset =>
    intro hat
    refine .intro rfl (u := (((s.updPath p Path.opened).discharge p false).countUp p .hrRcvd).updPd p fun d =>
      { d with hrInHold := true, hardResets := min 255 (d.hardResets + 1) }) ?_ ⟨((((PortAlone.refl p s).updPath _).discharge _).countUp _).updPd _, ?_⟩
    · simp [holdHardReset, hv, hh, hat]
    · simp [State.pd, State.path, State.cc, State.discharge, State.pd_updPd, State.path_updPath, State.cc_updCc, hl, Path.opened]
  case caps =>
    intro objs o hrun hbest
    refine .intro rfl (u := (s.updPd p fun d =>
      { d with
        want := some { kind := 6, pos := o.pos, mv := o.mv, cur := min o.cur (2700000 / o.mv), maxCur := min o.cur (2700000 / o.mv) }
        awaiting := some s.frame, lastMsg := s.frame }).send p [.request o.pos (min o.cur (2700000 / o.mv))]) ?_
      ⟨((PortAlone.refl p s).updPd _).send _, ?_⟩
    · rw [State.policyRow_of_runs (sinking_runs hsnk)]
      simp [sinkSourceCapReceived, hsnk, hk, hrun, hbest]
    · simp [State.pd, State.send, State.pd_updPd, hl]
  case accept =>
    intro c hw
    refine .intro rfl (u := s.updPd p fun d =>
      { d with next := some c, want := none, acceptFrame := s.frame, snkAccept := some s.frame, awaiting := none, lastMsg := s.frame }) ?_
      ⟨(PortAlone.refl p s).updPd _, ?_⟩
    · rw [State.policyRow_of_runs (sinking_runs hsnk)]
      simp [sinkAcceptReceived, hsnk, hk, hsr, hw]
    · simp [State.pd, State.pd_updPd, hl]
  case ready =>
    intro c hn
    refine ⟨_, rfl, ((OnlyPort.refl p s).policyRow (OnlyPort.refl p s).sinkAcceptReceived), ?_⟩
    rw [State.policyRow_of_runs (sinking_runs hsnk)]
    unfold sinkAcceptReceived
    rw [if_pos (by simp [hsnk, hk]), if_neg (by simp [hsr]), if_pos rfl]
    split
    case h_2 hnone => simp [hn] at hnone
    rename_i c' hc'
    obtain rfl : c = c' := Option.some.inj (hn.symm.trans hc')
    extract_lets a b
    obtain ⟨-, f1, f2, -, -, f5, -⟩ := firstContractDone_spec (s := a) (p := p) (by simpa [a] using hl)
    simp only [State.pd, State.pushEvent_port, b, f1, f2, f5]
    simp [a, State.pd_updPd, hl]

end Sys2Proof.Machine
end

section
/-! PROOF. PR_Swap. -/
namespace Sys2Proof.Machine
variable {p : Nat} {s t : State}

/-! ### A message of the partner leaves all of the port but its policy engine's clock -/

@[simp] theorem State.sinkSpoke_cc (q : Nat) : (s.sinkSpoke p).cc q = s.cc q := by simp [State.cc, State.sinkSpoke]
@[simp] theorem State.sinkSpoke_vc (q : Nat) : (s.sinkSpoke p).vc q = s.vc q := by simp [State.vc, State.sinkSpoke]
@[simp] theorem State.sinkSpoke_sw (q : Nat) : (s.sinkSpoke p).sw q = s.sw q := by simp [State.sw, State.sinkSpoke]
@[simp] theorem State.sinkSpoke_dc (q : Nat) : (s.sinkSpoke p).dc q = s.dc q := by simp [State.dc, State.sinkSpoke]
@[simp] theorem State.sinkSpoke_path (q : Nat) : (s.sinkSpoke p).path q = s.path q := by simp [State.path, State.sinkSpoke]
@[simp] theorem State.sinkSpoke_seq : (s.sinkSpoke p).seq = s.seq := rfl
@[simp] theorem State.sinkSpoke_otp : (s.sinkSpoke p).otp = s.otp := rfl
@[simp] theorem State.sinkSpoke_tester : (s.sinkSpoke p).tester = s.tester := rfl
@[simp] theorem State.sinkSpoke_ridge (r : Nat) : (s.sinkSpoke p).ridge r = s.ridge r := rfl
@[simp] theorem State.sinkSpoke_frame : (s.sinkSpoke p).frame = s.frame := rfl
@[simp] theorem State.sinkSpoke_placed (q : Nat) : (s.sinkSpoke p).placed q = s.placed q := rfl
@[simp] theorem State.sinkSpoke_length : (s.sinkSpoke p).ports.length = s.ports.length := by simp [State.sinkSpoke]
@[simp] theorem portParam_sinkSpoke (q i : Nat) : portParam (s.sinkSpoke p) q i = portParam s q i := rfl

theorem State.sinkSpoke_pd (h : p < s.ports.length) :
    ((s.sinkSpoke p).pd p).next = (s.pd p).next ∧ ((s.sinkSpoke p).pd p).softReset = (s.pd p).softReset ∧
      ((s.sinkSpoke p).pd p).contract = (s.pd p).contract ∧ ((s.sinkSpoke p).pd p).epr = (s.pd p).epr ∧
      ((s.sinkSpoke p).pd p).hrRun = (s.pd p).hrRun ∧ ((s.sinkSpoke p).pd p).rev20 = (s.pd p).rev20 ∧
      ((s.sinkSpoke p).pd p).lastMsg = s.frame := by
  obtain ⟨d, hd, hm, hpd⟩ := State.sinkSpoke_spec h
  simp only [Prod.mk.injEq] at hpd
  obtain ⟨h1, h2, h3, -, h5, h6, -, -, -, -, -, h12, -⟩ := hpd
  simp only [State.pd, hd]
  exact ⟨h2, h3, h1, h6, h12, h5, hm⟩

theorem swapClash_iff : swapClash s p = true ↔ (s.pd p).next ≠ none ∨ (s.sw p).kind ≠ none := by
  simp [swapClash, Option.isSome_iff_ne_none]

theorem swapClash_sinkSpoke (h : p < s.ports.length) : swapClash (s.sinkSpoke p) p = swapClash s p := by
  obtain ⟨h1, -⟩ := State.sinkSpoke_pd h
  simp [swapClash, h1]

/-- R107, R118: a protocol error where no Soft_Reset waits ends a swap in progress. -/
theorem protoError_swap (h : p < s.ports.length) (hsr : (s.pd p).softReset = none) :
    OnlyPort p s (protoError s p) ∧ ((protoError s p).pd p).tx = [.softReset] ∧ ((protoError s p).sw p).kind = none := by
  have hk := s.swapFail_kind p h 2
  refine ⟨(OnlyPort.refl p s).protoError, ?_⟩
  unfold protoError
  rw [if_neg (by simp [hsr])]
  simp only [State.pd, State.sw]
  simp [State.send, State.pd_updPd, h, hk]

/-! ### A swap that has ended leaves its result -/

/-- R121: what a failed swap leaves of its kind. -/
theorem State.swapFail_sw {kd : SwapKind} (r : Nat) (h : p < s.ports.length) (hk : (s.sw p).kind = some kd) :
    ((s.swapFail p r).sw p).kind = none ∧ ((s.swapFail p r).sw p).lastKind = swapCode kd ∧ ((s.swapFail p r).sw p).lastResult = r ∧
      (kd = .pr → ((s.swapFail p r).sw p).prSupp = some s.frame) ∧ ((s.swapFail p r).sw p).dfp = (s.sw p).dfp := by
  unfold State.swapFail State.swapEnds
  rw [hk]
  simp only [State.sw]
  cases kd <;> simp [State.sw_updSw, h, Swap.suppress]

theorem State.attachOver_sw_none (c : Nat) (b : Bool) (h : p < s.ports.length) (hk : (s.sw p).kind = none) :
    ((s.attachOver p c b).port p).sw = { (s.port p).sw with drDue := false } := by
  have he : ∀ r x, s.swapEnds p r x = s.updSw p fun w => { w with drDue := false } := fun r x => by
    unfold State.swapEnds
    rw [hk]
  unfold State.attachOver State.swapFail
  cases b <;> simp [he, State.sw_updSw, h]

theorem State.errorRecovery_sw_none (c : Nat) (h : p < s.ports.length) (hk : (s.sw p).kind = none) :
    ((s.errorRecovery p c).sw p).lastKind = (s.sw p).lastKind ∧ ((s.errorRecovery p c).sw p).lastResult = (s.sw p).lastResult ∧
      ((s.errorRecovery p c).sw p).prSupp = (s.sw p).prSupp := by
  have e := State.attachOver_sw_none c true h hk
  unfold State.errorRecovery State.openPort
  simp [State.sw, State.port_updPort, h, e]

/-- R120: what a PR_Swap leaves that fails into ErrorRecovery. -/
theorem swapToRecovery_spec (h : p < s.ports.length) (hk : (s.sw p).kind = some .pr) :
    ((swapToRecovery s p).cc p).st = .errorRecovery ∧ ((swapToRecovery s p).sw p).kind = none ∧ ((swapToRecovery s p).sw p).lastKind = 1 ∧
      ((swapToRecovery s p).sw p).lastResult = 2 ∧ ((swapToRecovery s p).sw p).prSupp = some s.frame := by
  obtain ⟨k1, k2, k3, k4, -⟩ := State.swapFail_sw 2 h hk
  have hl : p < (s.swapFail p 2).ports.length := by simpa using h
  obtain ⟨a, -, -, -, -, -, -, b, -⟩ := (s.swapFail p 2).errorRecovery_spec p hl (s.pd p).lastEnd
  obtain ⟨c, d, e⟩ := State.errorRecovery_sw_none (s.pd p).lastEnd hl k1
  unfold swapToRecovery
  exact ⟨a, b, by rw [c, k2]; rfl, by rw [d, k3], by rw [e, k4 rfl]⟩

theorem PortAlone.beginSwap {kd : SwapKind} {b : Bool} {n : Nat} (h : PortAlone p s t) : PortAlone p s (beginSwap t p kd b n) := by
  unfold Machine.beginSwap
  exact (h.updSw _).updPd _

theorem PortAlone.prSwapOff (h : PortAlone p s t) : PortAlone p s (prSwapOff t p) := by
  unfold Machine.prSwapOff
  exact ((h.updSw _).updPd _).updPath _

/-- R120: what the part leaves that has stopped drawing. -/
theorem prSwapOff_spec (h : p < s.ports.length) :
    ((prSwapOff s p).sw p).step = 1 ∧ ((prSwapOff s p).sw p).kind = (s.sw p).kind ∧ ((prSwapOff s p).sw p).frame = s.frame ∧
      ((prSwapOff s p).path p).swOn = false ∧ ((prSwapOff s p).path p).vtgt = 2500 ∧ ((prSwapOff s p).pd p).contract = {} := by
  unfold prSwapOff
  simp [State.sw, State.path, State.pd, State.sw_updSw, State.pd_updPd, State.path_updPath, h, Path.opened]

theorem beginSwap_spec {kd : SwapKind} {b : Bool} {n : Nat} (h : p < s.ports.length) :
    ((beginSwap s p kd b n).sw p) = { s.sw p with kind := some kd, mine := b, frame := s.frame, step := n } ∧
      (beginSwap s p kd b n).vc p = s.vc p ∧ (beginSwap s p kd b n).cc p = s.cc p ∧ (beginSwap s p kd b n).dc p = s.dc p ∧
      ((beginSwap s p kd b n).pd p).hrRun = (s.pd p).hrRun ∧ (beginSwap s p kd b n).ports.length = s.ports.length := by
  have hb : ∀ d : Pd, (if b = true then d else d.broken).hrRun = d.hrRun := fun d => by
    cases b
    · show d.broken.hrRun = d.hrRun
      unfold Pd.broken
      split <;> rfl
    · rfl
  unfold beginSwap
  simp [State.sw, State.vc, State.cc, State.dc, State.pd, State.sw_updSw, State.pd_updPd, h, hb]

/-- Settles O34: the branch that each message takes (`swapClash_sinkSpoke`), the part's stop (`prSwapOff_spec`) and its failure (`swapToRecovery_spec`). -/
theorem powerRoleSwaps : Obligations.PowerRoleSwaps := by
  intro s p hs hp
  refine ⟨fun hsnk => ⟨?send, ?accept, ?psRdy⟩, ?timeouts, fun ha hn hk => ⟨?asSource, fun hst hsup hrun => ⟨?never, ?unplaced, ?placed⟩⟩, ?clash⟩
  case send =>
    intro hd hrun hpol hm hq hr hrp hsup hf hpl
    have hl := hs.port_lt (sinking_serves hsnk)
    obtain ⟨b1, -⟩ := beginSwap_spec (s := s) (kd := .pr) (b := true) (n := 0) hl
    refine .intro rfl (u := ((beginSwap s p .pr true 0).updCc p fun c => { c with alloc := true }).send p [.prSwap]) ?_
      ⟨(((PortAlone.refl p s).beginSwap).updCc _).send _, ?_⟩
    · rw [State.policyRow_of_runs (sinking_runs hsnk)]
      simp [prSwapSend, hsnk, hd, hrun, hpol, hm, hq, hr, hrp, suppressed, hsup, hf, hpl]
    · have hlb : p < (beginSwap s p .pr true 0).ports.length := by rw [(PortAlone.refl p s).beginSwap.2.1]; exact hl
      simp only [State.sw, State.cc, State.pd] at b1 ⊢
      simp [State.send, State.cc_updCc, State.pd_updPd, hlb, b1]
  case accept =>
    intro hk hm hst
    have hl := hs.port_lt (sinking_serves hsnk)
    obtain ⟨a, -, b, c, d, e⟩ := prSwapOff_spec (s := s.heard p) (p := p) (by simpa [State.heard] using hl)
    refine .intro rfl (u := prSwapOff (s.heard p) p) ?_ ⟨((PortAlone.refl p s).heard).prSwapOff, a, c, d, e, b⟩
    rw [State.policyRow_of_runs (sinking_runs hsnk)]
    simp [prSwapAccept, hsnk, hk, hm, hst]
  case psRdy =>
    intro hk hst
    have hl := hs.port_lt (sinking_serves hsnk)
    refine .intro rfl (u := (s.heard p).updSw p fun w => { w with step := 2, frame := s.frame }) ?_ ⟨((PortAlone.refl p s).heard).updSw _, ?_⟩
    · rw [State.policyRow_of_runs (sinking_runs hsnk)]
      simp [prSwapPsRdy, hsnk, hk, hst, State.heard]
    · simp [State.sw, State.heard, State.sw_updSw, hl]
  case timeouts =>
    intro hv hr hk c hc
    have hl := hs.port_lt hv
    obtain ⟨rfl, hst, hf⟩ | ⟨rfl, hst, hf, hm⟩ := hc
    · refine .intro rfl (u := swapToRecovery s p) ?_ ⟨(OnlyPort.refl p s).swapToRecovery, swapToRecovery_spec hl hk⟩
      rw [State.policyRow_of_runs hr]
      simp [prSwapSourceOffTimeout, hv, hr, hk, hst, State.framesSince, hf]
    · refine .intro rfl (u := swapToRecovery s p) ?_ ⟨(OnlyPort.refl p s).swapToRecovery, swapToRecovery_spec hl hk⟩
      rw [State.policyRow_of_runs hr]
      simp [prSwapVbusConfirmTimeout, hv, hr, hk, hst, State.framesSince, hf, hm]
  case asSource =>
    intro hst
    have hl := hs.port_lt (attachedPd_serves ha)
    have hcl : swapClash (s.sinkSpoke p) p = false := by rw [swapClash_sinkSpoke hl]; simp [swapClash, hn, hk]
    have hl' : p < (s.sinkSpoke p).ports.length := by simpa using hl
    have hk' : ((s.sinkSpoke p).port p).sw.kind = none := by simpa [State.sw, State.sinkSpoke] using hk
    refine .intro rfl (u := (s.sinkSpoke p).send p
      [if s.otp.dualRole.testBit p = false then .notSupported else if (s.sw p).prSupp.isSome then .wait else .reject]) ?_
      ⟨(PortAlone.refl p s).sinkSpoke.send _, ?_⟩
    · rw [State.policyRow_of_runs (attachedPd_runs ha)]
      simp [prSwapReceived, ha, hcl, hst, suppressed]
    · simp [State.sw, State.pd, State.send, State.pd_updPd, hl, hk']
  case never =>
    intro hpol
    have hl := hs.port_lt (attachedPd_serves ha)
    have hcl : swapClash (s.sinkSpoke p) p = false := by rw [swapClash_sinkSpoke hl]; simp [swapClash, hn, hk]
    have hl' : p < (s.sinkSpoke p).ports.length := by simpa using hl
    have hk' : ((s.sinkSpoke p).port p).sw.kind = none := by simpa [State.sw, State.sinkSpoke] using hk
    refine .intro rfl (u := (s.sinkSpoke p).send p [.reject]) ?_ ⟨(PortAlone.refl p s).sinkSpoke.send _, ?_⟩
    · rw [State.policyRow_of_runs (attachedPd_runs ha)]
      simp [prSwapReceived, ha, hcl, hst, suppressed, hsup, hrun, hpol]
    · simp [State.sw, State.pd, State.send, State.pd_updPd, hl, hk']
  case unplaced =>
    intro hpol hpl
    have hl := hs.port_lt (attachedPd_serves ha)
    have hcl : swapClash (s.sinkSpoke p) p = false := by rw [swapClash_sinkSpoke hl]; simp [swapClash, hn, hk]
    have hl' : p < (s.sinkSpoke p).ports.length := by simpa using hl
    have hk' : ((s.sinkSpoke p).port p).sw.kind = none := by simpa [State.sw, State.sinkSpoke] using hk
    refine .intro rfl (u := ((s.sinkSpoke p).updCc p fun c => { c with alloc := true }).send p [.wait]) ?_
      ⟨((PortAlone.refl p s).sinkSpoke.updCc _).send _, ?_⟩
    · rw [State.policyRow_of_runs (attachedPd_runs ha)]
      simp [prSwapReceived, ha, hcl, hst, suppressed, hsup, hrun, hpol, hpl]
    · simp [State.sw, State.pd, State.cc, State.send, State.cc_updCc, State.pd_updPd, hl, hk']
  case placed =>
    intro hpol hpl
    have hl := hs.port_lt (attachedPd_serves ha)
    have hcl : swapClash (s.sinkSpoke p) p = false := by rw [swapClash_sinkSpoke hl]; simp [swapClash, hn, hk]
    have hl' : p < (s.sinkSpoke p).ports.length := by simpa using hl
    obtain ⟨b1, -, -, -, -, hlb⟩ := beginSwap_spec (s := s.sinkSpoke p) (kd := .pr) (b := false) (n := 1) hl'
    obtain ⟨a, b, -, c, -⟩ := prSwapOff_spec (s := beginSwap (s.sinkSpoke p) p .pr false 1) (p := p) (by rw [hlb]; exact hl')
    have hk' : PortAlone p s (prSwapOff (beginSwap (s.sinkSpoke p) p .pr false 1) p) := (PortAlone.refl p s).sinkSpoke.beginSwap.prSwapOff
    refine .intro rfl (u := (prSwapOff (beginSwap (s.sinkSpoke p) p .pr false 1) p).send p [.accept]) ?_ ⟨hk'.send _, ?_⟩
    · rw [State.policyRow_of_runs (attachedPd_runs ha)]
      simp [prSwapReceived, ha, hcl, hst, suppressed, hsup, hrun, hpol, hpl]
    · rw [b1] at b
      simp only [State.sw, State.pd, State.path] at a b c ⊢
      simp [State.send, State.pd_updPd, hk'.2.1, hl, a, b, c]
  case clash =>
    intro hcl ha hsr c b hc
    have hl := hs.port_lt (attachedPd_serves ha)
    have hcl' : swapClash (s.sinkSpoke p) p = true := by rw [swapClash_sinkSpoke hl, swapClash_iff]; exact hcl.symm
    obtain ⟨-, hsr', -⟩ := State.sinkSpoke_pd hl
    obtain ⟨e, f, g⟩ := protoError_swap (s := s.sinkSpoke p) (p := p) (by simpa using hl) (by rw [hsr', hsr])
    have hq := (PortAlone.refl p s).sinkSpoke.only.trans e
    obtain rfl | rfl | rfl := hc
    · refine .intro rfl (u := protoError (s.sinkSpoke p) p) ?_ ⟨hq, f, g⟩
      rw [State.policyRow_of_runs (attachedPd_runs ha)]
      simp [prSwapReceived, ha, hcl']
    · refine .intro rfl (u := protoError (s.sinkSpoke p) p) ?_ ⟨hq, f, g⟩
      rw [State.policyRow_of_runs (attachedPd_runs ha)]
      simp [drSwapReceived, ha, hcl']
    · refine .intro rfl (u := protoError (s.sinkSpoke p) p) ?_ ⟨hq, f, g⟩
      rw [State.policyRow_of_runs (attachedPd_runs ha)]
      simp [vconnSwapReceived, ha, hcl']

end Sys2Proof.Machine
end

section
/-! PROOF. DR_Swap and VCONN_Swap. -/
namespace Sys2Proof.Machine
variable {p : Nat} {s t : State}

/-! ### A message that goes out leaves all of the port but what is on the line -/

@[simp] theorem State.send_cc (m : List PdTx) (q : Nat) : (s.send p m).cc q = s.cc q := by simp [State.cc, State.send]
@[simp] theorem State.send_vc (m : List PdTx) (q : Nat) : (s.send p m).vc q = s.vc q := by simp [State.vc, State.send]
@[simp] theorem State.send_sw (m : List PdTx) (q : Nat) : (s.send p m).sw q = s.sw q := by simp [State.sw, State.send]
@[simp] theorem State.send_dc (m : List PdTx) (q : Nat) : (s.send p m).dc q = s.dc q := by simp [State.dc, State.send]
@[simp] theorem State.send_path (m : List PdTx) (q : Nat) : (s.send p m).path q = s.path q := by simp [State.path, State.send]
@[simp] theorem State.send_length (m : List PdTx) : (s.send p m).ports.length = s.ports.length := by simp [State.send]

theorem State.send_tx (m : List PdTx) (h : p < s.ports.length) : ((s.send p m).pd p).tx = m := by
  simp [State.pd, State.send, State.pd_updPd, h]

theorem State.send_pd (m : List PdTx) (h : p < s.ports.length) :
    (s.send p m).pd p = { s.pd p with tx := m, txRev20 := (s.pd p).rev20 } := by
  simp [State.pd, State.send, State.pd_updPd, h]

theorem PortAlone.vconnSwapTake (h : PortAlone p s t) : PortAlone p s (vconnSwapTake t p) := h.vconnOn.updSw _

theorem modeOn_sinkSpoke : modeOn (s.sinkSpoke p) p = modeOn s p := by simp [modeOn]

theorem drAccepts_sinkSpoke : drAccepts (s.sinkSpoke p) p = drAccepts s p := by simp [drAccepts]

theorem vconnNeeded_sinkSpoke (h : p < s.ports.length) : vconnNeeded ((s.sinkSpoke p).pd p) = vconnNeeded (s.pd p) := by
  obtain ⟨-, -, h3, h4, -⟩ := State.sinkSpoke_pd h
  simp [vconnNeeded, h3, h4]

/-- R127: a swap in progress fails as the roles of the attach come back. -/
theorem State.resetRoles_swap {kd : SwapKind} (h : p < s.ports.length) (hk : (s.sw p).kind = some kd) :
    ((s.resetRoles p).sw p).lastKind = swapCode kd ∧ ((s.resetRoles p).sw p).lastResult = 3 ∧ ((s.resetRoles p).sw p).dfp = (s.sw p).attDfp := by
  obtain ⟨-, a, b, -⟩ := State.swapFail_sw 3 h hk
  unfold State.resetRoles
  dsimp only
  rw [if_pos (by simp [hk])]
  simp only [State.sw] at a b
  split
  · simp [State.sw, State.setDfp_port_sw, State.sw_updSw, h, a, b]
  · simp [State.sw, State.setDfp_port_sw, State.sw_updSw, State.discharge, h, a, b]

/-- R127: what a Hard Reset leaves of a swap in progress: its result, and the data role of the attach. -/
theorem State.hardReset_swap {kd : SwapKind} (code : Nat) (sent : Bool) (h : p < s.ports.length) (hk : (s.sw p).kind = some kd) :
    ((s.hardReset p code sent).sw p).lastKind = swapCode kd ∧ ((s.hardReset p code sent).sw p).lastResult = 3 ∧
      ((s.hardReset p code sent).sw p).dfp = (s.sw p).attDfp := by
  unfold State.hardReset
  extract_lets a run inSwap back b c d e f x src g i j k l m o
  have hin : inSwap = true := by
    simp only [State.sw] at hk
    simp [inSwap, State.sw, a, hk]
  rw [if_neg (by simp [hin])]
  have hdsw : d.sw p = s.sw p := by simp [State.sw, d, c, b, a]
  have hld : p < d.ports.length := by simpa [d, c, b, a] using h
  obtain ⟨e1, e2, e3⟩ : (e.sw p).lastKind = swapCode kd ∧ (e.sw p).lastResult = 3 ∧ (e.sw p).dfp = (d.sw p).attDfp :=
    State.resetRoles_swap hld (by rw [hdsw, hk])
  have hle : p < e.ports.length := by
    rw [show e.ports.length = d.ports.length from ((OnlyPort.refl p d).resetRoles).length_eq]
    exact hld
  have hll : p < l.ports.length := by simpa [l, k, j, i, State.send, g, x, f] using hle
  have hos : (o.port p).sw = (m.port p).sw := by
    simp only [o]
    split <;> simp
  rw [hdsw] at e3
  simp only [State.sw] at e1 e2 e3 ⊢
  simp [hos, m, l, k, j, i, State.send, g, x, f, State.sw_updSw, hle, e1, e2, e3]

/-- What an ended swap leaves that has been completed. -/
theorem State.swapDone_sw {kd : SwapKind} (h : p < s.ports.length) (hk : (s.sw p).kind = some kd) :
    ((s.swapDone p).sw p).kind = none ∧ ((s.swapDone p).sw p).lastKind = swapCode kd ∧ ((s.swapDone p).sw p).lastResult = 0 ∧
      ((s.swapDone p).sw p).dfp = (s.sw p).dfp ∧ ((s.swapDone p).sw p).vconnSrc = (s.sw p).vconnSrc := by
  unfold State.swapDone
  rw [hk]
  simp [State.sw, State.sw_updSw, h]

/-- R122: what a DR_Swap leaves that has changed the role. -/
theorem drComplete_spec (h : p < s.ports.length) (hk : (s.sw p).kind = some .dr) :
    ((drComplete s p).sw p).kind = none ∧ ((drComplete s p).sw p).dfp = (!(s.sw p).dfp) ∧ ((drComplete s p).sw p).lastKind = 2 ∧
      ((drComplete s p).sw p).lastResult = 0 ∧ ((drComplete s p).pd p).tx = (s.pd p).tx := by
  unfold drComplete
  extract_lets dfp a b c
  have ha : a.sw p = { s.sw p with dfp := dfp } := State.setDfp_port_sw dfp h
  have hla : p < a.ports.length := by simpa [a] using h
  obtain ⟨b1, b2, b3, b4, -⟩ := State.swapDone_sw (s := a) hla (by rw [ha]; exact hk)
  have hc : c.sw p = b.sw p := by simp [State.sw, c]
  have hpd : c.pd p = s.pd p := by simp [State.pd, c, b, a]
  have hfin : ∀ u : State, u.sw p = c.sw p → u.pd p = c.pd p → (u.sw p).kind = none ∧ (u.sw p).dfp = (!(s.sw p).dfp) ∧ (u.sw p).lastKind = 2 ∧
      (u.sw p).lastResult = 0 ∧ (u.pd p).tx = (s.pd p).tx := fun u hu hq => by
    rw [hu, hq, hc, hpd]
    exact ⟨b1, by rw [show b = a.swapDone p from rfl, b4, ha], b2, b3, rfl⟩
  split
  · split
    · exact hfin _ (by simp [State.sw]) (by simp [State.pd])
    · exact hfin _ rfl rfl
  · exact hfin _ (by simp [State.sw]) (by simp [State.pd])

/-- The wait of R91 leaves the swap alone. -/
theorem State.rewait_sw : (s.rewait p).sw p = s.sw p ∧ ((s.rewait p).pd p).tx = (s.pd p).tx ∧ (s.rewait p).vc p = s.vc p := by
  unfold State.rewait State.waitTx
  split
  · split
    · refine ⟨by simp [State.sw], ?_, by simp [State.vc]⟩
      simp only [State.pd, State.updCc_port_pd]
      exact s.port_updPort_part p p (fun x => x.pd.tx) _ fun _ => rfl
    · exact ⟨rfl, rfl, rfl⟩
  · exact ⟨rfl, rfl, rfl⟩

theorem State.vconnOff_src (h : p < s.ports.length) : ((s.vconnOff p).sw p).vconnSrc = false := by
  unfold State.vconnOff
  dsimp only
  split <;> simp [State.sw, State.sw_updSw, h]

theorem leaveSink_snkRestore (h : p < s.ports.length) : ((leaveSink s p).pd p).snkRestore = none := by
  unfold leaveSink
  extract_lets a
  have hk : OnlyPort p s ((a.updPath p Path.opened).vconnOff p) := ((((OnlyPort.refl p s).attachOver 1 false).updPd _).updPath _).vconnOff
  obtain ⟨-, -, -, -, -, -, -, e⟩ := goHome_spec (s := (a.updPath p Path.opened).vconnOff p) (p := p) (by rw [hk.length_eq]; exact h)
  rw [e]
  simp [State.pd, a, State.pd_updPd, h]

/-- What VCONN offered again leaves: on, unless a trip has opened the switch for the attach. -/
theorem State.vconnOn_vc (h : p < s.ports.length) (hg : (s.ridge (ridgeOfPort p)).vconnInGood = true) :
    ((s.vc p).blocked = false → ((s.vconnOn p).vc p).on = true) ∧ ((s.vc p).blocked = true → (s.vconnOn p).vc p = s.vc p) := by
  unfold State.vconnOn
  refine ⟨fun hb => ?_, fun hb => ?_⟩
  · rw [if_pos (by simp [hg, hb])]
    simp [State.vc, State.vc_updVc, h]
  · rw [if_neg (by simp [hb])]

/-- R125: what the part leaves that takes VCONN over. -/
theorem vconnSwapTake_spec (h : p < s.ports.length) :
    ((vconnSwapTake s p).sw p).step = 1 ∧ ((vconnSwapTake s p).sw p).kind = (s.sw p).kind ∧ (vconnSwapTake s p).vc p = (s.vconnOn p).vc p := by
  unfold vconnSwapTake
  simp [State.sw, State.vc, State.sw_updSw, h]

theorem State.swapFail_counters {kd : SwapKind} (r : Nat) (h : p < s.ports.length) (hk : (s.sw p).kind = some kd) :
    ((s.swapFail p r).port p).counters = (s.port p).counters.modify 9 sat1 := by
  unfold State.swapFail State.swapEnds
  rw [hk]
  simp [State.countUp, State.port_updPort, h, PCount.idx]

/-- Settles O35: the branch that each message takes, and what a DR_Swap (`drComplete_spec`), a failure (`State.swapFail_sw`) and a Hard Reset
(`State.hardReset_swap`) leave. -/
theorem dataAndVconnSwaps : Obligations.DataAndVconnSwaps := by
  intro s p hs hp
  refine ⟨?dr, ?vconn, ?vconnSend, fun hsrc hk => ⟨?handed, ?late⟩, fun kd ha hk hm hst => ⟨?unanswered, ?refused, ?accepted⟩, ?prEnd, ?drEnd, ?vcEnd, ?restore⟩
  case dr =>
    intro ha hn hk
    have hl := hs.port_lt (attachedPd_serves ha)
    have hcl : swapClash (s.sinkSpoke p) p = false := by rw [swapClash_sinkSpoke hl]; simp [swapClash, hn, hk]
    have hl' : p < (s.sinkSpoke p).ports.length := by simpa using hl
    obtain ⟨b1, -, b3, -, b5, hlb⟩ := beginSwap_spec (s := s.sinkSpoke p) (kd := .dr) (b := false) (n := 0) hl'
    have hq := (PortAlone.refl p s).sinkSpoke.beginSwap (kd := .dr) (b := false) (n := 0)
    refine ⟨fun hsup b => ?_, fun hsup hmode b => ?_, fun hsup hmode hrun hacc b => ?_, fun hsup hmode hrun hacc => ⟨?_, ?_⟩⟩
    · refine .intro rfl (u := (s.sinkSpoke p).send p [.wait]) ?_ ⟨(PortAlone.refl p s).sinkSpoke.send _, ?_⟩
      · rw [State.policyRow_of_runs (attachedPd_runs ha)]
        simp [drSwapReceived, ha, hcl, suppressed, hsup]
      · simp [State.sw, State.pd, State.send, State.pd_updPd, State.sinkSpoke, hl]
    · have hlb' : p < (beginSwap (s.sinkSpoke p) p .dr false 0).ports.length := by rw [hlb]; exact hl'
      obtain ⟨-, h1, -, -, h2, h3, h4, -⟩ := State.hardReset_spec 4 true hlb'
      obtain ⟨h5, h6, h7⟩ := State.hardReset_swap (kd := .dr) 4 true hlb' (by rw [b1])
      refine .intro rfl (u := (beginSwap (s.sinkSpoke p) p .dr false 0).hardReset p 4 true) ?_ ⟨hq.only.hardReset _ _, h2, h1, h4, h3, h5, h6, ?_⟩
      · rw [State.policyRow_of_runs (attachedPd_runs ha)]
        simp [drSwapReceived, ha, hcl, suppressed, hsup, modeOn_sinkSpoke, hmode]
      · rw [h7, b1]
        simp
    · refine .intro rfl (u := (s.sinkSpoke p).send p [.reject]) ?_ ⟨(PortAlone.refl p s).sinkSpoke.send _, ?_⟩
      · rw [State.policyRow_of_runs (attachedPd_runs ha)]
        simp [drSwapReceived, ha, hcl, suppressed, hsup, modeOn_sinkSpoke, hmode, hrun, drAccepts_sinkSpoke, hacc]
      · simp [State.sw, State.pd, State.send, State.pd_updPd, State.sinkSpoke, hl]
    · have hlb' : p < ((beginSwap (s.sinkSpoke p) p .dr false 0).send p [.accept]).ports.length := by rw [State.send_length, hlb]; exact hl'
      obtain ⟨d1, d2, d3, d4, d5⟩ := drComplete_spec hlb' (by rw [State.send_sw, b1])
      obtain ⟨r1, r2, -⟩ := State.rewait_sw (s := drComplete ((beginSwap (s.sinkSpoke p) p .dr false 0).send p [.accept]) p) (p := p)
      refine .intro rfl (u := (drComplete ((beginSwap (s.sinkSpoke p) p .dr false 0).send p [.accept]) p).rewait p) ?_
        ⟨((hq.only.send _).drComplete).rewait, ?_⟩
      · rw [State.policyRow_of_runs (attachedPd_runs ha)]
        simp [drSwapReceived, ha, hcl, suppressed, hsup, modeOn_sinkSpoke, hmode, hrun, drAccepts_sinkSpoke, hacc]
      · rw [r1, r2, d1, d2, d3, d4, d5, State.send_tx _ (by rw [hlb]; exact hl'), State.send_sw, b1]
        simp
    · have hlb' : p < ((beginSwap (s.sinkSpoke p) p .dr false 0).send p [.accept]).ports.length := by rw [State.send_length, hlb]; exact hl'
      obtain ⟨-, -, -, -, h2, h3, -⟩ := State.hardReset_spec 4 true hlb'
      obtain ⟨-, h6, h7⟩ := State.hardReset_swap (kd := .dr) 4 true hlb' (by rw [State.send_sw, b1])
      refine .intro rfl (u := ((beginSwap (s.sinkSpoke p) p .dr false 0).send p [.accept]).hardReset p 4 true) ?_
        ⟨(hq.only.send _).hardReset _ _, h2, h3, h6, ?_⟩
      · rw [State.policyRow_of_runs (attachedPd_runs ha)]
        simp [drSwapReceived, ha, hcl, suppressed, hsup, modeOn_sinkSpoke, hmode, hrun, drAccepts_sinkSpoke, hacc]
      · rw [h7, State.send_sw, b1]
        simp
  case vconn =>
    intro hsrc hn hk hsup
    have hl := hs.port_lt (sourcing_serves hsrc)
    have ha : attachedPd s p = true := attachedPd_iff.2 (.inl hsrc)
    obtain ⟨-, -, hst, -⟩ := sourcing_iff.1 hsrc
    have hcl : swapClash (s.sinkSpoke p) p = false := by rw [swapClash_sinkSpoke hl]; simp [swapClash, hn, hk]
    have hl' : p < (s.sinkSpoke p).ports.length := by simpa using hl
    refine ⟨fun hpol => ?_, fun hvs hpol hneed => ?_, fun hvs hpol hgood => ?_⟩
    · refine .intro rfl (u := (s.sinkSpoke p).send p [.reject]) ?_ ⟨(PortAlone.refl p s).sinkSpoke.send _, ?_⟩
      · rw [State.policyRow_of_runs (sourcing_runs hsrc)]
        simp [vconnSwapReceived, ha, hcl, suppressed, hsup, hst, hpol]
      · simp [State.vc, State.pd, State.send, State.pd_updPd, State.sinkSpoke, hl]
    · obtain ⟨b1, b2, -, -, -, hlb⟩ := beginSwap_spec (s := s.sinkSpoke p) (kd := .vconn) (b := false) (n := 2) hl'
      have hlb' : p < (beginSwap (s.sinkSpoke p) p .vconn false 2).ports.length := by rw [hlb]; exact hl'
      refine .intro rfl (u := (beginSwap (s.sinkSpoke p) p .vconn false 2).send p [.accept]) ?_
        ⟨((PortAlone.refl p s).sinkSpoke.beginSwap).send _, ?_⟩
      · rw [State.policyRow_of_runs (sourcing_runs hsrc)]
        simp [vconnSwapReceived, ha, hcl, suppressed, hsup, hst, hpol, hvs, vconnNeeded_sinkSpoke hl, hneed]
      · simp [State.send_tx, hlb', b1, b2]
    · obtain ⟨b1, b2, -, -, -, hlb⟩ := beginSwap_spec (s := s.sinkSpoke p) (kd := .vconn) (b := false) (n := 1) hl'
      have hlb' : p < (beginSwap (s.sinkSpoke p) p .vconn false 1).ports.length := by rw [hlb]; exact hl'
      have hkk := (PortAlone.refl p s).sinkSpoke.beginSwap (kd := .vconn) (b := false) (n := 1)
      have hgr : ((beginSwap (s.sinkSpoke p) p .vconn false 1).ridge (ridgeOfPort p)).vconnInGood = true := by
        rw [hkk.1]
        exact hgood
      obtain ⟨v1, v2⟩ := State.vconnOn_vc hlb' hgr
      obtain ⟨w1, w2, w3⟩ := vconnSwapTake_spec (s := beginSwap (s.sinkSpoke p) p .vconn false 1) hlb'
      rw [b2, State.sinkSpoke_vc] at v1 v2
      refine .intro rfl (u := (vconnSwapTake (beginSwap (s.sinkSpoke p) p .vconn false 1) p).send p [.accept]) ?_ ⟨hkk.vconnSwapTake.send _, ?_⟩
      · rw [State.policyRow_of_runs (sourcing_runs hsrc)]
        simp [vconnSwapReceived, ha, hcl, suppressed, hsup, hst, hpol, hvs, hgood]
      · refine ⟨State.send_tx _ (by rw [hkk.vconnSwapTake.2.1]; exact hl), ?_⟩
        simp only [State.send_sw, State.send_vc, w1, w2, w3, b1, true_and]
        exact ⟨v1, fun hb => by rw [v2 hb]⟩
  case vconnSend =>
    intro hsrc hvs hpol hgood hsent hr hsup hm hmay
    have hl := hs.port_lt (sourcing_serves hsrc)
    obtain ⟨b1, -, -, -, -, hlb⟩ := beginSwap_spec (s := s) (kd := .vconn) (b := true) (n := 0) hl
    have hlb' : p < (beginSwap s p .vconn true 0).ports.length := by rw [hlb]; exact hl
    refine .intro rfl (u := (((beginSwap s p .vconn true 0).updSw p fun w => { w with vcSent := true }).send p [.vconnSwap]).updPd p fun d =>
      { d with clear := false, collision := none }) ?_ ⟨((((PortAlone.refl p s).beginSwap).updSw _).send _).updPd _, ?_⟩
    · rw [State.policyRow_of_runs (sourcing_runs hsrc)]
      unfold vconnSwapSend
      rw [if_pos (by simp [hsrc, hvs, hpol, hgood, hsent, hr, suppressed, hsup, hm]), State.startSeq_of_mayStart hmay]
    · simp only [State.sw, State.pd] at b1 ⊢
      simp [State.send, State.pd_updPd, State.sw_updSw, hlb', b1]
  case handed =>
    intro hst
    have hl := hs.port_lt (sourcing_serves hsrc)
    have hlh : p < ((s.heard p).vconnOff p).ports.length := by simpa [State.heard] using hl
    have hon := (s.heard p).vconnOff_on p (by simpa [State.heard] using hl)
    have hkk : (((s.heard p).vconnOff p).sw p).kind = some .vconn := by simpa [State.sw, State.heard] using hk
    have hvs : (((s.heard p).vconnOff p).sw p).vconnSrc = false := State.vconnOff_src (by simpa [State.heard] using hl)
    obtain ⟨d1, d2, d3, -, d5⟩ := State.swapDone_sw hlh hkk
    obtain ⟨r1, -, r3⟩ := State.rewait_sw (s := ((s.heard p).vconnOff p).swapDone p) (p := p)
    refine .intro rfl (u := (((s.heard p).vconnOff p).swapDone p).rewait p) ?_ ⟨(((OnlyPort.refl p s).heard.vconnOff).swapDone).rewait, ?_⟩
    · rw [State.policyRow_of_runs (sourcing_runs hsrc)]
      simp [vconnSwapPartnerPsRdy, hsrc, hk, hst]
    · rw [r1, r3, d1, d2, d3, d5, hvs]
      refine ⟨?_, rfl, rfl, rfl, rfl⟩
      simp only [State.vc, State.swapDone_port_vc]
      exact hon
  case late =>
    intro hst hf
    have hl := hs.port_lt (sourcing_serves hsrc)
    have hgo : vconnSourceTimeout p s = (if (s.sw p).step = 1 then s.vconnOff p else s).hardReset p 4 true := by
      unfold vconnSourceTimeout
      exact if_pos (by simp [hsrc, hk, hst, State.framesSince, hf])
    refine .intro rfl (by rw [State.policyRow_of_runs (sourcing_runs hsrc), hgo]) ?_
    split
    · exact afterHardReset_of_before (OnlyPort.refl p s).vconnOff (by simp) (by simp) (fun h => by simpa using h)
        (State.hardReset_spec 4 true (by simpa using hl))
    · exact State.hardReset_spec 4 true hl
  case unanswered =>
    intro hf
    have hl := hs.port_lt (attachedPd_serves ha)
    obtain ⟨a, b, c, -⟩ := State.swapFail_sw 2 hl hk
    refine .intro rfl (u := (s.swapFail p 2).seqOver p) ?_ ⟨((OnlyPort.refl p s).swapFail _).seqOver, ?_⟩
    · rw [State.policyRow_of_runs (attachedPd_runs ha)]
      simp [swapResponseTimeout, ha, hk, hm, hst, State.framesSince, hf]
    · simp only [State.sw, State.seqOver_port_sw] at a b c ⊢
      exact ⟨a, b, c⟩
  case refused =>
    intro r hsr hne
    have hl := hs.port_lt (attachedPd_serves ha)
    have hlh : p < (s.heard p).ports.length := by simpa [State.heard] using hl
    have hkh : ((s.heard p).sw p) = s.sw p := by simp [State.sw, State.heard]
    have hsrh : ((s.heard p).pd p).softReset = none := by simpa [State.pd, State.heard, State.pd_updPd, hl] using hsr
    obtain ⟨a, b, c, -⟩ := State.swapFail_sw (s := s.heard p) 1 hlh (by rw [hkh]; exact hk)
    have d := State.swapFail_counters (s := s.heard p) 1 hlh (by rw [hkh]; exact hk)
    refine .intro rfl (u := ((s.heard p).swapFail p 1).seqOver p) ?_ ⟨((OnlyPort.refl p s).heard.swapFail _).seqOver, ?_⟩
    · rw [State.policyRow_of_runs (attachedPd_runs ha)]
      cases r <;> first | exact absurd rfl hne | simp [swapReplyReceived, ha, hkh, hk, hm, hst, hsrh]
    · simp only [State.sw, State.seqOver_port_sw, State.seqOver_port_counters] at a b c ⊢
      exact ⟨a, b, c, by rw [d]; simp [State.heard]⟩
  case accepted =>
    intro hsr hdr
    subst hdr
    have hl := hs.port_lt (attachedPd_serves ha)
    have hlh : p < (s.heard p).ports.length := by simpa [State.heard] using hl
    have hkh : ((s.heard p).sw p) = s.sw p := by simp [State.sw, State.heard]
    have hsrh : ((s.heard p).pd p).softReset = none := by simpa [State.pd, State.heard, State.pd_updPd, hl] using hsr
    obtain ⟨a, b, -, c, -⟩ := drComplete_spec (s := s.heard p) hlh (by rw [hkh]; exact hk)
    refine .intro rfl (u := (drComplete (s.heard p) p).seqOver p) ?_ ⟨((OnlyPort.refl p s).heard.drComplete).seqOver, ?_⟩
    · rw [State.policyRow_of_runs (attachedPd_runs ha)]
      simp [swapReplyReceived, ha, hkh, hk, hm, hst, hsrh]
    · rw [hkh] at b
      simp only [State.sw, State.seqOver_port_sw] at a b c ⊢
      exact ⟨a, b, c⟩
  case prEnd =>
    intro hr
    have hl : p < s.ports.length := by rw [hs.1]; exact hp
    refine .intro rfl (u := s.updSw p fun w => { w with prSupp := none }) (by simp [swapSuppressionEnd, hr]) ⟨(PortAlone.refl p s).updSw _, ?_⟩
    simp [State.sw, State.sw_updSw, hl]
  case drEnd =>
    intro hr
    have hl : p < s.ports.length := by rw [hs.1]; exact hp
    refine .intro rfl (u := s.updSw p fun w => { w with drSupp := none }) (by simp [swapSuppressionEnd, hr]) ⟨(PortAlone.refl p s).updSw _, ?_⟩
    simp [State.sw, State.sw_updSw, hl]
  case vcEnd =>
    intro hr
    have hl : p < s.ports.length := by rw [hs.1]; exact hp
    refine .intro rfl (u := s.updSw p fun w => { w with vcSupp := none }) (by simp [swapSuppressionEnd, hr]) ⟨(PortAlone.refl p s).updSw _, ?_⟩
    simp [State.sw, State.sw_updSw, hl]
  case restore =>
    intro hv hst hr hv4
    have hl := hs.port_lt hv
    obtain ⟨a, -, b, -, d⟩ := leaveSink_spec hl
    refine .intro rfl (u := leaveSink s p) ?_ ⟨(OnlyPort.refl p s).leaveSink, a, b, leaveSink_snkRestore hl, d⟩
    simp [sinkVbusRestoreTimeout, hv, hst, hr, hv4]

end Sys2Proof.Machine
end

section
/-! PROOF. Port trips. -/
namespace Sys2Proof.Machine
variable {p : Nat} {s : State}

/-- R255: a raised bit leaves every other sticky bit of the block set. -/
theorem Flt.occur_sticky_mono (f : Flt) (i fr st j : Nat) (h : f.sticky.getLsbD j = true) : (f.occur i fr st).sticky.getLsbD j = true := by
  unfold Flt.occur
  dsimp only
  split
  case isTrue h0 => simp [h0] at h
  case isFalse => simp [h]

theorem State.raise_sticky_mono (b : Blk) (i j : Nat) (hb : b.here s) (h : (s.flt b).sticky.getLsbD j = true) :
    ((s.raise b i).flt b).sticky.getLsbD j = true := by
  obtain ⟨a, n, q, e⟩ | ⟨-, r⟩ := s.raise_shape b i
  · have w : ((s.raise b i).flt b) = (s.setFlt b ((s.flt b).occur i s.firstFrame s.stampNow)).flt b := by
      rw [e]; cases b <;> rfl
    rw [w, s.flt_setFlt b _ hb]
    exact Flt.occur_sticky_mono _ _ _ _ _ h
  · rw [r]
    exact h

/-! ### What a take-down leaves of the path's trip record and of the count of trips -/

/-- The record a path keeps of its trips: how many count, whether they latched it, and the last cause. -/
def Path.tripRecord (h : Path) : Nat × Bool × Nat := (h.trips, h.latched, h.lastTrip)

theorem Path.stepOver_tripRecord (x : Path) : x.stepOver.tripRecord = x.tripRecord := by
  unfold Path.stepOver
  split <;> rfl

theorem State.voidContract_tripRecord (c q : Nat) :
    ((s.voidContract p c).port q).path.tripRecord = (s.port q).path.tripRecord := by
  have h : ∀ u : State, ((u.updPath p fun x => { x.stepOver with itgt := 0x7FFF }).port q).path.tripRecord = (u.port q).path.tripRecord :=
    fun u => u.port_updPath_part p q Path.tripRecord _ fun x => x.stepOver_tripRecord
  unfold State.voidContract
  dsimp only
  split <;> simp [h]

/-- A swap that ends counts no trip. -/
theorem State.swapEnds_tripCount (r : Nat) (b : Bool) :
    ((s.swapEnds p r b).port p).counters.getD 7 0 = (s.port p).counters.getD 7 0 := by
  have hc : ∀ u : State, ((u.countUp p .swapFail).port p).counters.getD 7 0 = (u.port p).counters.getD 7 0 :=
    fun u => u.port_updPort_part p p (·.counters.getD 7 0) _ fun x => by simp [PCount.idx]
  unfold State.swapEnds
  cases (s.sw p).kind
  · simp
  · cases b
    · simp
    · have := hc
      simp only [List.getD_eq_getElem?_getD] at this
      simp [this]

theorem State.attachOver_trips (c : Nat) (b : Bool) :
    ((s.attachOver p c b).port p).path.tripRecord = (s.port p).path.tripRecord ∧
      ((s.attachOver p c b).port p).counters.getD 7 0 = (s.port p).counters.getD 7 0 := by
  have e := s.swapEnds_tripCount (p := p)
  simp only [List.getD_eq_getElem?_getD] at e
  unfold State.attachOver State.swapFail
  cases b <;> simp [State.voidContract_tripRecord, e]

theorem State.errorRecovery_trips (c : Nat) (h : p < s.ports.length) :
    ((s.errorRecovery p c).port p).path.tripRecord = (s.port p).path.tripRecord ∧
      ((s.errorRecovery p c).port p).counters.getD 7 0 = (s.port p).counters.getD 7 0 := by
  obtain ⟨e, k⟩ := s.attachOver_trips (p := p) c true
  simp only [Path.tripRecord, Prod.mk.injEq, List.getD_eq_getElem?_getD] at e k ⊢
  obtain ⟨e1, e2, e3⟩ := e
  unfold State.errorRecovery State.openPort
  simp [State.port_updPort, State.path_updPath, h, Path.opened, e1, e2, e3, k]

theorem State.disablePort_trips (c : Nat) (w : DisabledBy) (h : p < s.ports.length) :
    ((s.disablePort p c w).port p).path.tripRecord = (s.port p).path.tripRecord ∧
      ((s.disablePort p c w).port p).counters.getD 7 0 = (s.port p).counters.getD 7 0 ∧ ((s.disablePort p c w).port p).sw.kind = none := by
  obtain ⟨e, k⟩ := s.attachOver_trips (p := p) c false
  have n := (s.attachOver_spec p h c false).2.2.2.2.1
  simp only [Path.tripRecord, Prod.mk.injEq, List.getD_eq_getElem?_getD] at e k ⊢
  obtain ⟨e1, e2, e3⟩ := e
  unfold State.disablePort State.openPort
  simp [State.port_updPort, State.path_updPath, h, Path.opened, e1, e2, e3, k, n]

/-- R177, R178: what a trip of cause `k` leaves. -/
def AfterPortTrip (p k : Nat) (s t : State) : Prop :=
  OnlyPort p s t ∧ (t.path p).swOn = false ∧ (t.path p).ppg = false ∧ (t.vc p).on = false ∧ (t.path p).lastTrip = k ∧
    (t.path p).flt.sticky.getLsbD (k - 1) = true ∧ (t.pd p).contract = {} ∧ (t.pd p).lastEnd = 9 ∧ (t.sw p).kind = none ∧
    (t.port p).counters.getD 7 0 = ((s.port p).counters.modify 7 sat1).getD 7 0 ∧
    ((s.path p).trips < portParam s p 0x31 →
      (t.cc p).st = .errorRecovery ∧ (t.path p).trips = (s.path p).trips + 1 ∧ (t.path p).latched = (s.path p).latched) ∧
    (portParam s p 0x31 ≤ (s.path p).trips →
      (t.cc p).st = .disabled ∧ (t.cc p).disabledBy = .latched ∧ (t.path p).latched = true ∧ (t.path p).flt.sticky.getLsbD 5 = true)

theorem State.portTrip_spec (k : Nat) (hp : p < s.ports.length) (hk0 : 1 ≤ k) (hk : k ≤ 5) : AfterPortTrip p k s (s.portTrip p k) := by
  refine ⟨(OnlyPort.refl p s).portTrip k, ?_⟩
  have hst := State.raisePath_sticky (s := s) (i := k - 1) hp (by omega)
  have ho := ((OnlyPort.refl p s).raisePath (k - 1)).countUp .trip
  have hlim : portParam ((s.raise (.portPath p) (k - 1)).countUp p .trip) p 0x31 = portParam s p 0x31 := ho.inf_eq 3 p 0x31
  have hcnt : (((s.raise (.portPath p) (k - 1)).countUp p .trip).port p).counters = (s.port p).counters.modify 7 sat1 := by
    simp [State.countUp, State.port_updPort, hp, PCount.idx]
  have hpath : (((s.raise (.portPath p) (k - 1)).countUp p .trip).port p).path = ((s.raise (.portPath p) (k - 1)).port p).path := by
    simp [State.countUp, State.port_updPort, hp]
  have hl : p < ((s.raise (.portPath p) (k - 1)).countUp p .trip).ports.length := by
    rw [ho.length_eq]
    exact hp
  unfold State.portTrip
  dsimp only
  rw [hlim]
  generalize (s.raise (.portPath p) (k - 1)).countUp p .trip = u at *
  split
  case isTrue hlt =>
    generalize hv : (u.updPath p fun h => { h with trips := h.trips + 1, lastTrip := k }) = v
    have hlv : p < v.ports.length := by rw [← hv]; simpa using hl
    obtain ⟨h1, -, h2, h3, h4, h5, h6, h7, -⟩ := v.errorRecovery_spec p hlv 9
    obtain ⟨-, hf⟩ := v.errorRecovery_flt 9 hlv
    obtain ⟨ht, hc⟩ := v.errorRecovery_trips 9 hlv
    simp only [Path.tripRecord, Prod.mk.injEq] at ht
    obtain ⟨t1, t2, t3⟩ := ht
    have hvp : (v.port p).path = { (u.port p).path with trips := (u.port p).path.trips + 1, lastTrip := k } := by
      rw [← hv]
      simp [State.path_updPath, hl]
    have hvc : (v.port p).counters = (u.port p).counters := by rw [← hv]; simp
    refine ⟨h2, h3, h4, ?_, ?_, h5, h6, h7, ?_, fun _ => ⟨h1, ?_, ?_⟩, fun h => absurd hlt (by omega)⟩
    · rw [State.path, t3, hvp]
    · rw [State.path, hf, hvp, hpath]
      exact hst
    · rw [hc, hvc, hcnt]
    · rw [State.path, t1, hvp, hpath]
      simp [State.path]
    · rw [State.path, t2, hvp, hpath]
      simp [State.path]
  case isFalse hge =>
    generalize hv : (u.updPath p fun h => { h with latched := true, lastTrip := k }) = v
    have hlv : p < v.ports.length := by rw [← hv]; simpa using hl
    obtain ⟨h1, hd, h2, h3, h4, h5, h6⟩ := v.disablePort_spec p hlv 9 .latched
    obtain ⟨-, hf⟩ := v.disablePort_flt 9 .latched hlv
    obtain ⟨ht, hc, h7⟩ := v.disablePort_trips 9 .latched hlv
    simp only [Path.tripRecord, Prod.mk.injEq] at ht
    obtain ⟨t1, t2, t3⟩ := ht
    have hvp : (v.port p).path = { (u.port p).path with latched := true, lastTrip := k } := by
      rw [← hv]
      simp [State.path_updPath, hl]
    have hvc : (v.port p).counters = (u.port p).counters := by rw [← hv]; simp
    have hlw : p < (v.disablePort p 9 .latched).ports.length := by
      rw [((OnlyPort.refl p v).disablePort 9 .latched).length_eq]
      exact hlv
    have h5s := State.raisePath_sticky (i := 5) hlw (by omega)
    have hks := State.raise_sticky_mono (s := v.disablePort p 9 .latched) (.portPath p) 5 (k - 1) hlw
      (show ((v.disablePort p 9 .latched).port p).path.flt.sticky.getLsbD (k - 1) = true by rw [hf, hvp, hpath]; exact hst)
    refine ⟨?_, ?_, ?_, ?_, hks, ?_, ?_, ?_, ?_, fun h => absurd h hge, fun _ => ⟨?_, ?_, ?_, h5s⟩⟩
    · simp [State.path, h2]
    · simp [State.path, h3]
    · simp [State.vc, h4]
    · simp [State.path, t3, hvp]
    · simp [State.pd, h5]
    · simp [State.pd, h6]
    · simp [State.sw, h7]
    · simp only [List.getD_eq_getElem?_getD] at hc
      simp [hc, hvc, hcnt]
    · simp [State.cc, h1]
    · simp [State.cc, hd]
    · simp [State.path, t2, hvp]

/-- Settles O40: each trip's condition is its guard, and what it leaves is `State.portTrip_spec`. -/
theorem portTrips : Obligations.PortTrips := by
  intro s p c k hs hv hcases
  have hl := hs.port_lt hv
  have main : 1 ≤ k → k ≤ 5 → AfterPortTrip p k s (s.portTrip p k) := State.portTrip_spec k hl
  obtain ⟨n, rfl, rfl, hon, hn⟩ | ⟨rfl, rfl, hon, hn⟩ | ⟨rfl, rfl, hon, hn⟩ | ⟨n, rfl, rfl, hon, hn⟩ | ⟨rfl, rfl, hn⟩ := hcases
  · exact .intro rfl (if_pos (by simp [hv, hon, hn])) (main (by omega) (by omega))
  · exact .intro rfl (if_pos (by simp [hv, hon, hn])) (main (by omega) (by omega))
  · exact .intro rfl (if_pos (by simp [hv, hon, hn])) (main (by omega) (by omega))
  · exact .intro rfl (if_pos (by simp [hv, hon, hn])) (main (by omega) (by omega))
  · exact .intro rfl (if_pos (by simp [hv, hn])) (main (by omega) (by omega))

end Sys2Proof.Machine
end

section
/-! PROOF. Path timers and the take-over of passive Rd. -/
namespace Sys2Proof.Machine
variable {p : Nat} {s : State}

/-! ### R175, R181: the end of a close -/

/-- The path whose close is complete: PPG asserts unless the fault timer runs. -/
def closedPath (s : State) (p : Nat) : State :=
  s.updPath p fun h =>
    { h with
      closing := false, closePaces := 0, ppg := (s.path p).timer == 0 && !(s.path p).ilimAct
      ppgFrom := if ((s.path p).timer == 0 && !(s.path p).ilimAct) = true then some s.frame else none }

theorem portCloseComplete_of_closing (b : Bool) (hv : s.serves p = true) (hc : (s.path p).closing = true) (hf : 4 ≤ (s.path p).fullyOn) :
    portCloseComplete p b s = prSwapDone (closedPath s p) p b := by
  unfold portCloseComplete
  dsimp only
  rw [if_pos (by simp [hv, hc, hf])]
  rfl

theorem PortAlone.closedPath : PortAlone p s (closedPath s p) := (PortAlone.refl p s).updPath _

theorem closedPath_path (h : p < s.ports.length) :
    ((closedPath s p).path p).closing = false ∧ (((closedPath s p).path p).ppg = true ↔ (s.path p).timer = 0 ∧ (s.path p).ilimAct = false) := by
  simp [State.path, closedPath, State.path_updPath, h]

@[simp] theorem closedPath_port_cc (q : Nat) : ((closedPath s p).port q).cc = (s.port q).cc := by simp [closedPath]
theorem closedPath_cc (q : Nat) : (closedPath s p).cc q = s.cc q := closedPath_port_cc q
@[simp] theorem closedPath_port_pd (q : Nat) : ((closedPath s p).port q).pd = (s.port q).pd := by simp [closedPath]
theorem closedPath_pd (q : Nat) : (closedPath s p).pd q = s.pd q := closedPath_port_pd q
@[simp] theorem closedPath_port_sw (q : Nat) : ((closedPath s p).port q).sw = (s.port q).sw := by simp [closedPath]
theorem closedPath_sw (q : Nat) : (closedPath s p).sw q = s.sw q := closedPath_port_sw q
@[simp] theorem closedPath_length : (closedPath s p).ports.length = s.ports.length := by simp [closedPath]

@[simp] theorem closedPath_vbus (h : p < s.ports.length) : (closedPath s p).vbus p = s.vbus p := by
  have hv : ((closedPath s p).path p).vsrc = (s.path p).vsrc := by simp [State.path, closedPath, State.path_updPath, h]
  have ha : ((closedPath s p).path p).vAvg = (s.path p).vAvg := by simp [State.path, closedPath, State.path_updPath, h]
  unfold State.vbus
  rw [hv, ha, closedPath_cc]

/-! ### R120: the PS_RDY of a swap to source -/

theorem prSwapDone_of_not_pr (b : Bool) (h : (s.sw p).kind ≠ some .pr) : prSwapDone s p b = s := by
  unfold prSwapDone
  simp [h]

/-- Outside 4.75 V to 5.50 V the message waits; a suspended engine keeps the report for later. -/
theorem prSwapDone_of_vbus_out (b : Bool) (h : s.vbus p < 4750 ∨ 5500 < s.vbus p) :
    prSwapDone s p b = s ∨ prSwapDone s p b = s.updPd p fun d => { d with inbox := d.inbox ++ [.portCloseComplete ⟨p, b⟩] } := by
  have hr : (s.policyRuns && decide (4750 ≤ s.vbus p) && decide (s.vbus p ≤ 5500)) = false := by
    simp only [Bool.and_eq_false_iff, decide_eq_false_iff_not]
    omega
  unfold prSwapDone
  simp only [hr, Bool.false_eq_true, if_false]
  split
  · exact .inl rfl
  · split
    · exact .inr rfl
    · exact .inl rfl

/-- The part's own PS_RDY goes out: the port is a source. -/
def psRdySent (s : State) (p : Nat) : State := (s.updSw p fun w => { w with source := true }).send p [.psRdy]

theorem prSwapDone_of_vbus_in (b : Bool) (hk : (s.sw p).kind = some .pr) (ht : (s.sw p).step = 3) (hr : s.policyRuns = true)
    (h1 : 4750 ≤ s.vbus p) (h2 : s.vbus p ≤ 5500) :
    prSwapDone s p b =
      if b = true then
        ((psRdySent s p).swapDone p).updPd p fun d =>
          { d with
            started := ((psRdySent s p).swapDone p).policyUp, startDue := some (((psRdySent s p).swapDone p).frame + 24)
            contract := typecContract (((psRdySent s p).swapDone p).cc p).rp }
      else (psRdySent s p).hardReset p 4 true := by
  have hh : (s.policyUp && s.policyHeld) = false := by
    simp only [State.policyRuns, Bool.and_eq_true, Bool.not_eq_true'] at hr
    simp [hr]
  unfold prSwapDone
  simp only [hk, ht, hh, hr, h1, h2]
  cases b <;> rfl

theorem psRdySent_spec (h : p < s.ports.length) :
    OnlyPort p s (psRdySent s p) ∧ (psRdySent s p).ports.length = s.ports.length ∧
      ((psRdySent s p).port p).cc = (s.port p).cc ∧ ((psRdySent s p).port p).path = (s.port p).path ∧
      ((psRdySent s p).port p).pd = { (s.port p).pd with tx := [.psRdy], txRev20 := (s.port p).pd.rev20 } ∧
      ((psRdySent s p).port p).sw = { (s.port p).sw with source := true } := by
  refine ⟨((OnlyPort.refl p s).updSw _).send _, ?_⟩
  simp [psRdySent, State.send, State.pd_updPd, State.sw_updSw, h]

/-- Settles O41: the branch that each event takes, and what a complete close (`closedPath`) and the PS_RDY of a swap to source
(`prSwapDone_of_vbus_in`) leave. -/
theorem pathTimersAndTakeover : Obligations.PathTimersAndTakeover := by
  refine ⟨?close, ?timer, ?trips, ?typec, ?takeover, ?aon⟩
  case close =>
    intro s p hs hv hc hf
    have hl := hs.port_lt hv
    obtain ⟨k1, k2⟩ := closedPath_path hl
    have he : ∀ b, portCloseComplete p b s = prSwapDone (closedPath s p) p b := fun b => portCloseComplete_of_closing b hv hc hf
    have hrun : (closedPath s p).policyRuns = s.policyRuns := ((OnlyPort.refl p s).updPath _).policyRuns_eq
    refine ⟨fun b hk => ?_, fun b hout => ?_, fun hk ht hr h1 h2 => ?_, fun hk ht hr h1 h2 => ?_⟩
    · refine .intro rfl (u := closedPath s p) ?_ ⟨PortAlone.closedPath, k1, k2, closedPath_cc p, closedPath_pd p⟩
      rw [he, prSwapDone_of_not_pr]
      rwa [closedPath_sw]
    · obtain e | e := prSwapDone_of_vbus_out (s := closedPath s p) b (by rwa [closedPath_vbus hl])
      · exact .intro rfl ((he b).trans e) ⟨PortAlone.closedPath, k1, closedPath_sw p, by rw [closedPath_pd], closedPath_cc p⟩
      · refine .intro rfl ((he b).trans e) ⟨PortAlone.closedPath.updPd _, ?_⟩
        simp only [State.path] at k1
        simp [State.path, State.sw, State.pd, State.cc, State.pd_updPd, hl, k1]
    all_goals
      obtain ⟨o, k, kcc, kpath, kpd, ksw⟩ := psRdySent_spec (s := closedPath s p) (p := p) (by simpa using hl)
      have ho := (OnlyPort.refl p s).trans ((PortAlone.closedPath (s := s) (p := p)).only.trans o)
      have hlr : p < (psRdySent (closedPath s p) p).ports.length := by simpa [k] using hl
      have hgo := fun b => (he b).trans (prSwapDone_of_vbus_in (s := closedPath s p) b (by rwa [closedPath_sw]) (by rwa [closedPath_sw])
        (by rwa [hrun]) (by rwa [closedPath_vbus hl]) (by rwa [closedPath_vbus hl]))
    · refine .intro rfl ((hgo false).trans (if_neg (by decide))) (afterHardReset_of_before ho ?_ ?_ ?_ (State.hardReset_spec 4 true hlr))
      · rw [kpd]
        simp
      · rw [kcc]
        simp
      · intro h
        simp [State.sw, h] at hk
    · obtain ⟨s1, s2, s3, s4, -⟩ := State.swapDone_sw (s := psRdySent (closedPath s p) p) hlr (kd := .pr) (by simpa [State.sw, ksw] using hk)
      have s5 : (((psRdySent (closedPath s p) p).swapDone p).sw p).source = true := by
        unfold State.swapDone
        simp [State.sw, ksw, show (s.port p).sw.kind = some .pr from hk, State.sw_updSw, hlr]
      have ho2 : OnlyPort p s (((psRdySent (closedPath s p) p).swapDone p)) := ho.swapDone
      refine .intro rfl ((hgo true).trans (if_pos rfl)) ⟨ho2.updPd _, ?_⟩
      simp only [State.path, State.sw] at k1 s1 s2 s3 s4 s5
      simp [State.path, State.sw, State.pd, State.cc, State.pd_updPd, hlr, s1, s2, s3, s4, s5, kpath, kpd, kcc, ksw, k1, swapCode]
  case timer =>
    intro s p hs hv ht hoff
    have hl := hs.port_lt hv
    refine .intro rfl (if_pos (by simp [hv, ht, hoff])) ⟨(PortAlone.refl p s).updPath _, ?_⟩
    simp [State.path, State.path_updPath, hl]
  case trips =>
    intro s p f hs hv hg hfr hf
    have hl := hs.port_lt hv
    refine .intro rfl (if_pos (by simp [hv, hg, hfr, State.ran, State.framesSince, hf])) ⟨(PortAlone.refl p s).updPath _, ?_⟩
    simp only [State.path] at hg
    simp [State.path, State.path_updPath, hl, hg]
  case typec =>
    intro s p f hs hp ho hfr hf
    have hl : p < s.ports.length := by rw [hs.1]; exact hp
    refine .intro rfl (if_pos (by simp [hp, ho, hfr, State.ran, State.framesSince, hf])) ⟨(PortAlone.refl p s).updPd _, ?_⟩
    simp [State.pd, State.cc, State.path, State.pd_updPd, hl]
  case takeover =>
    intro s p hs hp hlk hm hpas hst hrp
    have hl : p < s.ports.length := by rw [hs.1]; exact hp
    have hmine : ((s.cc p).cc1 == .rp) != ((s.cc p).cc2 == .rp) := by
      obtain ⟨h1, h2⟩ | ⟨h1, h2⟩ := hrp <;> simp [h1, h2]
    refine ⟨fun hact => ?_, fun f hact hfr hf => ?_⟩
    · refine .intro rfl (u := s.updCc p fun c => { c with activeRd := true, takeoverFrame := some s.frame }) ?_ ⟨(PortAlone.refl p s).updCc _, ?_⟩
      · simp [passiveRdTakeover, hp, hlk, hm, hpas, hst, hmine, hact]
      · simp only [State.cc] at hpas
        simp [State.cc, State.cc_updCc, hl, hpas]
    · refine .intro rfl (u := (s.updPort p fun q => { q with inService := true }).updCc p fun c =>
        { c.entered .attachWaitSnk s.now with
          debLine := if c.cc2 == .rp then 2 else 1, activeRd := false, passiveRd := false, takeoverFrame := none, unexpSet := false })
        ?_ ⟨((PortAlone.refl p s).updPort _).updCc _, ?_⟩
      · simp [passiveRdTakeover, hp, hlk, hm, hpas, hst, hmine, hact, hfr, State.ran, State.framesSince, hf]
      · by_cases h2 : (s.cc p).cc2 = .rp
        all_goals
          simp only [State.cc] at h2
          simp [State.cc, State.cc_updCc, State.port_updPort, hl, CcLayer.entered, h2]
  case aon =>
    intro s p hs hp hlk hd ht
    have hl : p < s.ports.length := by rw [hs.1]; exact hp
    refine .intro rfl (if_pos (by simp [hp, hlk, hd, ht])) ⟨(PortAlone.refl p s).updCc _, ?_⟩
    simp [State.cc, State.cc_updCc, hl]

end Sys2Proof.Machine
end

section
/-! PROOF. Discovery and modes. -/
namespace Sys2Proof.Machine
variable {p : Nat} {s t : State}

/-- A row of a policy engine that is not suspended before its rest runs at once (R50). -/
theorem State.restRow_of_runs {i : Instr} {go : State → State} (h : s.policyRuns = true) : s.restRow p i go = go s := by
  have hd : s.sup.schedDue = false := by
    simp only [State.policyRuns, State.policyHeld, Bool.and_eq_true, Bool.not_eq_true', Bool.or_eq_false_iff] at h
    exact h.2.2
  unfold State.restRow
  rw [if_neg (by simp [hd])]

theorem State.pushEvent_events_seq (k i : Nat) (d : List Byte) : (s.pushEvent k i d).events.seq = (s.events.seq + 1) % 256 := by
  unfold State.pushEvent State.setAttn
  dsimp only
  split <;> rfl

/-! ### An answer of the partner -/

/-- A message of the partner that ends a sequence has been heard. -/
def answerHeard (s : State) (p : Nat) : State := (s.heard p).seqOver p

theorem PortAlone.answerHeard : PortAlone p s (answerHeard s p) := (PortAlone.refl p s).heard.seqOver

@[simp] theorem answerHeard_length : (answerHeard s p).ports.length = s.ports.length := by simp [answerHeard, State.heard]
@[simp] theorem answerHeard_dc (q : Nat) : ((answerHeard s p).port q).dc = (s.port q).dc := by simp [answerHeard, State.heard]
@[simp] theorem answerHeard_sw (q : Nat) : ((answerHeard s p).port q).sw = (s.port q).sw := by simp [answerHeard, State.heard]
theorem answerHeard_pd (h : p < s.ports.length) : ((answerHeard s p).port p).pd = { (s.port p).pd with lastMsg := s.frame } := by
  simp [answerHeard, State.heard, State.pd_updPd, h]

theorem answerHeard_frame : (answerHeard s p).frame = s.frame := (PortAlone.answerHeard).only.frame_eq

/-! ### R130, R131: the steps of a discovery -/

theorem PortAlone.sendStep {st : DiscStep} (h : PortAlone p s t) : PortAlone p s (sendStep t p st) := (h.updDc _).send _

theorem PortAlone.nextStep {st : DiscStep} (h : PortAlone p s t) : PortAlone p s (nextStep t p st) := by
  unfold Machine.nextStep
  exact PortAlone.ite ((h.updDc _).sendStep) ((h.updDc _).waitTx)

theorem sendStep_spec (st : DiscStep) (h : p < s.ports.length) :
    ((sendStep s p st).dc p) = { s.dc p with step := some st, status := 1, sentFrame := s.frame, waiting := true, busyFrame := none, startDue := none } ∧
      ((sendStep s p st).pd p).tx = [stepVdm (s.pd p) (s.dc p) st] ∧ (sendStep s p st).ports.length = s.ports.length := by
  simp [sendStep, State.dc, State.pd, State.send, State.pd_updPd, State.dc_updDc, h]

theorem nextStep_dc (st : DiscStep) (h : p < s.ports.length) :
    ((nextStep s p st).dc p).step = some st ∧ ((nextStep s p st).dc p).idVdos = (s.dc p).idVdos ∧ ((nextStep s p st).dc p).v10 = (s.dc p).v10 := by
  unfold nextStep
  extract_lets u
  have hu : (u.port p).dc = { (s.port p).dc with step := some st, waiting := false, busyCount := 0, startDue := some s.frame } := by
    simp [u, State.dc_updDc, h]
  have hl : p < u.ports.length := by simpa [u] using h
  split
  · obtain ⟨e, -, -⟩ := sendStep_spec st hl
    rw [e]
    simp [State.dc, hu]
  · have e : ((u.waitTx p).port p).dc = (u.port p).dc := by
      unfold State.waitTx
      split <;> simp
    simp [State.dc, e, hu]

theorem discEnd_dc (c : Nat) (h : p < s.ports.length) (hs : (s.dc p).step.isSome = true) :
    ((s.discEnd p c).dc p).status = c ∧ ((s.discEnd p c).dc p).step = none := by
  refine ⟨?_, s.discEnd_step p h c⟩
  unfold State.discEnd
  rw [if_pos hs]
  simp [State.dc, State.dc_updDc, h]

/-! ### R134, R135: Enter and Exit Mode -/

theorem enterAck_dc (m : ModeTry) (h : p < s.ports.length) :
    ((enterAck s p m).dc p).entered = true ∧ ((enterAck s p m).dc p).modeSvid = m.svid ∧ ((enterAck s p m).dc p).modePos = m.pos ∧
      ((enterAck s p m).dc p).attempt = none := by
  simp [enterAck, State.dc, State.dc_updDc, h]

theorem enterFail_dc (m : ModeTry) (w : Nat) (h : p < s.ports.length) (hm : m.byTable = false) :
    ((enterFail s p m w).dc p).entered = (s.dc p).entered ∧ ((enterFail s p m w).dc p).failed = true ∧ ((enterFail s p m w).dc p).attempt = none := by
  unfold enterFail
  simp [hm, State.dc, State.dc_updDc, h]

theorem exitDone_dc (h : p < s.ports.length) (hd : (s.sw p).drExit = false) :
    ((exitDone s p).dc p).entered = false ∧ ((exitDone s p).dc p).exitFrame = none := by
  have e := s.modeEnd_entered p h
  simp only [State.sw] at hd
  simp [exitDone, State.dc, State.sw, State.dc_updDc, h, hd, e]

/-- An answer to a step, or to Enter or Exit Mode, is judged after it has been heard. -/
theorem vdmResponse_of_step {st : DiscStep} (v10 : Bool) (vdos : List Word32) (ha : attachedPd s p = true)
    (hs : (s.dc p).step = some st) (hw : (s.dc p).waiting = true) :
    vdmResponse p .ack v10 vdos s = discAck ((answerHeard s p).updDc p fun d => { d with v10 := v10, waiting := false }) p st vdos ∧
      vdmResponse p .nak v10 vdos s = discNak ((answerHeard s p).updDc p fun d => { d with v10 := v10, waiting := false }) p st ∧
      vdmResponse p .busy v10 vdos s = discBusy ((answerHeard s p).updDc p fun d => { d with v10 := v10, waiting := false }) p := by
  have e : (answerHeard s p).dc p = s.dc p := answerHeard_dc p
  unfold answerHeard at *
  simp [vdmResponse, ha, e, hs, hw]

theorem vdmResponse_of_attempt {m : ModeTry} (v10 : Bool) (vdos : List Word32) (ha : attachedPd s p = true)
    (hs : (s.dc p).step = none) (hm : (s.dc p).attempt = some m) (hsent : m.sent = true) (hd : (s.sw p).dfp = true) :
    vdmResponse p .ack v10 vdos s = enterAck (answerHeard s p) p m ∧ vdmResponse p .nak v10 vdos s = enterFail (answerHeard s p) p m 1 ∧
      vdmResponse p .busy v10 vdos s = answerHeard s p := by
  have e : (answerHeard s p).dc p = s.dc p := answerHeard_dc p
  have f : (answerHeard s p).sw p = s.sw p := answerHeard_sw p
  unfold answerHeard at *
  simp [vdmResponse, ha, e, f, hs, hm, hsent, hd]

theorem vdmResponse_of_exit (v10 : Bool) (vdos : List Word32) (ha : attachedPd s p = true)
    (hs : (s.dc p).step = none) (hm : (s.dc p).attempt = none) (hx : (s.dc p).exitFrame.isSome = true) :
    vdmResponse p .ack v10 vdos s = exitDone (answerHeard s p) p := by
  have e : (answerHeard s p).dc p = s.dc p := answerHeard_dc p
  unfold answerHeard at *
  simp [vdmResponse, ha, e, hs, hm, hx]

/-- Settles O36: the branch that each answer takes, and what each step of a discovery or of a mode leaves. -/
theorem discoveryAndModes : Obligations.DiscoveryAndModes := by
  intro s p hs hp ha
  have hl := hs.port_lt (attachedPd_serves ha)
  have hr := attachedPd_runs ha
  have hla : p < (answerHeard s p).ports.length := by simpa using hl
  refine ⟨fun hdfp hb hm hat => ⟨fun hst hdue hex => ?_, fun st hst hbusy => ?_⟩, fun v10 vdos hst hw => ?_, fun hst hw hf => ?_,
    fun m v10 vdos hst hat hsent hby hdfp => ⟨?_, ?_, fun hf => ?_⟩, fun m v10 vdos hst hat hsent hdfp => ?_, fun v10 vdos hst hat hx he hdr => ?_,
    fun hdr vdo => ?_⟩
  · have hlc : p < (s.updDc p Disc.cleared).ports.length := by simpa using hl
    obtain ⟨e1, e2, e3⟩ := sendStep_spec .identity hlc
    refine .intro rfl (u := (sendStep (s.updDc p Disc.cleared) p .identity).updPd p fun d => { d with clear := false, collision := none }) ?_
      ⟨(((PortAlone.refl p s).updDc _).sendStep).updPd _, ?_⟩
    · rw [State.restRow_of_runs hr]
      simp [discoveryStart, ha, hdfp, hb, hat, hst, hdue, hex, State.startSeq_of_mayStart hm]
    · simp only [State.dc, State.pd] at e1 e2
      simp [State.dc, State.pd, State.pd_updPd, hl, e1, e2, e3, stepVdm]
  · obtain ⟨e1, e2, e3⟩ := sendStep_spec st hl
    refine .intro rfl (u := (sendStep s p st).updPd p fun d => { d with clear := false, collision := none }) ?_
      ⟨((PortAlone.refl p s).sendStep).updPd _, ?_⟩
    · rw [State.restRow_of_runs hr]
      simp [vdmBusyRetry, ha, hbusy, hb, hst, State.startSeq_of_mayStart hm]
    · simp only [State.dc, State.pd] at e1 e2
      simp [State.dc, State.pd, State.pd_updPd, hl, e1, e2, e3]
  · obtain ⟨hack, hnak, hbusy⟩ := vdmResponse_of_step v10 vdos ha hst hw
    generalize hu : ((answerHeard s p).updDc p fun d => { d with v10 := v10, waiting := false }) = u at hack hnak hbusy
    have hlu : p < u.ports.length := by rw [← hu]; simpa using hl
    have hud : (u.port p).dc = { s.dc p with v10 := v10, waiting := false } := by
      rw [← hu]
      simp [State.dc, State.dc_updDc, hl]
    have hau : PortAlone p s u := by rw [← hu]; exact PortAlone.answerHeard.updDc _
    refine ⟨.intro rfl ((State.restRow_of_runs hr).trans hack) ?_, .intro rfl ((State.restRow_of_runs hr).trans hnak) ?_,
      fun hc => .intro rfl ((State.restRow_of_runs hr).trans hbusy) ?_⟩
    · obtain ⟨e1, e2, e3⟩ := nextStep_dc (s := u.updDc p fun d => { d with idVdos := vdos.take 6 }) .svids (by simpa using hlu)
      refine ⟨(hau.updDc _).nextStep, ?_⟩
      unfold discAck
      simp only [State.dc] at e1 e2 e3
      simp [State.dc, State.dc_updDc, e1, e2, e3, hlu, hud]
    · exact ⟨hau.only.discEnd 3, discEnd_dc 3 hlu (by simp only [State.dc] at hst; simp [State.dc, hud, hst])⟩
    · have hc' : (u.dc p).busyCount < 3 := by simpa [State.dc, hud] using hc
      have he : discBusy u p = u.updDc p fun d => { d with busyFrame := some u.frame, busyCount := d.busyCount + 1, waiting := false } := if_pos hc'
      rw [he]
      refine ⟨hau.updDc _, ?_⟩
      simp only [State.dc] at hst
      simp [State.dc, State.dc_updDc, hlu, hud, hst, hau.only.frame_eq]
  · obtain ⟨e1, e2⟩ := discEnd_dc 4 hl hst
    refine .intro rfl (u := (s.discEnd p 4).seqOver p) ?_ ⟨((OnlyPort.refl p s).discEnd 4).seqOver, ?_⟩
    · rw [State.restRow_of_runs hr]
      simp [vdmResponseTimeout, ha, hst, hw, State.framesSince, hf]
    · simp only [State.dc] at e1 e2
      simp [State.dc, e1, e2]
  · obtain ⟨hack, -, -⟩ := vdmResponse_of_attempt v10 vdos ha hst hat hsent hdfp
    exact .intro rfl ((State.restRow_of_runs hr).trans hack) ⟨PortAlone.answerHeard.only.enterAck, enterAck_dc m hla⟩
  · obtain ⟨-, hnak, -⟩ := vdmResponse_of_attempt v10 vdos ha hst hat hsent hdfp
    obtain ⟨e1, e2, e3⟩ := enterFail_dc (s := answerHeard s p) m 1 hla hby
    exact .intro rfl ((State.restRow_of_runs hr).trans hnak)
      ⟨PortAlone.answerHeard.only.enterFail, e1.trans (congrArg Disc.entered (answerHeard_dc p)), e2, e3⟩
  · have hlq : p < (s.seqOver p).ports.length := by simpa using hl
    obtain ⟨e1, e2, e3⟩ := enterFail_dc (s := s.seqOver p) m 2 hlq hby
    refine .intro rfl (u := enterFail (s.seqOver p) p m 2) ?_
      ⟨((OnlyPort.refl p s).seqOver).enterFail, e1.trans (congrArg Disc.entered (State.seqOver_port_dc s p p)), e2, e3⟩
    rw [State.restRow_of_runs hr]
    simp [modeEntryTimeout, ha, hat, hsent, State.framesSince, hf]
  · obtain ⟨-, -, hbusy⟩ := vdmResponse_of_attempt v10 vdos ha hst hat hsent hdfp
    refine .intro rfl ((State.restRow_of_runs hr).trans hbusy) ⟨PortAlone.answerHeard, ?_⟩
    simp only [State.dc] at hat
    simp [State.dc, State.pd, answerHeard_pd hl, hat]
  · refine .intro rfl ((State.restRow_of_runs hr).trans (vdmResponse_of_exit v10 vdos ha hst hat hx))
      ⟨PortAlone.answerHeard.only.exitDone, exitDone_dc hla ?_⟩
    simp only [State.sw] at hdr
    simp [State.sw, hdr]
  · refine .intro rfl ((State.restRow_of_runs hr).trans (if_pos ha)) ⟨((OnlyPort.refl p s).sinkSpoke).pushEvent _ _ _, ?_⟩
    obtain ⟨-, -, -, -, -, -, hm⟩ := State.sinkSpoke_pd hl
    refine ⟨State.pushEvent_events_seq .., ?_, ?_⟩
    · simpa [State.pd] using hm
    · exact State.sinkSpoke_dc p

end Sys2Proof.Machine
end

section
/-! PROOF. Tester sessions. -/
namespace Sys2Proof.Machine
variable {p : Nat} {s : State}

/-- R138, R295: what the end of a session leaves. -/
theorem State.sessionEnd_spec (c : Nat) (h : s.tester.st ≠ .closed) :
    (s.sessionEnd c).tester.st = .closed ∧ (s.sessionEnd c).tun.slot = .empty ∧ (s.sessionEnd c).ports = s.ports ∧
      (s.sessionEnd c).host = s.host := by
  have he : ∀ (u : State) (k i : Nat) (d : List Byte), (u.pushEvent k i d).tester = u.tester ∧ (u.pushEvent k i d).tun = u.tun ∧
      (u.pushEvent k i d).ports = u.ports ∧ (u.pushEvent k i d).host = u.host := fun _ _ _ _ => ⟨rfl, rfl, rfl, rfl⟩
  unfold State.sessionEnd
  rw [if_neg (by simpa using h)]
  dsimp only
  split
  · exact ⟨rfl, rfl, rfl, rfl⟩
  · obtain ⟨h1, h2, h3, h4⟩ := he { s with tester := { delayUntil := s.tester.delayUntil }, tun := s.tun.dropReplies } 0x21 s.tester.port [byteOf c]
    rw [h1, h2, h3, h4]
    exact ⟨rfl, rfl, rfl, rfl⟩

/-- A message heard changes no policy of R137. -/
theorem tunnelExists_sinkSpoke : tunnelExists (s.sinkSpoke p) = tunnelExists s := rfl

theorem vdmReply_sinkSpoke (k : VdmAck) (svid cmd pos : Nat) (l : List Word32) (h : p < s.ports.length) :
    vdmReply ((s.sinkSpoke p).pd p) k svid cmd pos l = vdmReply (s.pd p) k svid cmd pos l := by
  obtain ⟨-, -, -, -, -, hr, -⟩ := State.sinkSpoke_pd h
  unfold vdmReply
  rw [hr]

/-- R136, R138: the session that Enter Mode opens, and its acknowledgement. -/
def sessionBegun (s : State) (p : Nat) : State :=
  ({ s.sinkSpoke p with
      tester :=
        { st := if 3 ≤ (s.dc p).authFails then .lockedOut else .entered, port := p, lastVdm := s.frame
          delayUntil := s.tester.delayUntil } }).send p [vdmReply ((s.sinkSpoke p).pd p) .ack s.otp.svid 4 1 []]

theorem serviceEnterMode_of_free (ha : attachedPd s p = true) (hd : (s.sw p).dfp = false) (ht : tunnelExists s = true)
    (hc : s.tester.st = .closed) : serviceEnterMode p 1 s = sessionBegun s p := by
  have hdc : ((s.sinkSpoke p).dc p) = s.dc p := State.sinkSpoke_dc p
  simp [serviceEnterMode, ha, hd, tunnelExists_sinkSpoke, ht, hc, hdc, sessionBegun]

/-- Settles O38: the branch that Enter Mode takes, and what the end of a session leaves (`State.sessionEnd_spec`). -/
theorem testerSessions : Obligations.TesterSessions := by
  refine ⟨?vdms, ?idle, ?delay⟩
  case vdms =>
    intro s p hs hp ha hd
    have hl := hs.port_lt (attachedPd_serves ha)
    have hls : p < (s.sinkSpoke p).ports.length := by simpa using hl
    have hr := attachedPd_runs ha
    have hfr := (OnlyPort.refl p s).sinkSpoke
    have hdc : ((s.sinkSpoke p).dc p) = s.dc p := State.sinkSpoke_dc p
    have hte : (s.sinkSpoke p).tester = s.tester := rfl
    refine ⟨fun ht hc hf => ?_, fun ht hc hf => ?_, fun pos hno => ?_, fun ho hport => ?_⟩
    · refine .intro rfl ((State.restRow_of_runs hr).trans (serviceEnterMode_of_free ha hd ht hc)) ⟨?_, rfl, rfl, ?_, ?_, rfl⟩
      · exact if_neg (by omega)
      · rw [← vdmReply_sinkSpoke _ _ _ _ _ hl]
        exact State.send_tx _ hls
      · exact fun q hq => (((PortAlone.refl p s).sinkSpoke).send [vdmReply ((s.sinkSpoke p).pd p) .ack s.otp.svid 4 1 []]).2.2 q hq
    · exact .intro rfl ((State.restRow_of_runs hr).trans (serviceEnterMode_of_free ha hd ht hc)) (if_pos hf)
    · have hg : (tunnelExists (s.sinkSpoke p) && pos = 1 && (s.sinkSpoke p).tester.st == .closed) = false := by
        rw [tunnelExists_sinkSpoke, hte]
        obtain h | h | h := hno <;> simp [h]
      refine .intro rfl (u := (s.sinkSpoke p).send p [vdmReply (s.pd p) .nak s.otp.svid 4 pos []]) ?_
        ⟨(PortAlone.refl p s).sinkSpoke.send _, State.send_tx _ hls⟩
      rw [State.restRow_of_runs hr, serviceEnterMode, if_pos (by simp [ha, hd]), if_neg (by rw [hg]; decide), vdmReply_sinkSpoke _ _ _ _ _ hl]
      rfl
    · obtain ⟨h1, h2, h3, h4⟩ := State.sessionEnd_spec (s := (s.sinkSpoke p).send p [vdmReply (s.pd p) .ack s.otp.svid 5 1 []]) 0
        (show s.tester.st ≠ .closed by simp [ho])
      refine .intro rfl ((State.restRow_of_runs hr).trans (if_pos (by simp [sessionAt, ha, hd, ho, hport]))) ⟨h1, h2, h4, ?_⟩
      rw [State.pd, State.port, h3]
      exact State.send_tx _ hls
  case idle =>
    intro s hc hf
    exact .intro rfl (if_pos (by simp [hc, State.framesSince, hf])) (State.sessionEnd_spec 4 hc)
  case delay =>
    intro s d hd hf
    refine congrArg Host.Outcome.next ?_
    unfold authFailureDelayEnd
    rw [hd]
    exact if_pos hf

end Sys2Proof.Machine
end

section
/-! PROOF. Tester messages. -/
namespace Sys2Proof.Machine
variable {p : Nat} {s : State}

/-- R138, R139: a tunnel VDM has been heard. -/
def tunnelHeard (s : State) (p : Nat) : State := (s.sinkSpoke p).updTester fun t => { t with lastVdm := s.frame }

@[simp] theorem tunnelHeard_length : (tunnelHeard s p).ports.length = s.ports.length := State.sinkSpoke_length ..

@[simp] theorem tunnelHeard_tester : (tunnelHeard s p).tester = { s.tester with lastVdm := s.frame } := rfl
@[simp] theorem tunnelHeard_tun : (tunnelHeard s p).tun = s.tun := rfl

theorem outMessage_tunnelHeard (n : Nat) : outMessage (tunnelHeard s p) n = outMessage s n := rfl

theorem sessionAt_iff : sessionAt s p = true ↔
    attachedPd s p = true ∧ (s.sw p).dfp = false ∧ s.tester.st ≠ .closed ∧ s.tester.port = p := by
  simp [sessionAt, and_assoc]

/-- R139: the answer names the command, its port's data role and the SVID of the unit. -/
theorem segAnswer_tx (t : State) (cmd : Nat) (k : VdmAck) (l : List Word32) (hl : p < t.ports.length) (hp : t.pd p = (tunnelHeard s p).pd p)
    (ho : t.otp = s.otp) (hs : p < s.ports.length) : ((segAnswer t p cmd k l).pd p).tx = [vdmReply (s.pd p) k s.otp.svid cmd 1 l] := by
  unfold segAnswer
  rw [State.send_tx _ hl, hp, ho]
  exact congrArg (fun x => [x]) (vdmReply_sinkSpoke k _ cmd 1 l hs)

@[simp] theorem segAnswer_tester (t : State) (cmd : Nat) (k : VdmAck) (l : List Word32) : (segAnswer t p cmd k l).tester = t.tester := rfl
@[simp] theorem segAnswer_tun (t : State) (cmd : Nat) (k : VdmAck) (l : List Word32) : (segAnswer t p cmd k l).tun = t.tun := rfl

/-! ### SEG_PUT (R139, R140) -/

theorem segPut_of_wrong {hdr : Word32} {data : List Word32} (h : sessionAt s p = true) (hg : segmentOk (segOf hdr data) = false) :
    segPut p hdr data s = segAnswer ((tunnelHeard s p).updTester noMessage) p segPutCmd .nak [] := by
  unfold segPut
  rw [if_pos h]
  dsimp only
  rw [if_neg (by simp [hg])]
  rfl

/-- The first of several segments carries 20 bytes (R140). -/
theorem segSize_of_more {g : Segment} (hok : segmentOk g = true) (hlast : 0 < g.last) : segSize g.len 0 = 20 := by
  have hl : g.last = segLast g.len := by
    simp only [segmentOk, Bool.and_eq_true, decide_eq_true_eq] at hok
    exact hok.1.1.1.1
  unfold segLast at hl
  unfold segSize
  omega

/-- The first of several segments of a message that no other one holds up. -/
theorem segPut_of_first {hdr : Word32} {data : List Word32} (h : sessionAt s p = true) (hok : segmentOk (segOf hdr data) = true)
    (hi : (segOf hdr data).index = 0) (hlast : 0 < (segOf hdr data).last) (ht : (segOf hdr data).msgType ≠ 0x10) (hn : s.tester.inNext = 0) :
    segPut p hdr data s = segAnswer ((tunnelHeard s p).updTester fun t => takeSegment t (segOf hdr data)) p segPutCmd .ack [hdr] := by
  have hst : starts (tunnelHeard s p).tester (segOf hdr data) = true := by simp [starts, hi, hn]
  have hwhole : ((tunnelHeard s p).updTester fun t => takeSegment t (segOf hdr data)).tester.inWhole = false := by
    simp [State.updTester, takeSegment, hi]
    omega
  unfold segPut
  rw [if_pos h]
  dsimp only
  rw [if_pos (by exact Bool.and_eq_true_iff.2 ⟨hok, Bool.or_eq_true_iff.2 (.inl hst)⟩), if_neg (by simp [ht]),
    if_neg (by exact ne_true_of_eq_false hwhole)]
  rfl

/-! ### SEG_GET (R139, R298) -/

theorem segGet_eq {sb : BitVec 8} {ib : BitVec 4} (h : sessionAt s p = true) :
    (outMessage s sb.toNat = none → segGet p (segGetHeader sb ib) s = segAnswer (tunnelHeard s p) p segGetCmd .nak []) ∧
      (outMessage s sb.toNat = some none → segGet p (segGetHeader sb ib) s = segAnswer (tunnelHeard s p) p segGetCmd .busy []) ∧
      (∀ bs, outMessage s sb.toNat = some (some bs) → ib.toNat ≤ segLast bs.length →
        segGet p (segGetHeader sb ib) s =
          segAnswer (markRead (tunnelHeard s p) sb.toNat bs ib.toNat) p segGetCmd .ack
            (segHeader (mkSegment (answerType s.tester sb.toNat) sb.toNat bs ib.toNat) ::
              (mkSegment (answerType s.tester sb.toNat) sb.toNat bs ib.toNat).data)) := by
  refine ⟨fun ho => ?_, fun ho => ?_, fun bs ho hi => ?_⟩
  all_goals
    unfold segGet
    rw [if_pos h, segOf_segGetHeader]
    extract_lets g u
    have e : outMessage u g.seq = outMessage s sb.toNat := rfl
    rw [e, ho]
  · rfl
  · rfl
  · exact if_pos hi

theorem markRead_frame (n i : Nat) (bs : List Byte) :
    (markRead s n bs i).ports = s.ports ∧ (markRead s n bs i).otp = s.otp := by
  unfold markRead
  dsimp only
  split
  · split
    · split <;> exact ⟨rfl, rfl⟩
    · exact ⟨rfl, rfl⟩
  · exact ⟨rfl, rfl⟩

theorem markRead_of_other (n i : Nat) (bs : List Byte) (h : s.tester.cmdSeq ≠ some n) :
    (markRead s n bs i).tester.outRead = i :: s.tester.outRead ∧ (markRead s n bs i).tun = s.tun := by
  unfold markRead
  rw [if_neg h]
  exact ⟨rfl, rfl⟩

/-- A command's answer whose every segment has been read is read (R298). -/
theorem markRead_of_cmd (n i : Nat) (bs : List Byte) (h : s.tester.cmdSeq = some n) :
    (markRead s n bs i).tester.cmdRead = i :: s.tester.cmdRead ∧
      ∀ rd full, s.tun.slot = .ready rd full → (∀ j, j ≤ segLast bs.length → j = i ∨ j ∈ s.tester.cmdRead) →
        (markRead s n bs i).tun.slot = .ready true full := by
  unfold markRead
  rw [if_pos h]
  extract_lets u
  have hu : u.tester.cmdRead = i :: s.tester.cmdRead ∧ u.tun = s.tun := ⟨rfl, rfl⟩
  obtain ⟨hr, htun⟩ := hu
  refine ⟨?_, fun rd full hslot hall => ?_⟩
  · split
    · split
      · exact hr
      · exact hr
    · exact hr
  · have ha : allRead u.tester bs.length = true := by
      simp only [allRead, hr, List.all_eq_true, List.mem_range, List.contains_eq_mem, List.mem_cons, decide_eq_true_eq]
      exact fun j hj => hall j (by omega)
    rw [if_pos ha, htun, hslot]

/-! ### HELLO, T_AUTH and commands (R141 to R143) -/

theorem wholeAt_iff {n : Nat} : wholeAt s p n = true ↔ sessionAt s p = true ∧ s.tester.inWhole = true ∧ s.tester.inType = n := by
  simp [wholeAt, and_assoc]

theorem octetsOf_length (n k : Nat) : (octetsOf n k).length = k := by simp [octetsOf]

/-- R138, R142: what a failed T_AUTH leaves. -/
theorem authFailure_spec (code : Nat) (h : p < s.ports.length) :
    (authFailure s p code).tester.st = (if 2 ≤ (s.dc p).authFails then .lockedOut else .entered) ∧
      ((authFailure s p code).dc p).authFails = (s.dc p).authFails + 1 ∧ (authFailure s p code).tester.delayUntil = some (s.frame + 1000) := by
  have hd : ((s.updDc p fun d => { d with authFails := d.authFails + 1 }).dc p).authFails = (s.dc p).authFails + 1 := by
    simp [State.dc, State.dc_updDc, h]
  refine ⟨?_, hd, rfl⟩
  show (if decide (3 ≤ ((s.updDc p fun d => { d with authFails := d.authFails + 1 }).dc p).authFails) = true then TunSt.lockedOut else .entered) = _
  rw [hd]
  simp

/-- R141: the answer to a HELLO that is admitted. -/
def helloAnswered (s : State) : State :=
  s.freeNext.updTester fun t =>
    { reply t 0x02 t.inSeq ([1, 0] ++ leBytes 2 0x0304 ++ octetsOf s.freeN 32) (s.tester.delayUntil.all fun d => decide (d ≤ s.frame)) with
      st := .authenticating, slot := rdB s.tester.inBytes 1, nt := (s.tester.inBytes.drop 4).take 32, np := octetsOf s.freeN 32 }

theorem hello_of_entered (hw : wholeAt s p 0x01 = true) (hst : s.tester.st = .entered) (hok : helloOk s.tester.inBytes = true) :
    hello p s = helloAnswered s := by
  unfold hello
  rw [if_pos hw, hst]
  dsimp only
  rw [if_pos hok]
  unfold helloAnswered
  cases s.tester.delayUntil <;> rfl

/-- R142: the answer to a T_AUTH that is found right. -/
def authPassed (s : State) (p : Nat) : State :=
  (s.freeNext.updTester fun t =>
    { reply t 0x04 t.inSeq
        (idPublic s ++ signWith s (authMsg s 0x50 s.tester.nt s.tester.np) ++ [byteOf (b1 (privilege s))]) false with
      st := .opened, workshop := privilege s, outFrame := s.frame + 40 }).pushEvent 0x20 p [byteOf (b1 (privilege s))]

/-- Settles O39: the branch that each message takes, and what it leaves of the session and of the tunnel's slot. -/
theorem testerMessages : Obligations.TesterMessages := by
  intro s p hs hp hat
  obtain ⟨ha, hd, hc, hport⟩ := sessionAt_iff.1 hat
  have hl := hs.port_lt (attachedPd_serves ha)
  have hlh : p < (tunnelHeard s p).ports.length := by simpa using hl
  have hr := attachedPd_runs ha
  refine ⟨fun hdr data hok => ?_, fun hdr data g hg hok hi hlast ht hn => ?_, fun sb ib sq ix hsq hix => ⟨fun ho => ?_, fun ho => ?_, fun bs ho hi => ?_⟩,
    fun hw hst hdl hok => ?_, fun hw hst => ⟨_, rfl, fun hf => ?_, fun code hf => ?_⟩, fun he ht hst => ?_, fun hw hst hheld => ?_⟩
  · refine .intro rfl ((State.restRow_of_runs hr).trans (segPut_of_wrong hat hok)) ⟨?_, ?_, ?_, ?_⟩
    · simp [State.updTester, noMessage]
    · simp [State.updTester, noMessage]
    · exact segAnswer_tx _ _ _ _ hlh rfl rfl hl
    · simp [State.updTester]
  · subst hg
    refine .intro rfl ((State.restRow_of_runs hr).trans (segPut_of_first hat hok hi hlast ht hn)) ⟨?_, ?_, ?_, ?_, ?_⟩
    · simp [State.updTester, takeSegment, hi]
    · simp [State.updTester, takeSegment, hi]
      omega
    · simp [State.updTester, takeSegment, hi, segSize_of_more hok hlast]
      rfl
    · exact segAnswer_tx _ _ _ _ hlh rfl rfl hl
    · simp [State.updTester, takeSegment]
  · subst hsq hix
    exact .intro rfl ((State.restRow_of_runs hr).trans ((segGet_eq hat).1 ho)) ⟨segAnswer_tx _ _ _ _ hlh rfl rfl hl, rfl, rfl⟩
  · subst hsq hix
    exact .intro rfl ((State.restRow_of_runs hr).trans ((segGet_eq hat).2.1 ho)) (segAnswer_tx _ _ _ _ hlh rfl rfl hl)
  · subst hsq hix
    obtain ⟨hports, hotp⟩ := markRead_frame (s := tunnelHeard s p) sb.toNat ib.toNat bs
    refine .intro rfl ((State.restRow_of_runs hr).trans ((segGet_eq hat).2.2 bs ho hi)) ⟨?_, ?_, ?_⟩
    · refine segAnswer_tx _ _ _ _ (by rw [hports]; exact hlh) ?_ hotp hl
      rw [State.pd, State.port, hports]
      rfl
    · exact markRead_of_other (s := tunnelHeard s p) _ _ _
    · exact markRead_of_cmd (s := tunnelHeard s p) _ _ _
  · refine .intro rfl (hello_of_entered hw hst hok) ⟨rfl, rfl, ?_, rfl, ?_, rfl⟩
    · show (s.tester.delayUntil.all fun d => decide (d ≤ s.frame)) = true
      rw [hdl]
      rfl
    · exact octetsOf_length _ _
  · have he : tAuth p s = authPassed s p := by
      unfold tAuth
      rw [if_pos hw, hst]
      dsimp only
      rw [hf]
      rfl
    rw [he]
    exact ⟨rfl, rfl, rfl, rfl, rfl⟩
  · have he : tAuth p s = authFailure s p code := by
      unfold tAuth
      rw [if_pos hw, hst]
      dsimp only
      rw [hf]
    rw [he]
    exact authFailure_spec code hl
  · exact congrArg Host.Outcome.next (if_pos (by simp [he, ht, hst]))
  · have he : tunnelCmd p s =
        ({ s with tun := s.tun.claim { bytes := s.tester.inBytes, tag := s.tester.inSeq, workshop := s.tester.workshop } }).updTester
          fun t => cmdReply t t.inSeq := by
      unfold tunnelCmd
      rw [if_pos hw, if_pos (by simp [hst])]
      exact if_neg (by exact ne_true_of_eq_false hheld)
    exact .intro rfl he ⟨rfl, rfl, rfl, rfl, rfl, rfl⟩

end Sys2Proof.Machine
end

section
/-! PROOF. The frame of a fault on a phase, a ridge or a thermistor. -/
namespace Sys2Proof.Machine
variable {s : State}

/-! ### The frame of a fault raised on a phase, a ridge or a thermistor (R255, R259) -/

theorem State.raisePhase_frame (k i : Nat) :
    s.raise (.phase k) i =
        { s with
          phases := (s.raise (.phase k) i).phases, faultN := (s.raise (.phase k) i).faultN
          attn := (s.raise (.phase k) i).attn, irq := (s.raise (.phase k) i).irq } ∧
      (s.raise (.phase k) i).phases.length = s.phases.length ∧ ∀ j, j ≠ k → (s.raise (.phase k) i).phase j = s.phase j := by
  obtain ⟨a, n, q, e⟩ | ⟨-, e⟩ := s.raise_shape (.phase k) i
  · rw [e]
    exact ⟨rfl, s.updPhase_length k _, fun j hj => s.phase_updPhase_ne k j _ hj⟩
  · rw [e]
    exact ⟨rfl, rfl, fun _ _ => rfl⟩

theorem State.raiseRidge_frame (r i : Nat) :
    s.raise (.ridge r) i =
        { s with
          ridges := (s.raise (.ridge r) i).ridges, faultN := (s.raise (.ridge r) i).faultN
          attn := (s.raise (.ridge r) i).attn, irq := (s.raise (.ridge r) i).irq } ∧
      (s.raise (.ridge r) i).ridges.length = s.ridges.length ∧ ∀ x, x ≠ r → (s.raise (.ridge r) i).ridge x = s.ridge x := by
  obtain ⟨a, n, q, e⟩ | ⟨-, e⟩ := s.raise_shape (.ridge r) i
  · rw [e]
    exact ⟨rfl, s.updRidge_length r _, fun j hj => s.ridge_updRidge_ne r j _ hj⟩
  · rw [e]
    exact ⟨rfl, rfl, fun _ _ => rfl⟩

theorem State.raiseRidge_phases (r i : Nat) : (s.raise (.ridge r) i).phases = s.phases := by
  rw [(s.raiseRidge_frame r i).1]

theorem State.raiseRidge_ports (r i : Nat) : (s.raise (.ridge r) i).ports = s.ports := by
  rw [(s.raiseRidge_frame r i).1]

theorem State.raiseTherm_frame (i : Nat) :
    s.raise .therm i =
      { s with
        fltTherm := (s.raise .therm i).fltTherm, faultN := (s.raise .therm i).faultN
        attn := (s.raise .therm i).attn, irq := (s.raise .therm i).irq } := by
  obtain ⟨a, n, q, e⟩ | ⟨-, e⟩ := s.raise_shape .therm i
  · rw [e]
    rfl
  · rw [e]

theorem State.raisePhase_sticky {k i : Nat} (h : k < s.phases.length) (hi : i < 16) :
    ((s.raise (.phase k) i).phase k).flt.sticky.getLsbD i = true :=
  s.raise_sticky (.phase k) i h hi

theorem State.raiseRidge_sticky {r i : Nat} (h : r < s.ridges.length) (hi : i < 16) :
    ((s.raise (.ridge r) i).ridge r).flt.sticky.getLsbD i = true :=
  s.raise_sticky (.ridge r) i h hi

/-! ### Which phases, ridges and ports a state has -/

theorem State.Shaped.phase_lt {k : Nat} (h : s.Shaped) (hk : s.hasPhase k = true) : k < s.phases.length := by
  obtain ⟨-, hl, -⟩ := h
  simp only [State.hasPhase, Bool.and_eq_true, decide_eq_true_eq] at hk
  omega

theorem State.Shaped.ridge_lt {r : Nat} (h : s.Shaped) (hr : r < 6) : r < s.ridges.length := by
  obtain ⟨-, -, hl, -⟩ := h
  omega

theorem State.phaseLive_iff {k : Nat} : s.phaseLive k = true ↔
    s.hasPhase k = true ∧ (s.phase k).fitted = true ∧ (s.phase k).stopped = false ∧ (s.ridge (ridgeOfPhase k)).run ≠ .stopped := by
  simp [State.phaseLive, and_assoc]

theorem State.ridgeLive_iff {r : Nat} : s.ridgeLive r = true ↔
    r < 6 ∧ s.locked = true ∧ ((s.ridge r).run = .running ∨ (s.ridge r).run = .held) := by
  simp [State.ridgeLive, and_assoc]

/-! ### Phase commands that only update their phase and raise a fault of it -/

theorem PhaseAlone.refl (k : Nat) (s : State) : PhaseAlone k s s := ⟨rfl, fun _ _ => rfl⟩

theorem OnlyPhase.of_updPhase {t : State} {k : Nat} {f : Phase → Phase} (h : OnlyPhase k (s.updPhase k f) t) : OnlyPhase k s t := by
  obtain ⟨h1, h2, h3⟩ := h
  refine ⟨?_, fun j hj => (h2 j hj).trans (s.phase_updPhase_ne k j f hj), h3⟩
  rw [h1]
  rfl

theorem onlyPhase_raise (s : State) (k i : Nat) : OnlyPhase k s (s.raise (.phase k) i) := by
  obtain ⟨e, -, h⟩ := s.raisePhase_frame k i
  have hr : (s.raise (.phase k) i).ridges = s.ridges := by
    rw [e]
  refine ⟨?_, h, fun r _ => by rw [State.ridge, hr, State.ridge]⟩
  rw [e]

theorem State.raisePhase_ridges (k i : Nat) : (s.raise (.phase k) i).ridges = s.ridges := by
  rw [(s.raisePhase_frame k i).1]

end Sys2Proof.Machine
end

section
/-! PROOF. Phase and ridge stops. -/
namespace Sys2Proof.Machine
variable {s : State}

/-! ### R39: a stop of one phase -/

theorem State.stopPhase_spec {k b : Nat} (h : k < s.phases.length) (hb : b < 16) :
    OnlyPhase k s (s.stopPhase k b) ∧ (s.stopPhase k b).ridges = s.ridges ∧ ((s.stopPhase k b).phase k).stopped = true ∧
      ((s.stopPhase k b).phase k).pwmOff = true ∧ ((s.stopPhase k b).phase k).active = 0 ∧ ((s.stopPhase k b).phase k).steer = 0 ∧
      ((s.stopPhase k b).phase k).guard = .free ∧ ((s.stopPhase k b).phase k).flt.sticky.getLsbD b = true ∧
      ((s.stopPhase k b).phase k).readsAbsent = (s.phase k).readsAbsent := by
  unfold State.stopPhase
  refine ⟨(onlyPhase_raise _ k b).of_updPhase, ?_, ?_, ?_, ?_, ?_, ?_, State.raisePhase_sticky (by simpa using h) hb, ?_⟩
  · rw [State.raisePhase_ridges, State.updPhase_ridges]
  all_goals simp [State.phase_updPhase, h, Phase.off]

/-! ### R40, R158: a stop of a ridge -/

/-- The first `n` phases of ridge `r` are updated. -/
theorem overN_updPhase (g : Phase → Phase) (r n : Nat) (hn : 8 * r + n ≤ s.phases.length) :
    overN n (fun k t => t.updPhase (8 * r + k) g) s = { s with phases := (overN n (fun k t => t.updPhase (8 * r + k) g) s).phases } ∧
      (overN n (fun k t => t.updPhase (8 * r + k) g) s).phases.length = s.phases.length ∧
      (∀ j, j < n → (overN n (fun k t => t.updPhase (8 * r + k) g) s).phase (8 * r + j) = g (s.phase (8 * r + j))) ∧
      ∀ k, (∀ j, j < n → k ≠ 8 * r + j) → (overN n (fun k t => t.updPhase (8 * r + k) g) s).phase k = s.phase k := by
  induction n with
  | zero => exact ⟨rfl, rfl, fun j hj => absurd hj (by omega), fun _ _ => rfl⟩
  | succ n ih =>
    obtain ⟨h1, h2, h3, h4⟩ := ih (by omega)
    rw [overN_succ]
    generalize overN n (fun k t => t.updPhase (8 * r + k) g) s = u at h1 h2 h3 h4
    refine ⟨?_, ?_, fun j hj => ?_, fun k hk => ?_⟩
    · rw [h1]
      rfl
    · rw [State.updPhase_length, h2]
    · by_cases hjn : j = n
      · subst hjn
        rw [State.phase_updPhase _ _ _ (by omega), h4 _ fun i hi => by omega]
      · rw [State.phase_updPhase_ne _ _ _ _ (by omega), h3 j (by omega)]
    · rw [State.phase_updPhase_ne _ _ _ _ (hk n (by omega)), h4 k fun j hj => hk j (by omega)]

/-- The first `n` paths of ridge `r` are updated. -/
theorem overN_updPath (g : Path → Path) (r n : Nat) (hn : 4 * r + n ≤ s.ports.length) :
    overN n (fun k t => t.updPath (4 * r + k) g) s = { s with ports := (overN n (fun k t => t.updPath (4 * r + k) g) s).ports } ∧
      (overN n (fun k t => t.updPath (4 * r + k) g) s).ports.length = s.ports.length ∧
      (∀ j, j < n → (overN n (fun k t => t.updPath (4 * r + k) g) s).path (4 * r + j) = g (s.path (4 * r + j))) ∧
      ∀ k, (∀ j, j < n → k ≠ 4 * r + j) → (overN n (fun k t => t.updPath (4 * r + k) g) s).port k = s.port k := by
  induction n with
  | zero => exact ⟨rfl, rfl, fun j hj => absurd hj (by omega), fun _ _ => rfl⟩
  | succ n ih =>
    obtain ⟨h1, h2, h3, h4⟩ := ih (by omega)
    rw [overN_succ]
    generalize overN n (fun k t => t.updPath (4 * r + k) g) s = u at h1 h2 h3 h4
    refine ⟨?_, ?_, fun j hj => ?_, fun k hk => ?_⟩
    · rw [h1]
      rfl
    · rw [State.updPath_ports_length, h2]
    · by_cases hjn : j = n
      · subst hjn
        rw [State.path, State.path_updPath _ _ _ (by omega), State.path, h4 _ fun i hi => by omega]
      · rw [State.path, State.updPath, State.port_updPort_ne _ _ _ _ (by omega)]
        exact h3 j (by omega)
    · rw [State.updPath, State.port_updPort_ne _ _ _ _ (hk n (by omega)), h4 k fun j hj => hk j (by omega)]

/-! ### R39: the comparator's end of an on-time -/

theorem Phase.ended_of_cut (f : Phase) (c x : Nat) :
    ({ f with cut := some (f.ended c), pkNow := true } : Phase).ended x ≤ c ∧
      ({ f with cut := some (f.ended c), pkNow := true } : Phase).ended x ≤ f.ended x := by
  simp only [Phase.ended]
  cases f.cut <;> simp only [] <;> omega

/-- The legs of a phase whose comparator has acted lie within those before, and before the engine cycle of the act. -/
theorem Phase.legs_of_cut {f : Phase} {c on off : Nat} (h : ({ f with pkNow := true, cut := some (f.ended c) } : Phase).legs = some (on, off)) :
    on ≤ c ∧ off ≤ c ∧ ∃ a b, f.legs = some (a, b) ∧ on ≤ a ∧ off ≤ b := by
  unfold Phase.legs at h ⊢
  split at h
  case isTrue => cases h
  case isFalse hg =>
    rw [if_neg hg]
    obtain ⟨⟨a, b⟩, hd, he⟩ := Option.map_eq_some_iff.1 h
    obtain ⟨rfl, rfl⟩ := Prod.mk.inj he
    obtain ⟨h1, h2⟩ := f.ended_of_cut c a
    obtain ⟨h3, h4⟩ := f.ended_of_cut c b
    exact ⟨h1, h3, f.ended a, f.ended b, by rw [hd]; rfl, h2, h4⟩

/-! ### R40, R158: the stop of a ridge -/

/-- R40, R158: what the stop of a ridge leaves. -/
def AfterRidgeStop (r b : Nat) (s t : State) : Prop :=
  t = { s with phases := t.phases, ports := t.ports, ridges := t.ridges, faultN := t.faultN, attn := t.attn, irq := t.irq } ∧
    (t.ridge r).run = .stopped ∧ (t.ridge r).flt.sticky.getLsbD b = true ∧
    (∀ j, j < 8 → (t.phase (8 * r + j)).active = 0 ∧ (t.phase (8 * r + j)).pwmOff = true ∧ (t.phase (8 * r + j)).guard = .free ∧
      (t.phase (8 * r + j)).steer =
        (if (s.phase (8 * r + j)).steer = 2 ∨ (s.phase (8 * r + j)).held = true then 0 else (s.phase (8 * r + j)).steer)) ∧
    (∀ q, q < 4 → (t.path (4 * r + q)).swOn = false ∧ (t.path (4 * r + q)).ppg = false) ∧
    (∀ x, x ≠ r → t.ridge x = s.ridge x) ∧ (∀ k, ridgeOfPhase k ≠ r → t.phase k = s.phase k) ∧
    (∀ p, ridgeOfPort p ≠ r → t.port p = s.port p)

theorem State.stopRidge_spec {r b : Nat} (hs : s.Shaped) (hr : r < 6) (hb : b < 16) : AfterRidgeStop r b s (s.stopRidge r b) := by
  have hrl := hs.ridge_lt hr
  obtain ⟨hports, hphases, -⟩ := hs
  unfold State.stopRidge
  extract_lets u v w
  obtain ⟨u1, u2, u3, u4⟩ := overN_updPhase (s := s) Phase.offWithRidge r 8 (by omega)
  rw [show overN 8 (fun k t => t.updPhase (8 * r + k) Phase.offWithRidge) s = u from rfl] at u1 u2 u3 u4
  have hup : u.ports = s.ports := by
    rw [u1]
  have hur : u.ridges = s.ridges := by
    rw [u1]
  obtain ⟨v1, v2, v3, v4⟩ := overN_updPath (s := u) Path.opened r 4 (by rw [hup]; omega)
  rw [show overN 4 (fun k t => t.updPath (4 * r + k) Path.opened) u = v from rfl] at v1 v2 v3 v4
  have hvp : v.phases = u.phases := by
    rw [v1]
  have hvr : v.ridges = s.ridges := by
    rw [v1]
    exact hur
  obtain ⟨w1, w2, w3⟩ := w.raiseRidge_frame r b
  have hwl : r < w.ridges.length := by
    simp only [w, State.updRidge_length, hvr]
    exact hrl
  have hph : ∀ k, (w.raise (.ridge r) b).phase k = u.phase k := fun k => by
    rw [State.phase, State.raiseRidge_phases, State.updRidge_phases, hvp, State.phase]
  have hpo : ∀ q, (w.raise (.ridge r) b).port q = v.port q := fun q => by
    rw [State.port, State.raiseRidge_ports, State.updRidge_ports, State.port]
  have hri : w.ridge r = { v.ridge r with run := .stopped, overrun := false, eng := { (v.ridge r).eng with running := false } } := by
    simp only [w]
    exact State.ridge_updRidge v r _ (by rw [hvr]; exact hrl)
  have hfr : w = { s with phases := w.phases, ports := w.ports, ridges := w.ridges } := by
    simp only [w]
    clear_value v
    rw [v1]
    clear_value u
    rw [u1]
    rfl
  refine ⟨?_, ?_, State.raiseRidge_sticky hwl hb, fun j hj => ?_, fun q hq => ?_, fun x hx => ?_, fun k hk => ?_, fun p hp => ?_⟩
  · clear_value w
    rw [w1, hfr]
  · rw [State.raise_ridge_run, hri]
  · rw [hph, u3 j hj]
    refine ⟨rfl, rfl, rfl, ?_⟩
    simp [Phase.offWithRidge, Phase.off]
  · have e := v3 q hq
    rw [State.path] at e
    rw [State.path, hpo, e]
    exact ⟨rfl, rfl⟩
  · rw [w3 x hx]
    simp only [w]
    rw [State.ridge_updRidge_ne _ _ _ _ hx, State.ridge, hvr, State.ridge]
  · rw [hph, u4 k fun j hj => ?_]
    unfold ridgeOfPhase at hk
    omega
  · rw [hpo, v4 p fun j hj => ?_, State.port, hup, State.port]
    unfold ridgeOfPort at hp
    omega

/-- Settles O43: the condition of each event, and what a stop of a phase (`State.stopPhase_spec`) and of a ridge (`State.stopRidge_spec`) leave. -/
theorem phaseAndRidgeStops : Obligations.PhaseAndRidgeStops := by
  refine ⟨?carrier, ?peak, ?stop, ?inv, ?ridge, ?again, ?ntc⟩
  case carrier =>
    intro s k hs hk
    have hl := hs.phase_lt hk
    refine .intro rfl (if_pos hk) ⟨(PhaseAlone.refl k s).updPhase _, ?_⟩
    cases hp : (s.phase k).pwmOff <;> simp [State.phase_updPhase, hl, hp]
  case peak =>
    intro s k ma cyc hs hk hf
    have hl := hs.phase_lt hk
    refine ⟨fun h => ?_, fun h1 h2 => ?_⟩
    · have ho : overPeak s k ma = true := by
        simp only [overPeak, decide_eq_true_eq]
        omega
      refine .intro rfl (if_pos (by simp [hk, hf, ho])) ⟨(PhaseAlone.refl k s).updPhase _, ?_⟩
      rw [State.phase_updPhase _ _ _ hl]
      exact ⟨rfl, rfl, fun on off hlegs => Phase.legs_of_cut hlegs⟩
    · have ho : overPeak s k ma = false := by
        simp only [overPeak, decide_eq_false_iff_not]
        omega
      exact congrArg Host.Outcome.next (if_neg (by simp [ho]))
  case stop =>
    intro s k c b hs hlive hc
    obtain ⟨hk, -⟩ := State.phaseLive_iff.1 hlive
    have hl := hs.phase_lt hk
    obtain ⟨rfl, rfl, hrun⟩ | ⟨rfl, rfl⟩ := hc
    · obtain ⟨h1, h2, h3, h4, h5, h6, h7, h8, h9⟩ := State.stopPhase_spec (s := s) (b := 1) hl (by omega)
      exact .intro rfl (if_pos (by simp [hlive, hrun])) ⟨h1, h2, h3, h4, h5, h6, h7, h8, by simp [h9]⟩
    · obtain ⟨h1, h2, h3, h4, h5, h6, h7, h8, h9⟩ :=
        State.stopPhase_spec (s := s.updPhase k fun f => { f with readsAbsent := true }) (b := 2) (by simpa using hl) (by omega)
      exact .intro rfl (if_pos hlive) ⟨h1.of_updPhase, h2, h3, h4, h5, h6, h7, h8, by simp [h9, State.phase_updPhase, hl]⟩
  case inv =>
    intro s k hs hlive hrun
    obtain ⟨hk, -, hst, -⟩ := State.phaseLive_iff.1 hlive
    have hl := hs.phase_lt hk
    by_cases hb : (s.ridge (ridgeOfPhase k)).bank.base = 0
    · refine .intro rfl (u := s.raise (.phase k) 3) (by simp [phaseInvStop, hlive, hrun, hb])
        ⟨onlyPhase_raise s k 3, State.raisePhase_ridges k 3, fun h => absurd hb h, fun _ => ⟨by simp, by simp⟩, by simp,
          by simp, by simp [hst], State.raisePhase_sticky hl (by omega)⟩
    · refine .intro rfl (u := (s.updPhase k fun f => { f with invOut := true, shadow := 0 }).raise (.phase k) 3)
        (by simp [phaseInvStop, hlive, hrun, hb]) ⟨(onlyPhase_raise _ k 3).of_updPhase, ?_, ?_⟩
      · rw [State.raisePhase_ridges, State.updPhase_ridges]
      · have hk3 := State.raisePhase_sticky (s := s.updPhase k fun f => { f with invOut := true, shadow := 0 }) (k := k) (i := 3)
          (by simpa using hl) (by omega)
        simp [State.phase_updPhase, hl, hb, hst, hk3]
  case ridge =>
    intro s r c b hs hlive hc
    obtain ⟨hr, -⟩ := State.ridgeLive_iff.1 hlive
    have hstop : ∀ b, s.stopBy r b = s.stopRidge r b := fun b => if_pos hlive
    obtain ⟨rfl, rfl, h⟩ | ⟨rfl, rfl, h⟩ := hc
    · exact .intro rfl ((if_pos (by simp [h])).trans (hstop 4)) (State.stopRidge_spec hs hr (by omega))
    · exact .intro rfl ((if_pos h).trans (hstop 6)) (State.stopRidge_spec hs hr (by omega))
  case again =>
    intro s r c b hs hr hlk hst hc
    have hstop : ∀ b, s.stopBy r b = s.raise (.ridge r) b := fun b =>
      (if_neg (by simp [State.ridgeLive, hst])).trans (if_pos (by simp [hr, hlk, hst]))
    have main : ∀ b, b < 16 → (s.raise (.ridge r) b = { s with
          ridges := (s.raise (.ridge r) b).ridges, faultN := (s.raise (.ridge r) b).faultN
          attn := (s.raise (.ridge r) b).attn, irq := (s.raise (.ridge r) b).irq }) ∧ ((s.raise (.ridge r) b).ridge r).run = .stopped ∧
        ((s.raise (.ridge r) b).ridge r).flt.sticky.getLsbD b = true ∧ ∀ x, x ≠ r → (s.raise (.ridge r) b).ridge x = s.ridge x := fun b hb => by
      obtain ⟨h1, -, h3⟩ := s.raiseRidge_frame r b
      exact ⟨h1, by rw [State.raise_ridge_run, hst], State.raiseRidge_sticky (hs.ridge_lt hr) hb, h3⟩
    obtain ⟨rfl, rfl, h⟩ | ⟨rfl, rfl, h⟩ := hc
    · exact .intro rfl ((if_pos (by simp [h])).trans (hstop 4)) (main 4 (by omega))
    · exact .intro rfl ((if_pos h).trans (hstop 6)) (main 6 (by omega))
  case ntc =>
    intro s r hr hlk hrun ht
    have hbad : ntcBad (s.ridge r) = true := by simpa [ntcBad, hrun] using ht
    exact .intro rfl (if_pos (by simp [hr, hlk, hbad])) ⟨s.raiseTherm_frame r, s.raise_sticky .therm r trivial (by omega)⟩

end Sys2Proof.Machine
end

section
/-! PROOF. The steering guard. -/
namespace Sys2Proof.Machine
variable {s t : State} {k : Nat}

/-! ### R35, R147: the STAT of the guard's acts -/

/-- R35, R147: what the STAT of a phase changes: MODE and STAT of the phase, and the phase's STAT word in its ridge's engine. -/
structure Restatted (k : Nat) (s t : State) : Prop where
  frame : t = { s with phases := t.phases, ridges := t.ridges }
  phase : ∃ m w, t.phase k = { s.phase k with mode := m, stat := w }
  ridge : t.ridge (ridgeOfPhase k) = { s.ridge (ridgeOfPhase k) with eng := (t.ridge (ridgeOfPhase k)).eng }
  eng : StatOnly k s t
  phases : ∀ j, j ≠ k → t.phase j = s.phase j
  ridges : ∀ r, r ≠ ridgeOfPhase k → t.ridge r = s.ridge r

theorem Restatted.refl (k : Nat) (s : State) : Restatted k s s where
  frame := rfl
  phase := ⟨_, _, rfl⟩
  ridge := rfl
  eng := ⟨rfl, fun _ _ => rfl⟩
  phases _ _ := rfl
  ridges _ _ := rfl

theorem statPace_phase (h : k < s.phases.length) :
    ∃ m, (statPace k s).phase k = { s.phase k with mode := m, stat := BitVec.ofNat 16 (phaseStat { s.phase k with mode := m }) } :=
  ⟨phaseMode s k, s.phase_updPhase k _ h⟩

theorem statPace_ridge (r : Nat) : (statPace k s).ridge r = s.ridge r := rfl

theorem restat_spec (hl : k < s.phases.length) (hr : ridgeOfPhase k < s.ridges.length) (hw : cellsWf 0 (s.ridge (ridgeOfPhase k)).eng.x = true) :
    Restatted k s (restat k s) := by
  unfold restat
  extract_lets r q u
  split
  · exact Restatted.refl k s
  · obtain ⟨m, hm⟩ := statPace_phase hl
    have hr' : r < u.ridges.length := hr
    have hur : u.ridge r = s.ridge r := rfl
    refine ⟨rfl, ⟨m, _, hm⟩, ?_, ⟨?_, fun a ha => ?_⟩, fun j hj => s.phase_updPhase_ne k j _ hj, fun x hx => u.ridge_updRidge_ne r x _ hx⟩
    · rw [show ridgeOfPhase k = r from rfl, u.ridge_updRidge r _ hr', hur]
    · rw [show ridgeOfPhase k = r from rfl, u.ridge_updRidge r _ hr', hur]
    · rw [show ridgeOfPhase k = r from rfl, u.ridge_updRidge r _ hr', hur]
      exact cellsRead_write_other hw ha

/-- R147: where the ridge's engine has not run yet, the word stands in its X memory. -/
theorem restat_stat (hl : k < s.phases.length) (hr : ridgeOfPhase k < s.ridges.length) (hw : cellsWf 0 (s.ridge (ridgeOfPhase k)).eng.x = true)
    (hd : (s.ridge (ridgeOfPhase k)).run ≠ .depopulated) (he : (s.ridge (ridgeOfPhase k)).eng.running = false)
    (hp : (s.ridge (ridgeOfPhase k)).published = false) :
    cellsRead ((restat k s).ridge (ridgeOfPhase k)).eng.x (4 * localOfPhase k + 3) = BitVec.ofNat 16 (phaseStat ((restat k s).phase k)) := by
  obtain ⟨m, hm⟩ := statPace_phase hl
  unfold restat
  extract_lets r q u
  have hr' : r < u.ridges.length := hr
  have hur : u.ridge r = s.ridge r := rfl
  rw [if_neg (by simp [q, r, hd, he, hp]), show ridgeOfPhase k = r from rfl, u.ridge_updRidge r _ hr', hur, State.updRidge_phase, hm]
  exact cellsRead_write_same hw

/-! ### R165: a refusal -/

theorem State.refuse_spec (n : Nat) (hl : k < s.phases.length) (hr : ridgeOfPhase k < s.ridges.length) :
    OnlyPhase k s (s.refuse k n) ∧ (s.refuse k n).phases.length = s.phases.length ∧ (s.refuse k n).ridges.length = s.ridges.length ∧
      (s.refuse k n).phase k =
        { s.phase k with
          guard := .free, refused := true, active := 0, loaded := 0, pwmOff := true, slot := (s.ledger.phase k).slot
          slotTo := (s.ledger.phase k).slot } ∧
      ((s.refuse k n).ridge (ridgeOfPhase k)).eng = (s.ridge (ridgeOfPhase k)).eng ∧
      ((s.refuse k n).ridge (ridgeOfPhase k)).nRefuse = sat1 (s.ridge (ridgeOfPhase k)).nRefuse ∧
      ((s.refuse k n).ridge (ridgeOfPhase k)).guardReason =
        (if (s.ridge (ridgeOfPhase k)).guardReason = 0 then reasonWord k n else (s.ridge (ridgeOfPhase k)).guardReason) ∧
      ((s.refuse k n).ridge (ridgeOfPhase k)).flt.sticky.getLsbD 3 = true := by
  unfold State.refuse
  extract_lets l u w
  obtain ⟨h1, h2, h3⟩ := w.raiseRidge_frame (ridgeOfPhase k) 3
  have hrl : ridgeOfPhase k < w.ridges.length := by simpa [w, u] using hr
  have hph : (w.raise (.ridge (ridgeOfPhase k)) 3).phases = u.phases := State.raiseRidge_phases ..
  have hwr : w.ridge (ridgeOfPhase k) = _ := u.ridge_updRidge (ridgeOfPhase k) _ (by simpa [u] using hr)
  refine ⟨⟨?_, fun j hj => ?_, fun x hx => ?_⟩, ?_, ?_, ?_, ?_, ?_, ?_, State.raiseRidge_sticky hrl (by omega)⟩
  · have hw : w = { s with phases := w.phases, ridges := w.ridges } := rfl
    clear_value w
    rw [h1, hw]
  · rw [State.phase, hph]
    exact s.phase_updPhase_ne k j _ hj
  · rw [h3 x hx]
    exact u.ridge_updRidge_ne _ _ _ hx
  · rw [hph]
    exact s.updPhase_length k _
  · rw [h2]
    simp [w, u]
  · rw [State.phase, hph]
    exact s.phase_updPhase k _ hl
  · rw [State.raise_ridge_eng, hwr]
    rfl
  · rw [State.raise_ridge_nRefuse, hwr]
    rfl
  · rw [State.raise_ridge_guardReason, hwr]
    rfl

/-! ### The guard's acts -/

theorem Restatted.only {u : State} (h : Restatted k u t) (o : OnlyPhase k s u) : OnlyPhase k s t := by
  obtain ⟨o1, o2, o3⟩ := o
  refine ⟨?_, fun j hj => (h.phases j hj).trans (o2 j hj), fun r hr => (h.ridges r hr).trans (o3 r hr)⟩
  rw [h.frame, o1]

theorem Restatted.statOnly {u : State} (h : Restatted k u t) (o : (u.ridge (ridgeOfPhase k)).eng = (s.ridge (ridgeOfPhase k)).eng) : StatOnly k s t := by
  obtain ⟨h1, h2⟩ := h.eng
  rw [o] at h1 h2
  exact ⟨h1, h2⟩

/-- An act on its phase alone. -/
theorem restat_updPhase (f : Phase → Phase) (hl : k < s.phases.length) (hr : ridgeOfPhase k < s.ridges.length)
    (hw : cellsWf 0 (s.ridge (ridgeOfPhase k)).eng.x = true) :
    OnlyPhase k s (restat k (s.updPhase k f)) ∧ StatOnly k s (restat k (s.updPhase k f)) ∧
      (restat k (s.updPhase k f)).ridge (ridgeOfPhase k) =
        { s.ridge (ridgeOfPhase k) with eng := ((restat k (s.updPhase k f)).ridge (ridgeOfPhase k)).eng } ∧
      ∃ m w, (restat k (s.updPhase k f)).phase k = { f (s.phase k) with mode := m, stat := w } := by
  have h := restat_spec (s := s.updPhase k f) (k := k) (by simpa using hl) hr hw
  have o : OnlyPhase k s (s.updPhase k f) := ⟨rfl, fun j hj => s.phase_updPhase_ne k j f hj, fun _ _ => rfl⟩
  have e := h.phase
  rw [s.phase_updPhase k f hl] at e
  exact ⟨h.only o, h.statOnly rfl, h.ridge, e⟩

/-- What a refusal leaves once its STAT is written. -/
def AfterRefusal (k n : Nat) (s t : State) : Prop :=
  OnlyPhase k s t ∧ StatOnly k s t ∧ (t.phase k).guard = .free ∧ (t.phase k).refused = true ∧ (t.phase k).pwmOff = true ∧
    (t.phase k).active = 0 ∧ (t.phase k).steer = (s.phase k).steer ∧
    (t.ridge (ridgeOfPhase k)).nRefuse = sat1 (s.ridge (ridgeOfPhase k)).nRefuse ∧
    (t.ridge (ridgeOfPhase k)).guardReason =
      (if (s.ridge (ridgeOfPhase k)).guardReason = 0 then reasonWord k n else (s.ridge (ridgeOfPhase k)).guardReason) ∧
    (t.ridge (ridgeOfPhase k)).flt.sticky.getLsbD 3 = true

theorem restat_refuse (n : Nat) (hl : k < s.phases.length) (hr : ridgeOfPhase k < s.ridges.length)
    (hw : cellsWf 0 (s.ridge (ridgeOfPhase k)).eng.x = true) : AfterRefusal k n s (restat k (s.refuse k n)) := by
  obtain ⟨o, hpl, hrl, hph, heng, h1, h2, h3⟩ := State.refuse_spec (s := s) n hl hr
  have h := restat_spec (s := s.refuse k n) (k := k) (by rw [hpl]; exact hl) (by rw [hrl]; exact hr) (by rw [heng]; exact hw)
  obtain ⟨m, w, e⟩ := h.phase
  have hridge := h.ridge
  refine ⟨h.only o, h.statOnly heng, ?_⟩
  rw [e, hph, hridge]
  exact ⟨rfl, rfl, rfl, rfl, rfl, h1, h2, h3⟩

/-! ### R164, R167: the pair closes -/

/-- The ledger in force still places the phase where the guard's request asks. -/
def pairCloses (s : State) (k : Nat) : Bool := (s.phase k).gTarget != 3 && requestPlaced s k (s.phase k).gTarget

/-- The phase is freed, on the pair it asked for where that closes; a migration counts. -/
def brokenClosed (k : Nat) (s : State) : State :=
  let u := s.updPhase k fun f =>
    { f with
      slot := (s.ledger.phase k).slot, slotTo := (s.ledger.phase k).slot
      guard := .free, active := 0, loaded := 0, pwmOff := false, ramp := 0, up := if pairCloses s k then 0 else 8, rampPrev := 0
      upPrev := if pairCloses s k then 0 else 8, steer := if pairCloses s k then f.gTarget else 0 }
  if (pairCloses s k && decide ((s.ledger.phase k).st = 2)) = true then u.updRidge (ridgeOfPhase k) fun q => { q with nMigrate := sat1 q.nMigrate } else u

theorem brokenClosed_spec (hl : k < s.phases.length) (hr : ridgeOfPhase k < s.ridges.length) :
    OnlyPhase k s (brokenClosed k s) ∧ (brokenClosed k s).phases.length = s.phases.length ∧
      (brokenClosed k s).ridges.length = s.ridges.length ∧
      ((brokenClosed k s).ridge (ridgeOfPhase k)).eng = (s.ridge (ridgeOfPhase k)).eng ∧
      (brokenClosed k s).phase k =
        { s.phase k with
          slot := (s.ledger.phase k).slot, slotTo := (s.ledger.phase k).slot
          guard := .free, active := 0, loaded := 0, pwmOff := false, ramp := 0, up := if pairCloses s k then 0 else 8, rampPrev := 0
          upPrev := if pairCloses s k then 0 else 8, steer := if pairCloses s k then (s.phase k).gTarget else 0 } ∧
      (brokenClosed k s).ridge (ridgeOfPhase k) =
        (if (pairCloses s k && decide ((s.ledger.phase k).st = 2)) = true then
          { s.ridge (ridgeOfPhase k) with nMigrate := sat1 (s.ridge (ridgeOfPhase k)).nMigrate }
        else s.ridge (ridgeOfPhase k)) := by
  unfold brokenClosed
  extract_lets u
  have hu : u.phase k = _ := s.phase_updPhase k _ hl
  split
  case isTrue hc =>
    have hx : (u.updRidge (ridgeOfPhase k) fun q => { q with nMigrate := sat1 q.nMigrate }).ridge (ridgeOfPhase k) = _ :=
      u.ridge_updRidge _ _ hr
    refine ⟨⟨rfl, fun j hj => s.phase_updPhase_ne k j _ hj, fun r hr => u.ridge_updRidge_ne _ _ _ hr⟩, s.updPhase_length k _,
      u.updRidge_length _ _, ?_, hu, ?_⟩
    · rw [hx]
      rfl
    · exact hx
  case isFalse hc =>
    refine ⟨⟨rfl, fun j hj => s.phase_updPhase_ne k j _ hj, fun _ _ => rfl⟩, s.updPhase_length k _, rfl, rfl, hu, ?_⟩
    rfl

/-- Settles O42: the condition of each act of the guard, and what an act (`restat_updPhase`) and a refusal (`restat_refuse`) leave. -/
theorem steeringGuard : Obligations.SteeringGuard := by
  intro s k r hs hk hrk
  subst hrk
  obtain ⟨hsh, hmem⟩ := hs
  have hl := hsh.phase_lt hk
  have hr : ridgeOfPhase k < s.ridges.length := hsh.ridge_lt (by
    simp only [State.hasPhase, Bool.and_eq_true, decide_eq_true_eq] at hk
    unfold ridgeOfPhase
    omega)
  have hw : cellsWf 0 (s.ridge (ridgeOfPhase k)).eng.x = true := (hmem.eng (ridgeOfPhase k)).1
  refine ⟨fun hg hage hz => ?_, fun hg hz => ?_, fun hg hb hset => ?_, fun c n hc => ?_⟩
  · obtain ⟨h1, h2, h3, m, w, h4⟩ := restat_updPhase (s := s) (k := k)
      (fun f => { f with guard := .count, gZc := 0, gAge := 0, pwmOff := true, active := 0, loaded := 0 }) hl hr hw
    refine .intro rfl (if_pos (by simp [hk, hg, hage, hz])) ⟨h1, h2, h3, ?_⟩
    rw [h4]
    exact ⟨rfl, rfl, rfl, rfl, rfl⟩
  · obtain ⟨h1, h2, h3, m, w, h4⟩ := restat_updPhase (s := s) (k := k)
      (fun f => { f with guard := .brk, steer := 0, gBt := 0, gSettled := 0, steerFrame := some s.frame, pwmOff := false }) hl hr hw
    refine .intro rfl (if_pos (by simp [hk, hg, hz])) ⟨h1, h2, h3, ?_, ?_, ?_, ?_, fun hd he hp => ?_⟩
    · rw [h4]
    · rw [h4]
    · rw [h4]
    · rw [h4]
    · exact restat_stat (by simpa using hl) hr hw hd he hp
  · have hbd : breakDone (s.phase k) = true := by simpa [breakDone, hb] using hset
    have he : guardBreakDone k s = restat k (brokenClosed k s) := by
      unfold guardBreakDone
      rw [if_pos (by simp [hk, hg, hbd])]
      rfl
    obtain ⟨o, hbl, hbr, heng, hph, hrid⟩ := brokenClosed_spec hl hr
    have h := restat_spec (s := brokenClosed k s) (k := k) (by rw [hbl]; exact hl) (by rw [hbr]; exact hr) (by rw [heng]; exact hw)
    obtain ⟨m, w, e⟩ := h.phase
    refine .intro rfl he ⟨h.only o, h.statOnly heng, ?_, ?_, ?_, ?_, fun ht hpl => ⟨?_, ?_⟩, fun hno => ⟨?_, ?_⟩⟩
    · rw [e, hph]
    · rw [e, hph]
    · rw [e, hph]
    · rw [e, hph]
    · rw [e, hph]
      simp [pairCloses, ht, hpl]
    · rw [h.ridge, hrid]
      by_cases hst : (s.ledger.phase k).st = 2 <;> simp [pairCloses, ht, hpl, hst]
    · have hgo : pairCloses s k = false := by
        obtain h | h := hno <;> simp [pairCloses, h]
      rw [e, hph]
      simp [hgo]
    · have hgo : pairCloses s k = false := by
        obtain h | h := hno <;> simp [pairCloses, h]
      rw [h.ridge, hrid]
      simp [hgo]
  · obtain ⟨rfl, rfl, hg, ha, hz⟩ | ⟨rfl, rfl, hg, ha, hz⟩ | ⟨rfl, rfl, hg, ha, ht, hz⟩ := hc
    · exact .intro rfl (if_pos (by simp [hk, hg, ha, hz])) (restat_refuse 1 hl hr hw)
    · exact .intro rfl (if_pos (by simp [hk, hg, ha, hz])) (restat_refuse 2 hl hr hw)
    · exact .intro rfl (if_pos (by simp [hk, hg, ha, breakDone, ht, Nat.not_le.2 hz])) (restat_refuse 3 hl hr hw)

end Sys2Proof.Machine
end

section
/-! PROOF. The frame of the feed operations. -/
namespace Sys2Proof.Machine
variable {x : Nat} {s t : State}

/-! ### The frame of the feed operations -/

theorem FeedAlone.refl (x : Nat) (s : State) : FeedAlone x s s := ⟨rfl, rfl, fun _ _ => rfl⟩

theorem OnlyFeed.refl (x : Nat) (s : State) : OnlyFeed x s s := ⟨rfl, rfl, fun _ _ => rfl⟩

theorem OnlyFeed.trans {u : State} (h : OnlyFeed x s t) (k : OnlyFeed x t u) : OnlyFeed x s u := by
  obtain ⟨h1, h2, h3⟩ := h
  obtain ⟨k1, k2, k3⟩ := k
  exact ⟨by rw [k1, h1], k2.trans h2, fun y hy => (k3 y hy).trans (h3 y hy)⟩

theorem OnlyFeed.updFeed (h : OnlyFeed x s t) (f : Feed → Feed) : OnlyFeed x s (t.updFeed x f) :=
  h.trans ⟨rfl, t.updFeed_length x f, fun y hy => t.feed_updFeed_ne x y f hy⟩

theorem OnlyFeed.ite {c : Prop} [Decidable c] {a b : State} (h : OnlyFeed x s a) (k : OnlyFeed x s b) : OnlyFeed x s (if c then a else b) := by
  split
  · exact h
  · exact k

theorem OnlyFeed.raise (h : OnlyFeed x s t) (i : Nat) : OnlyFeed x s (t.raise (.feed x) i) := by
  refine h.trans ?_
  obtain ⟨a, n, q, e⟩ | ⟨-, e⟩ := t.raise_shape (.feed x) i
  · rw [e]
    exact ⟨rfl, t.updFeed_length x _, fun y hy => t.feed_updFeed_ne x y _ hy⟩
  · rw [e]
    exact OnlyFeed.refl x t

theorem OnlyFeed.giveTurn (h : OnlyFeed x s t) : OnlyFeed x s (t.giveTurn x) :=
  h.trans (OnlyFeed.ite ⟨rfl, rfl, fun _ _ => rfl⟩ (OnlyFeed.refl x t))

theorem OnlyFeed.pushEvent (h : OnlyFeed x s t) (k i : Nat) (d : List Byte) : OnlyFeed x s (t.pushEvent k i d) :=
  h.trans ⟨rfl, rfl, fun _ _ => rfl⟩

theorem OnlyFeed.setPg (h : OnlyFeed x s t) (b : Bool) : OnlyFeed x s (t.setPg x b) := by
  unfold State.setPg
  extract_lets u v
  have k : OnlyFeed x s u := h.updFeed _
  have l : OnlyFeed x s v := OnlyFeed.ite (k.trans ⟨rfl, rfl, fun _ _ => rfl⟩) k
  exact h.ite (l.pushEvent _ _ _)

theorem OnlyFeed.gatesOff (h : OnlyFeed x s t) (st : FeedSt) : OnlyFeed x s (t.gatesOff x st) := (h.updFeed _).setPg false

theorem OnlyFeed.feedTrip (h : OnlyFeed x s t) (c : Nat) : OnlyFeed x s (t.feedTrip x c) := by
  unfold State.feedTrip
  have k := (h.raise (c - 1)).updFeed fun g => { g with tripAt := some t.now, tripWas := (t.feed x).trips, tripNew := !(t.feed x).flt.sticky.getLsbD (c - 1) }
  have k1 := OnlyFeed.ite (c := ((t.feed x).st == .holdOff && (t.feed x).offTurn) = true) (k.trans (u := { ((t.raise (.feed x) (c - 1)).updFeed x fun g =>
    { g with tripAt := some t.now, tripWas := (t.feed x).trips, tripNew := !(t.feed x).flt.sticky.getLsbD (c - 1) }) with rampTurn := some x })
    ⟨rfl, rfl, fun _ _ => rfl⟩) k
  exact OnlyFeed.ite ((k1.gatesOff _).updFeed _) ((((k1.gatesOff _).updFeed _).giveTurn).raise 3)

theorem OnlyFeed.feedHoldOff (h : OnlyFeed x s t) (b : Bool) : OnlyFeed x s (t.feedHoldOff x b) :=
  (((h.gatesOff .holdOff).updFeed _).giveTurn).raise _

theorem OnlyFeed.feedGood (h : OnlyFeed x s t) : OnlyFeed x s (t.feedGood x) := by
  unfold State.feedGood
  extract_lets u
  have k : OnlyFeed x s u := ((h.updFeed _).giveTurn).setPg true
  exact OnlyFeed.ite (k.trans ⟨rfl, rfl, fun _ _ => rfl⟩) k

/-! ### The turn, power-good and the gates -/

@[simp] theorem State.giveTurn_feeds : (s.giveTurn x).feeds = s.feeds := by
  unfold State.giveTurn
  split <;> rfl

@[simp] theorem State.giveTurn_feed (y : Nat) : (s.giveTurn x).feed y = s.feed y := by simp [State.feed]

@[simp] theorem State.giveTurn_seq : (s.giveTurn x).seq = s.seq := by
  unfold State.giveTurn
  split <;> rfl

@[simp] theorem State.giveTurn_inn : (s.giveTurn x).inn = s.inn := by
  unfold State.giveTurn
  split <;> rfl

theorem State.giveTurn_rampTurn : (s.giveTurn x).rampTurn ≠ some x := by
  unfold State.giveTurn
  split
  · exact nofun
  · assumption

/-- R223: power-good of feed x and the frame it came are all that a change of power-good changes of the feed. -/
theorem State.setPg_feed (b : Bool) (h : x < s.feeds.length) : ∃ g, (s.setPg x b).feed x = { s.feed x with pg := b, pgFrame := g } := by
  unfold State.setPg
  extract_lets u v
  have hu : u.feed x = _ := s.feed_updFeed x _ h
  have hv : v.feed x = u.feed x := by
    simp only [v]
    split <;> rfl
  split
  case isTrue hb =>
    simp only [beq_iff_eq] at hb
    exact ⟨(s.feed x).pgFrame, by rw [← hb]⟩
  case isFalse => exact ⟨if b then some s.frame else none, (State.pushEvent_feed ..).trans (hv.trans hu)⟩

@[simp] theorem State.setPg_feeds_length (b : Bool) : (s.setPg x b).feeds.length = s.feeds.length := ((OnlyFeed.refl x s).setPg b).2.1

@[simp] theorem State.setPg_seq (b : Bool) : (s.setPg x b).seq = s.seq := by
  unfold State.setPg
  dsimp only
  split
  · rfl
  · split <;> rfl

@[simp] theorem State.setPg_rampTurn (b : Bool) : (s.setPg x b).rampTurn = s.rampTurn := by
  unfold State.setPg
  dsimp only
  split
  · rfl
  · split <;> rfl

/-- R222: both gates off, power-good dropped. -/
theorem State.gatesOff_feed (st : FeedSt) (h : x < s.feeds.length) :
    ∃ g, (s.gatesOff x st).feed x =
      { s.feed x with
        st := st, odg := false, onRun := 0, timer := 0, timerOff := 0, withheld := false, revNow := false, count := 0, frameOk := none
        pg := false, pgFrame := g } := by
  unfold State.gatesOff
  obtain ⟨g, hg⟩ := State.setPg_feed (s := s.updFeed x fun f =>
    { f with st := st, odg := false, onRun := 0, timer := 0, timerOff := 0, withheld := false, revNow := false, count := 0, frameOk := none })
    (x := x) false (by simpa using h)
  rw [s.feed_updFeed x _ h] at hg
  exact ⟨g, hg⟩

@[simp] theorem State.gatesOff_feeds_length (st : FeedSt) : (s.gatesOff x st).feeds.length = s.feeds.length := ((OnlyFeed.refl x s).gatesOff st).2.1
@[simp] theorem State.gatesOff_seq (st : FeedSt) : (s.gatesOff x st).seq = s.seq := by simp [State.gatesOff]
@[simp] theorem State.gatesOff_rampTurn (st : FeedSt) : (s.gatesOff x st).rampTurn = s.rampTurn := by simp [State.gatesOff]

theorem State.raiseFeed_sticky {i : Nat} (h : x < s.feeds.length) (hi : i < 16) : ((s.raise (.feed x) i).feed x).flt.sticky.getLsbD i = true :=
  s.raise_sticky (.feed x) i h hi

theorem State.Shaped.feed_lt (h : s.Shaped) (hx : x < 2) : x < s.feeds.length := by
  obtain ⟨-, -, -, hl, -⟩ := h
  omega

end Sys2Proof.Machine
end

section
/-! PROOF. Feed gates and timers. -/
namespace Sys2Proof.Machine

/-- Settles O50: each event's condition, and the one update of its feed. -/
theorem feedGatesAndTimers : Obligations.FeedGatesAndTimers := by
  refine ⟨?timer, ?off, ?on, ?fault, ?trips⟩
  case timer =>
    intro s x hs hx ht
    have hl := hs.feed_lt hx
    refine .intro rfl (if_pos (by simp [hx, ht])) ⟨(FeedAlone.refl x s).updFeed _, ?_⟩
    rw [State.feed_updFeed _ _ _ hl]
    exact ⟨rfl, rfl⟩
  case off =>
    intro s x d hs hx hc hd
    have hl := hs.feed_lt hx
    refine .intro rfl (if_pos (by simp [hx, hc, hd])) ⟨(FeedAlone.refl x s).updFeed _, ?_⟩
    rw [State.feed_updFeed _ _ _ hl]
    exact ⟨rfl, rfl, rfl, rfl⟩
  case on =>
    intro s x hs hx hc hr hd
    have hl := hs.feed_lt hx
    refine .intro rfl (if_pos (by simp [hx, hc, hr, hd])) ⟨(FeedAlone.refl x s).updFeed _, ?_⟩
    rw [State.feed_updFeed _ _ _ hl]
    exact ⟨rfl, rfl, rfl⟩
  case fault =>
    intro s x hs hx hr
    exact .intro rfl (if_pos (by simp [hx, hr])) ⟨(OnlyFeed.refl x s).raise 6, State.raiseFeed_sticky (hs.feed_lt hx) (by omega), by simp, by simp⟩
  case trips =>
    intro s x f hs hx hp hf hge
    have hl := hs.feed_lt hx
    refine .intro rfl (if_pos (by simp [hx, hp, hf, State.ran, State.framesSince, hge])) ⟨(FeedAlone.refl x s).updFeed _, ?_⟩
    rw [State.feed_updFeed _ _ _ hl]
    exact ⟨rfl, hp⟩

end Sys2Proof.Machine
end

section
/-! PROOF. Feed trips and hold-offs. -/
namespace Sys2Proof.Machine
variable {x : Nat} {s : State}

/-- R222: the state in which a feed's trip is noted, before its gates turn off. -/
def tripNoted (s : State) (x c : Nat) : State :=
  let u := (s.raise (.feed x) (c - 1)).updFeed x fun g =>
    { g with tripAt := some s.now, tripWas := (s.feed x).trips, tripNew := !(s.feed x).flt.sticky.getLsbD (c - 1) }
  if (s.feed x).st == .holdOff && (s.feed x).offTurn then { u with rampTurn := some x } else u

theorem State.feedTrip_eq (c : Nat) : s.feedTrip x c =
    if (s.feed x).trips < (s.feed x).retries then
      ((tripNoted s x c).gatesOff x .retryWait).updFeed x fun f => { f with lastTrip := c, trips := f.trips + 1, tripFrame := s.frame }
    else
      ((((tripNoted s x c).gatesOff x .latched).updFeed x fun f => { f with lastTrip := c }).giveTurn x).raise (.feed x) 3 := rfl

theorem tripNoted_spec (c : Nat) (h : x < s.feeds.length) (hc : c - 1 < 16) :
    (tripNoted s x c).seq = s.seq ∧ (tripNoted s x c).feeds.length = s.feeds.length ∧
      ((tripNoted s x c).feed x).trips = (s.feed x).trips ∧ ((tripNoted s x c).feed x).flt.sticky.getLsbD (c - 1) = true ∧
      (tripNoted s x c).rampTurn = (if (s.feed x).st == .holdOff && (s.feed x).offTurn then some x else s.rampTurn) := by
  have hs := State.raiseFeed_sticky h hc
  have hlen : (s.raise (.feed x) (c - 1)).feeds.length = s.feeds.length := ((OnlyFeed.refl x s).raise (c - 1)).2.1
  have hf : ∀ g, ((s.raise (.feed x) (c - 1)).updFeed x g).feed x = g ((s.raise (.feed x) (c - 1)).feed x) :=
    fun g => State.feed_updFeed _ _ _ (by rw [hlen]; exact h)
  unfold tripNoted
  extract_lets u
  have hu : u.feed x = _ := hf _
  have hul : u.feeds.length = s.feeds.length := (State.updFeed_length ..).trans hlen
  have hut : (u.feed x).trips = (s.feed x).trips := by rw [hu]; simp
  have hus : (u.feed x).flt.sticky.getLsbD (c - 1) = true := by rw [hu]; exact hs
  have huq : u.seq = s.seq := by simp [u]
  have hur : u.rampTurn = s.rampTurn := by simp [u]
  split
  · exact ⟨huq, hul, hut, hus, rfl⟩
  · exact ⟨huq, hul, hut, hus, hur⟩

/-- R221, R222: what a trip of cause `c` leaves. -/
def AfterFeedTrip (x c : Nat) (s t : State) : Prop :=
  OnlyFeed x s t ∧ t.seq = s.seq ∧ (t.feed x).odg = false ∧ (t.feed x).pg = false ∧ (t.feed x).lastTrip = c ∧
    (t.feed x).flt.sticky.getLsbD (c - 1) = true ∧
    ((s.feed x).trips < (s.feed x).retries →
      (t.feed x).st = .retryWait ∧ (t.feed x).trips = (s.feed x).trips + 1 ∧ (t.feed x).tripFrame = s.frame ∧
        t.rampTurn = (if (s.feed x).st == .holdOff && (s.feed x).offTurn then some x else s.rampTurn)) ∧
    ((s.feed x).retries ≤ (s.feed x).trips →
      (t.feed x).st = .latched ∧ (t.feed x).trips = (s.feed x).trips ∧ (t.feed x).flt.sticky.getLsbD 3 = true ∧ t.rampTurn ≠ some x)

theorem State.feedTrip_spec (c : Nat) (h : x < s.feeds.length) (hc : c - 1 < 16) : AfterFeedTrip x c s (s.feedTrip x c) := by
  obtain ⟨n1, n2, n3, n4, n5⟩ := tripNoted_spec c h hc
  refine ⟨(OnlyFeed.refl x s).feedTrip c, ?_⟩
  rw [State.feedTrip_eq]
  have hl : x < (tripNoted s x c).feeds.length := by omega
  generalize tripNoted s x c = n at *
  split
  case isTrue hlt =>
    obtain ⟨g, hg⟩ := State.gatesOff_feed (s := n) .retryWait hl
    have hf : ∀ k, ((n.gatesOff x .retryWait).updFeed x k).feed x = k ((n.gatesOff x .retryWait).feed x) :=
      fun k => State.feed_updFeed _ _ _ (by simpa using hl)
    rw [hf, hg]
    exact ⟨by simp [n1], rfl, rfl, rfl, n4, fun _ => ⟨rfl, congrArg (· + 1) n3, rfl, by simp [n5]⟩, fun h => absurd hlt (by omega)⟩
  case isFalse hge =>
    obtain ⟨g, hg⟩ := State.gatesOff_feed (s := n) .latched hl
    have hf : ∀ k, (((n.gatesOff x .latched).updFeed x k).giveTurn x).feed x = k ((n.gatesOff x .latched).feed x) :=
      fun k => (State.giveTurn_feed x).trans (State.feed_updFeed _ _ _ (by simpa using hl))
    have hst := State.raiseFeed_sticky (s := ((n.gatesOff x .latched).updFeed x fun f => { f with lastTrip := c }).giveTurn x) (x := x) (i := 3)
      (by simpa using hl) (by omega)
    have hm := State.raise_sticky_mono (s := ((n.gatesOff x .latched).updFeed x fun f => { f with lastTrip := c }).giveTurn x) (.feed x) 3 (c - 1)
      (show x < _ by simpa using hl)
      (show (((((n.gatesOff x .latched).updFeed x fun f => { f with lastTrip := c }).giveTurn x).feed x).flt.sticky.getLsbD (c - 1)) = true by
        rw [hf, hg]; exact n4)
    refine ⟨by simp [n1], ?_, ?_, ?_, hm, fun h => absurd h hge, fun _ => ⟨?_, ?_, hst, ?_⟩⟩
    · rw [State.raise_feed_odg, hf, hg]
    · rw [State.raise_feed_pg, hf, hg]
    · rw [State.raise_feed_lastTrip, hf]
    · rw [State.raise_feed_st, hf, hg]
    · rw [State.raise_feed_trips, hf, hg]
      exact n3
    · rw [State.raise_rampTurn]
      exact State.giveTurn_rampTurn

/-- R213 to R215: what a voltage hold-off leaves. -/
def AfterHoldOff (x : Nat) (ov : Bool) (s t : State) : Prop :=
  OnlyFeed x s t ∧ t.seq = s.seq ∧ (t.feed x).st = .holdOff ∧ (t.feed x).holdOv = ov ∧ (t.feed x).odg = false ∧ (t.feed x).pg = false ∧
    (t.feed x).trips = (s.feed x).trips ∧ (t.feed x).lastTrip = (s.feed x).lastTrip ∧ t.rampTurn ≠ some x ∧
    (t.feed x).flt.sticky.getLsbD (if ov then 4 else 5) = true

theorem State.feedHoldOff_spec (ov : Bool) (h : x < s.feeds.length) : AfterHoldOff x ov s (s.feedHoldOff x ov) := by
  refine ⟨(OnlyFeed.refl x s).feedHoldOff ov, ?_⟩
  obtain ⟨g, hg⟩ := State.gatesOff_feed (s := s) .holdOff h
  have hf : ∀ k, (((s.gatesOff x .holdOff).updFeed x k).giveTurn x).feed x = k ((s.gatesOff x .holdOff).feed x) :=
    fun k => (State.giveTurn_feed x).trans (State.feed_updFeed _ _ _ (by simpa using h))
  unfold State.feedHoldOff
  extract_lets a b
  refine ⟨by simp, ?_, ?_, ?_, ?_, ?_, ?_, ?_, State.raiseFeed_sticky (by simpa using h) (by split <;> omega)⟩
  · rw [State.raise_feed_st, hf, hg]
  · rw [State.raise_feed_holdOv, hf]
  · rw [State.raise_feed_odg, hf, hg]
  · rw [State.raise_feed_pg, hf, hg]
  · rw [State.raise_feed_trips, hf, hg]
  · rw [State.raise_feed_lastTrip, hf, hg]
  · rw [State.raise_rampTurn]
    exact State.giveTurn_rampTurn

theorem Feed.holdOff_ne_of_conducting {f : Feed} (h : f.conducting = true) : (f.st == .holdOff) = false := by
  simp only [Feed.conducting, Bool.or_eq_true, beq_iff_eq] at h
  obtain h | h := h <;> rw [h] <;> rfl

/-- Settles O49: the condition of each trip and hold-off, and what they leave (`State.feedTrip_spec`, `State.feedHoldOff_spec`). -/
theorem feedTripsAndHoldOffs : Obligations.FeedTripsAndHoldOffs := by
  refine ⟨?trips, ?late, ?holds⟩
  case trips =>
    intro s x c k hs hx hc
    have hl := hs.feed_lt hx
    have main : ∀ k, k - 1 < 16 → ((s.feed x).st == .holdOff) = false → AfterFeedTrip x k s (s.feedTrip x k) ∧
        (if (s.feed x).st == .holdOff && (s.feed x).offTurn then some x else s.rampTurn) = s.rampTurn := fun k hk hne =>
      ⟨State.feedTrip_spec k hl hk, by simp [hne]⟩
    obtain ⟨n, rfl, rfl, hcond, hn⟩ | ⟨rfl, rfl, hcond, hn⟩ | ⟨rfl, rfl, hst, hn⟩ := hc
    · obtain ⟨h, e⟩ := main 1 (by omega) (Feed.holdOff_ne_of_conducting hcond)
      rw [AfterFeedTrip, e] at h
      refine .intro rfl ?_ h
      show feedFastTrip x n s = _
      unfold feedFastTrip
      simp [hx, hn, Feed.mayTrip, hcond]
    · obtain ⟨h, e⟩ := main 2 (by omega) (Feed.holdOff_ne_of_conducting hcond)
      rw [AfterFeedTrip, e] at h
      exact .intro rfl (if_pos (by simp [hx, hn, Feed.mayTrip, hcond])) h
    · obtain ⟨h, e⟩ := main 3 (by omega) (by rw [hst]; rfl)
      rw [AfterFeedTrip, e] at h
      exact .intro rfl (if_pos (by simp [hx, hn, hst])) h
  case late =>
    intro s x hs hx hst hoff hturn hn
    obtain ⟨o, -, -, -, h1, h2, h3, h4⟩ := State.feedTrip_spec (s := s) (x := x) 3 (hs.feed_lt hx) (by omega)
    refine .intro rfl (if_pos (by simp [hx, hn, hst, hoff, hturn])) ⟨o, h1, h2, fun h => ?_, fun h => ?_⟩
    · obtain ⟨a, b, -, d⟩ := h3 h
      exact ⟨a, b, by rw [d]; simp [hst, hturn]⟩
    · obtain ⟨a, b, -⟩ := h4 h
      exact ⟨a, b⟩
  case holds =>
    intro s x c ov hs hx hcond hc
    have hl := hs.feed_lt hx
    obtain ⟨v, rfl, rfl, hv⟩ | ⟨rfl, rfl, hv⟩ := hc
    · exact .intro rfl (if_pos (by simp [hx, hcond, hv])) (State.feedHoldOff_spec true hl)
    · exact .intro rfl (if_pos (by simp [hx, hcond, hv])) (State.feedHoldOff_spec false hl)

end Sys2Proof.Machine
end

section
/-! PROOF. Feed ramps. -/
namespace Sys2Proof.Machine
variable {x : Nat} {s t : State}

/-! ### R217: a ramp starts -/

theorem State.mayRamp_iff : s.mayRamp x = true ↔ x < 2 ∧ s.atBoundary = true ∧ s.feedReady x = true ∧ s.turnFree x = true ∧
    (x = 0 ∨ s.rampTurn = some x ∨ s.feedReady 0 = false) := by
  simp [State.mayRamp, and_assoc, or_assoc]

/-- R217, R218: what the start of a ramp leaves. -/
def AfterRampStart (x : Nat) (s t : State) : Prop :=
  t = { s with feeds := t.feeds, rampTurn := some x } ∧ (t.feed x).st = .ramp ∧ (t.feed x).rampFrame = s.frame ∧
    (t.feed x).odg = !(s.feed x).revNow ∧ (t.feed x).timer = 0 ∧ (t.feed x).trips = (s.feed x).trips ∧
    t.feed (1 - x) = s.feed (1 - x)

theorem State.startRamp_spec (hx : x < 2) (hl : x < s.feeds.length) : AfterRampStart x s (s.startRamp x) := by
  have hf : (s.startRamp x).feed x = _ := State.feed_updFeed { s with rampTurn := some x } x _ hl
  refine ⟨rfl, ?_, ?_, ?_, ?_, ?_, State.feed_updFeed_ne _ _ _ _ (by omega)⟩
  all_goals rw [hf]
  all_goals rfl

/-! ### R219, R224, R229: the end of a ramp -/

/-- A feed that the fault logic has turned off. -/
def FeedTurnedOff (x : Nat) (s t : State) : Prop :=
  OnlyFeed x s t ∧ (t.feed x).pg = false ∧ ((t.feed x).st = .retryWait ∨ (t.feed x).st = .latched ∨ (t.feed x).st = .holdOff) ∧ t.seq = s.seq

theorem AfterFeedTrip.turnedOff {c : Nat} (h : AfterFeedTrip x c s t) :
    FeedTurnedOff x s t ∧ ((t.feed x).st = .retryWait ∨ (t.feed x).st = .latched) := by
  obtain ⟨o, hq, -, hp, -, -, hr, hl⟩ := h
  obtain hlt | hge := Nat.lt_or_ge (s.feed x).trips (s.feed x).retries
  · exact ⟨⟨o, hp, .inl (hr hlt).1, hq⟩, .inl (hr hlt).1⟩
  · exact ⟨⟨o, hp, .inr (.inl (hl hge).1), hq⟩, .inr (hl hge).1⟩

theorem AfterHoldOff.turnedOff {ov : Bool} (h : AfterHoldOff x ov s t) : FeedTurnedOff x s t := by
  obtain ⟨o, hq, hst, -, -, hp, -⟩ := h
  exact ⟨o, hp, .inr (.inr hst), hq⟩

/-- The voltage checks act on a conducting feed alone. -/
theorem voltage_idle (v : Nat) (h : (s.feed x).conducting = false) : feedUvRun x (feedOvTurnoff x v s) = s := by
  have h1 : feedOvTurnoff x v s = s := if_neg (by simp [h])
  rw [h1]
  exact if_neg (by simp [h])

theorem Feed.not_conducting {f : Feed} (h : f.st = .retryWait ∨ f.st = .latched ∨ f.st = .holdOff) : f.conducting = false := by
  obtain h | h | h := h <;> simp [Feed.conducting, h]

/-- A trip of this pace leaves the later checks nothing to do. -/
theorem timer_idle (h : (s.feed x).st = .retryWait ∨ (s.feed x).st = .latched) : feedFaultTimerTrip x s = s := by
  refine if_neg ?_
  obtain h | h := h <;> simp [Feed.mayTrip, Feed.conducting, h]

/-- R229: the fault logic of one pace of a ramping feed. -/
def rampChecks (x nv v : Nat) (s : State) : State := feedUvRun x (feedOvTurnoff x v (feedFaultTimerTrip x (feedFastTrip x nv s)))

theorem rampChecks_idle {nv v : Nat} (h1 : nv < fastTripNv s x) (h2 : (s.feed x).timer < feedParam s x 0x16) (h3 : v ≤ (s.feed x).ov)
    (h4 : (s.feed x).uvRun < 4) (hst : (s.feed x).st = .ramp) : rampChecks x nv v s = s := by
  have hc : (s.feed x).conducting = true := by simp [Feed.conducting, hst]
  have e1 : feedFastTrip x nv s = s := if_neg (by simp [Nat.not_le.2 h1])
  have e2 : feedFaultTimerTrip x s = s := if_neg (by simp [hc, Nat.not_le.2 h2])
  have e3 : feedOvTurnoff x v s = s := if_neg (by simp [Nat.not_lt.2 h3])
  have e4 : feedUvRun x s = s := if_neg (by simp [Nat.not_le.2 h4])
  rw [rampChecks, e1, e2, e3, e4]

theorem rampChecks_off {nv v : Nat} (hx : x < 2) (hl : x < s.feeds.length) (hst : (s.feed x).st = .ramp)
    (h : fastTripNv s x ≤ nv ∨ feedParam s x 0x16 ≤ (s.feed x).timer ∨ (s.feed x).ov < v ∨ 4 ≤ (s.feed x).uvRun) :
    FeedTurnedOff x s (rampChecks x nv v s) := by
  have hc : (s.feed x).conducting = true := by simp [Feed.conducting, hst]
  unfold rampChecks
  by_cases h1 : fastTripNv s x ≤ nv
  · have e1 : feedFastTrip x nv s = s.feedTrip x 1 := by
      unfold feedFastTrip
      simp [hx, h1, Feed.mayTrip, hc]
    obtain ⟨o, hs⟩ := (State.feedTrip_spec (s := s) (x := x) 1 hl (by omega)).turnedOff
    rw [e1, timer_idle hs, voltage_idle _ (Feed.not_conducting o.2.2.1)]
    exact o
  · have e1 : feedFastTrip x nv s = s := if_neg (by simp [h1])
    rw [e1]
    by_cases h2 : feedParam s x 0x16 ≤ (s.feed x).timer
    · have e2 : feedFaultTimerTrip x s = s.feedTrip x 2 := if_pos (by simp [hx, hc, Feed.mayTrip, h2])
      obtain ⟨o, -⟩ := (State.feedTrip_spec (s := s) (x := x) 2 hl (by omega)).turnedOff
      rw [e2, voltage_idle _ (Feed.not_conducting o.2.2.1)]
      exact o
    · have e2 : feedFaultTimerTrip x s = s := if_neg (by simp [hc, h2])
      rw [e2]
      by_cases h3 : (s.feed x).ov < v
      · have e3 : feedOvTurnoff x v s = s.feedHoldOff x true := if_pos (by simp [hx, hc, h3])
        have o := (State.feedHoldOff_spec (s := s) (x := x) true hl).turnedOff
        have e4 : feedUvRun x (s.feedHoldOff x true) = s.feedHoldOff x true := if_neg (by simp [Feed.not_conducting o.2.2.1])
        rw [e3, e4]
        exact o
      · have e3 : feedOvTurnoff x v s = s := if_neg (by simp [h3])
        have e4 : feedUvRun x s = s.feedHoldOff x false := if_pos (by simp [hx, hc]; omega)
        rw [e3, e4]
        exact (State.feedHoldOff_spec false hl).turnedOff

theorem feedFullyOn_eq {m : FeedOn} (hm : m.feed = x) (hx : x < 2) (hst : (s.feed x).st = .ramp) (hon : 4 ≤ (s.feed x).onRun)
    (hw : (s.feed x).withheld = false) :
    feedFullyOn m s = if ((rampChecks x m.nv (max m.sns (s.feed x).sns) s).feed x).st == .ramp then
      (rampChecks x m.nv (max m.sns (s.feed x).sns) s).feedGood x else rampChecks x m.nv (max m.sns (s.feed x).sns) s := by
  subst hm
  unfold feedFullyOn
  simp only [hx, hst, hon, hw]
  rfl

theorem State.pushEvent_attn (k i : Nat) (d : List Byte) (h : eventAttn k < 16) :
    (s.pushEvent k i d).attn.pending.getLsbD (eventAttn k) = true := by
  have e : (BitVec.ofNat 16 (2 ^ eventAttn k)).getLsbD (eventAttn k) = true := by
    rw [BitVec.getLsbD_ofNat]
    simp [h]
  show (s.attn.pending ||| BitVec.ofNat 16 (2 ^ eventAttn k)).getLsbD (eventAttn k) = true
  rw [BitVec.getLsbD_or, e, Bool.or_true]

/-- R209, R223: power-good that asserts is an event, and the first of the two feeds' starts the Innkeeper afresh. -/
theorem State.setPg_true (h : (s.feed x).pg = false) :
    (s.setPg x true).attn.pending.getLsbD (eventAttn 0x28) = true ∧
      ((s.feed 0).pg = false → (s.feed 1).pg = false → (s.setPg x true).inn = s.inn.fresh) := by
  unfold State.setPg
  extract_lets u v
  rw [if_neg (by simp [h])]
  refine ⟨State.pushEvent_attn _ _ _ (by decide), fun h0 h1 => ?_⟩
  have hv : v = { u with inn := u.inn.fresh } := if_pos (by simp [h0, h1])
  exact (State.pushEvent_inn ..).trans (congrArg State.inn hv)

/-- R219, R224, R241: what the end of a ramp leaves. -/
def AfterFeedGood (x : Nat) (s t : State) : Prop :=
  OnlyFeed x s t ∧ (t.feed x).st = .on ∧ (t.feed x).pg = true ∧ t.rampTurn ≠ some x ∧
    (s.seq.mode = .sequencing → s.seq.step = 6 → t.seq.step6Good = true) ∧
    (s.seq.mode ≠ .sequencing → s.seq.feedless = false → t.seq = s.seq) ∧
    ((s.feed x).pg = false → t.attn.pending.getLsbD (eventAttn 0x28) = true) ∧
    ((s.feed 0).pg = false → (s.feed 1).pg = false → t.inn = s.inn.fresh)

theorem State.feedGood_spec (hx : x < 2) (hl : x < s.feeds.length) : AfterFeedGood x s (s.feedGood x) := by
  refine ⟨(OnlyFeed.refl x s).feedGood, ?_⟩
  unfold State.feedGood
  extract_lets u
  have hr : ((s.updFeed x fun f => { f with st := .on }).giveTurn x).feeds.length = s.feeds.length := by simp
  obtain ⟨g, hg⟩ := State.setPg_feed (s := (s.updFeed x fun f => { f with st := .on }).giveTurn x) true (hr.symm ▸ hl)
  have hf : (((s.updFeed x fun f => { f with st := .on }).giveTurn x).feed x) = { s.feed x with st := .on } :=
    (State.giveTurn_feed x).trans (State.feed_updFeed _ _ _ hl)
  have hpg : ∀ y, (((s.updFeed x fun f => { f with st := .on }).giveTurn x).feed y).pg = (s.feed y).pg := fun y => by
    by_cases hy : y = x
    · subst hy
      rw [hf]
    · rw [State.giveTurn_feed, State.feed_updFeed_ne _ _ _ _ hy]
  have h1 : (u.feed x).st = .on := by rw [hg, hf]
  have h2 : (u.feed x).pg = true := by rw [hg]
  have h3 : u.rampTurn ≠ some x := by
    rw [State.setPg_rampTurn]
    exact State.giveTurn_rampTurn
  have hq : u.seq = s.seq := by simp [u]
  have hev := State.setPg_true (s := (s.updFeed x fun f => { f with st := .on }).giveTurn x) (x := x)
  rw [hpg, hpg, hpg, State.giveTurn_inn] at hev
  have h6 : (s.feed 0).pg = false → (s.feed 1).pg = false → u.inn = s.inn.fresh := fun ha hb => by
    have hx0 : (s.feed x).pg = false := by
      obtain rfl | rfl : x = 0 ∨ x = 1 := by omega
      · exact ha
      · exact hb
    exact (hev hx0).2 ha hb
  split
  case isTrue hc =>
    refine ⟨h1, h2, h3, fun _ _ => rfl, fun hm hfl => ?_, fun h => (hev h).1, h6⟩
    rw [hq] at hc
    simp [hm, hfl] at hc
  case isFalse hc =>
    refine ⟨h1, h2, h3, fun hm hst => ?_, fun _ _ => hq, fun h => (hev h).1, h6⟩
    rw [hq] at hc
    simp [hm, hst] at hc

/-- Settles O48: a ramp starts where `State.mayRamp` says, and ends in power-good unless a check of the pace turns the feed off
(`rampChecks_off`). -/
theorem feedRamps : Obligations.FeedRamps := by
  refine ⟨?start, ?outside, ?window, ?ends⟩
  case start =>
    intro s x c hs hm hc
    obtain ⟨hx, hb, hready, -⟩ := State.mayRamp_iff.1 hm
    have h : AfterRampStart x s (s.startRamp x) := State.startRamp_spec hx (hs.feed_lt hx)
    obtain ⟨rfl, hst⟩ | ⟨rfl, hst⟩ | ⟨rfl, hst⟩ | rfl := hc
    · exact .intro rfl (if_pos (by simp [hst, hm])) h
    · exact .intro rfl (if_pos (by simp [hst, hm])) h
    · refine .intro rfl ?_ h
      simp only [State.feedReady, hst, Bool.and_eq_true, decide_eq_true_eq] at hready
      obtain ⟨hw, hd⟩ := hready
      unfold feedRetryDelayEnd
      simp [hx, hb, hst, hd, hw, hm]
    · exact .intro rfl (if_pos hm) h
  case outside =>
    intro s x hs hx hb hst hd hw
    have hl := hs.feed_lt hx
    refine .intro rfl (u := (s.updFeed x fun f =>
      { f with st := .holdOff, holdOv := decide (f.ov < f.sns), count := 0, frameOk := none }).giveTurn x) ?_ ?_
    · unfold feedRetryDelayEnd
      simp [hx, hb, hst, hd, hw]
    · have hf : ∀ y k, ((s.updFeed x k).giveTurn x).feed y = (s.updFeed x k).feed y := fun y k => State.giveTurn_feed y
      refine ⟨?_, ?_, ?_, ?_, State.giveTurn_rampTurn, ?_⟩
      · unfold State.giveTurn
        split <;> rfl
      · rw [hf, State.feed_updFeed _ _ _ hl]
      · rw [hf, State.feed_updFeed _ _ _ hl]
        simp
      · rw [hf, State.feed_updFeed _ _ _ hl]
      · rw [hf, State.feed_updFeed_ne _ _ _ _ (by omega)]
  case window =>
    intro s x hs hx hst hw
    have hl := hs.feed_lt hx
    refine .intro rfl (if_pos ?_) ⟨(FeedAlone.refl x s).updFeed _, ?_⟩
    · obtain h | h := hst <;> simp [hx, h, hw]
    · rw [State.feed_updFeed _ _ _ hl]
      exact ⟨rfl, rfl⟩
  case ends =>
    intro s m x hs hm hx hst hon hw
    have hl := hs.feed_lt hx
    have he := feedFullyOn_eq (s := s) hm hx hst hon hw
    refine ⟨fun h1 h2 h3 h4 h5 => ?_, fun h => ?_⟩
    · have hidle := rampChecks_idle (v := max m.sns (s.feed x).sns) h1 h2 (by omega) h5 hst
      rw [hidle, if_pos (by simp [hst])] at he
      exact .intro rfl he (State.feedGood_spec hx hl)
    · obtain ⟨o, hp, hoff, hq⟩ := rampChecks_off (v := max m.sns (s.feed x).sns) hx hl hst h
      have hne : ((rampChecks x m.nv (max m.sns (s.feed x).sns) s).feed x).st ≠ .on ∧
          ((rampChecks x m.nv (max m.sns (s.feed x).sns) s).feed x).st ≠ .ramp := by
        obtain h | h | h := hoff <;> simp [h]
      rw [if_neg (by simp [hne.2])] at he
      exact .intro rfl he ⟨o, hp, hne.1, hne.2, hq⟩

end Sys2Proof.Machine
end

section
/-! PROOF. Opcodes that change the state. -/
namespace Sys2Proof.Machine
variable {s t : State} {pl : Place} {c : Cmd} {code : Nat} {d : List Byte}

/-! ### An opcode that changes the state and ends, or goes on waiting -/

/-- An opcode whose body changes the state and then ends with a reply. -/
theorem ends_after {cmd : Instr} {op : Nat} {act : Cmd → Bool} {go : Cmd → State} {u : State} (hx : exec cmd s = .next (s.runOp pl op act go))
    (h : Turn pl op c s) (ha : act c = true) (hu : u.cmdAt pl = some c) (hg : go c = u.finish pl code d) : Ends cmd pl c s u code d := by
  refine ⟨u.finish pl code d, ?_, State.finish_spec hu code d⟩
  rw [hx, State.runOp_turn go h ha, hg]

/-- An opcode whose body changes the state and then keeps its place. -/
theorem waits_after {cmd : Instr} {op : Nat} {act : Cmd → Bool} {go : Cmd → State} {u : State} {w : WaitFor}
    (hx : exec cmd s = .next (s.runOp pl op act go)) (h : Turn pl op c s) (ha : act c = true) (hu : u.cmdAt pl = some c)
    (hg : go c = u.hold pl w) : Waits cmd pl c s u w := by
  obtain ⟨h1, h2, -⟩ := State.hold_spec hu w
  refine ⟨u.hold pl w, ?_, h1, h2⟩
  rw [hx, State.runOp_turn go h ha, hg]

/-- What a command that ends at once leaves, through what is known of the state in which it ends. -/
theorem goes_finish {cmd : Instr} {op : Nat} {act : Cmd → Bool} {go : Cmd → State} {u : State} {q : State → Prop}
    (hx : exec cmd s = .next (s.runOp pl op act go)) (h : Turn pl op c s) (ha : act c = true) (hg : go c = u.finish pl code d)
    (hu : u.cmdAt pl = some c) (hq : Answered pl c code d (u.finish pl code d) → q (u.finish pl code d)) : Goes cmd s q := by
  refine ⟨u.finish pl code d, ?_, hq (State.finish_spec hu code d).2⟩
  rw [hx, State.runOp_turn go h ha, hg]

theorem overN_keeps {α : Type} (g : State → α) {f : Nat → State → State} (h : ∀ i t, g (f i t) = g t) (n : Nat) (s : State) :
    g (overN n f s) = g s := by
  induction n with
  | zero => rfl
  | succ n ih => rw [overN_succ, h, ih]

end Sys2Proof.Machine
end

section
/-! PROOF. Setting parameters. -/
namespace Sys2Proof.Machine
variable {s t : State} {pl : Place} {c : Cmd}

/-- R340: a settable item that is no fault mask is written; its cairn is marked, and before the cairns are restored the write is kept. -/
theorem applyItem_settable {id v : Nat} {r : ItemRow} (hr : itemRow (pidScope id) (pidItem id) = some r) (ha : r.acc ≠ .rz) (hf : pidFlt id = none) :
    ∃ e q, applyItem s id v = { s with params := mapSet s.params id (keptValue id v), early := e, ret := q } := by
  unfold applyItem
  simp only [hr, hf, beq_iff_eq, ha, if_false]
  unfold noteEarly State.markItem
  split <;> split <;> exact ⟨_, _, rfl⟩

/-- What an item reads depends on the written values, the feeds' windows and the array. -/
theorem State.written_congr {id v : Nat} (h1 : t.params = mapSet s.params id v) (h2 : t.feeds = s.feeds) (h3 : t.otp = s.otp) (j : Nat) :
    t.written j = if j = id then v else s.written j := by
  have hd : itemDefault t j = itemDefault s j := by
    unfold itemDefault rtvDefault
    rw [h2, h3]
  unfold State.written
  rw [h1, hd]
  split
  case isTrue h => rw [h, mapGet_mapSet_same]; rfl
  case isFalse h => rw [mapGet_mapSet_other h]

theorem OnlyFeed.feedEnable {x : Nat} (h : OnlyFeed x s t) : OnlyFeed x s (t.feedEnable x) := by
  unfold State.feedEnable
  extract_lets e f u
  have k : OnlyFeed x s u := h.updFeed _
  exact OnlyFeed.ite (OnlyFeed.ite k ((k.gatesOff _).giveTurn)) (OnlyFeed.ite (k.updFeed _) k)

/-- R340: what is taken up at a boundary. -/
theorem State.takeNow_spec (s : State) : s.takeNow.inForce = s.params ∧ s.takeNow.params = s.params ∧ s.takeNow.takeUp = false := by
  have hp : s.takeParams.params = s.params ∧ s.takeParams.inForce = s.params := by
    have h := overN_keeps (fun u => (u.params, u.inForce)) (f := fun x t => t.feedEnable x)
      (fun x t => by
        obtain ⟨e, -⟩ := (OnlyFeed.refl x t).feedEnable
        rw [e]) 2 { s with inForce := s.params }
    obtain ⟨h1, h2⟩ := Prod.mk.inj h
    unfold State.takeParams
    extract_lets u
    have h1' : u.params = s.params := h1
    have h2' : u.inForce = s.params := h2
    split
    · exact ⟨h1', h2'⟩
    · have k := overN_keeps (fun u => (u.params, u.inForce)) (f := fun r t => t.updRidge r fun q => { q with probe := q.probe.filter (·.readmit) })
        (fun _ _ => rfl) 6 u
      obtain ⟨k1, k2⟩ := Prod.mk.inj k
      exact ⟨k1.trans h1', k2.trans h2'⟩
  have h := overN_keeps (fun u => (u.inForce, u.params, u.takeUp)) (f := fun x t => t.updFeed x (Feed.countHere s)) (fun _ _ => rfl) 2
    { s.takeParams with takeUp := false }
  obtain ⟨h1, h2⟩ := Prod.mk.inj h
  obtain ⟨h2, h3⟩ := Prod.mk.inj h2
  exact ⟨h1.trans hp.2, h2.trans hp.1, h3⟩

/-- Settles O12: what one settable entry writes (`applyItem_settable`), the refusal, and the take-up (`State.takeNow_spec`). -/
theorem settingParameters : Obligations.SettingParameters := by
  refine ⟨?write, ?refuse, ?take⟩
  case write =>
    intro pl s c id v r ht he hno hold hr hacc hflt
    obtain ⟨e, q, ha⟩ := applyItem_settable (s := { s with itemSeq := mapSet s.itemSeq id c.seqNo }) (v := v) hr hacc hflt
    refine goes_finish rfl ht rfl (u := { s with itemSeq := mapSet s.itemSeq id c.seqNo, params := mapSet s.params id (keptValue id v), early := e, ret := q })
      (code := stOk) (d := []) ?_ ?_ fun hans => ?_
    · dsimp only
      rw [he]
      simp only [List.any_cons, hno, List.any_nil, Bool.or_false, Bool.false_eq_true, if_false, applyEntries, hold, ha]
      rfl
    · exact (State.cmdAt_congr rfl rfl pl).trans ht.1
    · have hw := fun j => State.written_congr (s := s) (id := id) (v := keptValue id v) (t := State.finish
        { s with itemSeq := mapSet s.itemSeq id c.seqNo, params := mapSet s.params id (keptValue id v), early := e, ret := q } pl stOk [])
        (by simp) (by simp) (by simp) j
      exact ⟨(hw id).trans (if_pos rfl), fun j hj => (hw j).trans (if_neg hj), by simp, by simp, by simp, by simp, by simp, hans⟩
  case refuse =>
    intro pl s c ht hno
    exact ends_of_runOp rfl ht rfl (if_pos hno)
  case take =>
    intro s hl htk hb
    obtain ⟨h1, h2, h3⟩ := s.takeNow_spec
    refine .intro rfl (if_pos (by simp [hl, htk, hb])) ⟨h1, h2, h3, fun scope inst item => ?_⟩
    unfold State.inf
    rw [h1]

end Sys2Proof.Machine
end

section
/-! PROOF. Going down. -/
namespace Sys2Proof.Machine
variable {s t : State}

/-! ### Sweeps over the ports, the phases and the ridges -/

/-- A sweep of operations that each touch their own port alone: port q is what its operation makes of it. -/
theorem overN_portAlone {f : Nat → State → State} (hf : ∀ p t, PortAlone p t (f p t)) (n : Nat) (s : State) :
    overN n f s = { s with ports := (overN n f s).ports } ∧ (overN n f s).ports.length = s.ports.length ∧
      (∀ q, n ≤ q → (overN n f s).port q = s.port q) ∧
      ∀ q, q < n → ∃ u : State, u = { s with ports := u.ports } ∧ u.ports.length = s.ports.length ∧ u.port q = s.port q ∧
        (overN n f s).port q = (f q u).port q := by
  induction n with
  | zero => exact ⟨rfl, rfl, fun _ _ => rfl, fun q hq => absurd hq (by omega)⟩
  | succ n ih =>
    obtain ⟨h1, h2, h3, h4⟩ := ih
    rw [overN_succ]
    generalize overN n f s = u at h1 h2 h3 h4
    obtain ⟨k1, k2, k3⟩ := hf n u
    refine ⟨?_, k2.trans h2, fun q hq => (k3 q (by omega)).trans (h3 q (by omega)), fun q hq => ?_⟩
    · rw [k1, h1]
    · by_cases hqn : q = n
      · subst hqn
        exact ⟨u, h1, h2, h3 q (Nat.le_refl q), rfl⟩
      · obtain ⟨v, v1, v2, v3, v4⟩ := h4 q (by omega)
        exact ⟨v, v1, v2, v3, (k3 q hqn).trans v4⟩

theorem overN_phases (g : Phase → Phase) (n : Nat) (s : State) :
    overN n (fun k t => t.updPhase k g) s = { s with phases := (overN n (fun k t => t.updPhase k g) s).phases } ∧
      (overN n (fun k t => t.updPhase k g) s).phases.length = s.phases.length ∧
      (∀ k, n ≤ k → (overN n (fun k t => t.updPhase k g) s).phase k = s.phase k) ∧
      ∀ k, k < n → k < s.phases.length → (overN n (fun k t => t.updPhase k g) s).phase k = g (s.phase k) := by
  induction n with
  | zero => exact ⟨rfl, rfl, fun _ _ => rfl, fun k hk => absurd hk (by omega)⟩
  | succ n ih =>
    obtain ⟨h1, h2, h3, h4⟩ := ih
    rw [overN_succ]
    generalize overN n (fun k t => t.updPhase k g) s = u at h1 h2 h3 h4
    refine ⟨?_, (u.updPhase_length n g).trans h2, fun k hk => ?_, fun k hk hl => ?_⟩
    · rw [h1]
      rfl
    · rw [State.phase_updPhase_ne _ _ _ _ (by omega), h3 k (by omega)]
    · by_cases hkn : k = n
      · subst hkn
        rw [State.phase_updPhase _ _ _ (by omega), h3 k (Nat.le_refl k)]
      · rw [State.phase_updPhase_ne _ _ _ _ hkn, h4 k (by omega) hl]

theorem overN_ridges (g : Ridge → Ridge) (n : Nat) (s : State) :
    overN n (fun k t => t.updRidge k g) s = { s with ridges := (overN n (fun k t => t.updRidge k g) s).ridges } ∧
      (overN n (fun k t => t.updRidge k g) s).ridges.length = s.ridges.length ∧
      (∀ k, n ≤ k → (overN n (fun k t => t.updRidge k g) s).ridge k = s.ridge k) ∧
      ∀ k, k < n → k < s.ridges.length → (overN n (fun k t => t.updRidge k g) s).ridge k = g (s.ridge k) := by
  induction n with
  | zero => exact ⟨rfl, rfl, fun _ _ => rfl, fun k hk => absurd hk (by omega)⟩
  | succ n ih =>
    obtain ⟨h1, h2, h3, h4⟩ := ih
    rw [overN_succ]
    generalize overN n (fun k t => t.updRidge k g) s = u at h1 h2 h3 h4
    refine ⟨?_, (u.updRidge_length n g).trans h2, fun k hk => ?_, fun k hk hl => ?_⟩
    · rw [h1]
      rfl
    · rw [State.ridge_updRidge_ne _ _ _ _ (by omega), h3 k (by omega)]
    · by_cases hkn : k = n
      · subst hkn
        rw [State.ridge_updRidge _ _ _ (by omega), h3 k (Nat.le_refl k)]
      · rw [State.ridge_updRidge_ne _ _ _ _ hkn, h4 k (by omega) hl]

/-! ### R245 step 7: the outputs go off -/

theorem PortAlone.portOff (p : Nat) (t : State) : PortAlone p t (t.portOff p) :=
  PortAlone.ite ((((PortAlone.refl p t).updPath _).vconnOff).discharge true) (((PortAlone.refl p t).updPath _).vconnOff)

theorem State.portOff_spec {p : Nat} (h : p < s.ports.length) :
    ((s.portOff p).path p).swOn = false ∧ ((s.portOff p).path p).ppg = false ∧ (s.seq.vbatOk = true → ((s.portOff p).cc p).disch = true) := by
  unfold State.portOff
  extract_lets u
  have hu : (u.port p).path = (s.port p).path.opened := by simp [u, State.path_updPath, h]
  have hq : u.seq = s.seq := by
    rw [show u = (s.updPath p Path.opened).vconnOff p from rfl, (((PortAlone.refl p s).updPath _).vconnOff).1]
  have hl : p < u.ports.length := by simpa [u] using h
  rw [hq]
  split
  case isTrue hv => simp [State.path, State.cc, hu, Path.opened, State.discharge, State.cc_updCc, hl]
  case isFalse hv => simp [State.path, hu, Path.opened, hv]

/-- R245, R247, R385: what step 7 of a shutdown leaves. -/
def AfterOutputsOff (s t : State) : Prop :=
  t = { s with ports := t.ports, phases := t.phases, ridges := t.ridges } ∧
    t.ports.length = s.ports.length ∧ t.phases.length = s.phases.length ∧ t.ridges.length = s.ridges.length ∧
    (∀ p, p < 24 → p < s.ports.length →
      (t.port p).inService = false ∧ (t.path p).swOn = false ∧ (t.path p).ppg = false ∧ (s.seq.vbatOk = true → (t.cc p).disch = true)) ∧
    (∀ p, 24 ≤ p → t.port p = s.port p) ∧
    (∀ k, k < 48 → k < s.phases.length → t.phase k = (s.phase k).off) ∧
    ∀ r, r < 6 → r < s.ridges.length → (t.ridge r).stgen = false ∧ (t.ridge r).switchPending = false ∧ (t.ridge r).stagingState = 0

theorem State.outputsOff_spec (s : State) : AfterOutputsOff s s.outputsOff := by
  unfold State.outputsOff
  extract_lets a b c
  obtain ⟨a1, a2, a3, a4⟩ := overN_portAlone PortAlone.portOff 24 s
  rw [show overN 24 (fun p t => t.portOff p) s = a from rfl] at a1 a2 a3 a4
  obtain ⟨b1, b2, b3, b4⟩ := overN_portAlone
    (f := fun p t => (t.updCc p fun c => { c with st := .disabled, disabledBy := .bringup, alloc := false }).updPort p fun q => { q with inService := false })
    (fun p t => ((PortAlone.refl p t).updCc _).updPort _) 24 a
  rw [show overN 24 _ a = b from rfl] at b1 b2 b3 b4
  obtain ⟨c1, c2, -, c4⟩ := overN_phases Phase.off 48 b
  rw [show overN 48 _ b = c from rfl] at c1 c2 c4
  obtain ⟨d1, d2, -, d4⟩ := overN_ridges (fun q =>
    { q with
      stgen := false, stgenQual := false, started := false, switchPending := false, stagingState := 0, staging := {}
      eng := { q.eng with running := false } }) 6 c
  rw [show overN 6 _ c = overN 6 (fun k t => t.updRidge k _) c from rfl] at d1 d2 d4
  generalize overN 6 (fun k t => t.updRidge k _) c = d at d1 d2 d4 ⊢
  clear_value a b c
  have hdp : d.ports = b.ports := by rw [d1, c1]
  have hdf : d.phases = c.phases := by rw [d1]
  have hport : ∀ p, d.port p = b.port p := fun p => by rw [State.port, hdp, State.port]
  have hbl : b.ports.length = s.ports.length := b2.trans a2
  have hbf : b.phases = s.phases := by rw [b1, a1]
  have hbr : c.ridges = s.ridges := by rw [c1, b1, a1]
  refine ⟨?_, ?_, ?_, ?_, fun p hp hl => ?_, fun p hp => ?_, fun k hk hl => ?_, fun r hr hl => ?_⟩
  · rw [d1, c1, b1, a1]
  · rw [hdp, hbl]
  · rw [hdf, c2, hbf]
  · rw [d2, hbr]
  · obtain ⟨v, v1, v2, v3, v4⟩ := a4 p hp
    obtain ⟨u, u1, u2, u3, u4⟩ := b4 p hp
    have hul : p < u.ports.length := by omega
    have hvl : p < v.ports.length := by omega
    have hvb : v.seq = s.seq := by rw [v1]
    obtain ⟨e1, e2, e3⟩ := State.portOff_spec hvl
    rw [hvb] at e3
    simp only [State.path, State.cc] at e1 e2 e3 ⊢
    rw [hport, u4]
    simp [State.port_updPort, State.cc_updCc, hul, u3, v4, e1, e2]
    exact e3
  · rw [hport, b3 p hp, a3 p hp]
  · rw [State.phase, hdf, ← State.phase, c4 k hk (by rw [hbf]; exact hl), State.phase, hbf, State.phase]
  · rw [d4 r hr (by rw [hbr]; exact hl)]
    exact ⟨rfl, rfl, rfl⟩

/-! ### R244: an ordered shutdown begins -/

/-- The highest step begun, which a shutdown undoes first. -/
def State.topStep (s : State) : Nat := if s.seq.mode == .running then 7 else s.seq.step

/-- An ordered shutdown before its first step is undone. -/
def shutdownBegun (s : State) (after : After) : State :=
  { s with host := s.host.dropReplies, tun := s.tun.dropReplies }.updSeq fun q =>
    { q with
      mode := .shutdown, after := after, noFall := false, lastTso := false, holdLen := 640, wakeNoted := 0, sleepAt := none, interpreter := false
      downStep := s.topStep, downTick := s.tick
      sub := if 5 ≤ s.topStep then
          (if s.otp.modes.testBit 2 && (decide (5 < s.seq.step) || (s.seq.step == 5 && s.seq.sub == 1)) then 1 else 0)
        else 0 }

theorem State.orderedShutdown_eq (s : State) (after : After) : s.orderedShutdown after = (shutdownBegun s after).undo s.topStep := rfl

/-- R245: a shutdown of the running part begins with step 7. -/
theorem State.orderedShutdown_of_running (after : After) (h : s.seq.mode = .running) :
    AfterOutputsOff (shutdownBegun s after) (s.orderedShutdown after) ∧ (shutdownBegun s after).seq.downStep = 7 := by
  have ht : s.topStep = 7 := by simp [State.topStep, h]
  refine ⟨?_, ht⟩
  rw [State.orderedShutdown_eq, ht]
  exact State.outputsOff_spec _

end Sys2Proof.Machine
end

section
/-! PROOF. Events, faults and sleep. -/
namespace Sys2Proof.Machine
variable {s t : State} {pl : Place} {c : Cmd}

/-! ### R318: a clear of a fault record that no latch hangs on -/

theorem raiseAll_zero (b : Blk) : overN 16 (fun i t => if (0 : Word).getLsbD i then t.raise b i else t) s = s :=
  overN_keeps id (fun i t => by simp) 16 s

theorem raiseAll_two (b : Blk) : overN 16 (fun i t => if (2 : Word).getLsbD i then t.raise b i else t) s = s.raise b 1 := by
  simp [overN, show List.range 16 = [0, 1, 2, 3, 4, 5, 6, 7, 8, 9, 10, 11, 12, 13, 14, 15] from rfl]

theorem State.clearFault_of_none {b : Blk} (m : Word) (h : stillHolds s b = 0) (hr : ∀ u w, State.release u b w = u) :
    s.clearFault b m = s.setFlt b ((s.flt b).clear m) := by
  unfold State.clearFault
  rw [h]
  extract_lets before u
  rw [hr]
  exact raiseAll_zero b

theorem stillHolds_supv : stillHolds s .supv = if s.inn.degradedFrom.isSome then 0x0002 else 0 := rfl

/-- R210, R318: a clear of the supervisor's record while the degraded mode lasts sets its bit again. -/
theorem State.clearFault_degraded (m : Word) (h : s.inn.degradedFrom.isSome = true) :
    s.clearFault .supv m = (s.setFlt .supv (s.fltSupv.clear m)).raise .supv 1 := by
  unfold State.clearFault
  rw [stillHolds_supv, if_pos h]
  exact raiseAll_two .supv

theorem or_two_of_getLsbD {w : Word} (h : w.getLsbD 1 = true) : w ||| 2 = w := by
  refine BitVec.eq_of_getLsbD_eq fun i hi => ?_
  rw [BitVec.getLsbD_or]
  by_cases h1 : i = 1
  · subst h1
    rw [h, Bool.true_or]
  · have h2 : (2 : Word).getLsbD i = false := by
      interval_cases i <;> first | contradiction | rfl
    exact (congrArg (w.getLsbD i || ·) h2).trans (Bool.or_false _)

theorem State.raiseSupv_frame (i : Nat) :
    s.raise .supv i =
      { s with
        fltSupv := (s.raise .supv i).fltSupv, faultN := (s.raise .supv i).faultN
        attn := (s.raise .supv i).attn, irq := (s.raise .supv i).irq } := by
  obtain ⟨a, n, q, e⟩ | ⟨-, e⟩ := s.raise_shape .supv i
  · rw [e]
    rfl
  · rw [e]

theorem State.raise_supv_sticky : (s.raise .supv 1).fltSupv.sticky = s.fltSupv.sticky ||| 0x0002 := by
  obtain ⟨a, n, q, e⟩ | ⟨h, e⟩ := s.raise_shape .supv 1
  · rw [e]
    show ((s.fltSupv.occur 1 s.firstFrame s.stampNow).sticky) = _
    unfold Flt.occur
    dsimp only
    split
    case isTrue h0 => simp [h0]
    case isFalse => simp
  · rw [e]
    exact (or_two_of_getLsbD h).symm

/-- R318: the command that clears a record ends with what then stands. -/
theorem faultClear_due {b : Blk} {m : Word} (hc : s.cmdAt pl = some c) (hd : s.clearDue c = true) (hb : c.clearOf = some (b, m)) :
    faultClear pl s = (s.clearFault b m).finish pl stOk (leBytes 2 ((s.clearFault b m).flt b).sticky.toNat) := by
  have hw : c.wait = none := by
    simp only [State.clearDue, Bool.and_eq_true, Option.isNone_iff_eq_none] at hd
    exact hd.1.1.2
  unfold faultClear
  simp only [hc, hb, hw, hd]
  rfl

theorem faultClear_ends {b : Blk} {m : Word} (hc : s.cmdAt pl = some c) (hd : s.clearDue c = true) (hb : c.clearOf = some (b, m))
    (hh : b.here s) (h0 : stillHolds s b = 0) (hr : ∀ u w, State.release u b w = u)
    (hcmd : (s.setFlt b ((s.flt b).clear m)).cmdAt pl = s.cmdAt pl) :
    Ends (.faultClear pl) pl c s (s.setFlt b ((s.flt b).clear m)) stOk (leBytes 2 ((s.flt b).sticky &&& ~~~m).toNat) := by
  have he := faultClear_due hc hd hb
  rw [State.clearFault_of_none m h0 hr, s.flt_setFlt b _ hh] at he
  exact ⟨_, congrArg Host.Outcome.next he, State.finish_spec (hcmd.trans hc) _ _⟩

/-- Settles O13: what each of these commands changes before it ends, and how a shutdown of the running part begins
(`State.orderedShutdown_of_running`). -/
theorem eventsFaultsAndSleep : Obligations.EventsFaultsAndSleep := by
  refine ⟨?read, ?clear, ?pin, ?pulse, ?sleep, ?expiry, ?policy⟩
  case read =>
    intro pl s c ht
    exact ends_after rfl ht rfl ((State.cmdAt_congr rfl rfl pl).trans ht.1) rfl
  case clear =>
    intro pl s c b m hc hd hb
    refine ⟨fun hcase => ?_, fun hbs hdeg => ?_⟩
    · obtain rfl | rfl | rfl | ⟨rfl, hdeg⟩ := hcase
      · exact faultClear_ends hc hd hb trivial rfl (fun _ _ => rfl) (State.cmdAt_congr rfl rfl pl)
      · exact faultClear_ends hc hd hb trivial rfl (fun _ _ => rfl) (State.cmdAt_congr rfl rfl pl)
      · exact faultClear_ends hc hd hb trivial rfl (fun _ _ => rfl) (State.cmdAt_congr rfl rfl pl)
      · exact faultClear_ends hc hd hb trivial (by rw [stillHolds_supv, hdeg]; rfl) (fun _ _ => rfl) (State.cmdAt_congr rfl rfl pl)
    · subst hbs
      have he := faultClear_due hc hd hb
      rw [State.clearFault_degraded m (Option.isSome_iff_ne_none.2 hdeg)] at he
      have hcmd : ((s.setFlt .supv (s.fltSupv.clear m)).raise .supv 1).cmdAt pl = some c := by
        rw [State.cmdAt_congr (s := s) (by simp [State.setFlt]) (by simp [State.setFlt]) pl, hc]
      obtain ⟨-, hans, -⟩ := State.finish_spec hcmd stOk (leBytes 2 (((s.setFlt .supv (s.fltSupv.clear m)).raise .supv 1).flt .supv).sticky.toNat)
      refine .intro rfl he ⟨?_, hans, ?_, ?_⟩
      · rw [State.finish_fltSupv, State.raise_supv_sticky]
        rfl
      · rw [State.finish_ports, State.raiseSupv_frame]
        rfl
      · rw [State.finish_phases, State.raiseSupv_frame]
        rfl
  case pin =>
    intro pl s c ht
    exact ⟨fun h => ends_after rfl ht (by simp [h]) ((State.cmdAt_congr rfl rfl pl).trans ht.1) rfl,
      fun h => ends_after rfl ht (by simp [h]) ((State.cmdAt_congr rfl rfl pl).trans ht.1) rfl⟩
  case pulse =>
    intro s hp hb hn
    refine ⟨fun h => congrArg Host.Outcome.next ?_, fun h hl => congrArg Host.Outcome.next ?_⟩
    · simp [faultNPulseEnd, hp, hb, hn, h]
    · simp [faultNPulseEnd, hp, hb, hn, h, hl]
  case sleep =>
    intro pl s c ht
    exact ends_after rfl ht rfl ((State.cmdAt_congr rfl rfl pl).trans ht.1) rfl
  case expiry =>
    intro s f hs hsl hm hlk hb hf hburn
    obtain ⟨⟨h1, -, -, -, hp, hq, -⟩, hds⟩ := State.orderedShutdown_of_running .rest hm
    have hseq : (s.orderedShutdown .rest).seq = (shutdownBegun s .rest).seq := by rw [h1]
    have hhost : (s.orderedShutdown .rest).host = s.host.dropReplies := by
      rw [h1]
      rfl
    have htun : (s.orderedShutdown .rest).tun = s.tun.dropReplies := by
      rw [h1]
      rfl
    have hotp : (s.orderedShutdown .rest).otp = s.otp := by
      rw [h1]
      rfl
    refine .intro rfl (u := s.orderedShutdown .rest) ?_ ⟨?_, ?_, ?_, ?_, ?_, ?_, ?_, hotp, fun p hin => ?_⟩
    · simp [sleepDelayExpiry, hsl, hm, hlk, hb, hf, hburn]
    · rw [hseq]
      rfl
    · rw [hseq]
      rfl
    · rw [hseq, hds]
    · rw [hseq]
      rfl
    · rw [hseq]
      rfl
    · rw [hhost]
      rfl
    · rw [htun]
      rfl
    · obtain ⟨hlen, -⟩ := hs
      by_cases hp24 : p < 24
      · exact (hp p hp24 (show p < s.ports.length by omega)).2.1
      · rw [State.port, List.getD_eq_default _ _ (by omega)] at hin
        cases hin
  case policy =>
    intro s hb hp hc
    obtain ⟨h1, h2, h3, -⟩ := State.sessionEnd_spec 3 hc
    refine .intro rfl (if_pos (by simp [hb, hp, hc])) ⟨h1, ?_, h2, h3⟩
    unfold State.sessionEnd
    rw [if_neg (by simpa using hc)]
    dsimp only
    split <;> rfl

end Sys2Proof.Machine
end

section
/-! PROOF. Program banks. -/
namespace Sys2Proof.Machine
variable {s t : State} {pl : Place} {c : Cmd}

/-! ### Words of a bank and entries of a decode table (R382, R391) -/

theorem Bank.word_eq (b : Bank) (a : Nat) : b.word a = (mapGet b.words a).getD (if b.base = 0 then 0 else Config.lawImage b.base a) := by
  unfold Bank.word
  cases mapGet b.words a <;> rfl

theorem Bank.entry_eq (b : Bank) (a : Nat) : b.entry a = (mapGet b.tbl a).getD (if b.tblBase = 0 then 0 else Config.lawTable b.tblBase a) := by
  unfold Bank.entry
  cases mapGet b.tbl a <;> rfl

theorem mapGet_putWord {base a j : Nat} {m : List (Nat × Word32)} {w d : Word32} (hd : base = 0 → d = 0) :
    (mapGet (putWord base m a w) j).getD d = if j = a then w else (mapGet m j).getD d := by
  unfold putWord
  by_cases hj : j = a
  · subst hj
    rw [if_pos rfl]
    split
    case isTrue h =>
      simp only [Bool.and_eq_true, decide_eq_true_eq, beq_iff_eq] at h
      rw [mapGet_mapErase_same, h.2]
      exact hd h.1
    case isFalse => rw [mapGet_mapSet_same]; rfl
  · rw [if_neg hj]
    split
    · rw [mapGet_mapErase_other hj]
    · rw [mapGet_mapSet_other hj]

/-- A run of words written from an address reads back, and leaves the other words. -/
theorem mapGet_putWords {base j : Nat} {d : Word32} (hd : base = 0 → d = 0) (ws : List Word32) (m : List (Nat × Word32)) (a : Nat) :
    (mapGet (putWords base m a ws) j).getD d = if a ≤ j ∧ j < a + ws.length then ws.getD (j - a) 0 else (mapGet m j).getD d := by
  induction ws generalizing m a with
  | nil => rw [if_neg (by simp), putWords]
  | cons w ws ih =>
    rw [putWords, ih, mapGet_putWord hd]
    by_cases hj : j = a
    · subst hj
      rw [if_neg (by omega), if_pos rfl, if_pos (by simp)]
      simp
    · simp only [List.length_cons, if_neg hj]
      by_cases hin : a + 1 ≤ j ∧ j < a + 1 + ws.length
      · rw [if_pos hin, if_pos (by omega), show j - a = (j - (a + 1)) + 1 by omega, List.getD_cons_succ]
      · rw [if_neg hin, if_neg (by omega)]

/-- R325: the words of a bank after a load of its words. -/
theorem Bank.word_load (b : Bank) (a : Nat) (ws : List Word32) (j : Nat) :
    ({ b with words := putWords b.base b.words a ws } : Bank).word j = if a ≤ j ∧ j < a + ws.length then ws.getD (j - a) 0 else b.word j := by
  rw [Bank.word_eq, Bank.word_eq]
  exact mapGet_putWords (fun h => if_pos h) ws b.words a

theorem Bank.entry_load (b : Bank) (a : Nat) (ws : List Word32) (j : Nat) :
    ({ b with tbl := putWords b.tblBase b.tbl a ws } : Bank).entry j = if a ≤ j ∧ j < a + ws.length then ws.getD (j - a) 0 else b.entry j := by
  rw [Bank.entry_eq, Bank.entry_eq]
  exact mapGet_putWords (fun h => if_pos h) ws b.tbl a

/-! ### A sweep over named ridges -/

theorem overList_updRidge (g : Ridge → Ridge) (l : List Nat) (hl : l.Nodup) (s : State) :
    overList l (fun r t => t.updRidge r g) s = { s with ridges := (overList l (fun r t => t.updRidge r g) s).ridges } ∧
      (∀ r, r ∉ l → (overList l (fun r t => t.updRidge r g) s).ridge r = s.ridge r) ∧
      ∀ r, r ∈ l → r < s.ridges.length → (overList l (fun r t => t.updRidge r g) s).ridge r = g (s.ridge r) := by
  induction l generalizing s with
  | nil => exact ⟨rfl, fun _ _ => rfl, nofun⟩
  | cons q l ih =>
    obtain ⟨hq, hl⟩ := List.nodup_cons.1 hl
    obtain ⟨h1, h2, h3⟩ := ih hl (s.updRidge q g)
    rw [show overList (q :: l) (fun r t => t.updRidge r g) s = overList l (fun r t => t.updRidge r g) (s.updRidge q g) from rfl]
    refine ⟨?_, fun r hr => ?_, fun r hr hlen => ?_⟩
    · rw [h1]
      rfl
    · obtain ⟨hne, hnl⟩ := not_or.1 (mt List.mem_cons.2 hr)
      rw [h2 r hnl, State.ridge_updRidge_ne _ _ _ _ hne]
    · by_cases hrq : r = q
      · subst hrq
        rw [h2 r hq, State.ridge_updRidge _ _ _ hlen]
      · rw [h3 r ((List.mem_cons.1 hr).resolve_left hrq) (by simpa using hlen), State.ridge_updRidge_ne _ _ _ _ hrq]

/-- R326: a load of a decode table, as the staging bank of each ridge takes it. -/
def loadTable (c : Cmd) (q : Ridge) : Ridge :=
  { q with staging := { q.staging with tbl := putWords q.staging.tblBase q.staging.tbl (c.p8 1) c.words }, stagingState := 1 }

/-! ### R384: the banks exchange -/

theorem State.switchBank_spec {r : Nat} (h : r < s.ridges.length) :
    (s.switchBank r).ridge r =
        { s.ridge r with
          bank := (s.ridge r).staging, staging := (s.ridge r).bank, activeSrc := (s.ridge r).switchSrc, activeId := (s.ridge r).switchId
          decodeId := (s.ridge r).staging.tableId, stagingState := 3, switchPending := false, switchFrame := s.frameCount, steerWord := 0
          copying := (s.ridge r).switchSrc == 0, eng := { (s.ridge r).eng with units := List.replicate 8 {} } } ∧
      (∀ q, q ≠ r → (s.switchBank r).ridge q = s.ridge q) ∧ (s.switchBank r).ports = s.ports ∧ (s.switchBank r).phases = s.phases ∧
      (s.switchBank r).ledger = s.ledger := by
  unfold State.switchBank
  extract_lets u w v
  have hu : u.ridge r = _ := s.ridge_updRidge r _ h
  have hv : v = { u with ret := v.ret } := by
    simp only [v]
    split <;> rfl
  have hvr : ∀ q, v.ridge q = u.ridge q := fun q => by rw [hv]; rfl
  refine ⟨?_, fun q hq => ?_, ?_, ?_, ?_⟩
  · rw [State.finishWait_ridge, hvr, hu]
  · rw [State.finishWait_ridge, hvr]
    exact s.ridge_updRidge_ne _ _ _ hq
  · rw [State.finishWait_ports, hv]
    rfl
  · rw [State.finishWait_phases, hv]
    rfl
  · rw [State.finishWait_ledger, hv]
    rfl

/-! ### R424: cairns that are marked dirty -/

theorem State.cairn_updCairn (n : Nat) (f : Cairn → Cairn) (h : n < s.ret.cairns.length) : (s.updCairn n f).cairn n = f (s.cairn n) := by
  simp [State.updCairn, State.cairn, h]

theorem State.cairn_updCairn_ne {n m : Nat} (f : Cairn → Cairn) (h : m ≠ n) : (s.updCairn n f).cairn m = s.cairn m := by
  simp [State.updCairn, State.cairn, Ne.symm h]

theorem State.markDirty_ridge (n r : Nat) : (s.markDirty n).ridge r = s.ridge r := rfl

theorem State.markDirty_dirty {n : Nat} (h : n < s.ret.cairns.length) : ((s.markDirty n).cairn n).dirty = true := by
  unfold State.markDirty
  rw [State.cairn_updCairn _ _ h]

/-- An update of a ridge depends on what it makes of that ridge alone. -/
theorem State.updRidge_congr {r : Nat} {f g : Ridge → Ridge} (h : f (s.ridge r) = g (s.ridge r)) : s.updRidge r f = s.updRidge r g := by
  have e : s.ridges.modify r f = s.ridges.modify r g := by
    refine List.ext_getElem? fun j => ?_
    rw [List.getElem?_modify, List.getElem?_modify]
    by_cases hj : r = j
    · subst hj
      cases hq : s.ridges[r]? with
      | none => rfl
      | some q =>
        have hr : s.ridge r = q := by simp [State.ridge, hq]
        rw [hr] at h
        simp [h]
    · simp [hj]
  unfold State.updRidge
  rw [e]

/-- Settles O14: what a load writes (`Bank.word_load`, `Bank.entry_load`), the check of a switch, and the exchange (`State.switchBank_spec`). -/
theorem programBanks : Obligations.ProgramBanks := by
  refine ⟨?prog, ?busy, ?table, ?tables, ?switch, ?exchange, ?copy⟩
  case prog =>
    intro pl s c ht hs hr hp
    have hl := hs.ridge_lt hr
    refine goes_finish rfl ht rfl (u := s.updRidge (c.p8 0) fun q =>
      { q with staging := { q.staging with words := putWords q.staging.base q.staging.words (c.p16 2) c.words }, stagingState := 1 })
      (code := stOk) (d := []) (if_neg (by simp [hp])) ((State.cmdAt_congr rfl rfl pl).trans ht.1) fun hans => ?_
    simp only [State.finish_ridge, State.finish_ports, State.finish_phases, State.finish_ledger]
    have hu := s.ridge_updRidge (c.p8 0) (fun q : Ridge =>
      { q with staging := { q.staging with words := putWords q.staging.base q.staging.words (c.p16 2) c.words }, stagingState := 1 }) hl
    refine ⟨hans, ?_, ?_, fun i hi => ?_, fun a ha => ?_, fun r hr => s.ridge_updRidge_ne _ _ _ hr, rfl, rfl, rfl⟩
    · rw [hu]
    · rw [hu]
    · rw [hu, Bank.word_load, if_pos (by omega), Nat.add_sub_cancel_left]
    · rw [hu, Bank.word_load, if_neg (by omega)]
  case busy =>
    intro pl s c ht hp
    exact ends_of_runOp rfl ht rfl (if_pos hp)
  case table =>
    intro pl s c ht hs hr hp
    have hl := hs.ridge_lt hr
    have hrs : ucodeRidges s (c.p8 0) = [c.p8 0] := if_neg (by omega)
    have hu := s.ridge_updRidge (c.p8 0) (loadTable c) hl
    refine goes_finish rfl ht rfl (u := s.updRidge (c.p8 0) (loadTable c)) (code := stOk) (d := []) ?_
      ((State.cmdAt_congr rfl rfl pl).trans ht.1) fun hans => ?_
    · dsimp only
      rw [hrs, if_neg (by simp [hp])]
      rfl
    simp only [State.finish_ridge, State.finish_ports, State.finish_phases]
    refine ⟨hans, ?_, ?_, fun i hi => ?_, fun a ha => ?_, fun r hr => s.ridge_updRidge_ne _ _ _ hr, rfl, rfl⟩
    · rw [hu]
      rfl
    · rw [hu]
      rfl
    · rw [hu, loadTable, Bank.entry_load, if_pos (by omega), Nat.add_sub_cancel_left]
    · rw [hu, loadTable, Bank.entry_load, if_neg (by omega)]
  case tables =>
    intro pl s c ht hs hr hp
    have hrs : ucodeRidges s (c.p8 0) = (List.range 6).filter (ridgeHere s) := if_pos hr
    have hmem : ∀ r, r < 6 → (r ∈ ucodeRidges s (c.p8 0) ↔ ridgeHere s r = true) := fun r h => by simp [hrs, h]
    have hnd : (ucodeRidges s (c.p8 0)).Nodup := hrs ▸ List.nodup_range.filter _
    obtain ⟨h1, h2, h3⟩ := overList_updRidge (loadTable c) (ucodeRidges s (c.p8 0)) hnd s
    have hpend : ((ucodeRidges s (c.p8 0)).any fun r => (s.ridge r).switchPending) = false := by
      rw [hrs, List.any_eq_false]
      intro r hr
      obtain ⟨hr6, hh⟩ := List.mem_filter.1 hr
      simp [hp r (List.mem_range.1 hr6) hh]
    refine goes_finish rfl ht rfl (u := overList (ucodeRidges s (c.p8 0)) (fun r t => t.updRidge r (loadTable c)) s) (code := stOk) (d := [])
      (if_neg (by simp [hpend])) ?_ fun hans => ?_
    · rw [State.cmdAt_congr (s := s) (by rw [h1]) (by rw [h1]) pl]
      exact ht.1
    simp only [State.finish_ridge, State.finish_ports, State.finish_phases]
    refine ⟨hans, by rw [h1], by rw [h1], fun r hr => ⟨fun hh => ?_, fun hh => h2 r (by simp [hmem r hr, hh])⟩⟩
    rw [h3 r ((hmem r hr).2 hh) (hs.ridge_lt hr)]
    refine ⟨rfl, rfl, fun i hi => ?_⟩
    rw [loadTable, Bank.entry_load, if_pos (by omega), Nat.add_sub_cancel_left]
  case switch =>
    intro pl s c ht hp href
    refine ⟨fun hsrc hlaw => ⟨fun n hn => ?_, fun hn => ?_⟩, fun hsrc => ?_⟩
    · refine ends_of_runOp rfl ht (by simp [hsrc]) ?_
      simp [hp, href, hlaw, hn]
    · refine waits_after rfl ht (by simp [hsrc]) ((State.cmdAt_congr rfl rfl pl).trans ht.1) ?_
      rw [if_neg (by simp [hp]), if_neg (by simp [href]), if_neg (by simp [hlaw]), hn]
      exact congrArg (State.hold · pl (.bankSwitch (c.p8 0))) (State.updRidge_congr rfl)
    · refine waits_after rfl ht (by simp [hsrc]) ((State.cmdAt_congr rfl rfl pl).trans ht.1) ?_
      simp [hp, href, pendSwitch, lawId]
  case exchange =>
    intro s r hs hr hl hb hh hm
    obtain ⟨h1, h2, h3, h4, h5⟩ := State.switchBank_spec (hs.ridge_lt hr)
    refine .intro rfl (if_pos (by simp [hr, hl, hb, hh, hm])) ?_
    rw [h1]
    exact ⟨rfl, rfl, rfl, rfl, rfl, rfl, rfl, rfl, h2, h3, h4, h5⟩
  case copy =>
    intro s r hs hr hl hc hb
    have hrl := hs.ridge_lt hr
    obtain ⟨-, -, -, -, hcl, -⟩ := hs
    refine .intro rfl (if_pos (by simp [hr, hl, hc])) ⟨?_, ?_, ?_, ?_, rfl, rfl⟩
    · simp [State.markDirty, State.updCairn, hb]
    · rw [State.markDirty_ridge, State.markDirty_ridge]
      exact congrArg Ridge.copying (State.ridge_updRidge
        { s with ret := { s.ret with banks := s.ret.banks.set r (s.ridge r).bank.words } } r _ hrl)
    · have hdl : decodeCairn r < s.ret.cairns.length := by
        unfold decodeCairn
        omega
      unfold State.markDirty
      rw [State.cairn_updCairn_ne _ (by unfold decodeCairn ridgeCairn; omega)]
      exact State.markDirty_dirty (by simpa using hdl)
    · have hrl' : ridgeCairn r < s.ret.cairns.length := by
        unfold ridgeCairn
        omega
      exact State.markDirty_dirty (by simpa [State.markDirty, State.updCairn] using hrl')

end Sys2Proof.Machine
end

section
/-! PROOF. Patches and captures. -/
namespace Sys2Proof.Machine
variable {s t : State} {pl : Place} {c : Cmd}

/-! ### Places that an end frees (R292, R295) -/

theorem State.finish_cmdAt_same (code : Nat) (d : List Byte) : (s.finish pl code d).cmdAt pl = none := by
  cases h : s.cmdAt pl with
  | none => unfold State.finish; simp only [h]
  | some c => exact (State.finish_spec h code d).2.1

theorem State.finish_cmdAt_other {q : Place} (h : q ≠ pl) (code : Nat) (d : List Byte) : (s.finish pl code d).cmdAt q = s.cmdAt q := by
  cases hc : s.cmdAt pl with
  | none => unfold State.finish; simp only [hc]
  | some c =>
    unfold State.finish
    simp only [hc]
    cases pl <;> cases q <;> cases o : c.orphan <;>
      simp_all [State.cmdAt, placeChan, placeZero, State.setChan, State.chan, ChanState.setCmd, ChanState.cmd, ChanState.answer]

theorem State.waits_congr {q : Place} {w : WaitFor} (h : t.cmdAt q = s.cmdAt q) : t.waits q w = s.waits q w := by
  unfold State.waits
  rw [h]

theorem State.waits_of_cmdAt {w : WaitFor} (h : s.cmdAt pl = some c) (hw : c.wait = some w) : s.waits pl w = true := by
  unfold State.waits
  simp [h, hw]

theorem finishList_cmdAt (w : WaitFor) (n : Nat) (d : List Byte) (q : Place) (l : List Place) (s : State) :
    (l.foldl (fun t pl => if t.waits pl w then t.finish pl n d else t) s).cmdAt q =
      if q ∈ l ∧ s.waits q w = true then none else s.cmdAt q := by
  induction l generalizing s with
  | nil => simp
  | cons p l ih =>
    rw [List.foldl_cons, ih]
    by_cases hw : s.waits p w = true
    · rw [if_pos hw]
      by_cases hq : q = p
      · subst hq
        simp [State.finish_cmdAt_same, hw]
      · rw [State.waits_congr (State.finish_cmdAt_other hq n d), State.finish_cmdAt_other hq]
        simp [hq]
    · rw [if_neg hw]
      by_cases hq : q = p
      · subst hq
        simp [hw]
      · simp [hq]

/-- Ending a wait frees the places that wait for it and no other. -/
theorem State.finishWait_cmdAt (w : WaitFor) (n : Nat) (d : List Byte) (q : Place) :
    (s.finishWait w n d).cmdAt q = if s.waits q w = true then none else s.cmdAt q := by
  unfold State.finishWait
  rw [finishList_cmdAt]
  cases q <;> simp

/-- A command that waits for what has ended has its answer. -/
theorem State.finishWait_frees {w : WaitFor} (h : s.cmdAt pl = some c) (hw : c.wait = some w) (n : Nat) (d : List Byte) :
    (s.finishWait w n d).cmdAt pl = none := by
  rw [State.finishWait_cmdAt, if_pos (State.waits_of_cmdAt h hw)]

/-- Settles O15: the buffer reads back what was loaded (`cellsRead_store_same`), and an armed capture ends once. -/
theorem patchesAndCaptures : Obligations.PatchesAndCaptures := by
  refine ⟨?load, ?verify, ?drop, ?arm, ?fires⟩
  case load =>
    intro pl s c ht hwf
    refine goes_finish rfl ht rfl (code := stOk) (d := []) rfl ((State.cmdAt_congr rfl rfl pl).trans ht.1) fun hans => ?_
    rw [State.finish_svc, State.finish_ports, State.finish_ridges, State.finish_otp]
    exact ⟨hans, rfl, fun i hi => cellsRead_store_same _ hwf i hi, fun a ha => cellsRead_store_other _ hwf ha, rfl, rfl, rfl, rfl⟩
  case verify =>
    intro pl s c img ht himg
    subst himg
    cases hf : patchFault s.otp (cellsLoad s.svc.patchBuf 0 s.svc.patchHigh) (cellsLoad s.svc.patchBuf 0 s.svc.patchHigh).length with
    | some n =>
      obtain ⟨t, ht, hr, ha⟩ := ends_of_runOp (cmd := .patchVerify pl) (code := if n < 3 then stFailed else stAuth) (d := [byteOf n]) rfl ht rfl
        (by simp only [hf])
      refine ⟨t, ht, fun m hm => ?_, nofun⟩
      obtain rfl := Option.some.inj hm
      exact ⟨hr, ha⟩
    | none =>
      obtain ⟨t, ht, hr, ha⟩ := ends_after (cmd := .patchVerify pl)
        (u := ({ s with svc := { s.svc with patch := cellsLoad s.svc.patchBuf 0 s.svc.patchHigh, patchRunning := false } } : State).markDirty 18)
        (code := stOk) (d := leBytes 2 (patchLevelOf (cellsLoad s.svc.patchBuf 0 s.svc.patchHigh)))
        rfl ht rfl ((State.cmdAt_congr rfl rfl pl).trans ht.1) (by simp only [hf])
      exact ⟨t, ht, nofun, fun _ => ⟨hr, ha⟩⟩
  case drop =>
    intro pl s c ht
    exact ends_after rfl ht rfl ((State.cmdAt_congr rfl rfl pl).trans ht.1) rfl
  case arm =>
    intro pl s c ht
    exact waits_after rfl ht rfl ((State.cmdAt_congr rfl rfl pl).trans ht.1) rfl
  case fires =>
    intro s r trigger due since ha hl
    refine ⟨fun hc => ?_, fun hd => ?_⟩
    · refine ⟨_, rfl, ?_⟩
      unfold diagCaptureTrigger
      simp only [ha]
      rw [if_pos (by simp [hl, hc])]
      rw [State.finishWait_svc, State.finishWait_ports, State.finishWait_ridges]
      refine ⟨rfl, rfl, rfl, fun pl c hp hw => State.finishWait_frees ?_ hw _ _⟩
      exact (State.cmdAt_congr rfl rfl pl).trans hp
    · refine ⟨_, rfl, ?_⟩
      unfold diagCaptureTimeout
      simp only [ha]
      rw [if_pos (by simp [hl, hd])]
      rw [State.finishWait_svc, State.finishWait_ports, State.finishWait_ridges]
      refine ⟨rfl, rfl, rfl, fun pl c hp hw => State.finishWait_frees ?_ hw _ _⟩
      exact (State.cmdAt_congr rfl rfl pl).trans hp

end Sys2Proof.Machine
end

section
/-! PROOF. Port control opcodes. -/
namespace Sys2Proof.Machine
variable {s t : State} {pl : Place} {c : Cmd} {p : Nat}

/-! ### A port's opcode that ends, or that keeps its place -/

theorem OnlyPort.onlyReply {u : State} (h : OnlyPort p s t) (k : OnlyReply pl t u) : OnlyPort p s u := by
  refine h.trans ?_
  cases pl <;> (change u = _ at k; rw [k]; exact ⟨rfl, rfl, fun _ _ => rfl⟩)

theorem OnlyPort.finish (h : OnlyPort p s t) (pl : Place) (code : Nat) (d : List Byte) : OnlyPort p s (t.finish pl code d) := by
  cases hc : t.cmdAt pl with
  | none =>
    unfold State.finish
    simp only [hc]
    exact h
  | some c => exact h.onlyReply (State.finish_spec hc code d).1

theorem OnlyPort.hold (h : OnlyPort p s t) (pl : Place) (w : WaitFor) : OnlyPort p s (t.hold pl w) := by
  cases hc : t.cmdAt pl with
  | none =>
    unfold State.hold
    simp only [hc]
    exact h
  | some c => exact h.onlyReply (State.hold_spec hc w).1

theorem State.send_cmdAt (m : List PdTx) : (s.send p m).cmdAt pl = s.cmdAt pl := State.cmdAt_congr rfl rfl pl

/-- R91: the opcode of a port that begins a sequence and waits for its end. -/
def startedHold (u : State) (p : Nat) (pl : Place) (w : WaitFor) : State :=
  (u.hold pl w).updPd p fun d => { d with clear := false, collision := none }

theorem startedHold_spec {w : WaitFor} {u : State} (ho : OnlyPort p s u) (hl : p < u.ports.length) (hc : u.cmdAt pl = some c) :
    OnlyPort p s (startedHold u p pl w) ∧ (startedHold u p pl w).dc p = u.dc p ∧ (startedHold u p pl w).sw p = u.sw p ∧
      ((startedHold u p pl w).pd p).tx = (u.pd p).tx ∧ (startedHold u p pl w).cmdAt pl = some { c with wait := some w } := by
  refine ⟨(ho.hold pl w).updPd _, ?_, ?_, ?_, (State.cmdAt_congr rfl rfl pl).trans (State.hold_spec hc w).2.1⟩ <;>
    simp [startedHold, State.dc, State.sw, State.pd, State.pd_updPd, hl]

/-- Settles O16: each action of `PORT_CTL` is refused, or leaves what its port's operation leaves (`State.errorRecovery_spec`, `sendStep_spec`). -/
theorem portControlOpcodes : Obligations.PortControlOpcodes := by
  intro pl s c hs hp
  obtain ⟨h24, -⟩ := hs
  have hl : c.p8 0 < s.ports.length := by omega
  refine ⟨fun ht ha => ⟨fun hst => ?_, fun h1 h2 => ?_⟩, fun ht ha hno => ⟨fun hv => ?_, fun hv hg hsrc hq => ?_⟩,
    fun ht ha hat hex => ⟨fun hd => ?_, fun hd hstep hm => ?_⟩⟩
  · exact ends_of_runOp rfl ht (by simp [ha]) (if_pos (by simpa using hst))
  · obtain ⟨e1, -, e3, -, e5, e6, e7, -⟩ := s.errorRecovery_spec (c.p8 0) hl 0xC
    refine ⟨(s.errorRecovery (c.p8 0) 0xC).finish pl stOk [], ?_, ((OnlyPort.refl _ s).errorRecovery 0xC).finish _ _ _, ?_⟩
    · refine congrArg Host.Outcome.next ((State.runOp_turn _ ht (by simp [ha])).trans (if_neg (by simp [h1, h2])))
    · simpa [State.cc, State.pd, State.path, State.vc] using ⟨e1, e7, e6, e3, e5⟩
  · exact ends_of_runOp rfl ht (by simp [ha]) (if_pos (by simp [hv]))
  · refine ⟨_, congrArg Host.Outcome.next ((State.runOp_turn _ ht (by simp [ha])).trans ((if_neg (by simp [hv, hg, hsrc])).trans
      ((if_neg (by simp [hno])).trans (if_pos hq)))), ?_⟩
    obtain ⟨-, h2, -⟩ := State.hold_spec (pl := pl) (c := c)
      (s := (s.updVc (c.p8 0) fun v => { v with attempt := some s.frame, attempts := min 15 (v.attempts + 1), hostTry := true }).send (c.p8 0)
        [.discoverIdentityPrime]) ((State.cmdAt_congr rfl rfl pl).trans ht.1) (.cable (c.p8 0))
    refine ⟨(((OnlyPort.refl _ s).updVc _).send _).hold _ _, ?_, ?_, ?_, h2⟩ <;>
      simp [State.vc, State.pd, State.send, State.pd_updPd, State.vc_updVc, hl]
  · exact ends_of_runOp rfl ht (by simp [ha]) (if_pos (by simp [hd]))
  · refine ⟨_, congrArg Host.Outcome.next ((State.runOp_turn _ ht (by simp [ha])).trans ((if_neg (by simp [hd, hex, hat])).trans
      ((if_neg (by simp [hstep])).trans (State.startSeq_of_mayStart hm)))), ?_⟩
    have hu : c.p8 0 < (s.updDc (c.p8 0) Disc.cleared).ports.length := by simpa using hl
    obtain ⟨e1, e2, e3⟩ := sendStep_spec .identity hu
    obtain ⟨h1, h2, -, h4, h5⟩ := startedHold_spec (u := sendStep (s.updDc (c.p8 0) Disc.cleared) (c.p8 0) .identity)
      (w := .discovery (c.p8 0)) (((OnlyPort.refl _ s).updDc Disc.cleared |>.updDc _).send _)
      (by rw [e3]; exact hu) ((State.cmdAt_congr rfl rfl pl).trans ht.1)
    refine ⟨h1, ?_, ?_, ?_, h4.trans ?_, h5⟩
    · exact (congrArg Disc.step (h2.trans e1))
    · exact (congrArg Disc.status (h2.trans e1))
    · refine (congrArg Disc.svids (h2.trans e1)).trans ?_
      simp [State.dc, State.dc_updDc, hl, Disc.cleared]
    · rw [e2]
      simp [stepVdm, State.pd]

end Sys2Proof.Machine
end

section
/-! PROOF. Mode opcodes. -/
namespace Sys2Proof.Machine
variable {s t : State} {pl : Place} {c : Cmd} {p : Nat}

/-! ### A place that stays free -/

/-- Place `pl`, where it was free in `s`, is free in `t`. -/
def StaysFree (pl : Place) (s t : State) : Prop := s.cmdAt pl = none → t.cmdAt pl = none

theorem StaysFree.refl (pl : Place) (s : State) : StaysFree pl s s := id
theorem StaysFree.congr (h : StaysFree pl s t) {u : State} (h1 : u.host = t.host) (h2 : u.tun = t.tun) : StaysFree pl s u :=
  fun k => (State.cmdAt_congr h1 h2 pl).trans (h k)
theorem StaysFree.ite {q : Prop} [Decidable q] {a b : State} (h : StaysFree pl s a) (k : StaysFree pl s b) : StaysFree pl s (if q then a else b) := by
  split
  · exact h
  · exact k
theorem StaysFree.finishWait (h : StaysFree pl s t) (w : WaitFor) (n : Nat) (d : List Byte) : StaysFree pl s (t.finishWait w n d) := fun k => by
  rw [State.finishWait_cmdAt, h k, ite_self]
theorem StaysFree.updPort (h : StaysFree pl s t) (f : Port → Port) : StaysFree pl s (t.updPort p f) := h.congr rfl rfl
theorem StaysFree.updPd (h : StaysFree pl s t) (f : Pd → Pd) : StaysFree pl s (t.updPd p f) := h.updPort _
theorem StaysFree.updVc (h : StaysFree pl s t) (f : Vconn → Vconn) : StaysFree pl s (t.updVc p f) := h.updPort _
theorem StaysFree.updCc (h : StaysFree pl s t) (f : CcLayer → CcLayer) : StaysFree pl s (t.updCc p f) := h.updPort _
theorem StaysFree.updSw (h : StaysFree pl s t) (f : Swap → Swap) : StaysFree pl s (t.updSw p f) := h.updPort _
theorem StaysFree.updDc (h : StaysFree pl s t) (f : Disc → Disc) : StaysFree pl s (t.updDc p f) := h.updPort _
theorem StaysFree.updPath (h : StaysFree pl s t) (f : Path → Path) : StaysFree pl s (t.updPath p f) := h.updPort _
theorem StaysFree.send (h : StaysFree pl s t) (m : List PdTx) : StaysFree pl s (t.send p m) := h.updPort _
theorem StaysFree.countUp (h : StaysFree pl s t) (k : PCount) : StaysFree pl s (t.countUp p k) := h.updPort _
theorem StaysFree.pushEvent (h : StaysFree pl s t) (k i : Nat) (d : List Byte) : StaysFree pl s (t.pushEvent k i d) := h.congr rfl rfl
theorem StaysFree.raise (h : StaysFree pl s t) (b : Blk) (i : Nat) : StaysFree pl s (t.raise b i) := h.congr (by simp) (by simp)

theorem StaysFree.modeEnd (h : StaysFree pl s t) (n : Nat) : StaysFree pl s (t.modeEnd p n) := ((h.updDc _).pushEvent _ _ _).ite h
theorem StaysFree.discEnd (h : StaysFree pl s t) (n : Nat) : StaysFree pl s (t.discEnd p n) :=
  (((h.updDc _).pushEvent _ _ _).finishWait _ _ _).ite (h.updDc _)
theorem StaysFree.setDfp (h : StaysFree pl s t) (b : Bool) : StaysFree pl s (t.setDfp p b) := h.ite ((h.updSw _).pushEvent _ _ _)
theorem StaysFree.vconnOff (h : StaysFree pl s t) : StaysFree pl s (t.vconnOff p) := ((h.updSw _).updVc _).ite (h.updSw _)
theorem StaysFree.discharge (h : StaysFree pl s t) (b : Bool) : StaysFree pl s (t.discharge p b) := h.updCc _
theorem StaysFree.voidContract (h : StaysFree pl s t) (n : Nat) : StaysFree pl s (t.voidContract p n) :=
  StaysFree.ite (((h.updPd _).updPath _).pushEvent _ _ _) ((h.updPd _).updPath _)
theorem StaysFree.swapEnds (h : StaysFree pl s t) (n : Nat) (b : Bool) : StaysFree pl s (t.swapEnds p n b) := by
  unfold State.swapEnds
  split
  · exact h.updSw _
  · exact (((((h.updSw _).updCc _).countUp _).ite ((h.updSw _).updCc _)).pushEvent _ _ _).finishWait _ _ _

/-- A session that ends orphans the tunnel's commands, and claims no place. -/
theorem StaysFree.sessionEnd (h : StaysFree pl s t) (n : Nat) : StaysFree pl s (t.sessionEnd n) := by
  have hd : StaysFree pl s { t with tester := { delayUntil := t.tester.delayUntil }, tun := t.tun.dropReplies } := fun k => by
    have := h k
    cases pl <;> simp_all [State.cmdAt, State.chan, placeChan, placeZero, ChanState.cmd, ChanState.dropReplies, orphaned]
  unfold State.sessionEnd
  exact h.ite (hd.ite (hd.pushEvent _ _ _))

theorem StaysFree.sessionEndOn (h : StaysFree pl s t) (n : Nat) : StaysFree pl s (t.sessionEndOn p n) := (h.sessionEnd n).ite h

theorem StaysFree.failWaits (h : StaysFree pl s t) : StaysFree pl s (t.failWaits p) := by
  unfold State.failWaits
  have k := ((((h.finishWait (.cable p) stOk (leBytes 2 (cableStatus t p))).finishWait (.drSwap p) stFailed
    (leBytes 2 (swapStatus (t.finishWait (.cable p) stOk (leBytes 2 (cableStatus t p))) p))).finishWait (.modeEnter p) stFailed [2]).finishWait
      (.modeExit p) stOk []).finishWait (.authInit p) stOk (byteOf 3 :: List.replicate 35 0)
  exact StaysFree.ite (k.congr rfl rfl) k

theorem StaysFree.resetRoles (h : StaysFree pl s t) : StaysFree pl s (t.resetRoles p) := by
  unfold State.resetRoles State.swapFail
  dsimp only
  split
  · exact StaysFree.ite ((((h.swapEnds 3 true).updSw _).updCc _).setDfp _)
      ((((((h.swapEnds 3 true).updPath _).discharge false).updSw _).updCc _).updPd _ |>.setDfp _)
  · exact ((h.ite (h.updPd _)).setDfp _)

theorem StaysFree.attachOver (h : StaysFree pl s t) (n : Nat) (b : Bool) : StaysFree pl s (t.attachOver p n b) := by
  unfold State.attachOver State.swapFail
  exact (((((((((((h.swapEnds 2 true).ite (h.swapEnds 3 false)).modeEnd 1).discEnd 5).sessionEndOn 1).voidContract n).updPd _).updVc _).updDc
    _).updPort _)).failWaits

theorem StaysFree.errorRecovery (h : StaysFree pl s t) (n : Nat) : StaysFree pl s (t.errorRecovery p n) := by
  have k := (((h.attachOver (p := p) n true).updPath (p := p) Path.opened).vconnOff (p := p)).discharge (p := p) false
  exact (((((k.updCc _).updPort _).updPath _).ite ((k.updCc _).updPort _)).finishWait _ _ _)

theorem StaysFree.hardReset (h : StaysFree pl s t) (n : Nat) (b : Bool) : StaysFree pl s (t.hardReset p n b) := by
  unfold State.hardReset
  dsimp only
  have k := fun f g i j m => (((((((((((((h.countUp (p := p) (if b then .hrSent else .hrRcvd)).modeEnd (p := p) 2).discEnd (p := p) 5).sessionEndOn
    (p := p) 2).resetRoles (p := p)).voidContract (p := p) n).failWaits (p := p)).updPd (p := p) f).send (p := p) m).updVc (p := p) g).updDc
      (p := p) i).vconnOff (p := p)).updSw (p := p) j)
  exact (StaysFree.ite ((((k _ _ _ _ _).updPath _).updCc _).ite (k _ _ _ _ _) |>.raise (.portCc p) 6 |>.errorRecovery n)
    ((((k _ _ _ _ _).updPath _).updCc _).ite (k _ _ _ _ _)))

/-! ### What a Hard Reset sends -/

theorem State.voidContract_tx (n : Nat) (h : p < s.ports.length) : ((s.voidContract p n).port p).pd.tx = (s.port p).pd.tx := by
  unfold State.voidContract
  dsimp only
  split <;> simp [State.pd_updPd, h]

theorem State.errorRecovery_tx (n : Nat) (h : p < s.ports.length) : ((s.errorRecovery p n).port p).pd.tx = (s.port p).pd.tx := by
  have e : ((s.attachOver p n true).port p).pd.tx = (s.port p).pd.tx := by
    unfold State.attachOver
    dsimp only
    simp [State.pd_updPd, State.voidContract_tx, h]
  unfold State.errorRecovery State.openPort
  simp [State.port_updPort, h, e]

theorem State.hardReset_tx (n : Nat) (b : Bool) (h : p < s.ports.length) :
    ((s.hardReset p n b).pd p).tx = if b then [.hardReset] else [] := by
  unfold State.hardReset
  extract_lets _ run inSwap back _ _ d e f x src g i j k l m o
  have hx : OnlyPort p s x := ((((((((OnlyPort.refl p s).countUp _).modeEnd 2).discEnd 5).sessionEndOn 2).resetRoles)).voidContract _).failWaits
  have hlx : p < x.ports.length := by
    rw [hx.length_eq]
    exact h
  clear_value x
  have hm : (m.port p).pd.tx = (if b then [.hardReset] else []) ∧ p < m.ports.length := by
    simp [m, l, k, j, i, State.send, g, State.pd_updPd, hlx]
  have ho : (o.port p).pd.tx = (if b then [.hardReset] else []) ∧ p < o.ports.length := by
    simp only [o]
    split <;> simp [hm]
  split
  · exact (State.errorRecovery_tx n (by simpa using ho.2)).trans (by simp [ho.1])
  · exact ho.1

/-! ### The mode policy table (R311) -/

theorem setEntry_length {l e : List Byte} {i : Nat} (hl : 16 * i + 16 ≤ l.length) (he : e.length = 16) : (setEntry l i e).length = l.length := by
  unfold setEntry
  simp
  omega

theorem setEntry_getD {l e : List Byte} {i j : Nat} (hl : 16 * i + 16 ≤ l.length) (he : e.length = 16) :
    (setEntry l i e).getD j 0 = if 16 * i ≤ j ∧ j < 16 * i + 16 then e.getD (j - 16 * i) 0 else l.getD j 0 := by
  have ht : (l.take (16 * i)).length = 16 * i := by simp; omega
  unfold setEntry
  simp only [List.getD_eq_getElem?_getD]
  by_cases h1 : j < 16 * i
  · rw [if_neg (by omega), List.append_assoc, List.getElem?_append_left (by omega), List.getElem?_take_of_lt h1]
  · by_cases h2 : j < 16 * i + 16
    · rw [if_pos (by omega), List.getElem?_append_left (by simp; omega), List.getElem?_append_right (by omega), ht]
    · rw [if_neg (by omega), List.getElem?_append_right (by simp; omega), List.getElem?_drop]
      congr 2
      simp
      omega

/-- R9, R311: byte `i` of a mode policy table as a packet writes it. -/
def tableByte (c : Cmd) (i : Nat) : Byte :=
  if i % 16 = 5 then byteOf (c.p8 i % 2) else if i % 16 = 6 ∨ i % 16 = 7 then 0 else c.par.getD i 0

/-- R9, R311: entry `i` of a mode policy table as a packet writes it. -/
def tableEntryBytes (c : Cmd) (i : Nat) : List Byte :=
  ((c.par.drop (16 * i)).take 16).take 5 ++ [byteOf (rdB ((c.par.drop (16 * i)).take 16) 5 % 2), 0, 0] ++ ((c.par.drop (16 * i)).take 16).drop 8

theorem tableEntryBytes_length {i : Nat} (h : 16 * i + 16 ≤ c.par.length) : (tableEntryBytes c i).length = 16 := by
  unfold tableEntryBytes
  simp
  omega

theorem tableEntryBytes_getD {i k : Nat} (h : 16 * i + 16 ≤ c.par.length) (hk : k < 16) : (tableEntryBytes c i).getD k 0 = tableByte c (16 * i + k) := by
  have hb : ∀ k, k < 16 → ((c.par.drop (16 * i)).take 16).getD k 0 = c.par.getD (16 * i + k) 0 := fun k hk => by
    simp [List.getD_eq_getElem?_getD, List.getElem?_take_of_lt hk, List.getElem?_drop]
  have hlen : ((c.par.drop (16 * i)).take 16).length = 16 := by simp; omega
  unfold tableEntryBytes tableByte
  rw [show (16 * i + k) % 16 = k by omega]
  generalize hB : (c.par.drop (16 * i)).take 16 = b at *
  have ht : (b.take 5).length = 5 := by simp [hlen]
  rw [List.append_assoc]
  by_cases h5 : k < 5
  · rw [if_neg (by omega), if_neg (by omega), ← hb k hk]
    rw [List.getD_eq_getElem?_getD, List.getElem?_append_left (by omega), List.getElem?_take_of_lt h5, List.getD_eq_getElem?_getD]
  · by_cases h8 : k < 8
    · have hc : c.p8 (16 * i + 5) = rdB b 5 := by
        unfold Cmd.p8 rdB
        rw [hb 5 (by omega)]
      rw [List.getD_eq_getElem?_getD, List.getElem?_append_right (by omega), ht, List.getElem?_append_left (by simp; omega)]
      obtain rfl | rfl | rfl : k = 5 ∨ k = 6 ∨ k = 7 := by omega
      · simp [hc]
      · simp
      · simp
    · rw [if_neg (by omega), if_neg (by omega), ← hb k hk, List.getD_eq_getElem?_getD, List.getElem?_append_right (by omega), ht,
        List.getElem?_append_right (by simp; omega), List.getElem?_drop, List.getD_eq_getElem?_getD]
      congr 2
      simp
      omega

/-- R293, R311: the table after the first `n` entries of a packet none of which is superseded. -/
theorem overN_writeEntry (h128 : s.svc.modeTable.length = 128) (hp : c.par.length = 128) (ho : ∀ i, i < 8 → s.older c (0xE6C0 + i) = false)
    (n : Nat) (hn : n ≤ 8) :
    overN n (writeEntry c) s =
        { s with
          svc := { s.svc with modeTable := (overN n (writeEntry c) s).svc.modeTable }, itemSeq := (overN n (writeEntry c) s).itemSeq } ∧
      (overN n (writeEntry c) s).svc.modeTable.length = 128 ∧
      (∀ i, (overN n (writeEntry c) s).svc.modeTable.getD i 0 = if i < 16 * n then tableByte c i else s.svc.modeTable.getD i 0) ∧
      ∀ i, n ≤ i → i < 8 → (overN n (writeEntry c) s).older c (0xE6C0 + i) = false := by
  induction n with
  | zero => exact ⟨rfl, h128, fun i => (if_neg (by omega)).symm, fun i _ hi => ho i hi⟩
  | succ n ih =>
    obtain ⟨h1, h2, h3, h4⟩ := ih (by omega)
    have hw : overN (n + 1) (writeEntry c) s = _ := (overN_succ n (writeEntry c) s).trans (if_neg (by simp [h4 n le_rfl (by omega)]))
    generalize overN n (writeEntry c) s = t at h1 h2 h3 h4 hw
    rw [hw]
    have he := tableEntryBytes_length (c := c) (i := n) (by omega)
    refine ⟨by rw [h1], (setEntry_length (by omega) he).trans h2, fun i => (setEntry_getD (by omega) he).trans ?_, fun i hi hi8 => ?_⟩
    · by_cases hin : 16 * n ≤ i ∧ i < 16 * n + 16
      · rw [if_pos hin, if_pos (by omega), tableEntryBytes_getD (by omega) (by omega), Nat.add_sub_cancel' hin.1]
      · rw [if_neg hin, h3]
        by_cases hi : i < 16 * n
        · rw [if_pos hi, if_pos (by omega)]
        · rw [if_neg hi, if_neg (by omega)]
    · have := h4 i (by omega) hi8
      unfold State.older at this ⊢
      dsimp only
      rw [mapGet_mapSet_other (by omega)]
      exact this

/-- An answer stands in the channels. -/
theorem Answered.congr {code : Nat} {d : List Byte} (h : Answered pl c code d s) (h1 : t.host = s.host) (h2 : t.tun = s.tun) :
    Answered pl c code d t := by
  have hc : ∀ x, t.chan x = s.chan x := fun x => by cases x <;> simp [State.chan, h1, h2]
  unfold Answered State.cmdAt at h ⊢
  rw [hc]
  exact h

/-! ### Opcodes that begin a sequence of their port -/

/-- An opcode that begins a sequence and waits for its end. -/
theorem goes_startedHold {cmd : Instr} {op : Nat} {act : Cmd → Bool} {go : Cmd → State} {f : State → State} {w : WaitFor} {q : State → Prop}
    (hx : exec cmd s = .next (s.runOp pl op act go)) (ht : Turn pl op c s) (ha : act c = true) (hm : s.mayStart p = true)
    (hg : go c = s.startSeq p fun s => (f s).hold pl w) (ho : PortAlone p s (f s)) (hl : p < s.ports.length)
    (hq : ∀ t, OnlyPort p s t → t.dc p = (f s).dc p → t.sw p = (f s).sw p → (t.pd p).tx = ((f s).pd p).tx →
      t.cmdAt pl = some { c with wait := some w } → q t) : Goes cmd s q := by
  have hc : (f s).cmdAt pl = some c := (State.cmdAt_congr (by rw [ho.1]) (by rw [ho.1]) pl).trans ht.1
  obtain ⟨h1, h2, h3, h4, h5⟩ := startedHold_spec (w := w) ho.only (by rw [ho.only.length_eq]; exact hl) hc
  refine ⟨startedHold (f s) p pl w, ?_, hq _ h1 h2 h3 h4 h5⟩
  rw [hx, State.runOp_turn go ht ha, hg, State.startSeq_of_mayStart hm]
  rfl

theorem portDrSwap_begins (ht : Turn pl 0x31 c s) (hl : c.p8 0 < s.ports.length) (hm : s.mayStart (c.p8 0) = true) (hat : attachedPd s (c.p8 0) = true)
    (hex : (s.pd (c.p8 0)).contract.explicit = true) (hsup : (s.sw (c.p8 0)).drSupp = none) (hent : (s.dc (c.p8 0)).entered = false) :
    Goes (.portDrSwap pl) s fun t =>
      OnlyPort (c.p8 0) s t ∧ (t.sw (c.p8 0)).kind = some .dr ∧ (t.sw (c.p8 0)).mine = true ∧ (t.pd (c.p8 0)).tx = [.drSwap] ∧
        t.cmdAt pl = some { c with wait := some (.drSwap (c.p8 0)) } := by
  obtain ⟨hq, -⟩ := Bool.and_eq_true_iff.1 hm
  obtain ⟨hnext, hkind, -⟩ := quiet_iff.1 hq
  refine goes_startedHold rfl ht rfl hm ((if_neg ?_).trans (if_neg (by simp [hent])))
    (f := fun s => drSwapStart s (c.p8 0)) (((((PortAlone.refl _ s).updSw _).updPd _).updSw _).send _) hl fun t h1 h2 h3 h4 h5 => ?_
  · simp [ht.2.2.2, hex, swapClash, hnext, hkind, suppressed, hsup, hat]
  · refine ⟨h1, (congrArg Swap.kind h3).trans ?_, (congrArg Swap.mine h3).trans ?_, h4.trans ?_, h5⟩
    · simp [drSwapStart, beginSwap, State.sw, State.send, State.sw_updSw, hl]
    · simp [drSwapStart, beginSwap, State.sw, State.send, State.sw_updSw, hl]
    · exact State.send_tx _ (by simpa [beginSwap] using hl)

theorem modeEnter_begins {r : SvidRec} (ht : Turn pl 0x32 c s) (hl : c.p8 0 < s.ports.length) (hm : s.mayStart (c.p8 0) = true)
    (hat : attachedPd s (c.p8 0) = true) (hd : (s.sw (c.p8 0)).dfp = true) (hno : (s.dc (c.p8 0)).attempt = none)
    (hent : (s.dc (c.p8 0)).entered = false) (hst : (s.dc (c.p8 0)).status = 2 ∨ (s.dc (c.p8 0)).status = 6)
    (hr : (s.dc (c.p8 0)).svids.find? (fun r => r.svid == c.p16 1) = some r) (hpos : c.p8 3 ≤ r.modes.length) :
    Goes (.modeEnter pl) s fun t =>
      OnlyPort (c.p8 0) s t ∧ (t.pd (c.p8 0)).tx = [vdmAsk (s.pd (c.p8 0)) (c.p16 1) 4 (c.p8 3) []] ∧ (t.dc (c.p8 0)).entered = false ∧
        (t.dc (c.p8 0)).attempt = some { svid := c.p16 1, pos := c.p8 3, entry := 8, sent := true, frame := s.frame } ∧
        t.cmdAt pl = some { c with wait := some (.modeEnter (c.p8 0)) } := by
  refine goes_startedHold rfl ht rfl hm ((if_neg ?_).trans (if_neg (by simp [hno])))
    (f := fun s => sendEnter s (c.p8 0) { svid := c.p16 1, pos := c.p8 3, entry := 8 }) (((PortAlone.refl _ s).updDc _).send _) hl
    fun t h1 h2 h3 h4 h5 => ?_
  · simpa [hd, hr, hpos, hent, hat] using hst.resolve_left
  · refine ⟨h1, h4.trans ?_, (congrArg Disc.entered h2).trans ?_, (congrArg Disc.attempt h2).trans ?_, h5⟩
    · exact State.send_tx _ (by simpa using hl)
    · simpa [sendEnter, State.dc, State.send, State.dc_updDc, hl] using hent
    · simp [sendEnter, State.dc, State.send, State.dc_updDc, hl]

theorem modeExit_begins (ht : Turn pl 0x33 c s) (hl : c.p8 0 < s.ports.length) (hm : s.mayStart (c.p8 0) = true)
    (hent : (s.dc (c.p8 0)).entered = true) :
    Goes (.modeExit pl) s fun t =>
      OnlyPort (c.p8 0) s t ∧ (t.pd (c.p8 0)).tx = [vdmAsk (s.pd (c.p8 0)) (s.dc (c.p8 0)).modeSvid 5 (s.dc (c.p8 0)).modePos []] ∧
        (t.dc (c.p8 0)).exitFrame = some s.frame ∧ t.cmdAt pl = some { c with wait := some (.modeExit (c.p8 0)) } := by
  refine goes_startedHold rfl ht rfl hm (if_neg (by simp [hent]))
    (f := fun s => (s.updDc (c.p8 0) fun d => { d with exitFrame := some s.frame }).send (c.p8 0)
      [vdmAsk (s.pd (c.p8 0)) (s.dc (c.p8 0)).modeSvid 5 (s.dc (c.p8 0)).modePos []]) (((PortAlone.refl _ s).updDc _).send _) hl
    fun t h1 h2 h3 h4 h5 => ⟨h1, h4.trans (State.send_tx _ (by simpa using hl)), (congrArg Disc.exitFrame h2).trans ?_, h5⟩
  simp [State.dc, State.send, State.dc_updDc, hl]

/-- R309: what `VDM_SEND` puts on the line. -/
def vdmSent (s : State) (c : Cmd) : State :=
  s.send (c.p8 0) [vdmAsk (s.pd (c.p8 0)) (s.dc (c.p8 0)).modeSvid (c.p8 1) (s.dc (c.p8 0)).modePos (vdosAt c 4 (c.p8 2))]

theorem vdmSend_heard (ht : Turn pl 0x34 c s) (hl : c.p8 0 < s.ports.length) (hm : s.mayStart (c.p8 0) = true)
    (hent : (s.dc (c.p8 0)).entered = true) (hfr : (s.dc (c.p8 0)).vdmFrame = none) :
    Goes (.vdmSend ⟨pl, true⟩) s fun t =>
      OnlyPort (c.p8 0) s t ∧ Answered pl c stOk [] t ∧ (t.dc (c.p8 0)).vdmFrame = some s.frame ∧
        (t.pd (c.p8 0)).tx = [vdmAsk (s.pd (c.p8 0)) (s.dc (c.p8 0)).modeSvid (c.p8 1) (s.dc (c.p8 0)).modePos (vdosAt c 4 (c.p8 2))] := by
  refine ⟨(((vdmSent s c).updDc (c.p8 0) fun d => { d with vdmFrame := some s.frame, vdmCmd := c.p8 1 }).finish pl stOk []).updPd (c.p8 0)
    fun d => { d with clear := false, collision := none }, ?_, ((((OnlyPort.refl _ s).send _).updDc _).finish _ _ _).updPd _, ?_, ?_, ?_⟩
  · refine congrArg Host.Outcome.next ((State.runOp_turn _ ht rfl).trans ((if_neg (by simp [hent])).trans
      ((if_neg (by simp [hfr])).trans (State.startSeq_of_mayStart hm))))
  · exact Answered.congr (State.finish_spec (s := (vdmSent s c).updDc (c.p8 0) _) ((State.cmdAt_congr rfl rfl pl).trans ht.1) stOk []).2 rfl rfl
  · simp [State.dc, State.dc_updDc, hl, vdmSent, State.send]
  · simp [State.pd, State.pd_updPd, hl, vdmSent, State.send]

theorem vdmSend_unheard (ht : Turn pl 0x34 c s) (hl : c.p8 0 < s.ports.length) (hm : s.mayStart (c.p8 0) = true)
    (hent : (s.dc (c.p8 0)).entered = true) (hfr : (s.dc (c.p8 0)).vdmFrame = none) :
    Goes (.vdmSend ⟨pl, false⟩) s fun t =>
      OnlyPort (c.p8 0) s t ∧ t.cmdAt pl = none ∧ (t.dc (c.p8 0)).entered = false ∧ (t.pd (c.p8 0)).lastEnd = 4 ∧
        (t.pd (c.p8 0)).tx = [.hardReset] := by
  have hlu : c.p8 0 < ((vdmSent s c).finish pl stFailed []).ports.length := by simpa [vdmSent] using hl
  obtain ⟨h1, -, -, -, h5, -, h7, -⟩ := State.hardReset_spec 4 true hlu
  have h8 := State.hardReset_tx 4 true hlu
  have hlt := hlu
  rw [← h1.length_eq] at hlt
  refine ⟨(((vdmSent s c).finish pl stFailed []).hardReset (c.p8 0) 4 true).updPd (c.p8 0) fun d => { d with clear := false, collision := none },
    ?_, (((((OnlyPort.refl _ s).send _).finish _ _ _).trans h1).updPd _), ?_, ?_, ?_, ?_⟩
  · refine congrArg Host.Outcome.next ((State.runOp_turn _ ht rfl).trans ((if_neg (by simp [hent])).trans
      ((if_neg (by simp [hfr])).trans (State.startSeq_of_mayStart hm))))
  · exact (State.cmdAt_congr rfl rfl pl).trans ((StaysFree.refl _ _).hardReset 4 true (State.finish_cmdAt_same _ _))
  · simpa [State.dc] using h7
  · simpa [State.pd, State.pd_updPd, hlt] using h5
  · simpa [State.pd, State.pd_updPd, hlt] using h8

/-- R311: the table as a packet leaves it. -/
theorem modeTableWrite_goes (ht : Turn pl 0x36 c s) (hlen : c.plen = 128) (h128 : s.svc.modeTable.length = 128) (hpar : c.par.length = 128)
    (hs : s.Shaped) (ho : ∀ i, i < 8 → s.older c (0xE6C0 + i) = false) :
    Goes (.modeTableWrite pl) s fun t =>
      Answered pl c stOk [] t ∧ (t.cairn 16).dirty = true ∧ t.ports = s.ports ∧ ∀ i, i < 128 → t.svc.modeTable.getD i 0 = tableByte c i := by
  obtain ⟨-, -, -, -, hcl, -⟩ := hs
  obtain ⟨h1, -, h3, -⟩ := overN_writeEntry h128 hpar ho 8 le_rfl
  have hskip : ((List.range 8).filter fun i => s.older c (0xE6C0 + i)) = [] := by
    rw [List.filter_eq_nil_iff]
    intro i hi
    simp [ho i (List.mem_range.1 hi)]
  refine goes_finish rfl ht (by simp [hlen]) (u := (overN 8 (writeEntry c) s).markDirty 16) (code := stOk) (d := []) ?_ ?_
    fun hans => ⟨hans, ?_, ?_, fun i hi => ?_⟩
  · dsimp only
    rw [hskip]
    rfl
  · generalize overN 8 (writeEntry c) s = w at h1 ⊢
    exact (State.cmdAt_congr (congrArg State.host h1) (congrArg State.tun h1) pl).trans ht.1
  · generalize overN 8 (writeEntry c) s = w at h1 ⊢
    unfold State.cairn
    rw [State.finish_ret]
    have hc : 16 < w.ret.cairns.length := by
      rw [h1]
      change 16 < s.ret.cairns.length
      omega
    exact State.markDirty_dirty hc
  · generalize overN 8 (writeEntry c) s = w at h1 ⊢
    rw [State.finish_ports]
    change w.ports = _
    rw [h1]
  · generalize overN 8 (writeEntry c) s = w at h3 ⊢
    rw [State.finish_svc]
    exact (h3 i).trans (if_pos (by omega))

/-- Settles O17: each opcode is refused, or begins its sequence; the table takes its entries. -/
theorem modeOpcodes : Obligations.ModeOpcodes := by
  refine ⟨fun pl s c hs hp hm hat => ?_, fun pl s c ht hlen h128 hpar hs ho => modeTableWrite_goes ht hlen h128 hpar hs ho⟩
  obtain ⟨h24, -⟩ := hs
  have hl : c.p8 0 < s.ports.length := by omega
  refine ⟨fun ht => ⟨fun hex => ?_, portDrSwap_begins ht hl hm hat⟩,
    fun ht hd hno => ⟨fun hent => ?_, fun r hent hst hr hpos => modeEnter_begins ht hl hm hat hd hno hent hst hr hpos⟩,
    fun ht => ⟨fun hent => ?_, modeExit_begins ht hl hm⟩,
    fun ht => ⟨fun g hent => ?_, fun hent hfr => ⟨vdmSend_unheard ht hl hm hent hfr, vdmSend_heard ht hl hm hent hfr⟩⟩⟩
  · exact ends_of_runOp rfl ht rfl (if_pos (by simp [hex]))
  · exact ends_of_runOp rfl ht rfl (if_pos (by simp [hent]))
  · exact ends_of_runOp rfl ht rfl (if_pos (by simp [hent]))
  · exact ends_of_runOp rfl ht rfl (if_pos (by simp [hent]))

end Sys2Proof.Machine
end

section
/-! PROOF. Cairns. -/
namespace Sys2Proof.Machine
variable {s t : State} {pl : Place} {c : Cmd}

/-- A sweep over the cairns that updates each of them by its own number. -/
theorem overN_updCairn (g : Nat → Cairn → Cairn) (n : Nat) (s : State) (hn : n ≤ s.ret.cairns.length) :
    overN n (fun i t => t.updCairn i (g i)) s =
        { s with ret := { s.ret with cairns := (overN n (fun i t => t.updCairn i (g i)) s).ret.cairns } } ∧
      (overN n (fun i t => t.updCairn i (g i)) s).ret.cairns.length = s.ret.cairns.length ∧
      ∀ m, (overN n (fun i t => t.updCairn i (g i)) s).cairn m = if m < n then g m (s.cairn m) else s.cairn m := by
  induction n with
  | zero => exact ⟨rfl, rfl, fun m => (if_neg (by omega)).symm⟩
  | succ n ih =>
    obtain ⟨h1, h2, h3⟩ := ih (by omega)
    have hs : overN (n + 1) (fun i t => t.updCairn i (g i)) s = _ := overN_succ n _ s
    generalize overN n (fun i t => t.updCairn i (g i)) s = t at h1 h2 h3 hs
    rw [hs]
    refine ⟨?_, by simpa [State.updCairn] using h2, fun m => ?_⟩
    · rw [h1]
      rfl
    · by_cases hm : m = n
      · subst hm
        rw [State.cairn_updCairn _ _ (by omega), h3, if_neg (by omega), if_pos (by omega)]
      · rw [State.cairn_updCairn_ne _ hm, h3]
        by_cases hlt : m < n
        · rw [if_pos hlt, if_pos (by omega)]
        · rw [if_neg hlt, if_neg (by omega)]

/-- R427: what a drop makes of cairn `n`. -/
def dropCairn (m n : Nat) (x : Cairn) : Cairn := if m.testBit n then { x with state := 4, dirty := false } else x

theorem cairnDrop_step (m n : Nat) (s : State) :
    (if m.testBit n then s.updCairn n fun x => { x with state := 4, dirty := false } else s) = s.updCairn n (dropCairn m n) := by
  unfold dropCairn
  split
  · rfl
  · have h : s.ret.cairns.modify n (fun x => x) = s.ret.cairns := List.modify_id _ _
    simp only [State.updCairn, h]

/-- R426: the write of a cairn that ends. -/
theorem State.cairnClose_spec {n : Nat} (h : n < s.ret.cairns.length) :
    (s.cairnClose n).ret.writing = none ∧ (s.cairnClose n).ports = s.ports ∧ (∀ m, m ≠ n → (s.cairnClose n).cairn m = s.cairn m) ∧
      ((s.cairnClose n).cairn n).state = 1 ∧ ((s.cairnClose n).cairn n).record = (s.cairn n).buf ∧
      ((s.cairnClose n).cairn n).crc = crc32 (s.cairn n).buf ∧ ((s.cairnClose n).cairn n).written = s.frameCount ∧
      ((s.cairnClose n).cairn n).writes = (s.cairn n).writes + 1 := by
  have hc : (s.cairnClose n).cairn n = _ := State.cairn_updCairn (s := { s with ret := { s.ret with writing := none } }) n _ h
  rw [hc]
  exact ⟨rfl, rfl, fun m hm => State.cairn_updCairn_ne _ hm, rfl, rfl, rfl, rfl, rfl⟩

/-- R426: the write of a cairn that begins. -/
theorem State.cairnBegin_spec {n : Nat} (h : n < s.ret.cairns.length) :
    (s.cairnBegin n).ret.writing = some n ∧ ((s.cairnBegin n).cairn n).state = 3 ∧ ((s.cairnBegin n).cairn n).dirty = false ∧
      ((s.cairnBegin n).cairn n).buf = cairnRecord s n ∧ (∀ m, m ≠ n → (s.cairnBegin n).cairn m = s.cairn m) ∧
      (s.cairnBegin n).ports = s.ports ∧ (s.cairnBegin n).params = s.params := by
  have hc : (s.cairnBegin n).cairn n = _ := State.cairn_updCairn (s := { s with ret := { s.ret with writing := some n } }) n _ h
  rw [hc]
  exact ⟨rfl, rfl, rfl, rfl, fun m hm => State.cairn_updCairn_ne _ hm, rfl, rfl⟩

/-- Settles O22: the sweeps over the cairns (`overN_updCairn`), and one cairn's write. -/
theorem cairns : Obligations.Cairns := by
  refine ⟨?sync, ?drop, ?begins, ?ends⟩
  case sync =>
    intro pl s c hs ht
    obtain ⟨-, -, -, -, hcl, -⟩ := hs
    obtain ⟨h1, -, h3⟩ := overN_updCairn (fun _ x => { x with dirty := true }) 25 s (by omega)
    refine ⟨(overN 25 (fun n t => t.markDirty n) s).hold pl .cairnSync, congrArg Host.Outcome.next (State.runOp_turn _ ht rfl), ?_⟩
    rw [show overN 25 (fun n t => t.markDirty n) s = overN 25 (fun n t => t.updCairn n fun x => { x with dirty := true }) s from rfl]
    generalize overN 25 (fun n t => t.updCairn n fun x => { x with dirty := true }) s = u at h1 h3 ⊢
    have hu : u.cmdAt pl = some c := (State.cmdAt_congr (by rw [h1]) (by rw [h1]) pl).trans ht.1
    refine ⟨fun n hn => ?_, (State.hold_spec hu .cairnSync).2.1, ?_, ?_⟩
    · unfold State.cairn
      rw [State.hold_ret]
      exact (h3 n).trans (if_pos hn)
    · rw [State.hold_ports, h1]
    · rw [State.hold_ret, h1]
  case drop =>
    intro pl s c hs ht
    obtain ⟨-, -, -, -, hcl, -⟩ := hs
    obtain ⟨h1, -, h3⟩ := overN_updCairn (dropCairn (rdLe c.par 0 8)) 25 s (by omega)
    refine ⟨fun hw => ends_of_runOp rfl ht rfl (if_pos hw), fun hw => ?_⟩
    refine goes_finish rfl ht rfl (u := overN 25 (fun n t => t.updCairn n (dropCairn (rdLe c.par 0 8) n)) s) (code := stOk) (d := []) ?_ ?_
      fun hans => ⟨hans, ?_, fun n hn => ?_⟩
    · refine (if_neg (by simp [hw])).trans ?_
      simp only [cairnDrop_step]
      rfl
    · generalize overN 25 (fun n t => t.updCairn n (dropCairn (rdLe c.par 0 8) n)) s = u at h1 ⊢
      exact (State.cmdAt_congr (by rw [h1]) (by rw [h1]) pl).trans ht.1
    · generalize overN 25 (fun n t => t.updCairn n (dropCairn (rdLe c.par 0 8) n)) s = u at h1 ⊢
      rw [State.finish_ports, h1]
    · unfold State.cairn at h3 ⊢
      rw [State.finish_ret, h3, if_pos hn]
      rfl
  case begins =>
    intro s n hs hw hf
    obtain ⟨-, -, -, -, hcl, -⟩ := hs
    have hn : n < 25 := List.mem_range.1 (List.mem_of_find?_eq_some hf)
    refine ⟨s.cairnBegin n, congrArg Host.Outcome.next ?_, State.cairnBegin_spec (by omega)⟩
    unfold cairnWriteBegin
    rw [if_pos hw, hf]
  case ends =>
    intro s n hs hn hw hl
    obtain ⟨-, -, -, -, hcl, -⟩ := hs
    have hclose := State.cairnClose_spec (s := s) (n := n) (by omega)
    have hgo : cairnWriteComplete s =
        if (s.cairnClose n).firstDirty.isNone then (s.cairnClose n).finishWait .cairnSync stOk [] else s.cairnClose n := by
      unfold cairnWriteComplete
      simp only [hw, if_pos hl]
    refine ⟨_, congrArg Host.Outcome.next hgo, ?_⟩
    split
    · unfold State.cairn at hclose ⊢
      rw [State.finishWait_ret, State.finishWait_ports]
      obtain ⟨h1, h2, h3, h4, h5, h6, h7, h8⟩ := hclose
      exact ⟨h1, h4, h5, h6, h7, h8, h3, h2⟩
    · obtain ⟨h1, h2, h3, h4, h5, h6, h7, h8⟩ := hclose
      exact ⟨h1, h4, h5, h6, h7, h8, h3, h2⟩

end Sys2Proof.Machine
end

section
/-! PROOF. Authentication. -/
namespace Sys2Proof.Machine
variable {s t : State} {pl : Place} {c : Cmd} {p : Nat}

/-! ### The chain (R331) -/

theorem putBytes_nil (d : List Byte) : putBytes [] 0 d = d := by simp [putBytes, fitTo]

theorem State.finish_markDirty_svc (n : Nat) (code : Nat) (d : List Byte) : ((s.markDirty n).finish pl code d).svc = s.svc := by
  rw [State.finish_svc]
  rfl

/-- R331: the bytes of a first piece that the part holds. -/
theorem firstPiece_length (n : Nat) : ([] ++ ((List.range n).map (0 + ·)).filter fun i => !([] : List Nat).contains i).length = n := by simp

/-! ### A run towards the partner (R331) -/

theorem State.seqOver_contract : ((s.seqOver p).pd p).contract = (s.pd p).contract := by
  unfold State.seqOver
  split <;> simp [State.pd]

/-- R331: what the verdict of a run leaves. -/
theorem authVerdict_spec (v : Nat) :
    (authVerdict s p v).svc = { s.svc with initPort := none, initStep := 0 } ∧ ((authVerdict s p v).pd p).contract = (s.pd p).contract ∧
      (authVerdict s p v).port p = (({ s with svc := { s.svc with initPort := none, initStep := 0 } } : State).seqOver p).port p ∧
      ∀ q, q ≠ p → (authVerdict s p v).port q = s.port q := by
  have ho := (OnlyPort.refl p ({ s with svc := { s.svc with initPort := none, initStep := 0 } } : State)).seqOver
  unfold authVerdict
  dsimp only
  rw [State.finishWait_svc, State.finishWait_port]
  refine ⟨?_, ?_, rfl, fun q hq => (State.finishWait_port _ _ _ _ _).trans (ho.2.2 q hq)⟩
  · unfold State.seqOver
    split <;> rfl
  · exact (congrArg (fun q : Port => q.pd.contract) (State.finishWait_port _ _ _ _ _)).trans State.seqOver_contract

theorem initStepTo_spec (n : Nat) (h : p < s.ports.length) :
    (initStepTo s p n).svc = { s.svc with initStep := n } ∧ ((initStepTo s p n).pd p).tx = [.secRequest n] ∧
      ((initStepTo s p n).port p).peerChain = (s.port p).peerChain ∧ ∀ q, q ≠ p → (initStepTo s p n).port q = s.port q := by
  have hp : (initStepTo s p n).port p = _ := State.port_updPort (s := { s with svc := { s.svc with initStep := n } }) p _ h
  refine ⟨rfl, State.send_tx _ h, ?_, fun q hq => State.port_updPort_ne _ _ _ _ hq⟩
  rw [hp]
  rfl

/-- R331: the run that `AUTH_INITIATE` begins. -/
def authBegun (s : State) (p : Nat) : State :=
  let u := (s.updPort p fun q => { q with peerChain := [], peerDigest := [] }).freeNext
  initStepTo { u with svc := { u.svc with initPort := some p, initNonce := octetsOf (u.freeN - 1) 32 } } p 0

theorem authBegun_spec (h : p < s.ports.length) :
    (authBegun s p).svc = { s.svc with initPort := some p, initNonce := octetsOf s.freeN 32, initStep := 0 } ∧
      ((authBegun s p).pd p).tx = [.secRequest 0] ∧ ((authBegun s p).port p).peerChain = [] ∧ (∀ q, q ≠ p → (authBegun s p).port q = s.port q) ∧
      (authBegun s p).ports.length = s.ports.length := by
  have hl : p < (s.updPort p fun q => { q with peerChain := [], peerDigest := [] }).ports.length := by simpa using h
  obtain ⟨-, h2, h3, h4⟩ := initStepTo_spec (p := p)
    (s := { (s.updPort p fun q => { q with peerChain := [], peerDigest := [] }).freeNext with
      svc := { s.svc with initPort := some p, initNonce := octetsOf s.freeN 32 } }) 0 hl
  refine ⟨rfl, h2, h3.trans ?_, fun q hq => (h4 q hq).trans (State.port_updPort_ne _ _ _ _ hq), by simp [authBegun, initStepTo, State.freeNext, State.send]⟩
  exact congrArg Port.peerChain (State.port_updPort (s := s) p _ h)

theorem startedHold_svc (u : State) (w : WaitFor) : (startedHold u p pl w).svc = u.svc := State.hold_svc _ _ _

theorem startedHold_peerChain {u : State} {w : WaitFor} (h : p < u.ports.length) :
    ((startedHold u p pl w).port p).peerChain = (u.port p).peerChain := by
  simp [startedHold, State.updPd, State.port_updPort, h]

theorem authInitiate_begins (ht : Turn pl 0xB3 c s) (hl : c.p8 0 < s.ports.length) (hat : attachedPd s (c.p8 0) = true)
    (hex : (s.pd (c.p8 0)).contract.explicit = true) (hrev : (s.pd (c.p8 0)).rev20 = false) (hno : s.svc.initPort = none)
    (hm : s.mayStart (c.p8 0) = true) :
    Goes (.authInitiate pl) s fun t =>
      t.svc.initPort = some (c.p8 0) ∧ t.svc.initStep = 0 ∧ (t.pd (c.p8 0)).tx = [.secRequest 0] ∧ (t.port (c.p8 0)).peerChain = [] ∧
        t.cmdAt pl = some { c with wait := some (.authInit (c.p8 0)) } ∧ ∀ q, q ≠ c.p8 0 → t.port q = s.port q := by
  obtain ⟨h1, h2, h3, h4, h5⟩ := authBegun_spec hl
  have hc : (authBegun s (c.p8 0)).cmdAt pl = some c := (State.cmdAt_congr rfl rfl pl).trans ht.1
  obtain ⟨k1, -, -, k4, k5⟩ := startedHold_spec (w := .authInit (c.p8 0)) (OnlyPort.refl _ (authBegun s (c.p8 0))) (by rw [h5]; exact hl) hc
  refine ⟨startedHold (authBegun s (c.p8 0)) (c.p8 0) pl (.authInit (c.p8 0)), ?_, ?_, ?_, k4.trans h2, ?_, k5, fun q hq => ?_⟩
  · exact congrArg Host.Outcome.next ((State.runOp_turn _ ht rfl).trans ((if_neg (by simp [hat, hex, hrev])).trans
      ((if_neg (by simp [hno])).trans (State.startSeq_of_mayStart hm))))
  · rw [startedHold_svc, h1]
  · rw [startedHold_svc, h1]
  · rw [startedHold_peerChain (by rw [h5]; exact hl), h3]
  · rw [k1.2.2 q hq, h4 q hq]

/-- Settles O20: the chain that is installed, the run towards the partner (`authVerdict_spec`, `initStepTo_spec`), and the answers of the part. -/
theorem authentication : Obligations.Authentication := by
  refine ⟨?whole, ?piece, ?initiate, ?talk⟩
  case whole =>
    intro pl s c ht hoff htot
    cases hok : chainOk s (c.par.drop 4) with
    | true =>
      refine goes_finish rfl ht rfl
        (u := ({ s with svc := { s.svc with chainNew := [], chainTotal := 0, chainHave := [], chain := c.par.drop 4 } } : State).markDirty 17)
        (code := stOk) (d := []) ?_ ((State.cmdAt_congr rfl rfl pl).trans ht.1) fun hans => ?_
      · simp only [hoff, if_true, firstPiece_length, putBytes_nil, htot, if_neg (Nat.lt_irrefl _)]
        rw [List.take_of_length_le htot.le, if_pos hok]
      · rw [State.finish_svc, State.finish_ports, State.finish_otp]
        exact ⟨rfl, rfl, rfl, fun _ => ⟨hans, rfl⟩, nofun⟩
    | false =>
      refine goes_finish rfl ht rfl (u := { s with svc := { s.svc with chainNew := [], chainTotal := 0, chainHave := [] } })
        (code := stFailed) (d := [1]) ?_ ((State.cmdAt_congr rfl rfl pl).trans ht.1) fun hans => ?_
      · simp only [hoff, if_true, firstPiece_length, putBytes_nil, htot, if_neg (Nat.lt_irrefl _)]
        rw [List.take_of_length_le htot.le, if_neg (by simp [hok])]
      · rw [State.finish_svc, State.finish_ports, State.finish_otp]
        exact ⟨rfl, rfl, rfl, nofun, fun _ => ⟨hans, rfl⟩⟩
  case piece =>
    intro pl s c ht htot hoff
    refine goes_finish rfl ht rfl (u := { s with svc := { s.svc with
      chainNew := c.par.drop 4, chainTotal := c.p16 2, chainHave := [] ++ ((List.range (c.par.drop 4).length).map (0 + ·)).filter
        fun i => !([] : List Nat).contains i } }) (code := stOk) (d := []) ?_ ((State.cmdAt_congr rfl rfl pl).trans ht.1) fun hans => ?_
    · simp only [hoff, if_true, firstPiece_length, putBytes_nil, if_pos htot]
    · rw [State.finish_svc, State.finish_ports]
      exact ⟨hans, rfl, rfl, rfl, rfl⟩
  case initiate =>
    intro pl s c hs ht hp hat hex hrev hno hm
    obtain ⟨h24, -⟩ := hs
    exact authInitiate_begins ht (by omega) hat hex hrev hno hm
  case talk =>
    intro s p hs hp hat
    have hl := hs.port_lt (attachedPd_serves hat)
    have hrun : ∀ {i : Instr} (go : State → State), s.restRow p i go = go s := fun go => State.restRow_of_runs (attachedPd_runs hat)
    refine ⟨fun q hrev => ?_, fun q hrev hch hq => ?_, fun hrev hch hid hq => ?_, fun chain hi hst => ?_, fun r hi hr => ?_⟩
    · refine .intro rfl (u := s.send p [.notSupported]) ?_ ⟨(PortAlone.refl p s).send _, State.send_tx _ hl⟩
      rw [hrun]
      simp [securityRequest, hat, hrev]
    · refine .intro rfl (u := (s.sinkSpoke p).send p [.secError]) ?_ ⟨((PortAlone.refl p s).sinkSpoke).send _, State.send_tx _ (by simpa using hl)⟩
      rw [hrun, ← answer_of_quiet [.secError] hl hq]
      simp [securityRequest, hat, hrev, hch]
    · refine .intro rfl (u := ((s.sinkSpoke p).send p [.secDigests (sha256 s.svc.chain)]).freeNext) ?_ ⟨State.send_tx _ (by simpa using hl), rfl⟩
      rw [hrun, ← answer_of_quiet [.secDigests (sha256 s.svc.chain)] hl hq]
      simp [securityRequest, hat, hrev, hch, hid, secAnswer]
    · have hlc : p < ((s.heard p).updPort p fun q => { q with peerChain := chain }).ports.length := by simpa [State.heard] using hl
      have hch : (((s.heard p).updPort p fun q => { q with peerChain := chain }).port p).peerChain = chain :=
        congrArg Port.peerChain (State.port_updPort _ p _ (by simpa [State.heard] using hl))
      have hgo : securityResponse p (.certificate chain) s =
          if Config.chainWellFormed chain then initStepTo ((s.heard p).updPort p fun q => { q with peerChain := chain }) p 2
          else authVerdict ((s.heard p).updPort p fun q => { q with peerChain := chain }) p 2 := by
        unfold securityResponse
        rw [if_pos (by simp [hat, hi])]
        exact if_pos hst
      refine .intro rfl ((hrun _).trans hgo) ⟨?_, fun hw => ?_, fun hw => ?_⟩
      · split
        · obtain ⟨-, -, h3, -⟩ := initStepTo_spec 2 hlc
          exact h3.trans hch
        · rw [(authVerdict_spec 2).2.2.1, State.seqOver_port_peerChain]
          exact hch
      · rw [if_pos hw]
        obtain ⟨h1, h2, -⟩ := initStepTo_spec 2 hlc
        exact ⟨congrArg Service.initStep h1, h2, (congrArg Service.initPort h1).trans hi⟩
      · rw [if_neg (by simp [hw])]
        exact congrArg Service.initPort (authVerdict_spec 2).1
    · have hgo : securityResponse p r s = authVerdict s p 3 ∨ securityResponse p r s = authVerdict (s.heard p) p 4 := by
        unfold securityResponse
        rw [if_pos (by simp [hat, hi])]
        obtain rfl | rfl := hr
        · exact .inl rfl
        · exact .inr rfl
      refine .intro rfl (hrun _) ?_
      obtain hgo | hgo := hgo
      · obtain ⟨h1, h2, -, h4⟩ := authVerdict_spec (s := s) (p := p) 3
        rw [hgo]
        exact ⟨congrArg Service.initPort h1, congrArg Service.initStep h1, h2, h4⟩
      · obtain ⟨h1, h2, -, h4⟩ := authVerdict_spec (s := s.heard p) (p := p) 4
        rw [hgo]
        refine ⟨congrArg Service.initPort h1, congrArg Service.initStep h1, h2.trans ?_, fun q hq => (h4 q hq).trans ?_⟩
        · simp [State.heard, State.pd, State.pd_updPd, hl]
        · exact ((OnlyPort.refl p s).heard).2.2 q hq

end Sys2Proof.Machine
end

section
/-! PROOF. Burning opcodes. -/
namespace Sys2Proof.Machine
variable {s t : State} {pl : Place} {c : Cmd} {o : Otp} {weak : List Nat} {a b : Nat} {w : Word32}

/-! ### What a burn makes of the array (R408, R413) -/

/-- Both cells of every word are in canonical form. -/
def Otp.Wf (o : Otp) : Prop := cellsWf 0 o.low = true ∧ cellsWf 0 o.high = true

theorem Otp.Wf.burn1 (h : o.Wf) (weak : List Nat) (a : Nat) (w : Word32) : (o.burn1 weak a w).Wf := cellsWf_burn1 h

theorem Otp.burn1_lo (h : o.Wf) : (o.burn1 weak a w).lo b = if b = a then o.lo a ||| w else o.lo b := by
  unfold Otp.burn1 Otp.lo
  by_cases hb : b = a
  · subst hb
    rw [if_pos rfl, cellsRead_write_same h.1]
  · rw [if_neg hb, cellsRead_write_other h.1 hb]

theorem Otp.burn1_hi (h : o.Wf) : (o.burn1 weak a w).hi b = if b = a ∧ weak.contains a = false then o.hi a ||| w else o.hi b := by
  unfold Otp.burn1 Otp.hi
  dsimp only
  split
  case isTrue hw => rw [if_neg fun hh => Bool.noConfusion (hh.2.symm.trans hw)]
  case isFalse hw =>
    by_cases hb : b = a
    · subst hb
      rw [if_pos ⟨rfl, by simpa using hw⟩, cellsRead_write_same h.2]
    · rw [if_neg (by simp [hb]), cellsRead_write_other h.2 hb]

theorem Otp.Wf.burnFrom (h : o.Wf) (weak : List Nat) (a : Nat) (ws : List Word32) : (o.burnFrom weak a ws).Wf := cellsWf_burnFrom h

/-- R408: a run of words is ORed into the array, from its first address. -/
theorem Otp.burnFrom_lo (h : o.Wf) (ws : List Word32) :
    (o.burnFrom weak a ws).lo b = if a ≤ b ∧ b < a + ws.length then o.lo b ||| ws.getD (b - a) 0 else o.lo b := by
  induction ws generalizing o a with
  | nil => rw [if_neg (by simp), Otp.burnFrom]
  | cons w ws ih =>
    rw [Otp.burnFrom, ih (h.burn1 _ _ _), Otp.burn1_lo h]
    simp only [List.length_cons]
    by_cases hb : b = a
    · subst hb
      rw [if_neg (by omega), if_pos rfl, if_pos (by omega), Nat.sub_self, List.getD_cons_zero]
    · rw [if_neg hb]
      by_cases hin : a + 1 ≤ b ∧ b < a + 1 + ws.length
      · rw [if_pos hin, if_pos (by omega), show b - a = (b - (a + 1)) + 1 by omega, List.getD_cons_succ]
      · rw [if_neg hin, if_neg (by omega)]

theorem Otp.burnFrom_hi_other (h : o.Wf) (ws : List Word32) (hb : b < a ∨ a + ws.length ≤ b) : (o.burnFrom weak a ws).hi b = o.hi b := by
  induction ws generalizing o a with
  | nil => rfl
  | cons w ws ih =>
    simp only [List.length_cons] at hb
    rw [Otp.burnFrom, ih (h.burn1 _ _ _) (by omega), Otp.burn1_hi h, if_neg (by omega)]

/-- R413: with no weak bit the second cell takes the run too. -/
theorem Otp.burnFrom_hi (h : o.Wf) (ws : List Word32) :
    (o.burnFrom [] a ws).hi b = if a ≤ b ∧ b < a + ws.length then o.hi b ||| ws.getD (b - a) 0 else o.hi b := by
  induction ws generalizing o a with
  | nil => rw [if_neg (by simp), Otp.burnFrom]
  | cons w ws ih =>
    rw [Otp.burnFrom, ih (h.burn1 _ _ _), Otp.burn1_hi h]
    simp only [List.length_cons]
    by_cases hb : b = a
    · subst hb
      rw [if_neg (by omega), if_pos ⟨rfl, rfl⟩, if_pos (by omega), Nat.sub_self, List.getD_cons_zero]
    · rw [if_neg (show ¬(b = a ∧ ([] : List Nat).contains a = false) from fun hh => hb hh.1)]
      by_cases hin : a + 1 ≤ b ∧ b < a + 1 + ws.length
      · rw [if_pos hin, if_pos (by omega), show b - a = (b - (a + 1)) + 1 by omega, List.getD_cons_succ]
      · rw [if_neg hin, if_neg (by omega)]

theorem or_verifies (x y w : Word32) : ((x ||| w) &&& (y ||| w) &&& w == w) = true := by
  rw [beq_iff_eq]
  ext i hi
  simp only [BitVec.getElem_and, BitVec.getElem_or]
  cases w[i] <;> simp

/-- R413: a run burned with no weak bit verifies. -/
theorem Otp.failing_burnFrom (h : o.Wf) (ws : List Word32) : (o.burnFrom [] a ws).failing a ws = [] := by
  unfold Otp.failing
  rw [List.filter_eq_nil_iff]
  intro i hi
  have hi := List.mem_range.1 hi
  have hin : a ≤ a + i ∧ a + i < a + ws.length := by omega
  unfold Otp.verify1
  rw [Otp.burnFrom_lo h, Otp.burnFrom_hi h, if_pos hin, if_pos hin, Nat.add_sub_cancel_left, or_verifies]
  simp

theorem wordsOf_length (n : Nat) (bs : List Byte) : (wordsOf n bs).length = n := by
  induction n generalizing bs with
  | zero => rfl
  | succ n ih => rw [wordsOf, List.length_cons, ih]

/-! ### The state after a burn -/

theorem State.raiseOtp_frame (i : Nat) :
    s.raise .otp i =
      { s with
        fltOtp := (s.raise .otp i).fltOtp, faultN := (s.raise .otp i).faultN, attn := (s.raise .otp i).attn, irq := (s.raise .otp i).irq } := by
  obtain ⟨a, n, q, e⟩ | ⟨-, e⟩ := s.raise_shape .otp i
  · rw [e]
    rfl
  · rw [e]

theorem State.raiseOtp_ports (i : Nat) : (s.raise .otp i).ports = s.ports := by rw [State.raiseOtp_frame]

theorem State.afterBurn_otp (n : Nat) (b : Bool) : (s.afterBurn o a n b).otp = o.recount := by
  unfold State.afterBurn
  dsimp only
  split <;> split <;> simp

/-- A burn changes the array, and what its sticky bits show. -/
theorem State.afterBurn_frame (n : Nat) (b : Bool) :
    (s.afterBurn o a n b).host = s.host ∧ (s.afterBurn o a n b).tun = s.tun ∧ (s.afterBurn o a n b).ports = s.ports ∧
      (s.afterBurn o a n b).params = s.params := by
  unfold State.afterBurn
  dsimp only
  split <;> split <;> simp [State.raiseOtp_ports]

theorem State.spentStickies_frame (r : Nat) :
    (s.spentStickies r).host = s.host ∧ (s.spentStickies r).tun = s.tun ∧ (s.spentStickies r).ports = s.ports ∧
      (s.spentStickies r).otp = s.otp := by
  unfold State.spentStickies
  split
  · exact ⟨rfl, rfl, rfl, rfl⟩
  · dsimp only
    split <;> split <;> simp [State.raiseOtp_ports]

theorem State.afterBurn_cmdAt (n : Nat) (b : Bool) : (s.afterBurn o a n b).cmdAt pl = s.cmdAt pl := by
  obtain ⟨h1, h2, -⟩ := s.afterBurn_frame (o := o) (a := a) n b
  exact State.cmdAt_congr h1 h2 pl

/-- R320: the answer after a burn. -/
theorem State.afterBurn_finish (h : s.cmdAt pl = some c) (n : Nat) (bad : Bool) (code : Nat) (d : List Byte) :
    ((s.afterBurn o a n bad).finish pl code d).otp = o.recount ∧ ((s.afterBurn o a n bad).finish pl code d).ports = s.ports ∧
      ((s.afterBurn o a n bad).finish pl code d).params = s.params ∧ Answered pl c code d ((s.afterBurn o a n bad).finish pl code d) := by
  obtain ⟨-, -, f3, f4⟩ := s.afterBurn_frame (o := o) (a := a) n bad
  rw [State.finish_otp, State.finish_ports, State.finish_params, State.afterBurn_otp, f3, f4]
  exact ⟨rfl, rfl, rfl, (State.finish_spec ((State.afterBurn_cmdAt n bad).trans h) code d).2⟩

/-- R320: a burn of words that meets no cut. -/
theorem otpBurn_whole {r : BurnResult} (ht : Turn pl 0x71 c s) (hw : s.otp.Wf) (hl : s.otp.locked (regionOf (c.p16 0)) = false)
    (hf : firstClash s.otp (c.p16 0) (wordsOf (c.p8 2) (c.par.drop 4)) = none)
    (hb : burnShort r (runOf (c.p16 0) (wordsOf (c.p8 2) (c.par.drop 4))) = none) :
    Goes (.otpBurn pl r) s fun t =>
      (∀ i, i < c.p8 2 → t.otp.lo (c.p16 0 + i) = s.otp.lo (c.p16 0 + i) ||| (wordsOf (c.p8 2) (c.par.drop 4)).getD i 0) ∧
      (∀ a, a < c.p16 0 ∨ c.p16 0 + c.p8 2 ≤ a → t.otp.lo a = s.otp.lo a ∧ t.otp.hi a = s.otp.hi a) ∧
      (r.weak = [] → Answered pl c stOk [] t) ∧ t.ports = s.ports ∧ t.params = s.params := by
  have hlen := wordsOf_length (c.p8 2) (c.par.drop 4)
  have hlo : ∀ i, i < c.p8 2 → (s.otp.burnFrom r.weak (c.p16 0) (wordsOf (c.p8 2) (c.par.drop 4))).lo (c.p16 0 + i) =
      s.otp.lo (c.p16 0 + i) ||| (wordsOf (c.p8 2) (c.par.drop 4)).getD i 0 := fun i hi => by
    rw [Otp.burnFrom_lo hw, if_pos (by omega), Nat.add_sub_cancel_left]
  have hother : ∀ a, a < c.p16 0 ∨ c.p16 0 + c.p8 2 ≤ a →
      (s.otp.burnFrom r.weak (c.p16 0) (wordsOf (c.p8 2) (c.par.drop 4))).lo a = s.otp.lo a ∧
        (s.otp.burnFrom r.weak (c.p16 0) (wordsOf (c.p8 2) (c.par.drop 4))).hi a = s.otp.hi a := fun a ha => by
    rw [Otp.burnFrom_lo hw, if_neg (by omega), Otp.burnFrom_hi_other hw _ (by omega)]
    exact ⟨rfl, rfl⟩
  have hgood : r.weak = [] → ((s.otp.burnFrom r.weak (c.p16 0) (wordsOf (c.p8 2) (c.par.drop 4))).failing (c.p16 0)
      (wordsOf (c.p8 2) (c.par.drop 4))).isEmpty = true := fun h => by
    rw [h, Otp.failing_burnFrom hw]
    rfl
  generalize hws : wordsOf (c.p8 2) (c.par.drop 4) = ws at *
  generalize ho : s.otp.burnFrom r.weak (c.p16 0) ws = o at *
  have hx : exec (.otpBurn pl r) s = .next (
      if (o.failing (c.p16 0) ws).isEmpty then (s.afterBurn o (c.p16 0) ws.length (!(o.failing (c.p16 0) ws).isEmpty)).finish pl stOk []
      else (s.afterBurn o (c.p16 0) ws.length (!(o.failing (c.p16 0) ws).isEmpty)).finish pl stFailed (3 :: bitmap8 (o.failing (c.p16 0) ws))) := by
    refine congrArg Host.Outcome.next ((State.runOp_turn _ ht rfl).trans ((if_neg (by simp [hl])).trans ?_))
    simp only [hws, hf, hb, ho]
    rfl
  have hends := fun code d => State.afterBurn_finish (o := o) (a := c.p16 0) ht.1 ws.length (!(o.failing (c.p16 0) ws).isEmpty) code d
  refine ⟨_, hx, ?_⟩
  split
  case isTrue =>
    obtain ⟨h1, h2, h3, h4⟩ := hends stOk []
    rw [h1, h2, h3]
    exact ⟨hlo, hother, fun _ => h4, rfl, rfl⟩
  case isFalse hbad =>
    obtain ⟨h1, h2, h3, -⟩ := hends stFailed (3 :: bitmap8 (o.failing (c.p16 0) ws))
    rw [h1, h2, h3]
    exact ⟨hlo, hother, fun h => absurd (hgood h) hbad, rfl, rfl⟩

theorem lockBits_locked {r : Nat} {o : Otp} (hr : r < 5) (h : o.verify1 1023 (lockBits r) = true) : o.locked r = true := by
  unfold Otp.verify1 at h
  rw [beq_iff_eq] at h
  have hb : ∀ i, (lockBits r).getLsbD i = true → (o.lo 1023).getLsbD i = true := fun i hi => by
    rw [← h] at hi
    simp only [BitVec.getLsbD_and, Bool.and_eq_true] at hi
    exact hi.1.1
  have hset : ∀ r, r < 5 → (lockBits r).getLsbD r = true ∧ (lockBits r).getLsbD (5 + r) = true ∧ (lockBits r).getLsbD (10 + r) = true := by decide
  obtain ⟨h1, h2, h3⟩ := hset r hr
  unfold Otp.locked
  simp [hb _ h1, hb _ h2, hb _ h3, b1]

theorem lockRegion_verifies {r len k : Nat} {weak : List Nat} (h : (lockRegion o weak r len k).2 = true) :
    (lockRegion o weak r len k).1.verify1 1023 (lockBits r) = true := by
  unfold lockRegion at h ⊢
  dsimp only at h ⊢
  split at h
  case isTrue hc =>
    rw [if_pos hc]
    exact h
  case isFalse => exact absurd h (by simp)

/-- R321: a lock that goes through. -/
theorem finalise_locks {r : BurnResult} (ht : Turn pl 0x72 c s) (hl : s.otp.locked (c.p8 0) = false) (hs : s.otp.spent (2 * c.p8 0) = false)
    (hf : s.otp.fillOf (c.p8 0) = c.p16 2) (hb : burnShort r (lockSteps s.otp r.weak (c.p8 0) (c.p16 2) 0) = none)
    (hg : (lockRegion s.otp r.weak (c.p8 0) (c.p16 2) 0).2 = true) (h5 : c.p8 0 < 5) :
    Goes (.finalise pl r) s fun t =>
      Answered pl c stOk [0] t ∧ t.otp.locked (c.p8 0) = true ∧ t.otp.low = (lockRegion s.otp r.weak (c.p8 0) (c.p16 2) 0).1.low ∧
        t.ports = s.ports := by
  have hv := lockBits_locked h5 (lockRegion_verifies hg)
  have hx : exec (.finalise pl r) s = .next (((s.afterBurn (lockRegion s.otp r.weak (c.p8 0) (c.p16 2) 0).1 1008 16 false).spentStickies
      (c.p8 0)).finish pl stOk [0]) := by
    refine congrArg Host.Outcome.next ((State.runOp_turn _ ht rfl).trans ((if_neg (by simp [hl])).trans ((if_neg (by simp [hs])).trans
      ((if_neg (by simp [hf])).trans ?_))))
    have hk : b1 (s.otp.spent (2 * c.p8 0)) = 0 := by rw [hs]; rfl
    simp only [hk, hb, hg, if_true]
    rfl
  obtain ⟨f1, f2, f3, -⟩ := s.afterBurn_frame (o := (lockRegion s.otp r.weak (c.p8 0) (c.p16 2) 0).1) (a := 1008) 16 false
  have fo := s.afterBurn_otp (o := (lockRegion s.otp r.weak (c.p8 0) (c.p16 2) 0).1) (a := 1008) 16 false
  obtain ⟨g1, g2, g3, g4⟩ := (s.afterBurn (lockRegion s.otp r.weak (c.p8 0) (c.p16 2) 0).1 1008 16 false).spentStickies_frame (c.p8 0)
  refine ⟨_, hx, (State.finish_spec ((State.cmdAt_congr (g1.trans f1) (g2.trans f2) pl).trans ht.1) stOk [0]).2, ?_⟩
  rw [State.finish_otp, State.finish_ports, g4, fo, g3, f3]
  exact ⟨hv, rfl, rfl⟩

theorem keyWords_length (x y : List Byte) : (keyWords x y).length = 17 := by
  unfold keyWords
  simp [wordsOf_length]

/-- R331: a key drawn and burned. -/
theorem authKeygen_draws {r : BurnResult} (ht : Turn pl 0xB0 c s) (hw : s.otp.Wf) (ha : s.otp.anyBit 192 16 = false)
    (hl : s.otp.locked 2 = false) (hr : r.weak = []) (hc : r.cut = none) :
    Goes (.authKeygen pl r) s fun t =>
      Answered pl c stOk (idPublic t) t ∧ (∀ a, a < 192 ∨ 209 ≤ a → t.otp.lo a = s.otp.lo a) ∧
        t.otp.keyState = t.otp.keyStateNow ∧ t.ports = s.ports ∧ t.params = s.params := by
  have hlen := keyWords_length (octetsOf s.freeN 32) (octetsOf (s.freeN + 1) 32)
  have hgood := Otp.failing_burnFrom (a := 192) hw (keyWords (octetsOf s.freeN 32) (octetsOf (s.freeN + 1) 32))
  have hother : ∀ a, a < 192 ∨ 209 ≤ a →
      (s.otp.burnFrom [] 192 (keyWords (octetsOf s.freeN 32) (octetsOf (s.freeN + 1) 32))).lo a = s.otp.lo a := fun a ha => by
    rw [Otp.burnFrom_lo hw, if_neg (by omega)]
  generalize hws : keyWords (octetsOf s.freeN 32) (octetsOf (s.freeN + 1) 32) = ws at *
  generalize ho : s.otp.burnFrom [] 192 ws = o at *
  have hx : exec (.authKeygen pl r) s = .next ((({ s with freeN := s.freeN + 2 } : State).afterBurn o 192 17 false).finish pl stOk
      (idPublic (({ s with freeN := s.freeN + 2 } : State).afterBurn o 192 17 false))) := by
    refine congrArg Host.Outcome.next ((State.runOp_turn _ ht rfl).trans ((if_neg (by simp [ha])).trans ((if_neg (by simp [hl])).trans ?_)))
    simp only [hws, burnShort, hc, hr, ho, hgood, List.isEmpty_nil, if_true, Bool.not_true]
  obtain ⟨h1, h2, h3, h4⟩ := State.afterBurn_finish (s := { s with freeN := s.freeN + 2 }) (o := o) (a := 192) (c := c)
    ((State.cmdAt_congr rfl rfl pl).trans ht.1) 17 false stOk (idPublic (({ s with freeN := s.freeN + 2 } : State).afterBurn o 192 17 false))
  refine ⟨_, hx, ?_, ?_⟩
  · rw [show idPublic ((({ s with freeN := s.freeN + 2 } : State).afterBurn o 192 17 false).finish pl stOk
      (idPublic (({ s with freeN := s.freeN + 2 } : State).afterBurn o 192 17 false))) =
        idPublic (({ s with freeN := s.freeN + 2 } : State).afterBurn o 192 17 false) from by
          unfold idPublic
          rw [State.finish_otp]]
    exact h4
  · rw [h1, h2, h3]
    exact ⟨hother, rfl, rfl, rfl⟩

/-- Settles O18: what a burn leaves of the array (`Otp.burnFrom_lo`, `Otp.burnFrom_hi`), and each refusal with nothing burned. -/
theorem burningOpcodes : Obligations.BurningOpcodes := by
  rintro pl s c ⟨hlow, hhigh, -⟩
  have hw : s.otp.Wf := ⟨hlow, hhigh⟩
  refine ⟨fun ht r => ⟨fun hl => ?_, fun hl => ⟨fun i hf => ?_, fun l hf hb => ?_, otpBurn_whole ht hw hl⟩⟩,
    fun ht r => ⟨fun hl => ?_, fun hl h1 h2 => ?_, fun hl hs hf => ?_, finalise_locks ht⟩,
    fun ht r => ⟨fun ha => ?_, fun ha hl => ?_, authKeygen_draws ht hw⟩⟩
  · exact ends_of_runOp rfl ht rfl (if_pos hl)
  · refine ends_of_runOp rfl ht rfl ((if_neg (by simp [hl])).trans ?_)
    simp only [hf]
  · refine waits_after rfl ht rfl ((State.cmdAt_congr rfl rfl pl).trans ht.1) ((if_neg (by simp [hl])).trans ?_)
    simp only [hf, hb]
    rfl
  · exact ends_of_runOp rfl ht rfl (if_pos hl)
  · exact ends_of_runOp rfl ht rfl ((if_neg (by simp [hl])).trans (if_pos (by simp [h1, h2])))
  · exact ends_of_runOp rfl ht rfl ((if_neg (by simp [hl])).trans ((if_neg (by simp [hs])).trans (if_pos hf)))
  · exact ends_of_runOp rfl ht rfl (if_pos ha)
  · exact ends_of_runOp rfl ht rfl ((if_neg (by simp [ha])).trans (if_pos hl))

end Sys2Proof.Machine
end

section
/-! PROOF. Calibration opcodes. -/
namespace Sys2Proof.Machine
variable {s t : State} {pl : Place} {c : Cmd} {o : Otp}

/-! ### Captures (R322) -/

/-- A point that is staged takes the place of an earlier one of its channel and kind. -/
theorem stagedOf_stagePoint (ch : Nat) (gain : Bool) (v : Int) (l : Nat) :
    stagedOf (stagePoint s ch gain v l).otp ch gain = some (if gain then max (-1024) (min 1023 v) else max (-128) (min 127 v), l) := by
  have hno : (s.otp.staged.filter fun x => !(x.1 == ch && x.2.1 == gain)).find? (fun x => x.1 == ch && x.2.1 == gain) = none := by
    rw [List.find?_eq_none]
    intro x hx
    have := (List.mem_filter.1 hx).2
    simpa [imp_iff_not_or] using this
  unfold stagedOf stagePoint
  dsimp only
  rw [List.find?_append, hno]
  simp

theorem capturePaces_one {m : PaceSense} {x : CalCapture} (hx : s.captures = [x]) :
    capturePaces m s = if 500 ≤ (x.take (chanCodes m x.chan)).paces then captureDone { s with captures := [] } (x.take (chanCodes m x.chan))
      else { s with captures := [x.take (chanCodes m x.chan)] } := by
  unfold capturePaces
  simp only [hx, List.map_cons, List.map_nil]
  by_cases h : 500 ≤ (x.take (chanCodes m x.chan)).paces
  · simp [h]
  · simp [h, Nat.lt_of_not_le h]

theorem CalCapture.take_of_ne {x : CalCapture} {l : List Nat} (h : l ≠ []) :
    x.take l = { x with paces := x.paces + 1, sum := x.sum + l.sum, codes := x.codes + l.length } := if_neg (by simpa using h)

theorem capturePaces_short {m : PaceSense} {x : CalCapture} (hx : s.captures = [x]) (hc : chanCodes m x.chan ≠ []) (hp : x.paces < 499) :
    capturePaces m s = { s with captures := [{ x with
      paces := x.paces + 1, sum := x.sum + (chanCodes m x.chan).sum, codes := x.codes + (chanCodes m x.chan).length }] } := by
  rw [capturePaces_one hx, CalCapture.take_of_ne hc]
  exact if_neg (show ¬500 ≤ x.paces + 1 by omega)

theorem capturePaces_last {m : PaceSense} {x : CalCapture} (hx : s.captures = [x]) (hc : chanCodes m x.chan ≠ []) (hp : x.paces = 499) :
    capturePaces m s = captureDone { s with captures := [] } { x with
      paces := 500, sum := x.sum + (chanCodes m x.chan).sum, codes := x.codes + (chanCodes m x.chan).length } := by
  rw [capturePaces_one hx, CalCapture.take_of_ne hc, hp]
  exact if_pos (show 500 ≤ 499 + 1 by omega)

theorem capturePaces_idle {m : PaceSense} {x : CalCapture} (hx : s.captures = [x]) (hp : x.paces < 500) (hc : chanCodes m x.chan = []) :
    capturePaces m s = s := by
  have ht : x.take (chanCodes m x.chan) = x := if_pos (by simp [hc])
  rw [capturePaces_one hx, ht, if_neg (by omega), ← hx]

/-- R322: the end of a capture. -/
theorem captureDone_spec (x : CalCapture) (mean : Nat) (d : Int) (hn : x.codes ≠ 0) (hmean : mean = roundDivNat x.sum x.codes)
    (hd : d = (mean : Int) - zNom x.chan - offsetNow s.otp x.chan) :
    (x.gain = false →
      captureDone s x = (stagePoint s x.chan false ((mean : Int) - zNom x.chan) 0).finishWait (.calCapture x.chan false) stOk (leBytes 2 mean ++ [0]) ∧
        stagedOf (captureDone s x).otp x.chan false = some (max (-128) (min 127 ((mean : Int) - zNom x.chan)), 0)) ∧
    (x.gain = true → d.natAbs ≤ 256 → captureDone s x = s.finishWait (.calCapture x.chan true) stFailed [1]) ∧
    (x.gain = true → 256 < d.natAbs → ∃ trim : Int, -1024 ≤ trim ∧ trim ≤ 1023 ∧
      stagedOf (captureDone s x).otp x.chan true = some (trim, min 31 (x.truth.natAbs / lStep x.chan)) ∧
      (captureDone s x).otp.low = s.otp.low ∧ (captureDone s x).otp.high = s.otp.high ∧ (captureDone s x).ports = s.ports) := by
  have hm : max 1 x.codes = x.codes := by omega
  unfold captureDone
  simp only [hm, ← hmean, ← hd]
  refine ⟨fun hg => ?_, fun hg hle => ?_, fun hg hlt => ?_⟩
  · rw [if_pos (by simp [hg]), hg, State.finishWait_otp, stagedOf_stagePoint]
    exact ⟨rfl, rfl⟩
  · rw [if_neg (by simp [hg]), if_pos hle, hg]
  · rw [if_neg (by simp [hg]), if_neg (by omega), hg, State.finishWait_otp, State.finishWait_ports, stagedOf_stagePoint]
    exact ⟨_, by simp, by simp, rfl, rfl, rfl, rfl⟩

/-! ### `CAL_BURN` (R323, R420) -/

theorem newGenWords_length (o : Otp) : (newGenWords o).length = 80 := by
  unfold newGenWords
  simp

theorem nextGen_spec {g : Nat} (h : nextGen o = some g) : g < 6 ∧ ∀ j, j < 80 → o.lo (genBase g + j) = 0 := by
  unfold nextGen at h
  have hm := List.mem_range.1 (List.mem_of_find?_eq_some h)
  have hp := List.find?_some h
  simp only [Bool.and_eq_true, List.all_eq_true, List.mem_range, beq_iff_eq] at hp
  exact ⟨hm, fun j hj => (hp.2 j hj).1⟩

theorem or_genMark_ne_zero (x : Word32) {g : Nat} (hg : g < 6) : x ||| BitVec.ofNat 32 (0xCA100000 + g) ≠ 0 := by
  have hb : ∀ g, g < 6 → (BitVec.ofNat 32 (0xCA100000 + g)).getLsbD 31 = true := by decide
  intro h
  have h31 := congrArg (·.getLsbD 31) h
  rw [BitVec.getLsbD_or, hb g hg, Bool.or_true] at h31
  exact absurd h31 (by simp)

/-- R323: the staging ends, and the new generation is the one a load takes next. -/
def calBurned (u : State) : State := { u with otp := { u.otp with calNext := u.otp.currentGen, staged := [] } }

/-- R420: the word that marks generation `g`. -/
def genMark (g : Nat) : Word32 := BitVec.ofNat 32 (0xCA100000 + g)

theorem genMark_verifies (h : o.Wf) (g : Nat) : (o.burn1 [] (256 + g) (genMark g)).verify1 (256 + g) (genMark g) = true := by
  unfold Otp.verify1
  rw [Otp.burn1_lo h, Otp.burn1_hi h, if_pos rfl, if_pos ⟨rfl, rfl⟩]
  exact or_verifies _ _ _

/-- R420: the array with generation `g` burned and marked. -/
def genBurned (o : Otp) (g : Nat) : Otp := (o.burnFrom [] (genBase g) (newGenWords o)).burn1 [] (256 + g) (genMark g)

theorem genBurned_lo {g : Nat} (h : o.Wf) (hg : nextGen o = some g) :
    (genBurned o g).lo (256 + g) ≠ 0 ∧ ∀ j, j < 80 → (genBurned o g).lo (genBase g + j) = (newGenWords o).getD j 0 := by
  obtain ⟨hg6, hz⟩ := nextGen_spec hg
  have hlen := newGenWords_length o
  unfold genBurned
  refine ⟨?_, fun j hj => ?_⟩
  · rw [Otp.burn1_lo (h.burnFrom _ _ _), if_pos rfl]
    exact or_genMark_ne_zero _ hg6
  · have hne : genBase g + j ≠ 256 + g := by
      unfold genBase
      omega
    rw [Otp.burn1_lo (h.burnFrom _ _ _), if_neg hne, Otp.burnFrom_lo h, if_pos (by omega), Nat.add_sub_cancel_left, hz j hj]
    exact BitVec.zero_or

theorem calBurn_goes {r : BurnResult} {g : Nat} (ht : Turn pl 0x75 c s) (hne : s.otp.staged ≠ []) (hg : nextGen s.otp = some g)
    (hl : s.otp.locked 3 = false) (hr : r.weak = []) (hc : r.cut = none) (hw : s.otp.Wf) :
    exec (.calBurn pl r) s = .next ((calBurned (s.afterBurn (genBurned s.otp g) (256 + g) 1 false)).finish pl stOk []) := by
  have hgood := Otp.failing_burnFrom (a := genBase g) hw (newGenWords s.otp)
  have hv := genMark_verifies (hw.burnFrom [] (genBase g) (newGenWords s.otp)) g
  unfold genMark at hv
  refine congrArg Host.Outcome.next ((State.runOp_turn _ ht rfl).trans ((if_neg (by simpa using hne)).trans ?_))
  simp only [hg, hl, hr, hgood, hv, burnShort, hc, List.isEmpty_nil, if_true, Bool.not_true, Bool.false_eq_true, if_false]
  unfold calBurned genBurned genMark State.ok
  rfl

/-- R323, R420: a generation that is burned. -/
theorem calBurn_burns {r : BurnResult} {g : Nat} (ht : Turn pl 0x75 c s) (hne : s.otp.staged ≠ []) (hg : nextGen s.otp = some g)
    (hl : s.otp.locked 3 = false) (hr : r.weak = []) (hc : r.cut = none) (hw : s.otp.Wf) :
    Goes (.calBurn pl r) s fun t =>
      Answered pl c stOk [] t ∧ t.otp.staged = [] ∧ t.otp.lo (256 + g) ≠ 0 ∧
        (∀ j, j < 80 → t.otp.lo (genBase g + j) = (newGenWords s.otp).getD j 0) ∧ t.ports = s.ports := by
  have hx := calBurn_goes (pl := pl) ht hne hg hl hr hc hw
  obtain ⟨h1, h2⟩ := genBurned_lo hw hg
  generalize genBurned s.otp g = o at hx h1 h2
  obtain ⟨f1, f2, f3, -⟩ := s.afterBurn_frame (o := o) (a := 256 + g) 1 false
  have fo := s.afterBurn_otp (o := o) (a := 256 + g) 1 false
  generalize s.afterBurn o (256 + g) 1 false = u at hx f1 f2 f3 fo
  refine ⟨_, hx, (State.finish_spec (s := calBurned _) ((State.cmdAt_congr f1 f2 pl).trans ht.1) stOk []).2, ?_⟩
  rw [State.finish_otp, State.finish_ports]
  unfold Otp.lo at h1 h2 ⊢
  have hlow : (calBurned u).otp.low = o.low := (congrArg Otp.low fo : u.otp.low = o.recount.low)
  rw [hlow]
  exact ⟨rfl, h1, h2, f3⟩

/-- Settles O19: captures over 500 paces (`capturePaces_short`, `captureDone_spec`) and the burn of a generation (`calBurn_burns`). -/
theorem calibrationOpcodes : Obligations.CalibrationOpcodes := by
  intro pl s c
  refine ⟨fun load gain ch ht hch hgain => ⟨fun hk => ?_, fun hk => ?_⟩,
    ⟨fun m x hx hc => ⟨capturePaces_short hx hc, capturePaces_last hx hc⟩, fun m x hx hp hc => capturePaces_idle hx hp hc, captureDone_spec⟩,
    fun r ht => ⟨fun hs => ?_, fun hs hg => ?_, fun g hs hg hl => ?_, fun g hs hg hl hr hc hm => calBurn_burns ht hs hg hl hr hc ⟨hm.1, hm.2.1⟩⟩⟩
  · subst hgain
    refine ends_of_runOp rfl ht rfl ?_
    simp only [hch]
    exact if_pos (by simp [hk])
  · subst hgain
    refine waits_after rfl ht rfl ((State.cmdAt_congr rfl rfl pl).trans ht.1) ?_
    simp only [hch]
    exact if_neg (by simp [hk])
  · exact ends_of_runOp rfl ht rfl (if_pos (by simp [hs]))
  · refine ends_of_runOp rfl ht rfl ((if_neg (by simpa using hs)).trans ?_)
    simp only [hg]
  · refine ends_of_runOp rfl ht rfl ((if_neg (by simpa using hs)).trans ?_)
    simp only [hg]
    exact if_pos hl

end Sys2Proof.Machine
end

section
/-! PROOF. Live-service opcodes. -/
namespace Sys2Proof.Machine
variable {s t : State} {pl : Place} {c : Cmd} {p : Nat}

/-- What has ended is waited for no more. -/
theorem State.finishWait_waits (w : WaitFor) (n : Nat) (d : List Byte) (q : Place) : (s.finishWait w n d).waits q w = false := by
  unfold State.waits
  rw [State.finishWait_cmdAt]
  by_cases h : s.waits q w = true
  · simp [h]
  · rw [if_neg h]
    exact Bool.not_eq_true _ ▸ h

theorem State.finishWait_anyWait (w : WaitFor) (n : Nat) (d : List Byte) : (s.finishWait w n d).anyWait w = false := by
  simp [State.anyWait, State.finishWait_waits]

theorem stagedOf_stagePoint_other {ch k : Nat} (gain : Bool) (v : Int) (l : Nat) (h : ch ≠ k) :
    stagedOf (stagePoint s k gain v l).otp ch gain = stagedOf s.otp ch gain := by
  unfold stagedOf stagePoint
  dsimp only
  have hf : (s.otp.staged.filter fun x => !(x.1 == k && x.2.1 == gain)).find? (fun x => x.1 == ch && x.2.1 == gain) =
      s.otp.staged.find? (fun x => x.1 == ch && x.2.1 == gain) := by
    rw [List.find?_filter]
    congr 1
    funext x
    by_cases hx : x.1 = ch
    · simp [hx, h, Bool.beq_eq_decide_eq]
    · simp [hx]
  rw [List.find?_append, hf]
  simp [Ne.symm h]

theorem State.markDirty_port (n q : Nat) : (s.markDirty n).port q = s.port q := rfl

/-! ### `PORT_RECAL` (R329, R439) -/

/-- R439: the counters of a recalibration take a pace's codes. -/
def recalTaken (m : PaceSense) (p : Nat) (h : Path) : Path :=
  { h with
    recalPaces := h.recalPaces - 1, recalV := h.recalV + (chanCodes m (72 + p)).sum, recalVn := h.recalVn + (chanCodes m (72 + p)).length
    recalI := h.recalI + (chanCodes m (48 + p)).sum, recalIn := h.recalIn + (chanCodes m (48 + p)).length }

theorem recalPace_idle {m : PaceSense} (h : offsetOk s p = false ∨ (s.path p).recalPaces = 0) : recalPace m p s = s := by
  refine if_neg ?_
  obtain h | h := h <;> simp [h]

theorem recalPace_counts {m : PaceSense} (ho : offsetOk s p = true) (h : 1 < (s.path p).recalPaces) :
    recalPace m p s = s.updPath p (recalTaken m p) :=
  (if_pos (by simp [ho]; omega)).trans (if_neg (by omega))

theorem recalPace_ends {m : PaceSense} (ho : offsetOk s p = true) (h : (s.path p).recalPaces = 1) :
    recalPace m p s = recalDone (s.updPath p (recalTaken m p)) p :=
  (if_pos (by simp [ho, h])).trans (if_pos h)

theorem recalDone_spec {v i : Nat} (hv : v = roundDivNat (s.path p).recalV (max 1 (s.path p).recalVn))
    (hi : i = roundDivNat (s.path p).recalI (max 1 (s.path p).recalIn)) :
    stagedOf (recalDone s p).otp (72 + p) false = some (max (-128) (min 127 ((v : Int) - 64)), 0) ∧
      stagedOf (recalDone s p).otp (48 + p) false = some (max (-128) (min 127 ((i : Int) - 2048)), 0) ∧
      ((recalDone s p).path p).recalPaces = (s.path p).recalPaces ∧ (recalDone s p).anyWait (.recal p) = false := by
  unfold recalDone
  extract_lets h v' i' a b
  have hb : b.otp = a.otp ∧ (b.path p).recalPaces = (a.path p).recalPaces := by
    simp only [b]
    split
    · refine ⟨rfl, ?_⟩
      unfold State.path
      rw [State.markDirty_port]
      by_cases hl : p < a.ports.length
      · simp [State.path_updPath, hl]
      · simp [State.port, State.updPath, State.updPort, hl]
    · exact ⟨rfl, rfl⟩
  obtain ⟨hb1, hb2⟩ := hb
  refine ⟨?_, ?_, ?_, State.finishWait_anyWait _ _ _⟩
  · rw [State.finishWait_otp, hb1, stagedOf_stagePoint_other _ _ _ (by omega), stagedOf_stagePoint, hv]
    rfl
  · rw [State.finishWait_otp, hb1, stagedOf_stagePoint, hi]
    rfl
  · unfold State.path at hb2 ⊢
    rw [State.finishWait_port, hb2]
    rfl

/-! ### Retirement and restart (R329, R330) -/

theorem phaseRetire_noted (ht : Turn pl 0xA0 c s) (ho : liveInOtp s = true) (hl : s.liveOn = true) (hst : (s.phase (c.p8 0)).stopped = false)
    (hre : (s.phase (c.p8 0)).retired = false) (hin : inLiveAction s (c.p8 0) = false) (h1 : c.p8 1 = 1) :
    Goes (.phaseRetire pl) s fun t =>
      t.retiring = s.retiring ++ [(c.p8 0, s.frame)] ∧ t.cmdAt pl = some { c with wait := some (.retire (c.p8 0)) } ∧
        t.phases = s.phases ∧ t.ports = s.ports ∧ t.ledger = s.ledger := by
  refine ⟨_, congrArg Host.Outcome.next ((State.runOp_turn _ ht rfl).trans ((if_neg (by simp [ho])).trans
    (if_neg (by simp [hl, hst, hre, hin, h1])))), ?_⟩
  have hheld : ∀ u : State, u.cmdAt pl = some c → (u.hold pl (.retire (c.p8 0))).retiring = u.retiring ∧
      (u.hold pl (.retire (c.p8 0))).cmdAt pl = some { c with wait := some (.retire (c.p8 0)) } ∧ (u.hold pl (.retire (c.p8 0))).phases = u.phases ∧
      (u.hold pl (.retire (c.p8 0))).ports = u.ports ∧ (u.hold pl (.retire (c.p8 0))).ledger = u.ledger := fun u hu =>
    ⟨State.hold_retiring _ _ _, (State.hold_spec hu _).2.1, State.hold_phases _ _ _, State.hold_ports _ _ _, State.hold_ledger _ _ _⟩
  exact hheld _ ((State.cmdAt_congr rfl rfl pl).trans ht.1)

/-- Settles O21: each command is refused with its reason or noted; `recalPace_counts` and `recalDone_spec` say what a recalibration stages. -/
theorem liveServiceOpcodes : Obligations.LiveServiceOpcodes := by
  intro pl s c
  refine ⟨fun ht => ⟨fun h => ?_, fun h hl => ?_, phaseRetire_noted ht⟩, fun mv ht => ⟨fun h => ?_, fun h hl hre hin => ⟨fun hm => ?_, fun hm => ?_⟩⟩,
    fun ht ho hl hz v i => ⟨fun hk => ?_, fun hk => ?_⟩, fun v i h => ⟨?_, rfl, rfl, rfl, rfl⟩,
    fun m p v i hs hp => ⟨recalPace_idle, fun ho h => ?_, fun ho h hv hi => ?_⟩,
    fun ht => ⟨fun h => ?_, fun h hm he hq => ?_⟩, fun ht hc => ⟨fun h => ⟨fun h0 => ?_, fun h1 => ?_⟩, fun h hl hb hr => ⟨fun h0 => ?_, fun h1 => ?_⟩⟩⟩
  · exact ends_of_runOp rfl ht rfl (if_pos (by simp [h]))
  · exact ends_of_runOp rfl ht rfl ((if_neg (by simp [h])).trans (if_pos (by simp [hl])))
  · exact ends_of_runOp rfl ht rfl (if_pos (by simp [h]))
  · exact ends_of_runOp rfl ht rfl ((if_neg (by simp [h])).trans ((if_neg (by simp [hl, hre, hin])).trans (if_pos hm)))
  · exact waits_after rfl ht rfl ((State.cmdAt_congr rfl rfl pl).trans ht.1)
      ((if_neg (by simp [h])).trans ((if_neg (by simp [hl, hre, hin])).trans (if_neg (by omega))))
  · exact ends_of_runOp rfl ht rfl ((if_neg (by simp [ho])).trans (if_pos (by simp [hk])))
  · exact waits_after rfl ht rfl ((State.cmdAt_congr rfl rfl pl).trans ht.1) ((if_neg (by simp [ho])).trans (if_neg (by simp [hl, hk, hz])))
  · unfold recalBegun
    dsimp only
    by_cases he : v = [] ∧ i = []
    · simp [he]
    · rw [if_neg he, if_neg (by simpa using he)]
  · have hl : p < s.ports.length := hs.1 ▸ hp
    rw [recalPace_counts ho h]
    refine ⟨(PortAlone.refl p s).updPath _, ?_⟩
    simp [State.path, State.path_updPath, hl, recalTaken]
  · have hpl : p < s.ports.length := hs.1 ▸ hp
    rw [recalPace_ends ho h]
    have hpath : (s.updPath p (recalTaken m p)).path p = recalTaken m p (s.path p) := by simp [State.path, State.path_updPath, hpl]
    obtain ⟨h1, h2, h3, h4⟩ := recalDone_spec (s := s.updPath p (recalTaken m p)) (p := p) (v := v) (i := i) (by rw [hpath]; exact hv)
      (by rw [hpath]; exact hi)
    refine ⟨h1, h2, ?_, h4⟩
    rw [h3, hpath]
    simp [recalTaken, h]
  · exact ends_of_runOp rfl ht rfl (if_pos (by simp [h]))
  · refine waits_after rfl ht rfl ((State.cmdAt_congr rfl rfl pl).trans ht.1) ((if_neg (by simp [h])).trans ((if_neg (by simp [hm, he])).trans ?_))
    simp only [hq, Bool.false_eq_true, if_false]
  · exact ends_of_runOp rfl ht (by simp [h0]) (if_pos (by simp [h]))
  · exact ends_of_runOp rfl ht (by simp [h1]) (if_pos (by simp [h]))
  · exact ends_after rfl ht (by simp [h0]) ((State.cmdAt_congr rfl rfl pl).trans ht.1)
      ((if_neg (by simp [h])).trans ((if_neg (by simp [hl])).trans (if_neg (by simp [hb, hr]))))
  · exact ends_after rfl ht (by simp [h1]) ((State.cmdAt_congr rfl rfl pl).trans ht.1)
      ((if_neg (by simp [h])).trans ((if_neg (by simp [hl])).trans (if_neg (by simp [hb, hr]))))

end Sys2Proof.Machine
end

section
/-! PROOF. Packets are judged. -/
namespace Sys2Proof.Machine
variable {s t : State} {ch : Chan} {zero : Bool} {c : Cmd}

/-! ### Places of a channel (R287, R288) -/

@[simp] theorem State.chan_setChan (x : ChanState) : (s.setChan ch x).chan ch = x := by cases ch <;> rfl

@[simp] theorem ChanState.cmd_setCmd (x : ChanState) (o : Option Cmd) : (x.setCmd zero o).cmd zero = o := by
  cases zero <;> simp [ChanState.setCmd, ChanState.cmd]

@[simp] theorem ChanState.slot_setCmd (x : ChanState) (o : Option Cmd) : (x.setCmd zero o).slot = x.slot := by
  cases zero <;> simp [ChanState.setCmd]

@[simp] theorem ChanState.cmd_answer (x : ChanState) (code : Nat) (d : List Byte) : (x.answer c code d).cmd zero = x.cmd zero := by
  unfold ChanState.answer
  split <;> rfl

theorem ChanState.slot_answer (x : ChanState) (code : Nat) (d : List Byte) (h : c.orphan = false) :
    (x.answer c code d).slot = .ready false (replyBytes c code d) := by simp [ChanState.answer, h]

/-- R287: the packet of the class 0 place is judged, or that of the other place where no packet waits in the first. -/
theorem commandAccept_judges (hi : s.interprets = true) (hf : fresh ((s.chan ch).cmd zero) = some c)
    (hz : zero = true ∨ fresh (s.chan ch).place0 = none) : commandAccept ch s = judgePacket s ch zero c := by
  unfold commandAccept
  rw [if_pos hi]
  cases zero with
  | true =>
    have h0 : fresh (s.chan ch).place0 = some c := hf
    simp only [h0]
  | false =>
    have h0 : fresh (s.chan ch).place0 = none := hz.resolve_left (by simp)
    have h1 : fresh (s.chan ch).place12 = some c := hf
    simp only [h0, h1]

/-- Settles O10: the first failing check answers and frees the place, or the packet takes the next value of the sequence. -/
theorem packetsAreJudged : Obligations.PacketsAreJudged := by
  intro s ch zero c hi hf hz
  have hj := commandAccept_judges hi hf hz
  refine ⟨fun code hc => ?_, fun hc => ?_⟩
  · refine .intro rfl (u := s.setChan ch (((s.chan ch).setCmd zero none).answer c code [])) ?_ ?_
    · rw [hj, judgePacket, hc]
    · refine ⟨by simp, by simp, by simp, by simp, fun ho => ?_⟩
      rw [State.chan_setChan, ChanState.slot_answer _ _ _ ho]
  · refine .intro rfl (u := { s with acceptSeq := s.acceptSeq + 1 }.setChan ch
      ((s.chan ch).setCmd zero (some { c with accepted := true, seqNo := s.acceptSeq + 1, frame := s.frame }))) ?_ ?_
    · rw [hj, judgePacket, hc]
    · exact ⟨by simp, by simp, by simp, by simp, by simp⟩

end Sys2Proof.Machine
end

section
/-! PROOF. CMD_PUT. -/
namespace Sys2Proof.Machine
variable {s t : State} {c : Cmd}

/-! ### Transactions on the bus (R271 to R274, R277) -/

/-- Where commands are served the part runs, and an address match is no wake. -/
theorem served_spec (h : s.served = true) : s.answers = true ∧ s.matched = s ∧ s.bus.vcoreFe = true ∧ s.locked = true := by
  simp only [State.served, Bool.and_eq_true, beq_iff_eq] at h
  obtain ⟨⟨hm, hv⟩, hl⟩ := h
  have hr : s.seq.mode = .running := by
    cases hmd : s.seq.mode <;> simp [State.busMode, hmd] at hm
    rfl
  refine ⟨?_, ?_, hv, hl⟩
  · simp [State.answers, hr, hl]
  · unfold State.matched State.wake
    simp [hr]

theorem busEnd_eq (ack : Bool) (out : List Byte) : s.busEnd ack out = { s with bus := busAfter s (!ack) out } := rfl

theorem raiseBus_frame (i : Nat) :
    s.raise .bus i =
      { s with
        fltBus := (s.raise .bus i).fltBus, faultN := (s.raise .bus i).faultN, attn := (s.raise .bus i).attn, irq := (s.raise .bus i).irq } := by
  obtain ⟨a, n, q, e⟩ | ⟨-, e⟩ := s.raise_shape .bus i
  · rw [e]
    rfl
  · rw [e]

theorem raiseBus_ports (i : Nat) : (s.raise .bus i).ports = s.ports := by rw [raiseBus_frame]

theorem raiseBus_sticky {i : Nat} (hi : i < 16) : (s.raise .bus i).fltBus.sticky.getLsbD i = true := s.raise_sticky .bus i trivial hi

/-- R273: when a write's PEC lets it take effect. -/
theorem pecPasses_iff (bytes : List Byte) (pec : Option Byte) :
    s.pecPasses (pecSeen bytes pec) = true ↔ pec = some (crc8 bytes) ∨ (pec = none ∧ s.inf 0 0 0x3C ≠ 1) := by
  cases pec with
  | none => simp [pecSeen, State.pecPasses]
  | some b =>
    by_cases hb : crc8 bytes = b
    · simp [pecSeen, State.pecPasses, hb]
    · simp [pecSeen, State.pecPasses, hb, Ne.symm hb]

theorem pecSeen_bad {bytes : List Byte} {pec : Option Byte} (h : s.pecPasses (pecSeen bytes pec) = false) :
    (pecSeen bytes pec == .bad) = pec.isSome := by
  cases pec with
  | none => rfl
  | some b =>
    by_cases hb : crc8 bytes = b
    · simp [pecSeen, State.pecPasses, hb] at h
    · simp [pecSeen, hb]

theorem rdB_take {l : List Byte} {n i : Nat} (h : i < n) : rdB (l.take n) i = rdB l i := by
  unfold rdB
  rw [List.getD_eq_getElem?_getD, List.getElem?_take_of_lt h, List.getD_eq_getElem?_getD]

/-- R271, R288: what `CMD_PUT` does with a frame of a count of 4 or more whose class's place is free. -/
theorem cmdPut_free {count : Nat} {data : List Byte} {pec : Option Byte} (hs : s.served = true) (h4 : 4 ≤ count) (hl : count ≤ data.length)
    (hf : s.host.classHeld (rdB data 2 % 4) = false) :
    cmdPut count data pec s =
      if s.pecPasses (pecSeen (s.addrByte false :: 0x10 :: byteOf count :: data.take count) (seenPec count data pec)) then
        { s with host := s.host.claim { bytes := data.take count }, bus := busAfter s (decide (count + 1 < data.length)) [] }
      else
        (s.raise .bus 2).busEnd (pecSeen (s.addrByte false :: 0x10 :: byteOf count :: data.take count) (seenPec count data pec) != .bad) [] := by
  obtain ⟨h1, h2, -, -⟩ := served_spec hs
  have hx : (if count < data.length then some (data.getD count 0) else if data.length = count then pec else none) = seenPec count data pec := by
    unfold seenPec
    by_cases hc : count < data.length
    · rw [if_pos hc, if_pos hc]
    · rw [if_neg hc, if_neg hc, if_pos (by omega)]
  have hn : (!decide (data.length ≤ count + 1)) = decide (count + 1 < data.length) := by
    rw [← decide_not]
    exact decide_eq_decide.2 Nat.not_le
  unfold cmdPut
  rw [if_neg (by simp [h1]), h2]
  dsimp only
  rw [if_neg (by simp [hs]; omega), rdB_take (by omega), if_neg (by simp [hf]), if_neg (by omega), hx, busEnd_eq, hn]
  rfl

/-- Settles O7: a frame claims its place (`cmdPut_free`), or is turned away at the first condition that fails. -/
theorem cmdPutClaimsOrRefuses : Obligations.CmdPutClaimsOrRefuses := by
  intro s count data pec hs
  obtain ⟨h1, h2, -, -⟩ := served_spec hs
  refine ⟨fun h4 hl hf hp => ?_, fun c => ⟨?_, fun h0 => ?_, fun h12 => ?_⟩, fun h4 hl hh => ?_, fun h4 hl hh => ?_, fun h4 => ?_, fun h4 hl hf hp => ?_⟩
  · exact congrArg Host.Outcome.next ((cmdPut_free hs h4 hl hf).trans (if_pos ((pecPasses_iff _ _).2 hp)))
  · unfold ChanState.claim
    dsimp only
    split
    · rfl
    · split <;> rfl
  · unfold ChanState.claim
    rw [if_pos h0]
    exact ⟨_, rfl, rfl⟩
  · unfold ChanState.claim
    rw [if_neg (by omega), if_neg (by omega)]
    exact ⟨_, rfl, rfl⟩
  · refine congrArg Host.Outcome.next ?_
    unfold cmdPut
    rw [if_neg (by simp [h1]), h2]
    dsimp only
    rw [if_neg (by simp [hs]; omega), rdB_take (by omega), if_pos (by simp [hh, hl])]
    rfl
  · refine congrArg Host.Outcome.next ?_
    have hno : (decide (3 ≤ data.length) && s.host.classHeld (rdB data 2 % 4)) = false := by
      obtain hh | hh := hh
      · simp [hh]
      · simp [hh]
    unfold cmdPut
    rw [if_neg (by simp [h1]), h2]
    dsimp only
    rw [if_neg (by simp [hs]; omega), rdB_take (by omega), if_neg (by simp [hno]), if_pos hl]
    rfl
  · refine congrArg Host.Outcome.next ?_
    unfold cmdPut
    rw [if_neg (by simp [h1]), h2]
    dsimp only
    rw [if_pos (by simp [hs, h4])]
    rfl
  · have hbad := Bool.not_eq_true _ ▸ mt (pecPasses_iff (s := s) (s.addrByte false :: 0x10 :: byteOf count :: data.take count) (seenPec count data pec)).1 hp
    refine ⟨_, congrArg Host.Outcome.next ((cmdPut_free hs h4 hl hf).trans (if_neg (by rw [hbad]; simp))), ?_⟩
    rw [busEnd_eq]
    refine ⟨State.raise_host _ _ _, raiseBus_sticky (by decide), State.raise_params _ _ _, raiseBus_ports 2, ?_⟩
    rw [← pecSeen_bad hbad]
    simp [busAfter, bne]

end Sys2Proof.Machine
end

section
/-! PROOF. ATTN_ACK. -/
namespace Sys2Proof.Machine
variable {s t : State}

theorem State.setFlt_attn_eq (b : Blk) (f : Flt) : (s.setFlt b f).attn = s.attn := by cases b <;> rfl

/-- A fault that is raised may set an attention bit, and clears none (R262). -/
theorem State.raise_attn_mono (b : Blk) (i : Nat) {j : Nat} (h : s.attn.pending.getLsbD j = true) : (s.raise b i).attn.pending.getLsbD j = true := by
  have hset : ∀ (u : State) (k : Nat), u.attn.pending = s.attn.pending → (u.setAttn k).attn.pending.getLsbD j = true := fun u k hu => by
    simp [State.setAttn, hu, h]
  unfold State.raise
  dsimp only
  split
  · exact h
  · split
    · refine hset _ 15 ?_
      dsimp only
      split <;> split <;> simp [State.setFlt_attn_eq]
    · split <;> split <;> simp [State.setFlt_attn_eq, h]

/-- R263: what an acknowledgement leaves pending. -/
theorem ackAttn_pending (mask : Word) {i : Nat} (hi : i < 16) :
    (s.ackAttn mask).attn.pending.getLsbD i = (s.attn.pending.getLsbD i && (!mask.getLsbD i || s.attn.fresh.getLsbD i)) := by
  simp only [State.ackAttn, BitVec.getLsbD_and, BitVec.getLsbD_not, hi, decide_true, Bool.true_and]
  cases mask.getLsbD i <;> cases s.attn.fresh.getLsbD i <;> simp

theorem ackAttn_writeDue (mask : Word) : (s.ackAttn mask).attn.writeDue = true ↔ s.attn.writeDue = true ∨ s.attn.fresh &&& mask ≠ 0 := by
  simp [State.ackAttn]

theorem attnAck_whole {a b : Byte} {more : List Byte} {pec : Option Byte} (hs : s.served = true) :
    attnAck (a :: b :: more) pec s =
      if s.pecPasses (pecSeen [s.addrByte false, 0x13, a, b] (if more = [] then pec else some (more.getD 0 0))) then
        (s.ackAttn (BitVec.ofNat 16 (rdLe [a, b] 0 2))).busEnd (decide (more.length ≤ 1)) []
      else (s.raise .bus 2).busEnd (pecSeen [s.addrByte false, 0x13, a, b] (if more = [] then pec else some (more.getD 0 0)) != .bad &&
        decide (more.length ≤ 1)) [] := by
  obtain ⟨h1, h2, -, -⟩ := served_spec hs
  have hx : (if 2 < (a :: b :: more).length then some ((a :: b :: more).getD 2 0) else pec) =
      if more = [] then pec else some (more.getD 0 0) := by
    cases more <;> simp
  have hn : decide ((a :: b :: more).length ≤ 3) = decide (more.length ≤ 1) := by simp [Nat.lt_succ_iff]
  have hr : rdLe (a :: b :: more) 0 2 = rdLe [a, b] 0 2 := rfl
  unfold attnAck
  rw [if_neg (by simp [h1]), h2]
  dsimp only
  rw [if_neg (by simp [hs]), if_neg (by simp), hx, hn, hr]
  rfl

/-- Settles O8: an acknowledgement that passes clears what was seen (`ackAttn_pending`), and any other clears nothing. -/
theorem attnAckClearsWhatWasSeen : Obligations.AttnAckClearsWhatWasSeen := by
  intro s a b more pec mask seen hs hmask hseen
  obtain ⟨h1, h2, -, -⟩ := served_spec hs
  subst hmask hseen
  have hcut : ∀ data : List Byte, data.length < 2 → attnAck data pec s = { s with bus := busAfter s false [] } := fun data hd => by
    unfold attnAck
    rw [if_neg (by simp [h1]), h2]
    dsimp only
    rw [if_neg (by simp [hs]), if_pos hd]
    rfl
  refine ⟨fun hp => ?_, fun hne hno => ?_, congrArg Host.Outcome.next (hcut [a] (by simp)), congrArg Host.Outcome.next (hcut [] (by simp))⟩
  · refine ⟨_, congrArg Host.Outcome.next ((attnAck_whole hs).trans (if_pos ((pecPasses_iff _ _).2 hp))), ?_, fun i hi => ackAttn_pending _ hi,
      ackAttn_writeDue _⟩
    have hn : (!decide (more.length ≤ 1)) = decide (1 < more.length) := by
      rw [← decide_not]
      exact decide_eq_decide.2 Nat.not_le
    rw [← hn]
    rfl
  · have hbad : ¬ s.pecPasses (pecSeen [s.addrByte false, 0x13, a, b] (if more = [] then pec else some (more.getD 0 0))) = true := fun h => by
      obtain h | ⟨h, h'⟩ := (pecPasses_iff _ _).1 h
      · exact hne h
      · exact h' (hno h)
    refine ⟨_, congrArg Host.Outcome.next ((attnAck_whole hs).trans (if_neg hbad)), ?_⟩
    rw [busEnd_eq]
    exact ⟨raiseBus_sticky (by decide), fun i hi => State.raise_attn_mono _ _ hi, (congrArg Bus.attnHeld (State.raise_bus s .bus 2) :),
      State.raise_host _ _ _, State.raise_params _ _ _, raiseBus_ports 2⟩

end Sys2Proof.Machine
end

section
/-! PROOF. Bus reads and events. -/
namespace Sys2Proof.Machine
variable {s t : State}

/-! ### Reads (R271 to R273, R294 to R296) -/

theorem resBytes_length {rd : Bool} {bs : List Byte} (h : s.host.slot = .ready rd bs) : s.host.resBytes.length = bs.length := by
  unfold ChanState.resBytes
  simp only [h]
  cases rd <;> simp

/-- R296: a read of the whole frame. -/
theorem resGet_whole {n : Nat} {withPec : Bool} (hs : s.served = true) (hn : n = s.host.resBytes.length) :
    resGet n withPec s = (resRead s).busEnd true ((byteOf s.host.resBytes.length :: s.host.resBytes) ++
      beyondFrame (crc8 (s.addrByte false :: 0x11 :: s.addrByte true :: byteOf s.host.resBytes.length :: s.host.resBytes)) (b1 withPec)) := by
  obtain ⟨h1, h2, -, -⟩ := served_spec hs
  unfold resGet
  rw [if_neg (by simp [h1]), h2]
  dsimp only
  rw [if_neg (by simp [hs]), if_neg (by omega), hn, Nat.sub_self, Nat.zero_add]

/-- R295, R263: what a complete read of a reply leaves. -/
theorem resRead_ready {rd : Bool} {bs : List Byte} (h : s.host.slot = .ready rd bs) (hr : isRestartReply bs = false) :
    resRead s = { s with
      host := { s.host with slot := .ready true bs, sampled := false }
      attn := if s.host.sampled then
        { s.attn with fresh := (s.attn.fresh &&& ~~~s.attn.sampled) ||| (s.attn.sinceSample &&& s.attn.sampled), sampled := 0 } else s.attn } := by
  unfold resRead
  simp only [h, hr, Bool.false_and, Bool.false_eq_true, if_false]
  split <;> rfl

theorem resGet_ready {rd : Bool} {bs : List Byte} (hs : s.served = true) (h : s.host.slot = .ready rd bs) (hr : isRestartReply bs = false) :
    Goes (.resGet bs.length true) s fun t =>
      t.host = { s.host with slot := .ready true bs, sampled := false } ∧ t.attn.pending = s.attn.pending ∧ t.ports = s.ports ∧ t.params = s.params ∧
      (s.host.sampled = false → t.attn = s.attn) ∧
      (s.host.sampled = true →
        t.attn.fresh = (s.attn.fresh &&& ~~~s.attn.sampled) ||| (s.attn.sinceSample &&& s.attn.sampled) ∧ t.attn.sampled = 0) ∧
      (rd = false → t.bus.out = byteOf bs.length :: bs ++ [crc8 (s.addrByte false :: 0x11 :: s.addrByte true :: byteOf bs.length :: bs)]) ∧
      (rd = true → bs ≠ [] → t.bus.out.getD 1 0 = bs.getD 0 0 ||| 0x80) := by
  have hlen := resBytes_length h
  refine ⟨_, congrArg Host.Outcome.next (resGet_whole hs hlen.symm), ?_⟩
  rw [resRead_ready h hr, busEnd_eq, hlen]
  refine ⟨rfl, ?_, rfl, rfl, fun h0 => if_neg (by simp [h0]), fun h1 => ?_, fun h0 => ?_, fun h1 hne => ?_⟩
  · dsimp only
    split <;> rfl
  · dsimp only
    rw [if_pos h1]
    exact ⟨rfl, rfl⟩
  · have hb : s.host.resBytes = bs := by simp [ChanState.resBytes, h, h0]
    rw [hb]
    rfl
  · have hb : s.host.resBytes = bs.set 0 (bs.getD 0 0 ||| 0x80) := by simp [ChanState.resBytes, h, h1]
    rw [hb]
    cases bs with
    | nil => exact absurd rfl hne
    | cons x xs => rfl

theorem resGet_waiting {bs : List Byte} (hs : s.served = true) (hb : s.host.resBytes = bs) (h4 : bs.length = 4) (hr : resRead s = s) :
    GoesTo (.resGet 4 false) s { s with bus := busAfter s false (0x04 :: bs) } := by
  refine congrArg Host.Outcome.next ((resGet_whole hs (by rw [hb, h4])).trans ?_)
  rw [hr, busEnd_eq, hb, h4, show beyondFrame _ (b1 false) = [] from rfl, List.append_nil]
  rfl

theorem busStatus_goes {b : Byte} (hs : s.served = true) (hb : b = byteOf s.busStatus) :
    GoesTo .busStatus s { s with bus := busAfter s false [b, crc8 [s.addrByte false, 0x12, s.addrByte true, b], 0xFF] } := by
  obtain ⟨h1, h2, -, -⟩ := served_spec hs
  subst hb
  refine congrArg Host.Outcome.next ?_
  unfold busStatus
  rw [if_pos h1, h2]
  rfl

/-- R272, R275: the status byte of the state the match leaves. -/
theorem busStatus_any (h : s.answers = true) : Goes .busStatus s fun t =>
    t.bus.out.head? = some (byteOf t.busStatus) ∧ t.bus.nacked = false ∧ (s.seq.mode = .running → t = { s with bus := t.bus }) := by
  refine ⟨_, congrArg Host.Outcome.next (if_pos h), rfl, rfl, fun hr => ?_⟩
  have hm : s.matched = s := by
    unfold State.matched State.wake
    simp [hr]
  rw [hm]
  rfl

/-! ### Timeouts (R276 to R278) -/

theorem busFault_frame (i : Nat) (hi : i < 16) :
    (s.locked = true → (s.busFault i).fltBus.sticky.getLsbD i = true) ∧ (s.busFault i).host = s.host ∧ (s.busFault i).tun = s.tun ∧
      (s.busFault i).ports = s.ports ∧ (s.busFault i).params = s.params := by
  unfold State.busFault
  split
  case isTrue => exact ⟨fun _ => raiseBus_sticky hi, State.raise_host _ _ _, State.raise_tun _ _ _, raiseBus_ports i, State.raise_params _ _ _⟩
  case isFalse h => exact ⟨fun hl => absurd hl h, rfl, rfl, rfl, rfl⟩

theorem timeouts_abandon (h : s.answers = true) :
    (Goes .busSclTimeout s fun t =>
      (s.locked = true → t.fltBus.sticky.getLsbD 1 = true) ∧ t.bus.idle = false ∧ t.host = s.host ∧ t.ports = s.ports ∧ t.params = s.params) ∧
    GoesTo .busEdgeTimeout s { s with bus := { s.bus with idle := false, out := [], nacked := true } } ∧
    (Goes .stuckRelease s fun t =>
      (s.locked = true → t.fltBus.sticky.getLsbD 0 = true) ∧ t.bus.idle = false ∧ t.host = s.host ∧ t.tun = s.tun ∧ t.ports = s.ports) := by
  obtain ⟨a1, a2, -, a4, a5⟩ := busFault_frame (s := s) 1 (by decide)
  obtain ⟨b1, b2, b3, b4, -⟩ := busFault_frame (s := s) 0 (by decide)
  exact ⟨⟨_, congrArg Host.Outcome.next (if_pos h), a1, rfl, a2, a4, a5⟩, congrArg Host.Outcome.next (if_pos h),
    ⟨_, congrArg Host.Outcome.next (if_pos h), b1, rfl, b2, b3, b4⟩⟩

/-! ### Attention attempts (R279 to R281) -/

theorem attnFailed_retries (h : s.bus.attnFails < 8) :
    attnFailed s = { s with bus := { s.bus with attnDue := false, attnWait := true, attnFails := s.bus.attnFails + 1, stopAt := none } } :=
  if_neg (by omega)

theorem attnFailed_gives_up (h : 8 ≤ s.bus.attnFails) :
    (attnFailed s).bus = { s.bus with attnDue := false, attnWait := false, attnFails := 0, attnHeld := true } ∧
      (attnFailed s).fltBus.sticky.getLsbD 3 = true := by
  have hx : attnFailed s = _ := if_pos h
  rw [hx]
  exact ⟨State.raise_bus _ _ _, raiseBus_sticky (by decide)⟩

/-- R279: what stands as an attempt begins. -/
def attnBegun (s : State) : State :=
  { s with
    attn := { s.attn with fresh := s.attn.fresh &&& ~~~s.attn.pending, sinceSample := s.attn.sinceSample &&& ~~~s.attn.pending, writeDue := false }
    bus := { s.bus with attnTx := attnBytes s } }

/-- R281: the attempt has lost the arbitration, and the part listens. -/
def attnLost (s : State) : State := { attnBegun s with bus := { (attnBegun s).bus with idle := false } }

/-- R280, R281: what an attempt leaves, by whether it lost the arbitration and whether it was acknowledged. -/
theorem attnAttempt_spec (o : AttnTry) (lost : Bool) (hlost : lost = (o.rival.map (lostTo (attnBytes s))).getD false) :
    (attnAttempt s o).bus.attnTx = attnBytes s ∧ (attnAttempt s o).bus.attnDue = false ∧ (attnAttempt s o).bus.idle = !lost ∧
      ((lost = false ∧ o.acked = true) ∨ s.bus.attnFails < 8 →
        (attnAttempt s o).attn.pending = s.attn.pending ∧ (attnAttempt s o).attn.fresh = (s.attn.fresh &&& ~~~s.attn.pending) ∧
          (attnAttempt s o).fltBus = s.fltBus) ∧
      (lost = false → o.acked = true →
        (attnAttempt s o).bus.attnWait = false ∧ (attnAttempt s o).bus.attnFails = 0 ∧ (attnAttempt s o).bus.attnHeld = false) ∧
      (lost = true ∨ o.acked = false → s.bus.attnFails < 8 →
        (attnAttempt s o).bus.attnWait = true ∧ (attnAttempt s o).bus.attnFails = s.bus.attnFails + 1 ∧
          (attnAttempt s o).bus.stopAt = (if lost then none else some s.paceCount)) ∧
      (lost = true ∨ o.acked = false → 8 ≤ s.bus.attnFails →
        (attnAttempt s o).bus.attnWait = false ∧ (attnAttempt s o).bus.attnHeld = true ∧ (attnAttempt s o).fltBus.sticky.getLsbD 3 = true) := by
  cases lost with
  | true =>
    have hx : attnAttempt s o = attnFailed (attnLost s) := if_pos hlost.symm
    rw [hx]
    obtain h8 | h8 := Nat.lt_or_ge s.bus.attnFails 8
    · rw [attnFailed_retries (s := attnLost s) h8]
      exact ⟨rfl, rfl, rfl, fun _ => ⟨rfl, rfl, rfl⟩, nofun, fun _ _ => ⟨rfl, rfl, rfl⟩, fun _ h => absurd h8 (Nat.not_lt.2 h)⟩
    · obtain ⟨h1, h2⟩ := attnFailed_gives_up (s := attnLost s) h8
      rw [h1]
      exact ⟨rfl, rfl, rfl, fun h => absurd (h.resolve_left (by simp)) (Nat.not_lt.2 h8), nofun, fun _ h => absurd h (Nat.not_lt.2 h8),
        fun _ _ => ⟨rfl, rfl, h2⟩⟩
  | false =>
    have hno : ¬(o.rival.map (lostTo (attnBytes s))).getD false = true := by rw [← hlost]; simp
    cases ha : o.acked with
    | true =>
      have hx : attnAttempt s o = ({ attnBegun s with bus := { (attnBegun s).bus with
          attnDue := false, attnWait := false, attnFails := 0, attnHeld := false } } : State).busStop := (if_neg hno).trans (if_pos ha)
      rw [hx]
      exact ⟨rfl, rfl, rfl, fun _ => ⟨rfl, rfl, rfl⟩, fun _ _ => ⟨rfl, rfl, rfl⟩, fun h => by simp at h, fun h => by simp at h⟩
    | false =>
      have hx : attnAttempt s o = (attnFailed (attnBegun s)).busStop := (if_neg hno).trans (if_neg (by simp [ha]))
      rw [hx]
      obtain h8 | h8 := Nat.lt_or_ge s.bus.attnFails 8
      · rw [attnFailed_retries (s := attnBegun s) h8]
        exact ⟨rfl, rfl, rfl, fun _ => ⟨rfl, rfl, rfl⟩, fun _ h => by simp at h, fun _ _ => ⟨rfl, rfl, rfl⟩, fun _ h => absurd h8 (Nat.not_lt.2 h)⟩
      · obtain ⟨h1, h2⟩ := attnFailed_gives_up (s := attnBegun s) h8
        have hb : ∀ u : State, u.busStop.bus.attnTx = u.bus.attnTx ∧ u.busStop.bus.attnDue = u.bus.attnDue ∧ u.busStop.bus.idle = true ∧
            u.busStop.bus.attnWait = u.bus.attnWait ∧ u.busStop.bus.attnHeld = u.bus.attnHeld ∧ u.busStop.fltBus = u.fltBus := fun u =>
          ⟨rfl, rfl, rfl, rfl, rfl, rfl⟩
        obtain ⟨b1, b2, b3, b4, b5, b6⟩ := hb (attnFailed (attnBegun s))
        rw [b1, b2, b3, b4, b5, b6, h1]
        exact ⟨rfl, rfl, rfl, fun h => absurd (h.resolve_left (by simp)) (Nat.not_lt.2 h8), fun _ h => by simp at h,
          fun _ h => absurd h (Nat.not_lt.2 h8), fun _ _ => ⟨rfl, rfl, h2⟩⟩

theorem lostTo_host {a : Byte} (rest : List Byte) (h : 0xC0 ≤ a.toNat) : lostTo (attnBytes s) (a :: rest) = false := by
  have ha : (0x10 : Byte) ≠ a := by
    rintro rfl
    simp at h
  have h16 : (0x10 : Byte).toNat = 16 := rfl
  unfold attnBytes
  exact (if_neg ha).trans (decide_eq_false (by omega))

/-- R270, R277: the bus after an address, and after a STOP where one follows. -/
def addressed (u : State) (nack stop : Bool) : State :=
  if stop then ({ u with bus := { u.bus with idle := false, out := [], nacked := nack } } : State).busStop
  else { u with bus := { u.bus with idle := false, out := [], nacked := nack } }

/-- R236, R275: a match in retention is a wake. -/
theorem addressMatch_wakes (code : Option Nat) (stop : Bool) (ha : s.answers = true) (hm : s.seq.mode = .retention) (hr : s.seq.resetLow = false)
    (hb : s.seq.boot = false) :
    Goes (.addressMatchWake { addr := some s.busAddr, code, stop }) s fun t =>
      t.seq.mode = .sequencing ∧ t.seq.step = 0 ∧ t.seq.wakeCause = 0x0002 ∧ t.seq.retries = 0 ∧ t.otp.low = s.otp.low ∧
        t.bus.idle = stop ∧ (t.bus.nacked = true ↔ code ≠ none ∧ code ≠ some 0x12) := by
  have hw : s.matched = s.startSequence 2 true := by
    unfold State.matched State.wake State.startAgain
    simp [hm, hr, hb]
  have hu : s.matched.seq.mode = .sequencing ∧ s.matched.seq.step = 0 ∧ s.matched.seq.wakeCause = 0x0002 ∧ s.matched.seq.retries = 0 ∧
      s.matched.otp.low = s.otp.low := by
    rw [hw]
    refine ⟨rfl, rfl, ?_, rfl, rfl⟩
    simp [State.startSequence, State.vcoreReset, Seq.begun, hm]
  have hack : ∀ k, s.matched.codeAcked k = (k == 0x12) := fun k => by
    have hs : s.matched.served = false := by simp [State.served, State.busMode, hu.1]
    simp [State.codeAcked, hs]
  have hn : (!(code.all s.matched.codeAcked)) = true ↔ code ≠ none ∧ code ≠ some 0x12 := by
    cases code with
    | none => simp
    | some k => simp [hack]
  refine ⟨addressed s.matched (!(code.all s.matched.codeAcked)) stop, congrArg Host.Outcome.next ((if_neg (by simp [ha])).trans ?_), ?_⟩
  · simp only [if_true]
    rfl
  generalize s.matched = u at hu hn ⊢
  obtain ⟨u1, u2, u3, u4, u5⟩ := hu
  cases stop
  · exact ⟨u1, u2, u3, u4, u5, rfl, hn⟩
  · exact ⟨u1, u2, u3, u4, u5, rfl, hn⟩

/-- Settles O9: reads (`resGet_whole`), timeouts, attempts (`attnAttempt_spec`) and address matches. -/
theorem busReadsAndEvents : Obligations.BusReadsAndEvents := by
  refine ⟨⟨fun s bs rd hs h hr => resGet_ready hs h hr, fun s tag op hs h => ?pending, fun s hs h => ?empty,
      fun s b hs hb => busStatus_goes hs hb, fun s h => busStatus_any h⟩,
    fun s h => timeouts_abandon h, fun s => rfl, ?attempt, ?later, fun s a rest h => lostTo_host rest h,
    fun s code stop ha hm hr hb => addressMatch_wakes code stop ha hm hr hb, ?other⟩
  case pending =>
    have hb : s.host.resBytes = [0x01, tag, op, 0x00] := by simp only [ChanState.resBytes, h]
    refine resGet_waiting hs hb rfl ?_
    simp only [resRead, h]
  case empty =>
    have hb : s.host.resBytes = [0x02, 0x00, 0x00, 0x00] := by simp only [ChanState.resBytes, h]
    refine resGet_waiting hs hb rfl ?_
    simp only [resRead, h]
  case attempt =>
    intro s cmd o lost hn hi hp hc hlost
    refine ⟨attnAttempt s o, ?_, attnAttempt_spec o lost hlost⟩
    have hgo : attnDueNow o s = attnAttempt s o := if_neg hp
    obtain ⟨rfl, hd⟩ | ⟨rfl, hw, p, hst, hle⟩ := hc
    · exact congrArg Host.Outcome.next ((if_pos (by simp [hd, hn, hi])).trans hgo)
    · refine congrArg Host.Outcome.next ?_
      unfold attentionBackoffExpiry
      simp only [hst]
      rw [if_pos (by simp [hw, hn, State.backOff, hle]), if_pos hi, hgo]
  case later =>
    intro s o p hn hi hw hst hp
    refine congrArg Host.Outcome.next ?_
    unfold attentionBackoffExpiry
    simp only [hst]
    rw [if_pos (by simp [hw, hn, State.backOff, hp]), if_neg (by simp [hi])]
  case other =>
    intro s n code stop ha hn
    refine ⟨addressed s true stop, congrArg Host.Outcome.next ((if_neg (by simp [ha])).trans ?_), ?_⟩
    · simp only [if_neg hn]
      rfl
    cases stop
    · exact ⟨rfl, rfl, rfl⟩
    · exact ⟨rfl, rfl, rfl⟩

end Sys2Proof.Machine
end

section
/-! PROOF. Shutdown and hold-off. -/
namespace Sys2Proof.Machine
variable {s t u : State} {x : Nat}

/-! ### What going down leaves of the always-on domain (R245, R247) -/

/-- The sequencer's own state and record, the tick and the array stand. -/
def SeqKept (s t : State) : Prop := t.seq = s.seq ∧ t.tick = s.tick ∧ t.fltSeq = s.fltSeq ∧ t.otp = s.otp

theorem SeqKept.refl (s : State) : SeqKept s s := ⟨rfl, rfl, rfl, rfl⟩

theorem SeqKept.trans (h : SeqKept s t) (k : SeqKept t u) : SeqKept s u := by
  obtain ⟨h1, h2, h3, h4⟩ := h
  obtain ⟨k1, k2, k3, k4⟩ := k
  exact ⟨k1.trans h1, k2.trans h2, k3.trans h3, k4.trans h4⟩

theorem SeqKept.ite {q : Prop} [Decidable q] {a b : State} (h : SeqKept s a) (k : SeqKept s b) : SeqKept s (if q then a else b) := by
  split
  · exact h
  · exact k

theorem SeqKept.overN {f : Nat → State → State} (h : ∀ i t, SeqKept t (f i t)) (n : Nat) (s : State) : SeqKept s (overN n f s) := by
  induction n with
  | zero => exact SeqKept.refl s
  | succ n ih =>
    rw [overN_succ]
    exact ih.trans (h n _)

theorem SeqKept.outputsOff (s : State) : SeqKept s s.outputsOff := by
  have h := (State.outputsOff_spec s).1
  exact ⟨by rw [h], by rw [h], by rw [h], by rw [h]⟩

theorem SeqKept.setPg (b : Bool) : SeqKept s (s.setPg x b) := by
  have h := ((OnlyFeed.refl x s).setPg b).1
  exact ⟨State.setPg_seq b, by rw [h], by rw [h], by rw [h]⟩

theorem SeqKept.updFeed (f : Feed → Feed) : SeqKept s (s.updFeed x f) := ⟨rfl, rfl, rfl, rfl⟩

theorem SeqKept.feedOff : SeqKept s (s.feedOff x) :=
  ((SeqKept.updFeed _).trans (SeqKept.setPg false)).trans (SeqKept.ite ⟨rfl, rfl, rfl, rfl⟩ (SeqKept.refl _))

theorem SeqKept.feedsDown (s : State) : SeqKept s s.feedsDown :=
  SeqKept.overN (fun _ t => (SeqKept.ite (SeqKept.refl t) SeqKept.feedOff).trans (SeqKept.updFeed _)) 2 s

theorem raiseAon_frame (i : Nat) :
    s.raise .aon i =
      { s with
        fltAon := (s.raise .aon i).fltAon, faultN := (s.raise .aon i).faultN, attn := (s.raise .aon i).attn, irq := (s.raise .aon i).irq } := by
  obtain ⟨a, n, q, e⟩ | ⟨-, e⟩ := s.raise_shape .aon i
  · rw [e]
    rfl
  · rw [e]

theorem SeqKept.cairnAbandon (s : State) : SeqKept s s.cairnAbandon := by
  unfold State.cairnAbandon
  split
  · exact SeqKept.refl s
  · rw [raiseAon_frame]
    exact ⟨rfl, rfl, rfl, rfl⟩

theorem State.handOver_frame : s.handOver = { s with bus := s.handOver.bus } := by
  unfold State.handOver
  split <;> rfl

theorem State.busLost_frame : s.busLost = { s with bus := s.busLost.bus } := by
  unfold State.busLost
  split <;> rfl

theorem SeqKept.vcoreDown (s : State) : SeqKept s s.vcoreDown := by
  refine (SeqKept.cairnAbandon s).trans ?_
  unfold State.vcoreDown
  dsimp only
  rw [State.handOver_frame, State.busLost_frame]
  exact ⟨rfl, rfl, rfl, rfl⟩

/-- R245: with step 3 undone the engine clock and both channels are gone. -/
theorem State.vcoreDown_spec : s.vcoreDown.locked = false ∧ s.vcoreDown.host = {} ∧ s.vcoreDown.tun = {} := by
  unfold State.vcoreDown
  dsimp only
  rw [State.handOver_frame, State.busLost_frame]
  exact ⟨rfl, rfl, rfl⟩

theorem State.vioDown_frame (s : State) : s.vioDown = { s with ports := s.vioDown.ports } :=
  (overN_portAlone (fun p t => (PortAlone.refl p t).updCc _) 24 s).1

theorem SeqKept.vioDown (s : State) : SeqKept s s.vioDown := by
  have h := State.vioDown_frame s
  exact ⟨by rw [h], by rw [h], by rw [h], by rw [h]⟩

theorem SeqKept.undo (n : Nat) : SeqKept s (s.undo n) := by
  unfold State.undo
  split
  · exact SeqKept.outputsOff s
  · exact SeqKept.feedsDown s
  · exact SeqKept.vcoreDown s
  · exact SeqKept.vioDown s
  · exact SeqKept.refl s

theorem SeqKept.dropped (s : State) : SeqKept s { s with host := s.host.dropReplies, tun := s.tun.dropReplies } := ⟨rfl, rfl, rfl, rfl⟩

/-- R247: what a total shut-off leaves. -/
def AfterShutOff (after : After) (hold : Nat) (s t : State) : Prop :=
  t.seq = { s.seq with
    mode := .shutoff, after := after, holdLen := hold, tsoTick := s.tick, lastTso := true, noFall := false
    wakeNoted := if s.seq.mode == .shutdown then s.seq.wakeNoted else 0, sleepAt := none, interpreter := false } ∧
  t.locked = false ∧ t.fltSeq = s.fltSeq ∧ t.tick = s.tick ∧ t.otp = s.otp ∧ t.host = {} ∧ t.tun = {}

theorem State.totalShutOff_spec (after : After) (hold : Nat) : AfterShutOff after hold s (s.totalShutOff after hold) := by
  have hk : SeqKept s ({ s with host := s.host.dropReplies, tun := s.tun.dropReplies } : State).outputsOff.feedsDown.vcoreDown.vioDown :=
    ((((SeqKept.dropped s).trans (SeqKept.outputsOff _)).trans (SeqKept.feedsDown _)).trans (SeqKept.vcoreDown _)).trans (SeqKept.vioDown _)
  have hv := State.vcoreDown_spec (s := ({ s with host := s.host.dropReplies, tun := s.tun.dropReplies } : State).outputsOff.feedsDown)
  have hf := State.vioDown_frame ({ s with host := s.host.dropReplies, tun := s.tun.dropReplies } : State).outputsOff.feedsDown.vcoreDown
  unfold State.totalShutOff AfterShutOff
  dsimp only
  generalize ({ s with host := s.host.dropReplies, tun := s.tun.dropReplies } : State).outputsOff.feedsDown.vcoreDown = v at hk hv hf ⊢
  obtain ⟨k1, k2, k3, k4⟩ := hk
  obtain ⟨v1, v2, v3⟩ := hv
  unfold State.updSeq
  dsimp only
  rw [k1, k2]
  refine ⟨rfl, ?_, k3, rfl, k4, ?_, ?_⟩
  · rw [hf]
    exact v1
  · rw [hf]
    exact v2
  · rw [hf]
    exact v3

/-! ### Faults that shut the part off (R32, R239, R248) -/

theorem State.raiseSeq_sticky {i : Nat} (hi : i < 16) : (s.raise .seq i).fltSeq.sticky.getLsbD i = true := s.raise_sticky .seq i trivial hi

theorem State.raiseSeq_sticky_mono (i : Nat) {j : Nat} (h : s.fltSeq.sticky.getLsbD j = true) : (s.raise .seq i).fltSeq.sticky.getLsbD j = true :=
  s.raise_sticky_mono .seq i j trivial h

theorem State.raiseSeq_frame (i : Nat) :
    s.raise .seq i =
      { s with
        fltSeq := (s.raise .seq i).fltSeq, faultN := (s.raise .seq i).faultN, attn := (s.raise .seq i).attn, irq := (s.raise .seq i).irq } := by
  obtain ⟨a, n, q, e⟩ | ⟨-, e⟩ := s.raise_shape .seq i
  · rw [e]
    rfl
  · rw [e]

theorem powered_ne_shutdown (h : s.powered = true) : (s.seq.mode == .shutdown) = false := by
  cases hm : s.seq.mode <;> simp [State.powered, hm] at h ⊢

/-- R243: what the count of a failed attempt leaves. -/
theorem State.countFailure_spec (step : Nat) :
    (s.countFailure step).1.seq = { s.seq with
        failStep := step, retries := if s.seq.retries < s.otp.seqRetries then s.seq.retries + 1 else s.seq.retries } ∧
      (s.countFailure step).2 = (if s.seq.retries < s.otp.seqRetries then .retry else .failure) ∧
      (s.countFailure step).1.fltSeq.sticky.getLsbD 0 = true ∧
      (∀ j, s.fltSeq.sticky.getLsbD j = true → (s.countFailure step).1.fltSeq.sticky.getLsbD j = true) ∧
      (s.countFailure step).1.tick = s.tick ∧ (s.countFailure step).1.otp = s.otp := by
  unfold State.countFailure
  refine ⟨?_, ?_, State.raiseSeq_sticky (by decide), fun j h => State.raiseSeq_sticky_mono 0 h, State.raise_tick _ _ _, State.raise_otp _ _ _⟩
  · simp [State.updSeq]
  · simp

/-- R247, R248: what the fault of a running part leaves. -/
theorem State.faultShutOff_spec {b : Nat} (hb : b < 16) (h : s.powered = true) :
    (s.faultShutOff b).seq.mode = .shutoff ∧ (s.faultShutOff b).locked = false ∧ (s.faultShutOff b).seq.lastTso = true ∧
      (s.faultShutOff b).seq.tsoTick = s.tick ∧ (s.faultShutOff b).seq.holdLen = 640 ∧ (s.faultShutOff b).fltSeq.sticky.getLsbD b = true ∧
      (s.early1000 = false → (s.faultShutOff b).seq.after = .restart ∧ (s.faultShutOff b).seq.retries = s.seq.retries) ∧
      (s.early1000 = true → (s.faultShutOff b).fltSeq.sticky.getLsbD 0 = true ∧
        (s.faultShutOff b).seq.after = (if s.seq.retries < s.otp.seqRetries then .retry else .failure)) := by
  have hr := State.raiseSeq_frame (s := s) b
  have he : (s.raise .seq b).early1000 = s.early1000 := by rw [hr]; rfl
  have hnd : ¬((s.raise .seq b).seq.mode == .shutdown && (s.raise .seq b).seq.after != .rest) = true := by
    rw [State.raise_seq, powered_ne_shutdown h]
    simp
  have hst := State.raiseSeq_sticky (s := s) hb
  cases hearly : s.early1000 with
  | true =>
    have hx : s.faultShutOff b =
        ((s.raise .seq b).countFailure (s.raise .seq b).seq.step).1.totalShutOff ((s.raise .seq b).countFailure (s.raise .seq b).seq.step).2 640 :=
      (if_neg hnd).trans (if_pos (he.trans hearly))
    obtain ⟨c1, c2, c3, c4, c5, -⟩ := State.countFailure_spec (s := s.raise .seq b) (s.raise .seq b).seq.step
    obtain ⟨t1, t2, t3, t4, -⟩ := State.totalShutOff_spec (s := ((s.raise .seq b).countFailure (s.raise .seq b).seq.step).1)
      ((s.raise .seq b).countFailure (s.raise .seq b).seq.step).2 640
    rw [State.raise_seq, State.raise_otp] at c2
    rw [State.raise_tick] at c5
    rw [hx, t1, t3, c5, ← c2]
    exact ⟨rfl, t2, rfl, rfl, rfl, c4 _ hst, nofun, fun _ => ⟨c3, rfl⟩⟩
  | false =>
    have hx : s.faultShutOff b = (s.raise .seq b).totalShutOff .restart 640 :=
      (if_neg hnd).trans (if_neg (by rw [he, hearly]; simp))
    obtain ⟨t1, t2, t3, t4, -⟩ := State.totalShutOff_spec (s := s.raise .seq b) .restart 640
    rw [hx, t1, t3, State.raise_seq, State.raise_tick]
    exact ⟨rfl, t2, rfl, rfl, rfl, hst, fun _ => ⟨rfl, rfl⟩, nofun⟩

/-! ### The ordered shutdown (R244, R245) -/

theorem SeqKept.orderedShutdown (s : State) (after : After) : SeqKept (shutdownBegun s after) (s.orderedShutdown after) := by
  rw [State.orderedShutdown_eq]
  exact SeqKept.undo _

/-- R245: the next step down. -/
theorem State.downTo_spec (n : Nat) :
    (s.downTo n).seq = { s.seq with downStep := n, downTick := s.tick, sub := if 5 ≤ n then s.seq.sub else 0 } ∧ (s.downTo n).fltSeq = s.fltSeq ∧
      (n = 3 → (s.downTo n).locked = false) := by
  have h := SeqKept.undo (s := s.updSeq fun q => { q with downStep := n, downTick := s.tick, sub := if 5 ≤ n then q.sub else 0 }) n
  refine ⟨h.1, h.2.2.1, ?_⟩
  rintro rfl
  exact (State.vcoreDown_spec (s := s.updSeq fun q => { q with downStep := 3, downTick := s.tick, sub := if 5 ≤ 3 then q.sub else 0 })).1

theorem State.downNext_step {n : Nat} (hb : s.seq.boot = false) (hd : s.seq.downStep = n + 1) (h5 : ¬(n + 1 = 5 ∧ s.seq.sub = 1)) :
    s.downNext = s.downTo n := by
  unfold State.downNext
  dsimp only
  rw [hd, if_neg (by simpa using h5), if_neg (by simp [hb])]
  rfl

theorem State.downNext_holds (hd : s.seq.downStep = 0) : s.downNext = s.holdOff := by
  unfold State.downNext
  dsimp only
  rw [hd]
  rfl

/-- R245: a rail that has not fallen counts as off, and is noted. -/
theorem nofall_spec (hm : s.seq.mode = .shutdown) (h7 : s.seq.downStep ≠ 7) (ht : s.seq.downTick + 640 ≤ s.tick) :
    Goes .shutdownNofallTimeout s fun t =>
      t.seq.noFall = true ∧ t.fltSeq.sticky.getLsbD 5 = true ∧ (s.seq.downStep = 0 → s.seq.sub = 0 → t.seq.mode = .holdoff) := by
  refine ⟨_, congrArg Host.Outcome.next (if_pos (by simp [hm, h7, ht])), ?_⟩
  have hq : ((s.raise .seq 5).updSeq fun q => { q with noFall := true }).seq = { s.seq with noFall := true } := by simp [State.updSeq]
  have hf : ((s.raise .seq 5).updSeq fun q => { q with noFall := true }).fltSeq.sticky.getLsbD 5 = true := State.raiseSeq_sticky (by decide)
  generalize (s.raise .seq 5).updSeq (fun q => { q with noFall := true }) = u at hq hf ⊢
  refine ⟨?_, ?_, fun h0 _ => ?_⟩
  · unfold State.downNext State.holdOff State.updSeq
    dsimp only
    split
    · exact congrArg Seq.noFall hq
    · split
      · exact congrArg Seq.noFall hq
      · rw [(State.downTo_spec _).1]
        exact congrArg Seq.noFall hq
  · unfold State.downNext State.holdOff State.updSeq
    dsimp only
    split
    · exact hf
    · split
      · exact hf
      · rw [(State.downTo_spec _).2.1]
        exact hf
  · rw [State.downNext_holds (by rw [hq]; exact h0)]
    rfl

/-! ### The end of the hold-off (R246) -/

/-- R246: a start at the end of the hold-off, with `RESET_N` high and `VBAT_AON` present. -/
theorem State.startOrWait_high (n : Nat) (b : Bool) (hr : s.seq.resetLow = false) (hb : s.seq.boot = false) :
    s.startOrWait n b = s.startSequence n b := by
  unfold State.startOrWait State.startAgain
  rw [if_neg (by simp [hr]), if_neg (by simp [hb])]

theorem State.startOrWait_low (n : Nat) (b : Bool) (hr : s.seq.resetLow = true) :
    s.startOrWait n b = s.updSeq fun q => { q with mode := .retention, boot := q.boot && !q.vbatOk } := if_pos hr

theorem overN2_feed (g : Nat → Feed → Feed) (h : s.feeds.length = 2) (hx : x < 2) : (overN 2 (fun i t => t.updFeed i (g i)) s).feed x = g x (s.feed x) := by
  rw [show overN 2 (fun i t => t.updFeed i (g i)) s = (s.updFeed 0 (g 0)).updFeed 1 (g 1) from rfl]
  obtain rfl | rfl : x = 0 ∨ x = 1 := by omega
  · rw [State.feed_updFeed_ne _ _ _ _ (by decide), State.feed_updFeed _ _ _ (by omega)]
  · rw [State.feed_updFeed _ _ _ (by simp [h]), State.feed_updFeed_ne _ _ _ _ (by decide)]

theorem SeqKept.keepTrips (t s : State) : SeqKept t (t.keepTrips s) := SeqKept.overN (fun _ _ => SeqKept.updFeed _) 2 t

/-- R246: the sequencer as a sequence starts. -/
theorem State.startSequence_seq (n : Nat) (b : Bool) : (s.startSequence n b).seq = s.seq.begun .sequencing 0 s.tick n b false := by
  unfold State.startSequence
  cases b
  · exact (SeqKept.keepTrips _ _).1
  · rfl

theorem State.startSequence_trips (n : Nat) (hx : x < 2) : ((s.startSequence n false).feed x).trips = (s.feed x).trips := by
  have h := overN2_feed (s := ({ s with faultN := faultPinStart s, seq := s.seq.begun .sequencing 0 s.tick n false false } : State).vcoreReset)
    (fun x f => { f with trips := (s.feed x).trips }) rfl hx
  have ht := congrArg Feed.trips h
  unfold State.startSequence
  exact ht

theorem holdoffEnd_low (hm : s.seq.mode = .holdoff) (he : s.seq.holdEnd ≤ s.tick) (hr : s.seq.resetLow = true)
    (ha : s.seq.after = .rest ∨ s.seq.after = .retry ∨ s.seq.after = .restart ∨ (s.seq.after = .failure ∧ s.seq.wakeNoted &&& 0x0019 ≠ 0) ∨
      (s.seq.after = .integrity ∧ s.seq.wakeNoted &&& 0x0018 ≠ 0)) :
    Goes .holdoffEnd s fun t => t = { s with seq := t.seq } ∧ t.seq.mode = .retention := by
  refine ⟨s.updSeq fun q => { q with mode := .retention, boot := q.boot && !q.vbatOk }, congrArg Host.Outcome.next ((if_pos (by simp [hm, he])).trans ?_),
    rfl, rfl⟩
  obtain h | h | h | ⟨h, hw⟩ | ⟨h, hw⟩ := ha
  · simp [h, hr, State.startOrWait_low]
  · simp [h, hr, State.startOrWait_low]
  · simp [h, hr, State.startOrWait_low]
  · simp only [h]
    rw [if_pos (by simpa [endsFailure] using hw), State.startOrWait_low _ _ hr]
  · simp only [h]
    rw [if_pos (by simpa [endsIntegrity] using hw), State.startOrWait_low _ _ hr]

/-- R261: the pin does not pulse as the part fails. -/
theorem State.raiseSeq_faultN (i : Nat) (h : s.seq.mode = .seqFailure) : (s.raise .seq i).faultN = s.faultN := by
  have hp : ∀ u : State, u.seq = s.seq → u.pinOccur.faultN = u.faultN := fun u hu => by
    unfold State.pinOccur
    rw [if_pos (by simp [hu, h])]
  unfold State.raise
  dsimp only
  split
  · rfl
  · have hs : ∀ f, (s.setFlt .seq f).seq = s.seq ∧ (s.setFlt .seq f).faultN = s.faultN := fun f => ⟨rfl, rfl⟩
    have hi : ∀ (q : Prop) [Decidable q] (u : State) (x : IrqSource), (if q then u.interrupt x else u).seq = u.seq ∧
        (if q then u.interrupt x else u).faultN = u.faultN := fun q _ u x => by
      split <;> simp
    have hpin : ∀ (q : Prop) [Decidable q] (u : State), u.seq = s.seq → (if q then u.pinOccur else u).faultN = u.faultN := fun q _ u hu => by
      split
      · exact hp u hu
      · rfl
    have hb : ∀ (q : Prop) [Decidable q] (f : Flt) (q' : Prop) [Decidable q'],
        (if q then (if q' then (s.setFlt .seq f).interrupt (.fault .seq i) else s.setFlt .seq f).pinOccur
          else (if q' then (s.setFlt .seq f).interrupt (.fault .seq i) else s.setFlt .seq f)).faultN = s.faultN := fun q _ f q' _ => by
      rw [hpin q _ (hi q' (s.setFlt .seq f) _).1, (hi q' _ _).2]
      rfl
    split
    · exact hb _ _ _
    · exact hb _ _ _

/-- R246: the hold-off with no wake noted. -/
theorem holdoffEnd_quiet (hm : s.seq.mode = .holdoff) (he : s.seq.holdEnd ≤ s.tick) (hb : s.seq.boot = false) (hr : s.seq.resetLow = false)
    (hw : s.seq.wakeNoted = 0) :
    (s.seq.after = .rest → GoesTo .holdoffEnd s { s with seq := { s.seq with mode := .retention } }) ∧
      (s.seq.after = .retry → Goes .holdoffEnd s fun t =>
        t.seq.mode = .sequencing ∧ t.seq.step = 0 ∧ t.seq.retries = s.seq.retries ∧ t.seq.wakeCause.getLsbD 5 = true ∧
          ∀ x, x < 2 → (t.feed x).trips = (s.feed x).trips) ∧
      (s.seq.after = .restart → Goes .holdoffEnd s fun t =>
        t.seq.mode = .sequencing ∧ t.seq.step = 0 ∧ t.seq.retries = 0 ∧ t.seq.wakeCause.getLsbD 5 = true) := by
  have hgo : exec .holdoffEnd s = .next (holdoffEnd s) := rfl
  unfold holdoffEnd at hgo
  rw [if_pos (by simp [hm, he])] at hgo
  refine ⟨fun ha => ?_, fun ha => ⟨s.startSequence 0x20 false, hgo.trans (congrArg Host.Outcome.next ?_), ?_⟩,
    fun ha => ⟨s.startSequence 0x20 true, hgo.trans (congrArg Host.Outcome.next ?_), ?_⟩⟩
  · simp only [ha, hr, hw] at hgo
    rw [if_neg (by simp)] at hgo
    have hq : ({ s.seq with mode := .retention, boot := false } : Seq) = { s.seq with mode := .retention } := by rw [← hb]
    have hrest : s.rest = s.updSeq fun q => { q with mode := .retention, boot := false } := if_neg (by simp [hb])
    exact hgo.trans (congrArg Host.Outcome.next (hrest.trans (congrArg (fun q => { s with seq := q }) hq)))
  · simp only [ha, hw]
    exact State.startOrWait_high _ _ hr hb
  · dsimp only
    rw [State.startSequence_seq]
    exact ⟨rfl, rfl, rfl, by simp [Seq.begun], fun x hx => State.startSequence_trips _ hx⟩
  · simp only [ha, hw]
    exact State.startOrWait_high _ _ hr hb
  · dsimp only
    rw [State.startSequence_seq]
    exact ⟨rfl, rfl, rfl, by simp [Seq.begun]⟩

/-- Settles O53: total shut-offs (`State.faultShutOff_spec`), the steps of a shutdown (`State.downTo_spec`), and the end of the hold-off. -/
theorem shutdownAndHoldoff : Obligations.ShutdownAndHoldoff := by
  refine ⟨?fault, ?hot, ?warn, ?ign, ?ignBoot, ?down, ?spare, ?last, fun s hm h7 ht => nofall_spec hm h7 ht, ?railsOff, ?ends⟩
  case fault =>
    intro s c b hp hc
    obtain ⟨rfl, rfl⟩ | ⟨rfl, rfl, hl⟩ := hc
    · exact ⟨_, congrArg Host.Outcome.next (if_pos hp), State.faultShutOff_spec (by decide) hp⟩
    · exact ⟨_, congrArg Host.Outcome.next (if_pos (by simp [hl, hp])), State.faultShutOff_spec (by decide) hp⟩
  case hot =>
    intro s hp
    refine ⟨_, congrArg Host.Outcome.next (if_pos (by simp [hp])), ?_⟩
    obtain ⟨t1, t2, t3, -⟩ := State.totalShutOff_spec (s := s.raise .seq 6) .restart 32000
    rw [t1, t3]
    exact ⟨rfl, t2, rfl, rfl, State.raiseSeq_sticky (by decide)⟩
  case warn =>
    intro s hl hd
    refine ⟨_, congrArg Host.Outcome.next (if_pos (by simp [hl, hd])), ?_, State.raise_sticky _ .therm 8 trivial (by decide)⟩
    exact State.raiseTherm_frame 8
  case ign =>
    intro s f hs hm hi hf hle
    obtain ⟨h1, h2⟩ := State.orderedShutdown_of_running (s := s) .rest hm
    have hq := (SeqKept.orderedShutdown s .rest).1
    obtain ⟨-, -, -, -, hport, -, hphase, hridge⟩ := h1
    refine ⟨s.orderedShutdown .rest, congrArg Host.Outcome.next (if_pos (by simp [hm, hi, hf, State.ran, State.framesSince, hle])), ?_⟩
    dsimp only
    rw [hq, h2]
    refine ⟨rfl, rfl, rfl, rfl, rfl, fun p hp => ?_, fun k hk => ?_, fun r hr => ?_⟩
    · obtain ⟨a1, a2, -, a4⟩ := hport p hp (hs.1 ▸ hp : p < s.ports.length)
      exact ⟨a1, a2, a4⟩
    · rw [hphase k hk (hs.2.1 ▸ hk : k < s.phases.length)]
      exact ⟨rfl, rfl⟩
    · exact hridge r hr (hs.2.2.1 ▸ hr : r < s.ridges.length)
  case ignBoot =>
    intro s f hm hc hi hf hle
    have hq := (SeqKept.orderedShutdown s .rest).1
    refine ⟨s.orderedShutdown .rest, congrArg Host.Outcome.next (if_pos (by simp [hm, hc, hi, hf, State.ran, State.framesSince, hle])), ?_⟩
    dsimp only
    rw [hq]
    have ht : s.topStep = s.seq.step := by simp [State.topStep, hm]
    exact ⟨rfl, rfl, ht, rfl, rfl⟩
  case down =>
    intro s n hm hb hd h7 h5
    obtain ⟨d1, -, d3⟩ := State.downTo_spec (s := s) n
    refine ⟨s.downTo n, congrArg Host.Outcome.next ((if_pos ?_).trans (State.downNext_step hb hd h5)), ?_⟩
    · by_cases hn : n + 1 = 7
      · simp [hm, h7 hn]
      · simp [hm, hd, show n ≠ 6 by omega]
    · dsimp only
      rw [d1]
      exact ⟨hm, rfl, rfl, rfl, d3⟩
  case spare =>
    intro s hm hd hsub
    refine congrArg Host.Outcome.next ((if_pos (by simp [hm, hd])).trans ?_)
    unfold State.downNext
    dsimp only
    rw [if_pos (by simp [hd, hsub])]
    rfl
  case last =>
    intro s hm hd _
    exact congrArg Host.Outcome.next ((if_pos (by simp [hm, hd])).trans (State.downNext_holds hd))
  case railsOff =>
    intro s off hm ho
    refine congrArg Host.Outcome.next (if_pos ?_)
    obtain h | h := ho <;> simp [hm, h]
  case ends =>
    intro s hm he hb
    have hgo : exec .holdoffEnd s = .next (holdoffEnd s) := rfl
    unfold holdoffEnd at hgo
    rw [if_pos (by simp [hm, he])] at hgo
    refine ⟨fun hr ha => holdoffEnd_low hm he hr ha, fun hr hw => holdoffEnd_quiet hm he hb hr hw, fun ha hw => ?_, fun ha hw => ?_, fun hr ha hw => ?_⟩
    · simp only [ha] at hgo
      rw [if_neg (by simpa [endsIntegrity] using hw)] at hgo
      exact hgo
    · refine ⟨(s.updSeq fun q => q.fails .seqFailure).raise .seq 1, hgo.trans (congrArg Host.Outcome.next ?_), State.raise_seq _ _ _,
        State.raiseSeq_sticky (by decide), State.raiseSeq_faultN 1 rfl⟩
      simp only [ha]
      rw [if_neg (by simpa [endsFailure] using hw)]
    · refine ⟨s.startSequence s.seq.wakeNoted.toNat true, hgo.trans (congrArg Host.Outcome.next ?_), ?_⟩
      · have hn : s.seq.wakeNoted.toNat ≠ 0 := fun h => hw (BitVec.eq_of_toNat_eq (by simpa using h))
        simp only [ha]
        rw [if_pos (by simp [hn]), State.startOrWait_high _ _ hr hb]
      · dsimp only
        rw [State.startSequence_seq]
        exact ⟨rfl, rfl⟩

end Sys2Proof.Machine
end

section
/-! PROOF. Wakes and supplies. -/
namespace Sys2Proof.Machine
variable {s t u : State} {b : Nat}

/-! ### A sequence starts (R236, R258) -/

/-- R258: the `VCORE` domain of a sequence that a wake starts. -/
theorem State.startSequence_fresh (n : Nat) :
    (s.startSequence n true).locked = false ∧ (s.startSequence n true).params = State.reset.params ∧
      (s.startSequence n true).ledger = State.reset.ledger ∧ (s.startSequence n true).host = {} ∧
      (s.startSequence n true).otp.low = s.otp.low ∧ (s.startSequence n true).otp.high = s.otp.high ∧ (s.startSequence n true).tick = s.tick ∧
      (s.startSequence n true).fltSeq = { s.fltSeq with stamp := 0 } ∧ (s.startSequence n true).fltAon = { s.fltAon with stamp := 0 } ∧
      (s.startSequence n true).bus.addrPins = s.bus.addrPins ∧ (s.startSequence n true).ret.banks = s.ret.banks :=
  ⟨rfl, rfl, rfl, rfl, rfl, rfl, rfl, rfl, rfl, rfl, rfl⟩

/-- R236, R240, R243: the modes in which wake condition b starts a sequence. -/
def StartsOn (b : Nat) (m : SeqMode) : Prop :=
  m = .retention ∨ (m = .seqFailure ∧ BitVec.ofNat 16 (2 ^ b) &&& endsFailure ≠ 0) ∨ (m = .integrityHold ∧ BitVec.ofNat 16 (2 ^ b) &&& endsIntegrity ≠ 0)

theorem State.startAgain_high (n : Nat) (f : Bool) (h : (s.seq.boot && !s.seq.vbatOk) = false) : s.startAgain n f = s.startSequence n f :=
  if_neg (by rw [h]; decide)

/-- R236: a wake condition that starts a sequence, with `VBAT_AON` present or no service boot. -/
theorem State.wake_starts (hb : (s.seq.boot && !s.seq.vbatOk) = false) (hr : s.seq.resetLow = false) (hm : StartsOn b s.seq.mode) :
    s.wake b = s.startSequence (2 ^ b) true := by
  have hgo : (if s.seq.resetLow then s else s.startAgain (2 ^ b) true) = s.startSequence (2 ^ b) true := by
    rw [if_neg (by simp [hr]), State.startAgain_high _ _ hb]
  unfold State.wake
  obtain h | ⟨h, hw⟩ | ⟨h, hw⟩ := hm
  · simp only [h]
    rw [if_neg (by rw [hb]; simp), hgo]
  · simp only [h]
    rw [if_neg hw, hgo]
  · simp only [h]
    rw [if_neg hw, hgo]

/-- R236: a wake condition that meets a shutdown or a hold-off is noted. -/
theorem State.wake_notes (h : s.seq.mode = .shutdown ∨ s.seq.mode = .shutoff ∨ s.seq.mode = .holdoff) :
    s.wake b = s.updSeq fun q => { q with wakeNoted := q.wakeNoted ||| BitVec.ofNat 16 (2 ^ b) } := by
  unfold State.wake
  obtain h | h | h := h <;> simp only [h]

/-- R236: one that meets a sequence under way is recorded. -/
theorem State.wake_records (h : s.seq.mode = .sequencing) :
    s.wake b = s.updSeq fun q => { q with wakeCause := q.wakeCause ||| BitVec.ofNat 16 (2 ^ b) } := by
  unfold State.wake
  simp only [h]

/-- R236: what a sequence that a wake has started shows of the wake. -/
theorem State.startSequence_wakeCause (n : Nat) (hn : (BitVec.ofNat 16 n).getLsbD b = true) :
    (s.startSequence n true).seq.wakeCause.getLsbD b = true ∧
      (s.seq.mode = .retention → (s.startSequence n true).seq.wakeCause = BitVec.ofNat 16 n) := by
  rw [State.startSequence_seq]
  refine ⟨?_, fun h => ?_⟩
  · show ((if s.seq.mode == .retention then 0 else s.seq.wakeCause) ||| BitVec.ofNat 16 n).getLsbD b = true
    rw [BitVec.getLsbD_or, hn, Bool.or_true]
  · show (if s.seq.mode == .retention then 0 else s.seq.wakeCause) ||| BitVec.ofNat 16 n = BitVec.ofNat 16 n
    rw [if_pos (by simp [h])]
    exact BitVec.zero_or

/-- R236: a state to which a wake row has brought `IGN`, `VBOOT`, `RESET_N` and the address; all else stands. -/
def WakeRow (s u : State) : Prop :=
  u = { s with seq := u.seq, bus := u.bus } ∧ u.seq.mode = s.seq.mode ∧ u.seq.step = s.seq.step ∧ u.seq.boot = s.seq.boot ∧ u.seq.vbatOk = s.seq.vbatOk ∧
    u.seq.wakeCause = s.seq.wakeCause ∧ u.seq.wakeNoted = s.seq.wakeNoted

/-- R236: what the start of a sequence by wake b leaves. -/
def Started (b : Nat) (s t : State) : Prop :=
  t.seq.mode = .sequencing ∧ t.seq.step = 0 ∧ t.seq.stepTick = s.tick ∧ t.seq.retries = 0 ∧ t.seq.wakeCause.getLsbD b = true ∧
    (s.seq.mode = .retention → t.seq.wakeCause = BitVec.ofNat 16 (2 ^ b)) ∧ t.locked = false ∧ t.params = State.reset.params ∧
    t.ledger = State.reset.ledger ∧ t.host = {} ∧ t.otp.low = s.otp.low ∧ t.otp.high = s.otp.high ∧ t.tick = s.tick ∧
    t.fltSeq = { s.fltSeq with stamp := 0 }

theorem WakeRow.starts (h : WakeRow s u) (hb : (BitVec.ofNat 16 (2 ^ b)).getLsbD b = true) (hs : s.seq.boot = false) (hr : u.seq.resetLow = false)
    (hm : StartsOn b s.seq.mode) : Started b s (u.wake b) := by
  obtain ⟨e, e1, -, e3, -, -, -⟩ := h
  rw [State.wake_starts (by rw [e3, hs]; rfl) hr (by rw [e1]; exact hm)]
  obtain ⟨f1, f2, f3, f4, f5, f6, f7, f8, -⟩ := State.startSequence_fresh (s := u) (2 ^ b)
  obtain ⟨w1, w2⟩ := State.startSequence_wakeCause (s := u) (2 ^ b) hb
  have hq := State.startSequence_seq (s := u) (2 ^ b) true
  refine ⟨by rw [hq]; rfl, by rw [hq]; rfl, ?_, by rw [hq]; rfl, w1, fun h => w2 (e1.trans h), f1, f2, f3, f4, ?_, ?_, ?_, ?_⟩
  · rw [hq, e]
    rfl
  · rw [f5, e]
  · rw [f6, e]
  · rw [f7, e]
  · rw [f8, e]

/-- The rows of `IGN`, `VBOOT` and `RESET_N` as the wake they give. -/
inductive WakeOf (s : State) : Instr → Nat → State → Prop
  | ign : WakeOf s .ignWake 0 (s.updSeq fun q => { q with ign := true, ignLowFrom := none })
  | vboot (h : s.seq.mode = .sequencing ∨
      (s.seq.vbatOk = true ∧ (s.seq.mode = .retention ∨ s.seq.mode = .shutdown ∨ s.seq.mode = .shutoff ∨ s.seq.mode = .holdoff))) :
      WakeOf s .vbootQualify 2 (s.updSeq fun q => { q with vboot := true })
  | reset (a : Nat) (h : s.seq.mode ≠ .unpowered) :
      WakeOf s (.resetNRelease a) 3 { s with seq := { s.seq with resetLow := false }, bus := { s.bus with addrPins := a % 8 } }

theorem WakeOf.row {c : Instr} (h : WakeOf s c b u) : WakeRow s u := by
  cases h <;> exact ⟨rfl, rfl, rfl, rfl, rfl, rfl, rfl⟩

theorem WakeOf.bit {c : Instr} (h : WakeOf s c b u) : (BitVec.ofNat 16 (2 ^ b)).getLsbD b = true := by
  cases h <;> decide

theorem WakeOf.exec {c : Instr} (h : WakeOf s c b u) : exec c s = .next (u.wake b) := by
  cases h with
  | ign => rfl
  | vboot h =>
    refine congrArg Host.Outcome.next ?_
    unfold vbootQualify
    obtain h | ⟨hv, h | h | h | h⟩ := h
    · simp only [h]
    · simp only [h, hv]
      rfl
    · simp only [h, hv]
      rfl
    · simp only [h, hv]
      rfl
    · simp only [h, hv]
      rfl
  | reset a h => exact congrArg Host.Outcome.next (if_neg (by simpa using h))

/-! ### `VBAT_AON` comes up (R236, R240, R243, R401, R431) -/

theorem State.raiseAon_sticky (h : s.fltAon.sticky = 0) (i : Nat) : (s.raise .aon i).fltAon.sticky = BitVec.ofNat 16 (2 ^ i) := by
  obtain ⟨a, n, q, e⟩ | ⟨h', -⟩ := s.raise_shape .aon i
  · rw [e]
    show (s.fltAon.occur i s.firstFrame s.stampNow).sticky = _
    unfold Flt.occur
    rw [if_pos h]
  · have h0 : s.fltAon.sticky.getLsbD i = true := h'
    rw [h] at h0
    simp at h0

/-- The part in service boot as `VBAT_AON` comes up. -/
def State.vbatBack (s : State) (high : Bool) (a : Nat) : State :=
  ((s.updSeq fun q => { q with vbatOk := true, ign := high }).vbatFresh a).raise .aon 0

theorem vbat_ends_failure (high : Bool) (a : Nat) (hv : s.seq.vbatOk = false) (hr : s.seq.resetLow = false)
    (hm : s.seq.mode = .seqFailure ∨ s.seq.mode = .integrityHold) :
    Goes (.vbatAonPowerOn high a) s fun t =>
      t.seq.mode = .sequencing ∧ t.seq.step = 0 ∧ t.seq.retries = 0 ∧ t.seq.wakeCause.getLsbD 4 = true ∧ t.seq.vbatOk = true ∧
        t.fltAon.sticky = 1 ∧ t.fltSeq.sticky = 0 ∧ t.bus.addrPins = a % 8 := by
  have hseq : (s.vbatBack high a).seq = { s.seq with vbatOk := true, ign := high } := State.raise_seq _ _ _
  have haon : (s.vbatBack high a).fltAon.sticky = 1 := State.raiseAon_sticky rfl 0
  have hfr := raiseAon_frame (s := (s.updSeq fun q => { q with vbatOk := true, ign := high }).vbatFresh a) 0
  have hflt : (s.vbatBack high a).fltSeq.sticky = 0 := by
    unfold State.vbatBack
    rw [hfr]
    rfl
  have hbus : (s.vbatBack high a).bus.addrPins = a % 8 := by
    unfold State.vbatBack
    rw [hfr]
    rfl
  have hstart : StartsOn 4 (s.vbatBack high a).seq.mode := by
    rw [hseq]
    obtain h | h := hm
    · exact .inr (.inl ⟨h, by decide⟩)
    · exact .inr (.inr ⟨h, by decide⟩)
  have hw : vbatAonPowerOn high a s = (s.vbatBack high a).wake 4 := by
    have h1 : vbatAonPowerOn high a s = s.vbatInBoot high a :=
      (if_neg (by simp [hv])).trans (if_pos (by obtain h | h := hm <;> simp [h]))
    have hmode : (s.vbatBack high a).seq.mode = s.seq.mode := by rw [hseq]
    rw [h1]
    unfold State.vbatBack at hmode ⊢
    unfold State.vbatInBoot
    obtain h | h := hm <;> simp only [hmode, h]
  generalize s.vbatBack high a = v at *
  rw [State.wake_starts (by rw [hseq]; simp) (by rw [hseq]; exact hr) hstart] at hw
  refine ⟨_, congrArg Host.Outcome.next hw, ?_⟩
  obtain ⟨-, -, -, -, -, -, -, f8, f9, f10, -⟩ := State.startSequence_fresh (s := v) (2 ^ 4)
  obtain ⟨w1, -⟩ := State.startSequence_wakeCause (s := v) (b := 4) (2 ^ 4) (by decide)
  have hq := State.startSequence_seq (s := v) (2 ^ 4) true
  rw [f8, f9, f10]
  refine ⟨by rw [hq]; rfl, by rw [hq]; rfl, by rw [hq]; rfl, w1, ?_, haon, hflt, hbus⟩
  rw [hq]
  show v.seq.vbatOk = true
  rw [hseq]

/-- The always-on domain as it leaves its power-on reset. -/
def State.vbatUp (s : State) (high : Bool) (a : Nat) : State :=
  (({ s.aonReset with
      otp := s.aonReset.otp.sense s.freeN, freeN := s.freeN + 1024, bus := { s.aonReset.bus with addrPins := a % 8 } } : State).updSeq
    fun q => { q with mode := .retention, vbatOk := true, ign := high }).raise .aon 0

theorem vbat_powers_on (high : Bool) (a : Nat) (hv : s.seq.vbatOk = false) (hm : s.seq.mode = .unpowered) :
    Goes (.vbatAonPowerOn high a) s fun t =>
      t.seq.mode = (if high then .sequencing else .retention) ∧ t.seq.wakeCause = (if high then 0x0010 else 0) ∧ t.seq.vbatOk = true ∧
        t.seq.ign = high ∧ t.fltAon.sticky.getLsbD 0 = true ∧ t.bus.addrPins = a % 8 ∧ t.otp.low = s.otp.low ∧ t.otp.high = s.otp.high ∧
        t.params = State.reset.params ∧ t.ret.banks = State.reset.ret.banks := by
  have hseq : (s.vbatUp high a).seq = { State.reset.seq with mode := .retention, vbatOk := true, ign := high } := State.raise_seq _ _ _
  have haon : (s.vbatUp high a).fltAon.sticky = 1 := State.raiseAon_sticky rfl 0
  have hx : (s.vbatUp high a).bus.addrPins = a % 8 ∧ (s.vbatUp high a).otp.low = s.otp.low ∧ (s.vbatUp high a).otp.high = s.otp.high ∧
      (s.vbatUp high a).params = State.reset.params ∧ (s.vbatUp high a).ret.banks = State.reset.ret.banks := by
    unfold State.vbatUp
    rw [raiseAon_frame]
    exact ⟨rfl, rfl, rfl, rfl, rfl⟩
  have hw : vbatAonPowerOn high a s = if high then (s.vbatUp high a).wake 4 else s.vbatUp high a :=
    (if_neg (by simp [hv])).trans (if_neg (by simp [hm]))
  generalize s.vbatUp high a = v at *
  obtain ⟨x1, x2, x3, x4, x5⟩ := hx
  cases high with
  | false =>
    refine ⟨v, congrArg Host.Outcome.next hw, ?_⟩
    dsimp only
    rw [hseq, haon]
    exact ⟨rfl, rfl, rfl, rfl, by decide, x1, x2, x3, x4, x5⟩
  | true =>
    rw [if_pos rfl, State.wake_starts (by rw [hseq]; rfl) (by rw [hseq]; rfl) (.inl (by rw [hseq]))] at hw
    refine ⟨_, congrArg Host.Outcome.next hw, ?_⟩
    obtain ⟨-, f2, -, -, f5, f6, -, -, f9, f10, f11⟩ := State.startSequence_fresh (s := v) (2 ^ 4)
    have hq := State.startSequence_seq (s := v) (2 ^ 4) true
    rw [hq, hseq, f2, f5, f6, f9, f10, f11]
    refine ⟨rfl, rfl, rfl, rfl, ?_, x1, x2, x3, rfl, x5⟩
    show v.fltAon.sticky.getLsbD 0 = true
    rw [haon]
    decide

/-! ### A total shut-off keeps the bank records -/

theorem State.cairnAbandon_banks : s.cairnAbandon.ret.banks = s.ret.banks := by
  unfold State.cairnAbandon
  split
  · rfl
  · rw [raiseAon_frame]
    rfl

theorem State.feedOff_ret (x : Nat) : (s.feedOff x).ret = s.ret := by
  have h : (s.gatesOff x .off).ret = s.ret := by
    unfold State.gatesOff
    rw [((OnlyFeed.refl x (s.updFeed x _)).setPg false).1]
    rfl
  unfold State.feedOff State.giveTurn
  split
  · exact h
  · exact h

theorem State.feedsDown_ret : s.feedsDown.ret = s.ret := by
  refine overN_keeps State.ret (fun x t => ?_) 2 s
  show (if (t.feed x).st == .off then t else t.feedOff x).ret = t.ret
  split
  · rfl
  · exact State.feedOff_ret x

theorem State.handOver_ret : s.handOver.ret = s.ret := by
  unfold State.handOver
  split <;> rfl

theorem State.busLost_ret : s.busLost.ret = s.ret := by
  unfold State.busLost
  split <;> rfl

theorem State.vioDown_ret : s.vioDown.ret = s.ret := by rw [State.vioDown_frame]

theorem State.outputsOff_ret : s.outputsOff.ret = s.ret := by
  rw [(State.outputsOff_spec s).1]

theorem State.vcoreDown_banks : s.vcoreDown.ret.banks = s.ret.banks := by
  unfold State.vcoreDown
  dsimp only
  rw [State.handOver_ret, State.busLost_ret]
  exact State.cairnAbandon_banks

theorem State.totalShutOff_banks (after : After) (hold : Nat) : (s.totalShutOff after hold).ret.banks = s.ret.banks := by
  unfold State.totalShutOff State.updSeq
  dsimp only
  rw [State.vioDown_ret, State.vcoreDown_banks, State.feedsDown_ret, State.outputsOff_ret]

/-! ### The statement -/

/-- R262: the sequencer as `IGN` changes. -/
def Seq.ignSet (q : Seq) (high : Bool) (frame : Nat) : Seq :=
  { q with ign := high, ignLowFrom := if high then none else some frame, sleepAt := if high then none else q.sleepAt }

theorem State.pushEvent_only (k i : Nat) (d : List Byte) :
    s.pushEvent k i d = { s with attn := (s.pushEvent k i d).attn, events := (s.pushEvent k i d).events } := rfl

theorem ignChange_eq (high : Bool) (hm : s.seq.mode ≠ .unpowered) :
    ignChange high s = if s.seq.ign != high && s.seq.mode == .running then
      (s.updSeq fun q => q.ignSet high s.frame).pushEvent 0x30 0 [byteOf (b1 high)] else s.updSeq fun q => q.ignSet high s.frame :=
  if_neg (by simpa using hm)

theorem ignChange_spec (high : Bool) (hm : s.seq.mode ≠ .unpowered) :
    Goes (.ignChange high) s fun t =>
      t = { s with seq := t.seq, attn := t.attn, events := t.events } ∧ t.seq.ign = high ∧ t.seq.mode = s.seq.mode ∧
        (high = true → t.seq.sleepAt = none ∧ t.seq.ignLowFrom = none) ∧ (high = false → t.seq.ignLowFrom = some s.frame) ∧
        (s.seq.ign ≠ high → s.seq.mode = .running → t.attn.pending.getLsbD (eventAttn 0x30) = true) ∧
        (s.seq.ign = high → t.attn = s.attn) := by
  refine ⟨_, congrArg Host.Outcome.next (ignChange_eq high hm), ?_⟩
  have hq : ∀ t : State, t.seq = s.seq.ignSet high s.frame → t.seq.ign = high ∧ t.seq.mode = s.seq.mode ∧
      (high = true → t.seq.sleepAt = none ∧ t.seq.ignLowFrom = none) ∧ (high = false → t.seq.ignLowFrom = some s.frame) := fun t ht => by
    rw [ht]
    refine ⟨rfl, rfl, ?_, ?_⟩
    · rintro rfl
      exact ⟨rfl, rfl⟩
    · rintro rfl
      rfl
  dsimp only
  split
  next h =>
    have hne : s.seq.ign ≠ high := by simp at h; exact h.1
    obtain ⟨q1, q2, q3, q4⟩ := hq _ (State.pushEvent_seq (s.updSeq fun q => q.ignSet high s.frame) 0x30 0 [byteOf (b1 high)])
    refine ⟨?_, q1, q2, q3, q4, fun _ _ => State.pushEvent_attn _ _ _ (by decide), fun e => absurd e hne⟩
    generalize hu : s.updSeq (fun q => q.ignSet high s.frame) = u
    rw [State.pushEvent_only, ← hu]
    rfl
  next h =>
    obtain ⟨q1, q2, q3, q4⟩ := hq (s.updSeq fun q => q.ignSet high s.frame) rfl
    exact ⟨rfl, q1, q2, q3, q4, fun e hr => absurd (by simp [e, hr]) h, fun _ => rfl⟩

theorem bootPortSelect_spec {p : Nat} (hm : s.seq.mode = .serviceBoot) (hl : s.locked = true) (hb : s.atBoundary = true)
    (hn : s.seq.bootPort = none) (hs : s.Shaped) (hc : bootCandidate s = some p) :
    Goes .bootPortSelect s fun t =>
      t = { s with seq := { s.seq with bootPort := some p }, ridges := t.ridges } ∧ (t.ridge (ridgeOfPort p)).run = .running ∧
        (t.ridge (ridgeOfPort p)).bank.base = 3 ∧ (t.ridge (ridgeOfPort p)).activeSrc = 3 ∧
        ∀ x, x ≠ ridgeOfPort p → t.ridge x = s.ridge x := by
  have hp : p < 24 := by simpa using List.mem_of_find?_eq_some hc
  have hr : ridgeOfPort p < s.ridges.length := by
    rw [hs.2.2.1]
    unfold ridgeOfPort
    omega
  have hx : bootPortSelect s = (s.updSeq fun q => { q with bootPort := some p }).updRidge (ridgeOfPort p) fun r =>
      { Ridge.start (lawBank 3) 3 (lawId 3) s.frameCount r with run := .running, stagingState := 0 } :=
    (if_pos (by simp [hm, hl, hb, hn])).trans (by rw [hc])
  have hrun := State.ridge_updRidge (s.updSeq fun q => { q with bootPort := some p }) (ridgeOfPort p)
    (fun r => { Ridge.start (lawBank 3) 3 (lawId 3) s.frameCount r with run := .running, stagingState := 0 }) hr
  refine ⟨_, congrArg Host.Outcome.next hx, rfl, ?_, ?_, ?_, fun x hx => ?_⟩
  · rw [hrun]
  · rw [hrun]
    rfl
  · rw [hrun]
    rfl
  · exact State.ridge_updRidge_ne _ _ _ _ hx

/-- Settles O51: each wake row through `State.wake`, the power-on through the state it reaches, the rest from the definitions. -/
theorem wakesAndSupplies : Obligations.WakesAndSupplies := by
  refine ⟨?start, ?note, ?record, fun s high a hv hr hm => vbat_ends_failure high a hv hr hm, fun s hm => ?hold,
    fun s high a hv hm => vbat_powers_on high a hv hm, fun s hv => ⟨?drop, ?dropBoot⟩, ?low, fun s high hm => ignChange_spec high hm,
    fun s p hm hl hb hn hs hc => bootPortSelect_spec hm hl hb hn hs hc, fun s hb => ⟨?lost, ?lostVbat⟩, fun s hb hm => ?gone⟩
  case start =>
    intro s c b hb hc
    obtain ⟨rfl, rfl, hr, hm⟩ | ⟨rfl, rfl, hr, hv, hm⟩ | ⟨⟨a, rfl⟩, rfl, hm⟩ := hc
    · have hw : WakeOf s .ignWake 0 _ := .ign
      exact ⟨_, hw.exec, hw.row.starts hw.bit hb hr (hm.imp id fun h => .inl ⟨h, by decide⟩)⟩
    · have hw : WakeOf s .vbootQualify 2 _ := .vboot (.inr ⟨hv, .inl hm⟩)
      exact ⟨_, hw.exec, hw.row.starts hw.bit hb hr (.inl hm)⟩
    · have hw : WakeOf s (.resetNRelease a) 3 _ := .reset a (by obtain h | h | h := hm <;> simp [h])
      exact ⟨_, hw.exec, hw.row.starts hw.bit hb rfl (hm.imp id fun h => h.imp (fun h => ⟨h, by decide⟩) fun h => ⟨h, by decide⟩)⟩
  case note =>
    intro s c b hm hc
    have hw : ∃ u, WakeOf s c b u := by
      obtain ⟨rfl, rfl⟩ | ⟨rfl, rfl, hv⟩ | ⟨⟨a, rfl⟩, rfl⟩ := hc
      · exact ⟨_, .ign⟩
      · exact ⟨_, .vboot (.inr ⟨hv, .inr hm⟩)⟩
      · exact ⟨_, .reset a (by obtain h | h | h := hm <;> simp [h])⟩
    obtain ⟨u, hw⟩ := hw
    obtain ⟨e, e1, -, -, -, -, e6⟩ := hw.row
    refine ⟨_, hw.exec.trans (congrArg Host.Outcome.next (State.wake_notes (by rw [e1]; exact hm))), ?_, e1, ?_⟩
    · rw [e]
      rfl
    · show u.seq.wakeNoted ||| _ = _
      rw [e6]
  case record =>
    intro s c b hm hc
    have hw : ∃ u, WakeOf s c b u := by
      obtain ⟨rfl, rfl⟩ | ⟨rfl, rfl⟩ | ⟨⟨a, rfl⟩, rfl⟩ := hc
      · exact ⟨_, .ign⟩
      · exact ⟨_, .vboot (.inl hm)⟩
      · exact ⟨_, .reset a (by simp [hm])⟩
    obtain ⟨u, hw⟩ := hw
    obtain ⟨e, e1, e2, -, -, e5, -⟩ := hw.row
    refine ⟨_, hw.exec.trans (congrArg Host.Outcome.next (State.wake_records (by rw [e1]; exact hm))), ?_, e1.trans hm, e2, ?_⟩
    · rw [e]
      rfl
    · show u.seq.wakeCause ||| _ = _
      rw [e5]
  case hold =>
    refine congrArg Host.Outcome.next ?_
    unfold ignWake State.wake State.updSeq
    simp only [hm]
    exact if_pos rfl
  case drop => exact fun hb => ⟨_, congrArg Host.Outcome.next ((if_neg (by simp [hv])).trans (if_neg (by simp [hb]))), rfl, rfl, rfl, rfl, rfl⟩
  case dropBoot => exact fun hb => congrArg Host.Outcome.next ((if_neg (by simp [hv])).trans (if_pos hb))
  case low =>
    intro s hp
    have hx : resetNAssert s = ((s.updSeq fun q => { q with resetLow := true }).raise .seq 4).totalShutOff .rest 640 :=
      (if_neg (by obtain h | h := hp <;> cases hm : s.seq.mode <;> simp [State.powered, hm] at h ⊢)).trans
        (if_pos (by obtain h | h := hp <;> simp [State.powered, State.updSeq] at h ⊢ <;> simp [h]))
    refine ⟨_, congrArg Host.Outcome.next hx, ?_⟩
    obtain ⟨t1, t2, t3, -⟩ := State.totalShutOff_spec (s := (s.updSeq fun q => { q with resetLow := true }).raise .seq 4) .rest 640
    rw [t1, t3, State.raise_seq]
    exact ⟨rfl, rfl, rfl, rfl, t2, State.raiseSeq_sticky (by decide)⟩
  case lost => exact fun hv => ⟨_, congrArg Host.Outcome.next (if_pos (by simp [hb, hv])), rfl, rfl, rfl, rfl, rfl, rfl, rfl⟩
  case lostVbat =>
    intro hv hm
    refine ⟨s.bootLost, congrArg Host.Outcome.next ((if_neg (by simp [hv])).trans (if_pos (by simp [hm]))), ?_⟩
    obtain ⟨-, t2, -, -, t5, -⟩ := State.totalShutOff_spec (s := s) .rest 640
    have hb := State.totalShutOff_banks (s := s) .rest 640
    unfold State.bootLost
    generalize s.totalShutOff .rest 640 = v at t2 t5 hb ⊢
    unfold State.updSeq
    dsimp only
    rw [t5]
    exact ⟨t2, rfl, rfl, rfl, rfl, rfl, rfl, rfl, rfl, rfl, rfl, rfl, rfl, rfl, hb⟩
  case gone =>
    refine congrArg Host.Outcome.next ((if_neg ?_).trans (if_neg (by simpa using hm)))
    obtain h | h := hb <;> simp [h]

end Sys2Proof.Machine
end

section
/-! PROOF. The steps of the sequence. -/
namespace Sys2Proof.Machine
variable {s t u : State}

/-! ### Sweeps with an operation of each index -/

theorem overN_updPhaseOf (g : Nat → Phase → Phase) (n : Nat) (s : State) :
    overN n (fun k t => t.updPhase k (g k)) s = { s with phases := (overN n (fun k t => t.updPhase k (g k)) s).phases } ∧
      (overN n (fun k t => t.updPhase k (g k)) s).phases.length = s.phases.length ∧
      (∀ k, n ≤ k → (overN n (fun k t => t.updPhase k (g k)) s).phase k = s.phase k) ∧
      ∀ k, k < n → k < s.phases.length → (overN n (fun k t => t.updPhase k (g k)) s).phase k = g k (s.phase k) := by
  induction n with
  | zero => exact ⟨rfl, rfl, fun _ _ => rfl, fun k hk => absurd hk (by omega)⟩
  | succ n ih =>
    obtain ⟨h1, h2, h3, h4⟩ := ih
    rw [overN_succ]
    generalize overN n (fun k t => t.updPhase k (g k)) s = u at h1 h2 h3 h4
    refine ⟨?_, (u.updPhase_length n _).trans h2, fun k hk => ?_, fun k hk hl => ?_⟩
    · rw [h1]
      rfl
    · rw [State.phase_updPhase_ne _ _ _ _ (by omega), h3 k (by omega)]
    · by_cases hkn : k = n
      · subst hkn
        rw [State.phase_updPhase _ _ _ (by omega), h3 k (Nat.le_refl k)]
      · rw [State.phase_updPhase_ne _ _ _ _ hkn, h4 k (by omega) hl]

theorem overN_updRidgeOf (g : Nat → Ridge → Ridge) (n : Nat) (s : State) :
    overN n (fun k t => t.updRidge k (g k)) s = { s with ridges := (overN n (fun k t => t.updRidge k (g k)) s).ridges } ∧
      (overN n (fun k t => t.updRidge k (g k)) s).ridges.length = s.ridges.length ∧
      (∀ k, n ≤ k → (overN n (fun k t => t.updRidge k (g k)) s).ridge k = s.ridge k) ∧
      ∀ k, k < n → k < s.ridges.length → (overN n (fun k t => t.updRidge k (g k)) s).ridge k = g k (s.ridge k) := by
  induction n with
  | zero => exact ⟨rfl, rfl, fun _ _ => rfl, fun k hk => absurd hk (by omega)⟩
  | succ n ih =>
    obtain ⟨h1, h2, h3, h4⟩ := ih
    rw [overN_succ]
    generalize overN n (fun k t => t.updRidge k (g k)) s = u at h1 h2 h3 h4
    refine ⟨?_, (u.updRidge_length n _).trans h2, fun k hk => ?_, fun k hk hl => ?_⟩
    · rw [h1]
      rfl
    · rw [State.ridge_updRidge_ne _ _ _ _ (by omega), h3 k (by omega)]
    · by_cases hkn : k = n
      · subst hkn
        rw [State.ridge_updRidge _ _ _ (by omega), h3 k (Nat.le_refl k)]
      · rw [State.ridge_updRidge_ne _ _ _ _ hkn, h4 k (by omega) hl]

/-- What a sweep of port operations leaves: the ports and what the blocks share may differ. -/
def PortsOnly (s t : State) : Prop :=
  t = { s with ports := t.ports, faultN := t.faultN, attn := t.attn, irq := t.irq, events := t.events, host := t.host, tun := t.tun
               tester := t.tester, svc := { s.svc with initPort := t.svc.initPort } } ∧
  t.ports.length = s.ports.length

theorem PortsOnly.refl (s : State) : PortsOnly s s := ⟨rfl, rfl⟩

theorem PortsOnly.trans_only {p : Nat} (h : PortsOnly s t) (k : OnlyPort p t u) : PortsOnly s u := by
  obtain ⟨h1, h2⟩ := h
  obtain ⟨k1, k2, -⟩ := k
  refine ⟨?_, k2.trans h2⟩
  rw [k1, h1]

/-- A sweep of operations that each touch their own port: port q is what its operation makes of it. -/
theorem overN_onlyPort {f : Nat → State → State} (hf : ∀ p t, OnlyPort p t (f p t)) (n : Nat) (s : State) :
    PortsOnly s (overN n f s) ∧ (∀ q, n ≤ q → (overN n f s).port q = s.port q) ∧
      ∀ q, q < n → ∃ u : State, PortsOnly s u ∧ u.port q = s.port q ∧ (overN n f s).port q = (f q u).port q := by
  induction n with
  | zero => exact ⟨PortsOnly.refl s, fun _ _ => rfl, fun q hq => absurd hq (by omega)⟩
  | succ n ih =>
    obtain ⟨h1, h3, h4⟩ := ih
    rw [overN_succ]
    generalize overN n f s = u at h1 h3 h4
    obtain ⟨-, -, k3⟩ := hf n u
    refine ⟨h1.trans_only (hf n u), fun q hq => (k3 q (by omega)).trans (h3 q (by omega)), fun q hq => ?_⟩
    by_cases hqn : q = n
    · subst hqn
      exact ⟨u, h1, h3 q (Nat.le_refl q), rfl⟩
    · obtain ⟨v, v1, v3, v4⟩ := h4 q (by omega)
      exact ⟨v, v1, v3, (k3 q hqn).trans v4⟩

/-! ### Rails of steps 0 to 5 (R238, R239) -/

theorem seqStepQualify_rail (m : StepSense) (r : Nat) (hm : s.seq.mode = .sequencing) (h5 : s.seq.step ≤ 5)
    (hs : s.seq.step ≠ 3 ∨ s.seq.sub = 0) (h1 : s.seq.subTick + 3 ≤ s.tick) (h2 : s.tick ≤ s.seq.subTick + s.otp.seqTmo) :
    exec (.seqStepQualify m r) s = .next (railQualified m.rp s) := by
  refine congrArg Host.Outcome.next ((if_pos ?_).trans (if_pos (by simp [h1, h2])))
  unfold State.railStep
  obtain h | h := hs <;> simp [hm, h5, h]

/-- R75: the ports as `VIO` comes up. -/
def State.vioUp (s : State) (rp : List Nat) : State :=
  overN 24 (fun p t => t.updCc p fun c => { c with passiveRd := c.passiveRd && keepsPassive s rp p }) s

theorem State.vioUp_spec (rp : List Nat) :
    s.vioUp rp = { s with ports := (s.vioUp rp).ports } ∧
      (s.Shaped → ∀ p, p < 24 → (s.vioUp rp).port p =
        { s.port p with cc := { s.cc p with passiveRd := (s.cc p).passiveRd && keepsPassive s rp p } }) := by
  obtain ⟨h1, -, -, h⟩ := overN_portAlone (f := fun p t => t.updCc p fun c => { c with passiveRd := c.passiveRd && keepsPassive s rp p })
    (fun p t => (PortAlone.refl p t).updCc _) 24 s
  refine ⟨h1, fun hs p hp => ?_⟩
  obtain ⟨u, -, u2, u3, u4⟩ := h p hp
  unfold State.vioUp
  rw [u4]
  refine (State.port_updPort _ _ _ (by rw [u2, hs.1]; exact hp)).trans ?_
  rw [u3]
  rfl

theorem railQualified_vio (rp : List Nat) (h : s.seq.step = 1) :
    railQualified rp s = (s.vioUp rp).updSeq fun q => q.enter 2 s.tick s.frame := by
  unfold railQualified
  simp only [h]
  rfl

theorem railQualified_next (rp : List Nat) (h : s.seq.step = 0 ∨ s.seq.step = 2 ∨ s.seq.step = 4) :
    railQualified rp s = s.updSeq fun q => q.enter (s.seq.step + 1) s.tick s.frame := by
  unfold railQualified
  obtain h | h | h := h <;> simp only [h]

theorem railQualified_three (rp : List Nat) (h : s.seq.step = 3) :
    railQualified rp s = s.updSeq fun q => { q with sub := 1, subTick := s.tick } := by
  unfold railQualified
  simp only [h]

theorem railQualified_five (rp : List Nat) (h : s.seq.step = 5) :
    railQualified rp s =
      if s.otp.modes.testBit 2 && s.seq.sub == 0 then s.updSeq fun q => { q with sub := 1, subTick := s.tick } else beginStep6 s := by
  unfold railQualified
  simp only [h]

/-! ### Step 6 (R215, R241) -/

/-- What the cairns of the feeds may change as step 6 takes them up. -/
def ItemsTaken (s t : State) : Prop :=
  t = { s with params := t.params, inForce := t.inForce, ret := t.ret, fltAon := t.fltAon, faultN := t.faultN, attn := t.attn, irq := t.irq }

theorem ItemsTaken.refl (s : State) : ItemsTaken s s := rfl

theorem ItemsTaken.trans (h : ItemsTaken s t) (k : ItemsTaken t u) : ItemsTaken s u := by
  unfold ItemsTaken at *
  rw [k, h]

theorem ItemsTaken.checkCairn (n : Nat) : ItemsTaken s (s.checkCairn n) := by
  unfold State.checkCairn
  dsimp only
  split
  · rw [raiseAon_frame]
    rfl
  · exact ItemsTaken.refl s

theorem ItemsTaken.item (i v : Nat) : ItemsTaken s (CField.write v s (.item i)) := rfl

theorem ItemsTaken.fieldsTake (ids : List Nat) (bs : List Byte) (s : State) : ItemsTaken s (fieldsTake (ids.map .item) bs s) := by
  induction ids generalizing bs s with
  | nil => exact ItemsTaken.refl s
  | cons i l ih => exact (ItemsTaken.item i _).trans (ih _ _)

theorem ItemsTaken.fieldsDefault (ids : List Nat) (s : State) : ItemsTaken s (fieldsDefault (ids.map .item) s) := by
  induction ids generalizing s with
  | nil => exact ItemsTaken.refl s
  | cons i l ih => exact (ItemsTaken.item i _).trans (ih _)

theorem ItemsTaken.takeItems (n off scope i a m : Nat) : ItemsTaken s (s.takeFields n (itemsFrom scope i a m) off) := by
  have hl : itemsFrom scope i a m = ((List.range m).map fun j => pid scope i (a + j)).map .item := by simp [itemsFrom, Function.comp_def]
  unfold State.takeFields
  dsimp only
  rw [hl]
  refine (ItemsTaken.checkCairn n).trans ?_
  split
  · exact ItemsTaken.fieldsTake _ _ _
  · exact ItemsTaken.fieldsDefault _ _

theorem ItemsTaken.takeFeedCairns (s : State) : ItemsTaken s (takeFeedCairns s) := by
  have h : Machine.takeFeedCairns s = (s.takeFields 2 (itemsFrom 1 0 0x10 9) 0).takeFields 3 (itemsFrom 1 1 0x10 9) 0 := by
    unfold Machine.takeFeedCairns
    rw [overN_succ, overN_succ]
    rfl
  rw [h]
  exact (ItemsTaken.takeItems 2 0 1 0 0x10 9).trans (ItemsTaken.takeItems 3 0 1 1 0x10 9)

theorem State.feed_updFeed_armed (x y : Nat) (f : Feed → Feed) (h : ∀ q, (f q).armed = q.armed) :
    ((s.updFeed x f).feed y).armed = (s.feed y).armed := by
  by_cases e : y = x
  · subst e
    by_cases l : y < s.feeds.length
    · rw [State.feed_updFeed _ _ _ l, h]
    · simp [State.updFeed, State.feed, l]
  · rw [State.feed_updFeed_ne _ _ _ _ e]

theorem State.setPg_armed (x y : Nat) (b : Bool) : ((s.setPg x b).feed y).armed = (s.feed y).armed := by
  unfold State.setPg
  extract_lets u v
  have hu : (u.feed y).armed = (s.feed y).armed := State.feed_updFeed_armed x y _ fun _ => rfl
  have hv : v.feeds = u.feeds := by
    unfold v
    split <;> rfl
  split
  · rfl
  · show (v.feed y).armed = _
    unfold State.feed at hu ⊢
    rw [hv, hu]

theorem State.feedOff_armed (x y : Nat) : ((s.feedOff x).feed y).armed = (s.feed y).armed := by
  have h : ((s.gatesOff x .off).feed y).armed = (s.feed y).armed :=
    (State.setPg_armed x y false).trans (State.feed_updFeed_armed x y _ fun _ => rfl)
  unfold State.feedOff State.giveTurn
  split
  · exact h
  · exact h

theorem State.feedEnable_armed (x y : Nat) : ((s.feedEnable x).feed y).armed = (s.feed y).armed := by
  have h : ∀ b, ((s.updFeed x fun f => { f with enable := b }).feed y).armed = (s.feed y).armed :=
    fun b => State.feed_updFeed_armed x y _ fun _ => rfl
  unfold State.feedEnable
  dsimp only
  split
  · split
    · exact h _
    · exact (State.feedOff_armed x y).trans (h _)
  · split
    · unfold State.feedQualify
      exact (State.feed_updFeed_armed x y (fun f => { f with st := .qualify, count := 0, frameOk := none, onRun := 0, holdOv := false }) fun _ => rfl).trans (h _)
    · exact h _

theorem State.feedEnable_seq (x : Nat) : (s.feedEnable x).seq = s.seq := by
  unfold State.feedEnable
  dsimp only
  split
  · split
    · rfl
    · exact (SeqKept.feedOff (s := s.updFeed x _) (x := x)).1
  · split <;> rfl

/-- R241: feed x is armed and its enable taken up. -/
def State.arm (s : State) (x : Nat) : State := (s.updFeed x fun f => { f with armed := true }).feedEnable x

theorem State.arm_seq (x : Nat) : (s.arm x).seq = s.seq := State.feedEnable_seq x

theorem State.arm_frame (x : Nat) : OnlyFeed x s (s.arm x) := ((OnlyFeed.refl x s).updFeed _).feedEnable

theorem State.arm_armed {x : Nat} (h : x < s.feeds.length) : ((s.arm x).feed x).armed = true := by
  unfold State.arm
  rw [State.feedEnable_armed, State.feed_updFeed _ _ _ h]

/-- R215, R241: what the beginning of step 6 leaves. -/
theorem beginStep6_spec (hs : s.Shaped) :
    (beginStep6 s).seq.step = 6 ∧ (beginStep6 s).seq.step6Good = false ∧ ((beginStep6 s).feed 0).armed = true ∧
      ((beginStep6 s).feed 1).armed = true ∧ (beginStep6 s).ports = s.ports := by
  have hi := ItemsTaken.takeFeedCairns s
  have hl := hs.2.2.2.1
  have he : beginStep6 s =
      (((takeFeedCairns s).updSeq fun q => { q.enter 6 s.tick s.frame with step6Good := false, step7Frame := none }).arm 0).arm 1 := by
    unfold beginStep6
    dsimp only
    rw [overN_succ, overN_succ]
    rfl
  rw [he]
  generalize hu : (takeFeedCairns s).updSeq
    (fun q => { q.enter 6 s.tick s.frame with step6Good := false, step7Frame := none }) = u
  have hs6 : u.seq.step = 6 ∧ u.seq.step6Good = false := by rw [← hu]; exact ⟨rfl, rfl⟩
  have hp : u.ports = s.ports ∧ u.feeds.length = 2 := by
    rw [← hu, hi]
    exact ⟨rfl, hl⟩
  obtain ⟨e1, l1, o1⟩ := State.arm_frame (s := u) 0
  obtain ⟨e2, l2, o2⟩ := State.arm_frame (s := u.arm 0) 1
  rw [State.arm_seq, State.arm_seq]
  refine ⟨hs6.1, hs6.2, ?_, State.arm_armed (by omega), ?_⟩
  · rw [o2 0 (by decide)]
    exact State.arm_armed (by omega)
  · rw [e2, ← hp.1]
    show (u.arm 0).ports = u.ports
    rw [e1]

/-! ### Step 7 (R23 to R26, R242) -/

theorem portFitting_spec {p : Nat} (b : Bool) (h : p < s.ports.length) :
    ((portFitting b p s).port p).inService = b ∧ (b = false → ((portFitting b p s).cc p).st = .outOfService) := by
  unfold portFitting
  cases b with
  | true =>
    rw [if_pos rfl, State.port_updPort _ _ _ h]
    exact ⟨rfl, nofun⟩
  | false =>
    rw [if_neg (by decide)]
    dsimp only
    have hl : (if (s.cc p).st.attached then s.disablePort p 0xA .bringup else s).ports.length = s.ports.length := by
      split
      · exact ((OnlyPort.refl p s).disablePort _ _).2.1
      · rfl
    generalize (if (s.cc p).st.attached then s.disablePort p 0xA .bringup else s) = u at hl ⊢
    have hu : p < (u.updPort p fun q => { q with inService := false }).ports.length := by
      rw [State.updPort_length]
      omega
    refine ⟨?_, fun _ => ?_⟩
    · rw [State.updCc_port_inService, State.port_updPort _ _ _ (by omega)]
    · unfold State.cc
      rw [State.cc_updCc _ _ _ hu]

/-- R242: the sequence ends only the sequencer's own way. -/
theorem seqComplete_frame (s : State) : seqComplete s = { s with seq := (seqComplete s).seq } := by
  unfold seqComplete
  split
  · split
    · rfl
    · split <;> rfl
  · rfl

theorem seqComplete_step (s : State) : (seqComplete s).seq.step = s.seq.step := by
  unfold seqComplete
  split
  · split
    · rfl
    · split <;> rfl
  · rfl

/-- R242: the sequence is complete once every raised ridge has qualified or stopped. -/
theorem seqComplete_running (hm : s.seq.mode = .sequencing) :
    (seqComplete s).seq.mode = .running ↔ ∀ x, x < 6 → (s.ridge x).stgen = true → (s.ridge x).stgenQual = true := by
  have hall : ((List.range 6).all fun r => !(s.ridge r).stgen || (s.ridge r).stgenQual) = true ↔
      ∀ x, x < 6 → (s.ridge x).stgen = true → (s.ridge x).stgenQual = true := by
    simp only [List.all_eq_true, List.mem_range, Bool.or_eq_true, Bool.not_eq_true']
    refine forall_congr' fun x => forall_congr' fun _ => ?_
    cases (s.ridge x).stgen <;> simp
  unfold seqComplete
  split
  next h =>
    rw [if_pos (by simp [hm])]
    exact ⟨fun _ => hall.1 h, fun _ => rfl⟩
  next h =>
    rw [hm]
    exact ⟨nofun, fun k => absurd (hall.2 k) h⟩

/-- R242: ridge r as the fitting read leaves it. -/
def Ridge.raised (l : List Nat) (tick r : Nat) (q : Ridge) : Ridge :=
  let up := (List.range 8).any fun j => imonFitted l (8 * r + j)
  { q with run := if up then .running else .depopulated, stgen := up, stgenQual := false, stgenTick := tick + ridgesBefore l r }

theorem Ridge.raised_spec (l : List Nat) (tick r : Nat) (q : Ridge) :
    ((q.raised l tick r).stgen = true ↔ ∃ j, j < 8 ∧ imonFitted l (8 * r + j) = true) ∧
      ((q.raised l tick r).run = .depopulated ↔ ∀ j, j < 8 → imonFitted l (8 * r + j) = false) := by
  unfold Ridge.raised
  dsimp only
  refine ⟨by simp, ?_⟩
  cases h : (List.range 8).any fun j => imonFitted l (8 * r + j) with
  | true =>
    obtain ⟨j, hj, hf⟩ := List.any_eq_true.1 h
    exact ⟨nofun, fun k => by simp [k j (List.mem_range.1 hj)] at hf⟩
  | false => exact ⟨fun _ j hj => by simpa using List.any_eq_false.1 h j (List.mem_range.2 hj), fun _ => rfl⟩

/-- R23: the fitting read. -/
def State.fitPhases (s : State) (l : List Nat) : State := overN 48 (fun k t => t.updPhase k fun f => { f with fitted := imonFitted l k }) s

/-- R242: the raising of `STGEN_r`. -/
def State.raiseRidges (s : State) (l : List Nat) (tick : Nat) : State := overN 6 (fun r t => t.updRidge r (Ridge.raised l tick r)) s

/-- R25: the ports after the fitting read. -/
def State.fitPorts (s : State) (l : List Nat) : State := overN 24 (fun p t => portFitting (imonFitted l (8 * (p / 4) + 2 * (p % 4))) p t) s

theorem beginStep7_eq (l : List Nat) :
    beginStep7 l s = seqComplete ((((s.fitPhases l).raiseRidges l (s.fitPhases l).tick).fitPorts l).updSeq fun q =>
      q.enter 7 (((s.fitPhases l).raiseRidges l (s.fitPhases l).tick).fitPorts l).tick
        (((s.fitPhases l).raiseRidges l (s.fitPhases l).tick).fitPorts l).frame) := by
  unfold State.fitPorts State.raiseRidges State.fitPhases Ridge.raised
  rfl

/-- R23 to R26, R242: what the beginning of step 7 leaves. -/
theorem beginStep7_spec (l : List Nat) (hs : s.Shaped) :
    (beginStep7 l s).seq.step = 7 ∧ (∀ k, k < 48 → ((beginStep7 l s).phase k).fitted = imonFitted l k) ∧
      (∀ x, x < 6 → (beginStep7 l s).ridge x = (s.ridge x).raised l s.tick x) ∧
      ∀ p, p < 24 → ((beginStep7 l s).port p).inService = imonFitted l (8 * (p / 4) + 2 * (p % 4)) ∧
        (imonFitted l (8 * (p / 4) + 2 * (p % 4)) = false → ((beginStep7 l s).cc p).st = .outOfService) := by
  obtain ⟨a1, a2, -, a4⟩ := overN_updPhaseOf (fun k f => { f with fitted := imonFitted l k }) 48 s
  rw [show overN 48 _ s = s.fitPhases l from rfl] at a1 a2 a4
  have ht : (s.fitPhases l).tick = s.tick := by rw [a1]
  rw [beginStep7_eq, ht]
  generalize s.fitPhases l = a at a1 a2 a4 ht ⊢
  obtain ⟨b1, b2, -, b4⟩ := overN_updRidgeOf (Ridge.raised l s.tick) 6 a
  rw [show overN 6 _ a = a.raiseRidges l s.tick from rfl] at b1 b2 b4
  generalize a.raiseRidges l s.tick = b at b1 b2 b4 ⊢
  obtain ⟨⟨c1, c2⟩, -, c4⟩ := overN_onlyPort (f := fun p t => portFitting (imonFitted l (8 * (p / 4) + 2 * (p % 4))) p t)
    (fun p t => OnlyPort.portFitting (.refl p t)) 24 b
  rw [show overN 24 _ b = b.fitPorts l from rfl] at c1 c2 c4
  generalize b.fitPorts l = c at c1 c2 c4 ⊢
  have hf := seqComplete_frame (c.updSeq fun q => q.enter 7 c.tick c.frame)
  have hstep := seqComplete_step (c.updSeq fun q => q.enter 7 c.tick c.frame)
  generalize seqComplete (c.updSeq fun q => q.enter 7 c.tick c.frame) = v at hf hstep ⊢
  have hvp : v.phases = a.phases := by
    rw [hf]
    show c.phases = _
    rw [c1, b1]
  have hvr : v.ridges = b.ridges := by
    rw [hf]
    show c.ridges = _
    rw [c1]
  have hvo : v.ports = c.ports := by
    rw [hf]
    rfl
  refine ⟨hstep, fun k hk => ?_, fun x hx => ?_, fun p hp => ?_⟩
  · have h := congrArg Phase.fitted (a4 k hk (by rw [hs.2.1]; exact hk))
    unfold State.phase at h ⊢
    rw [hvp]
    exact h
  · have h := b4 x hx (by rw [a1, hs.2.2.1]; exact hx)
    have ha : a.ridge x = s.ridge x := by rw [a1]; rfl
    rw [ha] at h
    unfold State.ridge at h ⊢
    rw [hvr]
    exact h
  · obtain ⟨u, ⟨-, u2⟩, u3, u4⟩ := c4 p hp
    have h := portFitting_spec (s := u) (imonFitted l (8 * (p / 4) + 2 * (p % 4))) (p := p) (by rw [u2, b1, a1, hs.1]; exact hp)
    have hv : v.port p = c.port p := by
      unfold State.port
      rw [hvo]
    unfold State.cc at h ⊢
    rw [← u4] at h
    rw [hv]
    exact h

/-! ### The end of step 7 -/

/-- R40: a stopped ridge keeps how far its `STGEN_r` came. -/
theorem State.stopRidge_stgen (r b x : Nat) : ((s.stopRidge r b).ridge x).stgen = (s.ridge x).stgen := by
  unfold State.stopRidge
  dsimp only
  have hr := congrArg Ridge.stgen (State.raise_ridge_bare
    ((overN 4 (fun q t => t.updPath (4 * r + q) Path.opened) (overN 8 (fun k t => t.updPhase (8 * r + k) Phase.offWithRidge) s)).updRidge r
      fun q => { q with run := .stopped, overrun := false, eng := { q.eng with running := false } }) (.ridge r) b x)
  refine hr.trans ?_
  have h4 := overN_keeps State.ridges (f := fun q t => t.updPath (4 * r + q) Path.opened) (fun _ _ => rfl) 4
    (overN 8 (fun k t => t.updPhase (8 * r + k) Phase.offWithRidge) s)
  have h8 := overN_keeps State.ridges (f := fun k t => t.updPhase (8 * r + k) Phase.offWithRidge) (fun _ _ => rfl) 8 s
  generalize overN 4 (fun q t => t.updPath (4 * r + q) Path.opened) (overN 8 (fun k t => t.updPhase (8 * r + k) Phase.offWithRidge) s) = u at h4 ⊢
  have hu : u.ridge x = s.ridge x := by
    unfold State.ridge
    rw [h4, h8]
  rw [← hu]
  by_cases e : x = r
  · subst e
    by_cases l : x < u.ridges.length
    · unfold Ridge.bare
      dsimp only
      rw [State.ridge_updRidge _ _ _ l]
    · simp [Ridge.bare, State.updRidge, State.ridge, l]
  · rw [State.ridge_updRidge_ne _ _ _ _ e]
    rfl

theorem stgenOpen_eq {r : Nat} (hm : s.seq.mode = .sequencing) (hr : r < 6) (hl : s.locked = true) (h1 : (s.ridge r).stgen = true)
    (h2 : (s.ridge r).stgenQual = false) : s.stgenOpen r = true := by
  simp [State.stgenOpen, hm, hr, hl, h1, h2]

/-- R242: with ridge r out of the way the sequence waits for the other raised ridges. -/
theorem seqComplete_others {r : Nat} (hm : t.seq.mode = .sequencing) (ho : ∀ x, x ≠ r → t.ridge x = s.ridge x)
    (hr : (t.ridge r).stgen = true → (t.ridge r).stgenQual = true) :
    (seqComplete t).seq.mode = .running ↔ ∀ x, x < 6 → x ≠ r → (s.ridge x).stgen = true → (s.ridge x).stgenQual = true := by
  rw [seqComplete_running hm]
  refine ⟨fun h x hx hne => ?_, fun h x hx => ?_⟩
  · have k := h x hx
    rwa [ho x hne] at k
  · by_cases e : x = r
    · subst e
      exact hr
    · have k := h x hx e
      rwa [← ho x e] at k

theorem ridge_qualifies (m : StepSense) {r : Nat} (hs : s.Shaped) (hm : s.seq.mode = .sequencing) (h7 : s.seq.step = 7) (hr : r < 6)
    (hl : s.locked = true) (h1 : (s.ridge r).stgen = true) (h2 : (s.ridge r).stgenQual = false) (ht : (s.ridge r).stgenTick + 3 ≤ s.tick)
    (he : s.tick ≤ (s.ridge r).stgenTick + s.otp.seqTmo) :
    Goes (.seqStepQualify m r) s fun t =>
      t = { s with seq := t.seq, ridges := t.ridges } ∧ (t.ridge r).stgenQual = true ∧
        (t.seq.mode = .running ↔ ∀ x, x < 6 → x ≠ r → (s.ridge x).stgen = true → (s.ridge x).stgenQual = true) := by
  have hx : seqStepQualify m r s = seqComplete (s.updRidge r fun q => { q with stgenQual := true }) :=
    (if_neg (by simp [State.railStep, hm, h7])).trans ((if_neg (by simp [State.step7Due, h7])).trans
      (if_pos (by simp [stgenOpen_eq hm hr hl h1 h2, ht, he])))
  have hq := State.ridge_updRidge s r (fun q => { q with stgenQual := true }) (hs.ridge_lt hr)
  have ho : ∀ x, x ≠ r → (s.updRidge r fun q => { q with stgenQual := true }).ridge x = s.ridge x :=
    fun x hx => State.ridge_updRidge_ne _ _ _ _ hx
  have hrest : s.updRidge r (fun q => { q with stgenQual := true }) =
      { s with ridges := (s.updRidge r fun q => { q with stgenQual := true }).ridges } := rfl
  refine ⟨_, congrArg Host.Outcome.next hx, ?_⟩
  dsimp only
  generalize s.updRidge r (fun q => { q with stgenQual := true }) = u at hq ho hrest ⊢
  have hf := seqComplete_frame u
  refine ⟨?_, ?_, seqComplete_others (by rw [hrest]; exact hm) ho fun _ => by rw [hq]⟩
  · rw [hf, hrest]
  · rw [hf]
    show (u.ridge r).stgenQual = true
    rw [hq]

theorem ridge_times_out {r : Nat} (hs : s.Shaped) (hm : s.seq.mode = .sequencing) (hr : r < 6)
    (hl : s.locked = true) (h1 : (s.ridge r).stgen = true) (h2 : (s.ridge r).stgenQual = false)
    (ht : (s.ridge r).stgenTick + s.otp.seqTmo ≤ s.tick) :
    Goes (.stgenRidgeTimeout r) s fun t =>
      (t.ridge r).run = .stopped ∧ (t.ridge r).stgen = false ∧ (t.ridge r).flt.sticky.getLsbD 5 = true ∧
        (∀ x, x ≠ r → t.ridge x = s.ridge x) ∧
        (t.seq.mode = .running ↔ ∀ x, x < 6 → x ≠ r → (s.ridge x).stgen = true → (s.ridge x).stgenQual = true) := by
  have hx : stgenRidgeTimeout r s = seqComplete ((s.updRidge r fun q => { q with stgen := false }).stopRidge r 5) :=
    if_pos (by simp [stgenOpen_eq hm hr hl h1 h2, ht])
  have hq := State.ridge_updRidge s r (fun q => { q with stgen := false }) (hs.ridge_lt hr)
  have ho : ∀ x, x ≠ r → (s.updRidge r fun q => { q with stgen := false }).ridge x = s.ridge x :=
    fun x hx => State.ridge_updRidge_ne _ _ _ _ hx
  have hu : (s.updRidge r fun q => { q with stgen := false }).Shaped := (Keeps.updRidge (Keeps.refl s) r (fun q => { q with stgen := false }) (fun _ => rfl)).1 hs
  have hmode : (s.updRidge r fun q => { q with stgen := false }).seq = s.seq := rfl
  refine ⟨_, congrArg Host.Outcome.next hx, ?_⟩
  dsimp only
  generalize s.updRidge r (fun q => { q with stgen := false }) = u at hq ho hu hmode ⊢
  obtain ⟨e, r1, r2, -, -, r6, -, -⟩ := State.stopRidge_spec hu hr (b := 5) (by decide)
  have hst : ((u.stopRidge r 5).ridge r).stgen = false := by rw [State.stopRidge_stgen, hq]
  have hseq : (u.stopRidge r 5).seq = s.seq := by rw [e]; exact hmode
  generalize u.stopRidge r 5 = v at r1 r2 r6 hst hseq ⊢
  have ho' : ∀ x, x ≠ r → v.ridge x = s.ridge x := fun x hx => (r6 x hx).trans (ho x hx)
  have hf := seqComplete_frame v
  have hridge : ∀ x, (seqComplete v).ridge x = v.ridge x := fun x => by rw [hf]; rfl
  rw [hridge]
  exact ⟨r1, hst, r2, fun x hx => (hridge x).trans (ho' x hx), seqComplete_others (by rw [hseq]; exact hm) ho' fun h => by simp [hst] at h⟩

/-! ### Step 3 and the failures (R33, R240, R243) -/

theorem pllLock_spec (h3 : s.inStep3 1 = true) (ht : s.tick ≤ s.seq.subTick + 64) :
    Goes .pllLock s fun t =>
      t = { s with locked := true, frame := 0, pace := 0, paceZero := true, paceCount := 0, seq := t.seq, bus := t.bus } ∧ t.seq.sub = 2 ∧
        t.seq.mode = s.seq.mode ∧ t.bus = (if s.bus.idle then { s.bus with vcoreFe := true } else s.bus) := by
  refine ⟨_, congrArg Host.Outcome.next (if_pos (by simp [h3, ht])), ?_⟩
  dsimp only
  have hf := State.handOver_frame (s := { s with locked := true, frame := 0, pace := 0, paceZero := true, paceCount := 0 })
  have hb : ({ s with locked := true, frame := 0, pace := 0, paceZero := true, paceCount := 0 } : State).handOver.bus =
      if s.bus.idle then { s.bus with vcoreFe := true } else s.bus := by
    unfold State.handOver
    dsimp only
    split <;> rfl
  generalize ({ s with locked := true, frame := 0, pace := 0, paceZero := true, paceCount := 0 } : State).handOver = u at hf hb ⊢
  have hq : u.seq = s.seq := by rw [hf]
  refine ⟨?_, rfl, ?_, hb⟩
  · rw [hf]
    rfl
  · show u.seq.mode = _
    rw [hq]

/-- What the read may report leaves the sequencer, the feeds and the array alone. -/
def Reported (s t : State) : Prop := t.seq = s.seq ∧ t.feeds = s.feeds ∧ t.otp = s.otp

theorem Reported.refl (s : State) : Reported s s := ⟨rfl, rfl, rfl⟩

theorem Reported.raise (h : Reported s t) (q : Prop) [Decidable q] (i : Nat) : Reported s (if q then t.raise .otp i else t) := by
  obtain ⟨h1, h2, h3⟩ := h
  split
  · rw [State.raiseOtp_frame]
    exact ⟨h1, h2, h3⟩
  · exact ⟨h1, h2, h3⟩

theorem otpStickies_reported (s : State) : Reported s (otpStickies s) := by
  unfold otpStickies
  exact ((((((Reported.refl s).raise _ 2).raise _ 0).raise _ 1).raise _ 3).raise _ 4).raise _ 5

/-- R399: the array taken up, with what the read reported and each feed's items. -/
def State.arrayTaken (s : State) : State :=
  overN 2 (fun x t => t.updFeed x (t.otp.feedItems x)) (otpStickies { s with otp := s.otp.takeUp })

theorem State.arrayTaken_spec (hs : s.Shaped) :
    s.arrayTaken.seq = s.seq ∧ s.arrayTaken.otp = s.otp.takeUp ∧ s.arrayTaken.feed 0 = s.otp.takeUp.feedItems 0 (s.feed 0) ∧
      s.arrayTaken.feed 1 = s.otp.takeUp.feedItems 1 (s.feed 1) := by
  obtain ⟨h1, h2, h3⟩ := otpStickies_reported { s with otp := s.otp.takeUp }
  unfold State.arrayTaken
  generalize otpStickies { s with otp := s.otp.takeUp } = u at h1 h2 h3
  have he : overN 2 (fun x t => t.updFeed x (t.otp.feedItems x)) u = (u.updFeed 0 (u.otp.feedItems 0)).updFeed 1 (u.otp.feedItems 1) := rfl
  have hl : u.feeds.length = 2 := by
    rw [h2]
    exact hs.2.2.2.1
  have hfeed : ∀ x, u.feed x = s.feed x := fun x => by
    unfold State.feed
    rw [h2]
  rw [he, h3]
  refine ⟨h1, h3, ?_, ?_⟩
  · rw [State.feed_updFeed_ne _ _ _ _ (by decide), State.feed_updFeed _ _ _ (by omega), hfeed]
  · rw [State.feed_updFeed _ _ _ (by rw [State.updFeed_length]; omega), State.feed_updFeed_ne _ _ _ _ (by decide), hfeed]

theorem State.arrayTaken_seq : s.arrayTaken.seq = s.seq := (SeqKept.overN (fun _ _ => SeqKept.updFeed _) 2 _).1.trans (otpStickies_reported _).1

theorem otpReadComplete_eq (h3 : s.inStep3 2 = true) (hf : s.otp.integrityFails = false) :
    exec .otpReadComplete s = .next (if s.arrayTaken.seq.boot then
        (s.arrayTaken.takeCal s.arrayTaken.otp.currentGen).updSeq fun q => { q with complete := true, sFrame := s.arrayTaken.frame, interpreter := true }
      else s.arrayTaken.updSeq fun q => q.enter 4 s.arrayTaken.tick s.arrayTaken.frame) :=
  congrArg Host.Outcome.next ((if_pos h3).trans (if_neg (by simp [hf])))

theorem otpRead_sound (hs : s.Shaped) (h3 : s.inStep3 2 = true) (hf : s.otp.integrityFails = false) (hb : s.seq.boot = false) :
    Goes .otpReadComplete s fun t =>
      t.seq.mode = s.seq.mode ∧ t.seq.step = 4 ∧ t.otp = s.otp.takeUp ∧ t.feed 0 = s.otp.takeUp.feedItems 0 (s.feed 0) ∧
        t.feed 1 = s.otp.takeUp.feedItems 1 (s.feed 1) := by
  obtain ⟨a1, a2, a3, a4⟩ := State.arrayTaken_spec hs
  have hx := otpReadComplete_eq h3 hf
  rw [a1, if_neg (by simp [hb])] at hx
  refine ⟨_, hx, ?_, rfl, a2, a3, a4⟩
  show s.arrayTaken.seq.mode = _
  rw [a1]

theorem Otp.rangeFlags_seq (o : Otp) (s : State) : (o.rangeFlags s).seq = s.seq := by
  have hn : ∀ (n : Nat) (f : Nat → State → State) (s : State), (∀ i t, (f i t).seq = t.seq) → (overN n f s).seq = s.seq :=
    fun n f s h => overN_keeps State.seq h n s
  unfold Otp.rangeFlags
  extract_lets u
  refine (hn 24 _ u ?_).trans (hn 48 _ s ?_)
  · exact fun _ _ => rfl
  · exact fun _ _ => rfl

theorem State.takeCal_seq (g : Option Nat) : (s.takeCal g).seq = s.seq := by
  have h : ∀ u : State, u.seq = s.seq → ∀ q : Bool, (if q then u else u.raise .sense 3).seq = s.seq := fun u hu q => by
    cases q
    · exact (State.raise_seq u .sense 3).trans hu
    · exact hu
  unfold State.takeCal
  refine h _ ?_ _
  exact Otp.rangeFlags_seq _ _

theorem otpRead_boot (h3 : s.inStep3 2 = true) (hf : s.otp.integrityFails = false) (hb : s.seq.boot = true) :
    Goes .otpReadComplete s fun t => t.seq.mode = s.seq.mode ∧ t.seq.complete = true ∧ t.seq.interpreter = true := by
  have hx := otpReadComplete_eq h3 hf
  rw [State.arrayTaken_seq, if_pos hb] at hx
  refine ⟨_, hx, ?_, rfl, rfl⟩
  have ha := State.arrayTaken_seq (s := s)
  generalize s.arrayTaken = v at ha ⊢
  show (v.takeCal v.otp.currentGen).seq.mode = _
  rw [State.takeCal_seq, ha]

/-- R243: a rail failure of the sequence. -/
theorem railFailure_spec (hm : s.seq.mode = .sequencing) (n : Nat) :
    (s.railFailure n).seq.mode = .shutdown ∧ (s.railFailure n).seq.failStep = n ∧ (s.railFailure n).seq.downStep = s.seq.step ∧
      (s.railFailure n).fltSeq.sticky.getLsbD 0 = true ∧
      (s.seq.retries < s.otp.seqRetries → (s.railFailure n).seq.retries = s.seq.retries + 1 ∧ (s.railFailure n).seq.after = .retry) ∧
      (s.otp.seqRetries ≤ s.seq.retries → (s.railFailure n).seq.retries = s.seq.retries ∧ (s.railFailure n).seq.after = .failure) := by
  obtain ⟨c1, c2, c3, -⟩ := State.countFailure_spec (s := s) n
  have hx : s.railFailure n = (s.countFailure n).1.orderedShutdown (s.countFailure n).2 := rfl
  obtain ⟨k1, -, k3, -⟩ := SeqKept.orderedShutdown (s.countFailure n).1 (s.countFailure n).2
  rw [hx, k1, k3, c2]
  generalize (s.countFailure n).1 = u at c1 c3 ⊢
  have htop : u.topStep = s.seq.step := by
    unfold State.topStep
    rw [c1]
    exact if_neg (by simp [hm])
  refine ⟨rfl, ?_, htop, c3, fun h => ⟨?_, if_pos h⟩, fun h => ⟨?_, if_neg (by omega)⟩⟩
  · show u.seq.failStep = n
    rw [c1]
  · show u.seq.retries = _
    rw [c1]
    exact if_pos h
  · show u.seq.retries = _
    rw [c1]
    exact if_neg (by omega)

/-- Settles O52: rails (`seqStepQualify_rail`), steps 6 and 7 (`beginStep6_spec`, `beginStep7_spec`), the raised ridges, and the failures. -/
theorem sequenceSteps : Obligations.SequenceSteps := by
  refine ⟨?rails, ?step3, ?step5, ?step7, ?stgen, ?lock, ?bad, ?sound, ?boot, ?feedless, ?fails⟩
  case rails =>
    intro s m r n hm hn h h1 h2
    have hx := seqStepQualify_rail m r hm (by omega) (.inl (by omega)) h1 h2
    by_cases h1' : n = 1
    · obtain ⟨v1, v2⟩ := State.vioUp_spec (s := s) m.rp
      rw [railQualified_vio _ (by omega)] at hx
      refine ⟨_, hx, ?_⟩
      generalize s.vioUp m.rp = v at v1 v2 ⊢
      subst h1'
      have hq : (v.updSeq fun q => q.enter 2 s.tick s.frame).seq = s.seq.enter 2 s.tick s.frame := by rw [v1]; rfl
      rw [hq]
      refine ⟨?_, rfl, rfl, rfl, hm, fun h => absurd rfl h, fun _ hs p hp => v2 hs p hp⟩
      rw [v1]
      rfl
    · rw [railQualified_next _ (by omega), hn] at hx
      exact ⟨_, hx, rfl, rfl, rfl, rfl, hm, fun _ => rfl, fun h => absurd h h1'⟩
  case step3 =>
    intro s m r hm hn hsub h1 h2
    have hx := seqStepQualify_rail m r hm (by omega) (.inr hsub) h1 h2
    rw [railQualified_three _ hn] at hx
    exact hx
  case step5 =>
    intro s m r hs hm hn h1 h2
    have hx := seqStepQualify_rail m r hm (by omega) (.inl (by omega)) h1 h2
    rw [railQualified_five _ hn] at hx
    refine ⟨fun h5 hsub => ?_, fun h => ⟨beginStep6 s, ?_, beginStep6_spec hs⟩⟩
    · rw [if_pos (by simp [h5, hsub])] at hx
      exact hx
    · rw [if_neg (by obtain h | h := h <;> simp [h])] at hx
      exact hx
  case step7 =>
    intro s m l r f hs hl hm hn hg hf hle
    have hx : seqStepQualify m r s = beginStep7 l s := by
      rw [hl]
      exact (if_neg (by simp [State.railStep, hm, hn])).trans (if_pos (by simp [State.step7Due, hm, hn, hg, hf, hle]))
    obtain ⟨b1, b2, b3, b4⟩ := beginStep7_spec l hs
    refine ⟨_, congrArg Host.Outcome.next hx, b1, b2, fun x hx => ?_, fun p hp => (b4 p hp).1, fun p hp => (b4 p hp).2⟩
    rw [b3 x hx]
    exact ⟨(Ridge.raised_spec l s.tick x _).1, (Ridge.raised_spec l s.tick x _).2, rfl⟩
  case stgen =>
    intro s m r hs hm h7 hr hl h1 h2
    exact ⟨fun ht he => ridge_qualifies m hs hm h7 hr hl h1 h2 ht he, fun ht => ridge_times_out hs hm hr hl h1 h2 ht⟩
  case lock =>
    intro s h3 ht
    exact pllLock_spec h3 ht
  case bad =>
    intro s h3 hf
    obtain ⟨k1, -, -, k4⟩ := SeqKept.orderedShutdown s .integrity
    refine ⟨_, congrArg Host.Outcome.next ((if_pos h3).trans (if_pos hf)), ?_⟩
    dsimp only
    rw [k1, k4]
    exact ⟨rfl, rfl, rfl⟩
  case sound =>
    intro s hs h3 hf hb
    exact otpRead_sound hs h3 hf hb
  case boot =>
    intro s h3 hf hb
    exact otpRead_boot h3 hf hb
  case feedless =>
    intro s hm h6 hg hle
    exact congrArg Host.Outcome.next (if_pos (by simp [hm, h6, hg, State.framesSince, hle]))
  case fails =>
    intro s c hs hm hc
    obtain ⟨rfl, hr, ht⟩ | ⟨rfl, h3, ht⟩ := hc
    · exact ⟨_, congrArg Host.Outcome.next (if_pos (by simp [hr, ht])), railFailure_spec hm s.seq.step⟩
    · have hstep : s.seq.step = 3 := by
        simp [State.inStep3] at h3
        tauto
      have h := railFailure_spec hm 3
      rw [hstep]
      rw [hstep] at h
      exact ⟨_, congrArg Host.Outcome.next (if_pos (by simp [h3, ht])), h⟩

end Sys2Proof.Machine
end

section
/-! PROOF. Words of a ridge engine on memory, loops, jumps and the custom unit; the interrupt. -/
namespace Sys2Proof.Machine
variable {e : Engine} {k : KKind} {g d : Nat} {src : KSrc} {v : Word} {s : State} {a : KArg} {c : Instr}

/-! ### One cycle of a word of one move, for every socket but the dual multiply -/

/-- The address units that a move reads or writes memory through. -/
def movedUnits (src : KSrc) (d : Nat) : List Nat := (memSrc src).toList ++ if 0x40 ≤ d ∧ d ≤ 0x47 then [d - 0x40] else []

/-- What a move does to the engine before the sequencing of its word. -/
def Engine.moved (e : Engine) (k : KKind) (m : KAct) : Engine :=
  macCycle [m] 0 0 (trigCompare (customCycle k [m] (trigArith
    ((storeSide e k [m] false (storeSide e k [m] true (e.postUnits (movedUnits m.src m.dst)))).writeReg k m.dst m.val) m)) m)

/-- What a move does to the engine, with the sequencing of its word. -/
def Engine.single (e : Engine) (k : KKind) (m : KAct) : Engine := irqCycle k [m] (modeCycle [m] ((e.moved k m).advance k [m]))

theorem readUnits_single : readUnits [⟨g, src, d⟩] = (memSrc src).toList := by
  cases h : memSrc src <;> simp [readUnits, h]

/-- R356: a word of one move in a quiet engine. -/
theorem cycle_single {free : Nat} (hq : Quiet e) (hg : guardHolds e.preds g = true) (hd : d ≠ 0x38)
    (hv : moveVal e k free (memSrc src).toList ⟨g, src, d⟩ = v) :
    e.cycle k free { a := ⟨g, src, d⟩ } =
      { eng := { e.single k ⟨src, d, v⟩ with
          cyc := e.cyc + 1, running := (e.single k ⟨src, d, v⟩).running && !(!k.sup && d == 0x70) }
        duty := if k.sup then [] else if 0x68 ≤ d ∧ d ≤ 0x6F then [(d - 0x68, v)] else []
        publish := !k.sup && d == 0x70
        steer := if k.sup then none else if d = 0x71 then some v else none
        frees := if freeSrc k src then 1 else 0 } := by
  have ⟨_, hresume, _, _, _⟩ := hq
  unfold Engine.cycle
  extract_lets e' act eff dual reads vals fx fy touched e1 e2 e3 e4 e5 e6 e7 pub
  have he : e' = e := (congrArg _ (repOver_of_quiet hq)).trans (land_of_quiet hq)
  have hact : act = [⟨g, src, d⟩] := by rw [← activeMoves_oneMove (src := src) (d := d) hg, ← he]
  have hdual : dual = [] := by
    have hnone : (eff.find? fun m => m.dst == 0x38) = none := by
      simp only [eff, hact]
      simp [effective, hd]
    simp only [dual, dualOf, hnone]
  have hvals : vals = [⟨src, d, v⟩] := by
    simp only [vals, eff, hact, reads, hdual, he, readUnits_single, List.nil_append, effective, List.map_cons, List.map_nil, hv]
  have htouched : touched = movedUnits src d := by
    simp only [touched, reads, hdual, hact, readUnits_single, movedUnits, List.nil_append]
    by_cases hm : 0x40 ≤ d ∧ d ≤ 0x47
    · simp [hm]
    · simp [hm]
  have hfx : fx = 0 := by simp only [fx, hdual]
  have hfy : fy = 0 := by simp only [fy, hdual]
  have h1 : e1 = e.postUnits (movedUnits src d) := by simp only [e1, htouched, he, Engine.postUnits]
  have h5 : e5 = e.moved k ⟨src, d, v⟩ := by
    simp only [e5, e4, e3, e2, h1, hvals, hfx, hfy, he, Engine.moved, List.foldl_cons, List.foldl_nil]
  have h7 : e7 = e.single k ⟨src, d, v⟩ := by
    simp only [e7, e6, h5, hvals, hresume, Option.isSome_none, Bool.false_eq_true, if_false, Engine.single]
  have hpub : pub = (!k.sup && d == 0x70) := by simp [pub, hvals]
  have hduty : ((vals.filter fun m => 0x68 ≤ m.dst && m.dst ≤ 0x6F).map fun m => (m.dst - 0x68, m.val)) =
      if 0x68 ≤ d ∧ d ≤ 0x6F then [(d - 0x68, v)] else [] := by
    rw [hvals]
    by_cases hm : 0x68 ≤ d ∧ d ≤ 0x6F
    · simp [hm]
    · simp [hm]
  have hsteer : ((vals.find? fun m => m.dst == 0x71).map (·.val)) = if d = 0x71 then some v else none := by
    rw [hvals]
    by_cases hm : d = 0x71 <;> simp [hm]
  have hfree : (act.any fun m => freeSrc k m.src) = freeSrc k src := by simp [hact]
  rw [h7, hpub, hduty, hsteer, hfree, he]

/-! ### Which parts of the engine a socket reaches -/

/-- A socket that no register, trigger or mode of the engine answers to: the memories, the duties, the publish, the requests, `irq.ret`. -/
def Inert (d : Nat) : Prop := (0x40 ≤ d ∧ d ≤ 0x47) ∨ (0x68 ≤ d ∧ d ≤ 0x71) ∨ d = 0xA1

theorem Inert.trigUnit (h : Inert d) : trigUnit d = 0 := by
  by_contra hne
  have := trigUnit_ne_zero hne
  unfold Inert at h
  omega

theorem Inert.writeReg (h : Inert d) : e.writeReg k d v = e := by
  unfold Inert at h
  unfold Engine.writeReg
  simp only [Bool.and_eq_true, decide_eq_true_eq]
  rw [if_neg (by omega), if_neg (by omega), if_neg (by omega)]
  split
  case h_8 => rfl
  all_goals omega

theorem movedUnits_plain (hs : memSrc src = none) (hm : ¬(0x40 ≤ d ∧ d ≤ 0x47)) : movedUnits src d = [] := by
  simp [movedUnits, hs, hm]

theorem storeSide_single (hm : ¬(0x40 ≤ d ∧ d ≤ 0x47)) (b : Bool) (e' : Engine) : storeSide e k [⟨src, d, v⟩] b e' = e' := by
  have h : storeOf [⟨src, d, v⟩] b = none := by
    have hm' : (decide (0x40 ≤ d) && decide (d ≤ 0x47)) = false := by simpa using hm
    simp [storeOf, hm']
  rw [storeSide, h]

theorem moved_of_trigUnit (h : trigUnit d = 0 ∨ 5 ≤ trigUnit d) (e' : Engine) (hc : e'.cstAt = none) :
    macCycle [⟨src, d, v⟩] 0 0 (trigCompare (customCycle k [⟨src, d, v⟩] (trigArith e' ⟨src, d, v⟩)) ⟨src, d, v⟩) = e' := by
  have h1 : trigUnit d ≠ 1 := by omega
  have h2 : trigUnit d ≠ 2 := by omega
  have h3 : trigUnit d ≠ 3 := by omega
  have h4 : trigUnit d ≠ 4 := by omega
  simp [macCycle, trigCompare, customCycle, trigArith, h1, h2, h3, h4, hc]

theorem modeCycle_single (h : d ≠ 0x3B) (e' : Engine) : modeCycle [⟨src, d, v⟩] e' = e' := by
  simp [modeCycle, h]

theorem irqCycle_single (h : d ≠ 0xA1) (e' : Engine) : irqCycle k [⟨src, d, v⟩] e' = e' := by
  simp [irqCycle, h]

/-- R371, R372: a word that is no loop and no jump goes on to the word after it. -/
theorem advance_single (h : trigUnit d < 5) (e' : Engine) (hr : e'.rep = none) (hj : e'.jump = none) :
    e'.advance k [⟨src, d, v⟩] = { e' with pc := BitVec.ofNat 16 ((e'.pc.toNat + 1) % k.progSize) } := by
  have h5 : trigUnit d ≠ 5 := by omega
  have h6 : trigUnit d ≠ 6 := by omega
  simp [Engine.advance, h5, h6, hr, hj, Engine.after]

theorem Engine.postUnits_one {u : Nat} (h : e.units.length = 8) : e.postUnits [u] = { e with units := e.units.modify u AddrUnit.post } := by
  have hunits : ((List.range 8).map fun i => if [u].contains i then (e.unit i).post else e.unit i) = e.units.modify u AddrUnit.post := by
    refine List.ext_getElem (by simp [h]) fun n h8 hn => ?_
    have hlen : n < e.units.length := by simpa using hn
    grind [Engine.unit]
  rw [Engine.postUnits, hunits]

/-- A move to no memory, from no memory: the engine is what its socket makes of it. -/
theorem single_of_moved {e' : Engine} (hm : e.moved k ⟨src, d, v⟩ = e') (h5 : trigUnit d < 5) (h3B : d ≠ 0x3B) (hA1 : d ≠ 0xA1) (hr : e'.rep = none)
    (hj : e'.jump = none) : e.single k ⟨src, d, v⟩ = { e' with pc := BitVec.ofNat 16 ((e'.pc.toNat + 1) % k.progSize) } := by
  rw [Engine.single, hm, advance_single h5 _ hr hj, modeCycle_single h3B, irqCycle_single hA1]

/-- A move that stores nothing and touches no unit. -/
theorem moved_of_unit (hlen : e.units.length = 8) (hc : e.cstAt = none) (hs : memSrc src = none) (hm : ¬(0x40 ≤ d ∧ d ≤ 0x47))
    (ht : trigUnit d = 0 ∨ 5 ≤ trigUnit d) (hw : e.writeReg k d v = e) : e.moved k ⟨src, d, v⟩ = e := by
  rw [Engine.moved, storeSide_single hm, storeSide_single hm, movedUnits_plain hs hm, Engine.postUnits_nil hlen, hw, moved_of_trigUnit ht e hc]

/-- R353, R358: the store of a word. -/
theorem moved_store {u : Nat} (hlen : e.units.length = 8) (hc : e.cstAt = none) (hk : k.sup = false) (hs : memSrc src = none) (hu : u < 8) :
    e.moved k ⟨src, 0x40 + u, v⟩ =
      { e with
        x := if u < 4 then cellsWrite e.x ((e.unit u).ptr.toNat % 4096) (keptWord true ((e.unit u).ptr.toNat % 4096) v) else e.x
        y := if u < 4 then e.y else cellsWrite e.y ((e.unit u).ptr.toNat % 4096) (keptWord false ((e.unit u).ptr.toNat % 4096) v)
        units := e.units.modify u AddrUnit.post } := by
  have hd : 0x40 ≤ 0x40 + u ∧ 0x40 + u ≤ 0x47 := by omega
  have hin : Inert (0x40 + u) := .inl hd
  have hunits : movedUnits src (0x40 + u) = [u] := by simp [movedUnits, hs]; omega
  have hstore : ∀ b e', storeSide e k [⟨src, 0x40 + u, v⟩] b e' = if decide (u < 4) = b then storeMem e k e' u v else e' := fun b e' => by
    have h47 : 64 + u ≤ 71 := by omega
    have h44 : decide (64 + u < 68) = decide (u < 4) := by congr 1; simp; omega
    unfold storeSide storeOf
    by_cases hb : decide (u < 4) = b
    · simp [h47, h44, hb]
    · simp [h47, h44, hb]
  rw [Engine.moved, hunits, Engine.postUnits_one hlen, hstore, hstore, hin.writeReg, moved_of_trigUnit (.inl hin.trigUnit) _ ?_]
  · by_cases h4 : u < 4
    · simp [h4, storeMem, hk, KKind.dataSize]
    · simp [h4, storeMem, hk, KKind.dataSize]
  · by_cases h4 : u < 4
    · simp [h4, storeMem, hc]
    · simp [h4, storeMem, hc]

theorem trigUnit_custom {n : Nat} (hn : n < 16) : trigUnit (0x50 + n) = 4 := by
  have h1 : ¬0x50 + n ≤ 0x27 := by omega
  have h2 : ¬0x50 + n ≤ 0x33 := by omega
  have h3 : ¬0x50 + n ≤ 0x3A := by omega
  have h4 : 0x50 + n ≤ 0x5F := by omega
  simp [trigUnit, h1, h2, h3, h4]

/-- R374: a custom trigger. -/
theorem moved_custom {n : Nat} (hlen : e.units.length = 8) (hs : memSrc src = none) (hn : n < 16) :
    e.moved k ⟨src, 0x50 + n, v⟩ = e.custom k n v := by
  have ht := trigUnit_custom hn
  have hm : ¬(0x40 ≤ 0x50 + n ∧ 0x50 + n ≤ 0x47) := by omega
  rw [Engine.moved, storeSide_single hm, storeSide_single hm, movedUnits_plain hs hm, Engine.postUnits_nil hlen,
    writeReg_of_trigger (by rw [ht]; decide)]
  simp [macCycle, trigCompare, customCycle, trigArith, ht]

/-- R353: a read of memory into a general register. -/
theorem moved_read {u i : Nat} (hlen : e.units.length = 8) (hc : e.cstAt = none) (hu : u < 8) (hi : i < 16) :
    e.moved k ⟨.sock (0x20 + u), 0x08 + i, v⟩ = { e with gp := e.gp.set i v, units := e.units.modify u AddrUnit.post } := by
  have hm : ¬(0x40 ≤ 0x08 + i ∧ 0x08 + i ≤ 0x47) := by omega
  have hsrc : memSrc (.sock (0x20 + u)) = some u := by
    have h27 : 0x20 + u ≤ 0x27 := by omega
    simp [memSrc, h27]
  have hunits : movedUnits (.sock (0x20 + u)) (0x08 + i) = [u] := by simp [movedUnits, hsrc, hm]
  rw [Engine.moved, storeSide_single hm, storeSide_single hm, hunits, Engine.postUnits_one hlen, writeReg_gp hi,
    moved_of_trigUnit (.inl (trigUnit_of_registerDst (registerDst_gp hi))) _ ?_]
  exact hc

theorem moveVal_read {free u i : Nat} (hu : u < 8) :
    moveVal e k free (memSrc (.sock (0x20 + u))).toList ⟨g, .sock (0x20 + u), 0x08 + i⟩ = e.peek k u := by
  have hsrc : memSrc (.sock (0x20 + u)) = some u := by
    have h27 : 0x20 + u ≤ 0x27 := by omega
    simp [memSrc, h27]
  simp [moveVal, hsrc, portWord]

/-! ### A word of one move on a ridge engine, with what it puts out -/

/-- What a word of one move leaves of its engine. -/
def Engine.stepped (e : Engine) (k : KKind) (m : KAct) : Engine := { e.single k m with cyc := e.cyc + 1 }

theorem ridge_single {free : Nat} (hk : k.sup = false) (hq : Quiet e) (hg : guardHolds e.preds g = true) (hd : d ≠ 0x38)
    (hv : moveVal e k free (memSrc src).toList ⟨g, src, d⟩ = v) :
    e.cycle k free { a := ⟨g, src, d⟩ } =
      { eng := { e.stepped k ⟨src, d, v⟩ with running := (e.single k ⟨src, d, v⟩).running && !(d == 0x70) }
        duty := if 0x68 ≤ d ∧ d ≤ 0x6F then [(d - 0x68, v)] else []
        publish := d == 0x70
        steer := if d = 0x71 then some v else none } := by
  have hfree : freeSrc k src = false := by cases src <;> simp [freeSrc, hk]
  rw [cycle_single hq hg hd hv, hk, hfree]
  rfl

/-- A word of one move that puts nothing out leaves its engine alone changed. -/
theorem leaves_of_single (hr : a.eng < 6) (hrun : s.engineRuns a.eng = true) (he : e = (s.ridge a.eng).eng)
    (hk : k = ridgeKind (s.ridge a.eng).bank) (hc : exec c s = runWord a.eng (argBits a d) s) (ho : OneMove a) (hlt : d < 256) (hq : Quiet e)
    (hg : guardHolds e.preds a.op.guard = true) (hd : d ≠ 0x38) (hout : ¬(0x68 ≤ d ∧ d ≤ 0x71))
    (hv : moveVal e k s.freeN (memSrc a.op.src).toList ⟨a.op.guard, a.op.src, d⟩ = v) :
    Leaves c s a.eng (e.stepped k ⟨a.op.src, d, v⟩) := by
  refine leaves_of_cycle hr hrun hc (decodeWord_oneMove ho hlt) ?_
  subst he hk
  rw [ridge_single rfl hq hg hd hv, if_neg (by omega), if_neg (by omega)]
  have h70 : (d == 0x70) = false := by
    rw [beq_eq_false_iff_ne]
    omega
  rw [h70, Bool.not_false, Bool.and_true]
  rfl

theorem leaves_of_runsOn (h : RunsOn s a v) (he : e = (s.ridge a.eng).eng) (hk : k = ridgeKind (s.ridge a.eng).bank)
    (hc : exec c s = runWord a.eng (argBits a d) s) (hlt : d < 256) (hd : d ≠ 0x38) (hout : ¬(0x68 ≤ d ∧ d ≤ 0x71)) :
    Leaves c s a.eng (e.stepped k ⟨a.op.src, d, v⟩) := by
  obtain ⟨hmem, hshows⟩ := shows_of_runsOn h
  have hq := quiet_of_runsOn h he
  obtain ⟨-, hr, hrun, hone, -, hg, -⟩ := h
  subst he hk
  refine leaves_of_single hr hrun rfl rfl hc hone hlt hq hg hd hout ?_
  rw [moveVal_eq_shows rfl hmem]
  exact hshows

/-! ### What each socket leaves (R353, R358, R371, R372, R374) -/

/-- A move that leaves the sequencing alone: the engine goes on to the word after it. -/
theorem stepped_of_moved {e' : Engine} (hk : k.sup = false) (hm : e.moved k ⟨src, d, v⟩ = e') (h5 : trigUnit d < 5) (h3B : d ≠ 0x3B) (hA1 : d ≠ 0xA1)
    (hr : e'.rep = none) (hj : e'.jump = none) (hc : e'.cyc = e.cyc) : e.stepped k ⟨src, d, v⟩ = nextWord e' := by
  rw [Engine.stepped, single_of_moved hm h5 h3B hA1 hr hj, nextWord, hc, KKind.progSize, hk]
  rfl

theorem stepped_of_inert (hk : k.sup = false) (hq : Quiet e) (hlen : e.units.length = 8) (hs : memSrc src = none) (hd : Inert d) (h47 : 0x47 < d)
    (hA1 : d ≠ 0xA1) : e.stepped k ⟨src, d, v⟩ = nextWord e := by
  obtain ⟨hr, -, -, hc, hj⟩ := hq
  have ht := hd.trigUnit
  refine stepped_of_moved hk (moved_of_unit hlen hc hs (by omega) (.inl ht) hd.writeReg) (by omega) ?_ hA1 hr hj rfl
  unfold Inert at hd
  omega

/-- A loop or a jump: the engine as its sequencing leaves it. -/
theorem stepped_of_control {e' : Engine} (hq : Quiet e) (hlen : e.units.length = 8) (hs : memSrc src = none) (h5 : 5 ≤ trigUnit d)
    (he : e.advance k [⟨src, d, v⟩] = e') : e.stepped k ⟨src, d, v⟩ = { e' with cyc := e.cyc + 1 } := by
  obtain ⟨-, -, -, hc, -⟩ := hq
  have h0 : trigUnit d ≠ 0 := by omega
  have hm : e.moved k ⟨src, d, v⟩ = e :=
    moved_of_unit hlen hc hs (by have := trigUnit_ne_zero h0; omega) (.inr h5) (writeReg_of_trigger h0)
  have hA1 : d ≠ 0xA1 := by
    rintro rfl
    exact h0 rfl
  rw [Engine.stepped, Engine.single, hm, he, modeCycle_single (ne_mode_of_trigger h0), irqCycle_single hA1]

theorem mod_add_mod_succ (n : Nat) : ((n + 1) % 8192 + 1) % 8192 = (n + 2) % 8192 := by omega

/-- R371: the loop unit. -/
theorem advance_loop (hk : k.sup = false) (hq : Quiet e) (hd : d = 0x61 ∨ d = 0x62) :
    e.advance k [⟨src, d, v⟩] =
      if v = 0 then { e with pc := BitVec.ofNat 16 ((e.pc.toNat + 2) % 8192) }
      else { e with pc := BitVec.ofNat 16 ((e.pc.toNat + 1) % 8192), rep := some (min v.toNat 1023), repHold := d == 0x62 } := by
  obtain ⟨hr, -, -, -, hj⟩ := hq
  have h5 : trigUnit d = 5 := by obtain rfl | rfl := hd <;> rfl
  have hz : min v.toNat 1023 = 0 ↔ v = 0 := by
    rw [← BitVec.toNat_inj]
    simp
  by_cases h0 : v = 0
  · simp [Engine.advance, h5, hr, hj, Engine.after, KKind.progSize, hk, h0, mod_add_mod_succ]
  · have hn : v.toNat ≠ 0 := fun h => h0 (hz.1 (by simp [h]))
    simp [Engine.advance, h5, hr, hj, Engine.after, KKind.progSize, hk, hn]
    exact h0

/-- R372: the program counter unit. -/
theorem advance_jump (hk : k.sup = false) (hq : Quiet e) :
    e.advance k [⟨src, 0x63, v⟩] = { e with pc := BitVec.ofNat 16 ((e.pc.toNat + 1) % 8192), jump := some v, repHold := false } ∧
      e.advance k [⟨src, 0x64, v⟩] =
        { e with
          pc := BitVec.ofNat 16 ((e.pc.toNat + 1) % 8192), jump := some v, repHold := false
          calls := (BitVec.ofNat 16 ((e.pc.toNat + 2) % 8192) :: e.calls).take 8 } ∧
      (∀ x rest, e.calls = x :: rest → e.advance k [⟨src, 0x65, v⟩] =
        { e with pc := BitVec.ofNat 16 ((e.pc.toNat + 1) % 8192), jump := some x, calls := rest, repHold := false }) ∧
      (e.calls = [] → e.advance k [⟨src, 0x65, v⟩] =
        { e with pc := BitVec.ofNat 16 ((e.pc.toNat + 1) % 8192), repHold := false, running := false }) := by
  obtain ⟨hr, -, -, -, hj⟩ := hq
  have h63 : trigUnit 0x63 = 6 := rfl
  have h64 : trigUnit 0x64 = 6 := rfl
  have h65 : trigUnit 0x65 = 6 := rfl
  refine ⟨?_, ?_, fun x rest hc => ?_, fun hc => ?_⟩
  · simp [Engine.advance, h63, hr, hj, Engine.after, KKind.progSize, hk, Engine.slotRep]
  · simp [Engine.advance, h64, hr, hj, Engine.after, KKind.progSize, hk, Engine.slotRep, push, KKind.callDepth, mod_add_mod_succ]
  · simp [Engine.advance, h65, hr, hj, Engine.after, KKind.progSize, hk, Engine.slotRep, hc]
  · simp [Engine.advance, h65, hr, hj, Engine.after, KKind.progSize, hk, Engine.slotRep, hc]

/-! ### A cycle without a word, and the supervisor (R378, R379) -/

theorem landOne_foldl (l : List MacOp) (e : Engine) :
    (l.foldl Engine.landOne e).gp = e.gp ∧ (l.foldl Engine.landOne e).cyc = e.cyc ∧ (l.foldl Engine.landOne e).cstAt = e.cstAt := by
  induction l generalizing e with
  | nil => exact ⟨rfl, rfl, rfl⟩
  | cons o l ih => exact ih _

theorem idleCycle_spec (e : Engine) : (e.idleCycle k).gp = e.gp ∧ (e.idleCycle k).cyc = e.cyc + 1 := by
  obtain ⟨h1, h2, -⟩ := landOne_foldl (e.macPipe.filter fun o => decide (o.due ≤ e.cyc)) e
  unfold Engine.idleCycle
  split
  · exact ⟨h1, by rw [← h2]⟩
  · exact ⟨h1, by rw [← h2]⟩

/-- R379: what the interrupt leaves of the engine. -/
theorem interrupt_spec (srcs : List IrqSource) (vec : Word) :
    (e.interrupt k srcs vec).pc = vec ∧ (e.interrupt k srcs vec).cyc = e.cyc + 2 ∧ (e.interrupt k srcs vec).irqEn = 0 ∧
      (e.interrupt k srcs vec).jump = none ∧ (e.interrupt k srcs vec).rep = none ∧ (e.interrupt k srcs vec).gp = e.gp ∧
      (e.interrupt k srcs vec).shadow =
        some { pc := e.pc, jump := e.jump, rep := e.rep, repHold := e.repHold, pred := e.preds, irqEn := e.irqEn, srcs := srcs } := by
  obtain ⟨h1, h2⟩ := idleCycle_spec (k := k) e
  obtain ⟨h3, h4⟩ := idleCycle_spec (k := k) (e.idleCycle k)
  exact ⟨rfl, by rw [← Nat.add_assoc e.cyc 1 1, ← h2, ← h4]; rfl, rfl, rfl, rfl, h3.trans h1, rfl⟩

theorem mayInterrupt_of (hs : e.shadow = none) (hr : e.resume = none) (hh : e.repHold = false ∨ e.rep = none ∨ e.rep = some 0) :
    e.mayInterrupt = true := by
  unfold Engine.mayInterrupt
  obtain h | h | h := hh <;> simp [hs, hr, h]

theorem mem_enabledIrqs {x : IrqSource} : x ∈ s.enabledIrqs ↔ x ∈ s.irq ∧ x.bit &&& s.sup.eng.irqEn ≠ 0 := by
  simp [State.enabledIrqs]

/-- R379: what an interrupt leaves pending. -/
theorem pending_after (x : IrqSource) :
    x ∈ s.irq.filter (fun y => !s.enabledIrqs.contains y) ↔ x ∈ s.irq ∧ x.bit &&& s.sup.eng.irqEn = 0 := by
  simp only [List.mem_filter, Bool.not_eq_true', List.contains_eq_mem, decide_eq_false_iff_not, mem_enabledIrqs]
  tauto

/-- R379: the engine of a supervisor whose word returns from the interrupt. -/
theorem stepped_irqRet {sh : Shadow} (hk : k.sup = true) (hq : Quiet e) (hlen : e.units.length = 8) (hs : memSrc src = none)
    (hsh : e.shadow = some sh) :
    e.single k ⟨src, 0xA1, v⟩ =
      { e with pc := BitVec.ofNat 16 ((e.pc.toNat + 1) % 65536), resume := some sh, shadow := none, pred := sh.pred, irqEn := sh.irqEn } := by
  obtain ⟨hr, -, -, hc, hj⟩ := hq
  have hin : Inert 0xA1 := .inr (.inr rfl)
  have hm : e.moved k ⟨src, 0xA1, v⟩ = e := moved_of_unit hlen hc hs (by decide) (.inl rfl) hin.writeReg
  rw [Engine.single, hm, advance_single (by decide) _ hr hj, modeCycle_single (by decide)]
  simp [irqCycle, hk, hsh, KKind.progSize]

/-- R379: `irq.ret` in the supervisor. -/
theorem irqRet_spec {w : Word} {sh : Shadow} (hr : s.supRuns = true) (hs : s.Shaped) (ha : a.eng = 6) (ho : OneMove a) (hi : a.op.src = .imm w)
    (hq : Quiet s.sup.eng) (hg : guardHolds s.sup.eng.preds a.op.guard = true) (hsh : s.sup.eng.shadow = some sh) :
    Goes (.irqRet a) s fun t =>
      t = { s with sup := { s.sup with eng := t.sup.eng } } ∧ t.sup.eng.resume = some sh ∧ t.sup.eng.shadow = none ∧ t.sup.eng.pred = sh.pred ∧
        t.sup.eng.irqEn = sh.irqEn ∧ t.sup.eng.pc = BitVec.ofNat 16 ((s.sup.eng.pc.toNat + 1) % 65536) := by
  obtain ⟨-, -, -, -, -, -, -, hlen, -⟩ := hs
  have hcycle : s.sup.eng.cycle s.supKind s.freeN { a := ⟨a.op.guard, a.op.src, 0xA1⟩ } = _ :=
    cycle_single (v := w) hq hg (by decide) (by rw [hi]; rfl)
  rw [hi, stepped_irqRet rfl hq hlen rfl hsh] at hcycle
  have hx : exec (.irqRet a) s = .next (supWord { a := ⟨a.op.guard, .imm w, 0xA1⟩ } s) := by
    refine congrArg Host.Outcome.next ((if_pos ha).trans ?_)
    rw [decodeWord_oneMove ho (by decide), hi]
  unfold supWord at hx
  rw [if_pos hr, hcycle] at hx
  exact ⟨_, hx, rfl, rfl, rfl, rfl, rfl, rfl⟩

/-- R367: the trigger whose three cycles have passed. -/
theorem land_one {o : MacOp} (hp : e.macPipe = [o]) (hd : o.due ≤ e.cyc) :
    e.land = { e with acc := (o.what.apply e.acc).1, macOut := (o.what.apply e.acc).1, macOvf := e.macOvf || (o.what.apply e.acc).2, macPipe := [] } := by
  have h1 : (e.macPipe.filter fun o => decide (o.due ≤ e.cyc)) = [o] := by simp [hp, hd]
  have h2 : (e.macPipe.filter fun o => decide (e.cyc < o.due)) = [] := by simp [hp, hd]
  unfold Engine.land
  rw [h1, h2]
  rfl

theorem leaves_macTrigger {r : Nat} {o : MacOp} (hr : r < 6) (he : e = (s.ridge r).eng) (hp : e.macPipe = [o]) (hd : o.due ≤ e.cyc) {e' : Engine}
    (h : ({ e with acc := (o.what.apply e.acc).1, macOut := (o.what.apply e.acc).1, macOvf := e.macOvf || (o.what.apply e.acc).2, macPipe := [] } : Engine) = e') :
    Leaves (.macTriggerComplete r) s r e' := by
  refine congrArg Host.Outcome.next ((if_neg (by omega)).trans (State.updRidge_congr ?_))
  rw [← he, land_one hp hd, h]

/-- R371: a repetition that has run out. -/
theorem leaves_repeatEnd {r : Nat} (hr : r < 6) (he : e = (s.ridge r).eng) (h0 : e.rep = some 0) :
    Leaves (.repeatEnd r) s r { e with rep := none, repHold := false, pc := BitVec.ofNat 16 ((e.pc.toNat + 1) % 8192) } := by
  refine congrArg Host.Outcome.next ((if_neg (by omega)).trans (State.updRidge_congr ?_))
  rw [← he]
  unfold Engine.repOver
  rw [h0]
  rfl

/-! ### The statement -/

/-- What a word written at an address of a data memory holds. -/
theorem keptWord_cases (x : Nat) (v : Word) (isX : Bool) : keptWord isX x v = v ∨ (isX = true ∧ 0x46 ≤ x ∧ x < 0x80 ∧ keptWord isX x v = 0) ∨
    (isX = false ∧ x < 0x18 ∧ keptWord isX x v = v &&& 0x0FFF ∧ x = 0) ∨ (isX = false ∧ 0x09 ≤ x ∧ x ≤ 0x17 ∧ keptWord isX x v = 0) := by
  unfold keptWord
  cases isX with
  | true =>
    rw [if_pos rfl]
    split
    next h =>
      have h' : 0x46 ≤ x ∧ x < 0x80 := by
        simp at h
        omega
      exact .inr (.inl ⟨rfl, h'.1, h'.2, rfl⟩)
    · exact .inl rfl
  | false =>
    rw [if_neg (by decide)]
    split
    next h => exact .inr (.inr (.inl ⟨rfl, by omega, rfl, h⟩))
    next h =>
      split
      next h' =>
        simp at h'
        exact .inr (.inr (.inr ⟨rfl, h'.1, h'.2, rfl⟩))
      · exact .inl rfl

/-- Settles O59: what each socket leaves of a quiet engine (`stepped_of_moved`, `stepped_of_control`), the landing trigger, the interrupt. -/
theorem knahaMemoryAndControl : Obligations.KnahaMemoryAndControl := by
  refine ⟨?store, fun a v isX => keptWord_cases a v isX, ?read, ?loop, ?jump, ?custom, ?mac, fun s r e hs hr he h0 => leaves_repeatEnd hr he h0, ?irq, ?held,
    fun s a e w he hr hs ha ho hi hq hg sh hsh => ?ret⟩
  case store =>
    intro s a v e u h he hu
    have ⟨hrep, _, _, hcst, hjump⟩ := quiet_of_runsOn h he
    have hlen := units_length_of_runsOn h he
    obtain ⟨hmem, -⟩ := shows_of_runsOn h
    have hw := leaves_of_runsOn (c := .memWrite a u) h he rfl rfl (by omega) (by omega) (by omega)
    have hin : Inert (0x40 + u) := .inl (by omega)
    rw [stepped_of_moved rfl (moved_store hlen hcst rfl hmem hu) (by rw [hin.trigUnit]; decide) (by omega) (by omega) hrep hjump rfl] at hw
    exact hw
  case read =>
    intro s a e u i hs hr hrun ho he hq hg hu hi
    have hlen : e.units.length = 8 := he ▸ hs.units_length hr
    have ⟨hrep, _, _, hcst, hjump⟩ := hq
    have hw := leaves_of_single (a := reading a u) (c := .memRead a u (0x08 + i)) (k := ridgeKind (s.ridge a.eng).bank) (d := 0x08 + i) hr hrun he rfl rfl
      ho (by omega) hq hg (by omega) (by omega) (moveVal_read hu)
    have hreg := trigUnit_of_registerDst (registerDst_gp hi)
    have hpeek : e.peek (ridgeKind (s.ridge a.eng).bank) u = cellsRead (if u < 4 then e.x else e.y) ((e.unit u).ptr.toNat % 4096) := by
      unfold Engine.peek
      split <;> rfl
    rw [show (reading a u).op.src = .sock (0x20 + u) from rfl, hpeek,
      stepped_of_moved rfl (moved_read hlen hcst hu hi) (by rw [hreg]; decide) (by omega) (by omega) hrep hjump rfl] at hw
    exact hw
  case loop =>
    intro s a v e c h hr he hc
    have hq := quiet_of_runsOn hr he
    have hlen := units_length_of_runsOn hr he
    obtain ⟨hmem, -⟩ := shows_of_runsOn hr
    have hw : ∀ d, (d = 0x61 ∨ d = 0x62) → exec c s = runWord a.eng (argBits a d) s → (d == 0x62) = h → Leaves c s a.eng
        (if v = 0 then { nextWord e with pc := BitVec.ofNat 16 ((e.pc.toNat + 2) % 8192) }
          else { nextWord e with rep := some (min v.toNat 1023), repHold := h }) := fun d hd hx hh => by
      have hw := leaves_of_runsOn hr he rfl hx (by omega) (by omega) (by omega)
      rw [stepped_of_control hq hlen hmem (by obtain rfl | rfl := hd <;> decide) (advance_loop rfl hq hd), hh] at hw
      split
      next h0 =>
        rw [if_pos h0] at hw
        exact hw
      next h0 =>
        rw [if_neg h0] at hw
        exact hw
    have hall : Leaves c s a.eng
        (if v = 0 then { nextWord e with pc := BitVec.ofNat 16 ((e.pc.toNat + 2) % 8192) }
          else { nextWord e with rep := some (min v.toNat 1023), repHold := h }) := by
      obtain ⟨rfl, rfl⟩ | ⟨rfl, rfl⟩ := hc
      · exact hw 0x61 (.inl rfl) rfl rfl
      · exact hw 0x62 (.inr rfl) rfl rfl
    refine ⟨fun h0 => ?_, fun h0 => ?_⟩
    · rwa [if_neg h0] at hall
    · rwa [if_pos h0] at hall
  case jump =>
    intro s a v e hr he
    have hq := quiet_of_runsOn hr he
    have hlen := units_length_of_runsOn hr he
    obtain ⟨hmem, -⟩ := shows_of_runsOn hr
    obtain ⟨j1, j2, j3, j4⟩ := advance_jump (k := ridgeKind (s.ridge a.eng).bank) (src := a.op.src) (v := v) rfl hq
    refine ⟨?_, ?_, fun x rest hc => ?_, fun hc => ?_⟩
    · have hw := leaves_of_runsOn (c := .pcJmp a) hr he rfl rfl (by decide) (by decide) (by decide)
      rwa [stepped_of_control hq hlen hmem (by decide) j1] at hw
    · have hw := leaves_of_runsOn (c := .pcCall a) hr he rfl rfl (by decide) (by decide) (by decide)
      rwa [stepped_of_control hq hlen hmem (by decide) j2] at hw
    · have hw := leaves_of_runsOn (c := .pcRet a) hr he rfl rfl (by decide) (by decide) (by decide)
      rwa [stepped_of_control hq hlen hmem (by decide) (j3 x rest hc)] at hw
    · have hw := leaves_of_runsOn (c := .pcRet a) hr he rfl rfl (by decide) (by decide) (by decide)
      rwa [stepped_of_control hq hlen hmem (by decide) (j4 hc)] at hw
  case custom =>
    intro s a v e n h he hn
    have hq := quiet_of_runsOn h he
    have ⟨hrep, _, _, hcst, hjump⟩ := hq
    have hlen := units_length_of_runsOn h he
    obtain ⟨hmem, -⟩ := shows_of_runsOn h
    have hw := leaves_of_runsOn (c := .cstTrigger a n) h he rfl rfl (by omega) (by omega) (by omega)
    rw [stepped_of_moved rfl (moved_custom hlen hmem hn) (by rw [trigUnit_custom hn]; decide) (by omega) (by omega) hrep hjump rfl] at hw
    exact hw
  case mac =>
    intro s r e o hs hr he hp hd
    refine ⟨fun x hx => ?_, fun x hx hlo hhi => ?_, fun x hx hhi => ?_⟩
    · exact leaves_macTrigger hr he hp hd (by rw [hx]; simp [MacDo.apply])
    · refine leaves_macTrigger hr he hp hd ?_
      have h1 : max accLow (min accTop (e.acc + x)) = e.acc + x := by
        rw [min_eq_right (show e.acc + x ≤ accTop from hhi), max_eq_right (show accLow ≤ e.acc + x from hlo)]
      have h2 : (decide (e.acc + x < accLow) || decide (accTop < e.acc + x)) = false := by
        simp only [Bool.or_eq_false_iff, decide_eq_false_iff_not, not_lt]
        exact ⟨hlo, hhi⟩
      rw [hx]
      simp only [MacDo.apply, h1, h2, Bool.or_false]
    · refine leaves_macTrigger hr he hp hd ?_
      have h1 : max accLow (min accTop (e.acc + x)) = accTop := by
        rw [min_eq_left (show accTop ≤ e.acc + x from hhi.le)]
        decide
      have h2 : (decide (e.acc + x < accLow) || decide (accTop < e.acc + x)) = true := by
        rw [Bool.or_eq_true]
        exact .inr (decide_eq_true hhi)
      rw [hx]
      simp only [MacDo.apply, h1, h2, Bool.or_true]
      rfl
  case irq =>
    intro s vec e hr he hsh hres hh
    subst he
    have hmay := mayInterrupt_of hsh hres hh
    refine ⟨fun h0 => congrArg Host.Outcome.next (if_neg (by simp [h0])), fun h0 => ⟨_, congrArg Host.Outcome.next (if_pos (by simp [hr, hmay, h0])), ?_⟩⟩
    obtain ⟨i1, i2, i3, i4, i5, i6, i7⟩ := interrupt_spec (k := s.supKind) (e := s.sup.eng) s.enabledIrqs vec
    exact ⟨rfl, i1, i2, i3, i4, i5, i6, i7, fun x => pending_after x⟩
  case held => exact fun s vec hm => congrArg Host.Outcome.next (if_neg (by simp [hm]))
  case ret =>
    subst he
    exact irqRet_spec hr hs ha ho hi hq hg hsh

end Sys2Proof.Machine
end

section
/-! PROOF. Duties, requests, the publish and its window. -/
namespace Sys2Proof.Machine
variable {s t u : State} {r k j : Nat}

/-! ### The words that put something out (R35, R161) -/

/-- R35, R161: a word of one move whose socket the engine does not hold. -/
theorem cycle_out {a : KArg} {v : Word} {e : Engine} {d : Nat} (h : RunsOn s a v) (he : e = (s.ridge a.eng).eng) (hd : 0x68 ≤ d ∧ d ≤ 0x71) :
    e.cycle (ridgeKind (s.ridge a.eng).bank) s.freeN (decodeWord (argBits a d)) =
      { eng := { nextWord e with running := e.running && !(d == 0x70) }
        duty := if 0x68 ≤ d ∧ d ≤ 0x6F then [(d - 0x68, v)] else []
        publish := d == 0x70
        steer := if d = 0x71 then some v else none } := by
  obtain ⟨hmem, hshows⟩ := shows_of_runsOn h
  have hq := quiet_of_runsOn h he
  have hlen := units_length_of_runsOn h he
  obtain ⟨-, -, -, hone, -, hg, -⟩ := h
  subst he
  have hin : Inert d := .inr (.inl hd)
  have hst : (s.ridge a.eng).eng.stepped (ridgeKind (s.ridge a.eng).bank) ⟨a.op.src, d, v⟩ = nextWord (s.ridge a.eng).eng :=
    stepped_of_inert rfl hq hlen hmem hin (by omega) (by omega)
  have hrun : ((s.ridge a.eng).eng.single (ridgeKind (s.ridge a.eng).bank) ⟨a.op.src, d, v⟩).running = (s.ridge a.eng).eng.running :=
    (congrArg Engine.running hst : _)
  rw [decodeWord_oneMove hone (by omega), ridge_single rfl hq hg (by omega) ((moveVal_eq_shows rfl hmem).trans hshows), hst, hrun]

/-- The ridge's own part of a word. -/
def Ridge.worded (o : KOut) (q : Ridge) : Ridge :=
  { q with eng := o.eng, steerWord := match o.steer with
      | some v => mergeSteer q.steerWord v
      | none => q.steerWord }

theorem exec_out {a : KArg} {v : Word} {e : Engine} {c : Instr} {d : Nat} {o : KOut} (h : RunsOn s a v) (he : e = (s.ridge a.eng).eng)
    (hc : exec c s = runWord a.eng (argBits a d) s)
    (ho : e.cycle (ridgeKind (s.ridge a.eng).bank) s.freeN (decodeWord (argBits a d)) = o) :
    exec c s = .next (if o.publish then
        (o.duty.foldl (fun t x => t.updPhase (8 * a.eng + x.1) fun f => { f with shadow := x.2.toNat }) (s.updRidge a.eng (Ridge.worded o))).publish a.eng e.cyc
      else o.duty.foldl (fun t x => t.updPhase (8 * a.eng + x.1) fun f => { f with shadow := x.2.toNat }) (s.updRidge a.eng (Ridge.worded o))) := by
  obtain ⟨-, hr, hrun, -⟩ := h
  subst he
  rw [hc, runWord, if_neg (by omega), ridgeWord, if_pos hrun, ← ho]
  rfl

theorem pwmDuty_goes {a : KArg} {v : Word} {e : Engine} (h : RunsOn s a v) (he : e = (s.ridge a.eng).eng) (hk : k < 8) :
    GoesTo (.pwmDutyWrite a k) s
      ((s.updRidge a.eng fun q => { q with eng := nextWord e }).updPhase (8 * a.eng + k) fun f => { f with shadow := v.toNat }) := by
  have ho := cycle_out (d := 0x68 + k) h he (by omega)
  have h70 : (0x68 + k == 0x70) = false := by
    rw [beq_eq_false_iff_ne]
    omega
  rw [if_pos (by omega), if_neg (by omega), h70, Nat.add_sub_cancel_left, Bool.not_false, Bool.and_true] at ho
  exact exec_out (c := .pwmDutyWrite a k) h he rfl ho

theorem steerReq_goes {a : KArg} {v : Word} {e : Engine} (h : RunsOn s a v) (he : e = (s.ridge a.eng).eng) :
    GoesTo (.steerReq a) s (s.updRidge a.eng fun q => { q with eng := nextWord e, steerWord := mergeSteer q.steerWord v }) := by
  have ho := cycle_out (d := 0x71) h he (by decide)
  rw [if_neg (by decide), if_pos rfl] at ho
  have hx := exec_out (c := .steerReq a) h he rfl ho
  rw [if_neg (show ¬((0x71 : Nat) == 0x70) = true by decide)] at hx
  refine hx.trans (congrArg Host.Outcome.next (State.updRidge_congr ?_))
  simp [Ridge.worded, nextWord]

theorem updRidge_updRidge {f g : Ridge → Ridge} : (s.updRidge r f).updRidge r g = s.updRidge r (g ∘ f) := by
  unfold State.updRidge
  rw [List.modify_modify_eq]

theorem pwmPub_goes {a : KArg} {v : Word} {e : Engine} {n : Nat} (h : RunsOn s a v) (he : e = (s.ridge a.eng).eng) (hn : n = s.deadline - 1 - e.cyc) :
    GoesTo (.pwmPub a) s (s.updRidge a.eng fun q =>
      { q with
        eng := { nextWord e with running := false }, published := true, checkDue := true, pubCyc := e.cyc
        run := if q.run == .held then .running else q.run
        paceMarginNow := min q.paceMarginNow n, paceMarginMin := min q.paceMarginMin n }) := by
  have ho := cycle_out (d := 0x70) h he (by decide)
  rw [if_neg (by decide), if_neg (by decide), show ((0x70 : Nat) == 0x70) = true from rfl, Bool.not_true, Bool.and_false] at ho
  have hx := exec_out (c := .pwmPub a) h he rfl ho
  rw [if_pos rfl] at hx
  subst hn
  refine hx.trans (congrArg Host.Outcome.next ?_)
  unfold State.publish
  dsimp only [List.foldl_nil]
  rw [updRidge_updRidge]
  refine State.updRidge_congr ?_
  rfl

/-! ### The publish window (R38, R39, R43) -/

/-- A sum of flags at their own bits shows each of them, and fits in as many bits. -/
theorem testBit_flags (b : Nat → Bool) (n : Nat) :
    ((List.range n).map fun j => bitAt j (b j)).sum < 2 ^ n ∧
      ∀ j, j < n → (((List.range n).map fun j => bitAt j (b j)).sum).testBit j = b j := by
  induction n with
  | zero => exact ⟨by simp, fun j hj => absurd hj (by omega)⟩
  | succ n ih =>
    obtain ⟨hlt, ih⟩ := ih
    have hs : ((List.range (n + 1)).map fun j => bitAt j (b j)).sum = 2 ^ n * (b n).toNat + ((List.range n).map fun j => bitAt j (b j)).sum := by
      rw [List.range_succ, List.map_append, List.sum_append]
      simp [bitAt, Nat.mul_comm, Nat.add_comm]
    rw [hs]
    have hb : (b n).toNat ≤ 1 := (b n).toNat_le
    refine ⟨?_, fun j hj => ?_⟩
    · have hle := Nat.mul_le_mul_left (2 ^ n) hb
      rw [Nat.pow_succ]
      omega
    · rw [Nat.testBit_two_pow_mul_add _ hlt]
      split
      next h => exact ih j h
      next h =>
        have hjn : j = n := by omega
        subst hjn
        rw [Nat.sub_self]
        cases b j <;> rfl

theorem missMask_spec (r : Nat) :
    missMask s r < 2 ^ 8 ∧
      ∀ j, j < 8 → (missMask s r).testBit j = (!unchecked (s.phase (8 * r + j)) && dutyFails s (8 * r + j)) := testBit_flags _ 8

/-- R38: the sweep of the publish window changes phases, and what a stopped phase reports. -/
def PhasesOnly (s t : State) : Prop :=
  t = { s with phases := t.phases, faultN := t.faultN, attn := t.attn, irq := t.irq } ∧ t.phases.length = s.phases.length

theorem PhasesOnly.dutyFails (h : PhasesOnly s t) (hk : t.phase k = s.phase k) : dutyFails t k = dutyFails s k := by
  obtain ⟨h, -⟩ := h
  have hl : t.ledger = s.ledger := by rw [h]
  have hp : t.ports = s.ports := by rw [h]
  have hpath : ∀ p, t.path p = s.path p := fun p => by rw [h]; rfl
  have hi : idlePhase t k = idlePhase s k := by rw [idlePhase, idlePhase, hk, hl]
  have hsh : shedPhase t k = shedPhase s k := by
    unfold shedPhase
    rw [hl]
    simp only [hpath]
  have hst : steeredPort t k = steeredPort s k := by rw [steeredPort, steeredPort, hk]
  have hcm : checkMode t k = checkMode s k := by
    unfold checkMode
    rw [hk, hl, hst]
    simp only [hpath]
  have hv : ∀ p, vCeil10 t p = vCeil10 s p := fun p => by rw [h]; rfl
  have hc : dutyCeil t k = dutyCeil s k := by
    unfold dutyCeil
    rw [hcm, hst]
    simp only [hpath, hv]
    rw [h]
    rfl
  unfold Machine.dutyFails
  rw [hi, hsh, hc, hk]

/-- R38, R39: phase k as the publish window leaves it. -/
def CheckedAs (s : State) (k : Nat) (f : Phase) : Prop :=
  (unchecked (s.phase k) = true → f = s.phase k) ∧
    (unchecked (s.phase k) = false → dutyFails s k = false → f = { s.phase k with missed := false, checked := if shedPhase s k then 0 else (s.phase k).shadow }) ∧
    (unchecked (s.phase k) = false → dutyFails s k = true →
      ((s.phase k).missed = false → f = { s.phase k with missed := true, checked := if idlePhase s k then 0 else (s.phase k).active }) ∧
      ((s.phase k).missed = true → f.stopped = true ∧ f.active = 0 ∧ f.steer = 0 ∧ f.flt.sticky.getLsbD 0 = true))

theorem checkPhase_spec (hk : k < s.phases.length) :
    PhasesOnly s (checkPhase s k) ∧ (∀ x, x ≠ k → (checkPhase s k).phase x = s.phase x) ∧ CheckedAs s k ((checkPhase s k).phase k) := by
  unfold checkPhase CheckedAs
  dsimp only
  split
  next h =>
    refine ⟨⟨rfl, rfl⟩, fun _ _ => rfl, fun _ => rfl, ?_⟩
    simp [h]
  next h =>
    have hu : unchecked (s.phase k) = false := by simpa using h
    split
    next hf =>
      split
      next hm =>
        have hk' : k < (s.updPhase k fun f => { f with checked := 0 }).phases.length := by rwa [State.updPhase_length]
        obtain ⟨⟨e, o, -⟩, h1, h2, -, h4, h5, -, h7, -⟩ := State.stopPhase_spec hk' (b := 0) (by decide)
        have hlen := (State.raisePhase_frame (s := (s.updPhase k fun f => { f with checked := 0 }).updPhase k fun f => { f.off with stopped := true }) k 0).2.1
        refine ⟨⟨?_, ?_⟩, fun x hx => (o x hx).trans (State.phase_updPhase_ne _ _ _ _ hx), by simp [hu], by simp [hf], fun _ _ => ⟨by simp [hm], fun _ => ⟨h2, h4, h5, h7⟩⟩⟩
        · rw [e, h1]
          rfl
        · exact hlen.trans (by rw [State.updPhase_length, State.updPhase_length])
      next hm =>
        refine ⟨⟨rfl, State.updPhase_length _ _ _⟩, fun x hx => State.phase_updPhase_ne _ _ _ _ hx, by simp [hu], by simp [hf], fun _ _ => ⟨fun _ => ?_, fun h' => absurd h' hm⟩⟩
        rw [State.phase_updPhase _ _ _ hk]
    next hf =>
      refine ⟨⟨rfl, State.updPhase_length _ _ _⟩, fun x hx => State.phase_updPhase_ne _ _ _ _ hx, by simp [hu], fun _ _ => ?_, fun _ h' => absurd h' hf⟩
      rw [State.phase_updPhase _ _ _ hk]

theorem PhasesOnly.trans (h : PhasesOnly s t) (k : PhasesOnly t u) : PhasesOnly s u := by
  obtain ⟨h1, h2⟩ := h
  obtain ⟨k1, k2⟩ := k
  refine ⟨?_, k2.trans h2⟩
  rw [k1, h1]

theorem CheckedAs.congr {f : Phase} (h : PhasesOnly s t) (hk : t.phase k = s.phase k) (hc : CheckedAs t k f) : CheckedAs s k f := by
  have hd := h.dutyFails hk
  obtain ⟨h, -⟩ := h
  have hi : idlePhase t k = idlePhase s k := by rw [idlePhase, idlePhase, hk, h]
  have hsh : shedPhase t k = shedPhase s k := by rw [h]; rfl
  unfold CheckedAs at hc ⊢
  rwa [hk, hd, hi, hsh] at hc

/-- R38: the sweep of a ridge's phases. -/
theorem checkPhases_spec (n : Nat) (hn : 8 * r + n ≤ s.phases.length) :
    PhasesOnly s (overN n (fun j t => checkPhase t (8 * r + j)) s) ∧
      (∀ x, (∀ j, j < n → x ≠ 8 * r + j) → (overN n (fun j t => checkPhase t (8 * r + j)) s).phase x = s.phase x) ∧
      ∀ j, j < n → CheckedAs s (8 * r + j) ((overN n (fun j t => checkPhase t (8 * r + j)) s).phase (8 * r + j)) := by
  induction n with
  | zero => exact ⟨⟨rfl, rfl⟩, fun _ _ => rfl, fun j hj => absurd hj (by omega)⟩
  | succ n ih =>
    obtain ⟨h1, h2, h3⟩ := ih (by omega)
    rw [overN_succ]
    generalize overN n (fun j t => checkPhase t (8 * r + j)) s = u at h1 h2 h3
    have hl : 8 * r + n < u.phases.length := by rw [h1.2]; omega
    obtain ⟨k1, k2, k3⟩ := checkPhase_spec hl
    refine ⟨h1.trans k1, fun x hx => ?_, fun j hj => ?_⟩
    · rw [k2 x (hx n (by omega)), h2 x fun j hj => hx j (by omega)]
    · by_cases e : j = n
      · subst e
        exact CheckedAs.congr h1 (h2 _ fun i hi => by omega) k3
      · rw [k2 _ (by omega)]
        exact h3 j (by omega)

/-- R38, R43: what the window notes of its misses. -/
def Ridge.checkedWith (miss : Nat) (q : Ridge) : Ridge :=
  { q with checkDue := false, pubMiss := q.pubMiss ||| BitVec.ofNat 16 miss, nPubmiss := if miss = 0 then q.nPubmiss else sat1 q.nPubmiss }

/-- R38, R43: the ridge and its report after the sweep. -/
def State.windowEnd (s : State) (r miss : Nat) : State :=
  if miss = 0 then s.updRidge r (Ridge.checkedWith miss) else (s.updRidge r (Ridge.checkedWith miss)).raise (.ridge r) 1

theorem State.windowEnd_spec {miss : Nat} (hr : r < s.ridges.length) :
    s.windowEnd r miss = { s with ridges := (s.windowEnd r miss).ridges, faultN := (s.windowEnd r miss).faultN, attn := (s.windowEnd r miss).attn,
                                  irq := (s.windowEnd r miss).irq } ∧
      ((s.windowEnd r miss).ridge r).checkDue = false ∧ (∀ x, x ≠ r → (s.windowEnd r miss).ridge x = s.ridge x) ∧
      ((s.windowEnd r miss).ridge r).pubMiss = (s.ridge r).pubMiss ||| BitVec.ofNat 16 miss ∧
      (miss ≠ 0 → ((s.windowEnd r miss).ridge r).flt.sticky.getLsbD 1 = true) := by
  have hq := State.ridge_updRidge s r (Ridge.checkedWith miss) hr
  have ho : ∀ x, x ≠ r → (s.updRidge r (Ridge.checkedWith miss)).ridge x = s.ridge x := fun x hx => State.ridge_updRidge_ne _ _ _ _ hx
  have hf : s.updRidge r (Ridge.checkedWith miss) = { s with ridges := (s.updRidge r (Ridge.checkedWith miss)).ridges } := rfl
  have hl : r < (s.updRidge r (Ridge.checkedWith miss)).ridges.length := by rwa [State.updRidge_length]
  unfold State.windowEnd
  generalize s.updRidge r (Ridge.checkedWith miss) = v at hq ho hf hl ⊢
  split
  next h0 =>
    refine ⟨by rw [hf], by rw [hq]; rfl, ho, by rw [hq]; rfl, fun h => absurd h0 h⟩
  next h0 =>
    obtain ⟨e, -, o⟩ := State.raiseRidge_frame (s := v) r 1
    have hb := State.raise_ridge_bare v (.ridge r) 1 r
    rw [hq] at hb
    refine ⟨?_, ?_, fun x hx => (o x hx).trans (ho x hx), ?_, fun _ => State.raiseRidge_sticky hl (by decide)⟩
    · rw [e, hf]
    · exact congrArg Ridge.checkDue hb
    · exact congrArg Ridge.pubMiss hb

theorem publishWindow_eq (hc : (s.ridge r).checkDue = true) (hl : s.ridgeLive r = true) :
    publishWindow r s = (overN 8 (fun j t => checkPhase t (8 * r + j)) s).windowEnd r (missMask s r) :=
  if_pos (by simp [hc, hl])

theorem publishWindow_spec (hs : s.Shaped) (hl : s.ridgeLive r = true) (hc : (s.ridge r).checkDue = true) (hu : u = publishWindow r s) :
    u = { s with phases := u.phases, ridges := u.ridges, faultN := u.faultN, attn := u.attn, irq := u.irq } ∧ (u.ridge r).checkDue = false ∧
      (∀ x, x ≠ r → u.ridge x = s.ridge x) ∧ (∀ k, ridgeOfPhase k ≠ r → u.phase k = s.phase k) ∧
      ∀ j k, j < 8 → k = 8 * r + j →
        CheckedAs s k (u.phase k) ∧
          (unchecked (s.phase k) = false → dutyFails s k = true → (u.ridge r).flt.sticky.getLsbD 1 = true ∧ (u.ridge r).pubMiss.getLsbD j = true) := by
  have hr : r < 6 := (State.ridgeLive_iff.1 hl).1
  have h48 := hs.2.1
  obtain ⟨⟨p1, p2⟩, p3, p4⟩ := checkPhases_spec (s := s) (r := r) 8 (by omega)
  obtain ⟨m1, m2⟩ := missMask_spec (s := s) r
  rw [publishWindow_eq hc hl] at hu
  generalize overN 8 (fun j t => checkPhase t (8 * r + j)) s = v at p1 p2 p3 p4 hu
  have hvr : v.ridges = s.ridges := by rw [p1]
  obtain ⟨e1, e2, e3, e4, e5⟩ := State.windowEnd_spec (s := v) (r := r) (miss := missMask s r) (by rw [hvr]; exact hs.ridge_lt hr)
  rw [← hu] at e1 e2 e3 e4 e5
  have hup : ∀ k, u.phase k = v.phase k := fun k => by rw [e1]; rfl
  have hvx : ∀ x, v.ridge x = s.ridge x := fun x => by rw [p1]; rfl
  refine ⟨?_, e2, fun x hx => (e3 x hx).trans (hvx x), fun k hk => (hup k).trans (p3 k fun j hj e => hk ?_), fun j k hj hk => ?_⟩
  · rw [e1, p1]
  · unfold ridgeOfPhase
    omega
  · subst hk
    rw [hup]
    refine ⟨p4 j hj, fun h1 h2 => ?_⟩
    have hbit : (missMask s r).testBit j = true := by rw [m2 j hj, h1, h2]; rfl
    refine ⟨e5 fun h0 => by simp [h0] at hbit, ?_⟩
    rw [e4, BitVec.getLsbD_or, BitVec.getLsbD_ofNat, hbit]
    simp [show j < 16 by omega]

/-- Settles O60: the words of the duties, the requests and the publish (`exec_out`), and the window's sweep (`checkPhases_spec`). -/
theorem dutiesAndPublish : Obligations.DutiesAndPublish := by
  refine ⟨fun s a v e k h he hk => pwmDuty_goes h he hk, fun s a v e h he => steerReq_goes h he, fun s a v e n h he hn => pwmPub_goes h he hn,
    fun s u r hs hl hc hu => ?_⟩
  obtain ⟨h1, h2, h3, h4, h5⟩ := publishWindow_spec hs hl hc hu
  refine ⟨h1, h2, h3, h4, fun j k hj hk => ?_⟩
  obtain ⟨⟨c1, c2, c3⟩, c4⟩ := h5 j k hj hk
  refine ⟨c1, c2, fun hun hf => ?_⟩
  obtain ⟨d1, d2⟩ := c4 hun hf
  obtain ⟨d3, d4⟩ := c3 hun hf
  exact ⟨d1, d2, d3, d4⟩

end Sys2Proof.Machine
end

section
/-! PROOF. The Innkeeper's events. -/
namespace Sys2Proof.Machine
variable {s t u : State}

/-! ### What a solve leaves (R48, R49, R50) -/

/-- R49: a port after the solve that carries its next contract. -/
def SolvedPorts (s t : State) : Prop :=
  (∀ p, t.port p = { s.port p with pd := { s.pd p with nextIn := (t.pd p).nextIn } }) ∧ ∀ p, (s.pd p).next = none → (t.pd p).nextIn = (s.pd p).nextIn

theorem updPd_solvedFor (n : Nat) (p : Nat) :
    (s.updPd n Pd.solvedFor).port p = { s.port p with pd := { s.pd p with nextIn := ((s.updPd n Pd.solvedFor).pd p).nextIn } } ∧
      ((s.pd p).next = none → ((s.updPd n Pd.solvedFor).pd p).nextIn = (s.pd p).nextIn) := by
  have hout : (s.updPd n Pd.solvedFor).port p = s.port p → (s.updPd n Pd.solvedFor).port p =
      { s.port p with pd := { s.pd p with nextIn := ((s.updPd n Pd.solvedFor).pd p).nextIn } } ∧
        ((s.pd p).next = none → ((s.updPd n Pd.solvedFor).pd p).nextIn = (s.pd p).nextIn) := fun h => by
    unfold State.pd
    rw [h]
    exact ⟨rfl, fun _ => rfl⟩
  by_cases e : p = n
  · subst e
    by_cases l : p < s.ports.length
    · have h : (s.updPd p Pd.solvedFor).port p = { s.port p with pd := (s.port p).pd.solvedFor } := State.port_updPort _ _ _ l
      unfold State.pd
      rw [h]
      refine ⟨rfl, fun hn => ?_⟩
      simp [Pd.solvedFor, hn]
    · exact hout (by simp [State.updPd, State.updPort, State.port, l])
  · exact hout (State.port_updPort_ne _ _ _ _ e)

theorem SolvedPorts.updPd (h : SolvedPorts s t) (n : Nat) : SolvedPorts s (t.updPd n Pd.solvedFor) := by
  obtain ⟨h1, h2⟩ := h
  have hnext : ∀ p, (t.pd p).next = (s.pd p).next := fun p => by
    unfold State.pd
    rw [h1 p]
    rfl
  refine ⟨fun p => ?_, fun p hp => ?_⟩
  · have hk := (updPd_solvedFor (s := t) n p).1
    have hd : t.pd p = { s.pd p with nextIn := (t.pd p).nextIn } := congrArg Port.pd (h1 p)
    rw [hd, h1 p] at hk
    exact hk
  · exact ((updPd_solvedFor (s := t) n p).2 ((hnext p).trans hp)).trans (h2 p hp)

theorem SolvedPorts.sweep (n : Nat) (s : State) :
    SolvedPorts s (overN n (fun p u => u.updPd p Pd.solvedFor) s) ∧
      overN n (fun p u => u.updPd p Pd.solvedFor) s = { s with ports := (overN n (fun p u => u.updPd p Pd.solvedFor) s).ports } := by
  induction n with
  | zero => exact ⟨⟨fun _ => rfl, fun _ _ => rfl⟩, rfl⟩
  | succ n ih =>
    obtain ⟨h1, h2⟩ := ih
    rw [overN_succ]
    generalize overN n (fun p u => u.updPd p Pd.solvedFor) s = u at h1 h2
    refine ⟨h1.updPd n, ?_⟩
    rw [h2]
    rfl

theorem takeProbes_frame (s : State) : takeProbes s = { s with ridges := (takeProbes s).ridges } := by
  unfold takeProbes
  exact (overN_updRidgeOf (fun r q => { q with probe := solveProbe s r }) 6 s).1

theorem solveLedger_spec (s : State) :
    (solveLedger s).hdr.frame = (s.frame + 1) % 2 ^ 32 ∧ (solveLedger s).phases.length = 48 ∧ (solveLedger s).ports.length = 24 := by
  unfold solveLedger allPorts
  dsimp only
  simp

/-- R48: what the solve that finishes leaves. -/
theorem solveNow_spec (s : State) :
    SolvedPorts s (solveNow s) ∧
      solveNow s = { s with
        ridges := (solveNow s).ridges, ports := (solveNow s).ports
        inn := { s.inn with next := some (solveLedger s), reducedNext := false, bPhys := (solveNow s).inn.bPhys } } := by
  have ht := takeProbes_frame s
  unfold solveNow
  dsimp only
  generalize hv : ({ takeProbes s with inn := { (takeProbes s).inn with next := some (solveLedger s), reducedNext := false, bPhys := satU16 (bPhysNow s) } } : State) = v
  have hvs : v = { s with ridges := v.ridges, inn := { s.inn with next := some (solveLedger s), reducedNext := false, bPhys := v.inn.bPhys } } := by
    rw [← hv, ht]
  obtain ⟨h1, h2⟩ := SolvedPorts.sweep 24 v
  generalize overN 24 (fun p u => u.updPd p Pd.solvedFor) v = w at h1 h2 ⊢
  have hports : ∀ p, v.port p = s.port p := fun p => by rw [hvs]; rfl
  have hpd : ∀ p, v.pd p = s.pd p := fun p => by rw [hvs]; rfl
  refine ⟨?_, ?_⟩
  · unfold SolvedPorts at h1 ⊢
    simpa only [hports, hpd] using h1
  · rw [h2, hvs]

/-! ### The shed backstop (R390) -/

theorem overList_unchecked (l : List Nat) (hl : ∀ k ∈ l, k < s.phases.length) :
    overList l (fun k t => t.updPhase k fun f => { f with checked := 0 }) s =
        { s with phases := (overList l (fun k t => t.updPhase k fun f => { f with checked := 0 }) s).phases } ∧
      (∀ k, k ∈ l → (overList l (fun k t => t.updPhase k fun f => { f with checked := 0 }) s).phase k = { s.phase k with checked := 0 }) ∧
      ∀ k, k ∉ l → (overList l (fun k t => t.updPhase k fun f => { f with checked := 0 }) s).phase k = s.phase k := by
  induction l generalizing s with
  | nil => exact ⟨rfl, fun k hk => absurd hk (by simp), fun _ _ => rfl⟩
  | cons a l ih =>
    have ha := hl a (by simp)
    have hp := State.phase_updPhase s a (fun f => { f with checked := 0 }) ha
    obtain ⟨h1, h2, h3⟩ := ih (s := s.updPhase a fun f => { f with checked := 0 }) fun k hk => by
      rw [State.updPhase_length]
      exact hl k (by simp [hk])
    have he : overList (a :: l) (fun k t => t.updPhase k fun f => { f with checked := 0 }) s =
      overList l (fun k t => t.updPhase k fun f => { f with checked := 0 }) (s.updPhase a fun f => { f with checked := 0 }) := rfl
    rw [he]
    generalize overList l (fun k t => t.updPhase k fun f => { f with checked := 0 }) (s.updPhase a fun f => { f with checked := 0 }) = v at h1 h2 h3 ⊢
    refine ⟨?_, fun k hk => ?_, fun k hk => ?_⟩
    · rw [h1]
      rfl
    · by_cases hkl : k ∈ l
      · rw [h2 k hkl]
        by_cases e : k = a
        · rw [e, hp]
        · rw [State.phase_updPhase_ne _ _ _ _ e]
      · have e : k = a := by simpa [hkl] using hk
        rw [h3 k hkl, e, hp]
    · rw [List.mem_cons, not_or] at hk
      rw [h3 k hk.2, State.phase_updPhase_ne _ _ _ _ hk.1]

theorem reachable_lt {p k : Nat} (hp : p < 24) (hk : k ∈ reachable p) : k < 48 := by
  unfold reachable at hk
  dsimp only at hk
  split at hk
  · simp at hk
    omega
  · simp at hk
    omega

theorem Ledger.on_lt {l : Ledger} {p k : Nat} (hp : p < 24) (hk : k ∈ l.on p) : k < 48 :=
  reachable_lt hp (List.mem_of_mem_filter hk)

/-- R390: what the backstop leaves. -/
theorem shedBackstop_spec {p : Nat} (hs : s.Shaped) (hp : p < 24) (hl : s.locked = true) (ht : (s.ledger.port p).tier ≠ 0)
    (hsh : (s.path p).shed = false) (hpl : s.placed p = true) (h3 : 3 ≤ (s.ridge (ridgeOfPort p)).shedRun.getD (s.ledger.port p).tier 0) :
    Goes (.shedBackstop p) s fun t =>
      t = { s with phases := t.phases, ports := t.ports, ridges := t.ridges } ∧ (t.path p).shed = true ∧
        (∀ k, k ∈ s.ledger.on p → (t.phase k).checked = 0 ∧ (t.phase k).active = (s.phase k).active) ∧
        (∀ k, k ∉ s.ledger.on p → t.phase k = s.phase k) ∧ (∀ q, q ≠ p → t.port q = s.port q) := by
  have hcond : (decide (p < 24) && s.locked && (s.ledger.port p).tier != 0 && !(s.path p).shed && s.placed p &&
      decide (3 ≤ (s.ridge (ridgeOfPort p)).shedRun.getD (s.ledger.port p).tier 0)) = true := by
    rw [decide_eq_true h3]
    simp [hp, hl, ht, hsh, hpl]
  refine ⟨_, congrArg Host.Outcome.next (if_pos hcond), ?_⟩
  have hlen : ∀ k ∈ s.ledger.on p, k < s.phases.length := fun k hk => by
    rw [hs.2.1]
    exact Ledger.on_lt hp hk
  obtain ⟨h1, h2, h3⟩ := overList_unchecked (s.ledger.on p) hlen
  dsimp only
  generalize overList (s.ledger.on p) (fun k t => t.updPhase k fun f => { f with checked := 0 }) s = v at h1 h2 h3 ⊢
  have hvp : p < v.ports.length := by rw [h1]; exact hs.1 ▸ hp
  refine ⟨?_, ?_, fun k hk => ?_, fun k hk => h3 k hk, fun q hq => ?_⟩
  · rw [h1]
    rfl
  · exact congrArg (fun q : Port => q.path.shed) (State.port_updPort v p (fun q => { q with path := { q.path with shed := true } }) hvp)
  · have h := h2 k hk
    show (v.phase k).checked = 0 ∧ (v.phase k).active = (s.phase k).active
    rw [h]
    exact ⟨rfl, rfl⟩
  · refine (State.port_updPort_ne v p q _ hq).trans ?_
    rw [h1]
    rfl

/-- R50: the report of a task that has reached its cap. -/
theorem raiseSupv_capped (q : Sup) :
    ({ s with sup := q } : State).raise .supv 2 =
        { s with sup := (({ s with sup := q } : State).raise .supv 2).sup, fltSupv := (({ s with sup := q } : State).raise .supv 2).fltSupv
                 faultN := (({ s with sup := q } : State).raise .supv 2).faultN, attn := (({ s with sup := q } : State).raise .supv 2).attn
                 irq := (({ s with sup := q } : State).raise .supv 2).irq } ∧
      (({ s with sup := q } : State).raise .supv 2).fltSupv.sticky.getLsbD 2 = true ∧ (({ s with sup := q } : State).raise .supv 2).sup = q := by
  have hf := State.raiseSupv_frame (s := { s with sup := q }) 2
  have hb : (({ s with sup := q } : State).raise .supv 2).fltSupv.sticky.getLsbD 2 = true := State.raise_sticky _ .supv 2 trivial (by decide)
  generalize ({ s with sup := q } : State).raise .supv 2 = v at hf hb ⊢
  have hq : v.sup = q := by rw [hf]
  refine ⟨?_, hb, hq⟩
  rw [hq, hf]

/-- Settles O47: the solve (`solveNow_spec`), the caps, the dip and the degraded mode, and the backstop (`shedBackstop_spec`). -/
theorem innkeeperEvents : Obligations.InnkeeperEvents := by
  refine ⟨?solve, fun s hl hh => ⟨fun hs hn => ?cap, fun k hk => ?task⟩, ?degraded, ?hold, ?exit, ?feedless,
    fun s p hs hp hl ht hsh hpl h3 => shedBackstop_spec hs hp hl ht hsh hpl h3⟩
  case solve =>
    intro s hs hl hh hn hc hd hz
    obtain ⟨⟨h1, h2⟩, h3⟩ := solveNow_spec s
    have hz' : (!s.zeroWaits || s.sup.cmdCapped) = true := by obtain h | h := hz <;> simp [h]
    exact ⟨_, congrArg Host.Outcome.next (if_pos (by simp [hs, hl, hh, hn, hc, hd, hz'])), h1, h2, h3, solveLedger_spec s⟩
  case cap => exact congrArg Host.Outcome.next ((if_pos (by simp [hl, hh])).trans (if_pos (by simp [hs, hn])))
  case task =>
    cases k with
    | innkeeper => exact absurd rfl hk
    | policy =>
      exact ⟨_, congrArg Host.Outcome.next (if_pos (by simp [hl, hh])), raiseSupv_capped { s.sup with pdCapped := true }⟩
    | interpreter =>
      exact ⟨_, congrArg Host.Outcome.next (if_pos (by simp [hl, hh])), raiseSupv_capped { s.sup with cmdCapped := true }⟩
  case degraded => exact fun s f hf hle => congrArg Host.Outcome.next (if_pos (by simp [State.ran, State.framesSince, hf, hle]))
  case hold =>
    intro s hd ho hc
    refine congrArg Host.Outcome.next (if_pos ?_)
    obtain h | h | h := hc <;> simp [hd, ho, h, State.framesSince]
  case exit => exact fun s hd hc => congrArg Host.Outcome.next (if_pos (by simp [hd, hc]))
  case feedless => exact fun s hs hn hf => congrArg Host.Outcome.next (if_pos (by simp [hs, hn, hf]))

end Sys2Proof.Machine
end

section
/-! PROOF. The frame boundary. -/
namespace Sys2Proof.Machine
variable {s t u : State} {p : Nat}

/-! ### What the work of a boundary leaves standing -/

/-- The clock, the settings, the ledger, the device's measurements and the Innkeeper: what the commands of a boundary leave standing. -/
def State.standing (s : State) :=
  (s.frame, s.pace, s.paceZero, s.paceCount, s.locked, s.params, s.inForce, s.takeUp, s.sup.st, s.sup.schedDue, s.dev, s.ledger, s.inn)

/-- What stands is the same, whatever the blocks report. -/
def Stood (s t : State) : Prop := t.standing = s.standing

/-- What stands is the same, and the supervisor's record. -/
def Firm (s t : State) : Prop := Stood s t ∧ t.fltSupv = s.fltSupv

theorem Stood.refl (s : State) : Stood s s := rfl

theorem Stood.trans (h : Stood s t) (k : Stood t u) : Stood s u := Eq.trans k h

theorem Stood.ite {q : Prop} [Decidable q] {a b : State} (h : Stood s a) (k : Stood s b) : Stood s (if q then a else b) := by
  split
  · exact h
  · exact k

theorem Stood.overN {f : Nat → State → State} (h : ∀ i t, Stood t (f i t)) (n : Nat) (s : State) : Stood s (overN n f s) :=
  overN_keeps State.standing h n s

theorem Firm.refl (s : State) : Firm s s := ⟨rfl, rfl⟩

theorem Firm.trans (h : Firm s t) (k : Firm t u) : Firm s u := ⟨h.1.trans k.1, k.2.trans h.2⟩

theorem Firm.ite {q : Prop} [Decidable q] {a b : State} (h : Firm s a) (k : Firm s b) : Firm s (if q then a else b) := by
  split
  · exact h
  · exact k

theorem Firm.overN {f : Nat → State → State} (h : ∀ i t, Firm t (f i t)) (n : Nat) (s : State) : Firm s (overN n f s) :=
  ⟨Stood.overN (fun i t => (h i t).1) n s, overN_keeps State.fltSupv (fun i t => (h i t).2) n s⟩

theorem Firm.foldl {α : Type} {f : State → α → State} (h : ∀ t a, Firm t (f t a)) (l : List α) (s : State) : Firm s (l.foldl f s) := by
  induction l generalizing s with
  | nil => exact Firm.refl s
  | cons a l ih => exact (h s a).trans (ih _)

theorem OnlyPort.firm (h : OnlyPort p s t) : Firm s t := by
  obtain ⟨e, -, -⟩ := h
  unfold Firm Stood State.standing
  rw [e]
  exact ⟨rfl, rfl⟩

theorem PhasesOnly.firm (h : PhasesOnly s t) : Firm s t := by
  obtain ⟨e, -⟩ := h
  unfold Firm Stood State.standing
  rw [e]
  exact ⟨rfl, rfl⟩

/-- A raise reports, and leaves what stands. -/
theorem Stood.raise (b : Blk) (i : Nat) : Stood s (s.raise b i) := by
  unfold Stood State.standing
  simp only [State.raise_frame, State.raise_pace, State.raise_paceZero, State.raise_paceCount, State.raise_locked, State.raise_params,
    State.raise_inForce, State.raise_takeUp, State.raise_sup, State.raise_dev, State.raise_ledger, State.raise_inn]

theorem Stood.setFlt (b : Blk) (f : Flt) : Stood s (s.setFlt b f) := by
  cases b <;> rfl

theorem Firm.finishWait (w : WaitFor) (n : Nat) (d : List Byte) : Firm s (s.finishWait w n d) := by
  refine ⟨?_, State.finishWait_fltSupv ..⟩
  unfold Stood State.standing
  simp only [State.finishWait_frame, State.finishWait_pace, State.finishWait_paceZero, State.finishWait_paceCount, State.finishWait_locked,
    State.finishWait_params, State.finishWait_inForce, State.finishWait_takeUp, State.finishWait_sup, State.finishWait_dev,
    State.finishWait_ledger, State.finishWait_inn]

theorem Firm.hold (pl : Place) (w : WaitFor) : Firm s (s.hold pl w) := by
  refine ⟨?_, State.hold_fltSupv ..⟩
  unfold Stood State.standing
  simp only [State.hold_frame, State.hold_pace, State.hold_paceZero, State.hold_paceCount, State.hold_locked, State.hold_params,
    State.hold_inForce, State.hold_takeUp, State.hold_sup, State.hold_dev, State.hold_ledger, State.hold_inn]

theorem Firm.updRidge (r : Nat) (f : Ridge → Ridge) : Firm s (s.updRidge r f) := ⟨rfl, rfl⟩

theorem Firm.updPhase (k : Nat) (f : Phase → Phase) : Firm s (s.updPhase k f) := ⟨rfl, rfl⟩

theorem Firm.updFeed (x : Nat) (f : Feed → Feed) : Firm s (s.updFeed x f) := ⟨rfl, rfl⟩

theorem Firm.updPort (q : Nat) (f : Port → Port) : Firm s (s.updPort q f) := ⟨rfl, rfl⟩

theorem Firm.markDirty (n : Nat) : Firm s (s.markDirty n) := ⟨rfl, rfl⟩

theorem Firm.setPgOff (x : Nat) : Firm s (s.setPg x false) := by
  unfold State.setPg
  dsimp only
  rw [if_neg (show ¬(false && !(s.feed 0).pg && !(s.feed 1).pg) = true by simp)]
  exact Firm.ite (Firm.refl s) ⟨rfl, rfl⟩

theorem Firm.feedOff (x : Nat) : Firm s (s.feedOff x) := by
  have h : Firm s (s.gatesOff x .off) := (Firm.updFeed x _).trans (Firm.setPgOff x)
  unfold State.feedOff State.giveTurn
  exact h.trans (Firm.ite ⟨rfl, rfl⟩ (Firm.refl _))

theorem Firm.feedEnable (x : Nat) : Firm s (s.feedEnable x) := by
  unfold State.feedEnable
  dsimp only
  exact Firm.ite (Firm.ite (Firm.updFeed x _) ((Firm.updFeed x _).trans (Firm.feedOff x)))
    (Firm.ite ((Firm.updFeed x _).trans (Firm.updFeed x _)) (Firm.updFeed x _))

/-! ### Fault clears at the boundary (R257, R264, R265) -/

theorem Firm.switchBank (r : Nat) : Firm s (s.switchBank r) := by
  unfold State.switchBank
  refine Firm.trans (Firm.trans (Firm.updRidge r _) (Firm.ite ?_ (Firm.markDirty _))) (Firm.finishWait _ _ _)
  exact ⟨rfl, rfl⟩

theorem Firm.restartRidge (r : Nat) : Firm s (s.restartRidge r) := by
  unfold State.restartRidge
  extract_lets a b
  have ha : Firm s a := Firm.ite (Firm.switchBank r) (Firm.refl s)
  have hb : Firm a b := Firm.overN (fun _ _ => Firm.updPhase _ _) 8 a
  exact (ha.trans hb).trans (Firm.updRidge r _)

theorem Firm.release (b : Blk) (w : Word) : Firm s (s.release b w) := by
  unfold State.release
  split
  · exact Firm.ite ((Firm.updFeed _ _).trans (Firm.ite (Firm.updFeed _ _) (Firm.refl _))) (Firm.refl s)
  · exact Firm.ite (OnlyPort.enablePort (.refl _ _)).firm (Firm.refl s)
  · exact Firm.ite ((Firm.updPort _ _).trans (Firm.ite (OnlyPort.enablePort (.refl _ _)).firm (Firm.refl _))) (Firm.refl s)
  · exact Firm.updPhase _ _
  · exact (Firm.updRidge _ _).trans (Firm.ite (Firm.restartRidge _) (Firm.refl _))
  · exact Firm.refl s

theorem Stood.clearFault (b : Blk) (m : Word) : Stood s (s.clearFault b m) := by
  unfold State.clearFault
  extract_lets before again a c
  have ha : Stood s a := Stood.setFlt b _
  have hc : Stood a c := Stood.overN (fun _ _ => Stood.ite (Stood.raise _ _) (Stood.refl _)) 16 a
  exact (ha.trans hc).trans (Firm.release b _).1

theorem Stood.clearAt (pl : Place) : Stood s (clearAt pl s) := by
  unfold Machine.clearAt
  split
  · split
    · split
      · exact (Stood.clearFault _ _).trans (Firm.hold _ _).1
      · exact Stood.refl s
    · exact Stood.refl s
  · exact Stood.refl s

theorem Stood.dueClears : Stood s (dueClears s) :=
  (((Stood.clearAt .host0).trans (Stood.clearAt .host12)).trans (Stood.clearAt .tun0)).trans (Stood.clearAt .tun12)

/-! ### The steps of a boundary -/

theorem Stood.foldl {α : Type} {f : State → α → State} (h : ∀ t a, Stood t (f t a)) (l : List α) (s : State) : Stood s (l.foldl f s) := by
  induction l generalizing s with
  | nil => exact Stood.refl s
  | cons a l ih => exact (h s a).trans (ih _)

theorem Stood.checkPhase (k : Nat) : Stood s (checkPhase s k) := by
  unfold Machine.checkPhase
  dsimp only
  split
  · exact Stood.refl s
  · split
    · split
      · exact Stood.trans (t := (s.updPhase k fun f => { f with checked := 0 }).updPhase k fun f => { f.off with stopped := true }) rfl (Stood.raise _ _)
      · exact (Firm.updPhase k _).1
    · exact (Firm.updPhase k _).1

theorem Stood.publishWindow (r : Nat) : Stood s (publishWindow r s) := by
  unfold Machine.publishWindow
  split
  · extract_lets miss a b
    have ha : Stood s a := Stood.overN (fun _ _ => Stood.checkPhase _) 8 s
    have hb : Stood a b := (Firm.updRidge r _).1
    exact Stood.ite (ha.trans hb) ((ha.trans hb).trans (Stood.raise _ _))
  · exact Stood.refl s

theorem Stood.publishWindows : Stood s (publishWindows s) := Stood.overN (fun r _ => Stood.publishWindow r) 6 s

theorem Stood.takeMasks : Stood s (takeMasks s) := by
  unfold Machine.takeMasks
  refine Stood.trans (t := { s with fltWrites := [] }) rfl (Stood.foldl (fun t w => ?_) _ _)
  split
  · exact Stood.setFlt _ _
  · exact Stood.refl t

theorem Stood.newPace : Stood s s.newPace := by
  refine Stood.takeMasks.trans ?_
  unfold State.newPace takePin
  split
  · exact Stood.refl _
  · rfl

theorem Firm.placeFrame : Firm s (placeFrame s) := by
  unfold Machine.placeFrame
  extract_lets a b c
  have ha : Firm s a := Firm.overN (fun _ _ => Firm.updPhase _ _) 48 s
  have hb : Firm a b := Firm.overN (fun _ _ => Firm.updPort _ _) 24 a
  have hc : Firm b c := Firm.overN (fun _ _ => Firm.updPort _ _) 24 b
  exact ((ha.trans hb).trans hc).trans (Firm.overN (fun p t => Firm.ite (Firm.updPort _ _) (Firm.refl t)) 24 c)

theorem Firm.retireFrame : Firm s (retireFrame s) :=
  Firm.foldl (fun t x => by
    dsimp only
    split
    · refine Firm.trans ?_ (Firm.finishWait _ _ _)
      exact ⟨rfl, rfl⟩
    · exact Firm.refl t) s.retiring s

theorem Firm.readmitFrame : Firm s (readmitFrame s) :=
  Firm.overN (fun _ t => Firm.ite (Firm.finishWait _ _ _) (Firm.refl t)) 48 s

/-! ### The policy task (R49) -/

theorem Firm.updTester (f : Tester → Tester) : Firm s (s.updTester f) := ⟨rfl, rfl⟩

theorem Firm.sinkSpoke : Firm s (s.sinkSpoke p) := ⟨rfl, rfl⟩

theorem Firm.segAnswer (c : Nat) (k : VdmAck) (v : List Word32) : Firm s (segAnswer s p c k v) := ⟨rfl, rfl⟩

theorem Firm.segPut (hdr : Word32) (d : List Word32) : Firm s (segPut p hdr d s) := by
  unfold Machine.segPut
  split
  · extract_lets g a t cls b c
    have ha : Firm s a := Firm.sinkSpoke.trans (Firm.updTester _)
    have hb : Firm a b := Firm.updTester _
    have hc : Firm b c := Firm.ite (Firm.ite (Firm.updTester _) (Firm.ite (Firm.refl b) (Firm.updTester _))) (Firm.refl b)
    exact Firm.ite (Firm.ite (ha.trans (Firm.segAnswer _ _ _)) (((ha.trans hb).trans hc).trans (Firm.segAnswer _ _ _)))
      ((ha.trans (Firm.updTester _)).trans (Firm.segAnswer _ _ _))
  · exact Firm.refl s

theorem Firm.markRead (q : Nat) (bs : List Byte) (i : Nat) : Firm s (markRead s q bs i) := by
  unfold Machine.markRead
  split
  · extract_lets a
    have ha : Firm s a := Firm.updTester _
    split
    · split
      · exact ha.trans ⟨rfl, rfl⟩
      · exact ha
    · exact ha
  · exact Firm.updTester _

theorem Firm.segGet (hdr : Word32) : Firm s (segGet p hdr s) := by
  unfold Machine.segGet
  split
  · extract_lets g a
    have ha : Firm s a := Firm.sinkSpoke.trans (Firm.updTester _)
    split
    · exact ha.trans (Firm.segAnswer _ _ _)
    · exact ha.trans (Firm.segAnswer _ _ _)
    · exact Firm.ite ((ha.trans (Firm.markRead _ _ _)).trans (Firm.segAnswer _ _ _)) (ha.trans (Firm.segAnswer _ _ _))
  · exact Firm.refl s

theorem Firm.securityRequest (q : SecReq) : Firm s (securityRequest p q s) := by
  have ha : ∀ m, Firm s (answer s p m) := fun m => (OnlyPort.answer (.refl p s)).firm
  unfold Machine.securityRequest
  exact Firm.ite (Firm.ite ((OnlyPort.refl p s).send _).firm (Firm.ite (ha _) ((ha _).trans ⟨rfl, rfl⟩))) (Firm.refl s)

theorem Firm.authVerdict (v : Nat) : Firm s (authVerdict s p v) := by
  unfold Machine.authVerdict
  dsimp only
  refine Firm.trans ?_ (Firm.finishWait _ _ _)
  unfold State.seqOver
  exact Firm.ite ⟨rfl, rfl⟩ ⟨rfl, rfl⟩

theorem Firm.initStepTo (n : Nat) : Firm s (initStepTo s p n) := ⟨rfl, rfl⟩

theorem Firm.securityResponse (r : SecResp) : Firm s (securityResponse p r s) := by
  unfold Machine.securityResponse
  split
  · have hh : Firm s (s.heard p) := (OnlyPort.refl p s).heard.firm
    cases r with
    | none => exact Firm.authVerdict 3
    | error => exact hh.trans (Firm.authVerdict 4)
    | digests d => exact Firm.ite (hh.trans ((Firm.updPort _ _).trans (Firm.initStepTo 1))) hh
    | certificate c =>
      exact Firm.ite (Firm.ite ((hh.trans (Firm.updPort _ _)).trans (Firm.initStepTo 2)) ((hh.trans (Firm.updPort _ _)).trans (Firm.authVerdict 2))) hh
    | challengeAuth c => exact Firm.ite (hh.trans (Firm.authVerdict _)) hh
  · exact Firm.refl s

theorem Firm.policyMeaning (i : Instr) : Firm s (policyMeaning i s) := by
  unfold Machine.policyMeaning
  split
  · exact (OnlyPort.sourceCapSend (.refl _ _)).firm
  · exact (OnlyPort.collisionWaitExpiry (.refl _ _)).firm
  · exact (OnlyPort.cableDiscoverAttempt (.refl _ _)).firm
  · exact (OnlyPort.cableIdentityResponse (.refl _ _)).firm
  · exact (OnlyPort.goodcrcRetryFail (.refl _ _)).firm
  · exact (OnlyPort.senderResponseTimeout (.refl _ _)).firm
  · exact (OnlyPort.requestReceived (.refl _ _)).firm
  · exact (OnlyPort.transitionStart (.refl _ _)).firm
  · exact (OnlyPort.transitionSettled (.refl _ _)).firm
  · exact (OnlyPort.phasesNotPlacedTimeout (.refl _ _)).firm
  · exact (OnlyPort.ppsTimeout (.refl _ _)).firm
  · exact (OnlyPort.eprModeEnter (.refl _ _)).firm
  · exact (OnlyPort.eprKeepalive (.refl _ _)).firm
  · exact (OnlyPort.eprKeepaliveTimeout (.refl _ _)).firm
  · exact (OnlyPort.eprModeExit (.refl _ _)).firm
  · exact (OnlyPort.eprPartExit (.refl _ _)).firm
  · exact (OnlyPort.eprEnClear (.refl _ _)).firm
  · exact (OnlyPort.loweredCapsTimeout (.refl _ _)).firm
  · exact (OnlyPort.getSourceCap (.refl _ _)).firm
  · exact (OnlyPort.getSinkCap (.refl _ _)).firm
  · exact (OnlyPort.getSourceCapExtended (.refl _ _)).firm
  · exact (OnlyPort.getStatus (.refl _ _)).firm
  · exact (OnlyPort.getPpsStatus (.refl _ _)).firm
  · exact (OnlyPort.getSourceInfo (.refl _ _)).firm
  · exact (OnlyPort.getRevision (.refl _ _)).firm
  · exact (OnlyPort.alertReceived (.refl _ _)).firm
  · exact (OnlyPort.unsupportedRequest (.refl _ _)).firm
  · exact (OnlyPort.protocolError (.refl _ _)).firm
  · exact (OnlyPort.softResetTimeout (.refl _ _)).firm
  · exact (OnlyPort.softResetReceived (.refl _ _)).firm
  · exact (OnlyPort.sourceCapRepeat (.refl _ _)).firm
  · exact (OnlyPort.hardResetReceived (.refl _ _)).firm
  · exact (OnlyPort.hardResetTakedown (.refl _ _)).firm
  · exact (OnlyPort.hardResetRecover (.refl _ _)).firm
  · exact (OnlyPort.sinkSourceCapReceived (.refl _ _)).firm
  · exact (OnlyPort.sinkAcceptReceived (.refl _ _)).firm
  · exact (OnlyPort.sinkVbusCheckTimeout (.refl _ _)).firm
  · exact (OnlyPort.prSwapSend (.refl _ _)).firm
  · exact (OnlyPort.prSwapAccept (.refl _ _)).firm
  · exact (OnlyPort.prSwapPsRdy (.refl _ _)).firm
  · exact (OnlyPort.prSwapSourceOffTimeout (.refl _ _)).firm
  · exact (OnlyPort.prSwapVbusConfirmTimeout (.refl _ _)).firm
  · exact (OnlyPort.prSwapReceived (.refl _ _)).firm
  · exact (OnlyPort.drSwapReceived (.refl _ _)).firm
  · exact (OnlyPort.vconnSwapSend (.refl _ _)).firm
  · exact (OnlyPort.vconnSwapReceived (.refl _ _)).firm
  · exact (OnlyPort.vconnSwapPartnerPsRdy (.refl _ _)).firm
  · exact (OnlyPort.vconnSourceTimeout (.refl _ _)).firm
  · exact (OnlyPort.swapResponseTimeout (.refl _ _)).firm
  · exact (OnlyPort.swapReplyReceived (.refl _ _)).firm
  · exact (OnlyPort.discoveryStart (.refl _ _)).firm
  · exact (OnlyPort.vdmResponse (.refl _ _)).firm
  · exact (OnlyPort.vdmBusyRetry (.refl _ _)).firm
  · exact (OnlyPort.vdmResponseTimeout (.refl _ _)).firm
  · exact (OnlyPort.modeEntryTimeout (.refl _ _)).firm
  · exact (OnlyPort.attentionVdmReceived (.refl _ _)).firm
  · exact (OnlyPort.unstructuredVdm (.refl _ _)).firm
  · exact (OnlyPort.vdmRequestAsUfp (.refl _ _)).firm
  · exact (OnlyPort.vdmRequestAsDfp (.refl _ _)).firm
  · exact (OnlyPort.serviceEnterMode (.refl _ _)).firm
  · exact Firm.segPut _ _
  · exact Firm.segGet _
  · exact (OnlyPort.serviceExitMode (.refl _ _)).firm
  · exact Firm.securityRequest _
  · exact Firm.securityResponse _
  · exact (OnlyPort.portCloseComplete (.refl _ _)).firm
  · exact (OnlyPort.vconnGood (.refl _ _)).firm
  · exact Firm.refl s

theorem Firm.policyTask : Firm s (policyTask s) := by
  have hf : ∀ p t, Firm t (drSwapFrame (prSwapConfirm (offerDerive t p) p) p) := fun p t => (OnlyPort.refl p t).offerDerive.prSwapConfirm.drSwapFrame.firm
  have hi : ∀ p t, Firm t (resumeInbox p t) := fun p t => (Firm.updPort _ _).trans (Firm.foldl (fun _ i => Firm.policyMeaning i) _ _)
  unfold Machine.policyTask
  exact Firm.ite ((Firm.overN hf 24 s).trans (Firm.overN hi 24 _)) (Firm.refl s)

/-! ### The settings, the averages and the ledger -/

theorem Firm.takeParams : Firm { s with inForce := s.params } s.takeParams := by
  unfold State.takeParams
  extract_lets a
  have ha : Firm { s with inForce := s.params } a := Firm.overN (fun x _ => Firm.feedEnable x) 2 _
  exact Firm.ite ha (ha.trans (Firm.overN (fun _ _ => Firm.updRidge _ _) 6 a))

/-- What is taken up is marked as taken up. -/
theorem Stood.clearTakeUp (h : Stood s t) : Stood { s with takeUp := false } { t with takeUp := false } := by
  unfold Stood State.standing at h ⊢
  simp only [Prod.mk.injEq] at h ⊢
  obtain ⟨h1, h2, h3, h4, h5, h6, h7, -, h9⟩ := h
  exact ⟨h1, h2, h3, h4, h5, h6, h7, trivial, h9⟩

theorem Firm.takeNow : Firm { s with inForce := s.params, takeUp := false } s.takeNow :=
  Firm.trans ⟨Firm.takeParams.1.clearTakeUp, Firm.takeParams.2⟩ (Firm.overN (fun _ _ => Firm.updFeed _ _) 2 _)

/-- R47 step 1: the averages of a frame change the device's measurements and what the blocks show. -/
theorem Firm.measureFrame : Firm { s with dev := devFrame s s.dev.vOredN s.dev } (measureFrame s) := by
  unfold Machine.measureFrame
  extract_lets n m ofs readmit a b c d
  have hb : Firm a b := Firm.overN (fun _ _ => Firm.updFeed _ _) 2 a
  have hc : Firm b c := Firm.overN (fun _ _ => Firm.updPhase _ _) 48 b
  have hd : Firm c d := Firm.overN (fun _ _ => Firm.updPort _ _) 24 c
  exact ((hb.trans hc).trans hd).trans (Firm.overN (fun _ _ => Firm.updRidge _ _) 6 d)

theorem Firm.rangeFlags (o : Otp) : Firm s (o.rangeFlags s) :=
  (Firm.overN (fun _ _ => Firm.updPhase _ _) 48 s).trans (Firm.overN (fun _ _ => Firm.updPort _ _) 24 _)

theorem Stood.takeCal (g : Option Nat) : Stood s (s.takeCal g) := by
  unfold State.takeCal
  extract_lets bad o s1 s2
  have h1 : Stood s s1 := rfl
  have h2 : Stood s1 s2 := (Firm.rangeFlags s1.otp).1
  exact Stood.ite (h1.trans h2) ((h1.trans h2).trans (Stood.raise _ _))

/-- Two states in which the same stands have the same standing once their ledger and Innkeeper agree. -/
theorem Stood.withLedger (h : Stood s t) (l : Ledger) (i : Innkeeper) : Stood { s with ledger := l, inn := i } { t with ledger := l, inn := i } := by
  unfold Stood State.standing at h ⊢
  simp only [Prod.mk.injEq] at h ⊢
  obtain ⟨h1, h2, h3, h4, h5, h6, h7, h8, h9, h10, h11, -, -⟩ := h
  exact ⟨h1, h2, h3, h4, h5, h6, h7, h8, h9, h10, h11, trivial⟩

/-- R210: without a new ledger the one in force repeats, with HELD set in the supervisor's record. -/
theorem heldLedger_spec (s : State) :
    (heldLedger s).ledger = s.ledger.again ∧ (heldLedger s).inn.reducedNext = true ∧ (heldLedger s).fltSupv.sticky.getLsbD 0 = true ∧
      Stood { s with ledger := (heldLedger s).ledger, inn := (heldLedger s).inn } (heldLedger s) := by
  unfold heldLedger
  extract_lets a full frames c ic b d id
  have hl : c.ledger = s.ledger.again := State.raise_ledger ..
  have hs : c.fltSupv.sticky.getLsbD 0 = true := State.raise_sticky a .supv 0 trivial (by decide)
  have hc : ∀ (l : Ledger) (i : Innkeeper), Stood { s with ledger := l, inn := i } { c with ledger := l, inn := i } := fun l i =>
    (Stood.raise (s := a) .supv 0).withLedger l i
  have hbl : b.ledger = s.ledger.again := hl
  have hbs : b.fltSupv.sticky.getLsbD 0 = true := hs
  have hr : b.inn.reducedNext = true := rfl
  have hb : ∀ (l : Ledger) (i : Innkeeper), Stood { s with ledger := l, inn := i } { b with ledger := l, inn := i } := hc
  have hds : d.fltSupv.sticky.getLsbD 0 = true := State.raise_sticky_mono .supv 1 0 trivial hbs
  have hdl : d.ledger = s.ledger.again := (State.raise_ledger ..).trans hbl
  have hd : ∀ (l : Ledger) (i : Innkeeper), Stood { b with ledger := l, inn := i } { d with ledger := l, inn := i } := fun l i =>
    (Stood.raise (s := b) .supv 1).withLedger l i
  clear_value d
  clear_value b
  split
  · exact ⟨hdl, hr, hds, (hb _ _).trans (hd _ _)⟩
  · exact ⟨hbl, hr, hbs, hb _ _⟩

/-- R47 steps 2 to 4: which ledger is in force after the boundary. -/
theorem ledgerFrame_spec (s : State) :
    (s.sup.st = .hold → (ledgerFrame s).ledger = s.ledger.again) ∧
      (s.sup.st ≠ .hold → s.inn.started = false → (ledgerFrame s).ledger = s.ledger) ∧
      (∀ l, s.sup.st ≠ .hold → s.inn.started = true → s.inn.next = some l → (ledgerFrame s).ledger = l ∧ (ledgerFrame s).inn.next = none) ∧
      (s.sup.st ≠ .hold → s.inn.started = true → s.inn.next = none →
        (ledgerFrame s).ledger = s.ledger.again ∧ (ledgerFrame s).inn.reducedNext = true ∧ (ledgerFrame s).fltSupv.sticky.getLsbD 0 = true) ∧
      Stood { s with ledger := (ledgerFrame s).ledger, inn := (ledgerFrame s).inn } (ledgerFrame s) := by
  by_cases hh : s.sup.st = .hold
  · have e : ledgerFrame s = { s with ledger := s.ledger.again } := if_pos (by rw [hh]; rfl)
    rw [e]
    exact ⟨fun _ => rfl, fun k => absurd hh k, fun _ k => absurd hh k, fun k => absurd hh k, rfl⟩
  · have hb : ¬(s.sup.st == .hold) = true := by simpa using hh
    by_cases hs : s.inn.started = true
    · cases hn : s.inn.next with
      | none =>
        have e : ledgerFrame s = heldLedger s := by
          unfold ledgerFrame
          rw [if_neg hb, if_neg (by simp [hs]), hn]
        obtain ⟨h1, h2, h3, h4⟩ := heldLedger_spec s
        rw [e]
        exact ⟨fun k => absurd k hh, fun _ k => absurd (hs.symm.trans k) (by decide), fun _ _ _ k => absurd k (by simp), fun _ _ _ => ⟨h1, h2, h3⟩, h4⟩
      | some l =>
        have e : ledgerFrame s = overN 24 (fun p t => t.updPd p Pd.ledgerTakes) { s with ledger := l, inn := { s.inn with next := none, capped := false } } := by
          unfold ledgerFrame
          rw [if_neg hb, if_neg (by simp [hs]), hn]
        have hf : Firm { s with ledger := l, inn := { s.inn with next := none, capped := false } } (ledgerFrame s) := by
          rw [e]
          exact Firm.overN (fun _ _ => Firm.updPort _ _) 24 _
        have hst : (ledgerFrame s).standing = _ := hf.1
        unfold State.standing at hst
        simp only [Prod.mk.injEq] at hst
        obtain ⟨-, -, -, -, -, -, -, -, -, -, -, hl, hi⟩ := hst
        refine ⟨fun k => absurd k hh, fun _ k => absurd (hs.symm.trans k) (by decide), fun l' _ _ k => ?_, fun _ _ k => absurd k (by simp), ?_⟩
        · rw [hl, hi]
          exact ⟨Option.some.inj k, rfl⟩
        · rw [hl, hi]
          exact hf.1
    · have hs' : s.inn.started = false := by simpa using hs
      have e : ledgerFrame s = s := by
        unfold ledgerFrame
        rw [if_neg hb, if_pos (by simp [hs'])]
      rw [e]
      exact ⟨fun k => absurd k hh, fun _ _ => rfl, fun _ _ k => absurd k hs, fun _ k => absurd k hs, rfl⟩

/-! ### The boundary as a whole -/

theorem Stood.interrupt (x : IrqSource) : Stood s (s.interrupt x) := by
  obtain ⟨q, e⟩ := State.interrupt_shape (s := s) x
  rw [e]
  rfl

theorem Firm.attnFrame : Firm s (attnFrame s) := Firm.ite ⟨rfl, rfl⟩ (Firm.refl s)

/-- The ports' work of a boundary, after the placement of the phases (R47 step 4). -/
theorem Firm.portsFrame (f : Nat → State → Pd → Pd) : Firm s
    (Machine.overN 24 (fun p t => t.updPd p (typecWithin t p))
      (Machine.overN 24 (fun p t => if (t.cc p).st == .attachedSrc then Machine.ppsFrame t p else t) (Machine.overN 24 (fun p t => t.updPd p (f p t)) s))) := by
  refine Firm.trans ?_ (Firm.overN (fun _ _ => Firm.updPort _ _) 24 _)
  refine Firm.trans ?_ (Firm.overN (fun p t => Firm.ite (OnlyPort.ppsFrame (.refl p t)).firm (Firm.refl t)) 24 _)
  exact Firm.overN (fun _ _ => Firm.updPort _ _) 24 _

/-- The clock has moved on to pace 0 of the next frame, and the schedule is due. -/
def State.newFrame (s : State) : State :=
  { s with frame := s.frame + 1, pace := 0, paceZero := true, takeUp := true,
           sup := { s.sup with cmdCapped := false, pdCapped := false, schedDue := true } }

theorem Stood.newFrame (h : Stood s t) : Stood s.newFrame t.newFrame := by
  unfold Stood State.standing State.newFrame at *
  simp only [Prod.mk.injEq] at h ⊢
  obtain ⟨h1, -, -, h4, h5, h6, h7, -, h9, -, h11⟩ := h
  exact ⟨congrArg (· + 1) h1, trivial, trivial, h4, h5, h6, h7, trivial, h9, trivial, h11⟩

theorem Stood.settle (h : Stood s t) : Stood { s with inForce := s.params } { t with inForce := t.params } := by
  unfold Stood State.standing at *
  simp only [Prod.mk.injEq] at h ⊢
  obtain ⟨h1, h2, h3, h4, h5, h6, -, h8⟩ := h
  exact ⟨h1, h2, h3, h4, h5, h6, h6, h8⟩

theorem Stood.withDev (h : Stood s t) (d : Dev) : Stood { s with dev := d } { t with dev := d } := by
  unfold Stood State.standing at *
  simp only [Prod.mk.injEq] at h ⊢
  obtain ⟨h1, h2, h3, h4, h5, h6, h7, h8, h9, h10, -, h12⟩ := h
  exact ⟨h1, h2, h3, h4, h5, h6, h7, h8, h9, h10, trivial, h12⟩

theorem Stood.withInn (h : Stood s t) (i : Innkeeper) : Stood { s with inn := i } { t with inn := i } := by
  unfold Stood State.standing at *
  simp only [Prod.mk.injEq] at h ⊢
  obtain ⟨h1, h2, h3, h4, h5, h6, h7, h8, h9, h10, h11, h12, -⟩ := h
  exact ⟨h1, h2, h3, h4, h5, h6, h7, h8, h9, h10, h11, h12, trivial⟩

theorem Stood.dev (h : Stood s t) : t.dev = s.dev := congrArg (fun x => x.2.2.2.2.2.2.2.2.2.2.1) h

theorem Stood.inn (h : Stood s t) : t.inn = s.inn := congrArg (fun x => x.2.2.2.2.2.2.2.2.2.2.2.2) h

theorem dipFrame_next (s : State) (i : Innkeeper) : (dipFrame s i).next = i.next ∧ (dipFrame s i).started = i.started := by
  unfold dipFrame
  extract_lets good rt vs j k
  have hk : k.next = i.next ∧ k.started = i.started := by
    dsimp only [k]
    split
    · exact ⟨rfl, rfl⟩
    · exact ⟨rfl, rfl⟩
  clear_value k
  split
  · exact hk
  · split
    · exact hk
    · exact hk

/-- R47: what stands as the ledger is taken: a new frame, the settings, the averages of the frame before and the dip of the Innkeeper; all
after it leaves that ledger's outcome as it is. -/
theorem frameBoundary_spec (s : State) (h : s.locked = true) (hp : s.pace = 499) (hz : s.paceZero = false) :
    ∃ u m i, Stood { s.newFrame with inForce := s.params, dev := devFrame u s.dev.vOredN s.dev, inn := i } m ∧ i.next = s.inn.next ∧
      i.started = s.inn.started ∧ Firm (ledgerFrame m) (frameBoundary s) := by
  unfold frameBoundary
  rw [if_pos (by rw [h, hp, hz]; rfl)]
  extract_lets _ s1 s2 q s3 s4 s5 s6 s7 s8 s9 rps s10 s11 s12 s13
  have h1 : Stood s.newFrame s1.newFrame := (Stood.publishWindows (s := s)).newFrame
  clear_value s1
  have h3 : Stood s1.newFrame s3 := (Stood.newPace (s := s1.newFrame)).trans (Stood.interrupt _)
  clear_value s3
  have h4 : Stood s.newFrame s4 := (h1.trans h3).trans (Stood.dueClears (s := s3))
  clear_value s4
  have h5 : Stood { s.newFrame with inForce := s.params } s5 := h4.settle.trans (Firm.takeParams (s := s4)).1
  clear_value s5
  have hm : Stood { s5 with dev := devFrame s5 s5.dev.vOredN s5.dev } s6 := (Firm.measureFrame (s := s5)).1
  clear_value s6
  have hd : s5.dev = s.dev := h5.dev
  rw [hd] at hm
  have h6 : Stood { s.newFrame with inForce := s.params, dev := devFrame s5 s.dev.vOredN s.dev } s6 := (h5.withDev _).trans hm
  have h7 : Stood { s.newFrame with inForce := s.params, dev := devFrame s5 s.dev.vOredN s.dev, inn := dipFrame s6 s6.inn } s7 := h6.withInn _
  have h8 : Stood s7 s8 := by
    dsimp only [s8]
    split
    · exact Stood.takeCal _
    · exact Stood.refl _
  have hi := dipFrame_next s6 s6.inn
  have hE : Firm s9 (Machine.attnFrame s13) :=
    (((Firm.placeFrame.trans Firm.retireFrame).trans Firm.readmitFrame).trans (Firm.portsFrame _)).trans Firm.attnFrame
  have hn : s6.inn = s.inn := h6.inn
  exact ⟨s5, s8, dipFrame s6 s6.inn, h7.trans h8, hi.1.trans (congrArg _ hn), hi.2.trans (congrArg _ hn), hE⟩

/-- The schedule starts in the boundary itself, unless class 0 commands wait (R49). -/
theorem scheduleNow_spec (hd : s.sup.schedDue = true) (hk : s.takeUp = true) (hf : s.inForce = s.params) :
    (s.zeroWaits = true → scheduleNow s = s) ∧
      (s.zeroWaits = false → Firm { s with takeUp := false, sup := { s.sup with schedDue := false } } (scheduleNow s)) := by
  refine ⟨fun hz => if_neg (by simp [hz]), fun hz => ?_⟩
  have e : scheduleNow s = startSchedule s := if_pos (by simp [hz, hd])
  have e' : startSchedule s = policyTask { s.takeNow with sup := { s.takeNow.sup with schedDue := false } } := by
    unfold startSchedule
    rw [if_pos hk]
  rw [e, e']
  refine Firm.trans ?_ Firm.policyTask
  obtain ⟨h, hs⟩ := Firm.takeNow (s := s)
  refine ⟨?_, hs⟩
  unfold Stood State.standing at h ⊢
  simp only [Prod.mk.injEq, hf] at h ⊢
  obtain ⟨h1, h2, h3, h4, h5, h6, h7, h8, h9, -, h11⟩ := h
  exact ⟨h1, h2, h3, h4, h5, h6, h7, h8, h9, trivial, h11⟩

/-- Settles O46: what stands as the ledger is taken (`frameBoundary_spec`), the ledger in force (`ledgerFrame_spec`) and the start of the
schedule (`scheduleNow_spec`). -/
theorem frameBoundary_holds : Obligations.FrameBoundary := by
  intro s _ hl hp hz
  obtain ⟨u, m, i, hm, hnext, hstart, hE⟩ := frameBoundary_spec s hl hp hz
  obtain ⟨hHold, hIdle, hNew, hHeld, hLs⟩ := ledgerFrame_spec m
  refine ⟨_, rfl, ?_⟩
  generalize ledgerFrame m = v at *
  generalize frameBoundary s = w at *
  unfold Stood State.standing at hm hLs
  unfold State.newFrame at hm
  simp only [Prod.mk.injEq] at hm hLs
  obtain ⟨m1, m2, m3, -, -, m6, m7, m8, m9, m10, m11, m12, m13⟩ := hm
  obtain ⟨v1, v2, v3, -, -, v6, v7, v8, v9, v10, v11, -, -⟩ := hLs
  rw [m9] at hHold hIdle hNew hHeld
  rw [m12] at hHold hIdle hHeld
  rw [m13, hnext] at hNew hHeld
  rw [m13] at hIdle
  rw [hstart] at hIdle hNew hHeld
  have hfv := hE.2
  have hst := hE.1
  unfold Stood State.standing at hst
  simp only [Prod.mk.injEq] at hst
  obtain ⟨w1, w2, w3, -, -, w6, w7, w8, -, w10, w11, w12, w13⟩ := hst
  have hdue : w.sup.schedDue = true := w10.trans (v10.trans m10)
  have htake : w.takeUp = true := w8.trans (v8.trans m8)
  have hpar : w.params = s.params := w6.trans (v6.trans m6)
  have hinf : w.inForce = s.params := w7.trans (v7.trans m7)
  obtain ⟨hWait, hGo⟩ := scheduleNow_spec hdue htake (hinf.trans hpar.symm)
  have hdev : w.dev = devFrame u s.dev.vOredN s.dev := w11.trans (v11.trans m11)
  have hkeep : ∃ t, scheduleNow w = t ∧ (w.zeroWaits = true → t.takeUp = true ∧ t.sup.schedDue = true) ∧
      (w.zeroWaits = false → t.takeUp = false ∧ t.sup.schedDue = false) ∧
      t.frame = s.frame + 1 ∧ t.pace = 0 ∧ t.paceZero = true ∧ t.inForce = s.params ∧ t.params = s.params ∧ t.dev = devFrame u s.dev.vOredN s.dev ∧
      t.ledger = v.ledger ∧ t.inn = v.inn ∧ t.fltSupv = v.fltSupv := by
    cases hzw : w.zeroWaits with
    | true =>
      refine ⟨w, hWait hzw, fun _ => ⟨htake, hdue⟩, fun k => absurd k (by decide), w1.trans (v1.trans m1), w2.trans (v2.trans m2), w3.trans (v3.trans m3),
        hinf, hpar, hdev, w12, w13, hfv⟩
    | false =>
      obtain ⟨hst, hfs⟩ := hGo hzw
      unfold Stood State.standing at hst
      simp only [Prod.mk.injEq] at hst
      obtain ⟨t1, t2, t3, -, -, t6, t7, t8, -, t10, t11, t12, t13⟩ := hst
      exact ⟨_, rfl, fun k => absurd k (by decide), fun _ => ⟨t8, t10⟩, t1.trans (w1.trans (v1.trans m1)), t2.trans (w2.trans (v2.trans m2)),
        t3.trans (w3.trans (v3.trans m3)), t7.trans hinf, t6.trans hpar, t11.trans hdev, t12.trans w12, t13.trans w13, hfs.trans hfv⟩
  obtain ⟨t, e, hz1, hz0, t1, t2, t3, t4, t5, tdev, tled, tinn, tflt⟩ := hkeep
  rw [e]
  refine ⟨t1, t2, t3, t4, t5, hz1, hz0, fun hn => ?_, fun h => tled.trans (hHold h), fun h k => tled.trans (hIdle h k), fun l h k hl => ?_, fun h k hn => ?_⟩
  · rw [tdev]
    exact ⟨if_neg hn, if_neg hn⟩
  · obtain ⟨h1, h2⟩ := hNew l h k hl
    exact ⟨tled.trans h1, (congrArg _ tinn).trans h2⟩
  · obtain ⟨h1, h2, h3⟩ := hHeld h k hn
    exact ⟨tled.trans h1, (congrArg _ tinn).trans h2, by rw [tflt]; exact h3⟩

end Sys2Proof.Machine
end

section
/-! PROOF. The ridges' programs and overruns. -/
namespace Sys2Proof.Machine
variable {s t u : State} {r : Nat}

/-! ### What a ROM law leaves of its ridge (R158) -/

/-- What a phase's ceiling is computed from. -/
def Phase.steering (f : Phase) := (f.steer, f.fitted, f.guard, f.zeroLoaded, f.inv)

/-- What a port gives to the ceilings of its phases. -/
def Port.ceiling (q : Port) := (q.path.vtgt, q.path.pmode, q.path.vAvg, q.pd.contract.mv)

/-- The ROM law of ridge r has changed shadows, references and requests of its own ridge only, and no ceiling. -/
structure LawKept (r : Nat) (s t : State) : Prop where
  frame : t = { s with phases := t.phases, ports := t.ports, ridges := t.ridges, freeN := t.freeN }
  phaseCount : t.phases.length = s.phases.length
  ridge : ∀ x, x ≠ r → t.ridge x = s.ridge x
  engine : (t.ridge r).eng.running = (s.ridge r).eng.running ∧ (t.ridge r).eng.cyc = (s.ridge r).eng.cyc ∧ (t.ridge r).eng.pc = (s.ridge r).eng.pc
  phase : ∀ k, ridgeOfPhase k ≠ r → t.phase k = s.phase k
  port : ∀ p, ridgeOfPort p ≠ r → t.port p = s.port p
  steering : ∀ k, (t.phase k).steering = (s.phase k).steering
  ceiling : ∀ p, (t.port p).ceiling = (s.port p).ceiling

theorem LawKept.refl (r : Nat) (s : State) : LawKept r s s :=
  ⟨rfl, rfl, fun _ _ => rfl, ⟨rfl, rfl, rfl⟩, fun _ _ => rfl, fun _ _ => rfl, fun _ => rfl, fun _ => rfl⟩

theorem LawKept.trans (h : LawKept r s t) (k : LawKept r t u) : LawKept r s u where
  frame := by
    have e := k.frame
    rw [h.frame] at e
    exact e
  phaseCount := k.phaseCount.trans h.phaseCount
  ridge x hx := (k.ridge x hx).trans (h.ridge x hx)
  engine := ⟨k.engine.1.trans h.engine.1, k.engine.2.1.trans h.engine.2.1, k.engine.2.2.trans h.engine.2.2⟩
  phase x hx := (k.phase x hx).trans (h.phase x hx)
  port p hp := (k.port p hp).trans (h.port p hp)
  steering x := (k.steering x).trans (h.steering x)
  ceiling p := (k.ceiling p).trans (h.ceiling p)

theorem LawKept.ite {q : Prop} [Decidable q] {a b : State} (h : LawKept r s a) (k : LawKept r s b) : LawKept r s (if q then a else b) := by
  split
  · exact h
  · exact k

theorem LawKept.overN {f : Nat → State → State} {n : Nat} (h : ∀ j t, j < n → LawKept r t (f j t)) (s : State) : LawKept r s (overN n f s) := by
  induction n with
  | zero => exact LawKept.refl r s
  | succ n ih =>
    rw [overN_succ]
    exact (ih fun j t hj => h j t (by omega)).trans (h n _ (by omega))

theorem State.phase_updPhase_part {α : Type} (g : Phase → α) (k : Nat) (f : Phase → Phase) (h : ∀ x, g (f x) = g x) (y : Nat) :
    g ((s.updPhase k f).phase y) = g (s.phase y) := by
  by_cases hy : y = k
  · subst hy
    by_cases hl : y < s.phases.length
    · rw [State.phase_updPhase s y f hl, h]
    · have e : s.updPhase y f = s := by
        unfold State.updPhase
        rw [List.modify_eq_self (by omega)]
      rw [e]
  · rw [State.phase_updPhase_ne s k y f hy]

theorem State.ridge_updRidge_part {α : Type} (g : Ridge → α) (r : Nat) (f : Ridge → Ridge) (h : ∀ x, g (f x) = g x) (y : Nat) :
    g ((s.updRidge r f).ridge y) = g (s.ridge y) := by
  by_cases hy : y = r
  · subst hy
    by_cases hl : y < s.ridges.length
    · rw [State.ridge_updRidge s y f hl, h]
    · have e : s.updRidge y f = s := by
        unfold State.updRidge
        rw [List.modify_eq_self (by omega)]
      rw [e]
  · rw [State.ridge_updRidge_ne s r y f hy]

theorem LawKept.updRidge {f : Ridge → Ridge} (h : ∀ q, (f q).eng.running = q.eng.running ∧ (f q).eng.cyc = q.eng.cyc ∧ (f q).eng.pc = q.eng.pc) :
    LawKept r s (s.updRidge r f) where
  frame := rfl
  phaseCount := rfl
  ridge _ hx := State.ridge_updRidge_ne _ _ _ _ hx
  engine := ⟨State.ridge_updRidge_part (·.eng.running) r f (fun q => (h q).1) r, State.ridge_updRidge_part (·.eng.cyc) r f (fun q => (h q).2.1) r,
    State.ridge_updRidge_part (·.eng.pc) r f (fun q => (h q).2.2) r⟩
  phase _ _ := rfl
  port _ _ := rfl
  steering _ := rfl
  ceiling _ := rfl

theorem LawKept.updPhase {j : Nat} (hj : j < 8) {f : Phase → Phase} (h : ∀ x, (f x).steering = x.steering) :
    LawKept r s (s.updPhase (8 * r + j) f) where
  frame := rfl
  phaseCount := State.updPhase_length ..
  ridge _ _ := rfl
  engine := ⟨rfl, rfl, rfl⟩
  phase k hk := State.phase_updPhase_ne _ _ _ _ fun e => hk (by unfold ridgeOfPhase; omega)
  port _ _ := rfl
  steering k := State.phase_updPhase_part Phase.steering _ f h k
  ceiling _ := rfl

theorem LawKept.updPort {j : Nat} (hj : j < 4) {f : Port → Port} (h : ∀ x, (f x).ceiling = x.ceiling) :
    LawKept r s (s.updPort (4 * r + j) f) where
  frame := rfl
  phaseCount := rfl
  ridge _ _ := rfl
  engine := ⟨rfl, rfl, rfl⟩
  phase _ _ := rfl
  port p hp := State.port_updPort_ne _ _ _ _ fun e => hp (by unfold ridgeOfPort; omega)
  steering _ := rfl
  ceiling p := State.port_updPort_part s (4 * r + j) p Port.ceiling f h

theorem LawKept.freeNext : LawKept r s s.freeNext :=
  ⟨rfl, rfl, fun _ _ => rfl, ⟨rfl, rfl, rfl⟩, fun _ _ => rfl, fun _ _ => rfl, fun _ => rfl, fun _ => rfl⟩

/-- R156: such a change moves no ceiling, and no phase becomes idle. -/
theorem LawKept.dutyCeil (h : LawKept r s t) (k : Nat) : dutyCeil t k = dutyCeil s k ∧ idlePhase t k = idlePhase s k := by
  have hl : t.ledger = s.ledger := by rw [h.frame]
  have hv : t.dev = s.dev := by rw [h.frame]
  have hi : t.inf 4 k 0x03 = s.inf 4 k 0x03 := by
    rw [h.frame]
    rfl
  have hs := h.steering k
  unfold Phase.steering at hs
  simp only [Prod.mk.injEq] at hs
  obtain ⟨hst, hfit, hg, hz, -⟩ := hs
  have hc : ∀ p, (t.path p).vtgt = (s.path p).vtgt ∧ (t.path p).pmode = (s.path p).pmode ∧ (t.path p).vAvg = (s.path p).vAvg ∧
      (t.pd p).contract.mv = (s.pd p).contract.mv := fun p => by
    have hp := h.ceiling p
    unfold Port.ceiling at hp
    simp only [Prod.mk.injEq] at hp
    exact hp
  have hsp : steeredPort t k = steeredPort s k := by rw [steeredPort, steeredPort, hst]
  have hgd : (t.phase k).guardDrives = (s.phase k).guardDrives := by rw [Phase.guardDrives, Phase.guardDrives, hg, hz]
  have hm : checkMode t k = checkMode s k := by
    unfold checkMode
    dsimp only
    rw [hl, hfit, hgd, hsp]
    simp only [(hc _).2.1]
  have hvc : ∀ p, vCeil10 t p = vCeil10 s p := fun p => by rw [vCeil10, vCeil10, (hc p).1, (hc p).2.2.2]
  refine ⟨?_, by rw [idlePhase, idlePhase, hl, hfit]⟩
  unfold Machine.dutyCeil
  rw [hi, hv, hsp, hm]
  simp only [hvc, (hc _).2.2.1]

/-! ### The steps of the law -/

theorem LawKept.lawPort {j : Nat} (hj : j < 4) : LawKept r s (lawPort r j s) := by
  unfold Machine.lawPort
  extract_lets p ref h i a b
  have ha : LawKept r s a := LawKept.freeNext.trans (LawKept.updPort hj fun _ => rfl)
  have hb : LawKept r a b := LawKept.updPort hj fun _ => rfl
  exact LawKept.ite (LawKept.refl r s) ((ha.trans hb).trans (LawKept.updRidge fun _ => ⟨rfl, rfl, rfl⟩))

theorem LawKept.lawShed {j : Nat} (hj : j < 4) : LawKept r s (lawShed r j s) :=
  LawKept.ite (LawKept.updPort hj fun _ => rfl) (LawKept.refl r s)

/-- R156, R158: the duty of a phase that the law holds idle is 0, and a phase that stays under control has one within its ceiling. -/
theorem lawPhase_spec {j : Nat} (hj : j < 8) (hk : 8 * r + j < s.phases.length) (parts : List Int) :
    LawKept r s (lawPhase r parts j s) ∧ (∀ k, k ≠ 8 * r + j → (lawPhase r parts j s).phase k = s.phase k) ∧
      (idlePhase s (8 * r + j) = true → ((lawPhase r parts j s).phase (8 * r + j)).shadow = 0) ∧
      ((s.phase (8 * r + j)).inv = false → ((lawPhase r parts j s).phase (8 * r + j)).shadow ≤ dutyCeil s (8 * r + j)) := by
  unfold lawPhase
  extract_lets k f w part ask idle d0 d a
  have ha : LawKept r s a := LawKept.freeNext.trans (LawKept.updPhase hj fun _ => rfl)
  have hother : ∀ x, x ≠ k → a.phase x = s.phase x := fun x hx => State.phase_updPhase_ne _ _ _ _ hx
  have hsh : (a.phase k).shadow = d := congrArg Phase.shadow (State.phase_updPhase s.freeNext k _ hk)
  have h0 : d0 ≤ dutyCeil s k := by
    dsimp only [d0]
    omega
  have hidle : idlePhase s k = true → d = 0 := fun h => if_pos (by simp [h])
  have hceil : f.inv = false → d ≤ dutyCeil s k := fun h => by
    dsimp only [d]
    rw [h]
    split
    · omega
    · exact h0
  clear_value a d
  split
  · exact ⟨ha.trans (LawKept.updRidge fun _ => ⟨rfl, rfl, rfl⟩), hother, fun h => hsh.trans (hidle h), fun h => hsh.le.trans (hceil h)⟩
  · exact ⟨ha, hother, fun h => hsh.trans (hidle h), fun h => hsh.le.trans (hceil h)⟩

theorem LawKept.lawWords : LawKept r s (lawWords r s) := by
  unfold Machine.lawWords
  extract_lets sets x x1 x2 x3
  exact LawKept.trans (t := { s with freeN := s.freeN + 8 })
    ⟨rfl, rfl, fun _ _ => rfl, ⟨rfl, rfl, rfl⟩, fun _ _ => rfl, fun _ _ => rfl, fun _ => rfl, fun _ => rfl⟩
    (LawKept.updRidge fun _ => ⟨rfl, rfl, rfl⟩)

theorem lawWords_phase (k : Nat) : (lawWords r s).phase k = s.phase k := by
  unfold lawWords
  extract_lets sets x x1 x2 x3
  rw [State.updRidge_phase]
  rfl

/-- R158: the duties of a ridge's first n phases, as the law leaves them. -/
theorem lawPhases_spec {n : Nat} (hn : n ≤ 8) (hl : 8 * r + 8 ≤ s.phases.length) (parts : List Int) :
    LawKept r s (overN n (lawPhase r parts) s) ∧
      ∀ j, j < n → (idlePhase s (8 * r + j) = true → ((overN n (lawPhase r parts) s).phase (8 * r + j)).shadow = 0) ∧
        ((s.phase (8 * r + j)).inv = false → ((overN n (lawPhase r parts) s).phase (8 * r + j)).shadow ≤ dutyCeil s (8 * r + j)) := by
  induction n with
  | zero => exact ⟨LawKept.refl r s, fun j hj => absurd hj (by omega)⟩
  | succ n ih =>
    obtain ⟨h, hd⟩ := ih (by omega)
    rw [overN_succ]
    generalize overN n (lawPhase r parts) s = v at h hd
    obtain ⟨k, hother, hidle, hceil⟩ := lawPhase_spec (s := v) (r := r) (j := n) (by omega) (by rw [h.phaseCount]; omega) parts
    refine ⟨h.trans k, fun j hj => ?_⟩
    by_cases e : j = n
    · subst e
      obtain ⟨hc, hi⟩ := h.dutyCeil (8 * r + j)
      have hinv : (v.phase (8 * r + j)).inv = (s.phase (8 * r + j)).inv := congrArg (fun x => x.2.2.2.2) (h.steering (8 * r + j))
      rw [hc, hinv] at hceil
      rw [hi] at hidle
      exact ⟨hidle, hceil⟩
    · rw [hother (8 * r + j) (by omega)]
      exact hd j (by omega)

/-- R158: a ROM law's work of a pace. -/
theorem lawPace_spec (hl : 8 * r + 8 ≤ s.phases.length) :
    LawKept r s (lawPace r s) ∧
      ∀ j, j < 8 → (idlePhase s (8 * r + j) = true → ((lawPace r s).phase (8 * r + j)).shadow = 0) ∧
        ((s.phase (8 * r + j)).inv = false → ((lawPace r s).phase (8 * r + j)).shadow ≤ dutyCeil s (8 * r + j)) := by
  unfold lawPace
  extract_lets a b c d
  have ha : LawKept r s a := LawKept.overN (fun _ _ hj => LawKept.lawPort hj) s
  have hb : LawKept r s b := ha.trans (LawKept.overN (fun _ _ hj => LawKept.lawShed hj) a)
  have hw : LawKept r c d := LawKept.lawWords
  have hdp : ∀ k, d.phase k = c.phase k := lawWords_phase
  have hcd := lawPhases_spec (s := b) (r := r) (n := 8) le_rfl (by rw [hb.phaseCount]; exact hl)
    ((List.range 8).map fun j => lawPart b (8 * r + j))
  rw [show overN 8 (lawPhase r ((List.range 8).map fun j => lawPart b (8 * r + j))) b = c from rfl] at hcd
  clear_value d
  clear_value c
  clear_value b
  obtain ⟨hc, hd⟩ := hcd
  refine ⟨((hb.trans hc).trans hw).trans (LawKept.updRidge fun _ => ⟨rfl, rfl, rfl⟩), fun j hj => ?_⟩
  obtain ⟨h1, h2⟩ := hb.dutyCeil (8 * r + j)
  have hinv : (b.phase (8 * r + j)).inv = (s.phase (8 * r + j)).inv := congrArg (fun x => x.2.2.2.2) (hb.steering (8 * r + j))
  have h := hd j hj
  rw [h1, h2, hinv, ← hdp] at h
  rw [State.updRidge_phase]
  exact h

/-! ### The start of a ridge's program (R35, R355) -/

/-- The ridge with its engine as R355 has it start. -/
def State.atProgram (s : State) (r : Nat) : State :=
  s.updRidge r fun q => { q with eng := q.eng.atStart q.bank.entryAddr s.firstCycle q.bank.latched }

theorem ridgeProgramStart_eq (hl : s.ridgeLive r = true) (hst : (s.ridge r).started = true) (hdma : (s.ridge r).dmaLate = false)
    (hpub : (s.ridge r).published = false) (ho : (s.ridge r).overrun = false) :
    ridgeProgramStart r s = if (s.ridge r).bank.base = 0 then s.atProgram r else lawPace r (s.atProgram r) :=
  if_pos (by simp [hl, hst, hdma, hpub, ho])

theorem State.atProgram_kept (hr : r < s.ridges.length) :
    (s.atProgram r).ridge r = { s.ridge r with eng := (s.ridge r).eng.atStart (s.ridge r).bank.entryAddr s.firstCycle (s.ridge r).bank.latched } :=
  State.ridge_updRidge _ _ _ hr

theorem atProgram_duty (k : Nat) : dutyCeil (s.atProgram r) k = dutyCeil s k ∧ idlePhase (s.atProgram r) k = idlePhase s k := ⟨rfl, rfl⟩

/-- R35, R37, R355: what the first cycle of a program gives. -/
theorem ridgeProgramStart_goes (hs : s.Shaped) (hl : s.ridgeLive r = true) (hst : (s.ridge r).started = true) (hdma : (s.ridge r).dmaLate = false)
    (hpub : (s.ridge r).published = false) (ho : (s.ridge r).overrun = false) :
    Goes (.ridgeProgramStart r) s fun t =>
      t = { s with phases := t.phases, ports := t.ports, ridges := t.ridges, freeN := t.freeN } ∧ (t.ridge r).eng.running = true ∧
        (t.ridge r).eng.cyc = s.firstCycle ∧ (t.ridge r).eng.pc = BitVec.ofNat 16 (s.ridge r).bank.entryAddr ∧
        (∀ x, x ≠ r → t.ridge x = s.ridge x) ∧ (∀ k, ridgeOfPhase k ≠ r → t.phase k = s.phase k) ∧
        (∀ p, ridgeOfPort p ≠ r → t.port p = s.port p) ∧
        ((s.ridge r).bank.base = 0 →
          t.phases = s.phases ∧ t.ports = s.ports ∧ (t.ridge r).eng = (s.ridge r).eng.atStart (s.ridge r).bank.entryAddr s.firstCycle (s.ridge r).bank.latched) ∧
        ((s.ridge r).bank.base ≠ 0 →
          ∀ j, j < 8 → (idlePhase s (8 * r + j) = true → (t.phase (8 * r + j)).shadow = 0) ∧
            ((s.phase (8 * r + j)).inv = false → (t.phase (8 * r + j)).shadow ≤ dutyCeil s (8 * r + j))) := by
  refine ⟨_, congrArg Host.Outcome.next (ridgeProgramStart_eq hl hst hdma hpub ho), ?_⟩
  have hr := (State.ridgeLive_iff.mp hl).1
  have hlen : 8 * r + 8 ≤ s.phases.length := by
    obtain ⟨-, hphases, -⟩ := hs
    omega
  have hat := State.atProgram_kept (s := s) (hs.ridge_lt hr)
  have hx : ∀ x, x ≠ r → (s.atProgram r).ridge x = s.ridge x := fun x h => State.ridge_updRidge_ne _ _ _ _ h
  by_cases hb : (s.ridge r).bank.base = 0
  · rw [if_pos hb]
    refine ⟨rfl, ?_, ?_, ?_, hx, fun _ _ => rfl, fun _ _ => rfl, fun _ => ⟨rfl, rfl, ?_⟩, fun h => absurd hb h⟩
    · rw [hat]
      rfl
    · rw [hat]
      rfl
    · rw [hat]
      rfl
    · rw [hat]
  · rw [if_neg hb]
    obtain ⟨h, hd⟩ := lawPace_spec (s := s.atProgram r) (r := r) hlen
    obtain ⟨h1, h2, h3⟩ := h.engine
    rw [hat] at h1 h2 h3
    refine ⟨h.frame, h1, h2, h3, fun x e => (h.ridge x e).trans (hx x e), h.phase, h.port, fun e => absurd e hb, fun _ j hj => hd j hj⟩

/-! ### A pace without a publish (R42, R44) -/

/-- A stopped ridge keeps its program, its counts and its record, but for the run, the overrun and the bit it is stopped by. -/
theorem State.stopRidge_ridge {b : Nat} (hr : r < s.ridges.length) :
    ((s.stopRidge r b).ridge r).bare =
        { (s.ridge r).bare with run := .stopped, overrun := false, eng := { (s.ridge r).eng with running := false } } ∧
      ∀ i, (s.ridge r).flt.sticky.getLsbD i = true → ((s.stopRidge r b).ridge r).flt.sticky.getLsbD i = true := by
  unfold State.stopRidge
  extract_lets u v w
  have hu : v.ridges = s.ridges :=
    (overN_keeps State.ridges (f := fun q t => t.updPath (4 * r + q) Path.opened) (fun _ _ => rfl) 4 u).trans
      (overN_keeps State.ridges (f := fun k t => t.updPhase (8 * r + k) Phase.offWithRidge) (fun _ _ => rfl) 8 s)
  have hv : v.ridge r = s.ridge r := by rw [State.ridge, State.ridge, hu]
  have hw : w.ridge r = { s.ridge r with run := .stopped, overrun := false, eng := { (s.ridge r).eng with running := false } } := by
    rw [← hv]
    exact State.ridge_updRidge v r _ (by rw [hu]; exact hr)
  have hl : r < w.ridges.length := by
    rw [State.updRidge_length, hu]
    exact hr
  clear_value w
  refine ⟨?_, fun i hi => State.raise_sticky_mono (.ridge r) b i hl ?_⟩
  · rw [State.raise_ridge_bare, hw]
    rfl
  · have hf : (w.ridge r).flt = (s.ridge r).flt := by rw [hw]
    exact (congrArg (fun x : Flt => x.sticky.getLsbD i) hf).trans hi

/-- A ridge whose pace ended without a publish: its requests are dropped. -/
def Ridge.late (q : Ridge) : Ridge := { q with nOverrun := sat1 q.nOverrun, steerWord := 0, overrun := true, eng := { q.eng with running := false } }

/-- A phase whose ramp step is taken back. -/
def Phase.stepBack (f : Phase) : Phase := { f with ramp := f.rampPrev, up := f.upPrev }

/-- The state as an overrun leaves it, before its ridge is held or stopped. -/
def State.missedPace (s : State) (r : Nat) : State :=
  overN 8 (fun j t => t.updPhase (8 * r + j) Phase.stepBack) ((s.raise (.ridge r) 0).updRidge r Ridge.late)

theorem State.missedPace_shaped (hs : s.Shaped) : (s.missedPace r).Shaped := by
  have ha : Keeps s ((s.raise (.ridge r) 0).updRidge r Ridge.late) := (Keeps.refl s).raise.updRidgeEng _ _ fun _ => (Engine.Kept.refl _).set rfl
  exact (ha.overN fun _ _ k => k.updPhase _ _).1 hs

theorem paceOverrun_eq (hl : s.ridgeLive r = true) (hst : (s.ridge r).started = true) (hpub : (s.ridge r).published = false)
    (ho : (s.ridge r).overrun = false) :
    paceOverrun r s = if (s.ridge r).run == .held then (s.missedPace r).stopRidge r 2 else (s.missedPace r).updRidge r fun q => { q with run := .held } :=
  if_pos (by simp [hl, hst, hpub, ho])

/-- R42, R44, R46: what an overrun leaves, whatever comes of the ridge. -/
theorem State.missedPace_spec (hs : s.Shaped) (hr : r < 6) :
    s.missedPace r = { s with phases := (s.missedPace r).phases, ridges := (s.missedPace r).ridges, faultN := (s.missedPace r).faultN,
                              attn := (s.missedPace r).attn, irq := (s.missedPace r).irq } ∧
      (s.missedPace r).Shaped ∧
      ((s.missedPace r).ridge r).bare = (s.ridge r).late.bare ∧
      ((s.missedPace r).ridge r).flt.sticky.getLsbD 0 = true ∧ (∀ x, x ≠ r → (s.missedPace r).ridge x = s.ridge x) ∧
      (∀ j, j < 8 → (s.missedPace r).phase (8 * r + j) = (s.phase (8 * r + j)).stepBack) ∧
      ∀ k, ridgeOfPhase k ≠ r → (s.missedPace r).phase k = s.phase k := by
  have hshape : (s.missedPace r).Shaped := State.missedPace_shaped hs
  have hrl := hs.ridge_lt hr
  have h48 : s.phases.length = 48 := hs.2.1
  obtain ⟨a1, -, a3⟩ := State.raiseRidge_frame (s := s) r 0
  have abare := State.raise_ridge_bare s (.ridge r) 0 r
  have asticky : ((s.raise (.ridge r) 0).ridge r).flt.sticky.getLsbD 0 = true := State.raiseRidge_sticky hrl (by decide)
  have alen : (s.raise (.ridge r) 0).ridges.length = s.ridges.length := State.raise_ridges_length ..
  revert hshape
  unfold State.missedPace
  generalize s.raise (.ridge r) 0 = a at *
  generalize hv : a.updRidge r Ridge.late = v
  have hap : a.phases = s.phases := by rw [a1]
  have hvr : v.ridge r = (a.ridge r).late := by
    rw [← hv]
    exact State.ridge_updRidge a r _ (by rw [alen]; exact hrl)
  have hvx : ∀ x, x ≠ r → v.ridge x = s.ridge x := fun x hx => by
    rw [← hv, State.ridge_updRidge_ne _ _ _ _ hx, a3 x hx]
  have hvp : ∀ k, v.phase k = s.phase k := fun k => by
    rw [← hv, State.updRidge_phase, State.phase, hap, State.phase]
  have hve : v = { s with ridges := v.ridges, faultN := v.faultN, attn := v.attn, irq := v.irq } := by
    rw [← hv, a1]
    rfl
  have hlen : v.phases.length = 48 := by
    rw [hve]
    exact h48
  clear hv
  obtain ⟨u1, u2, u3, u4⟩ := overN_updPhase (s := v) Phase.stepBack r 8 (by omega)
  generalize overN 8 (fun k t => t.updPhase (8 * r + k) Phase.stepBack) v = u at u1 u2 u3 u4 ⊢
  intro hshape
  have hur : ∀ x, u.ridge x = v.ridge x := fun x => by rw [u1]; rfl
  refine ⟨by rw [u1, hve], hshape, ?_, ?_, fun x hx => (hur x).trans (hvx x hx), fun j hj => by rw [u3 j hj, hvp], fun k hk => ?_⟩
  · rw [hur, hvr]
    exact congrArg Ridge.late abare
  · rw [hur, hvr]
    exact asticky
  · rw [u4 k fun j hj e => hk (by unfold ridgeOfPhase; omega), hvp]

/-- R42, R44, R264: an overrun holds its ridge, and a second in succession stops it. -/
theorem paceOverrun_goes (hs : s.Shaped) (hl : s.ridgeLive r = true) (hst : (s.ridge r).started = true) (hpub : (s.ridge r).published = false)
    (ho : (s.ridge r).overrun = false) :
    Goes (.paceOverrun r) s fun t =>
      t = { s with phases := t.phases, ports := t.ports, ridges := t.ridges, faultN := t.faultN, attn := t.attn, irq := t.irq } ∧
        (t.ridge r).nOverrun = sat1 (s.ridge r).nOverrun ∧ (t.ridge r).steerWord = 0 ∧ (t.ridge r).eng.running = false ∧
        (t.ridge r).flt.sticky.getLsbD 0 = true ∧ (∀ x, x ≠ r → t.ridge x = s.ridge x) ∧
        ((s.ridge r).run = .running → (t.ridge r).run = .held ∧ (t.ridge r).overrun = true ∧ t.ports = s.ports ∧
          (∀ j, j < 8 → t.phase (8 * r + j) =
            { s.phase (8 * r + j) with ramp := (s.phase (8 * r + j)).rampPrev, up := (s.phase (8 * r + j)).upPrev }) ∧
          ∀ k, ridgeOfPhase k ≠ r → t.phase k = s.phase k) ∧
        ((s.ridge r).run = .held →
          (t.ridge r).run = .stopped ∧ (t.ridge r).flt.sticky.getLsbD 2 = true ∧
            (∀ j, j < 8 → (t.phase (8 * r + j)).active = 0) ∧ ∀ q, q < 4 → (t.path (4 * r + q)).swOn = false) := by
  refine ⟨_, congrArg Host.Outcome.next (paceOverrun_eq hl hst hpub ho), ?_⟩
  have hr := (State.ridgeLive_iff.mp hl).1
  obtain ⟨v1, vs, v3, v4, v5, v6, v7⟩ := State.missedPace_spec hs hr
  generalize s.missedPace r = v at *
  have hvl := vs.ridge_lt hr
  have hn : (v.ridge r).nOverrun = sat1 (s.ridge r).nOverrun := congrArg Ridge.nOverrun v3
  have hw : (v.ridge r).steerWord = 0 := congrArg Ridge.steerWord v3
  have he : (v.ridge r).eng.running = false := congrArg (fun q : Ridge => q.eng.running) v3
  have hov : (v.ridge r).overrun = true := congrArg Ridge.overrun v3
  have hports : v.ports = s.ports := by rw [v1]
  by_cases hh : (s.ridge r).run = .held
  · rw [if_pos (by rw [hh]; rfl)]
    obtain ⟨t1, t2, t3, t4, t5, t6, -⟩ := State.stopRidge_spec (b := 2) vs hr (by decide)
    obtain ⟨b1, b2⟩ := State.stopRidge_ridge (s := v) (b := 2) hvl
    generalize v.stopRidge r 2 = t at *
    refine ⟨by rw [t1, v1], (congrArg Ridge.nOverrun b1).trans hn, (congrArg Ridge.steerWord b1).trans hw, congrArg (fun q : Ridge => q.eng.running) b1,
      b2 0 v4, fun x hx => (t6 x hx).trans (v5 x hx), fun k => absurd (hh.symm.trans k) (by decide), fun _ => ⟨t2, t3, fun j hj => ?_, fun q hq => ?_⟩⟩
    · obtain ⟨h, -⟩ := t4 j hj
      exact h
    · obtain ⟨h, -⟩ := t5 q hq
      exact h
  · rw [if_neg (by simpa using hh)]
    have hx : (v.updRidge r fun q => { q with run := .held }).ridge r = { v.ridge r with run := .held } := State.ridge_updRidge v r _ hvl
    refine ⟨?_, ?_, ?_, ?_, ?_, fun x hx => (State.ridge_updRidge_ne _ _ _ _ hx).trans (v5 x hx), fun _ => ⟨?_, ?_, hports, v6, v7⟩, fun k => absurd k hh⟩
    · rw [v1]
      rfl
    · rw [hx]
      exact hn
    · rw [hx]
      exact hw
    · rw [hx]
      exact he
    · rw [hx]
      exact v4
    · rw [hx]
    · rw [hx]
      exact hov

/-- Settles O45: the law's duties (`lawPace_spec`) for the start, and what an overrun leaves (`State.missedPace_spec`). -/
theorem programsAndOverruns : Obligations.ProgramsAndOverruns :=
  ⟨fun _ _ hs hl hst hdma hpub ho => ridgeProgramStart_goes hs hl hst hdma hpub ho, fun _ _ hs hl hst hpub ho => paceOverrun_goes hs hl hst hpub ho⟩

end Sys2Proof.Machine
end

section
/-! PROOF. The pace boundary. -/
namespace Sys2Proof.Machine
variable {s t u : State} {k r : Nat}

/-! ### What the work of a pace boundary leaves (R35, R39, R146) -/

/-- The clock, the settings, the supervisor and the orders of the pin and the masks: what the sweeps of a pace boundary leave standing. -/
def State.paced (s : State) :=
  (s.frame, s.pace, s.paceZero, s.paceCount, s.locked, s.params, s.inForce, s.ledger, s.seq, s.sup, s.fltWrites, s.faultN.action)

/-- A ridge's program and its publish. -/
def Ridge.publishing (q : Ridge) := (q.bank, q.run, q.eng, q.published, q.overrun, q.held)

/-- A phase's drive. -/
def Phase.drive (f : Phase) := (f.active, f.lastDuty, f.guard)

/-- The sweep leaves the clock, each ridge's program and each phase's drive. -/
structure Quiet (s t : State) : Prop where
  clock : t.paced = s.paced
  dev : t.dev = s.dev
  ridge : ∀ r, (t.ridge r).publishing = (s.ridge r).publishing ∧ (t.ridge r).steerWord = (s.ridge r).steerWord
  phase : ∀ k, (t.phase k).drive = (s.phase k).drive
  phases : t.phases.length = s.phases.length
  ridges : t.ridges.length = s.ridges.length

theorem Quiet.refl (s : State) : Quiet s s := ⟨rfl, rfl, fun _ => ⟨rfl, rfl⟩, fun _ => rfl, rfl, rfl⟩

theorem Quiet.trans (h : Quiet s t) (k : Quiet t u) : Quiet s u :=
  ⟨k.clock.trans h.clock, k.dev.trans h.dev, fun r => ⟨(k.ridge r).1.trans (h.ridge r).1, (k.ridge r).2.trans (h.ridge r).2⟩,
    fun x => (k.phase x).trans (h.phase x), k.phases.trans h.phases, k.ridges.trans h.ridges⟩

theorem Quiet.ite {q : Prop} [Decidable q] {a b : State} (h : Quiet s a) (k : Quiet s b) : Quiet s (if q then a else b) := by
  split
  · exact h
  · exact k

theorem Quiet.overN {f : Nat → State → State} (h : ∀ i t, Quiet t (f i t)) (n : Nat) (s : State) : Quiet s (overN n f s) := by
  induction n with
  | zero => exact Quiet.refl s
  | succ n ih =>
    rw [overN_succ]
    exact ih.trans (h n _)

theorem Quiet.foldl {α : Type} {f : State → α → State} (h : ∀ t a, Quiet t (f t a)) (l : List α) (s : State) : Quiet s (l.foldl f s) := by
  induction l generalizing s with
  | nil => exact Quiet.refl s
  | cons a l ih => exact (h s a).trans (ih _)

theorem State.pinOccur_action (s : State) : s.pinOccur.faultN.action = s.faultN.action := by
  unfold State.pinOccur
  split
  · rfl
  · split
    · rfl
    · rfl

theorem State.setFlt_faultN (b : Blk) (f : Flt) : (s.setFlt b f).faultN = s.faultN := by
  cases b <;> rfl

theorem State.raise_faultN_action (b : Blk) (i : Nat) : (s.raise b i).faultN.action = s.faultN.action := by
  unfold State.raise
  extract_lets f a c d e
  have hc : c.faultN = s.faultN := by
    dsimp only [c]
    split
    · exact (State.interrupt_faultN ..).trans (State.setFlt_faultN b _)
    · exact State.setFlt_faultN b _
  have hd : d.faultN.action = s.faultN.action := by
    dsimp only [d]
    split
    · exact (State.pinOccur_action c).trans (congrArg _ hc)
    · exact congrArg _ hc
  clear_value d
  split
  · rfl
  · split
    · exact hd
    · exact hd

theorem Quiet.raise (b : Blk) (i : Nat) : Quiet s (s.raise b i) where
  clock := by
    unfold State.paced
    simp only [State.raise_frame, State.raise_pace, State.raise_paceZero, State.raise_paceCount, State.raise_locked, State.raise_params,
      State.raise_inForce, State.raise_ledger, State.raise_sup, State.raise_faultN_action, State.raise_seq, State.raise_fltWrites]
  dev := State.raise_dev ..
  ridge r := ⟨(congrArg Ridge.publishing (s.raise_ridge_bare b i r) :), (congrArg Ridge.steerWord (s.raise_ridge_bare b i r) :)⟩
  phase k := (congrArg Phase.drive (s.raise_phase_bare b i k) :)
  phases := State.raise_phases_length ..
  ridges := State.raise_ridges_length ..

theorem Quiet.updPhase {f : Phase → Phase} (h : ∀ x, (f x).drive = x.drive) (k : Nat) : Quiet s (s.updPhase k f) :=
  ⟨rfl, rfl, fun _ => ⟨rfl, rfl⟩, fun y => State.phase_updPhase_part Phase.drive k f h y, State.updPhase_length .., rfl⟩

theorem Quiet.updRidge {f : Ridge → Ridge} (h : ∀ q, (f q).publishing = q.publishing) (hw : ∀ q, (f q).steerWord = q.steerWord) (r : Nat) :
    Quiet s (s.updRidge r f) :=
  ⟨rfl, rfl, fun y => ⟨State.ridge_updRidge_part Ridge.publishing r f h y, State.ridge_updRidge_part Ridge.steerWord r f hw y⟩, fun _ => rfl, rfl,
    State.updRidge_length ..⟩

theorem Quiet.updPort (p : Nat) (f : Port → Port) : Quiet s (s.updPort p f) := ⟨rfl, rfl, fun _ => ⟨rfl, rfl⟩, fun _ => rfl, rfl, rfl⟩

theorem Quiet.updFeed (x : Nat) (f : Feed → Feed) : Quiet s (s.updFeed x f) := ⟨rfl, rfl, fun _ => ⟨rfl, rfl⟩, fun _ => rfl, rfl, rfl⟩

theorem Quiet.finishWait (w : WaitFor) (n : Nat) (d : List Byte) : Quiet s (s.finishWait w n d) where
  clock := by
    unfold State.paced
    simp only [State.finishWait_frame, State.finishWait_pace, State.finishWait_paceZero, State.finishWait_paceCount, State.finishWait_locked,
      State.finishWait_params, State.finishWait_inForce, State.finishWait_ledger, State.finishWait_seq, State.finishWait_sup,
      State.finishWait_fltWrites, State.finishWait_faultN]
  dev := State.finishWait_dev ..
  ridge r := by
    unfold State.ridge
    rw [State.finishWait_ridges]
    exact ⟨rfl, rfl⟩
  phase k := by rw [State.finishWait_phase]
  phases := by rw [State.finishWait_phases]
  ridges := by rw [State.finishWait_ridges]

theorem Quiet.stagePoint (c : Nat) (g : Bool) (v : Int) (l : Nat) : Quiet s (stagePoint s c g v l) :=
  ⟨rfl, rfl, fun _ => ⟨rfl, rfl⟩, fun _ => rfl, rfl, rfl⟩

/-! ### The quiet sweeps -/

theorem Quiet.senseFaults (m : PaceSense) : Quiet s (senseFaults m s) := by
  unfold Machine.senseFaults
  extract_lets codes pcodes a miss b
  have ha : Quiet s a := Quiet.ite (Quiet.raise _ _) (Quiet.refl s)
  have hb : Quiet a b := Quiet.ite (Quiet.raise _ _) (Quiet.refl a)
  exact (ha.trans hb).trans (Quiet.ite (Quiet.refl b) (Quiet.raise _ _))

theorem Quiet.probePace (r : Nat) : Quiet s (probePace r s) := by
  unfold Machine.probePace
  split
  · exact Quiet.refl s
  · refine Quiet.updRidge ?_ ?_ r
    · exact fun _ => rfl
    · exact fun _ => rfl

theorem Quiet.returnEnds (p : Nat) : Quiet s (returnEnds s p) :=
  Quiet.ite (Quiet.updPort _ _) (Quiet.ite ((Quiet.updPort _ _).trans (Quiet.updPort _ _)) (Quiet.refl s))

theorem Quiet.portPace (m : PaceSense) (p : Nat) : Quiet s (portPace m p s) := by
  unfold Machine.portPace
  extract_lets b a h c d v e f g
  have ha : Quiet s a := Quiet.updPort _ _
  have hc : Quiet a c := Quiet.ite (Quiet.updPort _ _) (Quiet.refl a)
  have hd : Quiet c d := Quiet.ite (Quiet.updPort _ _) (Quiet.refl c)
  have he : Quiet d e := Quiet.updPort _ _
  have hf : Quiet e f := Quiet.updPort _ _
  have hg : Quiet f g := Quiet.updPort _ _
  exact (((((ha.trans hc).trans hd).trans he).trans hf).trans hg).trans (Quiet.returnEnds p)

theorem Quiet.recalDone (p : Nat) : Quiet s (recalDone s p) := by
  unfold Machine.recalDone
  extract_lets h v i a b
  have ha : Quiet s a := (Quiet.stagePoint _ _ _ _).trans (Quiet.stagePoint _ _ _ _)
  have hm : Quiet (a.updPath p fun h => { h with vRunOfs := some (64 * ((v : Int) - 64)), iRunOfs := some (64 * ((i : Int) - 2048)) })
      ((a.updPath p fun h => { h with vRunOfs := some (64 * ((v : Int) - 64)), iRunOfs := some (64 * ((i : Int) - 2048)) }).markDirty
        (10 + ridgeOfPort p)) := ⟨rfl, rfl, fun _ => ⟨rfl, rfl⟩, fun _ => rfl, rfl, rfl⟩
  have hb : Quiet a b := Quiet.ite ((Quiet.updPort _ _).trans hm) (Quiet.refl a)
  exact (ha.trans hb).trans (Quiet.finishWait _ _ _)

theorem Quiet.recalPace (m : PaceSense) (p : Nat) : Quiet s (recalPace m p s) :=
  Quiet.ite ((Quiet.updPort _ _).trans (Quiet.ite (Quiet.recalDone p) (Quiet.refl _))) (Quiet.refl s)

theorem Quiet.captureDone (x : CalCapture) : Quiet s (captureDone s x) :=
  Quiet.ite ((Quiet.stagePoint _ _ _ _).trans (Quiet.finishWait _ _ _))
    (Quiet.ite (Quiet.finishWait _ _ _) ((Quiet.stagePoint _ _ _ _).trans (Quiet.finishWait _ _ _)))

theorem Quiet.capturePaces (m : PaceSense) : Quiet s (capturePaces m s) :=
  Quiet.trans (t := { s with captures := (s.captures.map fun x => x.take (chanCodes m x.chan)).filter fun x => decide (x.paces < 500) })
    ⟨rfl, rfl, fun _ => ⟨rfl, rfl⟩, fun _ => rfl, rfl, rfl⟩ (Quiet.foldl (fun _ x => Quiet.captureDone x) _ _)

theorem slotStep_drive (f : Phase) : (slotStep f).drive = f.drive := by
  unfold slotStep
  split
  · rfl
  · split <;> rfl

theorem Quiet.takeOutput (r : Nat) : Quiet s (takeOutput r s) := by
  unfold Machine.takeOutput
  extract_lets out set a
  have hp : ∀ t i, Quiet t ((t.updPhase i fun f => { f with invOut := true }).raise (.phase i) 3) := fun t i => by
    refine (Quiet.updPhase ?_ i).trans (Quiet.raise _ _)
    exact fun _ => rfl
  have ha : Quiet s a := Quiet.overN (fun _ t => Quiet.ite (hp t _) (Quiet.refl t)) 8 s
  clear_value a
  refine ha.trans (Quiet.overN (fun j t => ?_) 4 a)
  extract_lets v
  have hv : Quiet t v := Quiet.updPort _ _
  exact hv.trans (Quiet.ite (Quiet.updPort _ _) (Quiet.refl v))

theorem Quiet.outShed (r : Nat) : Quiet s (outShed s r) := by
  refine Quiet.overN (fun j t => Quiet.ite (Quiet.updRidge ?_ ?_ r) (Quiet.refl t)) 4 s
  · exact fun _ => rfl
  · exact fun _ => rfl

theorem Quiet.statPace (k : Nat) : Quiet s (statPace k s) := by
  refine Quiet.updPhase ?_ k
  exact fun _ => rfl

/-! ### The measurements of the phases and the transfer of the duties (R39, R42) -/

theorem Quiet.phasePaces (m : PaceSense) :
    Quiet s (Machine.overN 48 (fun k t => if (t.phase k).fitted then t.updPhase k (phasePace t k (m.phases.getD k {})) else t) s) := by
  refine Quiet.overN (fun k t => Quiet.ite (Quiet.updPhase ?_ k) (Quiet.refl t)) 48 s
  exact fun _ => rfl

/-- Phases only have changed, and none of those before n as the sweep has them. -/
structure SweptPhases (F : State → Nat → Phase → Phase) (n : Nat) (s t : State) : Prop where
  frame : t = { s with phases := t.phases }
  count : t.phases.length = s.phases.length
  later : ∀ k, n ≤ k → t.phase k = s.phase k
  swept : ∀ k, k < n → k < s.phases.length → ∃ u : State, u = { s with phases := u.phases } ∧ u.phase k = s.phase k ∧ t.phase k = F u k (s.phase k)

/-- A sweep over the phases, each updated by what the state with the others' updates gives it. -/
theorem overN_sweptPhases (F : State → Nat → Phase → Phase) (n : Nat) (s : State) : SweptPhases F n s (overN n (fun k t => t.updPhase k (F t k)) s) := by
  induction n with
  | zero => exact ⟨rfl, rfl, fun _ _ => rfl, fun k hk => absurd hk (by omega)⟩
  | succ n ih =>
    rw [overN_succ]
    generalize overN n (fun k t => t.updPhase k (F t k)) s = v at ih
    obtain ⟨h1, h2, h3, h4⟩ := ih
    refine ⟨?_, (State.updPhase_length ..).trans h2, fun k hk => ?_, fun k hk hl => ?_⟩
    · rw [h1]
      rfl
    · rw [State.phase_updPhase_ne _ _ _ _ (by omega), h3 k (by omega)]
    · by_cases e : k = n
      · subst e
        refine ⟨v, h1, h3 k le_rfl, ?_⟩
        rw [State.phase_updPhase v k _ (by rw [h2]; exact hl), h3 k le_rfl]
      · rw [State.phase_updPhase_ne _ _ _ _ e]
        exact h4 k (by omega) hl

/-- R39: the duty that a ridge with a publish and no probe hands over; any other keeps its duty. -/
theorem transfer_spec (f : Phase) :
    ((s.ridge (ridgeOfPhase k)).published = true → (s.ridge (ridgeOfPhase k)).overrun = false → (s.ridge (ridgeOfPhase k)).probe = none →
      unchecked f = false → f.pwmOff = false → (transfer s k f).active = f.checked ∧ (transfer s k f).lastDuty = f.checked) ∧
      ((s.ridge (ridgeOfPhase k)).published = false ∨ (s.ridge (ridgeOfPhase k)).overrun = true → transfer s k f = f) ∧
      (transfer s k f).guard = f.guard := by
  unfold transfer
  extract_lets q d a
  refine ⟨fun hp ho hn hu hoff => ?_, fun h => if_neg ?_, ?_⟩
  · have hd : d = 0 := by
      dsimp only [d]
      unfold probeDither
      rw [hn]
    have ha : a = f.checked := if_pos hd
    rw [if_pos (by simp [q, hp, ho, hu, hoff]), ha]
    exact ⟨rfl, rfl⟩
  · obtain h | h := h
    · simp [q, h]
    · simp [q, h]
  · split
    · rfl
    · rfl

/-- R39, R42: the transfer of all duties. -/
theorem transfers_spec (hl : s.phases.length = 48) {t : State} (ht : t = overN 48 (fun k t => t.updPhase k (transfer t k)) s) :
    t = { s with phases := t.phases } ∧ t.phases.length = 48 ∧ ∀ k, k < 48 →
      (t.phase k).guard = (s.phase k).guard ∧
        ((s.ridge (ridgeOfPhase k)).published = true → (s.ridge (ridgeOfPhase k)).overrun = false → (s.ridge (ridgeOfPhase k)).probe = none →
          unchecked (s.phase k) = false → (s.phase k).pwmOff = false →
          (t.phase k).active = (s.phase k).checked ∧ (t.phase k).lastDuty = (s.phase k).checked) ∧
        ((s.ridge (ridgeOfPhase k)).published = false ∨ (s.ridge (ridgeOfPhase k)).overrun = true → (t.phase k).active = (s.phase k).active) := by
  obtain ⟨h1, h2, -, h4⟩ := overN_sweptPhases transfer 48 s
  rw [← ht] at h1 h2 h4
  refine ⟨h1, h2.trans hl, fun k hk => ?_⟩
  obtain ⟨u, hu, huk, e⟩ := h4 k hk (by omega)
  have hr : u.ridge (ridgeOfPhase k) = s.ridge (ridgeOfPhase k) := by rw [hu]; rfl
  obtain ⟨g1, g2, g3⟩ := transfer_spec (s := u) (k := k) (s.phase k)
  rw [hr] at g1 g2
  rw [e]
  exact ⟨g3, g1, fun h => congrArg Phase.active (g2 h)⟩

/-! ### The steering guard in a pace (R161 to R164) -/

/-- The guard of ridge r has left the clock, every ridge's program and every other ridge. -/
structure GuardKept (r : Nat) (s t : State) : Prop where
  clock : t.paced = s.paced
  dev : t.dev = s.dev
  program : ∀ x, (t.ridge x).publishing = (s.ridge x).publishing
  asked : ∀ x, x ≠ r → (t.ridge x).steerWord = (s.ridge x).steerWord
  phase : ∀ k, ridgeOfPhase k ≠ r → (t.phase k).drive = (s.phase k).drive
  phases : t.phases.length = s.phases.length
  ridges : t.ridges.length = s.ridges.length

theorem Quiet.guardKept (h : Quiet s t) : GuardKept r s t :=
  ⟨h.clock, h.dev, fun x => (h.ridge x).1, fun x _ => (h.ridge x).2, fun k _ => h.phase k, h.phases, h.ridges⟩

theorem GuardKept.trans (h : GuardKept r s t) (k : GuardKept r t u) : GuardKept r s u :=
  ⟨k.clock.trans h.clock, k.dev.trans h.dev, fun x => (k.program x).trans (h.program x), fun x hx => (k.asked x hx).trans (h.asked x hx),
    fun x hx => (k.phase x hx).trans (h.phase x hx), k.phases.trans h.phases, k.ridges.trans h.ridges⟩

theorem GuardKept.ite {q : Prop} [Decidable q] {a b : State} (h : GuardKept r s a) (k : GuardKept r s b) : GuardKept r s (if q then a else b) := by
  split
  · exact h
  · exact k

theorem GuardKept.overN {f : Nat → State → State} {n : Nat} (h : ∀ j t, j < n → GuardKept r t (f j t)) (s : State) : GuardKept r s (overN n f s) := by
  induction n with
  | zero => exact (Quiet.refl s).guardKept
  | succ n ih =>
    rw [overN_succ]
    exact (ih fun j t hj => h j t (by omega)).trans (h n _ (by omega))

theorem GuardKept.updPhase {j : Nat} (hj : j < 8) (f : Phase → Phase) : GuardKept r s (s.updPhase (8 * r + j) f) where
  clock := rfl
  dev := rfl
  program _ := rfl
  asked _ _ := rfl
  phase k hk := congrArg Phase.drive (State.phase_updPhase_ne _ _ _ _ fun e => hk (by unfold ridgeOfPhase; omega))
  phases := State.updPhase_length ..
  ridges := rfl

theorem GuardKept.updRidge {f : Ridge → Ridge} (h : ∀ q, (f q).publishing = q.publishing) : GuardKept r s (s.updRidge r f) where
  clock := rfl
  dev := rfl
  program x := State.ridge_updRidge_part Ridge.publishing r f h x
  asked _ hx := congrArg Ridge.steerWord (State.ridge_updRidge_ne _ _ _ _ hx)
  phase _ _ := rfl
  phases := rfl
  ridges := State.updRidge_length ..

theorem GuardKept.refuse {j : Nat} (hj : j < 8) (n : Nat) : GuardKept r s (s.refuse (8 * r + j) n) := by
  have hr : ridgeOfPhase (8 * r + j) = r := by
    unfold ridgeOfPhase
    omega
  unfold State.refuse
  rw [hr]
  extract_lets l a b
  have ha : GuardKept r s a := GuardKept.updPhase hj _
  have hb : GuardKept r a b := by
    refine GuardKept.updRidge ?_
    exact fun _ => rfl
  exact (ha.trans hb).trans (Quiet.raise _ _).guardKept

theorem GuardKept.guardRequest {j : Nat} (hj : j < 8) (n : Nat) : GuardKept r s (guardRequest s (8 * r + j) n) :=
  GuardKept.ite (Quiet.refl s).guardKept
    (GuardKept.ite (GuardKept.refuse hj 5) (GuardKept.ite (GuardKept.refuse hj 4) (GuardKept.updPhase hj _)))

theorem GuardKept.guardRidge : GuardKept r s (guardRidge r s) := by
  unfold Machine.guardRidge passRequests
  refine GuardKept.ite (Quiet.refl s).guardKept ?_
  extract_lets w
  have ha : GuardKept r s (Machine.overN 8 (fun j t => t.updPhase (8 * r + j) (guardPace t (8 * r + j))) s) :=
    GuardKept.overN (fun _ _ hj => GuardKept.updPhase hj _) s
  have hb : ∀ v : State, GuardKept r v (v.updRidge r fun q => { q with steerWord := 0 }) := fun v => by
    refine GuardKept.updRidge ?_
    exact fun _ => rfl
  exact (ha.trans (hb _)).trans (GuardKept.overN (fun _ _ hj => GuardKept.guardRequest hj _) _)

theorem guardPace_drive (f : Phase) (h : f.guard ≠ .brk) : (guardPace s k f).drive = f.drive := by
  unfold guardPace
  split
  · rfl
  · rfl
  · next e => exact absurd e h
  · rfl

theorem overN_guardPace (n : Nat) (h : (s.phase k).guard ≠ .brk) :
    ((overN n (fun j t => t.updPhase (8 * r + j) (guardPace t (8 * r + j))) s).phase k).drive = (s.phase k).drive := by
  induction n with
  | zero => rfl
  | succ n ih =>
    rw [overN_succ]
    generalize overN n (fun j t => t.updPhase (8 * r + j) (guardPace t (8 * r + j))) s = v at ih
    by_cases e : k = 8 * r + n
    · subst e
      by_cases l : 8 * r + n < v.phases.length
      · rw [State.phase_updPhase _ _ _ l]
        refine (guardPace_drive _ ?_).trans ih
        have hg : (v.phase (8 * r + n)).guard = (s.phase (8 * r + n)).guard := congrArg (fun x => x.2.2) ih
        rwa [hg]
      · have hv : v.updPhase (8 * r + n) (guardPace v (8 * r + n)) = v := by
          unfold State.updPhase
          rw [List.modify_eq_self (by omega)]
        rw [hv]
        exact ih
    · rw [State.phase_updPhase_ne _ _ _ _ e]
      exact ih

theorem guardRequest_none (i : Nat) : guardRequest s i 0 = s := by
  unfold guardRequest
  exact if_pos (by simp)

/-- A ridge that asks for nothing passes no request to its guard. -/
theorem passRequests_none (hw : (s.ridge r).steerWord = 0) : passRequests r s = s.updRidge r fun q => { q with steerWord := 0 } := by
  unfold passRequests
  rw [hw]
  have h0 : ∀ j, fld (0 : Word).toNat (2 * j) 2 = 0 := fun j => by simp [fld]
  simp only [h0, guardRequest_none]
  exact overN_keeps id (fun _ _ => rfl) 8 _

/-- R163: without a request, a phase whose guard settles no break keeps its drive. -/
theorem guardRidge_idle (hw : (s.ridge r).steerWord = 0) (hb : (s.ridge r).overrun = true ∨ (s.phase k).guard ≠ .brk) :
    ((guardRidge r s).phase k).active = (s.phase k).active ∧ ((guardRidge r s).phase k).lastDuty = (s.phase k).lastDuty := by
  unfold guardRidge
  by_cases ho : (s.ridge r).overrun = true
  · rw [if_pos ho]
    exact ⟨rfl, rfl⟩
  · rw [if_neg ho]
    have h := overN_guardPace (r := r) 8 (hb.resolve_left ho)
    have hv : ∀ x, (overN 8 (fun j t => t.updPhase (8 * r + j) (guardPace t (8 * r + j))) s).ridge x = s.ridge x := fun x => by
      refine overN_keeps (fun t => t.ridge x) (fun j t => ?_) 8 s
      rfl
    generalize overN 8 (fun j t => t.updPhase (8 * r + j) (guardPace t (8 * r + j))) s = v at h hv
    rw [passRequests_none (by rw [hv]; exact hw), State.updRidge_phase]
    exact ⟨congrArg (fun x => x.1) h, congrArg (fun x => x.2.1) h⟩

/-- R161 to R164: the guards of the first n ridges have worked. -/
theorem overN_guardRidge (n : Nat) (s : State) :
    (overN n guardRidge s).paced = s.paced ∧ (overN n guardRidge s).dev = s.dev ∧
      (∀ x, ((overN n guardRidge s).ridge x).publishing = (s.ridge x).publishing) ∧
      (∀ x, n ≤ x → ((overN n guardRidge s).ridge x).steerWord = (s.ridge x).steerWord) ∧
      (∀ k, n ≤ ridgeOfPhase k → ((overN n guardRidge s).phase k).drive = (s.phase k).drive) ∧
      (overN n guardRidge s).phases.length = s.phases.length ∧ (overN n guardRidge s).ridges.length = s.ridges.length ∧
      ∀ k, (s.ridge (ridgeOfPhase k)).steerWord = 0 → ((s.ridge (ridgeOfPhase k)).overrun = true ∨ (s.phase k).guard ≠ .brk) →
        ((overN n guardRidge s).phase k).active = (s.phase k).active ∧ ((overN n guardRidge s).phase k).lastDuty = (s.phase k).lastDuty := by
  induction n with
  | zero => exact ⟨rfl, rfl, fun _ => rfl, fun _ _ => rfl, fun _ _ => rfl, rfl, rfl, fun _ _ _ => ⟨rfl, rfl⟩⟩
  | succ n ih =>
    obtain ⟨h1, h2, h3, h4, h5, h6, h7, h8⟩ := ih
    rw [overN_succ]
    generalize overN n guardRidge s = v at *
    obtain ⟨g1, g2, g3, g4, g5, g6, g7⟩ := GuardKept.guardRidge (r := n) (s := v)
    refine ⟨g1.trans h1, g2.trans h2, fun x => (g3 x).trans (h3 x), fun x hx => (g4 x (by omega)).trans (h4 x (by omega)),
      fun k hk => (g5 k (by omega)).trans (h5 k (by omega)), g6.trans h6, g7.trans h7, fun k hw hb => ?_⟩
    obtain ⟨a1, a2⟩ := h8 k hw hb
    by_cases hk : ridgeOfPhase k = n
    · have hd := h5 k (by omega)
      have hov : (v.ridge n).overrun = (s.ridge n).overrun := congrArg (fun x => x.2.2.2.2.1) (h3 n)
      have hg : (v.phase k).guard = (s.phase k).guard := congrArg (fun x => x.2.2) hd
      rw [hk] at hw hb
      obtain ⟨b1, b2⟩ := guardRidge_idle (s := v) (k := k) (r := n) ((h4 n le_rfl).trans hw) (by rw [hov, hg]; exact hb)
      exact ⟨b1.trans a1, b2.trans a2⟩
    · have hd := g5 k hk
      exact ⟨(congrArg (fun x => x.1) hd).trans a1, (congrArg (fun x => x.2.1) hd).trans a2⟩

/-! ### Each ridge's pace (R42, R146, R387) -/

/-- A pace of ridge r: its publish is over and its output taken. -/
def ridgeStep (m : PaceSense) (r : Nat) (t : State) : State := outShed (takeOutput r (t.updRidge r (ridgePace t m r))) r

theorem ridgeStep_spec (m : PaceSense) (r : Nat) (s : State) : Quiet (s.updRidge r (ridgePace s m r)) (ridgeStep m r s) :=
  (Quiet.takeOutput r).trans (Quiet.outShed r)

/-- R42: what the paces of the first n ridges leave. -/
theorem ridgeSteps_spec (m : PaceSense) (n : Nat) (s : State) (hn : n ≤ s.ridges.length) :
    (overN n (ridgeStep m) s).paced = s.paced ∧ (overN n (ridgeStep m) s).dev = s.dev ∧
      (∀ k, ((overN n (ridgeStep m) s).phase k).drive = (s.phase k).drive) ∧
      (overN n (ridgeStep m) s).phases.length = s.phases.length ∧ (overN n (ridgeStep m) s).ridges.length = s.ridges.length ∧
      (∀ r, n ≤ r → ((overN n (ridgeStep m) s).ridge r).publishing = (s.ridge r).publishing) ∧
      ∀ r, r < n → ((overN n (ridgeStep m) s).ridge r).publishing =
        ((s.ridge r).bank, (s.ridge r).run, (s.ridge r).eng, false, false, (s.ridge r).overrun) := by
  induction n with
  | zero => exact ⟨rfl, rfl, fun _ => rfl, rfl, rfl, fun _ _ => rfl, fun r hr => absurd hr (by omega)⟩
  | succ n ih =>
    obtain ⟨h1, h2, h3, h4, h5, h6, h7⟩ := ih (by omega)
    rw [overN_succ]
    generalize overN n (ridgeStep m) s = v at *
    obtain ⟨q1, q2, q3, q4, q5, q6⟩ := ridgeStep_spec m n v
    have hx : ∀ x, x ≠ n → (v.updRidge n (ridgePace v m n)).ridge x = v.ridge x := fun x hx => State.ridge_updRidge_ne _ _ _ _ hx
    have hself : (v.updRidge n (ridgePace v m n)).ridge n = ridgePace v m n (v.ridge n) := State.ridge_updRidge _ _ _ (by omega)
    refine ⟨q1.trans h1, q2.trans h2, fun k => (q4 k).trans (h3 k), q5.trans h4, (q6.trans (State.updRidge_length ..)).trans h5,
      fun r hr => ?_, fun r hr => ?_⟩
    · rw [(q3 r).1, hx r (by omega)]
      exact h6 r (by omega)
    · by_cases e : r = n
      · subst e
        rw [(q3 r).1, hself]
        have hv := h6 r le_rfl
        unfold Ridge.publishing at hv ⊢
        simp only [Prod.mk.injEq] at hv
        obtain ⟨v1, v2, v3, -, v5, -⟩ := hv
        rw [← v1, ← v2, ← v3, ← v5]
        rfl
      · rw [(q3 r).1, hx r e]
        exact h7 r (by omega)

/-! ### The words of the pace in the engines' memory (R387, R388) -/

theorem cellsRead_ringWrite {x : Cells 16} {codes : List Nat} {a : Nat} (hx : cellsWf 0 x = true) (ha : a < 0x0100) :
    cellsRead (ringWrite s k codes x) a = cellsRead x a := cellsRead_store_other _ hx (.inl (by omega))

/-- R387: the pace and `V_ORED` that a ridge's program is told. -/
theorem cellsRead_dmaIn {x : Cells 16} {codes : Nat → List Nat} (hx : cellsWf 0 x = true) :
    cellsRead (dmaIn s r codes x) 0x0040 = BitVec.ofNat 16 s.pace ∧ cellsRead (dmaIn s r codes x) 0x0042 = BitVec.ofNat 16 s.dev.vOred := by
  unfold dmaIn
  extract_lets q x1 x2 x3 x4 x5
  have w1 : cellsWf 0 x1 = true := cellsWf_store _ hx
  have w2 : cellsWf 0 x2 = true := cellsWf_store _ w1
  have w3 : cellsWf 0 x3 = true := cellsWf_store _ w2
  have w4 : cellsWf 0 x4 = true := cellsWf_store _ w3
  have w5 : cellsWf 0 x5 = true := by
    dsimp only [x5]
    split
    · exact cellsWf_store _ w4
    · exact w4
  have r3 : cellsRead x3 0x0040 = BitVec.ofNat 16 s.pace ∧ cellsRead x3 0x0042 = BitVec.ofNat 16 s.dev.vOred :=
    ⟨cellsRead_store_same _ w2 0 (by simp), cellsRead_store_same _ w2 2 (by simp)⟩
  have r5 : ∀ a, a < 0x0048 → cellsRead x5 a = cellsRead x3 a := fun a ha => by
    have r4 : cellsRead x4 a = cellsRead x3 a := cellsRead_store_other _ w3 (.inl ha)
    dsimp only [x5]
    split
    · exact (cellsRead_store_other _ w4 (.inl (by omega))).trans r4
    · exact r4
  clear_value x5
  have hring : ∀ (l : List Nat) (y : Cells 16), cellsWf 0 y = true → ∀ a, a < 0x0100 →
      cellsRead (l.foldl (fun y j => ringWrite s (8 * r + j) (codes (8 * r + j)) y) y) a = cellsRead y a := fun l => by
    induction l with
    | nil => exact fun _ _ _ _ => rfl
    | cons j l ih => exact fun y hy a ha => (ih _ (cellsWf_store _ hy) a ha).trans (cellsRead_ringWrite hy ha)
  exact ⟨(hring _ x5 w5 _ (by decide)).trans ((r5 _ (by decide)).trans r3.1), (hring _ x5 w5 _ (by decide)).trans ((r5 _ (by decide)).trans r3.2)⟩

/-- A ridge whose engine finds the words of the pace in X. -/
def Ridge.told (q : Ridge) (x : Cells 16) : Ridge := { q with eng := { q.eng with x } }

/-- The words of the pace as a ridge's program finds them. -/
def told (m : PaceSense) (t : State) (r : Nat) (q : Ridge) : Ridge := q.told (dmaIn t r (fun k => (m.phases.getD k {}).codes) q.eng.x)

theorem told_spec (m : PaceSense) (q : Ridge) :
    (told m s r q).bank = q.bank ∧ (told m s r q).published = q.published ∧ (told m s r q).overrun = q.overrun ∧ (told m s r q).held = q.held ∧
      (cellsWf 0 q.eng.x = true → cellsRead (told m s r q).eng.x 0x0040 = BitVec.ofNat 16 s.pace ∧
        cellsRead (told m s r q).eng.x 0x0042 = BitVec.ofNat 16 s.dev.vOred) :=
  have e : (told m s r q).eng.x = dmaIn s r (fun k => (m.phases.getD k {}).codes) q.eng.x := rfl
  ⟨rfl, rfl, rfl, rfl, fun hx => by
    rw [e]
    exact cellsRead_dmaIn hx⟩

/-- R387: a ridge's program is told of the pace, unless the ridge is absent. -/
def dmaStep (m : PaceSense) (r : Nat) (t : State) : State := if (t.ridge r).run == .depopulated then t else t.updRidge r (told m t r)

theorem dmaSteps_spec (m : PaceSense) (n : Nat) (s : State) (hn : n ≤ s.ridges.length) :
    overN n (dmaStep m) s = { s with ridges := (overN n (dmaStep m) s).ridges } ∧ (overN n (dmaStep m) s).ridges.length = s.ridges.length ∧
      (∀ r, n ≤ r → (overN n (dmaStep m) s).ridge r = s.ridge r) ∧
      ∀ r, r < n → ((overN n (dmaStep m) s).ridge r).bank = (s.ridge r).bank ∧
        ((overN n (dmaStep m) s).ridge r).published = (s.ridge r).published ∧ ((overN n (dmaStep m) s).ridge r).overrun = (s.ridge r).overrun ∧
        ((overN n (dmaStep m) s).ridge r).held = (s.ridge r).held ∧
        ((s.ridge r).run ≠ .depopulated → cellsWf 0 (s.ridge r).eng.x = true →
          cellsRead ((overN n (dmaStep m) s).ridge r).eng.x 0x0040 = BitVec.ofNat 16 s.pace ∧
            cellsRead ((overN n (dmaStep m) s).ridge r).eng.x 0x0042 = BitVec.ofNat 16 s.dev.vOred) := by
  induction n with
  | zero => exact ⟨rfl, rfl, fun _ _ => rfl, fun r hr => absurd hr (by omega)⟩
  | succ n ih =>
    obtain ⟨h1, h2, h3, h4⟩ := ih (by omega)
    rw [overN_succ]
    generalize overN n (dmaStep m) s = v at *
    have hn' := h3 n le_rfl
    by_cases hd : (s.ridge n).run = .depopulated
    · have e : dmaStep m n v = v := if_pos (by rw [hn', hd]; rfl)
      rw [e]
      refine ⟨h1, h2, fun r hr => h3 r (by omega), fun r hr => ?_⟩
      by_cases er : r = n
      · subst er
        rw [hn']
        exact ⟨rfl, rfl, rfl, rfl, fun k => absurd hd k⟩
      · exact h4 r (by omega)
    · have e : dmaStep m n v = v.updRidge n (told m v n) := if_neg (by rw [hn']; simpa using hd)
      rw [e]
      have hself : (v.updRidge n (told m v n)).ridge n = told m v n (s.ridge n) := by
        rw [State.ridge_updRidge v n _ (by omega), hn']
      obtain ⟨hp, hv⟩ : v.pace = s.pace ∧ v.dev = s.dev := by
        rw [h1]
        exact ⟨rfl, rfl⟩
      refine ⟨?_, (State.updRidge_length ..).trans h2, fun r hr => (State.ridge_updRidge_ne _ _ _ _ (by omega)).trans (h3 r (by omega)), fun r hr => ?_⟩
      · rw [h1]
        rfl
      · by_cases er : r = n
        · subst er
          rw [hself, ← hp, ← hv]
          obtain ⟨t1, t2, t3, t4, t5⟩ := told_spec (s := v) (r := r) m (s.ridge r)
          exact ⟨t1, t2, t3, t4, fun _ hx => t5 hx⟩
        · rw [State.ridge_updRidge_ne _ _ _ _ er]
          exact h4 r (by omega)

/-! ### The publish windows, the masks and the pin command at the boundary -/

/-- What a boundary needs of a ridge as the sweeps begin. -/
def Ridge.asking (q : Ridge) := (q.publishing, q.steerWord, q.probe)

theorem State.raise_ridge_asking (b : Blk) (i x : Nat) : ((s.raise b i).ridge x).asking = (s.ridge x).asking :=
  (congrArg Ridge.asking (s.raise_ridge_bare b i x) :)

theorem checkPhase_asking (i x : Nat) : ((checkPhase s i).ridge x).asking = (s.ridge x).asking := by
  unfold checkPhase
  dsimp only
  split
  · rfl
  · split
    · split
      · exact State.raise_ridge_asking ..
      · rfl
    · rfl

theorem publishWindow_asking (r x : Nat) : ((publishWindow r s).ridge x).asking = (s.ridge x).asking := by
  unfold publishWindow
  split
  · extract_lets miss a b
    have ha : (a.ridge x).asking = (s.ridge x).asking := overN_keeps (fun t => (t.ridge x).asking) (fun j _ => checkPhase_asking _ x) 8 s
    have hb : (b.ridge x).asking = (s.ridge x).asking := by
      refine Eq.trans ?_ ha
      refine State.ridge_updRidge_part Ridge.asking r _ ?_ x
      exact fun _ => rfl
    clear_value b
    split
    · exact hb
    · exact (State.raise_ridge_asking ..).trans hb
  · rfl

theorem publishWindows_asking (x : Nat) : ((publishWindows s).ridge x).asking = (s.ridge x).asking :=
  overN_keeps (fun t => (t.ridge x).asking) (fun r _ => publishWindow_asking r x) 6 s

/-- The clock, and how many ridges and phases there are. -/
def State.sized (s : State) := (s.paced, s.ridges.length, s.phases.length)

theorem State.raise_sized (b : Blk) (i : Nat) : (s.raise b i).sized = s.sized := by
  unfold State.sized
  rw [(Quiet.raise b i).clock, State.raise_ridges_length, State.raise_phases_length]

theorem State.updPhase_sized (i : Nat) (f : Phase → Phase) : (s.updPhase i f).sized = s.sized := by
  unfold State.sized
  rw [State.updPhase_length]
  rfl

theorem State.updRidge_sized (i : Nat) (f : Ridge → Ridge) : (s.updRidge i f).sized = s.sized := by
  unfold State.sized
  rw [State.updRidge_length]
  rfl

theorem checkPhase_sized (i : Nat) : (checkPhase s i).sized = s.sized := by
  unfold checkPhase
  dsimp only
  split
  · rfl
  · split
    · split
      · exact (State.raise_sized ..).trans ((State.updPhase_sized ..).trans (State.updPhase_sized ..))
      · exact State.updPhase_sized ..
    · exact State.updPhase_sized ..

theorem publishWindow_sized (r : Nat) : (publishWindow r s).sized = s.sized := by
  unfold publishWindow
  split
  · extract_lets miss a b
    have ha : a.sized = s.sized := overN_keeps State.sized (fun j _ => checkPhase_sized _) 8 s
    have hb : b.sized = a.sized := State.updRidge_sized ..
    split
    · exact hb.trans ha
    · exact (State.raise_sized ..).trans (hb.trans ha)
  · rfl

/-- The windows leave the clock, and no ridge or phase goes. -/
theorem publishWindows_sized : (publishWindows s).sized = s.sized := overN_keeps State.sized (fun r _ => publishWindow_sized r) 6 s

/-- R257: the masks are taken; the records alone change. -/
theorem takeMasks_keeps {α : Type} (g : State → α) (h : ∀ t b f, g (State.setFlt t b f) = g t) : g (takeMasks s) = g { s with fltWrites := [] } := by
  unfold takeMasks
  refine foldl_keeps _ g _ (fun t w => ?_) _
  split
  · exact h ..
  · rfl

theorem State.setFlt_sized (b : Blk) (f : Flt) : (s.setFlt b f).sized = s.sized := by
  unfold State.sized
  cases b <;> simp [State.setFlt, State.updPhase, State.updRidge, State.updFeed, State.updPath, State.updCc, State.updPort, State.paced]

/-- R265: the order of the pin is taken. -/
theorem takePin_spec :
    (takePin s).faultN.action = none ∧ takePin s = { s with faultN := (takePin s).faultN } := by
  unfold takePin
  split
  · next h => exact ⟨h, rfl⟩
  · exact ⟨rfl, rfl⟩

/-- R257, R265: what the boundary's masks and pin order leave. -/
theorem newPace_spec :
    s.newPace.sized = { s with fltWrites := [], faultN := s.newPace.faultN }.sized ∧ s.newPace.faultN.action = none ∧
      (∀ k, (s.newPace.phase k).bare = (s.phase k).bare) ∧ ∀ r, (s.newPace.ridge r).bare = (s.ridge r).bare := by
  have hs := takeMasks_keeps (s := s) State.sized (fun t b f => State.setFlt_sized b f)
  have hp := fun k => takeMasks_keeps (s := s) (fun t => (t.phase k).bare) (fun t b f => State.setFlt_phase_bare t b f k)
  have hr := fun r => takeMasks_keeps (s := s) (fun t => (t.ridge r).bare) (fun t b f => State.setFlt_ridge_bare t b f r)
  unfold State.newPace
  generalize takeMasks s = v at *
  obtain ⟨h1, h2⟩ := takePin_spec (s := v)
  generalize takePin v = w at *
  refine ⟨?_, h1, fun k => ?_, fun r => ?_⟩
  · rw [h2]
    unfold State.sized State.paced at hs ⊢
    simp only [Prod.mk.injEq] at hs ⊢
    obtain ⟨⟨a1, a2, a3, a4, a5, a6, a7, a8, a9, a10, a11, -⟩, a13⟩ := hs
    exact ⟨⟨a1, a2, a3, a4, a5, a6, a7, a8, a9, a10, a11, trivial⟩, a13⟩
  · rw [h2]
    exact hp k
  · rw [h2]
    exact hr r

/-! ### The boundary as a whole (R35, R146) -/

/-- The state as the sweeps of the boundary begin. -/
def State.sweepStart (s : State) : State :=
  let a := { s with sup := { s.sup with eng := s.sup.eng.newPace } }
  if a.pace = 0 then a else a.newPace

/-- The sweeps of the boundary, in their order. -/
def paceSweeps (m : PaceSense) (s : State) : State :=
  let s := senseFaults m s
  let s := overN 48 (fun k t => t.updPhase k (transfer t k)) s
  let s := overN 48 (fun k t => if (t.phase k).fitted then t.updPhase k (phasePace t k (m.phases.getD k {})) else t) s
  let s := { s with dev := devPace m s.dev }
  let s := overN 6 (fun r t => probePace r t) s
  let s := overN 24 (portPace m) s
  let s := overN 6 guardRidge s
  let s := overN 48 (fun k t => t.updPhase k slotStep) s
  let s := overN 24 (recalPace m) s
  let s := capturePaces m s
  let s := overN 2 (fun x t => t.updFeed x (feedPace t x (m.feeds.getD x {}))) s
  let s := overN 6 (ridgeStep m) s
  let s := overN 48 statPace s
  overN 6 (dmaStep m) s

theorem paceBoundary_eq (m : PaceSense) (hl : s.locked = true) (hu : nextPace (publishWindows s) = some u) :
    paceBoundary m s = paceSweeps m u.sweepStart := by
  unfold paceBoundary
  rw [if_pos hl, hu]
  rfl

/-- What a boundary's sweeps leave to state t, from state s. -/
structure PaceSwept (m : PaceSense) (s t : State) : Prop where
  clock : t.paced = s.paced
  vOred : t.dev.vOred = m.vOred
  taken : ∀ k, k < 48 → (s.ridge (ridgeOfPhase k)).published = true → (s.ridge (ridgeOfPhase k)).overrun = false →
    (s.ridge (ridgeOfPhase k)).probe = none → (s.ridge (ridgeOfPhase k)).steerWord = 0 → unchecked (s.phase k) = false →
    (s.phase k).pwmOff = false → (t.phase k).active = (s.phase k).checked ∧ (t.phase k).lastDuty = (s.phase k).checked
  kept : ∀ k, k < 48 → ((s.ridge (ridgeOfPhase k)).published = false ∨ (s.ridge (ridgeOfPhase k)).overrun = true) →
    (s.ridge (ridgeOfPhase k)).steerWord = 0 → (s.phase k).guard = .free → (t.phase k).active = (s.phase k).active
  ridge : ∀ r, r < 6 → (t.ridge r).held = (s.ridge r).overrun ∧ (t.ridge r).published = false ∧ (t.ridge r).overrun = false ∧
    (t.ridge r).bank = (s.ridge r).bank ∧
    ((s.ridge r).run ≠ .depopulated → cellsWf 0 (s.ridge r).eng.x = true →
      cellsRead (t.ridge r).eng.x 0x0040 = BitVec.ofNat 16 s.pace ∧ cellsRead (t.ridge r).eng.x 0x0042 = BitVec.ofNat 16 m.vOred)

theorem unchecked_guard {f : Phase} (h : unchecked f = false) : f.guard ≠ .brk := fun e => by
  simp [unchecked, Phase.guardDrives, e] at h

theorem senseFaults_keeps {α : Type} (g : State → α) (h : ∀ t b i, g (State.raise t b i) = g t) (m : PaceSense) : g (senseFaults m s) = g s := by
  unfold senseFaults
  extract_lets codes pcodes a miss b
  have ha : g a = g s := by
    dsimp only [a]
    split
    · exact h ..
    · rfl
  have hb : g b = g a := by
    dsimp only [b]
    split
    · exact h ..
    · rfl
  split
  · exact hb.trans ha
  · exact (h ..).trans (hb.trans ha)

/-- The sweeps after the guards' and before the ridges'. -/
theorem Quiet.slotsToFeeds (m : PaceSense) :
    Quiet s (Machine.overN 2 (fun x t => t.updFeed x (feedPace t x (m.feeds.getD x {}))) (Machine.capturePaces m
      (Machine.overN 24 (Machine.recalPace m) (Machine.overN 48 (fun k t => t.updPhase k slotStep) s)))) := by
  have h1 : Quiet s (Machine.overN 48 (fun k t => t.updPhase k slotStep) s) := Quiet.overN (fun k _ => Quiet.updPhase slotStep_drive k) 48 s
  have h2 := h1.trans (Quiet.overN (fun p _ => Quiet.recalPace m p) 24 _)
  have h3 := h2.trans (Quiet.capturePaces m)
  exact h3.trans (Quiet.overN (fun _ _ => Quiet.updFeed _ _) 2 _)

theorem paceSweeps_spec (m : PaceSense) (hlp : s.phases.length = 48) (hlr : s.ridges.length = 6) : PaceSwept m s (paceSweeps m s) := by
  have hprobe : ∀ r, ((senseFaults m s).ridge r).bare = (s.ridge r).bare := fun r =>
    senseFaults_keeps (fun t => (t.ridge r).bare) (fun t b i => State.raise_ridge_bare t b i r) m
  have hchk : ∀ k, ((senseFaults m s).phase k).bare = (s.phase k).bare := fun k =>
    senseFaults_keeps (fun t => (t.phase k).bare) (fun t b i => State.raise_phase_bare t b i k) m
  unfold paceSweeps
  extract_lets a b c d e f g h i j l n o
  have qa : Quiet s a := Quiet.senseFaults m
  obtain ⟨b1, b2, b3⟩ := transfers_spec (s := a) (qa.phases.trans hlp) (t := b) rfl
  clear_value b
  have qc : Quiet b c := Quiet.phasePaces m
  clear_value c
  have d1 : d.paced = c.paced := rfl
  have d2 : d.dev.vOred = m.vOred := rfl
  have d3 : d.ridges = c.ridges := rfl
  have d4 : d.phases = c.phases := rfl
  clear_value d
  have qe : Quiet d e := Quiet.overN (fun r _ => Quiet.probePace r) 6 d
  have qf : Quiet e f := Quiet.overN (fun p _ => Quiet.portPace m p) 24 e
  have qdf : Quiet d f := qe.trans qf
  clear_value f
  obtain ⟨g1, g2, g3, -, -, -, g7, g8⟩ := overN_guardRidge 6 f
  change g.paced = f.paced at g1
  change g.dev = f.dev at g2
  change ∀ x, (g.ridge x).publishing = (f.ridge x).publishing at g3
  change g.ridges.length = f.ridges.length at g7
  change ∀ k, _ → _ → (g.phase k).active = (f.phase k).active ∧ (g.phase k).lastDuty = (f.phase k).lastDuty at g8
  clear_value g
  have ql : Quiet g l := Quiet.slotsToFeeds m
  clear_value l
  have hbr : ∀ r, b.ridge r = a.ridge r := fun r => by
    rw [b1]
    rfl
  have hdr : ∀ r, d.ridge r = c.ridge r := fun r => by rw [State.ridge, State.ridge, d3]
  have hlen : l.ridges.length = 6 := by
    have hb : b.ridges.length = a.ridges.length := by rw [b1]
    rw [ql.ridges, g7, qdf.ridges, d3, qc.ridges, hb, qa.ridges, hlr]
  have hpub : ∀ r, (f.ridge r).publishing = (s.ridge r).publishing := fun r => by
    rw [(qdf.ridge r).1, hdr, (qc.ridge r).1, hbr, (qa.ridge r).1]
  have hask : ∀ r, (f.ridge r).steerWord = (s.ridge r).steerWord := fun r => by
    rw [(qdf.ridge r).2, hdr, (qc.ridge r).2, hbr, (qa.ridge r).2]
  have hdrive : ∀ k, (f.phase k).drive = (b.phase k).drive := fun k => by
    have hd : d.phase k = c.phase k := by rw [State.phase, State.phase, d4]
    rw [qdf.phase k, hd, qc.phase k]
  obtain ⟨n1, n2, n3, -, n5, -, n7⟩ := ridgeSteps_spec m 6 l hlen.ge
  change n.paced = l.paced at n1
  change n.dev = l.dev at n2
  change ∀ k, (n.phase k).drive = (l.phase k).drive at n3
  change n.ridges.length = l.ridges.length at n5
  change ∀ r, r < 6 → (n.ridge r).publishing = _ at n7
  clear_value n
  have qo : Quiet n o := Quiet.overN (fun k _ => Quiet.statPace k) 48 n
  clear_value o
  obtain ⟨t1, -, -, t4⟩ := dmaSteps_spec m 6 o (by rw [qo.ridges, n5, hlen])
  generalize overN 6 (dmaStep m) o = t at *
  have hclock : o.paced = s.paced := by
    have hb : b.paced = a.paced := by
      rw [b1]
      rfl
    rw [qo.clock, n1, ql.clock, g1, qdf.clock, d1, qc.clock, hb, qa.clock]
  have hv : o.dev.vOred = m.vOred := by rw [qo.dev, n2, ql.dev, g2, qdf.dev, d2]
  have htp : ∀ k, (t.phase k).drive = (g.phase k).drive := fun k => by
    have ht : t.phase k = o.phase k := by
      rw [t1]
      rfl
    rw [ht, qo.phase k, n3 k, ql.phase k]
  have hfg : ∀ k, k < 48 → (f.phase k).guard = (s.phase k).guard := fun k hk =>
    (congrArg (fun x => x.2.2) (hdrive k)).trans ((b3 k hk).1.trans (congrArg Phase.guard (hchk k) :))
  have hact : ∀ k, (f.phase k).active = (b.phase k).active ∧ (f.phase k).lastDuty = (b.phase k).lastDuty := fun k =>
    ⟨congrArg (fun x => x.1) (hdrive k), congrArg (fun x => x.2.1) (hdrive k)⟩
  have htg : ∀ k, (t.phase k).active = (g.phase k).active ∧ (t.phase k).lastDuty = (g.phase k).lastDuty := fun k =>
    ⟨congrArg (fun x => x.1) (htp k), congrArg (fun x => x.2.1) (htp k)⟩
  have hapub : ∀ r, (a.ridge r).published = (s.ridge r).published := fun r => (congrArg Ridge.published (hprobe r) :)
  have hao : ∀ r, (a.ridge r).overrun = (s.ridge r).overrun := fun r => (congrArg Ridge.overrun (hprobe r) :)
  refine ⟨?_, ?_, fun k hk hp ho hn hw hu hoff => ?_, fun k hk hp hw hg => ?_, fun r hr => ?_⟩
  · rw [t1]
    exact hclock
  · rw [t1]
    exact hv
  · obtain ⟨-, b4, -⟩ := b3 k hk
    obtain ⟨x1, x2⟩ := b4 ((hapub _).trans hp) ((hao _).trans ho) ((congrArg Ridge.probe (hprobe _) :).trans hn)
      ((congrArg unchecked (hchk k) :).trans hu) ((congrArg Phase.pwmOff (hchk k) :).trans hoff)
    obtain ⟨y1, y2⟩ := g8 k ((hask _).trans hw) (.inr (by rw [hfg k hk]; exact unchecked_guard hu))
    have hc : (a.phase k).checked = (s.phase k).checked := (congrArg Phase.checked (hchk k) :)
    exact ⟨(htg k).1.trans (y1.trans ((hact k).1.trans (x1.trans hc))), (htg k).2.trans (y2.trans ((hact k).2.trans (x2.trans hc)))⟩
  · obtain ⟨-, -, b4⟩ := b3 k hk
    have x1 := b4 (by rw [hapub, hao]; exact hp)
    obtain ⟨y1, -⟩ := g8 k ((hask _).trans hw) (.inr (by rw [hfg k hk, hg]; decide))
    exact (htg k).1.trans (y1.trans ((hact k).1.trans (x1.trans (congrArg Phase.active (hchk k) :))))
  · obtain ⟨t5, t6, t7, t8, t9⟩ := t4 r hr
    have ho : (o.ridge r).publishing = _ := ((qo.ridge r).1.trans (n7 r hr))
    have hl : (l.ridge r).publishing = (s.ridge r).publishing := (ql.ridge r).1.trans ((g3 r).trans (hpub r))
    unfold Ridge.publishing at ho hl
    simp only [Prod.mk.injEq] at ho hl
    obtain ⟨o1, o2, o3, o4, o5, o6⟩ := ho
    obtain ⟨l1, l2, l3, -, l5, -⟩ := hl
    refine ⟨t8.trans (o6.trans l5), t6.trans o4, t7.trans o5, t5.trans (o1.trans l1), fun hrun hx => ?_⟩
    obtain ⟨r1, r2⟩ := t9 (by rw [o2, l2]; exact hrun) (by rw [o3, l3]; exact hx)
    exact ⟨r1.trans (congrArg _ (congrArg (fun x => x.2.1) hclock)), r2.trans (congrArg _ hv)⟩

/-! ### The boundary (R33, R35) -/

/-- What the sweeps of a boundary begin from. -/
theorem State.sweepStart_spec :
    s.sweepStart.sized = { s with sup := { s.sup with eng := s.sup.eng.newPace }, fltWrites := s.sweepStart.fltWrites, faultN := s.sweepStart.faultN }.sized ∧
      (s.pace ≠ 0 → s.sweepStart.fltWrites = [] ∧ s.sweepStart.faultN.action = none) ∧
      (∀ k, (s.sweepStart.phase k).bare = (s.phase k).bare) ∧ ∀ r, (s.sweepStart.ridge r).bare = (s.ridge r).bare := by
  unfold State.sweepStart
  extract_lets q a
  have ha : a.pace = s.pace := rfl
  by_cases h : s.pace = 0
  · rw [if_pos (ha.trans h)]
    exact ⟨rfl, fun k => absurd h k, fun _ => rfl, fun _ => rfl⟩
  · rw [if_neg (fun e => h (ha.symm.trans e))]
    obtain ⟨h1, h2, h3, h4⟩ := newPace_spec (s := a)
    have hf : a.newPace.fltWrites = [] := congrArg (fun x => x.1.2.2.2.2.2.2.2.2.2.2.1) h1
    refine ⟨?_, fun _ => ⟨hf, h2⟩, h3, h4⟩
    rw [hf]
    exact h1

theorem nextPace_some (h : s.pace < 499 ∨ s.paceZero = true) :
    nextPace s = some { s with pace := if s.paceZero then 0 else s.pace + 1, paceZero := false, paceCount := s.paceCount + 1 } := by
  unfold nextPace
  by_cases hz : s.paceZero = true
  · rw [if_pos hz, if_pos hz]
  · have hz' : s.paceZero = false := by simpa using hz
    rw [if_neg hz, if_neg hz, if_pos (h.resolve_right hz), ← hz']

theorem nextPace_none (h : 499 ≤ s.pace) (hz : s.paceZero = false) : nextPace s = none := by
  unfold nextPace
  rw [hz]
  simp [show ¬s.pace < 499 by omega]

theorem scheduleLate_off (h : s.sup.schedDue = false ∨ s.pace ≠ 0 ∨ s.paceZero = true) : scheduleLate s = s := by
  refine if_neg ?_
  obtain h | h | h := h
  · simp [h]
  · simp [State.atBoundary, h]
  · simp [h]

theorem paceBoundary_idle (m : PaceSense) (hp : 499 ≤ s.pace) (hz : s.paceZero = false) : paceBoundary m s = s := by
  have hs := publishWindows_sized (s := s)
  have h1 : (publishWindows s).pace = s.pace := congrArg (fun x => x.1.2.1) hs
  have h2 : (publishWindows s).paceZero = s.paceZero := congrArg (fun x => x.1.2.2.1) hs
  have hn : nextPace (publishWindows s) = none := nextPace_none (h1.symm ▸ hp) (h2.trans hz)
  unfold paceBoundary
  rw [hn]
  exact ite_self s

theorem paceBoundary_goes (m : PaceSense) (hi : s.Inv) (hl : s.locked = true) (hp : s.pace < 499 ∨ s.paceZero = true) (hu : u = publishWindows s)
    (hd : s.sup.schedDue = false ∨ s.pace ≠ 0 ∨ s.paceZero = true) :
    Goes (.paceBoundary m) s fun t =>
      t.pace = (if s.paceZero then 0 else s.pace + 1) ∧ t.paceZero = false ∧ t.frame = s.frame ∧ t.paceCount = s.paceCount + 1 ∧
        t.dev.vOred = m.vOred ∧ (s.paceZero = false → t.fltWrites = [] ∧ t.faultN.action = none) ∧ t.ledger = s.ledger ∧ t.params = s.params ∧
        t.inForce = s.inForce ∧ t.seq = s.seq ∧ t.sup.eng.cyc = 0 ∧ t.sup.eng.macDrop = false ∧ t.sup.eng.macOvf = false ∧
        (∀ k, k < 48 → (s.ridge (ridgeOfPhase k)).published = true → (s.ridge (ridgeOfPhase k)).overrun = false →
          (s.ridge (ridgeOfPhase k)).probe = none → (s.ridge (ridgeOfPhase k)).steerWord = 0 → unchecked (u.phase k) = false →
          (u.phase k).pwmOff = false →
          (t.phase k).active = (u.phase k).checked ∧ (t.phase k).lastDuty = (u.phase k).checked) ∧
        (∀ k, k < 48 → ((s.ridge (ridgeOfPhase k)).published = false ∨ (s.ridge (ridgeOfPhase k)).overrun = true) →
          (s.ridge (ridgeOfPhase k)).steerWord = 0 → (u.phase k).guard = .free → (t.phase k).active = (u.phase k).active) ∧
        (∀ r, r < 6 → (t.ridge r).held = (s.ridge r).overrun ∧ (t.ridge r).published = false ∧ (t.ridge r).overrun = false ∧
          (t.ridge r).bank = (s.ridge r).bank ∧
          ((s.ridge r).run ≠ .depopulated →
            cellsRead (t.ridge r).eng.x 0x0040 = BitVec.ofNat 16 t.pace ∧ cellsRead (t.ridge r).eng.x 0x0042 = BitVec.ofNat 16 m.vOred)) := by
  have hsz := publishWindows_sized (s := s)
  have hask : ∀ x, (u.ridge x).asking = (s.ridge x).asking := fun x => by
    rw [hu]
    exact publishWindows_asking x
  rw [← hu] at hsz
  have hup : u.pace = s.pace := congrArg (fun x => x.1.2.1) hsz
  have huz : u.paceZero = s.paceZero := congrArg (fun x => x.1.2.2.1) hsz
  have hnext := nextPace_some (s := u) (by rw [hup, huz]; exact hp)
  generalize hx : ({ u with pace := if u.paceZero then 0 else u.pace + 1, paceZero := false, paceCount := u.paceCount + 1 } : State) = x at hnext
  have he : paceBoundary m s = paceSweeps m x.sweepStart := paceBoundary_eq m hl (by rw [← hu]; exact hnext)
  refine ⟨_, congrArg Host.Outcome.next ((congrArg (paceBoundary m) (scheduleLate_off hd)).trans he), ?_⟩
  obtain ⟨v1, v2, v3, v4⟩ := State.sweepStart_spec (s := x)
  generalize x.sweepStart = v at *
  have hxk : ∀ k, x.phase k = u.phase k := fun k => by
    rw [← hx]
    rfl
  have hxr : ∀ r, x.ridge r = u.ridge r := fun r => by
    rw [← hx]
    rfl
  have hxs : x.sized = ((s.frame, if s.paceZero then 0 else s.pace + 1, false, s.paceCount + 1, s.locked, s.params, s.inForce, s.ledger, s.seq, s.sup,
      s.fltWrites, s.faultN.action), s.ridges.length, s.phases.length) := by
    unfold State.sized State.paced at hsz
    simp only [Prod.mk.injEq] at hsz
    obtain ⟨⟨a1, -, -, a4, a5, a6, a7, a8, a9, a10, a11, a12⟩, a13, a14⟩ := hsz
    rw [← hx]
    unfold State.sized State.paced
    simp only [Prod.mk.injEq]
    exact ⟨⟨a1, by rw [huz, hup], trivial, congrArg (· + 1) a4, a5, a6, a7, a8, a9, a10, a11, a12⟩, a13, a14⟩
  unfold State.sized State.paced at hxs v1
  simp only [Prod.mk.injEq] at hxs v1
  obtain ⟨⟨x1, x2, x3, x4, -, x6, x7, x8, x9, x10, -, -⟩, x13, x14⟩ := hxs
  obtain ⟨⟨w1, w2, w3, w4, -, w6, w7, w8, w9, w10, -, -⟩, w13, w14⟩ := v1
  obtain ⟨hports, hphases, hridges, -⟩ := id hi.1
  obtain ⟨t1, t2, t3, t4, t5⟩ := paceSweeps_spec (s := v) m (w14.trans (x14.trans hphases)) (w13.trans (x13.trans hridges))
  generalize paceSweeps m v = t at *
  unfold State.paced at t1
  simp only [Prod.mk.injEq] at t1
  obtain ⟨c1, c2, c3, c4, -, c6, c7, c8, c9, c10, c11, c12⟩ := t1
  have hpace : x.pace = if s.paceZero then 0 else s.pace + 1 := x2
  have hrb : ∀ r, (v.ridge r).asking = (s.ridge r).asking := fun r => (congrArg Ridge.asking (v4 r) :).trans ((congrArg Ridge.asking (hxr r)).trans (hask r))
  have hpb : ∀ k, (v.phase k).bare = (u.phase k).bare := fun k => (v3 k).trans (congrArg Phase.bare (hxk k))
  have hpubl : ∀ r, (v.ridge r).publishing = (s.ridge r).publishing := fun r => congrArg (fun y => y.1) (hrb r)
  have hsteer : ∀ r, (v.ridge r).steerWord = (s.ridge r).steerWord := fun r => congrArg (fun y => y.2.1) (hrb r)
  have hprobe : ∀ r, (v.ridge r).probe = (s.ridge r).probe := fun r => congrArg (fun y => y.2.2) (hrb r)
  have hp1 : ∀ r, (v.ridge r).published = (s.ridge r).published := fun r => congrArg (fun y => y.2.2.2.1) (hpubl r)
  have hp2 : ∀ r, (v.ridge r).overrun = (s.ridge r).overrun := fun r => congrArg (fun y => y.2.2.2.2.1) (hpubl r)
  have hp3 : ∀ r, (v.ridge r).bank = (s.ridge r).bank := fun r => congrArg (fun y => y.1) (hpubl r)
  have hp4 : ∀ r, (v.ridge r).run = (s.ridge r).run := fun r => congrArg (fun y => y.2.1) (hpubl r)
  have hp5 : ∀ r, (v.ridge r).eng = (s.ridge r).eng := fun r => congrArg (fun y => y.2.2.1) (hpubl r)
  have hsup : t.sup = { s.sup with eng := s.sup.eng.newPace } := by rw [c10, w10, x10]
  refine ⟨c2.trans (w2.trans x2), c3.trans (w3.trans x3), c1.trans (w1.trans x1), c4.trans (w4.trans x4), t2, fun hz => ?_, c8.trans (w8.trans x8),
    c6.trans (w6.trans x6), c7.trans (w7.trans x7), c9.trans (w9.trans x9), ?_, ?_, ?_, fun k hk hp ho hn hw hun hoff => ?_, fun k hk hp hw hg => ?_,
    fun r hr => ?_⟩
  · obtain ⟨f1, f2⟩ := v2 (by rw [hpace, hz]; simp)
    exact ⟨c11.trans f1, c12.trans f2⟩
  · rw [hsup]
    rfl
  · rw [hsup]
    rfl
  · rw [hsup]
    rfl
  · have hc : (v.phase k).checked = (u.phase k).checked := (congrArg Phase.checked (hpb k) :)
    rw [← hc]
    exact t3 k hk ((hp1 _).trans hp) ((hp2 _).trans ho) ((hprobe _).trans hn) ((hsteer _).trans hw) ((congrArg unchecked (hpb k) :).trans hun)
      ((congrArg Phase.pwmOff (hpb k) :).trans hoff)
  · have hc : (v.phase k).active = (u.phase k).active := (congrArg Phase.active (hpb k) :)
    rw [← hc]
    exact t4 k hk (by rw [hp1, hp2]; exact hp) ((hsteer _).trans hw) ((congrArg Phase.guard (hpb k) :).trans hg)
  · obtain ⟨r1, r2, r3, r4, r5⟩ := t5 r hr
    refine ⟨r1.trans (hp2 r), r2, r3, r4.trans (hp3 r), fun hrun => ?_⟩
    have hx0 : cellsWf 0 (s.ridge r).eng.x = true := (hi.2.eng r).1
    rw [c2]
    exact r5 (by rw [hp4]; exact hrun) (by rw [hp5]; exact hx0)

theorem startSchedule_due : (startSchedule s).sup.schedDue = false := by
  unfold startSchedule
  extract_lets t
  have h := (Firm.policyTask (s := { t with sup := { t.sup with schedDue := false } })).1
  exact congrArg (fun x => x.2.2.2.2.2.2.2.2.2.1) h

/-- Settles O44: at pace 499 the boundary waits (`paceBoundary_idle`); else its sweeps leave what `paceSweeps_spec` says. -/
theorem paceBoundary_holds : Obligations.PaceBoundary := by
  refine ⟨fun s m _ hp hz => ?_, fun s u m hi hl hp hu hd => paceBoundary_goes m hi hl hp hu hd, fun s m hd hp hz => ⟨?_, startSchedule_due⟩⟩
  · have h : scheduleLate s = s := scheduleLate_off (.inr (.inl (by omega)))
    exact congrArg Host.Outcome.next ((congrArg (paceBoundary m) h).trans (paceBoundary_idle m hp hz))
  · have h : scheduleLate s = startSchedule s := if_pos (by simp [State.atBoundary, hd, hp, hz])
    exact congrArg Host.Outcome.next (congrArg (paceBoundary m) h)

end Sys2Proof.Machine
end

section
/-! PROOF. Bring-up. -/
namespace Sys2Proof.Machine
variable {s t u : State} {p r n : Nat}

/-! ### The calibration of bring-up (R250, R419) -/

theorem State.bringup_iff : s.bringup n = true ↔ s.seq.mode = .running ∧ s.locked = true ∧ s.seq.milestone = n := by
  simp [State.bringup, and_assoc]

theorem State.takeCal_spec (g : Option Nat) :
    (s.takeCal g).otp.calUse = g ∧ (s.takeCal g).otp.calBad = s.otp.badChannels g ∧
      (s.otp.badChannels g ≠ [] → (s.takeCal g).fltSense.sticky.getLsbD 3 = true) := by
  unfold State.takeCal
  extract_lets bad o s1 s2
  have h2 : s2.otp = s1.otp :=
    (overN_keeps State.otp (f := fun p t => t.updPath p _) (fun _ _ => rfl) 24 _).trans (overN_keeps State.otp (f := fun k t => t.updPhase k _) (fun _ _ => rfl) 48 s1)
  have hu : s2.otp.calUse = g := congrArg Otp.calUse h2
  have hb : s2.otp.calBad = bad := congrArg Otp.calBad h2
  clear_value s2
  by_cases he : bad = []
  · rw [if_pos (by rw [he]; rfl)]
    exact ⟨hu, hb, fun k => absurd he k⟩
  · rw [if_neg (by simpa using he)]
    refine ⟨?_, ?_, fun _ => State.raise_sticky s2 .sense 3 trivial (by decide)⟩
    · rw [State.raise_otp, hu]
    · rw [State.raise_otp, hb]

theorem calibrationTakeup_goes (h : s.bringup 0 = true) :
    Goes .calibrationTakeup s fun t =>
      t.seq = { s.seq with milestone := 1 } ∧ t.otp.calUse = s.otp.currentGen ∧ t.otp.calBad = s.otp.badChannels s.otp.currentGen ∧
        (s.otp.badChannels s.otp.currentGen ≠ [] → t.fltSense.sticky.getLsbD 3 = true) := by
  obtain ⟨-, -, hm⟩ := State.bringup_iff.mp h
  refine ⟨_, congrArg Host.Outcome.next (if_pos h), ?_⟩
  have hs := State.takeCal_seq (s := s) s.otp.currentGen
  obtain ⟨h1, h2, h3⟩ := State.takeCal_spec (s := s) s.otp.currentGen
  generalize s.takeCal s.otp.currentGen = v at *
  refine ⟨?_, h1, h2, h3⟩
  show ({ v.seq with milestone := max v.seq.milestone 1 } : Seq) = _
  rw [hs, hm]
  rfl

/-! ### The retained cairns (R429) -/

/-- A cairn that holds its CRC is left as it is. -/
theorem State.checkCairn_valid (h : (s.cairn n).valid = true) : s.checkCairn n = s := by
  unfold State.checkCairn
  unfold Cairn.valid at h
  simp only [Bool.and_eq_true, beq_iff_eq] at h
  exact if_neg (by simp [h.2])

/-- What the check of a cairn may change: its STATE, and the always-on record. -/
def CairnChecked (s t : State) : Prop :=
  t = { s with ret := { s.ret with cairns := t.ret.cairns }, fltAon := t.fltAon, faultN := t.faultN, attn := t.attn, irq := t.irq }

theorem State.checkCairn_spec (n : Nat) :
    CairnChecked s (s.checkCairn n) ∧ (s.checkCairn n).ret.cairns.length = s.ret.cairns.length ∧
      (∀ m, m ≠ n → (s.checkCairn n).cairn m = s.cairn m) ∧ ((s.checkCairn n).cairn n).valid = (s.cairn n).valid ∧
      ((s.checkCairn n).cairn n).record = (s.cairn n).record := by
  unfold State.checkCairn
  dsimp only
  split
  next h =>
    have hf := raiseAon_frame (s := s.updCairn n fun c => { c with state := 2 }) 1
    have hr : ((s.updCairn n fun c => { c with state := 2 }).raise .aon 1).ret = (s.updCairn n fun c => { c with state := 2 }).ret := State.raise_ret ..
    have hc : ∀ m, ((s.updCairn n fun c => { c with state := 2 }).raise .aon 1).cairn m = (s.updCairn n fun c => { c with state := 2 }).cairn m := fun m => by
      rw [State.cairn, State.cairn, hr]
    generalize (s.updCairn n fun c => { c with state := 2 }).raise .aon 1 = v at *
    refine ⟨?_, ?_, fun m hm => (hc m).trans (State.cairn_updCairn_ne _ hm), ?_⟩
    · unfold CairnChecked
      rw [hf]
      rfl
    · rw [hr]
      exact List.length_modify ..
    · rw [hc]
      by_cases hl : n < s.ret.cairns.length
      · rw [State.cairn_updCairn n _ hl]
        simp only [Bool.and_eq_true, decide_eq_true_eq, bne_iff_ne] at h
        exact ⟨by simp [Cairn.valid, h.2], rfl⟩
      · have e : s.updCairn n (fun c => { c with state := 2 }) = s := by
          unfold State.updCairn
          rw [List.modify_eq_self (by omega)]
        rw [e]
        exact ⟨rfl, rfl⟩
  next => exact ⟨rfl, rfl, fun _ _ => rfl, rfl, rfl⟩

/-! ### The retained patch (R250, R327) -/

theorem verifyRetained_off (h : (s.cairn 18).valid = false ∨ (s.cairn 18).record = []) :
    s.verifyRetained.seq = s.seq ∧ s.verifyRetained.svc.patchRunning = false ∧ s.verifyRetained.fltSupv = s.fltSupv := by
  obtain ⟨h1, -, -, h2, h3⟩ := State.checkCairn_spec (s := s) 18
  unfold State.verifyRetained
  generalize s.checkCairn 18 = v at *
  have hc : (!(v.cairn 18).valid || (v.cairn 18).record.isEmpty) = true := by
    rw [h2, h3]
    obtain h | h := h
    · simp [h]
    · simp [h]
  dsimp only
  rw [if_pos hc]
  refine ⟨?_, rfl, ?_⟩
  · show v.seq = s.seq
    rw [h1]
  · show v.fltSupv = s.fltSupv
    rw [h1]

theorem verifyRetained_sound (hv : (s.cairn 18).valid = true) (hr : (s.cairn 18).record ≠ [])
    (hf : patchFault s.otp (s.cairn 18).record (s.cairn 18).record.length = none) :
    s.verifyRetained = { s with svc := { s.svc with patch := (s.cairn 18).record, patchRunning := true, patchLevel := patchLevelOf (s.cairn 18).record,
                                                    patchRam := patchBody (s.cairn 18).record } } := by
  unfold State.verifyRetained
  rw [State.checkCairn_valid hv]
  dsimp only
  rw [if_neg (by simp [hv, hr]), hf]

theorem verifyRetained_unsound (hv : (s.cairn 18).valid = true) (hr : (s.cairn 18).record ≠ []) {m : Nat}
    (hf : patchFault s.otp (s.cairn 18).record (s.cairn 18).record.length = some m) :
    s.verifyRetained.seq = s.seq ∧ s.verifyRetained.svc.patchRunning = false ∧ s.verifyRetained.fltSupv.sticky.getLsbD 3 = true ∧
      s.verifyRetained.attn.pending.getLsbD (eventAttn 0x39) = true := by
  unfold State.verifyRetained
  rw [State.checkCairn_valid hv]
  dsimp only
  rw [if_neg (by simp [hv, hr]), hf]
  dsimp only
  generalize hw : ({ s with svc := { s.svc with patch := [] }.noPatch } : State) = w
  have hseq : (w.raise .supv 3).seq = s.seq := by
    rw [State.raise_seq, ← hw]
  have hsvc : (w.raise .supv 3).svc.patchRunning = false := by
    rw [State.raise_svc, ← hw]
    rfl
  have hst : (w.raise .supv 3).fltSupv.sticky.getLsbD 3 = true := State.raise_sticky w .supv 3 trivial (by decide)
  generalize w.raise .supv 3 = v at *
  exact ⟨hseq, hsvc, hst, State.pushEvent_attn 0x39 0 _ (by decide)⟩

theorem patchVerification_eq (h : s.bringup 3 = true) :
    exec .patchVerification s = .next (s.verifyRetained.reach 4) ∧
      ∀ t : State, t.seq = s.seq → (t.reach 4).seq = { s.seq with milestone := 4 } := by
  obtain ⟨-, -, hm⟩ := State.bringup_iff.mp h
  refine ⟨congrArg Host.Outcome.next (if_pos h), fun t ht => ?_⟩
  show ({ t.seq with milestone := max t.seq.milestone 4 } : Seq) = _
  rw [ht, hm]
  rfl

theorem patchVerification_held (h : s.bringup 3 = true) (hv : (s.cairn 18).valid = true) (hr : (s.cairn 18).record ≠ []) :
    Goes .patchVerification s fun t =>
      t.seq = { s.seq with milestone := 4 } ∧
        (patchFault s.otp (s.cairn 18).record (s.cairn 18).record.length = none →
          t.svc.patch = (s.cairn 18).record ∧ t.svc.patchRunning = true ∧ t.svc.patchLevel = patchLevelOf (s.cairn 18).record ∧
            t.svc.patchRam = patchBody (s.cairn 18).record ∧
            t.fltSupv = s.fltSupv) ∧
        (∀ n, patchFault s.otp (s.cairn 18).record (s.cairn 18).record.length = some n →
          t.svc.patchRunning = false ∧ t.fltSupv.sticky.getLsbD 3 = true ∧ t.attn.pending.getLsbD (eventAttn 0x39) = true) := by
  obtain ⟨he, hm⟩ := patchVerification_eq h
  refine ⟨_, he, ?_⟩
  cases hf : patchFault s.otp (s.cairn 18).record (s.cairn 18).record.length with
  | none =>
    have hx := verifyRetained_sound hv hr hf
    refine ⟨hm _ (by rw [hx]), fun _ => ?_, fun m k => absurd k (by simp)⟩
    rw [hx]
    exact ⟨rfl, rfl, rfl, rfl, rfl⟩
  | some m =>
    obtain ⟨h1, h2, h3, h4⟩ := verifyRetained_unsound hv hr hf
    exact ⟨hm _ h1, fun k => absurd k (by simp), fun _ _ => ⟨h2, h3, h4⟩⟩

theorem patchVerification_none (h : s.bringup 3 = true) (hv : (s.cairn 18).valid = false ∨ (s.cairn 18).record = []) :
    Goes .patchVerification s fun t => t.seq = { s.seq with milestone := 4 } ∧ t.svc.patchRunning = false ∧ t.fltSupv = s.fltSupv := by
  obtain ⟨he, hm⟩ := patchVerification_eq h
  obtain ⟨h1, h2, h3⟩ := verifyRetained_off hv
  exact ⟨_, he, hm _ h1, h2, h3⟩

/-! ### The cairn restore (R250, R252, R424) -/

/-- What a restore leaves: the sequence, the early writes, the ledger, the service and each cairn's record. -/
structure Restored (s t : State) : Prop where
  seq : t.seq = s.seq
  early : t.early = s.early
  ledger : t.ledger = s.ledger
  svc : t.svc = s.svc
  cairn : ∀ m, (t.cairn m).valid = (s.cairn m).valid ∧ (t.cairn m).record = (s.cairn m).record

theorem Restored.refl (s : State) : Restored s s := ⟨rfl, rfl, rfl, rfl, fun _ => ⟨rfl, rfl⟩⟩

theorem Restored.trans (h : Restored s t) (k : Restored t u) : Restored s u :=
  ⟨k.seq.trans h.seq, k.early.trans h.early, k.ledger.trans h.ledger, k.svc.trans h.svc,
    fun m => ⟨(k.cairn m).1.trans (h.cairn m).1, (k.cairn m).2.trans (h.cairn m).2⟩⟩

theorem Restored.ite {q : Prop} [Decidable q] {a b : State} (h : Restored s a) (k : Restored s b) : Restored s (if q then a else b) := by
  split
  · exact h
  · exact k

theorem Restored.overN {f : Nat → State → State} (h : ∀ i t, Restored t (f i t)) (n : Nat) (s : State) : Restored s (overN n f s) := by
  induction n with
  | zero => exact Restored.refl s
  | succ n ih =>
    rw [overN_succ]
    exact ih.trans (h n _)

theorem Restored.checkCairn (n : Nat) : Restored s (s.checkCairn n) := by
  obtain ⟨h, -, h2, h3⟩ := State.checkCairn_spec (s := s) n
  generalize s.checkCairn n = v at *
  refine ⟨?_, ?_, ?_, ?_, fun m => ?_⟩
  · rw [h]
  · rw [h]
  · rw [h]
  · rw [h]
  · by_cases e : m = n
    · subst e
      exact h3
    · rw [h2 m e]
      exact ⟨rfl, rfl⟩

theorem Restored.setFlt (b : Blk) (f : Flt) : Restored s (s.setFlt b f) := by
  cases b <;> exact ⟨rfl, rfl, rfl, rfl, fun _ => ⟨rfl, rfl⟩⟩

theorem Restored.updPhase (k : Nat) (f : Phase → Phase) : Restored s (s.updPhase k f) := ⟨rfl, rfl, rfl, rfl, fun _ => ⟨rfl, rfl⟩⟩

theorem Restored.updRidge (k : Nat) (f : Ridge → Ridge) : Restored s (s.updRidge k f) := ⟨rfl, rfl, rfl, rfl, fun _ => ⟨rfl, rfl⟩⟩

theorem Restored.updPort (k : Nat) (f : Port → Port) : Restored s (s.updPort k f) := ⟨rfl, rfl, rfl, rfl, fun _ => ⟨rfl, rfl⟩⟩

theorem Restored.setItem (id v : Nat) : Restored s (s.setItem id v) := ⟨rfl, rfl, rfl, rfl, fun _ => ⟨rfl, rfl⟩⟩

theorem Restored.write (v : Nat) (f : CField) : Restored s (f.write v s) := by
  cases f with
  | item id => exact Restored.setItem id v
  | pin b => exact Restored.setFlt b _
  | attn b => exact Restored.setFlt b _
  | activeSrc r => exact Restored.updRidge r _
  | activeId r => exact Restored.updRidge r _
  | decodeId r => exact Restored.updRidge r _
  | retired r => exact Restored.overN (fun _ _ => Restored.updPhase _ _) 8 s
  | est k m => exact Restored.updPhase k _
  | runOfs k => exact Restored.updPhase k _
  | lBase k => exact Restored.updPhase k _
  | portEst p m => exact Restored.updPort p _
  | vOfs p => exact Restored.updPort p _
  | iOfs p => exact Restored.updPort p _
  | ridgeEst r m => exact Restored.updRidge r _

theorem Restored.fieldsTake (l : List CField) (bs : List Byte) : Restored s (fieldsTake l bs s) := by
  induction l generalizing bs s with
  | nil => exact Restored.refl s
  | cons f l ih => exact (Restored.write _ f).trans (ih _)

theorem Restored.fieldsDefault (l : List CField) : Restored s (fieldsDefault l s) := by
  induction l generalizing s with
  | nil => exact Restored.refl s
  | cons f l ih => exact (Restored.write _ f).trans ih

theorem Restored.takeFields (n : Nat) (l : List CField) (off : Nat) : Restored s (s.takeFields n l off) := by
  unfold State.takeFields
  extract_lets v c
  have hv : Restored s v := Restored.checkCairn n
  exact hv.trans (Restored.ite (Restored.fieldsTake _ _) (Restored.fieldsDefault _))

theorem Restored.takeRidgeCairn (runs : Bool) (r : Nat) : Restored s (takeRidgeCairn runs r s) := by
  unfold Machine.takeRidgeCairn
  extract_lets q t
  have ht : Restored s t := Restored.takeFields _ _ _
  exact Restored.ite (ht.trans (Restored.updRidge _ _)) ht

theorem Restored.reapply (id v : Nat) : Restored s (s.reapply id v) := by
  unfold State.reapply
  split
  · exact Restored.setFlt _ _
  · exact Restored.setItem _ _

theorem Restored.foldlReapply (l : List (Nat × Nat)) : Restored s (l.foldl (fun t w => t.reapply w.1 w.2) s) := by
  induction l generalizing s with
  | nil => exact Restored.refl s
  | cons w l ih => exact (Restored.reapply _ _).trans ih

/-- R131, R429: the tables of cairns 16 and 17 leave all else of the restore. -/
theorem takeTables_spec :
    (takeTables s).seq = s.seq ∧ (takeTables s).early = s.early ∧ (takeTables s).ledger = s.ledger ∧
      (takeTables s).svc.modeTable = if (s.cairn 16).valid then (s.cairn 16).record else List.replicate 128 0 := by
  have h : Restored s ((s.checkCairn 16).checkCairn 17) := (Restored.checkCairn 16).trans (Restored.checkCairn 17)
  unfold takeTables
  generalize (s.checkCairn 16).checkCairn 17 = v at *
  obtain ⟨h1, h2, h3, -, h5⟩ := h
  obtain ⟨hv, hr⟩ := h5 16
  refine ⟨h1, h2, h3, ?_⟩
  dsimp only
  rw [hv, hr]

theorem restoreCairns_spec (runs : Bool) :
    (restoreCairns runs s).seq = s.seq ∧ (restoreCairns runs s).early = s.early ∧ (restoreCairns runs s).ledger = s.ledger ∧
      (restoreCairns runs s).svc.modeTable = if (s.cairn 16).valid then (s.cairn 16).record else List.replicate 128 0 := by
  unfold restoreCairns
  extract_lets a b c
  have ha : Restored s a := Restored.takeFields _ _ _
  have hb : Restored a b := Restored.overN (fun r _ => Restored.takeRidgeCairn runs r) 6 a
  have hc : Restored b c := Restored.overN (fun _ _ => Restored.takeFields _ _ _) 6 b
  obtain ⟨h1, h2, h3, -, h5⟩ := (ha.trans hb).trans hc
  obtain ⟨hv, hr⟩ := h5 16
  obtain ⟨t1, t2, t3, t4⟩ := takeTables_spec (s := c)
  rw [hv, hr] at t4
  exact ⟨t1.trans h1, t2.trans h2, t3.trans h3, t4⟩

/-- R252: the last of the early writes stands. -/
theorem reapply_last {l : List (Nat × Nat)} {id v : Nat} (hn : pidFlt id = none) :
    mapGet ((l ++ [(id, v)]).foldl (fun t w => State.reapply t w.1 w.2) s).params id = some v ∧
      mapGet ((l ++ [(id, v)]).foldl (fun t w => State.reapply t w.1 w.2) s).inForce id = some v := by
  rw [List.foldl_append]
  generalize l.foldl (fun t w => State.reapply t w.1 w.2) s = w
  have e : [(id, v)].foldl (fun t w => State.reapply t w.1 w.2) w = w.setItem id v := by
    show w.reapply id v = _
    unfold State.reapply
    rw [hn]
  rw [e]
  exact ⟨mapGet_mapSet_same, mapGet_mapSet_same⟩

theorem cairnRestore_goes (h : s.bringup 2 = true) (hb : s.atBoundary = true) :
    Goes .cairnRestore s fun t =>
      t.seq = { s.seq with milestone := 3 } ∧ t.early = [] ∧ t.ledger = s.ledger ∧
        (∀ l id v, s.early = l ++ [(id, v)] → pidFlt id = none → mapGet t.params id = some v ∧ mapGet t.inForce id = some v) ∧
        ((s.cairn 16).valid = true → t.svc.modeTable = (s.cairn 16).record) ∧
        ((s.cairn 16).valid = false → t.svc.modeTable = List.replicate 128 0) := by
  obtain ⟨-, -, hm⟩ := State.bringup_iff.mp h
  refine ⟨_, rfl, ?_⟩
  unfold cairnRestore
  rw [if_pos (by rw [h, hb]; rfl)]
  extract_lets _ a b c d
  obtain ⟨a1, a2, a3, a4⟩ := restoreCairns_spec (s := s) false
  change a.seq = s.seq at a1
  change a.early = s.early at a2
  change a.ledger = s.ledger at a3
  change a.svc.modeTable = _ at a4
  have hac : Restored a c := Restored.trans (Restored.takeFields _ _ _) (Restored.overN (fun _ _ => Restored.takeFields _ _ _) 2 b)
  obtain ⟨c1, c2, c3, c4, -⟩ := hac
  have hce : c.early = s.early := c2.trans a2
  obtain ⟨d1, -, d3, d4, -⟩ := Restored.foldlReapply (s := c) c.early
  change d.seq = c.seq at d1
  change d.ledger = c.ledger at d3
  change d.svc = c.svc at d4
  have hlast : ∀ l id v, s.early = l ++ [(id, v)] → pidFlt id = none → mapGet d.params id = some v ∧ mapGet d.inForce id = some v := fun l id v he hn => by
    have hx := reapply_last (s := c) (l := l) (v := v) hn
    rw [← he, ← hce] at hx
    exact hx
  clear_value d
  have hseq : d.seq = s.seq := d1.trans (c1.trans a1)
  have htab : d.svc.modeTable = _ := (congrArg Service.modeTable (d4.trans c4)).trans a4
  refine ⟨?_, rfl, d3.trans (c3.trans a3), hlast, fun hv => ?_, fun hv => ?_⟩
  · show ({ d.seq with milestone := max d.seq.milestone 3 } : Seq) = _
    rw [hseq, hm]
    rfl
  · exact htab.trans (if_pos hv)
  · exact htab.trans (if_neg (by simp [hv]))

/-! ### The banks of the ridges (R250, R386) -/

/-- What the load of banks may change. -/
structure BanksTaken (s t : State) : Prop where
  frame : t = { s with ridges := t.ridges, ret := t.ret, fltAon := t.fltAon, faultN := t.faultN, attn := t.attn, irq := t.irq }
  ridges : t.ridges.length = s.ridges.length
  cairn : ∀ m, (t.cairn m).valid = (s.cairn m).valid
  sticky : ∀ i, s.fltAon.sticky.getLsbD i = true → t.fltAon.sticky.getLsbD i = true

theorem BanksTaken.refl (s : State) : BanksTaken s s := ⟨rfl, rfl, fun _ => rfl, fun _ h => h⟩

theorem BanksTaken.trans (h : BanksTaken s t) (k : BanksTaken t u) : BanksTaken s u where
  frame := by
    have e := k.frame
    rw [h.frame] at e
    exact e
  ridges := k.ridges.trans h.ridges
  cairn m := (k.cairn m).trans (h.cairn m)
  sticky i hi := k.sticky i (h.sticky i hi)

theorem BanksTaken.raise (i : Nat) : BanksTaken s (s.raise .aon i) where
  frame := by
    have h := raiseAon_frame (s := s) i
    generalize s.raise .aon i = v at *
    rw [h]
  ridges := State.raise_ridges_length ..
  cairn m := by rw [State.cairn, State.raise_ret, State.cairn]
  sticky j hj := State.raise_sticky_mono .aon i j trivial hj

theorem BanksTaken.updCairn (n : Nat) (f : Cairn → Cairn) (h : (f (s.cairn n)).valid = (s.cairn n).valid) : BanksTaken s (s.updCairn n f) where
  frame := rfl
  ridges := rfl
  cairn m := by
    by_cases e : m = n
    · subst e
      by_cases hl : m < s.ret.cairns.length
      · rw [State.cairn_updCairn m f hl, h]
      · have e : s.updCairn m f = s := by
          unfold State.updCairn
          rw [List.modify_eq_self (by omega)]
        rw [e]
    · rw [State.cairn_updCairn_ne f e]
  sticky _ h := h

theorem BanksTaken.checkCairn (n : Nat) : BanksTaken s (s.checkCairn n) := by
  unfold State.checkCairn
  dsimp only
  split
  next h =>
    simp only [Bool.and_eq_true, decide_eq_true_eq, bne_iff_ne] at h
    refine BanksTaken.trans (BanksTaken.updCairn n _ ?_) (BanksTaken.raise 1)
    simp [Cairn.valid, h.2]
  next => exact BanksTaken.refl s

theorem checkCairn_ridges (n : Nat) : (s.checkCairn n).ridges = s.ridges := by
  obtain ⟨h, -⟩ := State.checkCairn_spec (s := s) n
  rw [h]

/-- R386: a ridge whose cairn does not hold runs on law 1. -/
theorem retainedBank_none (h : (s.cairn (4 + r)).valid = false) : retainedBank s r = { bad := true } := by
  unfold retainedBank ridgeCairn
  dsimp only
  rw [h]
  rfl

/-- R250, R386: the bank load of one ridge. -/
theorem State.loadBank_spec (hr : r < s.ridges.length) :
    BanksTaken s (s.loadBank r) ∧ (∀ x, x ≠ r → (s.loadBank r).ridge x = s.ridge x) ∧ ((s.loadBank r).ridge r).started = true ∧
      ((s.cairn (4 + r)).valid = false → ((s.loadBank r).ridge r).bank = lawBank 1 ∧ ((s.loadBank r).ridge r).activeSrc = 1 ∧
        (s.loadBank r).fltAon.sticky.getLsbD 3 = true) := by
  unfold State.loadBank
  extract_lets a l b c
  have ha : BanksTaken s a := BanksTaken.checkCairn _
  have har : a.ridges = s.ridges := checkCairn_ridges _
  have hl : (s.cairn (4 + r)).valid = false → l = { bad := true } := fun h => retainedBank_none ((ha.cairn _).trans h)
  have hb : BanksTaken a b := ⟨rfl, State.updRidge_length .., fun _ => rfl, fun _ h => h⟩
  have hbr : b.ridge r = Ridge.start l.bank l.src l.id a.frameCount (s.ridge r) := by
    rw [show b.ridge r = _ from State.ridge_updRidge a r _ (by rw [har]; exact hr), State.ridge, har, State.ridge]
  have hbx : ∀ x, x ≠ r → b.ridge x = s.ridge x := fun x hx => by
    rw [show b.ridge x = _ from State.ridge_updRidge_ne _ _ _ _ hx, State.ridge, har, State.ridge]
  clear_value l
  have hc : BanksTaken b c := BanksTaken.raise 3
  have hcr : c.ridges = b.ridges := by
    have h := raiseAon_frame (s := b) 3
    change c = _ at h
    rw [h]
  have hcs : c.fltAon.sticky.getLsbD 3 = true := State.raise_sticky b .aon 3 trivial (by decide)
  have hcx : ∀ x, c.ridge x = b.ridge x := fun x => by rw [State.ridge, State.ridge, hcr]
  have hd : BanksTaken c (c.markDirty (ridgeCairn r)) := BanksTaken.updCairn _ _ rfl
  clear_value c
  have hbank : (s.cairn (4 + r)).valid = false → (b.ridge r).bank = lawBank 1 ∧ (b.ridge r).activeSrc = 1 := fun h => by
    rw [hbr, hl h]
    exact ⟨rfl, rfl⟩
  have hstart : (b.ridge r).started = true := by
    rw [hbr]
    rfl
  clear_value b
  split
  next hbad =>
    have hfin : BanksTaken s c ∧ (∀ x, x ≠ r → c.ridge x = s.ridge x) ∧ (c.ridge r).started = true ∧
        ((s.cairn (4 + r)).valid = false → (c.ridge r).bank = lawBank 1 ∧ (c.ridge r).activeSrc = 1 ∧ c.fltAon.sticky.getLsbD 3 = true) := by
      refine ⟨(ha.trans hb).trans hc, fun x hx => (hcx x).trans (hbx x hx), ?_, fun h => ?_⟩
      · rw [hcx]
        exact hstart
      · rw [hcx]
        exact ⟨(hbank h).1, (hbank h).2, hcs⟩
    split
    · exact ⟨hfin.1.trans hd, hfin.2⟩
    · exact hfin
  next hbad => exact ⟨ha.trans hb, hbx, hstart, fun h => absurd (by rw [hl h] : l.bad = true) hbad⟩

/-- R250: a ridge that waits for its bank. -/
def Ridge.awaitsBank (q : Ridge) : Bool := q.run != .depopulated && (!q.started || q.bank.base == 2)

/-- R250: the bank load of the first n ridges. -/
theorem overN_loadBank (n : Nat) (s : State) (hn : n ≤ s.ridges.length) :
    BanksTaken s (overN n (fun r t => if (t.ridge r).awaitsBank then t.loadBank r else t) s) ∧
      (∀ r, n ≤ r → (overN n (fun r t => if (t.ridge r).awaitsBank then t.loadBank r else t) s).ridge r = s.ridge r) ∧
      ∀ r, r < n →
        ((s.ridge r).awaitsBank = false → (overN n (fun r t => if (t.ridge r).awaitsBank then t.loadBank r else t) s).ridge r = s.ridge r) ∧
        ((s.ridge r).awaitsBank = true →
          ((overN n (fun r t => if (t.ridge r).awaitsBank then t.loadBank r else t) s).ridge r).started = true ∧
            ((s.cairn (4 + r)).valid = false →
              ((overN n (fun r t => if (t.ridge r).awaitsBank then t.loadBank r else t) s).ridge r).bank = lawBank 1 ∧
                ((overN n (fun r t => if (t.ridge r).awaitsBank then t.loadBank r else t) s).ridge r).activeSrc = 1 ∧
                (overN n (fun r t => if (t.ridge r).awaitsBank then t.loadBank r else t) s).fltAon.sticky.getLsbD 3 = true)) := by
  induction n with
  | zero => exact ⟨BanksTaken.refl s, fun _ _ => rfl, fun r hr => absurd hr (by omega)⟩
  | succ n ih =>
    obtain ⟨h1, h2, h3⟩ := ih (by omega)
    rw [overN_succ]
    generalize overN n (fun r t => if (t.ridge r).awaitsBank then t.loadBank r else t) s = v at *
    have hv := h2 n le_rfl
    by_cases hw : (s.ridge n).awaitsBank = true
    · rw [if_pos (by rw [hv]; exact hw)]
      obtain ⟨k1, k2, k3, k4⟩ := State.loadBank_spec (s := v) (r := n) (by rw [h1.ridges]; omega)
      generalize v.loadBank n = w at *
      refine ⟨h1.trans k1, fun r hr => (k2 r (by omega)).trans (h2 r (by omega)), fun r hr => ?_⟩
      by_cases e : r = n
      · subst e
        exact ⟨fun k => absurd (hw.symm.trans k) (by decide), fun _ => ⟨k3, fun hc => k4 ((h1.cairn _).trans hc)⟩⟩
      · obtain ⟨a1, a2⟩ := h3 r (by omega)
        rw [k2 r e]
        refine ⟨a1, fun ha => ⟨(a2 ha).1, fun hc => ?_⟩⟩
        obtain ⟨b1, b2, b3⟩ := (a2 ha).2 hc
        exact ⟨b1, b2, k1.sticky 3 b3⟩
    · have hw' : (s.ridge n).awaitsBank = false := by simpa using hw
      rw [if_neg (by rw [hv]; exact hw)]
      refine ⟨h1, fun r hr => h2 r (by omega), fun r hr => ?_⟩
      by_cases e : r = n
      · subst e
        exact ⟨fun _ => hv, fun k => absurd k hw⟩
      · exact h3 r (by omega)

theorem loadBanks_eq (s : State) : loadBanks s = overN 6 (fun r t => if (t.ridge r).awaitsBank then t.loadBank r else t) s := by
  unfold loadBanks Ridge.awaitsBank
  rfl

theorem loadBanks_spec (hs : s.Shaped) :
    BanksTaken s (loadBanks s) ∧ ∀ r, r < 6 →
      ((s.ridge r).awaitsBank = false → (loadBanks s).ridge r = s.ridge r) ∧
      ((s.ridge r).awaitsBank = true → ((loadBanks s).ridge r).started = true ∧
        ((s.cairn (4 + r)).valid = false → ((loadBanks s).ridge r).bank = lawBank 1 ∧ ((loadBanks s).ridge r).activeSrc = 1 ∧
          (loadBanks s).fltAon.sticky.getLsbD 3 = true)) := by
  obtain ⟨-, -, hl, -⟩ := hs
  obtain ⟨h1, -, h3⟩ := overN_loadBank 6 s (by omega)
  rw [loadBanks_eq]
  exact ⟨h1, h3⟩

theorem ridgeBankLoad_goes (hs : s.Shaped) (h : s.bringup 4 = true) (hb : s.atBoundary = true) :
    Goes .ridgeBankLoad s fun t =>
      t.seq = { s.seq with milestone := 5 } ∧ t.ledger = s.ledger ∧
        ∀ r, r < 6 →
          ((s.ridge r).run = .depopulated → t.ridge r = s.ridge r) ∧
          ((s.ridge r).started = true → (s.ridge r).bank.base ≠ 2 → t.ridge r = s.ridge r) ∧
          ((s.ridge r).run ≠ .depopulated → ((s.ridge r).started = false ∨ (s.ridge r).bank.base = 2) →
            (t.ridge r).started = true ∧
              ((s.cairn (4 + r)).valid = false →
                (t.ridge r).bank = lawBank 1 ∧ (t.ridge r).activeSrc = 1 ∧ t.fltAon.sticky.getLsbD 3 = true)) := by
  obtain ⟨-, -, hm⟩ := State.bringup_iff.mp h
  refine ⟨_, congrArg Host.Outcome.next (if_pos (by rw [h, hb]; rfl)), ?_⟩
  obtain ⟨k, hk⟩ := loadBanks_spec hs
  generalize loadBanks s = v at *
  have hseq : v.seq = s.seq := by rw [k.frame]
  refine ⟨?_, ?_, fun r hr => ⟨fun hd => ?_, fun h1 h2 => ?_, fun h1 h2 => ?_⟩⟩
  · show ({ v.seq with milestone := max v.seq.milestone 5 } : Seq) = _
    rw [hseq, hm]
    rfl
  · show v.ledger = s.ledger
    rw [k.frame]
  · exact (hk r hr).1 (by simp [Ridge.awaitsBank, hd])
  · exact (hk r hr).1 (by simp [Ridge.awaitsBank, h1, h2])
  · refine (hk r hr).2 ?_
    obtain h2 | h2 := h2
    · simp [Ridge.awaitsBank, h1, h2]
    · simp [Ridge.awaitsBank, h1, h2]

/-! ### Full service (R57, R82, R250) -/

/-- A port as full service finds it, with its ATTACH_MODE. -/
def State.inMode (s : State) (p : Nat) : State := s.updCc p fun c => { c with mode := portParam s p 0x20 }

theorem State.inMode_cc (hl : p < s.ports.length) : (s.inMode p).cc p = { s.cc p with mode := portParam s p 0x20 } :=
  s.cc_updCc p (fun c => { c with mode := portParam s p 0x20 }) hl

theorem fullPort_disabled (hin : (s.port p).inService = true) (hd : ((s.inMode p).cc p).st = .disabled)
    (hb : ((s.inMode p).cc p).disabledBy = .bringup) : fullPort p s = (s.inMode p).home p := by
  unfold fullPort
  extract_lets m v
  have hv : v = s.inMode p := rfl
  clear_value v
  subst hv
  rw [if_neg (by simp [hin]), if_neg (by simp [hd]), hd]
  dsimp only
  rw [if_pos (by rw [hb]; rfl)]

theorem fullPort_source (hin : (s.port p).inService = true) (hd : ((s.inMode p).cc p).st = .attachedSrc) :
    fullPort p s = if portParam s p 0x20 = 2 then (s.inMode p).disablePort p 0xC .host else startPd (s.inMode p) p := by
  unfold fullPort
  extract_lets m v
  have hv : v = s.inMode p := rfl
  clear_value v
  subst hv
  rw [if_neg (by simp [hin])]
  by_cases h2 : m = 2
  · rw [if_pos (by simp [hd, h2]), if_pos h2]
  · rw [if_neg (by simp [h2]), if_neg h2, hd]

/-- R57, R58, R82: what full service makes of one port, once it has begun. -/
theorem fullPort_spec (hl : p < s.ports.length) (hin : (s.port p).inService = true) (hm : s.seq.mode = .running) (hr : s.seq.reduced = false)
    (hf : s.seq.full = true) :
    ((s.cc p).st = .disabled → (s.cc p).disabledBy = .bringup → ((fullPort p s).cc p).st =
      (if (s.cc p).toOutOfService then .outOfService else if portParam s p 0x20 = 2 then .disabled else .unattachedSrc)) ∧
    ((s.cc p).st = .attachedSrc → portParam s p 0x20 ≠ 2 →
      ((fullPort p s).cc p).st = .attachedSrc ∧ ((fullPort p s).pd p).started = true ∧ ((fullPort p s).pd p).startDue = some s.frame) ∧
    ((s.cc p).st = .attachedSrc → portParam s p 0x20 = 2 →
      ((fullPort p s).cc p).st = .disabled ∧ ((fullPort p s).pd p).lastEnd = 0xC ∧ ((fullPort p s).path p).swOn = false) := by
  have hc := State.inMode_cc (s := s) hl
  have hlen : p < (s.inMode p).ports.length := by
    unfold State.inMode
    rwa [State.updCc_ports_length]
  have hst : ((s.inMode p).cc p).st = (s.cc p).st := by rw [hc]
  have hby : ((s.inMode p).cc p).disabledBy = (s.cc p).disabledBy := by rw [hc]
  have hout : ((s.inMode p).cc p).toOutOfService = (s.cc p).toOutOfService := by rw [hc]
  have hmode : ((s.inMode p).cc p).mode = portParam s p 0x20 := by rw [hc]
  have hseq : (s.inMode p).seq = s.seq := rfl
  have hframe : (s.inMode p).frame = s.frame := rfl
  refine ⟨fun hd hb => ?_, fun hd h2 => ?_, fun hd h2 => ?_⟩
  · rw [fullPort_disabled hin (hst.trans hd) (hby.trans hb)]
    generalize s.inMode p = v at *
    obtain ⟨h, -⟩ := State.home_cc (s := v) hlen
    rw [h, hmode]
    unfold homeOf State.preService
    rw [hout, hseq, hm, hr, hf]
    simp
  · rw [fullPort_source hin (hst.trans hd), if_neg h2]
    generalize s.inMode p = v at *
    obtain ⟨h, -⟩ := startPd_port (s := v) hlen
    refine ⟨?_, ?_, ?_⟩
    · exact (congrArg CcLayer.st h).trans (hst.trans hd)
    · unfold startPd State.pd
      simp [State.pd_updPd, hlen]
    · unfold startPd State.pd
      simp [State.pd_updPd, hlen, hframe]
  · rw [fullPort_source hin (hst.trans hd), if_pos h2]
    obtain ⟨h1, -, h3, -, -, -, h7⟩ := State.disablePort_spec (s := s.inMode p) (p := p) (h := hlen) 0xC .host
    exact ⟨h1, h7, h3⟩

/-- The sweep of full service. -/
theorem fullService_goes (hs : s.Shaped) (hm : s.seq.mode = .running) (ht : t = fullService s) :
    t.seq = { s.seq with full := true, reduced := false } ∧ FullService s t ∧ t.inn = s.inn := by
  obtain ⟨hports, -⟩ := hs
  obtain ⟨⟨h1, h2⟩, -, h4⟩ := overN_onlyPort (f := fullPort) (fun p t => OnlyPort.fullPort (.refl p t)) 24 (s.updSeq fun q => { q with full := true, reduced := false })
  change fullService s = _ at h1
  rw [← ht] at h1
  refine ⟨?_, fun p hp hin => ?_, ?_⟩
  · rw [h1]
    rfl
  · obtain ⟨u, ⟨u1, u2⟩, u3, u4⟩ := h4 p hp
    have hu : u.port p = s.port p := u3
    have hlen : p < u.ports.length := by
      rw [u2]
      show p < s.ports.length
      omega
    have hpar : portParam u p 0x20 = portParam s p 0x20 := by
      rw [u1]
      rfl
    have hfr : u.frame = s.frame := by
      rw [u1]
      rfl
    have hseq : u.seq = { s.seq with full := true, reduced := false } := by
      rw [u1]
      rfl
    obtain ⟨a1, a2, a3⟩ := fullPort_spec (s := u) hlen (by rw [hu]; exact hin) (by rw [hseq]; exact hm) (by rw [hseq]) (by rw [hseq])
    have htp : t.port p = (fullPort p u).port p := by
      rw [ht]
      exact u4
    unfold State.cc State.pd State.path at *
    rw [hu, hpar] at a1 a2 a3
    rw [hfr] at a2
    rw [htp]
    exact ⟨a1, a2, a3⟩
  · rw [h1]
    rfl

/-! ### The end of bring-up (R250, R253) -/

/-- What full service asks of a port is the same in both states. -/
theorem FullService.congr (h : FullService u t) (hf : u.frame = s.frame) (hin : ∀ p, (u.port p).inService = (s.port p).inService)
    (hst : ∀ p, (u.cc p).st = (s.cc p).st) (hby : ∀ p, (u.cc p).disabledBy = (s.cc p).disabledBy)
    (hout : ∀ p, (u.cc p).toOutOfService = (s.cc p).toOutOfService) (hpar : ∀ p, portParam u p 0x20 = portParam s p 0x20) : FullService s t := by
  intro p hp hi
  have k := h p hp ((hin p).trans hi)
  rw [hst, hby, hout, hpar, hf] at k
  exact k

/-- The state as the Innkeeper starts and each port has its toggle seed (R64, R250). -/
def State.atEnd (s : State) : State :=
  let a := (loadBanks s).reach 6
  let b := { a with inn := { a.inn with started := true } }.updSeq fun q => { q with endFrame := a.frame }
  overN 24 (fun p t => t.updCc p fun c => { c with lfsr := toggleSeed t p }) b

theorem State.atEnd_spec (hs : s.Shaped) (hm : s.seq.milestone = 5) :
    s.atEnd.seq = { s.seq with milestone := 6, endFrame := s.frame } ∧ s.atEnd.inn.started = true ∧ s.atEnd.frame = s.frame ∧
      s.atEnd.ports.length = 24 ∧ (∀ p, portParam s.atEnd p 0x20 = portParam s p 0x20) ∧
      ∀ p, (s.atEnd.port p).inService = (s.port p).inService ∧ (s.atEnd.cc p).st = (s.cc p).st ∧ (s.atEnd.cc p).disabledBy = (s.cc p).disabledBy ∧
        (s.atEnd.cc p).toOutOfService = (s.cc p).toOutOfService ∧ s.atEnd.pd p = s.pd p := by
  obtain ⟨k, -⟩ := loadBanks_spec hs
  obtain ⟨hports, -⟩ := hs
  unfold State.atEnd
  generalize loadBanks s = v at *
  extract_lets a _ b _
  have hvs : v.seq = s.seq := by rw [k.frame]
  have hvf : v.frame = s.frame := by rw [k.frame]
  have hvp : v.ports = s.ports := by rw [k.frame]
  have hvi : ∀ p, portParam v p 0x20 = portParam s p 0x20 := fun p => by
    rw [k.frame]
    rfl
  have hbs : b.seq = { v.seq with milestone := max v.seq.milestone 6, endFrame := v.frame } := rfl
  have hbi : b.inn.started = true := rfl
  have hbf : b.frame = v.frame := rfl
  have hbp : b.ports = v.ports := rfl
  have hbq : ∀ p, portParam b p 0x20 = portParam v p 0x20 := fun _ => rfl
  clear_value b
  have hmax : max v.seq.milestone 6 = 6 := by rw [hvs, hm]; rfl
  rw [hmax, hvs, hvf] at hbs
  obtain ⟨h1, h2, h3, h4⟩ := overN_portAlone (f := fun p t => t.updCc p fun c => { c with lfsr := toggleSeed t p }) (fun p t => (PortAlone.refl p t).updCc _) 24 b
  generalize overN 24 (fun p t => t.updCc p fun c => { c with lfsr := toggleSeed t p }) b = w at *
  have hsame : ∀ p, b.port p = s.port p := fun p => by rw [State.port, State.port, hbp, hvp]
  refine ⟨?_, ?_, ?_, ?_, fun p => ?_, fun p => ?_⟩
  · rw [h1]
    exact hbs
  · rw [h1]
    exact hbi
  · rw [h1]
    exact hbf.trans hvf
  · rw [h2, hbp, hvp]
    exact hports
  · rw [h1]
    exact (hbq p).trans (hvi p)
  · by_cases hp : p < 24
    · obtain ⟨x, -, x2, x3, x4⟩ := h4 p hp
      have hl : p < x.ports.length := by rw [x2, hbp, hvp]; omega
      have hc : (w.port p).cc = { (s.port p).cc with lfsr := toggleSeed x p } := by
        rw [x4]
        refine (x.cc_updCc p _ hl).trans ?_
        rw [x3, hsame]
      unfold State.cc State.pd
      rw [hc]
      refine ⟨?_, rfl, rfl, rfl, ?_⟩
      · rw [x4, State.updCc_port_inService, x3, hsame]
      · rw [x4, State.updCc_port_pd, x3, hsame]
    · have e : w.port p = s.port p := (h3 p (by omega)).trans (hsame p)
      unfold State.cc State.pd
      rw [e]
      exact ⟨rfl, rfl, rfl, rfl, rfl⟩

theorem endOfBringup_five (h : s.bringup 5 = true) :
    endOfBringup s = (if s.atEnd.seq.reduced then fullService s.atEnd else overN 24 takenOverPd s.atEnd).pushEvent 0x38 0 [5] := by
  unfold endOfBringup
  rw [if_pos h]
  rfl

theorem endOfBringup_six (h : s.bringup 6 = true) (h7 : s.seq.step7 = true) (hf : s.seq.full = false) (h1 : s.seq.stepFrame < s.frame)
    (h2 : s.seq.endFrame < s.frame) : endOfBringup s = fullService (loadBanks s) := by
  obtain ⟨-, -, hm⟩ := State.bringup_iff.mp h
  unfold endOfBringup
  rw [if_neg (by simp [State.bringup, hm]), if_pos (by simp [lateService, h, h7, hf, h1, h2])]

theorem endOfBringup_late (hs : s.Shaped) (h : s.bringup 6 = true) (h7 : s.seq.step7 = true) (hf : s.seq.full = false) (h1 : s.seq.stepFrame < s.frame)
    (h2 : s.seq.endFrame < s.frame) :
    Goes .endOfBringup s fun t => t.seq = { s.seq with full := true, reduced := false } ∧ FullService s t := by
  refine ⟨_, congrArg Host.Outcome.next (endOfBringup_six h h7 hf h1 h2), ?_⟩
  obtain ⟨hm, -⟩ := State.bringup_iff.mp h
  have hv : (loadBanks s).Shaped := (Keeps.loadBanks (.refl s)).1 hs
  obtain ⟨k, -⟩ := loadBanks_spec hs
  generalize loadBanks s = v at *
  have hvs : v.seq = s.seq := by rw [k.frame]
  obtain ⟨f1, f2, -⟩ := fullService_goes hv (by rw [hvs]; exact hm) rfl
  rw [hvs] at f1
  have hp : ∀ p, v.port p = s.port p := fun p => by
    rw [k.frame]
    rfl
  refine ⟨f1, FullService.congr f2 ?_ (fun p => congrArg _ (hp p)) (fun p => congrArg (fun q : Port => q.cc.st) (hp p))
    (fun p => congrArg (fun q : Port => q.cc.disabledBy) (hp p)) (fun p => congrArg (fun q : Port => q.cc.toOutOfService) (hp p)) fun p => ?_⟩
  · rw [k.frame]
  · rw [k.frame]
    rfl

theorem State.atEnd_shaped (hs : s.Shaped) : s.atEnd.Shaped := by
  unfold State.atEnd
  extract_lets a _ b
  have ka : Keeps s a := (Keeps.loadBanks (.refl s)).reach
  clear_value a
  have kb : Keeps s b := Keeps.updSeq (ka.set rfl)
  exact (kb.overN fun _ _ k => k.updCc _ _).1 hs

/-- R251: a port that a wake has taken over starts PD, and no other. -/
theorem takenOverPd_spec (hl : p < s.ports.length) :
    ((takenOverPd p s).cc p).st = (s.cc p).st ∧
      ((s.port p).inService = true → (s.cc p).st = .attachedSnk → ((takenOverPd p s).pd p).started = true ∧ ((takenOverPd p s).pd p).startDue = some s.frame) ∧
      ((s.cc p).st ≠ .attachedSnk → (takenOverPd p s).pd p = s.pd p) := by
  unfold takenOverPd
  by_cases h : ((s.port p).inService && (s.cc p).st == .attachedSnk) = true
  · rw [if_pos h]
    simp only [Bool.and_eq_true, beq_iff_eq] at h
    obtain ⟨hc, -⟩ := startPd_port (s := s) hl
    refine ⟨congrArg CcLayer.st hc, fun _ _ => ?_, fun k => absurd h.2 k⟩
    unfold startPd State.pd
    simp [State.pd_updPd, hl]
  · rw [if_neg h]
    simp only [Bool.and_eq_true, beq_iff_eq, not_and] at h
    exact ⟨rfl, fun h1 h2 => absurd h2 (h h1), fun _ => rfl⟩

theorem endOfBringup_goes (hs : s.Shaped) (h : s.bringup 5 = true) :
    Goes .endOfBringup s fun t =>
      t.seq = { s.seq with milestone := 6, endFrame := s.frame, full := s.seq.full || s.seq.reduced, reduced := false } ∧ t.inn.started = true ∧
        t.attn.pending.getLsbD (eventAttn 0x38) = true ∧
        (s.seq.reduced = true → FullService s t) ∧
        (s.seq.reduced = false → ∀ p, p < 24 → (t.cc p).st = (s.cc p).st ∧
          ((s.port p).inService = true → (s.cc p).st = .attachedSnk → (t.pd p).started = true ∧ (t.pd p).startDue = some s.frame) ∧
          ((s.cc p).st ≠ .attachedSnk → t.pd p = s.pd p)) := by
  obtain ⟨hm, -, h5⟩ := State.bringup_iff.mp h
  refine ⟨_, congrArg Host.Outcome.next (endOfBringup_five h), ?_⟩
  obtain ⟨a1, a2, a3, a4, a5, a6⟩ := State.atEnd_spec hs h5
  have hsh := State.atEnd_shaped hs
  generalize s.atEnd = v at *
  have hred : v.seq.reduced = s.seq.reduced := by rw [a1]
  have hpush : ∀ w : State, (w.pushEvent 0x38 0 [5]).attn.pending.getLsbD (eventAttn 0x38) = true := fun w => State.pushEvent_attn 0x38 0 _ (by decide)
  cases hr : s.seq.reduced with
  | true =>
    rw [if_pos (hred.trans hr)]
    obtain ⟨f1, f2, f3⟩ := fullService_goes (t := fullService v) hsh (by rw [a1]; exact hm) rfl
    generalize fullService v = w at *
    have hx : FullService s (w.pushEvent 0x38 0 [5]) := FullService.congr (u := v) f2 a3 (fun p => (a6 p).1) (fun p => (a6 p).2.1) (fun p => (a6 p).2.2.1)
      (fun p => (a6 p).2.2.2.1) a5
    refine ⟨?_, (congrArg Innkeeper.started f3).trans a2, hpush w, fun _ => hx, fun k => absurd k (by decide)⟩
    show w.seq = _
    rw [f1, a1, Bool.or_true]
  | false =>
    rw [if_neg (by rw [hred, hr]; decide)]
    obtain ⟨⟨w1, w2⟩, -, w4⟩ := overN_onlyPort (f := takenOverPd) (fun p t => OnlyPort.takenOverPd (.refl p t)) 24 v
    generalize overN 24 takenOverPd v = w at *
    refine ⟨?_, ?_, hpush w, fun k => absurd k (by decide), fun _ p hp => ?_⟩
    · show w.seq = _
      have hw : w.seq = v.seq := by rw [w1]
      rw [hw, a1]
      dsimp only
      simp only [hr, Bool.or_false]
    · show w.inn.started = true
      rw [w1]
      exact a2
    · obtain ⟨x, ⟨x1, x2⟩, x3, x4⟩ := w4 p hp
      obtain ⟨b1, b2, b3⟩ := takenOverPd_spec (s := x) (p := p) (by rw [x2, a4]; exact hp)
      have hf : x.frame = s.frame := by
        rw [x1]
        exact a3
      obtain ⟨c1, c2, -, -, c5⟩ := a6 p
      unfold State.cc State.pd at *
      rw [x3, ← x4] at b1 b2 b3
      rw [c1, c2, hf] at b2
      rw [c2] at b1 b3
      rw [c5] at b3
      exact ⟨b1, b2, b3⟩

/-! ### The command interpreter (R250, R263) -/

theorem State.interrupt_attn_note (x : IrqSource) : (s.interrupt x).attn = s.attn := by
  obtain ⟨q, e⟩ := State.interrupt_shape (s := s) x
  rw [e]

theorem State.pinOccur_attn_note : s.pinOccur.attn = s.attn := by
  unfold State.pinOccur
  split
  · rfl
  · split
    · rfl
    · rfl

/-- A noted change of an always-on record stays noted. -/
theorem State.raise_attn_note (b : Blk) (i : Nat) (h : s.attn.note = true) : (s.raise b i).attn.note = true := by
  unfold State.raise
  extract_lets f a c d e
  have ha : a.attn = s.attn := State.setFlt_attn_eq b _
  have hc : c.attn = s.attn := by
    dsimp only [c]
    split
    · exact (State.interrupt_attn_note _).trans ha
    · exact ha
  have hd : d.attn = s.attn := by
    dsimp only [d]
    split
    · exact State.pinOccur_attn_note.trans hc
    · exact hc
  clear_value d
  split
  · exact h
  · split
    · show (d.attn.note || b.alwaysOn) = true
      rw [hd, h]
      rfl
    · rw [hd]
      exact h

theorem fieldsTake_attn (ids : List Nat) (bs : List Byte) (s : State) : (fieldsTake (ids.map .item) bs s).attn = s.attn := by
  induction ids generalizing bs s with
  | nil => rfl
  | cons i l ih => exact ih _ _

theorem fieldsDefault_attn (ids : List Nat) (s : State) : (fieldsDefault (ids.map .item) s).attn = s.attn := by
  induction ids generalizing s with
  | nil => rfl
  | cons i l ih => exact ih _

theorem takeItems_note (n off scope i a m : Nat) (h : s.attn.note = true) : (s.takeFields n (itemsFrom scope i a m) off).attn.note = true := by
  have hl : itemsFrom scope i a m = ((List.range m).map fun j => pid scope i (a + j)).map .item := by simp [itemsFrom, Function.comp_def]
  have hc : (s.checkCairn n).attn.note = true := by
    unfold State.checkCairn
    dsimp only
    split
    · exact State.raise_attn_note _ _ h
    · exact h
  unfold State.takeFields
  dsimp only
  rw [hl]
  split
  · rw [fieldsTake_attn]
    exact hc
  · rw [fieldsDefault_attn]
    exact hc

theorem setAttn_fault (s : State) : (s.setAttn 15).attn.pending.getLsbD 15 = true := by
  show (s.attn.pending ||| BitVec.ofNat 16 (2 ^ 15)).getLsbD 15 = true
  rw [BitVec.getLsbD_or, show (BitVec.ofNat 16 (2 ^ 15)).getLsbD 15 = true from by decide, Bool.or_true]

theorem attnFrame_spec : (attnFrame s).seq = s.seq ∧ (attnFrame s).attn.note = s.attn.note ∧ (attnFrame s).attn.pending = s.attn.pending := by
  unfold attnFrame
  split
  · exact ⟨rfl, rfl, rfl⟩
  · exact ⟨rfl, rfl, rfl⟩

theorem commandInterpreterStart_goes (hm : s.seq.mode = .running) (hl : s.locked = true) (hi : s.seq.interpreter = false)
    (hf : s.seq.sFrame + 60 ≤ s.frame) :
    Goes .commandInterpreterStart s fun t =>
      t.seq = { s.seq with interpreter := true } ∧ t.attn.note = false ∧ (s.attn.note = true → t.attn.pending.getLsbD 15 = true) := by
  have hif : exec .commandInterpreterStart s = .next (commandInterpreterStart s) := rfl
  refine ⟨_, hif, ?_⟩
  unfold commandInterpreterStart
  rw [if_pos (by simp [hm, hl, hi, State.framesSince, hf])]
  have hit : ItemsTaken s (s.takeFields 1 (itemsFrom 0 0 0x3C 3) 0) := ItemsTaken.takeItems 1 0 0 0 0x3C 3
  have hn := fun h => takeItems_note (s := s) 1 0 0 0 0x3C 3 h
  generalize s.takeFields 1 (itemsFrom 0 0 0x3C 3) 0 = v at *
  have hvs : v.seq = s.seq := by rw [hit]
  dsimp only
  generalize hw : (v.updSeq fun q => { q with interpreter := true }) = w
  have hws : w.seq = { s.seq with interpreter := true } := by
    rw [← hw, ← hvs]
    rfl
  have hwa : w.attn = v.attn := by
    rw [← hw]
    rfl
  by_cases h : w.attn.note = true
  · rw [if_pos h]
    obtain ⟨a1, a2, a3⟩ := attnFrame_spec (s := ({ w with attn := { w.attn with note := false } } : State).setAttn 15)
    refine ⟨a1.trans hws, a2.trans rfl, fun _ => ?_⟩
    rw [a3]
    exact setAttn_fault _
  · rw [if_neg h]
    obtain ⟨a1, a2, -⟩ := attnFrame_spec (s := w)
    exact ⟨a1.trans hws, a2.trans (by simpa using h), fun k => absurd (by rw [hwa]; exact hn k) h⟩

/-! ### Reduced service (R251, R253) -/

/-- R251, R253: the reduced-service law in each running ridge. -/
def startLaw (r : Nat) (t : State) : State :=
  if (t.ridge r).run == .running then t.updRidge r (Ridge.start (lawBank 2) 2 (lawId 2) t.frameCount) else t

/-- R251: the laws of the first n ridges. -/
theorem startLaws_spec (n : Nat) (s : State) (hn : n ≤ s.ridges.length) :
    overN n startLaw s = { s with ridges := (overN n startLaw s).ridges } ∧ (overN n startLaw s).ridges.length = s.ridges.length ∧
      (∀ r, ((overN n startLaw s).ridge r).run = (s.ridge r).run) ∧
      ∀ r, r < n → (s.ridge r).run = .running →
        ((overN n startLaw s).ridge r).bank.base = 2 ∧ ((overN n startLaw s).ridge r).activeSrc = 2 ∧ ((overN n startLaw s).ridge r).started = true := by
  induction n with
  | zero => exact ⟨rfl, rfl, fun _ => rfl, fun r hr => absurd hr (by omega)⟩
  | succ n ih =>
    obtain ⟨h1, h2, h3, h4⟩ := ih (by omega)
    rw [overN_succ]
    generalize overN n startLaw s = v at *
    unfold startLaw
    by_cases hr : (v.ridge n).run = .running
    · rw [if_pos (by rw [hr]; rfl)]
      have hself := State.ridge_updRidge v n (Ridge.start (lawBank 2) 2 (lawId 2) v.frameCount) (by omega)
      refine ⟨?_, (State.updRidge_length ..).trans h2, fun r => ?_, fun r hl hs => ?_⟩
      · rw [h1]
        rfl
      · refine Eq.trans ?_ (h3 r)
        refine State.ridge_updRidge_part Ridge.run n _ ?_ r
        exact fun _ => rfl
      · by_cases e : r = n
        · subst e
          rw [hself]
          exact ⟨rfl, rfl, rfl⟩
        · rw [State.ridge_updRidge_ne _ _ _ _ e]
          exact h4 r (by omega) hs
    · rw [if_neg (by simpa using hr)]
      refine ⟨h1, h2, h3, fun r hl hs => ?_⟩
      by_cases e : r = n
      · subst e
        exact absurd ((h3 r).trans hs) hr
      · exact h4 r (by omega) hs

/-- What decides where a port goes home to. -/
def CcLayer.atHome (c : CcLayer) := (c.st, c.disabledBy, c.toOutOfService)

/-- What a placement keeps of a port. -/
def Port.atHome (q : Port) := (q.inService, q.cc.atHome)

theorem updPort_atHome (n p : Nat) (f : Port → Port) (h : ∀ x, (f x).atHome = x.atHome) : ((s.updPort n f).port p).atHome = (s.port p).atHome :=
  State.port_updPort_part s n p Port.atHome f h

/-- R47 step 4: a placement changes phases and ports, and no port's state of attach. -/
theorem placeFrame_spec :
    placeFrame s = { s with phases := (placeFrame s).phases, ports := (placeFrame s).ports } ∧ (placeFrame s).ports.length = s.ports.length ∧
      ∀ p, ((placeFrame s).port p).atHome = (s.port p).atHome := by
  unfold placeFrame
  extract_lets a b c
  have ha : a = { s with phases := a.phases } := (overN_sweptPhases takeSlot 48 s).frame
  have hap : a.ports = s.ports := by rw [ha]
  clear_value a
  obtain ⟨b1, b2, -, -⟩ := overN_portAlone (f := fun p t => t.updPath p (pmodeFrame t p)) (fun p t => (PortAlone.refl p t).updPath _) 24 a
  obtain ⟨c1, c2, -, -⟩ := overN_portAlone (f := fun p t => t.updCc p fun c => { c with alloc := c.alloc && !(c.st == .attachedSrc && t.placed p) })
    (fun p t => (PortAlone.refl p t).updCc _) 24 b
  have hd : ∀ p t, PortAlone p t (if (t.ledger.port p).overdraw && t.inn.started then t.countUp p .overdraw else t) := fun p t => by
    split
    · exact (PortAlone.refl p t).updPort _
    · exact PortAlone.refl p t
  obtain ⟨d1, d2, -, -⟩ := overN_portAlone hd 24 c
  have hb : ∀ p, (b.port p).atHome = (a.port p).atHome := fun p => by
    refine overN_keeps (fun t => (t.port p).atHome) (fun n t => updPort_atHome n p _ ?_) 24 a
    exact fun _ => rfl
  have hc : ∀ p, (c.port p).atHome = (b.port p).atHome := fun p => by
    refine overN_keeps (fun t => (t.port p).atHome) (fun n t => updPort_atHome n p _ ?_) 24 b
    exact fun _ => rfl
  have hdh : ∀ p, ((overN 24 (fun p t => if (t.ledger.port p).overdraw && t.inn.started then t.countUp p .overdraw else t) c).port p).atHome =
      (c.port p).atHome := fun p => by
    refine overN_keeps (fun t => (t.port p).atHome) (fun n t => ?_) 24 c
    split
    · refine updPort_atHome n p _ ?_
      exact fun _ => rfl
    · rfl
  change b = _ at b1
  change b.ports.length = _ at b2
  change c = _ at c1
  change c.ports.length = _ at c2
  clear_value c
  clear_value b
  generalize overN 24 (fun p t => if (t.ledger.port p).overdraw && t.inn.started then t.countUp p .overdraw else t) c = d at *
  refine ⟨?_, d2.trans (c2.trans (b2.trans (congrArg _ hap))), fun p => ?_⟩
  · rw [d1, c1, b1, ha]
  · rw [hdh, hc, hb, State.port, hap, State.port]

/-- R251: what reduced service makes of one port. -/
theorem reducedPort_spec (hl : p < s.ports.length) (hm : s.seq.mode = .running) (hr : s.seq.reduced = true) :
    (reducedPlaces s p = true → (s.cc p).st = .disabled → (s.cc p).disabledBy = .bringup →
      ((reducedPort p s).cc p).st = (if (s.cc p).toOutOfService then .outOfService else .unattachedSrc)) ∧
      ((s.cc p).st ≠ .disabled → ((reducedPort p s).cc p).st = (s.cc p).st) := by
  unfold reducedPort
  extract_lets v
  have hv : (v.cc p).atHome = (s.cc p).atHome := by
    refine State.port_updPort_part s p p (fun q => q.cc.atHome) _ ?_
    intro q
    dsimp only
    split
    · rfl
    · rfl
  have hvl : p < v.ports.length := by
    dsimp only [v]
    rwa [State.updCc_ports_length]
  have hplaces : reducedPlaces v p = reducedPlaces s p := by
    unfold reducedPlaces
    dsimp only [v]
    rw [State.updCc_port_inService]
    rfl
  have hvs : v.seq = s.seq := rfl
  clear_value v
  unfold CcLayer.atHome at hv
  simp only [Prod.mk.injEq] at hv
  obtain ⟨h1, h2, h3⟩ := hv
  rw [hplaces, h1, h2]
  refine ⟨fun hp hd hb => ?_, fun hd => ?_⟩
  · rw [if_pos (by simp [hp, hd, hb])]
    obtain ⟨h, -⟩ := State.home_cc (s := v) hvl
    rw [h]
    unfold homeOf State.preService
    rw [h3, hvs, hm, hr]
    simp
  · rw [if_neg (by simp [hd])]
    exact h1

theorem homePhase_lt (hp : p < 24) : homePhase p + 1 < 48 := by
  unfold homePhase ridgeOfPort localOfPort
  omega

theorem reducedLedger_phase {k : Nat} (hk : k < 48) : (reducedLedger s).phase k = reducedPhase s k := by
  unfold Ledger.phase reducedLedger
  simp [hk]

/-- R251: phase 2q of a placed port, and its neighbour. -/
theorem reducedLedger_home (hp : p < 24) :
    (reducedPlaces s p = true → ((reducedLedger s).phase (homePhase p)).pair = 1 ∧ ((reducedLedger s).phase (homePhase p)).st = 1 ∧
      ((reducedLedger s).phase (homePhase p)).slot = 4 * (p % 4) ∧ ((reducedLedger s).phase (homePhase p)).lawSet = 5) ∧
      ((reducedLedger s).phase (homePhase p + 1)).pair = 0 := by
  have h := homePhase_lt hp
  have he : 4 * (homePhase p / 8) + homePhase p % 8 / 2 = p := by
    unfold homePhase ridgeOfPort localOfPort
    omega
  have h2 : homePhase p % 2 = 0 := by
    unfold homePhase
    omega
  rw [reducedLedger_phase (by omega), reducedLedger_phase h]
  refine ⟨fun hr => ?_, ?_⟩
  · unfold reducedPhase
    dsimp only
    rw [he, if_pos (by simp [h2, hr])]
    exact ⟨rfl, rfl, rfl, rfl⟩
  · unfold reducedPhase
    dsimp only
    rw [if_neg (by simp; omega)]

theorem reducedPlaces_congr (hin : (t.port p).inService = (s.port p).inService) (hrun : ∀ r, (t.ridge r).run = (s.ridge r).run) (hret : t.ret = s.ret) :
    reducedPlaces t p = reducedPlaces s p := by
  unfold reducedPlaces retiredMask State.cairn
  rw [hin, hrun, hret]

/-- The state as reduced service places its phases. -/
def State.reducedStart (s : State) : State := ((overN 6 startLaw s).reach 2).updSeq fun q => { q with reduced := true }

/-- The state in which reduced service has placed its phases. -/
def State.reducedPlaced (s : State) : State := placeFrame { s.reducedStart with ledger := reducedLedger s.reducedStart }

theorem reducedServiceStart_due (hm : s.seq.mode = .running) (hl : s.locked = true) (h1 : 1 ≤ s.seq.milestone) (h6 : s.seq.milestone < 6)
    (hr : s.seq.reduced = false) (hd : reducedDue s = true) :
    reducedServiceStart s =
      (overN 24 reducedPort s.reducedPlaced).pushEvent 0x38 0 [4] := by
  unfold reducedServiceStart
  rw [if_pos (by simp [hm, hl, h1, h6, hr]), if_pos hd]
  rfl

theorem State.reducedStart_spec (hs : s.Shaped) :
    s.reducedStart.seq = { s.seq with milestone := max s.seq.milestone 2, reduced := true } ∧ s.reducedStart.ports = s.ports ∧
      s.reducedStart.ret = s.ret ∧ ∀ r, s.reducedStart.ridge r = (overN 6 startLaw s).ridge r := by
  obtain ⟨-, -, hridges, -⟩ := hs
  obtain ⟨a1, -, -, -⟩ := startLaws_spec 6 s (by omega)
  unfold State.reducedStart
  generalize overN 6 startLaw s = v at *
  have h1 : v.seq = s.seq := by rw [a1]
  have h2 : v.ports = s.ports := by rw [a1]
  have h3 : v.ret = s.ret := by rw [a1]
  refine ⟨?_, h2, h3, fun _ => rfl⟩
  rw [← h1]
  rfl

theorem State.reducedPlaced_spec (hs : s.Shaped) :
    s.reducedPlaced.seq = { s.seq with milestone := max s.seq.milestone 2, reduced := true } ∧
      s.reducedPlaced.ledger = reducedLedger s.reducedStart ∧ (∀ r, s.reducedPlaced.ridge r = (overN 6 startLaw s).ridge r) ∧
      s.reducedPlaced.ret = s.ret ∧ s.reducedPlaced.ports.length = 24 ∧ (∀ p, (s.reducedPlaced.port p).atHome = (s.port p).atHome) ∧
      ∀ p, reducedPlaces s.reducedStart p = reducedPlaces s p := by
  obtain ⟨hports, -, hridges, -⟩ := id hs
  obtain ⟨-, -, a3, -⟩ := startLaws_spec 6 s (by omega)
  obtain ⟨hc1, hc2, hc3, hc4⟩ := State.reducedStart_spec hs
  unfold State.reducedPlaced
  generalize s.reducedStart = c at *
  have hplaces : ∀ p, reducedPlaces c p = reducedPlaces s p := fun p =>
    reducedPlaces_congr (by rw [State.port, hc2, State.port]) (fun r => by rw [hc4, a3]) hc3
  generalize hdl : ({ c with ledger := reducedLedger c } : State) = d
  have hdled : d.ledger = reducedLedger c := by rw [← hdl]
  have hds : d.seq = c.seq := by rw [← hdl]
  have hdp : d.ports = s.ports := by
    rw [← hdl]
    exact hc2
  have hdr : ∀ r, d.ridge r = c.ridge r := fun r => by
    rw [← hdl]
    rfl
  have hdret : d.ret = s.ret := by
    rw [← hdl]
    exact hc3
  obtain ⟨e1, e2, e3⟩ := placeFrame_spec (s := d)
  generalize placeFrame d = e at *
  have hes : e.seq = { s.seq with milestone := max s.seq.milestone 2, reduced := true } := by
    rw [e1]
    exact hds.trans hc1
  have hel : e.ledger = reducedLedger c := by
    rw [e1]
    exact hdled
  have her : ∀ r, e.ridge r = (overN 6 startLaw s).ridge r := fun r => by
    have h : e.ridge r = d.ridge r := by
      rw [e1]
      rfl
    rw [h, hdr, hc4]
  have heret : e.ret = s.ret := by
    rw [e1]
    exact hdret
  refine ⟨hes, hel, her, heret, ?_, fun p => ?_, hplaces⟩
  · rw [e2, hdp]
    exact hports
  · rw [e3, State.port, hdp, State.port]

theorem reducedServiceStart_goes (hs : s.Shaped) (hm : s.seq.mode = .running) (hl : s.locked = true) (h1 : 1 ≤ s.seq.milestone)
    (h6 : s.seq.milestone < 6) (hr : s.seq.reduced = false) (hd : reducedDue s = true) :
    Goes .reducedServiceStart s fun t =>
      t.seq = { s.seq with milestone := max s.seq.milestone 2, reduced := true } ∧ t.attn.pending.getLsbD (eventAttn 0x38) = true ∧
        (∀ r, r < 6 → (s.ridge r).run = .running → (t.ridge r).bank.base = 2 ∧ (t.ridge r).activeSrc = 2 ∧ (t.ridge r).started = true) ∧
        ∀ p, p < 24 →
          (reducedPlaces s p = true →
            (t.ledger.phase (homePhase p)).pair = 1 ∧ (t.ledger.phase (homePhase p)).st = 1 ∧
              (t.ledger.phase (homePhase p)).slot = 4 * (p % 4) ∧ (t.ledger.phase (homePhase p)).lawSet = 5 ∧
              ((s.cc p).st = .disabled → (s.cc p).disabledBy = .bringup →
                (t.cc p).st = (if (s.cc p).toOutOfService then .outOfService else .unattachedSrc))) ∧
          (t.ledger.phase (homePhase p + 1)).pair = 0 ∧
          ((s.cc p).st ≠ .disabled → (t.cc p).st = (s.cc p).st) := by
  refine ⟨_, congrArg Host.Outcome.next (reducedServiceStart_due hm hl h1 h6 hr hd), ?_⟩
  obtain ⟨-, -, a3, a4⟩ := startLaws_spec 6 s (by
    obtain ⟨-, -, hridges, -⟩ := hs
    omega)
  obtain ⟨hes, hel, her, heret, elen, hep, hplaces⟩ := State.reducedPlaced_spec hs
  generalize s.reducedPlaced = e at *
  obtain ⟨⟨w1, w2⟩, -, w4⟩ := overN_onlyPort (f := reducedPort) (fun p t => OnlyPort.reducedPort (.refl p t)) 24 e
  generalize overN 24 reducedPort e = w at *
  have hws : w.seq = e.seq := by rw [w1]
  have hwl : w.ledger = reducedLedger s.reducedStart := by
    rw [w1]
    exact hel
  have hwr : ∀ r, w.ridge r = e.ridge r := fun r => by
    rw [w1]
    rfl
  refine ⟨hws.trans hes, State.pushEvent_attn 0x38 0 _ (by decide), fun r hr6 hrun => ?_, fun p hp => ?_⟩
  · show (w.ridge r).bank.base = 2 ∧ (w.ridge r).activeSrc = 2 ∧ (w.ridge r).started = true
    rw [hwr, her]
    exact a4 r hr6 hrun
  · obtain ⟨x, ⟨x1, x2⟩, x3, x4⟩ := w4 p hp
    have hxs : x.seq = e.seq := by rw [x1]
    have hxp : reducedPlaces x p = reducedPlaces s p := by
      refine reducedPlaces_congr ?_ (fun r => ?_) ?_
      · rw [x3]
        exact congrArg (fun y => y.1) (hep p)
      · have h : x.ridge r = e.ridge r := by
          rw [x1]
          rfl
        rw [h, her, a3]
      · rw [x1]
        exact heret
    have hlen : p < x.ports.length := by
      rw [x2, elen]
      exact hp
    obtain ⟨y1, y2⟩ := reducedPort_spec hlen (by rw [hxs, hes]; exact hm) (by rw [hxs, hes])
    have hat := hep p
    unfold Port.atHome CcLayer.atHome at hat
    simp only [Prod.mk.injEq] at hat
    obtain ⟨-, h1, h2, h3⟩ := hat
    unfold State.cc at *
    rw [hxp, x3, h1, h2, h3, ← x4] at y1
    rw [x3, h1, ← x4] at y2
    obtain ⟨z1, z2⟩ := reducedLedger_home (s := s.reducedStart) hp
    rw [← hwl, hplaces] at z1
    rw [← hwl] at z2
    refine ⟨fun hpl => ?_, z2, y2⟩
    obtain ⟨b1, b2, b3, b4⟩ := z1 hpl
    exact ⟨b1, b2, b3, b4, y1 hpl⟩

theorem reducedServiceStart_early (hm : s.seq.mode = .running) (hl : s.locked = true) (hr : s.seq.reduced = false)
    (h7 : s.seq.step7 = false) (h1 : s.seq.milestone = 1) :
    GoesTo .reducedServiceStart s { s with seq := { s.seq with milestone := 2 } } := by
  have e : reducedServiceStart s = s.reach 2 := by
    unfold reducedServiceStart
    rw [if_pos (by simp [hm, hl, h1, hr]), if_neg (by simp [reducedDue, h7]), if_pos (by simp [h7, h1])]
  refine congrArg Host.Outcome.next (e.trans ?_)
  show ({ s with seq := { s.seq with milestone := max s.seq.milestone 2 } } : State) = _
  rw [h1]
  rfl

/-- Settles O54, milestone by milestone. -/
theorem bringUp : Obligations.BringUp :=
  ⟨fun _ h => calibrationTakeup_goes h,
    fun _ hs hm hl h1 h6 hr => ⟨fun hd => reducedServiceStart_goes hs hm hl h1 h6 hr hd, fun h7 h => reducedServiceStart_early hm hl hr h7 h⟩,
    fun _ _ h hb => cairnRestore_goes h hb, fun _ h hv hr => patchVerification_held h hv hr, fun _ h hv => patchVerification_none h hv,
    fun _ hs h hb => ridgeBankLoad_goes hs h hb, fun _ hs h => endOfBringup_goes hs h,
    fun _ hs h h7 hf h1 h2 => endOfBringup_late hs h h7 hf h1 h2, fun _ _ hm hl hi hf => commandInterpreterStart_goes hm hl hi hf⟩

end Sys2Proof.Machine
end

section
/-! PROOF. Margin mode. -/
namespace Sys2Proof.Machine
variable {s t u : State} {r k n : Nat} {b : Probe}

/-! ### Measurements (R433, R434) -/

theorem probeRecordComplete_goes (hr : r < 6) (hl : s.locked = true) (hb : (s.ridge r).probe = some b) (hp : b.paces = 1024) (h8 : b.records < 8) :
    GoesTo (.probeRecordComplete r) s (s.updRidge r fun q => { q with probe := some { b with records := b.records + 1, paces := 0 } }) := by
  refine congrArg Host.Outcome.next ?_
  unfold probeRecordComplete
  rw [hb]
  exact if_pos (by simp [hr, hl, hp, h8])

/-- R434: phase k with its estimates. -/
def Phase.estimated (f : Phase) (b : Probe) (frame : Nat) : Phase :=
  { f with
    est := (List.range 4).map (estimateOf b), measFrame := frame, nMeas := sat1 f.nMeas, measured := true
    rEff := estimateOf b 0x100, lBase := if f.lBase = 0 then estimateOf b 0x00 else f.lBase }

/-- R434: what the estimates leave, and where they stand. -/
theorem takeEstimates_spec (hr : r < s.ridges.length) (hk : b.phase < s.phases.length) :
    takeEstimates s r b = { s with phases := (takeEstimates s r b).phases, ports := (takeEstimates s r b).ports, ridges := (takeEstimates s r b).ridges,
                                   ret := (takeEstimates s r b).ret } ∧
      (takeEstimates s r b).ridges.length = s.ridges.length ∧ (takeEstimates s r b).phases.length = s.phases.length ∧
      ((takeEstimates s r b).ridge r).probe = none ∧ (takeEstimates s r b).phase b.phase = (s.phase b.phase).estimated b s.frameCount := by
  unfold takeEstimates
  extract_lets k l a c
  have ha : a = { s with phases := a.phases } := rfl
  have hak : a.phase b.phase = (s.phase b.phase).estimated b s.frameCount := State.phase_updPhase s b.phase _ hk
  have hal : a.phases.length = s.phases.length := State.updPhase_length ..
  clear_value a
  have hc : c = { a with ports := c.ports } := by
    dsimp only [c]
    split
    · rfl
    · rfl
  clear_value c
  have hcr : c.ridges = s.ridges := by rw [hc, ha]
  have hcp : c.phases = a.phases := by rw [hc]
  have hx := State.ridge_updRidge c r (fun q => { q with est := (List.range 3).map fun i => estimateOf b (0x40 + i), probe := none }) (by rw [hcr]; exact hr)
  generalize hd : (c.updRidge r fun q => { q with est := (List.range 3).map fun i => estimateOf b (0x40 + i), probe := none }) = d at hx
  have hdr : d.ridges.length = s.ridges.length := by
    rw [← hd, State.updRidge_length, hcr]
  have hdp : d.phases = c.phases := by
    rw [← hd]
    rfl
  have hde : d = { c with ridges := d.ridges } := by
    rw [← hd]
    rfl
  clear hd
  refine ⟨?_, hdr, (congrArg List.length (hdp.trans hcp)).trans hal, congrArg Ridge.probe hx, ?_⟩
  · show ({ d with ret := _ } : State) = _
    rw [hde, hc, ha]
    rfl
  · show d.phase b.phase = _
    rw [State.phase, hdp, hcp]
    exact hak

theorem measurementComplete_eq (hr : r < 6) (hl : s.locked = true) (hb : (s.ridge r).probe = some b) (h8 : b.records = 8) :
    measurementComplete r s =
      if b.readmit then
        if inBand (((takeEstimates s r b).phase b.phase).est.getD 0 0) then
          { admitPhase (takeEstimates s r b) b.phase with
            readmitting := (admitPhase (takeEstimates s r b) b.phase).readmitting.filter fun x => x != b.phase }
        else readmitEnd (takeEstimates s r b) b.phase stFailed [2]
      else
        (({ takeEstimates s r b with ageQueue := (takeEstimates s r b).ageQueue.filter fun x => x != b.phase } : State).updRidge r fun q =>
          { q with replanDue := some b.phase }).finishWait (.ageing b.phase) stOk
            (measureData (({ takeEstimates s r b with ageQueue := (takeEstimates s r b).ageQueue.filter fun x => x != b.phase } : State).updRidge r fun q =>
              { q with replanDue := some b.phase }) b.phase) := by
  unfold measurementComplete
  rw [hb]
  exact if_pos (by simp [hr, hl, h8])

theorem measurementComplete_measured (hs : s.Shaped) (hr : r < 6) (hl : s.locked = true) (hb : (s.ridge r).probe = some b) (h8 : b.records = 8)
    (hm : b.readmit = false) (hk : b.phase < 48) :
    Goes (.measurementComplete r) s fun t =>
      (t.ridge r).probe = none ∧ (t.ridge r).replanDue = some b.phase ∧ (t.phase b.phase).est = (List.range 4).map (estimateOf b) ∧
        (t.phase b.phase).measured = true ∧ (t.phase b.phase).measFrame = s.frameCount ∧
        (t.phase b.phase).nMeas = sat1 (s.phase b.phase).nMeas ∧ b.phase ∉ t.ageQueue ∧ t.ledger = s.ledger ∧ t.params = s.params := by
  obtain ⟨-, hphases, hridges, -⟩ := hs
  refine ⟨_, congrArg Host.Outcome.next ((measurementComplete_eq hr hl hb h8).trans (if_neg (by rw [hm]; decide))), ?_⟩
  obtain ⟨v1, v2, -, v4, v5⟩ := takeEstimates_spec (s := s) (r := r) (b := b) (by omega) (by omega)
  generalize takeEstimates s r b = v at *
  have hled : v.ledger = s.ledger := by rw [v1]
  have hpar : v.params = s.params := by rw [v1]
  have hx := State.ridge_updRidge ({ v with ageQueue := v.ageQueue.filter fun x => x != b.phase } : State) r (fun q => { q with replanDue := some b.phase })
    (by
      show r < v.ridges.length
      omega)
  generalize hw : (({ v with ageQueue := v.ageQueue.filter fun x => x != b.phase } : State).updRidge r fun q => { q with replanDue := some b.phase }) = w at hx
  have hwp : w.phase b.phase = v.phase b.phase := by
    rw [← hw]
    rfl
  have hwa : w.ageQueue = v.ageQueue.filter fun x => x != b.phase := by
    rw [← hw]
    rfl
  have hwl : w.ledger = v.ledger := by
    rw [← hw]
    rfl
  have hwr : w.params = v.params := by
    rw [← hw]
    rfl
  clear hw
  rw [State.ridge, State.finishWait_ridges, ← State.ridge, hx, State.finishWait_phase, hwp, v5, State.finishWait_ageQueue, hwa, State.finishWait_ledger, hwl,
    State.finishWait_params, hwr]
  exact ⟨v4, rfl, rfl, rfl, rfl, rfl, by simp, hled, hpar⟩

theorem State.setItem_params (i v : Nat) : (s.setItem i v).params = mapSet s.params i v := rfl
theorem State.setItem_phases (i v : Nat) : (s.setItem i v).phases = s.phases := rfl
theorem State.setItem_ridges (i v : Nat) : (s.setItem i v).ridges = s.ridges := rfl
theorem State.setItem_ledger (i v : Nat) : (s.setItem i v).ledger = s.ledger := rfl
theorem State.setItem_host (i v : Nat) : (s.setItem i v).host = s.host := rfl
theorem State.setItem_tun (i v : Nat) : (s.setItem i v).tun = s.tun := rfl

/-- R441 step 6: the items of a phase that is admitted. -/
theorem admitPhase_spec (hk : k < s.phases.length) :
    ((admitPhase s k).phase k).retired = false ∧ ((admitPhase s k).phase k).lBase = (s.phase k).est.getD 0 0 ∧
      mapGet (admitPhase s k).params (pid 4 k 0x0B) = some 100 ∧ (admitPhase s k).ridges = s.ridges ∧
      ∀ pl, (admitPhase s k).cmdAt pl = s.cmdAt pl := by
  have hne : ∀ m, m ≠ 0x0B → pid 4 k 0x0B ≠ pid 4 k m := fun m hm => by
    unfold pid
    omega
  unfold admitPhase
  extract_lets f l set a c
  have ha : mapGet a.params (pid 4 k 0x0B) = some 100 := by
    dsimp only [a, set]
    rw [State.setItem_params, State.setItem_params, State.setItem_params, State.setItem_params, State.setItem_params, mapGet_mapSet_other (hne _ (by decide)), mapGet_mapSet_other (hne _ (by decide)), mapGet_mapSet_other (hne _ (by decide)),
      mapGet_mapSet_other (hne _ (by decide)), mapGet_mapSet_same]
  have hap : a.phases = s.phases := by simp only [a, set, State.setItem_phases]
  have har : a.ridges = s.ridges := by simp only [a, set, State.setItem_ridges]
  have hac : ∀ pl, a.cmdAt pl = s.cmdAt pl := fun pl =>
    State.cmdAt_congr (by simp only [a, set, State.setItem_host]) (by simp only [a, set, State.setItem_tun]) pl
  clear_value a
  have hc : c.phase k = { a.phase k with retired := false, lBase := l, goodMeas := 0 } := State.phase_updPhase a k _ (by rw [hap]; exact hk)
  have hcc : ∀ pl, c.cmdAt pl = a.cmdAt pl := fun pl => State.cmdAt_congr rfl rfl pl
  have hcp : c.params = a.params := rfl
  have hcr : c.ridges = a.ridges := rfl
  clear_value c
  have hfin : ∀ n m, ((c.markDirty n).markDirty m).phase k = c.phase k ∧ ((c.markDirty n).markDirty m).params = c.params ∧
      ((c.markDirty n).markDirty m).ridges = c.ridges ∧ ∀ pl, ((c.markDirty n).markDirty m).cmdAt pl = c.cmdAt pl := fun n m =>
    ⟨rfl, rfl, rfl, fun pl => State.cmdAt_congr rfl rfl pl⟩
  obtain ⟨f1, f2, f3, f4⟩ := hfin (4 + ridgeOfPhase k) (10 + ridgeOfPhase k)
  rw [f1, f2, f3, hc, hcp, hcr]
  exact ⟨rfl, rfl, ha, har, fun pl => (f4 pl).trans ((hcc pl).trans (hac pl))⟩

theorem measurementComplete_readmit (hs : s.Shaped) (hr : r < 6) (hl : s.locked = true) (hb : (s.ridge r).probe = some b) (h8 : b.records = 8)
    (hm : b.readmit = true) (hk : b.phase < 48) :
    Goes (.measurementComplete r) s fun t =>
      (t.ridge r).probe = none ∧ b.phase ∉ t.readmitting ∧
        (inBand (estimateOf b 0) = true → (t.phase b.phase).retired = false ∧ (t.phase b.phase).lBase = estimateOf b 0 ∧
          mapGet t.params (pid 4 b.phase 0x0B) = some 100 ∧ ∀ pl, t.waits pl (.readmit b.phase) = s.waits pl (.readmit b.phase)) ∧
        (inBand (estimateOf b 0) = false → (t.phase b.phase).retired = (s.phase b.phase).retired ∧ t.params = s.params ∧
          ∀ pl, t.waits pl (.readmit b.phase) = false) := by
  obtain ⟨-, hphases, hridges, -⟩ := hs
  refine ⟨_, congrArg Host.Outcome.next ((measurementComplete_eq hr hl hb h8).trans (if_pos hm)), ?_⟩
  obtain ⟨v1, -, v3, v4, v5⟩ := takeEstimates_spec (s := s) (r := r) (b := b) (by omega) (by omega)
  generalize takeEstimates s r b = v at *
  have hest : (v.phase b.phase).est.getD 0 0 = estimateOf b 0 := by rw [v5]; rfl
  have hret : (v.phase b.phase).retired = (s.phase b.phase).retired := by rw [v5]; rfl
  have hpar : v.params = s.params := by rw [v1]
  have hcmd : ∀ pl, v.cmdAt pl = s.cmdAt pl := fun pl => by
    rw [v1]
    exact State.cmdAt_congr rfl rfl pl
  rw [hest]
  by_cases hband : inBand (estimateOf b 0) = true
  · rw [if_pos hband]
    obtain ⟨a1, a2, a3, a4, a5⟩ := admitPhase_spec (s := v) (k := b.phase) (by omega)
    generalize admitPhase v b.phase = w at *
    refine ⟨?_, by simp, fun _ => ⟨a1, a2.trans hest, a3, fun pl => ?_⟩, fun h => absurd (hband.symm.trans h) (by decide)⟩
    · show (w.ridge r).probe = none
      rw [State.ridge, a4]
      exact v4
    · exact State.waits_congr ((State.cmdAt_congr rfl rfl pl).trans ((a5 pl).trans (hcmd pl)))
  · rw [if_neg hband]
    unfold readmitEnd
    refine ⟨?_, ?_, fun h => absurd h hband, fun _ => ⟨?_, ?_, fun pl => State.finishWait_waits ..⟩⟩
    · rw [State.ridge, State.finishWait_ridges]
      exact v4
    · rw [State.finishWait_readmitting]
      simp
    · rw [State.finishWait_phase]
      exact hret
    · rw [State.finishWait_params]
      exact hpar

/-! ### Re-planning (R436, R437) -/

theorem replanApply_eq (hr : r < 6) (hl : s.locked = true) (hb : s.atBoundary = true) (hh : s.sup.st ≠ .hold) (hk : (s.ridge r).replanDue = some k) :
    replanApply r s = if (s.updRidge r fun q => { q with replanDue := none }).marginOn then
        (((((((s.updRidge r fun q => { q with replanDue := none }).setItem (pid 4 k 0x0A)
          (within10 (s.written (pid 4 k 0x0A)) (s.phase k).rEff 65535)).setItem (pid 4 k 0x04)
            (max 400 (20 * (derateOf (s.phase k) (s.written (pid 4 k 0x0B)) (median2 (ridgeREff s r))).1))).setItem (pid 4 k 0x0B)
              (derateOf (s.phase k) (s.written (pid 4 k 0x0B)) (median2 (ridgeREff s r))).1).setItem (pid 4 k 0x07)
                (lawSetOf ((s.phase k).est.getD 0 0) ((s.phase k).est.getD 1 0) (s.written (pid 4 k 0x07)) true)).updPhase k fun f =>
                  { f with goodMeas := (derateOf (s.phase k) (s.written (pid 4 k 0x0B)) (median2 (ridgeREff s r))).2 }).markDirty (10 + r))
      else s.updRidge r fun q => { q with replanDue := none } := by
  unfold replanApply
  rw [hk]
  dsimp only
  rw [if_pos (by simp [hr, hl, hb, hh])]
  rfl

theorem derateOf_range (f : Phase) (cur med : Nat) : 25 ≤ (derateOf f cur med).1 ∧ (derateOf f cur med).1 ≤ 100 := by
  unfold derateOf
  dsimp only
  omega

theorem replanApply_goes (hs : s.Shaped) (hr : r < 6) (hl : s.locked = true) (hb : s.atBoundary = true) (hh : s.sup.st ≠ .hold)
    (hk : (s.ridge r).replanDue = some k) :
    (s.marginOn = false → GoesTo (.replanApply r) s (s.updRidge r fun q => { q with replanDue := none })) ∧
      (s.marginOn = true →
        Goes (.replanApply r) s fun t =>
          (t.ridge r).replanDue = none ∧ t.ledger = s.ledger ∧
            ∃ d, mapGet t.params (pid 4 k 0x0B) = some d ∧ 25 ≤ d ∧ d ≤ 100 ∧
              mapGet t.params (pid 4 k 0x04) = some (max 400 (20 * d)) ∧
              mapGet t.params (pid 4 k 0x07) =
                some (lawSetOf ((s.phase k).est.getD 0 0) ((s.phase k).est.getD 1 0) (s.written (pid 4 k 0x07)) true)) := by
  have e := replanApply_eq hr hl hb hh hk
  have hm : (s.updRidge r fun q => { q with replanDue := none }).marginOn = s.marginOn := rfl
  rw [hm] at e
  refine ⟨fun h => congrArg Host.Outcome.next (e.trans (if_neg (by rw [h]; decide))), fun h => ⟨_, congrArg Host.Outcome.next (e.trans (if_pos h)), ?_⟩⟩
  have hq := State.ridge_updRidge s r (fun q => { q with replanDue := none }) (hs.ridge_lt hr)
  obtain ⟨h25, h100⟩ := derateOf_range (s.phase k) (s.written (pid 4 k 0x0B)) (median2 (ridgeREff s r))
  generalize (derateOf (s.phase k) (s.written (pid 4 k 0x0B)) (median2 (ridgeREff s r))).1 = d at *
  generalize (derateOf (s.phase k) (s.written (pid 4 k 0x0B)) (median2 (ridgeREff s r))).2 = n
  have hvl : (s.updRidge r fun q => { q with replanDue := none }).ledger = s.ledger := rfl
  generalize (s.updRidge r fun q => { q with replanDue := none }) = v at *
  generalize hw : ((((v.setItem (pid 4 k 0x0A) (within10 (s.written (pid 4 k 0x0A)) (s.phase k).rEff 65535)).setItem (pid 4 k 0x04)
    (max 400 (20 * d))).setItem (pid 4 k 0x0B) d).setItem (pid 4 k 0x07)
      (lawSetOf ((s.phase k).est.getD 0 0) ((s.phase k).est.getD 1 0) (s.written (pid 4 k 0x07)) true)) = w
  have hwr : w.ridges = v.ridges := by
    rw [← hw]
    simp only [State.setItem_ridges]
  have hwl : w.ledger = s.ledger := by
    rw [← hw]
    simp only [State.setItem_ledger]
    exact hvl
  have hne : ∀ {m m'}, m ≠ m' → pid 4 k m ≠ pid 4 k m' := fun h => by
    unfold pid
    omega
  have h07 : mapGet w.params (pid 4 k 0x07) = some (lawSetOf ((s.phase k).est.getD 0 0) ((s.phase k).est.getD 1 0) (s.written (pid 4 k 0x07)) true) := by
    rw [← hw, State.setItem_params]
    exact mapGet_mapSet_same
  have h0B : mapGet w.params (pid 4 k 0x0B) = some d := by
    rw [← hw, State.setItem_params, State.setItem_params, mapGet_mapSet_other (hne (by decide))]
    exact mapGet_mapSet_same
  have h04 : mapGet w.params (pid 4 k 0x04) = some (max 400 (20 * d)) := by
    rw [← hw, State.setItem_params, State.setItem_params, State.setItem_params, mapGet_mapSet_other (hne (by decide)),
      mapGet_mapSet_other (hne (by decide))]
    exact mapGet_mapSet_same
  clear hw
  refine ⟨?_, hwl, d, h0B, h25, h100, h04, h07⟩
  show (w.ridge r).replanDue = none
  rw [State.ridge, hwr, ← State.ridge, hq]

/-! ### The loss fit (R436, R437) -/

theorem within10_range (cur v hi : Nat) : within10 cur v hi ≤ cur + cur / 10 ∧ (cur ≤ hi → cur - cur / 10 ≤ within10 cur v hi) := by
  unfold within10
  omega

/-- R436: the fit of one phase's coefficients. -/
def fitPhase (inputs : List Int) (k : Nat) (t : State) : State :=
  if (t.phase k).fitted then
    (t.setItem (pid 4 k 0x09) (within10 (t.written (pid 4 k 0x09)) (Config.lossFit 1 inputs) 10000)).setItem (pid 4 k 0x08)
      (within10 ((t.setItem (pid 4 k 0x09) (within10 (t.written (pid 4 k 0x09)) (Config.lossFit 1 inputs) 10000)).written (pid 4 k 0x08))
        (Config.lossFit 0 inputs) 10000)
  else t

/-- A coefficient has moved by at most a tenth, within its range. -/
def Near (a b : Nat) : Prop := b ≤ a + a / 10 ∧ (a ≤ 10000 → a - a / 10 ≤ b)

theorem Near.refl (a : Nat) : Near a a := by
  unfold Near
  omega

theorem State.written_setItem (i v j : Nat) : (s.setItem i v).written j = if j = i then v else s.written j :=
  State.written_congr (s := s) (t := s.setItem i v) (State.setItem_params i v) rfl rfl j

theorem fitPhase_spec (inputs : List Int) (k : Nat) :
    fitPhase inputs k s = { s with params := (fitPhase inputs k s).params, inForce := (fitPhase inputs k s).inForce } ∧
      (∀ j, j ≠ pid 4 k 0x08 → j ≠ pid 4 k 0x09 → (fitPhase inputs k s).written j = s.written j) ∧
      Near (s.written (pid 4 k 0x08)) ((fitPhase inputs k s).written (pid 4 k 0x08)) ∧
      Near (s.written (pid 4 k 0x09)) ((fitPhase inputs k s).written (pid 4 k 0x09)) := by
  have hne : pid 4 k 0x08 ≠ pid 4 k 0x09 := by
    unfold pid
    omega
  unfold fitPhase
  split
  · refine ⟨rfl, fun j h8 h9 => ?_, ?_, ?_⟩
    · rw [State.written_setItem, if_neg h8, State.written_setItem, if_neg h9]
    · rw [State.written_setItem, if_pos rfl, State.written_setItem, if_neg hne]
      exact within10_range ..
    · rw [State.written_setItem, if_neg hne.symm, State.written_setItem, if_pos rfl]
      exact within10_range ..
  · exact ⟨rfl, fun _ _ _ => rfl, Near.refl _, Near.refl _⟩

theorem fitPhases_spec (inputs : List Int) (n : Nat) (s : State) :
    overN n (fitPhase inputs) s = { s with params := (overN n (fitPhase inputs) s).params, inForce := (overN n (fitPhase inputs) s).inForce } ∧
      ∀ k m, (m = 0x08 ∨ m = 0x09) → (n ≤ k → (overN n (fitPhase inputs) s).written (pid 4 k m) = s.written (pid 4 k m)) ∧
        Near (s.written (pid 4 k m)) ((overN n (fitPhase inputs) s).written (pid 4 k m)) := by
  induction n with
  | zero => exact ⟨rfl, fun _ _ _ => ⟨fun _ => rfl, Near.refl _⟩⟩
  | succ n ih =>
    obtain ⟨h1, h2⟩ := ih
    rw [overN_succ]
    generalize overN n (fitPhase inputs) s = v at *
    obtain ⟨k1, k2, k3, k4⟩ := fitPhase_spec (s := v) inputs n
    generalize fitPhase inputs n v = w at *
    refine ⟨by rw [k1, h1], fun k m hm => ?_⟩
    obtain ⟨a1, a2⟩ := h2 k m hm
    by_cases e : k = n
    · subst e
      refine ⟨fun h => absurd h (by omega), ?_⟩
      rw [← a1 le_rfl]
      obtain rfl | rfl := hm
      · exact k3
      · exact k4
    · have hw : w.written (pid 4 k m) = v.written (pid 4 k m) := by
        refine k2 _ ?_ ?_
        · unfold pid
          omega
        · unfold pid
          omega
      rw [hw]
      exact ⟨fun h => a1 (by omega), a2⟩

theorem State.written_eq (h1 : t.params = s.params) (h2 : t.feeds = s.feeds) (h3 : t.otp = s.otp) (j : Nat) : t.written j = s.written j := by
  have hd : itemDefault t j = itemDefault s j := by
    unfold itemDefault rtvDefault
    rw [h2, h3]
  unfold State.written
  rw [h1, hd]

/-- R436: the loss tables of the ridges wait for their cairns. -/
def markLosses (r : Nat) (t : State) : State := if (t.ridge r).run == .depopulated then t else t.markDirty (10 + r)

theorem markLosses_keeps (r : Nat) (t : State) : markLosses r t = { t with ret := (markLosses r t).ret } := by
  unfold markLosses
  split
  · rfl
  · rfl

theorem markLosses_all (n : Nat) (s : State) : overN n markLosses s = { s with ret := (overN n markLosses s).ret } := by
  induction n with
  | zero => rfl
  | succ n ih =>
    rw [overN_succ]
    generalize overN n markLosses s = v at *
    rw [markLosses_keeps, ih]

/-- R437: the device-wide fit is done. -/
def State.fitted (s : State) : State := { s with freeN := s.freeN + 1, dev := { s.dev with lossFitFrame := s.frame } }

theorem lossFit_eq (hl : s.locked = true) (hm : s.marginOn = true) (hb : s.atBoundary = true) (hh : s.sup.st ≠ .hold)
    (hf : s.dev.lossFitFrame + 10000 ≤ s.frame) :
    lossFit s =
      (overN 6 markLosses (overN 48 (fitPhase ((s.freeN : Int) :: s.inn.feedHist ++ s.inn.outHist)) s)).fitted := by
  unfold lossFit
  rw [if_pos (by simp [hl, hm, hb, hh, State.framesSince, hf])]
  extract_lets inputs a c
  have ha : a = overN 48 (fitPhase inputs) s := rfl
  have hc : c = overN 6 markLosses a := rfl
  clear_value a c
  show c.fitted = _
  rw [hc, ha]

theorem lossFit_goes (hl : s.locked = true) (hm : s.marginOn = true) (hb : s.atBoundary = true) (hh : s.sup.st ≠ .hold)
    (hf : s.dev.lossFitFrame + 10000 ≤ s.frame) :
    Goes .lossFit s fun t =>
      t.dev.lossFitFrame = s.frame ∧ t.freeN = s.freeN + 1 ∧ t.ledger = s.ledger ∧
        ∀ k m, k < 48 → (m = 0x08 ∨ m = 0x09) →
          t.written (pid 4 k m) ≤ s.written (pid 4 k m) + s.written (pid 4 k m) / 10 ∧
          (s.written (pid 4 k m) ≤ 10000 → s.written (pid 4 k m) - s.written (pid 4 k m) / 10 ≤ t.written (pid 4 k m)) := by
  refine ⟨_, congrArg Host.Outcome.next (lossFit_eq hl hm hb hh hf), ?_⟩
  obtain ⟨v1, v2⟩ := fitPhases_spec ((s.freeN : Int) :: s.inn.feedHist ++ s.inn.outHist) 48 s
  generalize overN 48 (fitPhase ((s.freeN : Int) :: s.inn.feedHist ++ s.inn.outHist)) s = v at *
  have w1 := markLosses_all 6 v
  generalize overN 6 markLosses v = w at *
  have hframe : w.frame = s.frame := by rw [w1, v1]
  have hfree : w.freeN = s.freeN := by rw [w1, v1]
  have hled : w.ledger = s.ledger := by rw [w1, v1]
  refine ⟨hframe, congrArg (· + 1) hfree, hled, fun k m _ h => ?_⟩
  have hw : w.fitted.written (pid 4 k m) = v.written (pid 4 k m) := by
    refine State.written_eq ?_ ?_ ?_ _
    · rw [State.fitted, w1]
    · rw [State.fitted, w1]
    · rw [State.fitted, w1]
  rw [hw]
  exact (v2 k m h).2

/-! ### Measurements and readmissions without records (R329, R441) -/

/-- The probe of phase k is given up. -/
def Ridge.dropProbe (k : Nat) (q : Ridge) : Ridge :=
  match q.probe with
  | some b => if b.phase = k then { q with probe := none } else q
  | none => q

theorem Ridge.dropProbe_probe (k : Nat) (q : Ridge) (b : Probe) (h : (q.dropProbe k).probe = some b) : b.phase ≠ k := by
  unfold Ridge.dropProbe at h
  split at h
  · split at h
    · cases h
    · rename_i hb hne
      cases hb.symm.trans h
      exact hne
  · rename_i hb
    cases hb.symm.trans h

theorem ageingMeasureTimeout_eq (h : (s.ageQueue.find? fun k => ridgeOfPhase k == r && s.ran (waitFrame s (.ageing k)) 1000) = some k) :
    ageingMeasureTimeout r s =
      (({ s with ageQueue := s.ageQueue.filter fun x => x != k } : State).updRidge r (Ridge.dropProbe k)).finishWait (.ageing k) stFailed [1] := by
  unfold ageingMeasureTimeout
  rw [h]
  rfl

theorem State.ridge_absent (h : s.ridges.length ≤ r) : s.ridge r = {} := by
  unfold State.ridge
  exact List.getD_eq_default _ _ h

theorem ageingMeasureTimeout_goes (h : (s.ageQueue.find? fun k => ridgeOfPhase k == r && s.ran (waitFrame s (.ageing k)) 1000) = some k) :
    Goes (.ageingMeasureTimeout r) s fun t =>
      k ∉ t.ageQueue ∧ (∀ pl, t.waits pl (.ageing k) = false) ∧ (∀ b, (t.ridge r).probe = some b → b.phase ≠ k) ∧ t.phases = s.phases ∧
        t.params = s.params := by
  refine ⟨_, congrArg Host.Outcome.next (ageingMeasureTimeout_eq h), ?_⟩
  generalize hv : (({ s with ageQueue := s.ageQueue.filter fun x => x != k } : State).updRidge r (Ridge.dropProbe k)) = v
  have hq : v.ageQueue = s.ageQueue.filter fun x => x != k := by rw [← hv]; rfl
  have hp : v.phases = s.phases := by rw [← hv]; rfl
  have hi : v.params = s.params := by rw [← hv]; rfl
  have hb : ∀ b, (v.ridge r).probe = some b → b.phase ≠ k := by
    intro b hb
    by_cases hr : r < s.ridges.length
    · rw [← hv, State.ridge_updRidge _ r _ (by exact hr)] at hb
      exact Ridge.dropProbe_probe k _ b hb
    · rw [State.ridge_absent (by rw [← hv, State.updRidge_length]; exact Nat.le_of_not_lt hr)] at hb
      cases hb
  clear hv
  rw [State.finishWait_ageQueue, State.ridge, State.finishWait_ridges, ← State.ridge, State.finishWait_phases, State.finishWait_params, hq]
  exact ⟨by simp, fun pl => State.finishWait_waits .., hb, hp, hi⟩

theorem readmitTimeout_eq (hr : r < 6) (hl : s.locked = true) (hb : (s.ridge r).probe = some b) (hm : b.readmit = true)
    (hf : b.startFrame + 1000 ≤ s.frame) :
    readmitTimeout r s = readmitEnd (s.updRidge r fun q => { q with probe := none }) b.phase stFailed [3] := by
  unfold readmitTimeout
  rw [hb]
  exact if_pos (by simp [hr, hl, hm, State.framesSince, hf])

theorem readmitTimeout_goes (hs : s.Shaped) (hr : r < 6) (hl : s.locked = true) (hb : (s.ridge r).probe = some b) (hm : b.readmit = true)
    (hf : b.startFrame + 1000 ≤ s.frame) :
    Goes (.readmitTimeout r) s fun t =>
      (t.ridge r).probe = none ∧ b.phase ∉ t.readmitting ∧ (∀ pl, t.waits pl (.readmit b.phase) = false) ∧ t.phases = s.phases := by
  refine ⟨_, congrArg Host.Outcome.next (readmitTimeout_eq hr hl hb hm hf), ?_⟩
  have hq := State.ridge_updRidge s r (fun q => { q with probe := none }) (hs.ridge_lt hr)
  have hp : (s.updRidge r fun q => { q with probe := none }).phases = s.phases := rfl
  generalize (s.updRidge r fun q => { q with probe := none }) = v at *
  unfold readmitEnd
  dsimp only
  rw [State.finishWait_readmitting, State.finishWait_phases, State.ridge, State.finishWait_ridges]
  exact ⟨congrArg Ridge.probe hq, by simp, fun pl => State.finishWait_waits .., hp⟩

/-- Settles O55: each row of a measurement, a re-plan and the loss fit leaves its effect under its guard. -/
theorem marginMode : Obligations.MarginMode := by
  unfold Obligations.MarginMode
  exact ⟨fun _ _ _ _ hr hl hb hp h8 => probeRecordComplete_goes hr hl hb hp h8,
    fun _ _ _ hs hr hl hb h8 hm hk => measurementComplete_measured hs hr hl hb h8 hm hk,
    fun _ _ _ hs hr hl hb h8 hm hk => measurementComplete_readmit hs hr hl hb h8 hm hk,
    fun _ _ _ hs hr hl hb hh hk => replanApply_goes hs hr hl hb hh hk,
    fun _ _ hl hm hb hh hf => lossFit_goes hl hm hb hh hf,
    fun _ _ _ _ h => ageingMeasureTimeout_goes h,
    fun _ _ _ hs hr hl hb hm hf => readmitTimeout_goes hs hr hl hb hm hf⟩

end Sys2Proof.Machine
end

section
/-! PROOF. Supervisor restart and hold. -/
namespace Sys2Proof.Machine
variable {s t u : State} {p r k : Nat}

/-! ### The hold begins (R297, R313, R330, R443, R445) -/

/-- R443: what a port loses with the supervisor. -/
def portReset (p : Nat) (t : State) : State := (t.updPath p fun h => { h with recalPaces := 0 }).updPd p fun d => { d with inbox := [] }

theorem portReset_alone (p : Nat) (t : State) : PortAlone p t (portReset p t) := ((PortAlone.refl p t).updPath _).updPd _

theorem portReset_port (hp : p < s.ports.length) :
    (portReset p s).port p = { s.port p with pd := { s.pd p with inbox := [] }, path := { s.path p with recalPaces := 0 } } := by
  unfold portReset
  rw [State.updPd, State.port_updPort _ _ _ (by rw [State.updPath, State.updPort_length]; exact hp), State.updPath, State.port_updPort _ _ _ hp]
  rfl

/-- What the hold leaves of the blocks that the supervisor does not keep. -/
theorem portsReset_spec (s : State) :
    overN 24 portReset s = { s with ports := (overN 24 portReset s).ports } ∧
      ∀ p, p < 24 → p < s.ports.length → (overN 24 portReset s).port p =
        { s.port p with pd := { s.pd p with inbox := [] }, path := { s.path p with recalPaces := 0 } } := by
  obtain ⟨h1, -, -, h4⟩ := overN_portAlone portReset_alone 24 s
  refine ⟨h1, fun p hp hl => ?_⟩
  obtain ⟨v, -, v2, v3, v4⟩ := h4 p hp
  rw [v4, portReset_port (by rw [v2]; exact hl), State.pd, State.path, v3]
  rfl

/-- R306: an event into an empty queue. -/
theorem State.pushEvent_first (kd i : Nat) (d : List Byte) (he : s.events.recs = []) (hd : d.length ≤ 1016) :
    (s.pushEvent kd i d).events = { s.events with recs := [{ kind := kd, inst := i, seq := s.events.seq, frame := s.frameCount, data := d }],
                                                  seq := (s.events.seq + 1) % 256 } := by
  unfold State.pushEvent
  dsimp only
  rw [if_pos (by
    unfold EventQ.size EventRec.size
    rw [he]
    simp only [List.map_nil, List.sum_nil]
    omega), he]
  rfl

/-- R295: the end of a session when no event is queued. -/
theorem State.sessionEnd_first (h : s.tester.st ≠ .closed) (he : s.events.recs = []) :
    s.sessionEnd 5 = { s with tester := { delayUntil := s.tester.delayUntil }, tun := s.tun.dropReplies, attn := (s.sessionEnd 5).attn
                              events := (s.sessionEnd 5).events } ∧
      (s.sessionEnd 5).events.lost = s.events.lost ∧
      ∃ e, (s.sessionEnd 5).events.recs = [e] ∧ e.kind = 0x21 ∧ e.inst = s.tester.port ∧ e.data = [5] := by
  unfold State.sessionEnd
  rw [if_neg (by simpa using h)]
  dsimp only
  rw [if_neg (by simp)]
  generalize hv : ({ s with tester := { delayUntil := s.tester.delayUntil }, tun := s.tun.dropReplies } : State) = v
  have hrecs : v.events = s.events := by rw [← hv]
  have e := State.pushEvent_first (s := v) 0x21 s.tester.port [byteOf 5] (by rw [hrecs]; exact he) (by decide)
  refine ⟨?_, ?_, ?_⟩
  · rw [← hv]
    rfl
  · rw [e, hrecs]
  · rw [e]
    exact ⟨_, rfl, rfl, rfl, rfl⟩

/-- R295, R445: the end of the session that the reset of the supervisor meets. -/
theorem State.sessionEnd_reset (he : s.events.recs = []) (ht : s.tun = {}) :
    s.sessionEnd 5 = { s with tester := (s.sessionEnd 5).tester, tun := (s.sessionEnd 5).tun, attn := (s.sessionEnd 5).attn
                              events := (s.sessionEnd 5).events } ∧
      (s.sessionEnd 5).events.lost = s.events.lost ∧ (s.sessionEnd 5).tester.st = .closed ∧ (s.sessionEnd 5).tun.slot = .empty ∧
      (s.tester.st = .closed → (s.sessionEnd 5).events.recs = []) ∧
      (s.tester.st ≠ .closed → ∃ e, (s.sessionEnd 5).events.recs = [e] ∧ e.kind = 0x21 ∧ e.inst = s.tester.port ∧ e.data = [5]) := by
  by_cases h : s.tester.st = .closed
  · have hq : s.sessionEnd 5 = s := if_pos (by rw [h]; decide)
    rw [hq, ht]
    exact ⟨by rw [← ht], rfl, h, rfl, fun _ => he, fun k => absurd h k⟩
  · obtain ⟨e1, e2, e3⟩ := State.sessionEnd_first h he
    generalize s.sessionEnd 5 = v at *
    have htester : v.tester.st = .closed := by rw [e1]
    have htun : v.tun.slot = .empty := by
      rw [e1]
      rfl
    refine ⟨?_, e2, htester, htun, fun k => absurd k h, fun _ => e3⟩
    rw [e1]

/-- R273: a supervisor in its hold serves no bus. -/
theorem State.busMode_of_hold (h : s.sup.st = .hold) : s.busMode ≠ 1 := by
  unfold State.busMode
  rw [h]
  cases s.seq.mode
  case running => simp
  all_goals exact fun k => by cases k

/-- R297, R445: the supervisor's reset. -/
theorem supRestartHoldBegin_goes (hs : s.Shaped) (hl : s.locked = true) (hr : s.sup.st = .readied) (hb : s.atBoundary = true)
    (hc : s.retClean = true) (hw : s.sup.replyRead = true ∨ s.sup.readyFrame + 100 ≤ s.frame) :
    Goes .supRestartHoldBegin s fun t =>
      t.sup.st = .hold ∧ t.sup.hFrame = s.frame ∧ t.sup.eng = {} ∧ t.events.lost = true ∧ t.irq = [] ∧ t.captures = [] ∧
        (s.tester.st = .closed → t.events.recs = []) ∧
        (s.tester.st ≠ .closed → ∃ e, t.events.recs = [e] ∧ e.kind = 0x21 ∧ e.inst = s.tester.port ∧ e.data = [5]) ∧ t.host.slot = .empty ∧
        t.host.place0 = none ∧ t.host.place12 = none ∧ t.tun.slot = .empty ∧ t.tester.st = .closed ∧ t.otp.staged = [] ∧
        t.seq.sleepAt = none ∧ t.inn.next = none ∧ t.ledger = s.ledger ∧ t.phases = s.phases ∧ t.params = s.params ∧
        t.fltSeq = s.fltSeq ∧ t.busMode ≠ 1 ∧
        (∀ p, p < 24 → t.cc p = s.cc p ∧ t.pd p = { s.pd p with inbox := [] } ∧ t.sw p = s.sw p ∧ t.vc p = s.vc p) ∧
        ∀ r, r < 6 → (t.ridge r).switchPending = false ∧ (t.ridge r).probe = none ∧ (t.ridge r).run = (s.ridge r).run := by
  refine ⟨_, congrArg Host.Outcome.next (if_pos (by simp [hl, hr, hb, hc, State.framesSince, hw])), ?_⟩
  extract_lets _ _ _ _ _ a b
  have ha : a.sup.st = .hold ∧ a.sup.hFrame = s.frame ∧ a.sup.eng = {} ∧ a.events.lost = true ∧ a.irq = [] ∧ a.captures = [] ∧ a.events.recs = [] ∧
    a.host.slot = .empty ∧ a.host.place0 = none ∧ a.host.place12 = none ∧ a.tun = {} ∧ a.tester = s.tester ∧ a.otp.staged = [] ∧
    a.inn.next = none ∧ a.ledger = s.ledger ∧ a.phases = s.phases ∧ a.params = s.params ∧ a.fltSeq = s.fltSeq ∧ a.ports = s.ports ∧
    a.ridges = s.ridges := by
    exact ⟨rfl, rfl, rfl, rfl, rfl, rfl, rfl, rfl, rfl, rfl, rfl, rfl, rfl, rfl, rfl, rfl, rfl, rfl, rfl, rfl⟩
  obtain ⟨hsup, hframe, heng, hlost, hirq, hcap, hrecs, hslot, h0, h12, htun, htester, hotp, hnext, hled, hph, hpar, hseq, hports, hridges⟩ := ha
  obtain ⟨b1, b2⟩ := portsReset_spec a
  have hb : b = overN 24 portReset a := rfl
  rw [← hb] at b1 b2
  clear_value a b
  obtain ⟨c1, -, -, c4⟩ := overN_updRidgeOf (fun _ => Ridge.atReset) 6 b
  generalize overN 6 (fun r t => t.updRidge r Ridge.atReset) b = c at c1 c4 ⊢
  have hd : (c.updSeq fun q => { q with sleepAt := none }) = { a with ports := b.ports, ridges := c.ridges, seq := { a.seq with sleepAt := none } } := by
    rw [c1, b1]
    rfl
  generalize (c.updSeq fun q => { q with sleepAt := none }) = d at hd ⊢
  have hdt : d.tester = s.tester := by rw [hd]; exact htester
  have hde : d.events.recs = [] := by rw [hd]; exact hrecs
  have hdl : d.events.lost = true := by rw [hd]; exact hlost
  obtain ⟨e1, e2, e3, e4, e5, e6⟩ := State.sessionEnd_reset hde (by rw [hd]; exact htun)
  rw [hdt] at e5 e6
  generalize d.sessionEnd 5 = e at *
  have he : e = { a with ports := b.ports, ridges := c.ridges, seq := { a.seq with sleepAt := none }, tester := e.tester, tun := e.tun, attn := e.attn
                         events := e.events } := by
    rw [e1, hd]
  have hhost : e.host = a.host := by rw [he]
  have hesup : e.sup = a.sup := by rw [he]
  refine ⟨?_, ?_, ?_, e2.trans hdl, ?_, ?_, e5, e6, ?_, ?_, ?_, e4, e3, ?_, ?_, ?_, ?_, ?_, ?_, ?_, ?_, fun p hp => ?_, fun r hr => ?_⟩
  · rw [hesup, hsup]
  · rw [hesup, hframe]
  · rw [hesup, heng]
  · rw [he, hirq]
  · rw [he, hcap]
  · rw [hhost, hslot]
  · rw [hhost, h0]
  · rw [hhost, h12]
  · rw [he, hotp]
  · rw [he]
  · rw [he, hnext]
  · rw [he, hled]
  · rw [he, hph]
  · rw [he, hpar]
  · rw [he, hseq]
  · exact State.busMode_of_hold (by rw [hesup, hsup])
  · have hq : e.port p = _ := (congrArg (fun x : State => x.port p) he).trans (b2 p hp (by
      rw [hports]
      exact hs.1.symm ▸ hp))
    have hap : a.port p = s.port p := by
      unfold State.port
      rw [hports]
    unfold State.cc State.pd State.sw State.vc
    rw [hq, State.pd, hap]
    exact ⟨rfl, rfl, rfl, rfl⟩
  · have hbr : b.ridges = s.ridges := by rw [b1, hridges]
    have hq : e.ridge r = _ := (congrArg (fun x : State => x.ridge r) he).trans (c4 r hr (by
      rw [hbr]
      exact hs.ridge_lt hr))
    have hbq : b.ridge r = s.ridge r := by
      unfold State.ridge
      rw [hbr]
    rw [hq, hbq]
    exact ⟨rfl, rfl, rfl⟩

/-! ### The hold expires (R112, R446) -/

/-- R446: a phase that the ledger does not place. -/
def PhaseRec.unplaced (x : PhaseRec) : PhaseRec := { x with pair := 0, st := if x.st = 3 then 3 else 0, share := 0, paired := false }

theorem recPort_unplaced (k : Nat) (x : PhaseRec) : recPort k x.unplaced = none := by
  unfold recPort PhaseRec.unplaced
  dsimp only
  split
  · rfl
  · rfl

/-- R446: the ledger places no phase. -/
theorem unplaced_phase {l : Ledger} {rs : List PhaseRec} (h : l.phases = rs.map PhaseRec.unplaced) (k : Nat) :
    (l.phase k).pair = 0 ∧ recPort k (l.phase k) = none := by
  unfold Ledger.phase
  rw [h, List.getD_eq_getElem?_getD, List.getElem?_map]
  cases rs[k]? with
  | none => exact ⟨rfl, rfl⟩
  | some x => exact ⟨rfl, recPort_unplaced k x⟩

/-- R112: what the loss of conversion leaves. -/
theorem State.loseConversion_spec (hp : p < s.ports.length) :
    ((s.loseConversion p).cc p).st = .errorRecovery ∧ ((s.loseConversion p).cc p).toOutOfService = true ∧
      ((s.loseConversion p).pd p).lastEnd = 0xA ∧ ((s.loseConversion p).pd p).contract = {} ∧ ((s.loseConversion p).path p).swOn = false := by
  obtain ⟨hst, -, hsw, -, -, hc, hend, -⟩ := s.errorRecovery_spec p hp 0xA
  have hl : p < (s.errorRecovery p 0xA).ports.length := by
    rw [((OnlyPort.refl p s).errorRecovery 0xA).length_eq]
    exact hp
  have hq : (s.loseConversion p).port p = _ := State.port_updPort (s.errorRecovery p 0xA) p _ hl
  unfold State.cc State.pd State.path
  rw [hq]
  exact ⟨hst, rfl, hend, hc, hsw⟩

/-- R112: a port in service loses conversion, or stands in ErrorRecovery on its way out of service. -/
theorem dropPort_spec (hp : p < s.ports.length) (hi : (s.port p).inService = true) (hd : (s.cc p).st ≠ .disabled) (ho : (s.cc p).st ≠ .outOfService) :
    ((dropPort p s).cc p).st = .errorRecovery ∧ ((dropPort p s).cc p).toOutOfService = true ∧
      ((s.cc p).st ≠ .errorRecovery →
        ((dropPort p s).pd p).lastEnd = 0xA ∧ ((dropPort p s).pd p).contract = {} ∧ ((dropPort p s).path p).swOn = false) := by
  obtain ⟨k1, k2, k3⟩ := s.loseConversion_spec hp
  unfold dropPort
  rw [if_pos hi]
  cases hst : (s.cc p).st
  case disabled => exact absurd hst hd
  case outOfService => exact absurd hst ho
  case errorRecovery =>
    have hq : ((s.updCc p fun c => { c with toOutOfService := true }).cc p) = _ := State.cc_updCc s p _ hp
    dsimp only
    rw [hq]
    exact ⟨hst, rfl, fun k => absurd rfl k⟩
  all_goals exact ⟨k1, k2, fun _ => k3⟩

/-- R446: the ledger in force places no phase. -/
def State.unplaced (s : State) : State :=
  { s with ledger := { s.ledger with phases := s.ledger.phases.map PhaseRec.unplaced, ports := s.ledger.ports.map fun x => { x with nph := 0, pCover := 0, vCover := 0 } } }

/-- R446: the retained patch is given up. -/
def State.patchless (s : State) : State :=
  { s with svc := { s.svc with patch := [] }.noPatch, sup := { s.sup with romOnly := true, expired := true } }

theorem State.unplaced_spec (s : State) :
    s.unplaced.ledger.phases = s.ledger.phases.map PhaseRec.unplaced ∧ s.unplaced.sup = s.sup ∧ s.unplaced.ports = s.ports := ⟨rfl, rfl, rfl⟩

theorem State.patchless_spec (s : State) :
    s.patchless.sup.st = s.sup.st ∧ s.patchless.sup.expired = true ∧ s.patchless.sup.romOnly = true ∧ s.patchless.svc.patchRunning = false ∧
      s.patchless.ledger = s.ledger ∧ s.patchless.ports = s.ports := ⟨rfl, rfl, rfl, rfl, rfl, rfl⟩

theorem holdExpiry_eq (hl : s.locked = true) (hh : s.sup.st = .hold) (hf : s.sup.hFrame + 500 ≤ s.frame) (he : s.sup.expired = false) :
    holdExpiry s = ((overN 24 dropPort (placeFrame s.unplaced)).patchless.raise .supv 3).markDirty 18 := by
  unfold holdExpiry
  rw [if_pos (by simp [hl, hh, State.framesSince, hf, he])]
  extract_lets l a b _ _ c
  have ha : a = placeFrame s.unplaced := rfl
  have hb : b = overN 24 dropPort a := rfl
  have hc : c = b.patchless := rfl
  clear_value a b c
  rw [hc, hb, ha]

/-- R446: what the fault of the expired hold leaves. -/
theorem raise_markDirty_spec (c : State) :
    ((c.raise .supv 3).markDirty 18).sup = c.sup ∧ ((c.raise .supv 3).markDirty 18).svc = c.svc ∧ ((c.raise .supv 3).markDirty 18).ledger = c.ledger ∧
      ((c.raise .supv 3).markDirty 18).fltSupv.sticky.getLsbD 3 = true ∧ ∀ p, ((c.raise .supv 3).markDirty 18).port p = c.port p :=
  ⟨State.raise_sup .., State.raise_svc .., State.raise_ledger .., State.raise_sticky c .supv 3 trivial (by decide),
    fun p => (congrArg (fun x : State => x.port p) (State.raiseSupv_frame (s := c) 3) :)⟩

theorem holdExpiry_goes (hs : s.Shaped) (hl : s.locked = true) (hh : s.sup.st = .hold) (hf : s.sup.hFrame + 500 ≤ s.frame) (he : s.sup.expired = false) :
    Goes .holdExpiry s fun t =>
      t.sup.st = .hold ∧ t.sup.expired = true ∧ t.sup.romOnly = true ∧ t.svc.patchRunning = false ∧ t.fltSupv.sticky.getLsbD 3 = true ∧
        (∀ k, (t.ledger.phase k).pair = 0 ∧ recPort k (t.ledger.phase k) = none) ∧
        ∀ p, p < 24 → (s.port p).inService = true → (s.cc p).st ≠ .disabled → (s.cc p).st ≠ .outOfService →
          (t.cc p).st = .errorRecovery ∧ (t.cc p).toOutOfService = true ∧
            ((s.cc p).st ≠ .errorRecovery → (t.pd p).lastEnd = 0xA ∧ (t.pd p).contract = {} ∧ (t.path p).swOn = false) := by
  obtain ⟨hports, -⟩ := hs
  refine ⟨_, congrArg Host.Outcome.next (holdExpiry_eq hl hh hf he), ?_⟩
  obtain ⟨hvl, hvs, hvp⟩ := s.unplaced_spec
  generalize s.unplaced = v at *
  obtain ⟨p1, p2, p3⟩ := placeFrame_spec (s := v)
  generalize placeFrame v = a at *
  obtain ⟨⟨q1, -⟩, -, q3⟩ := overN_onlyPort (fun p t => (OnlyPort.refl p t).dropPort) 24 a
  generalize overN 24 dropPort a = b at *
  obtain ⟨hc1, hc2, hc3, hc4, hcl, hcp⟩ := b.patchless_spec
  generalize b.patchless = c at *
  obtain ⟨htsup, htsvc, htled, hws, hport⟩ := raise_markDirty_spec c
  generalize (c.raise .supv 3).markDirty 18 = w at *
  have hlen : a.ports.length = 24 := by rw [p2, hvp, hports]
  have hled : b.ledger = v.ledger := by rw [q1, p1]
  have hsup : b.sup = s.sup := by rw [q1, p1, hvs]
  rw [htsup, htsvc, htled]
  refine ⟨by rw [hc1, hsup, hh], hc2, hc3, hc4, hws, fun k => unplaced_phase (by rw [hcl, hled, hvl]) k, fun p hp hi hd ho => ?_⟩
  obtain ⟨u, ⟨-, hul⟩, hup, hq⟩ := q3 p hp
  have hhome : (u.port p).atHome = (s.port p).atHome := by
    rw [hup, p3]
    unfold State.port
    rw [hvp]
  have hui : (u.port p).inService = (s.port p).inService := congrArg Prod.fst hhome
  have hus : (u.cc p).st = (s.cc p).st := congrArg (fun x => x.2.1) hhome
  have hr := dropPort_spec (s := u) (p := p) (by omega) (hui.trans hi) (by rw [hus]; exact hd) (by rw [hus]; exact ho)
  rw [hus] at hr
  have hcq : c.port p = b.port p := by
    unfold State.port
    rw [hcp]
  unfold State.cc State.pd State.path at hr ⊢
  rw [hport, hcq, hq]
  exact hr

/-! ### The return (R445, R447) -/

/-- What the restart keeps of a state: the clock, the supervisor and each port's count of a Hard Reset in the hold. -/
structure Returning (s t : State) : Prop where
  frame : t.frame = s.frame
  sup : t.sup = s.sup
  ports : t.ports.length = s.ports.length
  owed : ∀ p, (t.pd p).hrInHold = (s.pd p).hrInHold

theorem Returning.refl (s : State) : Returning s s := ⟨rfl, rfl, rfl, fun _ => rfl⟩

theorem Returning.trans (h : Returning s t) (k : Returning t u) : Returning s u :=
  ⟨k.frame.trans h.frame, k.sup.trans h.sup, k.ports.trans h.ports, fun p => (k.owed p).trans (h.owed p)⟩

theorem Returning.ite {q : Prop} [Decidable q] {a b : State} (h : Returning s a) (k : Returning s b) : Returning s (if q then a else b) := by
  split
  · exact h
  · exact k

theorem Returning.overN {f : Nat → State → State} (h : ∀ i t, Returning t (f i t)) (n : Nat) (s : State) : Returning s (overN n f s) := by
  induction n with
  | zero => exact .refl s
  | succ n ih =>
    rw [overN_succ]
    exact ih.trans (h n _)

/-- A change that leaves the ports. -/
theorem Returning.same (hf : t.frame = s.frame) (hs : t.sup = s.sup) (hp : t.ports = s.ports) : Returning s t := by
  refine ⟨hf, hs, by rw [hp], fun p => ?_⟩
  unfold State.pd State.port
  rw [hp]

theorem Returning.updPort (n : Nat) (f : Port → Port) (h : ∀ x, (f x).pd.hrInHold = x.pd.hrInHold) : Returning s (s.updPort n f) :=
  ⟨rfl, rfl, State.updPort_length .., fun _ => State.port_updPort_part s n _ (fun x => x.pd.hrInHold) f h⟩

theorem Returning.updPhase (k : Nat) (f : Phase → Phase) : Returning s (s.updPhase k f) := .same rfl rfl rfl
theorem Returning.updRidge (k : Nat) (f : Ridge → Ridge) : Returning s (s.updRidge k f) := .same rfl rfl rfl
theorem Returning.updFeed (k : Nat) (f : Feed → Feed) : Returning s (s.updFeed k f) := .same rfl rfl rfl
theorem Returning.updCairn (k : Nat) (f : Cairn → Cairn) : Returning s (s.updCairn k f) := .same rfl rfl rfl
theorem Returning.markDirty (k : Nat) : Returning s (s.markDirty k) := .updCairn k _
theorem Returning.updCc (k : Nat) (f : CcLayer → CcLayer) : Returning s (s.updCc k f) := .updPort k _ fun _ => rfl
theorem Returning.updPath (k : Nat) (f : Path → Path) : Returning s (s.updPath k f) := .updPort k _ fun _ => rfl
theorem Returning.setItem (id v : Nat) : Returning s (s.setItem id v) := .same rfl rfl rfl

theorem Returning.setFlt (b : Blk) (f : Flt) : Returning s (s.setFlt b f) := by
  cases b with
  | portCc p => exact .updCc p fun q => { q with flt := f }
  | portPath p => exact .updPath p fun q => { q with flt := f }
  | feed x => exact .updFeed x _
  | phase k => exact .updPhase k _
  | ridge r => exact .updRidge r _
  | _ => exact .same rfl rfl rfl

theorem Returning.raise (b : Blk) (i : Nat) : Returning s (s.raise b i) :=
  ⟨State.raise_frame .., State.raise_sup .., State.raise_ports_length .., fun p => by
    unfold State.pd
    rw [State.raise_port_pd]⟩

theorem Returning.pushEvent (kd i : Nat) (d : List Byte) : Returning s (s.pushEvent kd i d) := .same rfl rfl rfl

theorem Returning.checkCairn (n : Nat) : Returning s (s.checkCairn n) := by
  unfold State.checkCairn
  refine .ite (Returning.trans (t := s.updCairn n fun c => { c with state := 2 }) ?_ (.raise _ _)) (.refl s)
  exact .updCairn n _

theorem Returning.retired (r v n : Nat) : Returning s (Machine.overN n (fun k t => t.updPhase (8 * r + k) fun f => { f with retired := v.testBit k }) s) := by
  refine .overN ?_ n s
  exact fun _ _ => .updPhase _ _

theorem Returning.write (v : Nat) (f : CField) : Returning s (f.write v s) := by
  cases f with
  | item id => exact .setItem id v
  | pin b => exact .setFlt b _
  | attn b => exact .setFlt b _
  | retired r => exact .retired r v 8
  | portEst p m => exact .updPath p fun f => { f with est := f.est.set m v }
  | vOfs p => exact .updPath p fun f => { f with vRunOfs := ofsTaken s (72 + p) v }
  | iOfs p => exact .updPath p fun f => { f with iRunOfs := ofsTaken s (48 + p) v }
  | activeSrc r => exact .updRidge r _
  | activeId r => exact .updRidge r _
  | decodeId r => exact .updRidge r _
  | est k m => exact .updPhase k _
  | runOfs k => exact .updPhase k _
  | lBase k => exact .updPhase k _
  | ridgeEst r m => exact .updRidge r _

theorem Returning.fieldsTake (l : List CField) (bs : List Byte) : Returning s (fieldsTake l bs s) := by
  induction l generalizing bs s with
  | nil => exact .refl s
  | cons f l ih => exact (Returning.write _ f).trans (ih _)

theorem Returning.fieldsDefault (l : List CField) : Returning s (fieldsDefault l s) := by
  induction l generalizing s with
  | nil => exact .refl s
  | cons f l ih => exact (Returning.write _ f).trans ih

theorem Returning.takeFields (n : Nat) (l : List CField) (off : Nat) : Returning s (s.takeFields n l off) := by
  unfold State.takeFields
  exact (Returning.checkCairn n).trans (.ite (.fieldsTake _ _) (.fieldsDefault _))

theorem Returning.takeRidgeCairn (runs : Bool) (r : Nat) : Returning s (takeRidgeCairn runs r s) := by
  unfold Machine.takeRidgeCairn
  have h : Returning s (s.takeCairn (4 + r)) := .takeFields _ _ _
  exact .ite (h.trans (.updRidge _ _)) h

theorem Returning.takeTables : Returning s (takeTables s) := by
  unfold Machine.takeTables
  have h : Returning s ((s.checkCairn 16).checkCairn 17) := (Returning.checkCairn 16).trans (.checkCairn 17)
  generalize (s.checkCairn 16).checkCairn 17 = v at *
  exact h.trans (.same rfl rfl rfl)

theorem Returning.restoreCairns (runs : Bool) : Returning s (restoreCairns runs s) := by
  unfold Machine.restoreCairns
  extract_lets a b c
  have ha : Returning s a := .takeFields _ _ _
  have hb : Returning a b := .overN (fun r _ => .takeRidgeCairn runs r) 6 a
  have hc : Returning b c := .overN (fun _ _ => .takeFields _ _ _) 6 b
  exact ((ha.trans hb).trans hc).trans .takeTables

/-- R445: the retained patch is discarded. -/
theorem Returning.discard : Returning s { s with svc := { s.svc with patch := [] }.noPatch } := .same rfl rfl rfl

theorem Returning.verifyRetained : Returning s s.verifyRetained := by
  have hv : Returning s (s.checkCairn 18) := .checkCairn 18
  unfold State.verifyRetained
  generalize s.checkCairn 18 = v at *
  refine .ite (hv.trans .discard) ?_
  split
  · exact hv.trans (.same rfl rfl rfl)
  · exact (((hv.trans .discard).trans (.raise _ _)).trans (.pushEvent _ _ _)).trans (.markDirty _)

theorem Returning.restartPatch : Returning s (restartPatch s) := .ite (.same rfl rfl rfl) .verifyRetained

theorem Returning.countersAnew : Returning s (countersAnew s) := by
  unfold Machine.countersAnew
  extract_lets a b c
  have ha : Returning s a := by
    refine .overN ?_ 24 s
    exact fun _ _ => .updPort _ _ fun _ => rfl
  have hb : Returning a b := by
    refine .overN ?_ 2 a
    exact fun _ _ => .updFeed _ _
  have hc : Returning b c := by
    refine .overN ?_ 6 b
    exact fun _ _ => .updRidge _ _
  have h := (ha.trans hb).trans hc
  clear_value c
  exact h.trans (.same rfl rfl rfl)

theorem Returning.placeFrame : Returning s (placeFrame s) := by
  unfold Machine.placeFrame
  extract_lets a b c
  have ha : Returning s a := by
    refine .overN ?_ 48 s
    exact fun _ _ => .updPhase _ _
  have hb : Returning a b := by
    refine .overN ?_ 24 a
    exact fun _ _ => .updPath _ _
  have hc : Returning b c := by
    refine .overN ?_ 24 b
    exact fun _ _ => .updCc _ _
  have hd : ∀ p t, Returning t (t.countUp p .overdraw) := fun p t => .updPort p _ fun _ => rfl
  refine ((ha.trans hb).trans hc).trans (.overN ?_ 24 c)
  exact fun p t => .ite (hd p t) (.refl t)

theorem Returning.updPd (k : Nat) (f : Pd → Pd) (h : ∀ x, (f x).hrInHold = x.hrInHold) : Returning s (s.updPd k f) := .updPort k _ fun x => h x.pd

theorem Returning.solveNow : Returning s (solveNow s) := by
  have hp : Returning s (takeProbes s) := by
    unfold takeProbes
    refine .overN ?_ 6 s
    exact fun _ _ => .updRidge _ _
  unfold Machine.solveNow
  dsimp only
  generalize takeProbes s = v at *
  have hv : ∀ i, Returning s { v with inn := i } := fun i => hp.trans (.same rfl rfl rfl)
  refine (hv _).trans (.overN ?_ 24 _)
  exact fun p u => .updPd p _ fun _ => rfl

theorem State.voidContract_owed (hp : p < s.ports.length) (c : Nat) : ((s.voidContract p c).port p).pd.hrInHold = (s.port p).pd.hrInHold := by
  unfold State.voidContract
  dsimp only
  split <;> simp [State.pd_updPd, hp]

theorem State.errorRecovery_owed (hp : p < s.ports.length) (c : Nat) : ((s.errorRecovery p c).pd p).hrInHold = (s.pd p).hrInHold := by
  have hv : ((s.attachOver p c true).port p).pd.hrInHold = (s.port p).pd.hrInHold := by
    unfold State.attachOver
    simp [State.pd_updPd, hp, State.voidContract_owed]
  unfold State.errorRecovery State.openPort
  simp [State.pd, State.discharge, State.port_updPort, hp, hv]

/-- R445: the patch after a restart with MODE 0. -/
theorem restartPatch_romOnly (h : s.sup.romOnly = true) : (restartPatch s).svc.patchRunning = false ∧ (restartPatch s).svc.patchLevel = 0 := by
  unfold restartPatch
  rw [if_pos h]
  exact ⟨rfl, rfl⟩

/-- R447: the counters that begin again. -/
theorem countersAnew_spec : (countersAnew s).svc = s.svc ∧ (countersAnew s).dev.uptime = 0 := by
  unfold countersAnew
  extract_lets a b c
  have ha : a.svc = s.svc := by
    refine overN_keeps State.svc ?_ 24 s
    exact fun _ _ => rfl
  have hb : b.svc = a.svc := by
    refine overN_keeps State.svc ?_ 2 a
    exact fun _ _ => rfl
  have hc : c.svc = b.svc := by
    refine overN_keeps State.svc ?_ 6 b
    exact fun _ _ => rfl
  clear_value a b c
  exact ⟨hc.trans (hb.trans ha), rfl⟩

/-- R445: the supervisor's own memory after its restart. -/
def restarted (s : State) : State := countersAnew (restartPatch (restoreCairns true s))

theorem restarted_spec (s : State) :
    Returning s (restarted s) ∧ (restarted s).dev.uptime = 0 ∧
      (s.sup.romOnly = true → (restarted s).svc.patchRunning = false ∧ (restarted s).svc.patchLevel = 0) := by
  unfold restarted
  have ha : Returning s (restoreCairns true s) := .restoreCairns true
  generalize restoreCairns true s = a at *
  obtain ⟨h1, h2⟩ := countersAnew_spec (s := restartPatch a)
  refine ⟨(ha.trans .restartPatch).trans .countersAnew, h2, fun h => ?_⟩
  rw [h1]
  exact restartPatch_romOnly (by rw [ha.sup]; exact h)

/-- R113: a message timer that has not counted the hold. -/
def Pd.heldOver (frame held : Nat) (d : Pd) : Pd := { d with lastReq := min frame (d.lastReq + held), lastMsg := min frame (d.lastMsg + held) }

/-- R445: the supervisor serves again. -/
def State.supUp (s : State) : State :=
  { s with sup := { s.sup with st := .up }, inn := { started := true, feedHist := s.inn.feedHist, outHist := s.inn.outHist } }

/-- R113, R445: the supervisor serves again, and the ports' message timers have not counted the hold. -/
def servesAgain (held : Nat) (s : State) : State := (overN 24 (fun p t => t.updPd p (Pd.heldOver s.frame held)) s).supUp

/-- R445: the full solve of the frame before. -/
def solvedBefore (s : State) : State := { solveNow { s with frame := s.frame - 1 } with frame := s.frame }

/-- The ledger solved takes force. -/
def State.ledgerTaken (s : State) : State := { s with ledger := s.inn.next.getD s.ledger, inn := { s.inn with next := none } }

/-- R445: the ledger of the full solve in the frame before takes force. -/
def newLedger (s : State) : State := overN 24 (fun p t => t.updPd p Pd.ledgerTakes) (solvedBefore s).ledgerTaken

/-- R112: the Hard Reset that a port met in the hold. -/
def heldReset (p : Nat) (t : State) : State := if (t.pd p).hrInHold then (t.updPd p fun d => { d with hrInHold := false }).errorRecovery p 0xB else t

theorem supervisorReturn_eq (hl : s.locked = true) (hh : s.sup.st = .hold) (hb : s.atBoundary = true) (hf : s.sup.hFrame < s.frame) :
    supervisorReturn s =
      attnFrame (overN 24 heldReset (placeFrame (newLedger (servesAgain ((restarted s).frame - (restarted s).sup.hFrame) (restarted s))))) := by
  unfold supervisorReturn
  rw [if_pos (by simp [hl, hh, hb, hf])]
  extract_lets a held b _ c _ d _ e f g
  have hc : c = servesAgain held a := rfl
  have he : e = newLedger c := rfl
  have hg : g = overN 24 heldReset (placeFrame e) := rfl
  clear_value c e g
  rw [hg, he, hc]
  rfl

/-- A sweep over the negotiations of the ports. -/
theorem sweepPd_spec (f : Pd → Pd) (hf : ∀ x, (f x).hrInHold = x.hrInHold) (s : State) :
    overN 24 (fun p t => t.updPd p f) s = { s with ports := (overN 24 (fun p t => t.updPd p f) s).ports } ∧ Returning s (overN 24 (fun p t => t.updPd p f) s) := by
  refine ⟨(overN_portAlone (f := fun p t => t.updPd p f) (fun p t => (PortAlone.refl p t).updPd _) 24 s).1, .overN ?_ 24 s⟩
  exact fun p _ => .updPd p f hf

theorem servesAgain_spec (held : Nat) (s : State) :
    (servesAgain held s).sup.st = .up ∧ (servesAgain held s).inn.started = true ∧ (servesAgain held s).frame = s.frame ∧
      (servesAgain held s).dev = s.dev ∧ (servesAgain held s).svc = s.svc ∧ (servesAgain held s).ports.length = s.ports.length ∧
      ∀ p, ((servesAgain held s).pd p).hrInHold = (s.pd p).hrInHold := by
  unfold servesAgain
  obtain ⟨h1, h2⟩ := sweepPd_spec (Pd.heldOver s.frame held) (fun _ => rfl) s
  generalize overN 24 (fun p t => t.updPd p (Pd.heldOver s.frame held)) s = a at *
  have hdev : a.dev = s.dev := by rw [h1]
  have hsvc : a.svc = s.svc := by rw [h1]
  exact ⟨rfl, rfl, h2.frame, hdev, hsvc, h2.ports, h2.owed⟩

theorem solvedBefore_spec (hf : 0 < s.frame) :
    (solvedBefore s).sup = s.sup ∧ (solvedBefore s).inn.started = s.inn.started ∧ (solvedBefore s).frame = s.frame ∧ (solvedBefore s).dev = s.dev ∧
      (solvedBefore s).svc = s.svc ∧ Returning s (solvedBefore s) ∧
      ∃ l : Ledger, (solvedBefore s).inn.next = some l ∧ l.hdr.frame = s.frame % 2 ^ 32 ∧ l.hdr.held = false := by
  unfold solvedBefore
  obtain ⟨v, hv, hvf⟩ : ∃ v : State, v = { s with frame := s.frame - 1 } ∧ v.frame = s.frame - 1 := ⟨_, rfl, rfl⟩
  rw [← hv]
  obtain ⟨-, e⟩ := solveNow_spec v
  obtain ⟨hlf, -⟩ := solveLedger_spec v
  have hlh : (solveLedger v).hdr.held = false := rfl
  have hr : Returning v (solveNow v) := .solveNow
  generalize solveNow v = w at *
  generalize solveLedger v = l at *
  have hsup : w.sup = s.sup := by rw [e, hv]
  have hinn : w.inn.started = s.inn.started := by rw [e, hv]
  have hdev : w.dev = s.dev := by rw [e, hv]
  have hsvc : w.svc = s.svc := by rw [e, hv]
  have hnext : w.inn.next = some l := by rw [e]
  refine ⟨hsup, hinn, rfl, hdev, hsvc, ⟨rfl, hsup, ?_, fun p => ?_⟩, l, hnext, ?_, hlh⟩
  · exact hr.ports.trans (by rw [hv])
  · exact (hr.owed p).trans (by rw [hv]; rfl)
  · rw [hlf, hvf, Nat.sub_add_cancel hf]

theorem newLedger_spec (hf : 0 < s.frame) :
    (newLedger s).sup = s.sup ∧ (newLedger s).inn.started = s.inn.started ∧ (newLedger s).inn.next = none ∧
      (newLedger s).ledger.hdr.frame = s.frame % 2 ^ 32 ∧ (newLedger s).ledger.hdr.held = false ∧ (newLedger s).dev = s.dev ∧
      (newLedger s).svc = s.svc ∧ Returning s (newLedger s) := by
  unfold newLedger
  obtain ⟨h1, h2, -, h3, h4, h5, l, h6, h7, h8⟩ := solvedBefore_spec hf
  generalize solvedBefore s = a at *
  obtain ⟨b1, b2, b3, b4, b5, b6, b7⟩ : a.ledgerTaken.sup = a.sup ∧ a.ledgerTaken.inn.started = a.inn.started ∧ a.ledgerTaken.inn.next = none ∧
      a.ledgerTaken.ledger = a.inn.next.getD a.ledger ∧ a.ledgerTaken.dev = a.dev ∧ a.ledgerTaken.svc = a.svc ∧ Returning a a.ledgerTaken :=
    ⟨rfl, rfl, rfl, rfl, rfl, rfl, .same rfl rfl rfl⟩
  generalize a.ledgerTaken = b at *
  obtain ⟨c1, c2⟩ := sweepPd_spec Pd.ledgerTakes (fun _ => rfl) b
  generalize overN 24 (fun p t => t.updPd p Pd.ledgerTakes) b = c at *
  have hinn : c.inn = b.inn := by rw [c1]
  have hled : c.ledger = l := by rw [c1, b4, h6]; rfl
  have hdev : c.dev = b.dev := by rw [c1]
  have hsvc : c.svc = b.svc := by rw [c1]
  refine ⟨c2.sup.trans (b1.trans h1), ?_, ?_, ?_, ?_, hdev.trans (b5.trans h3), hsvc.trans (b6.trans h4), (h5.trans b7).trans c2⟩
  · rw [hinn, b2, h2]
  · rw [hinn, b3]
  · rw [hled, h7]
  · rw [hled, h8]

theorem heldReset_alone (p : Nat) (t : State) : OnlyPort p t (heldReset p t) :=
  OnlyPort.ite (((OnlyPort.refl p t).updPd _).errorRecovery 0xB) (.refl p t)

theorem heldReset_spec (hp : p < s.ports.length) (h : (s.pd p).hrInHold = true) :
    ((heldReset p s).cc p).st = .errorRecovery ∧ ((heldReset p s).pd p).lastEnd = 0xB ∧ ((heldReset p s).pd p).hrInHold = false := by
  unfold heldReset
  rw [if_pos h]
  have hl : p < (s.updPd p fun d => { d with hrInHold := false }).ports.length := by
    rw [State.updPd_ports_length]
    exact hp
  obtain ⟨hst, -, -, -, -, -, hend, -⟩ := (s.updPd p fun d => { d with hrInHold := false }).errorRecovery_spec p hl 0xB
  refine ⟨hst, hend, ?_⟩
  rw [State.errorRecovery_owed hl, State.pd, State.updPd, State.port_updPort _ _ _ hp]

/-- R445, R447: the return of the supervisor. -/
theorem supervisorReturn_goes (hs : s.Shaped) (hl : s.locked = true) (hh : s.sup.st = .hold) (hb : s.atBoundary = true) (hf : s.sup.hFrame < s.frame) :
    Goes .supervisorReturn s fun t =>
      t.sup.st = .up ∧ t.inn.started = true ∧ t.inn.next = none ∧ t.frame = s.frame ∧ t.ledger.hdr.frame = s.frame % 2 ^ 32 ∧
        t.ledger.hdr.held = false ∧ t.dev.uptime = 0 ∧
        (s.sup.romOnly = true → t.svc.patchRunning = false ∧ t.svc.patchLevel = 0) ∧
        ∀ p, p < 24 → (s.pd p).hrInHold = true → (t.cc p).st = .errorRecovery ∧ (t.pd p).lastEnd = 0xB ∧ (t.pd p).hrInHold = false := by
  obtain ⟨hports, -⟩ := hs
  refine ⟨_, congrArg Host.Outcome.next (supervisorReturn_eq hl hh hb hf), ?_⟩
  obtain ⟨a1, a2, a3⟩ := restarted_spec s
  generalize restarted s = a at *
  obtain ⟨b1, b2, b3, b4, b5, b6, b7⟩ := servesAgain_spec (a.frame - a.sup.hFrame) a
  generalize servesAgain (a.frame - a.sup.hFrame) a = b at *
  have hbf : b.frame = s.frame := b3.trans a1.frame
  obtain ⟨c1, c2, c3, c4, c5, c6, c7, c8⟩ := newLedger_spec (s := b) (by omega)
  generalize newLedger b = c at *
  obtain ⟨d1, -, -⟩ := placeFrame_spec (s := c)
  have d2 : Returning c (placeFrame c) := .placeFrame
  generalize placeFrame c = d at *
  obtain ⟨⟨e1, e2⟩, -, e3⟩ := overN_onlyPort heldReset_alone 24 d
  generalize overN 24 heldReset d = e at *
  have hlen : d.ports.length = 24 := by rw [d2.ports, c8.ports, b6, a1.ports, hports]
  obtain ⟨f1, f2⟩ : attnFrame e = { e with attn := (attnFrame e).attn, bus := (attnFrame e).bus } ∧ ∀ p, (attnFrame e).port p = e.port p := by
    unfold attnFrame
    split
    · exact ⟨rfl, fun _ => rfl⟩
    · exact ⟨rfl, fun _ => rfl⟩
  generalize attnFrame e = t at *
  have hsup : t.sup = b.sup := by rw [f1, e1, d1]; exact c1
  have hinn : t.inn = c.inn := by rw [f1, e1, d1]
  have hled : t.ledger = c.ledger := by rw [f1, e1, d1]
  have hdev : t.dev = a.dev := by rw [f1, e1, d1]; exact c6.trans b4
  have hfr : t.frame = s.frame := by rw [f1, e1, d1]; exact c8.frame.trans hbf
  have hsvc : t.svc.patchRunning = a.svc.patchRunning ∧ t.svc.patchLevel = a.svc.patchLevel := by
    rw [← b5, ← c7, f1, e1, d1]
    exact ⟨rfl, rfl⟩
  obtain ⟨hrun, hlev⟩ := hsvc
  rw [hsup, hinn, hled, hdev, hfr, hrun, hlev, c4, hbf]
  refine ⟨b1, c2.trans b2, c3, rfl, rfl, c5, a2, a3, fun p hp h => ?_⟩
  obtain ⟨u, ⟨-, hul⟩, hup, hq⟩ := e3 p hp
  have howed : (u.pd p).hrInHold = true := by
    rw [State.pd, hup]
    exact (d2.owed p).trans ((c8.owed p).trans ((b7 p).trans ((a1.owed p).trans h)))
  have hr := heldReset_spec (s := u) (p := p) (by omega) howed
  unfold State.cc State.pd at hr ⊢
  rw [f2, hq]
  exact hr

/-- Settles O56: the hold begins at a frame boundary, ends in the supervisor's return, or expires. -/
theorem supervisorRestart : Obligations.SupervisorRestart := by
  unfold Obligations.SupervisorRestart
  exact ⟨fun _ hs hl hr hb hc hw => supRestartHoldBegin_goes hs hl hr hb hc hw,
    fun _ hs hl hh hb hf => supervisorReturn_goes hs hl hh hb hf,
    fun _ hs hl hh hf he => holdExpiry_goes hs hl hh hf he⟩

end Sys2Proof.Machine
end
